-- ==== Sys2Proof/Word.lean ====
section
/-! DEFINITION. The bit-vector types of the module and the plainest list arithmetic over them. -/

namespace Sys2Proof

/-- One byte. -/
abbrev Byte := BitVec 8

/-- One 32-bit word: a register, a word of a command packet, of a reply or of an event record. -/
abbrev Word := BitVec 32

/-- One FP32 value as its bits. -/
abbrev F32 := BitVec 32

/-- A table keyed by a number: pairs with strictly rising keys. -/
abbrev Tbl (α : Type) := List (Nat × α)

end Sys2Proof
end

