-- ==== Sys2Proof/Syntax.lean ====
section
/-! DEFINITION. The operands of the commands and the ONE inductive of commands and events: one constructor for each
row of spec/opcode_table.json. Data that reaches the module from outside (bytes of host memory, packets, sensor
readings, the outcome of a check of an analogue part) is an operand of the row that brings it. -/

namespace Sys2Proof

/-- A PCI Express function: `num` 0 is the PF of `port`, `num` k is VF k (R39). -/
structure Fn where
  port : Nat
  num : Nat
deriving DecidableEq, Repr

/-- A register window of a function (R42): BAR0, or BAR4, the read-only mirror of the MTR window. -/
inductive Bar where
  | bar0 | bar4
deriving DecidableEq, Repr

/-- The window of a function that a register access goes to. -/
structure Window where
  fn : Fn
  bar : Bar
deriving DecidableEq, Repr

/-- The place of an access in its window, and its size in bytes (R4). -/
structure Span where
  off : Nat
  size : Nat
deriving DecidableEq, Repr

/-- A read of submission ring `sq`, at the host address that it is sent to (R45, R48). -/
structure RingRead where
  sq : Nat
  addr : Nat
deriving DecidableEq, Repr

/-- The engines that can post a packet to an internal ring (R60), and firmware under partition policy. -/
inductive Engine where
  | tiller | culm | spelt | reed | panicle | sheaf | firmware
deriving DecidableEq, Repr

/-- Where a command came from: a slot of a submission ring, or an engine's internal ring (R60). -/
inductive CmdSrc where
  | ring (fn : Fn) (sq slot : Nat)
  | engine (e : Engine)
deriving DecidableEq, Repr

/-- A command packet (R49): where it came from and its words, word 0 first. -/
structure Cmd where
  src : CmdSrc
  words : List Word
deriving DecidableEq, Repr

/-- How a read that the module sent over PCI Express completed (R48). -/
inductive Completion where
  | ok | unsupported | abort | poisoned
deriving DecidableEq, Repr

/-- What starts a reset of one PCI Express port (R439). -/
inductive PortResetKind where
  | perst | hotReset | linkDisable
deriving DecidableEq, Repr

/-- What the error code found in a word it read (R155, R418, R419). -/
inductive Ecc where
  | clean | corrected | uncorrectable
deriving DecidableEq, Repr

/-- Agents that read or write memory (R142, R147). -/
inductive Agent where
  | host (fn : Fn)
  | culm | reed | sheaf | tiller | spelt | panicle | ctl
  | core (n : Nat)
deriving DecidableEq, Repr

/-- Who accesses memory: the agent, and the partition it works for. -/
structure Requester where
  ag : Agent
  part : Nat
deriving DecidableEq, Repr

/-- How a NAND read ended (R126, R127). -/
inductive NandRead where
  | ok | worn | rebuilt | unreadable
deriving DecidableEq, Repr

/-! ### Near-bank and core operations (R151, R163) -/

/-- Integer operations of the Glume scalar core and of the core's sequencer. -/
inductive AluOp where
  | add | sub | and | or | xor | shl | shr | sra | cmpEq | cmpLt | cmpLtu
deriving DecidableEq, Repr

/-- Branch conditions. -/
inductive Cond where
  | always | eq | ne | lt | ge | ltu | geu
deriving DecidableEq, Repr

/-- A register or a 12-bit immediate operand of the Glume scalar core. -/
inductive GSrc where
  | reg (r : Nat)
  | imm (v : BitVec 12)
deriving DecidableEq, Repr

/-- A register or a 16-bit immediate operand of the core's sequencer. -/
inductive CSrc where
  | reg (r : Nat)
  | imm (v : BitVec 16)
  | li (v : BitVec 48)
deriving DecidableEq, Repr

/-- Lane-wise FP32 operations. -/
inductive VecOp where
  | add | mul | fma | max | exp2 | rcp | rsqrt
deriving DecidableEq, Repr

/-- A vector operand: a register, or a broadcast scalar register. -/
inductive VSrc where
  | reg (r : Nat)
  | bcast (r : Nat)
deriving DecidableEq, Repr

/-- The forms of a core branch. -/
inductive CoreBr where
  | b (target : Nat)
  | bcc (c : Cond) (rs rt : Nat) (target : Nat)
  | j (target : Nat)
  | call (target : Nat)
  | ret
deriving DecidableEq, Repr

/-- What a core asks Culm to transfer with XFER: bytes of its local store to a device address, a 64-byte Glume
command, or a transfer from a device address into its local store. -/
inductive XferKind where
  | out (dst : Nat)
  | glume (anchor : Nat)
  | inp (src : Nat)
deriving DecidableEq, Repr

/-! ### Network -/

/-- BTH operations (R299), those outside the subset included. -/
inductive BthOp where
  | sendFirst | sendMiddle | sendLast | sendOnly | sendLastImm | sendOnlyImm
  | writeFirst | writeMiddle | writeLast | writeOnly | writeLastImm | writeOnlyImm
  | readReq | readRespFirst | readRespMiddle | readRespLast | readRespOnly
  | ack | cnp | unsupported
deriving DecidableEq, Repr

/-- The Reed multipath header (R301). -/
structure MpHdr where
  version : Nat
  immValid : Bool
  session : Bool
  ackPkt : Bool
  reserved : Bool
  path : Nat
  status : Nat
  msn : Nat
  msgLen : Nat
  offset : Nat
  sesHandle : Word
  imm : Word
  seq : Nat
deriving DecidableEq, Repr

/-- A RETH: the remote address, the memory key and the length. -/
structure Reth where
  va : Nat
  rkey : Word
  len : Nat
deriving DecidableEq, Repr

/-- A packet as the parser hands it up: the fields Reed's rules read. `tagOk` says that the AES-256-GCM tag checks,
`icrcOk` that the ICRC checks, `ce` the congestion mark (a packet that Reed sends has none: it is ECT(0), R322), `sport` and `dport` the
UDP ports; `ackStatus` and `nak` carry an acknowledgement. -/
structure Packet where
  sub : Nat
  dst : Nat
  vlan : Nat
  qpn : Nat
  pkey : Nat
  bth : BthOp
  psn : Nat
  mp : Option MpHdr
  reth : Option Reth
  imm : Option Word
  payload : List Byte
  icrcOk : Bool
  tagOk : Bool
  ce : Bool
  nak : Option Nat
  rnrTimer : Option Nat
  sport : Nat
  dport : Nat
deriving DecidableEq, Repr

/-- What a frame carries above the MAC (R295). -/
inductive FrameKind where
  | roce4 (options : Bool) | roce6 (extHdrs : Bool) | pfc | arp | neighbour | other
deriving DecidableEq, Repr

/-- A frame at a sub-port's MAC (R295). -/
structure Frame where
  sub : Nat
  len : Nat
  tags : Nat
  fcsOk : Bool
  kind : FrameKind
  icrcOk : Bool
deriving DecidableEq, Repr

/-! ### Sideband -/

/-- SPDM requests (R373). -/
inductive SpdmReq where
  | getVersion | getCapabilities | negotiateAlgorithms | getDigests | getCertificate | challenge
  | getMeasurements (signed : Bool) | respondIfReady (token : Nat) | other
deriving DecidableEq, Repr

/-- The SPDM responders (R373): a function's DOE mailbox, or MCTP on a sideband bus. -/
inductive SpdmPort where
  | doe (fn : Fn)
  | mctp (bus : Nat)
deriving DecidableEq, Repr

/-- PLDM requests (R476). -/
inductive PldmReq where
  | discovery | getSensorReading (sensor : Nat) | getPdr (record : Nat) | setEventReceiver (eid : Nat)
  | pollEvent | other
deriving DecidableEq, Repr

/-- MCTP control and I3C address messages (R475). -/
inductive MctpReq where
  | entdaa (addr : Nat) | setdasa (addr : Nat) | setEid (eid : Nat) | getEid | other
deriving DecidableEq, Repr

/-- PCI Express configuration writes that the manual gives an effect: SR-IOV VF Enable and NumVFs, ARI (R39, R69). -/
inductive CfgWrite where
  | vfEnable (on : Bool) | numVfs (n : Nat) | ari (on : Bool) | other
deriving DecidableEq, Repr

/-- Why a key-engine operation ended (R379, R383, R388): it succeeded with a plaintext, or its decoding failed. -/
inductive KeyResult where
  | ok (plain : List Byte)
  | fail
deriving DecidableEq, Repr

/-- The commands and events of the module, one constructor for each row of the opcode table, in the table's order. -/
inductive Instr where
  /-- Power-good rises and starts a power-on reset that runs start-up from stage 1. (R459) -/
  | powerGoodRise (inputMv : Nat) (regulated : Bool)
  /-- Power-good falls: NAND programs in flight finish on hold-up, and everything else held on the dies and in HBM is lost. (R462) -/
  | powerGoodFall
  /-- The PWR_EN pin changes level, which turns the module off or re-arms power-up after a latched shutdown. (R467) -/
  | pwrEnChange (level : Bool)
  /-- An input above 66 V makes the hot-swap controller open the input path within 10 µs. (R458) -/
  | inputVoltageShutdown (inputMv : Nat)
  /-- Input current above 45 A for 1 ms or 60 A for 10 µs opens the electronic breaker. (R461) -/
  | breakerTrip (ma us : Nat)
  /-- Every 100 µs the power and thermal controller compares power and junction temperature with the effective cap and sets the withheld fraction d. (R464) -/
  | ptcEvaluate (watts centiVolts centiAmps tjA tjB : Nat)
  /-- A class 0 emergency condition is detected, d is set to at least 48/64, the state becomes EMERGENCY and a fatal sensor event is sent. (R466) -/
  | emergencyDetect (cond : Nat)
  /-- All emergency conditions have been clear for 100 ms, and normal control resumes from d = 48/64. (R466) -/
  | emergencyClear
  /-- An emergency reaches its shutdown point: the controller drops power-good, turns off the regulators and opens the hot-swap path, latched for some causes. (R467) -/
  | shutdown (cond : Nat)
  /-- Every 100 ms the module measures inlet and outlet temperature and flow, and updates DEV_TEMP, DEV_COOLANT and the coolant power limit. (R469) -/
  | coolantSample (inlet outlet flow nand : Nat)
  /-- Every 100 ms the PLDM sensor readings are updated, and a threshold crossing sends one sensor event. (R477) -/
  | sensorUpdate (sensor : Nat) (reading : Nat)
  /-- A control-host PF write of DEV_PWR_CAP sets the power cap from the next evaluation. (R464) -/
  | devPwrCapWrite (fn : Fn) (w : Word)
  /-- A start-up stage completes and the next stage starts, or the module becomes READY or stops in a failure state. (R447) -/
  | startupStageEnd (failure : Option Nat)
  /-- A PCIe port starts link training after stage 1 and the deassertion of its PERST#. (R448) -/
  | pcieLinkTrainingStart (port : Nat)
  /-- PERST#, Hot Reset or Link Disable resets one PCIe port and every function on it. (R439) -/
  | portReset (port : Nat) (kind : PortResetKind)
  /-- A function-level reset disables the function's rings and discards its held and unwritten replies. (R72) -/
  | functionLevelReset (fn : Fn)
  /-- A port's data link layer leaves DL_Active, which starts the 10 ms host-loss watch. (R67) -/
  | pcieDlInactive (port : Nat)
  /-- The link has stayed out of DL_Active for 10 ms, and host loss is declared. (R67) -/
  | linkDownTimeout (port : Nat)
  /-- A port's data link returns to DL_Active and, with any required heartbeat, the port leaves the lost state. (R71) -/
  | pcieDlActive (port : Nat)
  /-- A write to CMD_HB counts as a heartbeat. (R67) -/
  | heartbeat (fn : Fn) (w : Word)
  /-- A write to CMD_HB_CFG sets or stops the heartbeat watch, and a nonzero value counts as a heartbeat. (R67) -/
  | hbCfgWrite (fn : Fn) (w : Word)
  /-- Two heartbeat periods pass without a CMD_HB write, and host loss is declared. (R67) -/
  | heartbeatTimeout (port : Nat)
  /-- A write to CMD_SQn_TAIL makes the slots up to the new tail visible, or puts the ring in ERROR when the value is out of range. (R47) -/
  | doorbell (fn : Fn) (sq : Nat) (w : Word)
  /-- Setting EN in CMD_SQn_CFG checks alignment, size, reply ring and binding, and enables the ring or sets ERROR or NOT_BOUND. (R46) -/
  | sqEnable (fn : Fn) (sq : Nat) (w : Word)
  /-- Setting EN in CMD_RQn_CFG checks and enables the reply ring, which then receives any adopted replies first. (R46) -/
  | rqEnable (fn : Fn) (rq : Nat) (w : Word)
  /-- Host software advances CMD_RQn_HEAD, which frees entries so that held replies are written and fetching resumes. (R52) -/
  | rqHeadWrite (fn : Fn) (rq : Nat) (w : Word)
  /-- A ring-fetch read completes, the command's slots are taken and advance the head, or a bad completion puts the ring in ERROR. (R48) -/
  | commandFetch (fn : Fn) (read : RingRead) (st : Completion) (words : List Word)
  /-- A command ends below an outstanding limit, and fetching resumes in arbitration order. (R57) -/
  | fetchResume (fn : Fn) (sq : Nat)
  /-- A command held by FENCE or SERIAL starts when the earlier commands of its ring have sent their final replies. (R56) -/
  | fencedCommandStart (c : Cmd)
  /-- Culm transfer descriptors become free, and a waiting accepted operation continues in arrival order. (R59) -/
  | descriptorWaitResume
  /-- The coalescing time passes since the first unsignalled reply entry, and the ring's MSI-X vector fires. (R53) -/
  | replyCoalesceTimeout (fn : Fn) (rq : Nat)
  /-- Returns the arrival tick. (R63) -/
  | devNop (c : Cmd)
  /-- Returns the part code, firmware version, function, port and bound partitions. (R63) -/
  | devIdentify (c : Cmd)
  /-- Aborts a named outstanding command of the function if it has not passed its abort point. (R64) -/
  | devAbort (c : Cmd)
  /-- Moves the control host role to the named port at once and sends CTRL_HOST. (R66) -/
  | devSetCtrlHost (c : Cmd)
  /-- Binds an unbound partition to a port. (R65) -/
  | devPartBind (c : Cmd)
  /-- Stops and disables the partition's rings on the releasing port and leaves the partition released. (R71) -/
  | devPartRelease (c : Cmd)
  /-- Binds an orphaned or released partition to the issuing PF's port so that its stored replies can be delivered. (R69) -/
  | devAdopt (c : Cmd)
  /-- Returns CMD_HOST_STATE and CMD_PART_BIND. (R63) -/
  | devHostStatus (c : Cmd)
  /-- Checks a commit of a scope, block mask and target tick, then accepts it and locks the named slices. (R481) -/
  | cfgCommit (c : Cmd)
  /-- Cancels the issuing function's own pending commit by identifier. (R36) -/
  | cfgCancel (c : Cmd)
  /-- Copies the active set to the shadow set for the masked blocks in the scope. (R34) -/
  | cfgCopy (c : Cmd)
  /-- A write of GO issues a commit from the CFG registers. (R481) -/
  | cfgCommitCtrlGo (fn : Fn) (w : Word)
  /-- A write of CANCEL cancels the function's most recently accepted commit if it is still pending. (R36) -/
  | cfgCommitCtrlCancel (fn : Fn) (w : Word)
  /-- A write of COPY copies active to shadow for the masked blocks. (R34) -/
  | cfgCommitCtrlCopy (fn : Fn) (w : Word)
  /-- At the target tick every named block exchanges its active and shadow slices in the commit's scope. (R34) -/
  | commitSwap (id : Nat)
  /-- Every 1 ms each die measures its speed factor and reports it in TIME_SPEED. (R20) -/
  | speedMeasure (die : Nat) (f : Nat)
  /-- A PF timer's compare value is reached: FIRED is set, a TIMER record is sent and the period is added. (R38) -/
  | timerFire (port : Nat) (n : Nat)
  /-- A 32-bit read of TIME_NOW_LO latches the high half of device time into TIME_NOW_HI. (R22) -/
  | timeNowLoRead (fn : Fn)
  /-- A read of an RC field returns its value and clears it in one step. (R6) -/
  | readClearCounter (win : Window) (span : Span)
  /-- A write to a register without behaviour of its own sets an RW or shadow value, or has no effect. (R6) -/
  | registerWrite (fn : Fn) (bar : Bar) (span : Span) (value : BitVec 64)
  /-- Chooses a home die and the oldest FREE index, raises its generation and writes a new OPEN descriptor. (R73) -/
  | sesOpen (c : Cmd)
  /-- Moves a WARM session to MOVING and encodes its park-format image for Culm to write through the FTL. (R95) -/
  | sesPark (c : Cmd)
  /-- Revives a PARKED session from its park image, or makes a WARM session ready. (R98) -/
  | sesRevive (c : Cmd)
  /-- Moves the session to CLOSING, at once or at the end of its step or move, to release its resources. (R83) -/
  | sesClose (c : Cmd)
  /-- Sends a WARM or PARKED session's image to another module's move buffer with a move record. (R103) -/
  | sesMove (c : Cmd)
  /-- Returns descriptor words and optionally writes the 128-byte descriptor to host memory. (R106) -/
  | sesQuery (c : Cmd)
  /-- Reserves a FREE index in MOVING (move in) and posts an engine EWR for the move record. (R102) -/
  | sesMoveIn (c : Cmd)
  /-- Prepares or withdraws an awaited-event slot, or sets WAKE_ALL and the wait deadline. (R106) -/
  | sesAwait (c : Cmd)
  /-- Fires a prepared HOST slot with its wake text. (R106) -/
  | sesSignal (c : Cmd)
  /-- An awaited-event slot fires after its tokens are appended, and the wake condition moves the session to OPEN or starts a revive. (R84) -/
  | slotFire (h : Word) (slot : Nat) (len : Nat)
  /-- Device time reaches a TIMER slot's compare value, and its wake text is taken in. (R84) -/
  | timerSlotFire (h : Word) (slot : Nat)
  /-- Device time reaches WAIT_DEADLINE before the wake: slots are disarmed, NET work requests withdrawn and SES_WAIT_EXPIRED sent. (R87) -/
  | waitExpiry (h : Word)
  /-- The firmware parks a session that has been WARM for PARK_AFTER milliseconds. (R78) -/
  | parkAfterExpiry (h : Word)
  /-- Staging occupancy above HIGH makes the firmware park the WARM session with the oldest LAST_RUN on that die. (R76) -/
  | stagingHighPark (die : Nat)
  /-- The FTL confirms a park's last write: Culm releases the KV pages and the session becomes PARKED. (R95) -/
  | parkWriteConfirmed (h : Word)
  /-- A staging entry becomes free, and the revive of a session with EV_LATCHED starts. (R99) -/
  | stagingEntryFreeRevive (h : Word)
  /-- The park image has been read, checked and decoded, the park location is released and the session becomes OPEN, WAITING or WARM. (R98) -/
  | reviveDecodeEnd (h : Word)
  /-- All resources of a CLOSING session are released and the slot becomes FREE. (R83) -/
  | closeReleaseDone (h : Word)
  /-- The move record fires the target's EWR; the target checks the image, parks or decodes it and sends its confirmation. (R103) -/
  | moveRecordArrival (qpn : Nat) (msg : List Byte)
  /-- A confirmation fires the source's EWR: at OK the source releases the session and ends SES_MOVE, otherwise it restores it. (R103) -/
  | moveConfirmationArrival (qpn : Nat) (msg : List Byte)
  /-- The target's confirmation send completes OK, and the target session enters WARM or PARKED. (R103) -/
  | moveConfirmSendComplete (h : Word) (status : Nat)
  /-- An abort record at the target returns its index to FREE and ends SES_MOVE_IN with ABORTED. (R104) -/
  | moveAbortArrival (qpn : Nat) (msg : List Byte)
  /-- No move record arrives within SES_MOVE_IN's timeout, and the target withdraws its EWR and frees the index. (R105) -/
  | moveInTimeout (h : Word)
  /-- No confirmation arrives within 1 s of the move record, and the source aborts the move. (R105) -/
  | moveConfirmTimeout (h : Word)
  /-- Maps a run of 2 MiB extents of the partition's buffer space. (R111) -/
  | memBufMap (c : Cmd)
  /-- Unmaps a run of extents once their pins are released. (R136) -/
  | memBufUnmap (c : Cmd)
  /-- The pins on an unmap's extents are released, and the unmap continues. (R136) -/
  | bufUnmapResume (op : Nat)
  /-- Moves extents to another stack granule by granule. (R113) -/
  | memMove (c : Cmd)
  /-- Copies bytes between host memory and the buffer space. (R136) -/
  | memXfer (c : Cmd)
  /-- Turns mapped extents into one frozen object and returns its share identifier. (R119) -/
  | memFreeze (c : Cmd)
  /-- Drops the partition's own reference to a frozen object, and releases it when no reference remains. (R119) -/
  | memShareDrop (c : Cmd)
  /-- Returns the stack, state and device address of a buffer offset. (R136) -/
  | memWhere (c : Cmd)
  /-- Moves extents into a NAND object and unmaps them. (R136) -/
  | memStore (c : Cmd)
  /-- Moves a NAND object made by MEM_STORE back into mapped extents. (R136) -/
  | memLoad (c : Cmd)
  /-- Releases a NAND object made by MEM_STORE. (R136) -/
  | memNandFree (c : Cmd)
  /-- Makes a new storage key version current as a key event. (R133) -/
  | memKeyRotate (c : Cmd)
  /-- Destroys a non-current key version that no unit uses. (R135) -/
  | memKeyRetire (c : Cmd)
  /-- Returns the current version, the live versions and the units not under the current version. (R136) -/
  | memKeyStatus (c : Cmd)
  /-- A granule holds no pin, and Culm starts its copy to the destination. (R115) -/
  | granuleCopyStart (op : Nat)
  /-- A granule's copy is confirmed: the directory entry switches, the source is released and waiting pins and writes resume. (R114) -/
  | granuleSwitch (op : Nat) (confirmed : Bool)
  /-- An entry's buffer is FREE, and Culm starts writing the prefetch entry. (R121) -/
  | prefetchEntryStart (model : Nat)
  /-- A prefetch entry's write completes, the buffer becomes FULL and the notice is sent if NOTIFY is set. (R121) -/
  | prefetchEntryComplete (model : Nat) (entry : Nat)
  /-- A stripe's last unit and its parity are programmed, and the write is confirmed or rewritten after a program failure. (R126) -/
  | ftlWriteConfirm (op : Nat) (programOk : Bool)
  /-- A NAND read completes, rebuilt from its stripe when LDPC fails, with a NAND_REBUILT ALARM. (R126) -/
  | nandReadComplete (lu : Nat) (res : NandRead)
  /-- A NAND die fails: NAND_DIE_LOST is sent and the die's valid units are rewritten into new stripes. (R127) -/
  | nandDieFailure (die : Nat)
  /-- The rewrite of a failed die's units completes. (R127) -/
  | dieRebuildComplete (die : Nat)
  /-- A region's free share falls below 3 %, and the FTL relocates the valid units of the emptiest block and erases it. (R128) -/
  | garbageCollect (region : Nat)
  /-- A block's read count reaches its limit, and its valid units are relocated. (R129) -/
  | readDisturbRelocate (block : Nat) (worn : Bool)
  /-- The FTL moves cold data out of least-worn blocks to keep wear within 5 % of the mean. (R130) -/
  | wearLevelMove (block : Nat)
  /-- The re-encryption sweep moves one unit of an older key version to the current version. (R134) -/
  | sweepUnitSwitch (part : Nat) (lu : Nat)
  /-- Requests a switch of a region between NORMAL and COMPUTE mode. (R141) -/
  | glmRegionMode (c : Cmd)
  /-- The region's earlier accesses or pinning programs are done, and the region switches mode in one tick. (R141) -/
  | regionSwitch (stack region : Nat)
  /-- Loads a Glume program bank into the shadow set. (R154) -/
  | glmProgLoad (c : Cmd)
  /-- Loads a refresh or throttle curve into the shadow set. (R158) -/
  | glmCurveLoad (c : Cmd)
  /-- Writes a Glume command to a slot through the alias path on the host's behalf. (R160) -/
  | glmSubmit (c : Cmd)
  /-- Reads a slot's status and optionally its result buffer. (R160) -/
  | glmStatus (c : Cmd)
  /-- Returns a region's owner, mode and pinning programs. (R160) -/
  | glmRegionQuery (c : Cmd)
  /-- An alias write of START checks the run and makes the slot QUEUED or FAULT. (R150) -/
  | glumeStart (ag : Agent) (part : Nat) (addr : Nat) (words : List Word)
  /-- An alias write of STOP faults a QUEUED slot or stops a RUNNING one at its next yield point. (R150) -/
  | glumeStop (ag : Agent) (part : Nat) (addr : Nat) (words : List Word)
  /-- An alias write of CLEAR makes a DONE or FAULT slot IDLE. (R150) -/
  | glumeClear (ag : Agent) (part : Nat) (addr : Nat) (words : List Word)
  /-- An alias read of group 0 returns the slot's status. (R149) -/
  | glAliasStatusRead (ag : Agent) (part : Nat) (addr len : Nat)
  /-- An alias read of groups 1-31 returns bytes of the slot's result buffer. (R147) -/
  | glAliasResultRead (ag : Agent) (part : Nat) (addr len : Nat)
  /-- The unit is free and the next QUEUED slot starts: pins are taken, registers set and the slot becomes RUNNING. (R151) -/
  | programStart (u : Nat)
  /-- A Glume ALU or ALUI instruction. (R151) -/
  | glmAlu (u : Nat) (op : AluOp) (rd rs : Nat) (src : GSrc)
  /-- A Glume MUL instruction. (R151) -/
  | glmMul (u : Nat) (high : Bool) (rd rs rt : Nat)
  /-- A Glume LI instruction loads a 32-bit immediate. (R151) -/
  | glmLi (u : Nat) (rd : Nat) (v : Word)
  /-- A Glume B, BCC or J instruction. (R151) -/
  | glmBranch (u : Nat) (c : Cond) (rs rt : Nat) (target : Nat)
  /-- A Glume scratch load or store. (R151) -/
  | glmLdSt (u : Nat) (store : Bool) (bytes : Nat) (r base : Nat) (off : BitVec 12)
  /-- A bank read from the working range into scratch, marking poisoned words. (R157) -/
  | brd (u : Nat) (dst addrLo addrHi len : Nat) (ecc : List (Nat × Ecc))
  /-- A bank write from scratch to the working range as a read-modify-write. (R156) -/
  | bwr (u : Nat) (src addrLo addrHi len : Nat) (ecc : List (Nat × Ecc))
  /-- Waits for all issued bank reads and writes, as a yield point. (R152) -/
  | bwait (u : Nat)
  /-- Steps to the next page of a SESSION range. (R151) -/
  | pgnext (u : Nat) (rLo rHi rPos : Nat)
  /-- A helper load or store between scratch and a helper register. (R151) -/
  | glmVldVst (u : Nat) (store : Bool) (v base : Nat) (off : BitVec 12)
  /-- Converts 64 bytes of a narrow format with its scales into FP32 lanes. (R198) -/
  | glmVcvt (u : Nat) (fmt : Nat) (v src scales : Nat)
  /-- A helper VFMA, VMUL, VADD or VMAX in FP32. (R198) -/
  | glmVectorArith (u : Nat) (op : VecOp) (vd va : Nat) (b : VSrc)
  /-- A helper lane-wise 2^x. (R198) -/
  | glmVexp2 (u : Nat) (vd va : Nat)
  /-- A helper VRSUM or VRMAX reduction into a scalar register. (R198) -/
  | glmVreduce (u : Nat) (max : Bool) (rd va : Nat)
  /-- Copies scratch bytes into the slot's result buffer. (R151) -/
  | res (u : Nat) (src len : Nat)
  /-- A yield point opens a service window for held reads and queued alias-path accesses. (R144) -/
  | yield (u : Nat)
  /-- The run ends DONE, releasing its pins, with a CHAIN copy if requested. (R151) -/
  | glmEnd (u : Nat)
  /-- A yield service window has lasted 0.5 µs, and the program resumes. (R144) -/
  | serviceWindowEnd (u : Nat)
  /-- A program runs 2.0 µs without a yield point and is stopped with FAULT code 2. (R152) -/
  | yieldOverrun (u : Nat)
  /-- A run exceeds its BUDGET and ends with FAULT code 3. (R153) -/
  | budgetExpiry (u : Nat)
  /-- An ordinary read reaches HBM and is served, or held at the base die while the unit is mid-operation. (R143) -/
  | ordinaryRead (ag : Agent) (part : Nat) (addr len : Nat) (ecc : List (Nat × Ecc))
  /-- An ordinary write reaches HBM and is served, or refused with REGION_BUSY in a COMPUTE region. (R143) -/
  | ordinaryWrite (ag : Agent) (part : Nat) (addr : Nat) (bytes : List Byte)
  /-- A held read waits 4 µs and is answered with poisoned data and REGION_BUSY. (R143) -/
  | heldReadTimeout (u : Nat)
  /-- An alias-path access to a COMPUTE region is queued to the owning unit and served at its yield points. (R142) -/
  | glAliasPathAccess (who : Requester) (addr : Nat) (write : Bool) (len : Nat) (bytes : List Byte) (ecc : List (Nat × Ecc))
  /-- A host read through BAR2 of the partition buffer space. (R111) -/
  | bar2Read (fn : Fn) (off len : Nat) (ecc : List (Nat × Ecc))
  /-- A host write through BAR2, without effect on unmapped, frozen, sealed or index extents. (R111) -/
  | bar2Write (fn : Fn) (off : Nat) (bytes : List Byte)
  /-- Every 1,000 ticks the base die reads the stack temperature and sets the refresh row and the throttle limit. (R159) -/
  | stackTempSample (die : Nat) (stack : Nat) (temp : Nat)
  /-- A row reaches the activation threshold, and its two neighbour rows are refreshed. (R158) -/
  | targetedRefresh (u : Nat) (bank row : Nat)
  /-- A 32 ms refresh window ends, and activation counts restart. (R158) -/
  | refreshWindowEnd (stack : Nat)
  /-- Patrol scrub reads a codeword, writes back a correction or poison. (R425) -/
  | scrubRead (addr : Nat) (ecc : Ecc)
  /-- Each SRAM is scrubbed once per SRAM_S with write-back and poison. (R426) -/
  | sramScrub (block unit index : Nat) (ecc : Ecc)
  /-- The FTL reads every mapped unit once per NAND_D days. (R426) -/
  | nandReadScan (lu : Nat) (res : NandRead)
  /-- CE_THRESH corrected codewords of one channel in an hour raise ALARM CE_RATE. (R427) -/
  | ceRate (u : Nat)
  /-- Checks a placement image, references its shares and assigns a model handle. (R175) -/
  | mdlRegister (c : Cmd)
  /-- Runs the fit check and loads a placement into the hot set. (R176) -/
  | mdlLoad (c : Cmd)
  /-- Evicts a placement, optionally moving unbound weights to NAND. (R178) -/
  | mdlEvict (c : Cmd)
  /-- Pins or unpins a placement. (R180) -/
  | mdlPin (c : Cmd)
  /-- Returns the status the fit check gives now. (R182) -/
  | mdlCheck (c : Cmd)
  /-- Returns a placement's state, cores, share bytes and last fault. (R182) -/
  | mdlQuery (c : Cmd)
  /-- Drops a REGISTERED or FAULTED placement's shares and frees its handle. (R180) -/
  | mdlUnregister (c : Cmd)
  /-- Every core reaches its first STEPWAIT, the placement is RESIDENT and waiting sessions return to OPEN. (R177) -/
  | loadComplete (model : Nat)
  /-- A core 64-bit scalar integer operation. (R163) -/
  | coreScalarAlu (n : Nat) (op : Option AluOp) (rd rs : Nat) (src : CSrc)
  /-- A core local-store load or store. (R163) -/
  | coreLdSt (n : Nat) (store : Bool) (bytes : Nat) (r base : Nat) (off : BitVec 16)
  /-- A core B, BCC, J, CALL or RET. (R163) -/
  | coreBranch (n : Nat) (br : CoreBr)
  /-- Repeats a block a register count of times. (R163) -/
  | coreLoop (n : Nat) (rcount : Nat) (blockLen : Nat)
  /-- Loads a weight tile and its scales, and compares a due shadow sample. (R195) -/
  | wload (n : Nat) (w : Nat) (base : Nat)
  /-- Accumulates activation rows through the active weight tile. (R197) -/
  | mmul (n : Nat) (w acc : Nat) (actFmt : Nat) (base : Nat) (rows : Nat) (accRow : Nat) (residueOk adderOk : Bool)
  /-- Writes accumulator rows to local store as FP32 or BF16. (R198) -/
  | accout (n : Nat) (acc : Nat) (row rows : Nat) (fmt : Nat) (dst : Nat) (scale : Option Nat)
  /-- Clears an accumulator. (R163) -/
  | accz (n : Nat) (acc : Nat)
  /-- A core vector load or store. (R198) -/
  | coreVldVst (n : Nat) (store : Bool) (q : Nat) (fmt : Nat) (addr : Nat)
  /-- A core lane-wise FP32 vector operation. (R198) -/
  | coreVectorArith (n : Nat) (op : VecOp) (qd qa : Nat) (b : VSrc)
  /-- Reduces vector lanes into a scalar register. (R198) -/
  | vred (n : Nat) (max : Bool) (rd qa : Nat)
  /-- Quantizes FP32 lanes into a narrow block with its scale. (R189) -/
  | vquant (n : Nat) (fmt : Nat) (src : Option Nat) (dst scales : Nat) (split : Option Nat) (stage : Nat) (group : Nat)
  /-- Converts a narrow block with its scale into FP32 lanes. (R198) -/
  | coreVcvt (n : Nat) (fmt : Nat) (q : Nat) (src scales : Nat)
  /-- Sends a local-store range to a channel of another core, blocking without credit. (R165) -/
  | coreSend (n : Nat) (dst chan : Nat) (off len : Nat)
  /-- A message reaches its receive slot. (R166) -/
  | messageDelivery (src dst chan : Nat)
  /-- Takes the oldest message of a channel. (R166) -/
  | recv (n : Nat) (chan : Nat) (rAddr rLen : Nat)
  /-- Frees the oldest taken slot and returns its credit. (R165) -/
  | mfree (n : Nat) (chan : Nat)
  /-- Tests a channel or buffer without blocking. (R163) -/
  | poll (n : Nat) (rd : Nat) (buffer : Bool) (idx : Nat)
  /-- Blocks until a buffer is FULL. (R163) -/
  | waitfull (n : Nat) (buf : Nat)
  /-- Sets a prefetch buffer FREE. (R121) -/
  | brelease (n : Nat) (buf : Nat)
  /-- Asks Culm for a listed transfer and returns at once. (R163) -/
  | xfer (n : Nat) (kind : XferKind) (off len : Nat)
  /-- A requested transfer completes and posts a notice. (R163) -/
  | xferComplete (n : Nat)
  /-- Blocks until the next batch step starts and loads the step record. (R163) -/
  | stepwait (n : Nat) (rd : Nat)
  /-- Reports the core's part of the step complete. (R164) -/
  | stepdone (n : Nat) (engineNs : Nat)
  /-- Waits for the core's outstanding stores, sends and transfers. (R163) -/
  | coreFence (n : Nat)
  /-- Stops the core. (R163) -/
  | halt (n : Nat)
  /-- A core stays blocked for GRID_HANG.MS and faults with code 4. (R168) -/
  | hangTimeout (n : Nat)
  /-- Culm sends the query and a decode START to each member of the channel set. (R230) -/
  | fanOut (n : Nat) (descOff : Nat)
  /-- A member run ends and Culm copies or poisons its partial, setting the buffer FULL after member 7. (R230) -/
  | fanOutMemberDone (n : Nat)
  /-- Turns a WARM session's own KV into a prefix. (R234) -/
  | pfxFromSession (c : Cmd)
  /-- Builds a prefix from mapped extents. (R234) -/
  | pfxCreate (c : Cmd)
  /-- Returns a prefix's model, adapter, length, references and pages. (R241) -/
  | pfxQuery (c : Cmd)
  /-- Starts an adapter line with its first current version. (R237) -/
  | adpCreate (c : Cmd)
  /-- Adds a new current version to an adapter line. (R237) -/
  | adpReplace (c : Cmd)
  /-- Returns an adapter version's model, line, references and share. (R241) -/
  | adpQuery (c : Cmd)
  /-- Ends an adapter line. (R239) -/
  | adpRetire (c : Cmd)
  /-- Starts a training job in idle capacity. (R240) -/
  | trnStart (c : Cmd)
  /-- Stops a training job at its next training-step boundary. (R240) -/
  | trnStop (c : Cmd)
  /-- Returns a training job's steps and state. (R241) -/
  | trnQuery (c : Cmd)
  /-- A training step starts when its partition has no waiting or left-out work. (R249) -/
  | trainingStepStart (job : Nat)
  /-- A training step ends, and the job continues, pauses or ends. (R240) -/
  | trainingStepBoundary (job : Nat)
  /-- The firmware starts spilling own pages of selected sessions when the KV pool runs low. (R223) -/
  | spillMoveStart (part : Nat)
  /-- A spilled page switches to NAND, and SPILL_PAGES rises. (R224) -/
  | spillSwitch (op : Nat)
  /-- A fetched-back page switches to HBM, and SPILL_PAGES falls. (R225) -/
  | fetchBackSwitch (op : Nat)
  /-- A granule becomes free and a waiting fetch-back page is placed. (R225) -/
  | fetchBackPagePlace (part : Nat)
  /-- A model's batch step ends: tokens are delivered, charges are made, requests end and the next batch is decided. (R246) -/
  | batchStepEnd (model : Nat) (tokens : List Nat)
  /-- A decided step starts: the step record and per-page descriptors are delivered and sessions become RUNNING. (R250) -/
  | batchStepStart (model : Nat)
  /-- Every 100 µs the deadline monitor projects unfinished requests. (R251) -/
  | monitorPass
  /-- A request's deadline passes and its LATE_POLICY applies. (R255) -/
  | deadlineExpiry (h : Word)
  /-- The firmware splits a meter record's partition energy among sessions by engine time. (R259) -/
  | energySplit (part : Nat)
  /-- Sets the session's request template for the next request. (R244) -/
  | reqTemplate (c : Cmd)
  /-- Submits input text for tokenizing and starts or joins a request. (R260) -/
  | reqSubmit (c : Cmd)
  /-- Ends the session's unfinished request with ABORTED. (R256) -/
  | reqCancel (c : Cmd)
  /-- Returns the request number, tokens and last projection. (R260) -/
  | reqQuery (c : Cmd)
  /-- Sets a model's fallback, chunk and budget. (R254) -/
  | schModelCfg (c : Cmd)
  /-- Returns a session's accounting totals and record. (R260) -/
  | schAcctRead (c : Cmd)
  /-- A text request starts on a free lane. (R272) -/
  | speltIntake (die : Nat)
  /-- A text request finishes, and its tokens are appended to the session's pending input. (R273) -/
  | speltRequestEnd (die : Nat) (lane : Nat)
  /-- Loads a tokenizer or profile table into the shadow set. (R264) -/
  | txtTableLoad (c : Cmd)
  /-- Writes a model-map entry into the shadow set. (R262) -/
  | txtModelTok (c : Cmd)
  /-- Writes a grammar directory entry into the shadow set. (R284) -/
  | txtGrammarSet (c : Cmd)
  /-- Returns a session's grammar state, held bytes and tokens. (R291) -/
  | txtQuery (c : Cmd)
  /-- Tokenizes text from the buffer space. (R274) -/
  | txtTokenize (c : Cmd)
  /-- Turns token ids back into text. (R291) -/
  | txtDetokenize (c : Cmd)
  /-- The MAC takes a frame and passes it above or drops it. (R295) -/
  | frameReceive (f : Frame)
  /-- A received PFC frame pauses or resumes a priority. (R295) -/
  | pfcFrame (sub : Nat) (prio : Nat) (xoff : Bool)
  /-- Reed answers an ARP request or neighbour solicitation for its GIDs. (R295) -/
  | arpRequest (sub : Nat) (target : Nat)
  /-- An EXT packet passes its checks and is placed at the message base plus OFFSET. (R303) -/
  | packetArrivalExt (p : Packet)
  /-- A packet without EXT is handled in PSN order. (R305) -/
  | packetArrivalRc (p : Packet)
  /-- An RDMA READ REQUEST is served as responder. (R299) -/
  | readRequest (p : Packet)
  /-- A message's byte count reaches its length: Reed acknowledges, completes and fires its EWR. (R303) -/
  | messageComplete (qpn : Nat) (msn : Nat)
  /-- An ACK completes a sent message or ends its work request with a status. (R302) -/
  | ackArrival (p : Packet)
  /-- A message has no ACK within the timeout and is resent, or the queue pair enters ERROR. (R302) -/
  | ackTimeout (qpn : Nat) (msn : Nat)
  /-- An RNR NAK's timer passes and the message is sent again. (R302) -/
  | rnrTimerExpiry (qpn : Nat) (msn : Nat)
  /-- A CNP lowers the queue pair's flow rate to 7/8. (R322) -/
  | cnpArrival (qpn : Nat)
  /-- A reassembly entry receives no packet for 4 ACK timeouts and is closed. (R304) -/
  | reassemblyTimeout (qpn : Nat) (msn : Nat)
  /-- A queue-pair context arrives and the held packets are processed. (R319) -/
  | contextFetchComplete (qpn : Nat)
  /-- A context fetch has not completed after 20 µs and the held packets are dropped with RNR NAKs. (R319) -/
  | contextFetchExpiry (qpn : Nat)
  /-- A sub-port's link goes up or down and NET_LINK is sent. (R294) -/
  | ethLinkChange (sub : Nat) (up : Bool)
  /-- A send waiting with WAIT_EN starts once the named queue pair's count is reached. (R314) -/
  | waitEnRelease (qpn : Nat)
  /-- A unit's flow, partition and port buckets hold credit and the unit starts. (R328) -/
  | shapedUnitStart (node part flow : Nat) (bytes : Nat)
  /-- Creates a queue pair. (R297) -/
  | netQpCreate (c : Cmd)
  /-- Connects a queue pair to RTS. (R297) -/
  | netQpConnect (c : Cmd)
  /-- Releases a queue pair. (R297) -/
  | netQpDestroy (c : Cmd)
  /-- Returns a queue pair's state and counts. (R324) -/
  | netQpQuery (c : Cmd)
  /-- Creates a shared receive queue. (R306) -/
  | netSrqCreate (c : Cmd)
  /-- Destroys a shared receive queue. (R324) -/
  | netSrqDestroy (c : Cmd)
  /-- Creates a completion ring. (R307) -/
  | netCqCreate (c : Cmd)
  /-- Destroys a completion ring. (R324) -/
  | netCqDestroy (c : Cmd)
  /-- Posts a send work request. (R313) -/
  | netSend (c : Cmd)
  /-- Posts an event work request. (R308) -/
  | netEwrPost (c : Cmd)
  /-- Withdraws an event work request. (R312) -/
  | netEwrWithdraw (c : Cmd)
  /-- Writes a GID table entry. (R296) -/
  | netGidSet (c : Cmd)
  /-- Sets the port's queue-pair context area. (R317) -/
  | netCtxArea (c : Cmd)
  /-- Returns a sub-port's link state and counts. (R324) -/
  | netPortQuery (c : Cmd)
  /-- Every 1,024 ticks each bucket is refilled. (R327) -/
  | shaperRefill
  /-- A recovery credit-mode window ends. (R330) -/
  | creditModeRecoverEnd (node : Nat)
  /-- Creates a vector index. (R337) -/
  | panIndexCreate (c : Cmd)
  /-- Destroys an index after its operations end. (R354) -/
  | panIndexDestroy (c : Cmd)
  /-- Inserts items into an index. (R343) -/
  | panInsert (c : Cmd)
  /-- Marks items deleted. (R344) -/
  | panDelete (c : Cmd)
  /-- Runs a nearest-neighbour query. (R346) -/
  | panQuery (c : Cmd)
  /-- Removes deleted items and rebuilds lists. (R345) -/
  | panCompact (c : Cmd)
  /-- Old-snapshot queries end and the compaction continues. (R345) -/
  | compactResume (index : Nat)
  /-- Returns an index's live items, tombstones and epoch. (R354) -/
  | panIndexQuery (c : Cmd)
  /-- Sets a shard group table. (R354) -/
  | panGroupSet (c : Cmd)
  /-- Starts a sharded query. (R352) -/
  | panShardQuery (c : Cmd)
  /-- Binds an SRQ to an index for query messages. (R351) -/
  | panListen (c : Cmd)
  /-- A waiting query gets one of the 256 slots and starts. (R350) -/
  | queryAdmit (die : Nat)
  /-- A query message arrives at a shard and its partial list is sent back. (R351) -/
  | queryMessageArrival (qpn : Nat) (srq : Nat) (msg : List Byte)
  /-- A partial list arrives and is taken into the merge. (R352) -/
  | partialListArrival (tag : Nat) (entry : Nat) (msg : List Byte)
  /-- SHARD_MS passes and the sharded query is merged. (R352) -/
  | shardTimeout (tag : Nat)
  /-- Defines a checkpoint job. (R355) -/
  | ckpJobDefine (c : Cmd)
  /-- Drops a job. (R369) -/
  | ckpJobDrop (c : Cmd)
  /-- Starts or joins a checkpoint. (R357) -/
  | ckpNotice (c : Cmd)
  /-- Returns a job's state. (R369) -/
  | ckpQuery (c : Cmd)
  /-- Restores items from a checkpoint. (R367) -/
  | ckpRestore (c : Cmd)
  /-- Marks ranks not live. (R368) -/
  | ckpShrink (c : Cmd)
  /-- A notice message fires Sheaf's EWR. (R357) -/
  | networkNotice (job : Nat) (msg : List Byte)
  /-- A write into an unreached region stalls until copied. (R359) -/
  | stalledWrite (addr : Nat) (bytes : List Byte)
  /-- A shard buffer is full and is dispatched. (R360) -/
  | shardComplete (job : Nat) (shard : Nat)
  /-- The target confirms a shard write. (R360) -/
  | shardWriteConfirmed (job : Nat) (shard : Nat) (ok : Bool)
  /-- The keeper receives a shard announcement. (R361) -/
  | announcementArrival (job : Nat) (rank group index : Nat) (digest : BitVec 512)
  /-- A member receives WRITE or SKIP. (R361) -/
  | verdictArrival (job : Nat) (group index : Nat) (skip : Option Nat)
  /-- The keeper receives a member's end marker. (R361) -/
  | endMarkerArrival (job : Nat) (rank : Nat)
  /-- DEDUP_MS passes and the keeper answers. (R361) -/
  | dedupTimeout (job : Nat)
  /-- No verdict in 2 × DEDUP_MS and the member writes the shard. (R361) -/
  | verdictTimeout (job : Nat) (shard : Nat)
  /-- The keeper receives a member's manifest report. (R364) -/
  | manifestReportArrival (job : Nat) (rank : Nat) (loc len : Nat) (digest : BitVec 512)
  /-- The store confirms the commit record. (R364) -/
  | commitRecordConfirmed (job : Nat)
  /-- A member receives the commit message and its CKP_NOTICE ends OK. (R364) -/
  | commitMessageArrival (job : Nat)
  /-- COMMIT_MS passes and the member abandons the checkpoint. (R365) -/
  | commitTimeout (job : Nat)
  /-- Joins a device set. (R379) -/
  | secSetJoin (c : Cmd)
  /-- Leaves a device set. (R381) -/
  | secSetLeave (c : Cmd)
  /-- Opens a sealed weight package. (R383) -/
  | secWeightsOpen (c : Cmd)
  /-- Installs a connection key record. (R388) -/
  | secConnKeyLoad (c : Cmd)
  /-- Destroys a connection key handle. (R388) -/
  | secConnKeyDestroy (c : Cmd)
  /-- Writes the certificate and public keys to host memory. (R398) -/
  | secIdentityRead (c : Cmd)
  /-- Returns security state and counts. (R398) -/
  | secQuery (c : Cmd)
  /-- Returns a debug unlock nonce. (R396) -/
  | secDebugChallenge (c : Cmd)
  /-- Checks an unlock signature and sets DEBUG_PENDING. (R396) -/
  | secDebugUnlock (c : Cmd)
  /-- Burns LIFECYCLE to RMA and destroys FWK and DRS. (R397) -/
  | secRma (c : Cmd)
  /-- Crypto-erases a partition. (R389) -/
  | secPartErase (c : Cmd)
  /-- An SPDM request is answered by a responder. (R373) -/
  | spdmRequest (at_ : SpdmPort) (r : SpdmReq)
  /-- A queued signature is completed. (R374) -/
  | signatureDone
  /-- The reported throttle level changes and is logged. (R393) -/
  | throttleLevel
  /-- The meter checks its image and starts. (R408) -/
  | meterStart (imageOk : Bool) (digest : BitVec 512) (swId : Word) (flashSeal : Nat)
  /-- Every 8 µs the meter samples and accumulates energy. (R403) -/
  | meterAdcSample (mv ua : Nat) (clipped : Bool)
  /-- A record's second ends and its energy is apportioned. (R405) -/
  | meterRecordEnd
  /-- A signed record is written into the window. (R406) -/
  | meterRecordPublish
  /-- The hourly SW_ID recomputation. (R408) -/
  | swIdRecheck (swId : Word)
  /-- A staged coefficient package is checked. (R413) -/
  | coeffPackageStaged
  /-- The meter commits its new coefficient set. (R413) -/
  | meterCoeffSwap
  /-- Writes a meter record to host memory. (R414) -/
  | mtrRecordRead (c : Cmd)
  /-- Returns meter identity values. (R414) -/
  | mtrIdentify (c : Cmd)
  /-- Writes the meter certificate. (R414) -/
  | mtrCertRead (c : Cmd)
  /-- Writes the active coefficient package. (R414) -/
  | mtrCoeffRead (c : Cmd)
  /-- A PLDM sideband request returns a device meter record. (R478) -/
  | getMeterRecord (bus : Nat) (seq : Nat)
  /-- A PLDM sideband request returns MTR_CERT and MRK_PUB. (R478) -/
  | getMeterCert (bus : Nat)
  /-- A PLDM request is answered. (R476) -/
  | pldmRequest (bus : Nat) (r : PldmReq)
  /-- An MCTP control or I3C address message is handled. (R475) -/
  | mctpControl (bus : Nat) (r : MctpReq)
  /-- A staged record is written to a free ring entry. (R434) -/
  | eventRecordDeliver (path : Nat)
  /-- A write of FLT_EQ_CFG.EN enables the event ring. (R434) -/
  | fltEqEnable (fn : Fn) (w : Word)
  /-- Advancing FLT_EQ_HEAD frees entries. (R434) -/
  | fltEqHeadWrite (fn : Fn) (w : Word)
  /-- Loss of the tick or all control cores puts the module in HALTED. (R424) -/
  | tickLossHalt (cause : Nat)
  /-- Accepts a reset of device, grid or Glume scope. (R440) -/
  | devReset (c : Cmd)
  /-- A keyed write of DEV_RESET_CTRL requests a reset. (R440) -/
  | devResetCtrlWrite (fn : Fn) (w : Word)
  /-- At the reset tick the device reset clears on-die state. (R441) -/
  | deviceReset
  /-- At the reset tick all cores stop and placements become REGISTERED. (R442) -/
  | gridReset
  /-- At the reset tick all Glume slots end. (R442) -/
  | glumeReset
  /-- Writes into the inactive bank or another area. (R451) -/
  | devFwWrite (c : Cmd)
  /-- Checks the inactive bank and writes its commit record. (R451) -/
  | devFwActivate (c : Cmd)
  /-- Returns a bank's sequence, validity and version. (R457) -/
  | devFwQuery (c : Cmd)
  /-- Burns SVN floors and revocations. (R452) -/
  | devSvnCommit (c : Cmd)
  /-- Sets the running value to 0xFFFF_FFFF. (R454) -/
  | crcInit (fn : Fn)
  /-- Claims the check-value unit. (R456) -/
  | crcClaim (fn : Fn)
  /-- Frees the check-value unit. (R456) -/
  | crcRelease (fn : Fn)
  /-- Feeds one byte. (R455) -/
  | crcIn8 (fn : Fn) (w : Word)
  /-- Feeds two bytes. (R455) -/
  | crcIn16 (fn : Fn) (w : Word)
  /-- Feeds four bytes. (R455) -/
  | crcIn32 (fn : Fn) (w : Word)
  /-- The meter takes the unit; the value is cleared. (R456) -/
  | meterCrcTake
  /-- The meter releases the check-value unit, which clears its value again and lets waiting writes of other agents proceed. (R401) -/
  | meterCrcRelease
  /-- Sheaf finishes copying a copy region or a session record, releasing stalled writes, held step ends and waiting SES_PARK, SES_MOVE, SES_CLOSE and PFX_FROM_SESSION. (R359) -/
  | copyRegionDone (job : Nat) (item region : Nat)
  /-- A PCIe completion returns data of a module read of host memory for a table load, image registration, MEM_XFER or firmware write, after which the load's CRC-32C is checked. (R29) -/
  | hostMemoryReadCompletion (op : Nat) (st : Completion) (bytes : List Byte)
  /-- The key engine completes an OAEP decryption, unwrap or chunk decryption, and the join, connection key load or weights open takes effect with its final reply and key event. (R387) -/
  | keyEngineDone (op : Nat) (r : KeyResult)
  /-- A Panicle query ends, writes its results and final reply, and frees its slot for waiting queries, compaction and index destruction. (R348) -/
  | queryComplete (die : Nat) (q : Nat)
  /-- A Panicle insert, delete or compaction completes and sets EPOCH to E + 1, making its changes visible together. (R341) -/
  | updateComplete (index : Nat)
  /-- A lockstep mismatch on a control core ends its outstanding commands with DEVICE_FAULT and restarts it from boot ROM, or takes it offline, or halts the module when all eight are lost. (R423) -/
  | controlCoreFault (core : Nat)
  /-- A permanent NoC router, NoC link or bridge link failure is detected within 2 µs and takes the affected cores offline. (R423) -/
  | nocLinkFault (unit : Nat) (cores : List Nat)
  /-- Each die's two junction sensors are read every 8 µs, and a disagreement above 5 °C raises ALARM SENSOR_MISMATCH. (R416) -/
  | dieTempSensorSample (die : Nat) (t0 t1 : Nat)
  /-- The input falls below 20 V, which re-arms power-up after a latched shutdown. (R467) -/
  | inputBelow20V
  /-- A PCI Express configuration write, such as SR-IOV VF Enable, NumVFs or ARI, changes which functions the port presents. (R69) -/
  | configurationWrite (port : Nat) (w : CfgWrite)
  /-- A signed SPDM response that is not ready within 100 µs is answered with ERROR ResponseNotReady. (R374) -/
  | spdmResponseNotReady (token : Nat)
deriving DecidableEq, Repr

end Sys2Proof
end

