-- ==== Sys2Proof/Decode.lean ====
section
/-! DEFINITION. The decoder of the table's bits. The module is a block that takes commands; no row of spec/opcode_table.json gives bits, so
no word spells a command. Packets of a submission ring are taken apart where they are fetched and checked (Machine/Ring.lean, R49, R50). -/

namespace Sys2Proof

/-- The command that a word spells by the table's bits: none, because the table gives no row any bits. -/
def decodeTableWord (_nbits _w : Nat) : Option Instr := none

end Sys2Proof
end

