-- ==== Sys2Proof/Config.lean ====
section
/-! DEFINITION. What an implementation fixes and the spec leaves open: constants without a body, so that no proof can
lean on a value of them. Each is named in a log entry. -/

namespace Sys2Proof.Config

/-- A value the spec leaves open, one for each reading of the counter `Dev.free` (log entry 5). -/
opaque freeNat : Nat → Nat

/-- The UDP source port of a queue pair without EXT, which no rule gives (log entry 94). -/
opaque udpSource : Nat → Nat

/-- SHA-512 of a byte string (FIPS 180-4, named by R371 and R444, not written out in the spec; log entry 6). -/
opaque sha512 : List Byte → BitVec 512

/-- Whether an RSA-4096 signature with SHA-512 verifies: modulus, message, signature (R444, R371; log entry 6). -/
opaque rsaVerify : List Byte → List Byte → List Byte → Bool

/-- The RSA-4096 signature that the named key (0 identity, 1 attestation, 2 meter) makes of a message (log entry 6). -/
opaque rsaSign : Nat → List Byte → List Byte

/-- AES-256-GCM or AES-256-XTS output under a key number, an address or nonce, and the text (log entry 6). -/
opaque aesSeal : Nat → Nat → List Byte → List Byte

/-- The inverse of `aesSeal` (log entry 6). -/
opaque aesOpen : Nat → Nat → List Byte → List Byte

/-- AES-256-XTS of one 4,096-byte sector: partition and key version, tweak, plaintext (R132; log entry 6). -/
opaque xtsSector : Nat → Nat → Nat → List Byte → List Byte

/-- A hardware-random byte (R386): keys, nonces and challenges; one for each reading of the counter (log entry 5). -/
opaque randomByte : Nat → Byte

/-- The value an exponential helper computes before it is held to its error bound (R198; log entry 7). -/
opaque exp2Candidate : F32 → F32

/-- The quotient of zero by zero in a distance, where a product of norms has underflowed (R340; log entry 27). -/
opaque zeroByZero : F32 → F32 → F32

/-- The value a reciprocal helper computes before it is held to its error bound (R198; log entry 7). -/
opaque rcpCandidate : F32 → F32

/-- The value a reciprocal square root helper computes before it is held to its error bound (R198; log entry 7). -/
opaque rsqrtCandidate : F32 → F32

/-- The result of a shift by the register width or more, which the spec does not state: operation number, operand,
amount (R151, R163; log entry 9). -/
opaque wideShift : Nat → Nat → Nat → Nat

/-- The high half of a product of two 32-bit registers, whose signedness the spec does not state (R151; log entry 9). -/
opaque mulHigh : Word → Word → Word

/-- Whether a 16-bit or 12-bit immediate of a scalar operation is sign-extended: operation number (log entry 9). -/
opaque immSigned : Nat → Bool

/-- Which control core serves the command of a sequence number, modulo 8; the spec does not say (R423, R431; log
entry 13). -/
opaque controlCore : Nat → Nat

/-- An element of the summary that a compressor model computes for a park, one for each reading of the counter (R94; log
entry 17). -/
opaque summaryElem : Nat → F32

/-- The device address of a row's input token ids, and that to which its token id is written (R250), which the module chooses:
session, position (log entry 20). -/
opaque tokensAddr : Nat → Nat → Nat
opaque outAddr : Nat → Nat → Nat

/-- The rows, as bank and row, that a bank access of a unit activates: address, length (R158, R159; log entry 21). -/
opaque rowsOf : Nat → Nat → List (Nat × Nat)

/-- Whether a load narrower than the register is sign-extended: 0 Glume LD, 1 core LD (R151, R163; log entry 9). -/
opaque loadSigned : Nat → Bool

/-- A byte of Glume scratch that the run has not written and an earlier run of the same partition may have left: reading, address
(R151; log entry 22). -/
opaque staleByte : Nat → Nat → Byte

/-- The certificates of R370 and R402 (DER; DEV_CERT, MTR_CERT and the two above DEV_CERT in its chain), fixed at manufacture. -/
opaque devCert : List Byte
opaque meterCert : List Byte
opaque rootCert : List Byte
opaque productCert : List Byte

/-- The public moduli of R370 and R402: identity, transport and meter record key. -/
opaque idkPub : List Byte
opaque tpkPub : List Byte
opaque mrkPub : List Byte

/-- The moduli whose SHA-512 the fuses hold: the debug key and the meter authority's key (R370, R402; log entry 6). -/
opaque debugPub : List Byte
opaque meterAuthPub : List Byte

/-- The hashes of the four firmware root keys as the fuses hold them (R370, R445; log entry 26). -/
opaque rootHash : Nat → BitVec 512

/-- The digest of the boot ROM (R375, block 1). -/
opaque bootRom : BitVec 512

/-- The silicon revision in DEV_ID.REV (fuses, R457's register table). -/
opaque siliconRev : BitVec 8

/-- The device serial number (fuses, R370). -/
opaque serial : BitVec 64

end Sys2Proof.Config
end

