-- ==== Sys2Proof/Machine/Bits.lean ====
section
/-! DEFINITION. Bit fields, little-endian bytes (R2), tables keyed by a number, and CRC-32C (R454). -/

namespace Sys2Proof.Machine

/-- Bits [hi:lo] of a number. -/
def fld (w hi lo : Nat) : Nat := w / 2 ^ lo % 2 ^ (hi + 1 - lo)

/-- Bits [hi:lo] of a word. -/
def wfld (w : Word) (hi lo : Nat) : Nat := fld w.toNat hi lo

/-- One bit of a number. -/
def bitAt (w i : Nat) : Bool := w / 2 ^ i % 2 == 1

/-- The word that holds a number, modulo 2^32. -/
def wd (n : Nat) : Word := BitVec.ofNat 32 n

/-- The low and the high word of a 64-bit number. -/
def loW (n : Nat) : Word := wd n
def hiW (n : Nat) : Word := wd (n / 2 ^ 32)

/-- The 64-bit number in two words, low word first. -/
def dw (lo hi : Word) : Nat := lo.toNat + hi.toNat * 2 ^ 32

/-- The number with bit `i` set. -/
def setBit (w i : Nat) : Nat := if bitAt w i then w else w + 2 ^ i

/-- The number with bit `i` cleared. -/
def clrBit (w i : Nat) : Nat := if bitAt w i then w - 2 ^ i else w

/-- Addition that stops at `top`. -/
def satAdd (top a b : Nat) : Nat := min top (a + b)

/-- The top of a saturating 32-bit counter. -/
def top32 : Nat := 0xFFFFFFFF

/-- `n` little-endian bytes of a number (R2). -/
def leBytes : Nat → Nat → List Byte
  | 0, _ => []
  | k + 1, v => BitVec.ofNat 8 v :: leBytes k (v / 256)

/-- The number in little-endian bytes (R2). -/
def leNat : List Byte → Nat
  | [] => 0
  | b :: bs => b.toNat + 256 * leNat bs

/-- `n` bytes of a string from offset `o`, as a little-endian number. -/
def leAt (bs : List Byte) (o n : Nat) : Nat := leNat ((bs.drop o).take n)

/-- The bytes of a list of words, each little-endian. -/
def wordBytes (ws : List Word) : List Byte := ws.flatMap fun w => leBytes 4 w.toNat

/-- The words of a byte string: four bytes a word, a last short word filled with zeros. -/
def bytesWords : Nat → List Byte → List Word
  | 0, _ => []
  | k + 1, bs => wd (leNat (bs.take 4)) :: bytesWords k (bs.drop 4)

/-! ### Tables keyed by a number, keys strictly rising -/

/-- The entry of key `k`. -/
def tget {α : Type} : Tbl α → Nat → Option α
  | [], _ => none
  | (j, v) :: t, k => if j = k then some v else tget t k

/-- The table with key `k` holding `v`. -/
def tset {α : Type} : Tbl α → Nat → α → Tbl α
  | [], k, v => [(k, v)]
  | (j, u) :: t, k, v =>
    if k < j then (k, v) :: (j, u) :: t
    else if k = j then (k, v) :: t
    else (j, u) :: tset t k v

/-- The table without key `k`. -/
def tdel {α : Type} : Tbl α → Nat → Tbl α
  | [], _ => []
  | (j, u) :: t, k => if j = k then t else (j, u) :: tdel t k

/-- The entry of key `k` changed by `f`, if there is one. -/
def tmod {α : Type} : Tbl α → Nat → (α → α) → Tbl α
  | [], _, _ => []
  | (j, u) :: t, k, f => if j = k then (j, f u) :: t else (j, u) :: tmod t k f

/-- Every entry changed by `f`. -/
def tmap {α β : Type} (t : Tbl α) (f : Nat → α → β) : Tbl β := t.map fun kv => (kv.1, f kv.1 kv.2)

/-- The entries that `p` accepts. -/
def tfilter {α : Type} (t : Tbl α) (p : Nat → α → Bool) : Tbl α := t.filter fun kv => p kv.1 kv.2

/-- The entry of key `k`, or `v` where there is none. -/
def tgetD {α : Type} (t : Tbl α) (k : Nat) (v : α) : α := (tget t k).getD v

/-- Whether key `k` has an entry. -/
def thas {α : Type} (t : Tbl α) (k : Nat) : Bool := (tget t k).isSome

/-- The keys. -/
def tkeys {α : Type} (t : Tbl α) : List Nat := t.map Prod.fst

/-- The keys strictly rise. -/
def Tbl.wf {α : Type} : Tbl α → Bool
  | [] => true
  | [_] => true
  | (j, _) :: (k, v) :: t => j < k && Tbl.wf ((k, v) :: t)

/-- The smallest number from `i` on, within `fuel` tries, that is no key of the table. -/
def freshKey {α : Type} (t : Tbl α) : Nat → Nat → Nat
  | 0, i => i
  | f + 1, i => if thas t i then freshKey t f (i + 1) else i

/-- The next identifier after `last` in 1..`top`, ascending and back to 1, skipping live ones. -/
def nextId (live : Nat → Bool) (top : Nat) : Nat → Nat → Nat
  | 0, last => if last ≥ top then 1 else last + 1
  | f + 1, last =>
    let n := if last ≥ top then 1 else last + 1
    if live n then nextId live top f n else n

/-- The sum of a list of numbers. -/
def nsum (l : List Nat) : Nat := l.foldl (· + ·) 0

/-! ### CRC-32C (R454): reflected polynomial 0x82F6_3B78, initial value and final XOR of all ones -/

/-- One bit of the running value. -/
def crcBit (r : Word) : Word := if r.getLsbD 0 then (r >>> 1) ^^^ 0x82F63B78#32 else r >>> 1

/-- One byte into the running value: one handshake of the check-value unit (R455). -/
def crcByte (r : Word) (b : Byte) : Word :=
  let x := r ^^^ b.setWidth 32
  crcBit (crcBit (crcBit (crcBit (crcBit (crcBit (crcBit (crcBit x)))))))

/-- Bytes into the running value, in order. -/
def crcRun (r : Word) : List Byte → Word
  | [] => r
  | b :: bs => crcRun (crcByte r b) bs

/-- CRC-32C of a byte string. -/
def crc32c (bs : List Byte) : Word := crcRun 0xFFFFFFFF#32 bs ^^^ 0xFFFFFFFF#32

end Sys2Proof.Machine
end

