-- ==== Sys2Proof/Machine/Num.lean ====
section
/-! DEFINITION. Number formats and narrow arithmetic (chapter 8 of the spec): every float is an exact dyadic number
m × 2^e that is rounded once. -/

namespace Sys2Proof.Machine

/-- A number read from a code: NaN, or a sign, a magnitude and an exponent, of value ± m × 2^e. -/
inductive Fv where
  | nan
  | num (neg : Bool) (m : Nat) (e : Int)
deriving DecidableEq, Repr

/-- The signed mantissa of a sign and a magnitude. -/
def sgn (neg : Bool) (m : Nat) : Int := if neg then -(m : Int) else (m : Int)

/-- m × 2^e as an integer multiple of 2^b, for b at most e. -/
def atExp (x : Int) (e b : Int) : Int := x * 2 ^ (e - b).toNat

/-- The exact sum of two dyadic numbers: mantissa and exponent. -/
def dyAdd (x : Int) (e : Int) (y : Int) (f : Int) : Int × Int :=
  let b := if e ≤ f then e else f
  (atExp x e b + atExp y f b, b)

/-- m / 2^s rounded to the nearest integer, ties to even; toward +∞ with `up`. -/
def rndShift (up : Bool) (m s : Nat) : Nat :=
  let q := m / 2 ^ s
  let r := m % 2 ^ s
  if r = 0 then q
  else if up then q + 1
  else
    let h := 2 ^ s / 2
    if r > h ∨ (r = h ∧ q % 2 = 1) then q + 1 else q

/-- The magnitude code of m × 2^e in a float format with `mb` mantissa bits and exponent bias `bias`, with
subnormals, rounded to nearest even (R190) or up, saturated to `top` (R191). -/
def encMag (up : Bool) (mb : Nat) (bias : Nat) (top : Nat) (m : Nat) (e : Int) : Nat :=
  if m = 0 then 0
  else
    let p : Int := (Nat.log2 m : Int) + e
    let emin : Int := 1 - (bias : Int)
    let sub := p < emin
    let ulp : Int := if sub then emin - mb else p - mb
    let q := if ulp ≤ e then m * 2 ^ (e - ulp).toNat else rndShift up m (ulp - e).toNat
    let code : Int := if sub then q else (p - emin) * 2 ^ mb + q
    if code ≥ top then top else code.toNat

/-- The value of a magnitude code. -/
def decMag (mb bias c : Nat) : Nat × Int :=
  let ex := c / 2 ^ mb
  let m := c % 2 ^ mb
  if ex = 0 then (m, 1 - (bias : Int) - mb) else (2 ^ mb + m, (ex : Int) - bias - mb)

/-- The canonical FP32 NaN (R193). -/
def nan32 : F32 := 0x7FC00000#32

/-- The largest finite FP32 magnitude code. -/
def top32f : Nat := 0x7F7FFFFF

/-- FP32 of a sign and a magnitude: one rounding to nearest even, saturation, and subnormal results flushed to
zero of the same sign (R190-R192). -/
def f32Of (neg : Bool) (m : Nat) (e : Int) : F32 :=
  let c := encMag false 23 127 top32f m e
  let c := if c < 2 ^ 23 then 0 else c
  BitVec.ofNat 32 (c + if neg then 2 ^ 31 else 0)

/-- FP32 of a signed dyadic; an exact zero takes the sign `zneg`. -/
def f32OfInt (zneg : Bool) (x : Int) (e : Int) : F32 :=
  if x = 0 then f32Of zneg 0 0 else f32Of (decide (x < 0)) x.natAbs e

/-- The number an FP32 operand is read as: subnormals as zero (R192), infinities as the largest finite value
(R191). -/
def f32Val (x : F32) : Fv :=
  let neg := x.getLsbD 31
  let c := x.toNat % 2 ^ 31
  if c > 0x7F800000 then .nan
  else if c = 0x7F800000 then .num neg (decMag 23 127 top32f).1 (decMag 23 127 top32f).2
  else if c < 2 ^ 23 then .num neg 0 0
  else .num neg (decMag 23 127 c).1 (decMag 23 127 c).2

/-- FP32 addition, one rounding. -/
def f32Add (a b : F32) : F32 :=
  match f32Val a, f32Val b with
  | .num s m e, .num t n f =>
    let r := dyAdd (sgn s m) e (sgn t n) f
    f32OfInt (s && t) r.1 r.2
  | _, _ => nan32

/-- FP32 multiplication, one rounding. -/
def f32Mul (a b : F32) : F32 :=
  match f32Val a, f32Val b with
  | .num s m e, .num t n f => f32Of (xor s t) (m * n) (e + f)
  | _, _ => nan32

/-- FP32 fused multiply-add a × b + c, one rounding (R198). -/
def f32Fma (a b c : F32) : F32 :=
  match f32Val a, f32Val b, f32Val c with
  | .num s m e, .num t n f, .num u k g =>
    let r := dyAdd (sgn (xor s t) (m * n)) (e + f) (sgn u k) g
    f32OfInt ((xor s t) && u) r.1 r.2
  | _, _, _ => nan32

/-- Whether a ≤ b, for numbers. -/
def fvLe : Fv → Fv → Bool
  | .num s m e, .num t n f =>
    let b := if e ≤ f then e else f
    decide (atExp (sgn s m) e b ≤ atExp (sgn t n) f b)
  | _, _ => false

/-- FP32 maximum; a NaN operand reaches the result (R193). -/
def f32Max (a b : F32) : F32 :=
  match f32Val a, f32Val b with
  | .num s m e, .num t n f => if fvLe (.num s m e) (.num t n f) then f32Of t n f else f32Of s m e
  | _, _ => nan32

/-! ### BF16 and FP16 -/

/-- BF16 code of a number (R192: subnormal results become zero of the same sign). -/
def bf16Of : Fv → Nat
  | .nan => 0x7FC0
  | .num neg m e =>
    let c := encMag false 7 127 0x7F7F m e
    (if c < 2 ^ 7 then 0 else c) + if neg then 2 ^ 15 else 0

/-- The number a BF16 code is read as. -/
def bf16Val (c : Nat) : Fv := f32Val (BitVec.ofNat 32 (c % 2 ^ 16 * 2 ^ 16))

/-- FP16 code of a number; FP16 subnormals are produced (R192). -/
def fp16Of : Fv → Nat
  | .nan => 0x7E00
  | .num neg m e => encMag false 10 15 0x7BFF m e + if neg then 2 ^ 15 else 0

/-- The number an FP16 code is read as. -/
def fp16Val (c : Nat) : Fv :=
  let neg := bitAt c 15
  let k := c % 2 ^ 15
  if k > 0x7C00 then .nan
  else
    let k := if k = 0x7C00 then 0x7BFF else k
    .num neg (decMag 10 15 k).1 (decMag 10 15 k).2

/-- FP32 of a number: what a store writes of a lane, finite or the canonical NaN (R191-R193). -/
def f32OfFv : Fv → F32
  | .nan => nan32
  | .num s m e => f32Of s m e

/-! ### Block formats (R183-R189) -/

/-- Whether a code of the format table names a format (R183). -/
def fmtOk (f : Nat) : Bool := [0x01, 0x02, 0x03, 0x04, 0x05, 0x06, 0x10, 0x11, 0x12, 0x20, 0x21, 0x22].contains f

/-- Element bits of a format. -/
def fmtBits (f : Nat) : Nat :=
  match f with
  | 0x01 => 8 | 0x02 => 8 | 0x03 => 6 | 0x04 => 6 | 0x05 => 4 | 0x06 => 8
  | 0x10 => 3 | 0x11 => 2 | 0x12 => 3 | 0x20 => 16 | 0x21 => 16 | _ => 32

/-- Elements that share one scale. -/
def fmtBlock (f : Nat) : Nat := if f = 0x10 then 16 else if f = 0x11 then 64 else 32

/-- MX formats: mantissa bits, bias, largest code and emax (R185). -/
def mxParams (f : Nat) : Nat × Nat × Nat × Int :=
  match f with
  | 0x01 => (3, 7, 0x7E, 8)
  | 0x02 => (2, 15, 0x7B, 15)
  | 0x03 => (2, 3, 0x1F, 4)
  | 0x04 => (3, 1, 0x1F, 2)
  | _ => (1, 1, 0x07, 2)

/-- The exponent of the unit in which every element of a format is an integer. -/
def elemUnit (f : Nat) : Int :=
  match f with
  | 0x01 => -9 | 0x02 => -16 | 0x03 => -4 | 0x04 => -3 | 0x05 => -1 | 0x06 => -6 | 0x10 => -4 | 0x12 => -1 | _ => 0

/-- NF3 levels in sixteenths by 3-bit code (R186). -/
def nf3Level (c : Nat) : Int :=
  match c % 8 with
  | 0 => 0 | 1 => 5 | 2 => 10 | 3 => 16 | 4 => -16 | 5 => -11 | 6 => -7 | _ => -3

/-- An element code as an integer multiple of 2^elemUnit; none is NaN (R185-R188). -/
def elemInt (f c : Nat) : Option Int :=
  match f with
  | 0x06 => some (if c % 256 < 128 then ((c % 256 : Nat) : Int) else ((c % 256 : Nat) : Int) - 256)
  | 0x10 => some (nf3Level c)
  | 0x11 => some (if c % 4 = 1 then 1 else if c % 4 = 3 then -1 else 0)
  | 0x12 => some (2 * ((c % 8 : Nat) : Int) - 7)
  | _ =>
    let p := mxParams f
    let bits := fmtBits f
    let neg := bitAt c (bits - 1)
    let k := c % 2 ^ (bits - 1)
    if f = 0x01 ∧ k = 0x7F then none
    else if f = 0x02 ∧ k > 0x7C then none
    else
      let k := if k > p.2.2.1 then p.2.2.1 else k
      let v := decMag p.1 p.2.1 k
      some (sgn neg (v.1 * 2 ^ (v.2 - elemUnit f).toNat))

/-- The magnitude of a block scale as mantissa and exponent; none is NaN (R184). -/
def scaleVal (f c : Nat) : Option (Nat × Int) :=
  if f = 0x10 ∨ f = 0x11 then
    if c % 256 = 0xFF then none else some (decMag 3 15 (c % 256))
  else if f = 0x12 then
    match bf16Val c with
    | .nan => none
    | .num _ m e => some (m, e)
  else if c % 256 = 0xFF then none
  else some (1, ((c % 256 : Nat) : Int) - 127)

/-- The sign of an element's code: of a float element its sign bit, so that a zero keeps its sign (R190). -/
def elemNeg (f c : Nat) (x : Int) : Bool := if x = 0 ∧ f < 0x06 then bitAt c (fmtBits f - 1) else decide (x < 0)

/-- The sign of a block scale: only BF16 has one (R184). -/
def scaleNeg (f c : Nat) : Bool := f == 0x12 && bitAt c 15

/-- The FP32 value of an element under its block scale. -/
def elemVal (f code scale : Nat) : Fv :=
  match elemInt f code, scaleVal f scale with
  | some x, some s => .num (xor (elemNeg f code x) (scaleNeg f scale)) (x.natAbs * s.1) (elemUnit f + s.2)
  | _, _ => .nan

/-- A quantized block: the scale code, the element codes, and whether it counts as OVF, UNF or NAN (R200). -/
structure QBlock where
  scale : Nat
  codes : List Nat
  ovf : Bool
  unf : Bool
  nan : Bool
deriving DecidableEq, Repr

/-- The magnitudes of a block, as integers at the least exponent of the block, with that exponent; none when the
block holds a NaN. -/
def blockInts : List Fv → Option (List Int × Int)
  | [] => some ([], 0)
  | .nan :: _ => none
  | .num s m e :: vs =>
    match blockInts vs with
    | none => none
    | some (xs, b) =>
      let k := if xs.isEmpty then e else if e ≤ b then e else b
      some (atExp (sgn s m) e k :: xs.map fun x => atExp x b k, k)

/-- An integer ratio x / y rounded to nearest even (y positive). -/
def rneRatio (x y : Nat) : Nat :=
  let q := x / y
  let r := x % y
  if 2 * r > y ∨ (2 * r = y ∧ q % 2 = 1) then q + 1 else q

/-- The sign of a number. -/
def Fv.neg : Fv → Bool
  | .nan => false
  | .num s _ _ => s

/-- Quantization of one block (R189); a zero keeps its sign in a float element (R190). -/
def quantBlock (f : Nat) (vs : List Fv) : QBlock :=
  match blockInts vs with
  | none => ⟨if f = 0x12 then 0x7FC0 else 0xFF, vs.map fun _ => 0, false, false, true⟩
  | some (xs, b) =>
    let amax := xs.foldl (fun a x => max a x.natAbs) 0
    if amax = 0 then ⟨0, xs.map fun _ => if f = 0x12 then 4 else 0, false, false, false⟩
    else
      match f with
      | 0x10 =>
        let c := encMag true 3 15 0xFE amax b
        let s := decMag 3 15 c
        let k := if b ≤ s.2 then b else s.2
        let sc := atExp (s.1 : Int) s.2 k
        let big := decide (atExp (amax : Int) b k > sc)
        let pick (x : Int) : Nat :=
          let v := 16 * atExp x b k
          let d (c : Nat) : Nat := (v - nf3Level c * sc).natAbs
          ([1, 7, 2, 6, 3, 5, 4] : List Nat).foldl (fun best c => if d c < d best then c else best) 0
        ⟨c, xs.map pick, big, false, false⟩
      | 0x11 =>
        let tot := nsum (xs.map Int.natAbs)
        let c := encMag false 3 15 0xFE tot (b - 6)
        let s := decMag 3 15 c
        let k := if b ≤ s.2 then b else s.2
        let sc := atExp (s.1 : Int) s.2 k
        let pick (x : Int) : Nat :=
          let v := 2 * atExp x b k
          if v ≥ sc then 1 else if v ≤ -sc then 3 else 0
        let z : Int := if b ≤ 0 then b else 0
        ⟨c, xs.map pick, decide (atExp (tot : Int) b z > atExp (64 * 114688) 0 z), false, false⟩
      | 0x12 =>
        let num := amax * 2 ^ 42
        let st := if num % 7 = 0 then 2 * (num / 7) else 2 * (num / 7) + 1
        let c := encMag true 7 127 0x7F7F st (b - 42)
        let low := decide (c < 2 ^ 7)
        let c := if c < 2 ^ 7 then 2 ^ 7 else c
        let s := decMag 7 127 c
        let k := if b ≤ s.2 then b else s.2
        let sc := atExp (s.1 : Int) s.2 k
        let pick (x : Int) : Nat :=
          let q := Int.fdiv (atExp x b k) sc + 4
          if q < 0 then 0 else if q > 7 then 7 else q.toNat
        ⟨c, xs.map pick, false, low, false⟩
      | _ =>
        let emax : Int := if f = 0x06 then 0 else (mxParams f).2.2.2
        let x0 : Int := (Nat.log2 amax : Int) + b - emax
        let x : Int := if x0 < -127 then -127 else if x0 > 127 then 127 else x0
        let pick (v : Int) (neg : Bool) : Nat :=
          if f = 0x06 then
            let sh := b - x + 6
            let q := if sh ≥ 0 then v.natAbs * 2 ^ sh.toNat else rndShift false v.natAbs (-sh).toNat
            let q := min 127 q
            if v < 0 ∧ q > 0 then 256 - q else q
          else
            let p := mxParams f
            let bits := fmtBits f
            encMag false p.1 p.2.1 p.2.2.1 v.natAbs (b - x) + if neg then 2 ^ (bits - 1) else 0
        ⟨(x + 127).toNat, List.zipWith pick xs (vs.map Fv.neg), decide (x0 > 127), decide (x0 < -127), false⟩

/-! ### Functions with an error bound (R198) -/

/-- ln 2 in units of 2^-64. -/
def ln2fix : Nat := 12786308645202655660

/-- The Taylor sum of exp(y) from term n on, `k` terms, y and the sum in units of 2^-64. -/
def expSum (y : Nat) : Nat → Nat → Nat → Nat
  | 0, _, _ => 0
  | k + 1, n, t => t + expSum y k (n + 1) (t * y / 2 ^ 64 / (n + 1))

/-- 2^f for a fraction f in units of 2^-64, in units of 2^-64. -/
def exp2frac (f : Nat) : Nat := expSum (f * ln2fix / 2 ^ 64) 24 0 (2 ^ 64)

/-- The integer part, and the fraction in units of 2^-64, of a number of moderate size. -/
def splitFix (s : Bool) (m : Nat) (e : Int) : Int × Nat :=
  let v : Int := if e ≥ -64 then sgn s m * 2 ^ (e + 64).toNat else Int.fdiv (sgn s m) (2 ^ (-e - 64).toNat)
  (Int.fdiv v (2 ^ 64), (Int.fmod v (2 ^ 64)).toNat)

/-- |c − v| ≤ v / 2^22 for c a number and v = y × 2^g, up to the error of the fixed-point value, which is below v / 2^56. -/
def within (c : Fv) (y : Nat) (g : Int) : Bool :=
  match c with
  | .nan => false
  | .num s m e =>
    if s then false
    else
      let b := if e ≤ g then e else g
      let d := (atExp (m : Int) e b - atExp (y : Int) g b).natAbs
      let v := (atExp (y : Int) g b).natAbs
      decide (d * 2 ^ 56 ≤ v * (2 ^ 34 + 1))

/-- Whether the positive number p × 2^g lies between (1 − 2^-21)^n and (1 + 2^-21)^n. -/
def nearOne (n p : Nat) (g : Int) : Bool :=
  let b : Int := if g ≤ -21 * n then g else -21 * n
  let v := atExp (p : Int) g b
  decide (atExp ((2 ^ 21 - 1) ^ n) (-21 * n) b ≤ v ∧ v ≤ atExp ((2 ^ 21 + 1) ^ n) (-21 * n) b)

/-- VEXP2: the candidate where it keeps the relative error of 2^-22, else the fixed-point value; +0 below −126 and
the largest finite value beyond the range (R198). -/
def f32Exp2 (x : F32) : F32 :=
  match f32Val x with
  | .nan => nan32
  | .num s m e =>
    if s && !fvLe (.num true 126 0) (.num s m e) then 0#32
    else if !s && fvLe (.num false 128 0) (.num s m e) then BitVec.ofNat 32 top32f
    else
      let nf := splitFix s m e
      let y := exp2frac nf.2
      let g := nf.1 - 64
      let c := Config.exp2Candidate x
      if within (f32Val c) y g then c else f32Of false y g

/-- VRCP: the candidate where it keeps the relative error of 2^-21; ±0 gives the largest finite value with the same sign (R198). -/
def f32Rcp (x : F32) : F32 :=
  match f32Val x with
  | .nan => nan32
  | .num s m e =>
    if m = 0 then BitVec.ofNat 32 (top32f + if s then 2 ^ 31 else 0)
    else
      let q := 2 ^ 96 / m
      let q := if 2 ^ 96 % m = 0 then 2 * q else 2 * q + 1
      let exact := f32Of s q (-97 - e)
      if exact.toNat % 2 ^ 31 = 0 then exact
      else
        let c := Config.rcpCandidate x
        match f32Val c with
        | .num t k f => if t == s && nearOne 1 (k * m) (f + e) then f32Of t k f else exact
        | .nan => exact

/-- The integer square root, bit by bit from bit `i`. -/
def isqrtBits (n : Nat) : Nat → Nat → Nat
  | 0, r => r
  | i + 1, r => if (r + 2 ^ i) * (r + 2 ^ i) ≤ n then isqrtBits n i (r + 2 ^ i) else isqrtBits n i r

/-- VRSQRT: the candidate where it keeps the relative error of 2^-21; +0 gives the largest finite value, a negative value the NaN (R193, R198).
A zero of negative sign is read as zero. -/
def f32Rsqrt (x : F32) : F32 :=
  match f32Val x with
  | .nan => nan32
  | .num s m e =>
    if m = 0 then BitVec.ofNat 32 top32f
    else if s then nan32
    else
      let odd := Int.fmod e 2 = 1
      let m' := if odd then 2 * m else m
      let e' := if odd then e - 1 else e
      let r := isqrtBits (2 ^ 128 / m') 65 0
      let g : Int := -64 - Int.fdiv e' 2
      match f32Val (Config.rsqrtCandidate x) with
      | .num t k f => if !t && nearOne 2 (k * k * m) (2 * f + e) then f32Of t k f else f32Of false r g
      | .nan => f32Of false r g

/-! ### The matrix unit (R194-R197, R204) -/

/-- The depth class of a weight format: reduction depth K, or none for a format that is no weight format. -/
def depthOf (f : Nat) : Option Nat :=
  match f with
  | 0x01 => some 64 | 0x02 => some 64 | 0x03 => some 64 | 0x04 => some 64 | 0x06 => some 64
  | 0x05 => some 128 | 0x10 => some 128
  | 0x11 => some 256
  | _ => none

/-- Whether an activation format is allowed for a weight format's class (R194). -/
def actOk (wf af : Nat) : Bool :=
  match depthOf wf with
  | some 64 => af == 0x01 || af == 0x02 || af == 0x06
  | some 128 => af == 0x01 || af == 0x05
  | some _ => af == 0x01 || af == 0x06
  | none => false

/-- Element k of a little-endian bit string with `bits` bits each. -/
def bitElem (bs : List Byte) (bits k : Nat) : Nat :=
  let at0 := k * bits / 8
  leAt bs at0 3 / 2 ^ (k * bits % 8) % 2 ^ bits

/-- Length of a term block: the run of k that shares one activation scale and one weight scale. -/
def termLen (wf : Nat) : Nat := if wf = 0x10 then 16 else 32

/-- The exact sum of products of a term block, none when an element is NaN. -/
def blockSum (wf af : Nat) : List Nat → List Nat → Option Int
  | a :: as, w :: ws =>
    match elemInt af a, elemInt wf w, blockSum wf af as ws with
    | some x, some y, some r => some (x * y + r)
    | _, _, _ => none
  | _, _ => some 0

/-- One term: the exact block sum times both scales, rounded once (R197 steps 1 to 3). -/
def termVal (wf af : Nat) (as ws : List Nat) (sa sw : Nat) : F32 :=
  match blockSum wf af as ws, scaleVal af sa, scaleVal wf sw with
  | some x, some (m, e), some (n, f) =>
    f32OfInt false (x * (m * n : Nat)) (elemUnit af + elemUnit wf + e + f)
  | _, _, _ => nan32

/-- The terms of one output, added to the accumulator element in ascending k (R197 step 4). -/
def addTerms (wf af len wblk : Nat) (as ws sas sws : List Nat) : Nat → Nat → F32 → F32
  | 0, _, acc => acc
  | n + 1, k, acc =>
    let t := termVal wf af ((as.drop k).take len) ((ws.drop k).take len) ((sas[k / 32]?).getD 0) ((sws[k / wblk]?).getD 0)
    addTerms wf af len wblk as ws sas sws n (k + len) (f32Add acc t)

/-- Sum of a fixed pairwise tree: lane 2i with lane 2i + 1, and so on upward (R198). -/
def pairTree (f : F32 → F32 → F32) : Nat → List F32 → List F32
  | 0, l => l
  | n + 1, l => pairTree f n (pairs l)
where
  pairs : List F32 → List F32
    | a :: b :: r => f a b :: pairs r
    | l => l

/-! ### The park codec (R92, R93) -/

/-- Bytes of one head vector (R209). -/
def vecBytes (fmt d : Nat) : Nat := if fmt = 0x20 ∨ fmt = 0x21 then 2 * d else d * fmtBits fmt / 8 + d / 32

/-- The elements of a stored head vector, codes followed by E8M0 scales (R209). -/
def vecVals (fmt d : Nat) (bs : List Byte) : List Fv :=
  (List.range d).map fun k =>
    if fmt = 0x20 then bf16Val (leAt bs (2 * k) 2)
    else if fmt = 0x21 then fp16Val (leAt bs (2 * k) 2)
    else elemVal fmt (bitElem bs (fmtBits fmt) k) (leAt bs (d * fmtBits fmt / 8 + k / 32) 1)

/-- Lists of `n` elements cut from a list, `k` of them. -/
def chunks {α : Type} (n : Nat) : Nat → List α → List (List α)
  | 0, _ => []
  | k + 1, l => l.take n :: chunks n k (l.drop n)

/-- A bit string of elements of `bits` bits packed little-endian, as a number. -/
def packBits (bits : Nat) : List Nat → Nat
  | [] => 0
  | c :: cs => c % 2 ^ bits + 2 ^ bits * packBits bits cs

/-- The stored bytes of a head vector in a working format. -/
def vecStore (fmt d : Nat) (vs : List Fv) : List Byte :=
  if fmt = 0x20 then vs.flatMap fun v => leBytes 2 (bf16Of v)
  else if fmt = 0x21 then vs.flatMap fun v => leBytes 2 (fp16Of v)
  else
    let bl := (chunks 32 (d / 32) vs).map (quantBlock fmt)
    leBytes (d * fmtBits fmt / 8) (packBits (fmtBits fmt) (bl.flatMap QBlock.codes)) ++
      bl.map fun q => BitVec.ofNat 8 q.scale

/-- Occurrences of the symbols 0 to 7. -/
def symCounts (cs : List Nat) : List Nat := (List.range 8).map fun k => (cs.filter (· == k)).length

/-- Tiller's frequency table of a segment (R93). -/
def ransFreqs (cs : List Nat) : List Nat :=
  let n := symCounts cs
  let tot := max 1 cs.length
  let f := n.map fun x => if x > 0 ∧ 4096 * x / tot = 0 then 1 else 4096 * x / tot
  let big := n.foldl max 0
  let m := (List.range 8).foldr (fun k b => if (n[k]?).getD 0 = big then k else b) 0
  let f := f.set m ((f[m]?).getD 0 + 4096 - nsum f)
  if (f[m]?).getD 0 = 4096 then
    let z := (List.range 8).foldr (fun k b => if (n[k]?).getD 0 = 0 then k else b) 0
    (f.set m 4095).set z 1
  else f

/-- The cumulative frequency of symbol k. -/
def ransCum (f : List Nat) (k : Nat) : Nat := nsum (f.take k)

/-- Bytes emitted while the state is too large, last emitted first, with the state left. -/
def ransEmit (lim : Nat) : Nat → Nat → List Byte → Nat × List Byte
  | 0, x, out => (x, out)
  | n + 1, x, out => if x ≥ lim then ransEmit lim n (x / 256) (BitVec.ofNat 8 x :: out) else (x, out)

/-- The encoder over the symbols in reverse order: state and bytes, last emitted first (R93). -/
def ransEnc (f : List Nat) : List Nat → Nat × List Byte → Nat × List Byte
  | [], st => st
  | s :: ss, (x, out) =>
    let fs := (f[s]?).getD 1
    let r := ransEmit (fs * 2 ^ 19) 8 x out
    ransEnc f ss ((r.1 / fs) * 4096 + r.1 % fs + ransCum f s, r.2)

/-- A coded segment: the final state, then the emitted bytes in reverse order of emission (R93). -/
def ransSegment (f : List Nat) (cs : List Nat) : List Byte :=
  let r := ransEnc f cs.reverse (2 ^ 23, [])
  leBytes 4 r.1 ++ r.2

/-- Bytes drawn until the state is large enough. -/
def ransFill : Nat → Nat → List Byte → Nat × List Byte
  | 0, x, bs => (x, bs)
  | n + 1, x, bs =>
    if x < 2 ^ 23 then
      match bs with
      | b :: r => ransFill n (x * 256 + b.toNat) r
      | [] => (x, [])
    else (x, bs)

/-- The decoder of R93: symbols of a segment of `count` elements. -/
def ransDec (f : List Nat) : Nat → Nat → List Byte → List Nat
  | 0, _, _ => []
  | n + 1, x, bs =>
    let slot := x % 4096
    let s := (List.range 8).foldr (fun k b =>
      if ransCum f k ≤ slot ∧ slot < ransCum f k + (f[k]?).getD 0 then k else b) 0
    let x' := (f[s]?).getD 0 * (x / 4096) + slot - ransCum f s
    let r := ransFill 4 x' bs
    s :: ransDec f n r.1 r.2

end Sys2Proof.Machine
end

