-- ==== Sys2Proof/Machine/RegMap.lean ====
section
/-! DEFINITION. The register map of BAR0 (R43 and each chapter's register tables): offset, access, field widths,
reset values and stated ranges. Reset values that depend on the register's index are given by `resetOf`. -/

namespace Sys2Proof.Machine

/-- The access codes of R6. -/
inductive Acc where
  | ro | rw | w1c | wo | rc | sh
deriving DecidableEq, Repr

/-- Where a register's value lives: once for the module, once for each partition (addressed by a PF through
CFG_VIEW, R27), once for each function, or once for each port's PF. -/
inductive RegScope where
  | dev | part | fn | port
deriving DecidableEq, Repr

/-- A field: bits [hi:lo], access, reset value and the range a commit check allows (R31). -/
structure FieldDesc where
  hi : Nat
  lo : Nat
  acc : Acc
  reset : Nat
  min : Nat
  max : Nat
deriving DecidableEq, Repr

/-- A register, or `count` registers `stride` bytes apart, at BAR0 offset `off`. -/
structure RegDesc where
  name : String
  off : Nat
  stride : Nat
  count : Nat
  vf : Bool
  scope : RegScope
  fields : List FieldDesc
deriving DecidableEq, Repr

/-- Registers of block TIME. -/
def regsTIME : List RegDesc := [
  ⟨"TIME_NOW_LO", 0x110000, 0x4, 1, true, .dev, [⟨31, 0, .ro, 0, 0, 4294967295⟩]⟩,
  ⟨"TIME_NOW_HI", 0x110004, 0x4, 1, true, .fn, [⟨31, 0, .ro, 0, 0, 4294967295⟩]⟩,
  ⟨"TIME_SPEED", 0x110008, 0x4, 1, true, .dev, [⟨31, 16, .ro, 1024, 0, 65535⟩, ⟨15, 0, .ro, 1024, 0, 65535⟩]⟩,
  ⟨"TIME_TMRn_CMP_LO", 0x110100, 0x10, 16, false, .fn, [⟨31, 0, .rw, 0, 0, 4294967295⟩]⟩,
  ⟨"TIME_TMRn_CMP_HI", 0x110104, 0x10, 16, false, .fn, [⟨31, 0, .rw, 0, 0, 4294967295⟩]⟩,
  ⟨"TIME_TMRn_CTRL", 0x110108, 0x10, 16, false, .fn, [⟨31, 8, .rw, 0, 0, 16777215⟩, ⟨1, 1, .w1c, 0, 0, 1⟩, ⟨0, 0, .rw, 0, 0, 1⟩]⟩]

/-- Registers of block CFG. -/
def regsCFG : List RegDesc := [
  ⟨"CFG_COMMIT_TICK_LO", 0x020000, 0x4, 1, true, .fn, [⟨31, 0, .rw, 0, 0, 4294967295⟩]⟩,
  ⟨"CFG_COMMIT_TICK_HI", 0x020004, 0x4, 1, true, .fn, [⟨31, 0, .rw, 0, 0, 4294967295⟩]⟩,
  ⟨"CFG_COMMIT_MASK", 0x020008, 0x4, 1, true, .fn, [⟨17, 0, .rw, 0, 0, 262143⟩]⟩,
  ⟨"CFG_COMMIT_CTRL", 0x02000C, 0x4, 1, true, .fn, [⟨7, 7, .wo, 0, 0, 1⟩, ⟨6, 6, .wo, 0, 0, 1⟩, ⟨5, 5, .wo, 0, 0, 1⟩, ⟨4, 4, .rw, 0, 0, 1⟩, ⟨3, 0, .rw, 0, 0, 15⟩]⟩,
  ⟨"CFG_COMMIT_STATUS", 0x020010, 0x4, 1, true, .fn, [⟨31, 16, .ro, 0, 0, 65535⟩, ⟨15, 12, .ro, 0, 0, 15⟩]⟩,
  ⟨"CFG_COMMIT_ID", 0x020014, 0x4, 1, true, .fn, [⟨15, 0, .ro, 0, 0, 65535⟩]⟩,
  ⟨"CFG_SWAP_TICK_LO", 0x020018, 0x4, 1, true, .fn, [⟨31, 0, .ro, 0, 0, 4294967295⟩]⟩,
  ⟨"CFG_SWAP_TICK_HI", 0x02001C, 0x4, 1, true, .fn, [⟨31, 0, .ro, 0, 0, 4294967295⟩]⟩,
  ⟨"CFG_ERR", 0x020020, 0x4, 1, true, .fn, [⟨20, 16, .ro, 0, 0, 31⟩, ⟨15, 15, .ro, 0, 0, 1⟩, ⟨14, 0, .ro, 0, 0, 32767⟩]⟩,
  ⟨"CFG_LOCKED_WRITES", 0x020024, 0x4, 1, true, .fn, [⟨31, 0, .rc, 0, 0, 4294967295⟩]⟩,
  ⟨"CFG_PENDING", 0x020028, 0x4, 1, true, .fn, [⟨17, 0, .ro, 0, 0, 262143⟩]⟩,
  ⟨"CFG_VIEW", 0x02002C, 0x4, 1, false, .fn, [⟨3, 0, .rw, 0, 0, 15⟩]⟩]

/-- Registers of block CMD. -/
def regsCMD : List RegDesc := [
  ⟨"CMD_SQn_BASE_LO", 0x010000, 0x20, 16, true, .fn, [⟨31, 0, .rw, 0, 0, 4294967295⟩]⟩,
  ⟨"CMD_SQn_BASE_HI", 0x010004, 0x20, 16, true, .fn, [⟨31, 0, .rw, 0, 0, 4294967295⟩]⟩,
  ⟨"CMD_RQn_BASE_LO", 0x010400, 0x20, 16, true, .fn, [⟨31, 0, .rw, 0, 0, 4294967295⟩]⟩,
  ⟨"CMD_RQn_BASE_HI", 0x010404, 0x20, 16, true, .fn, [⟨31, 0, .rw, 0, 0, 4294967295⟩]⟩,
  ⟨"CMD_SQn_CFG", 0x010008, 0x20, 16, true, .fn, [⟨31, 31, .rw, 0, 0, 1⟩, ⟨23, 20, .rw, 0, 0, 15⟩, ⟨3, 0, .rw, 0, 0, 15⟩]⟩,
  ⟨"CMD_SQn_TAIL", 0x01000C, 0x20, 16, true, .fn, [⟨11, 0, .rw, 0, 0, 4095⟩]⟩,
  ⟨"CMD_SQn_HEAD", 0x010010, 0x20, 16, true, .fn, [⟨11, 0, .ro, 0, 0, 4095⟩]⟩,
  ⟨"CMD_SQn_STATUS", 0x010014, 0x20, 16, true, .fn, [⟨31, 28, .ro, 0, 0, 15⟩, ⟨27, 24, .ro, 0, 0, 15⟩, ⟨12, 0, .ro, 0, 0, 8191⟩]⟩,
  ⟨"CMD_RQn_CFG", 0x010408, 0x20, 16, true, .fn, [⟨31, 31, .rw, 0, 0, 1⟩, ⟨19, 16, .rw, 0, 0, 15⟩, ⟨3, 0, .rw, 0, 0, 15⟩]⟩,
  ⟨"CMD_RQn_HEAD", 0x01040C, 0x20, 16, true, .fn, [⟨12, 0, .rw, 0, 0, 8191⟩]⟩,
  ⟨"CMD_RQn_TAIL", 0x010410, 0x20, 16, true, .fn, [⟨31, 31, .ro, 1, 0, 1⟩, ⟨12, 0, .ro, 0, 0, 8191⟩]⟩,
  ⟨"CMD_RQn_STATUS", 0x010414, 0x20, 16, true, .fn, [⟨31, 28, .ro, 0, 0, 15⟩, ⟨27, 24, .ro, 0, 0, 15⟩, ⟨17, 0, .ro, 0, 0, 262143⟩]⟩,
  ⟨"CMD_RQn_COAL", 0x010418, 0x20, 16, true, .fn, [⟨31, 16, .rw, 0, 0, 65535⟩, ⟨8, 0, .rw, 1, 0, 511⟩]⟩,
  ⟨"CMD_OUTSTANDING", 0x010800, 0x4, 1, true, .fn, [⟨14, 0, .ro, 0, 0, 32767⟩]⟩,
  ⟨"CMD_HB", 0x010804, 0x4, 1, false, .port, [⟨31, 0, .wo, 0, 0, 4294967295⟩]⟩,
  ⟨"CMD_HB_CFG", 0x010808, 0x4, 1, false, .port, [⟨9, 0, .rw, 0, 0, 1023⟩]⟩,
  ⟨"CMD_HOST_STATE", 0x01080C, 0x4, 1, false, .fn, [⟨4, 3, .ro, 0, 0, 3⟩, ⟨2, 1, .ro, 0, 0, 3⟩, ⟨0, 0, .ro, 0, 0, 1⟩]⟩,
  ⟨"CMD_PART_BIND", 0x010810, 0x4, 1, false, .fn, [⟨31, 16, .ro, 0, 0, 65535⟩, ⟨15, 0, .ro, 0, 0, 65535⟩]⟩,
  ⟨"CMD_PART_WEIGHT", 0x010900, 0x4, 1, true, .part, [⟨7, 0, .sh, 16, 1, 255⟩]⟩,
  ⟨"CMD_PART_QUOTA", 0x010904, 0x4, 1, true, .part, [⟨14, 0, .sh, 4096, 64, 16384⟩]⟩]

/-- Registers of block SES. -/
def regsSES : List RegDesc := [
  ⟨"SES_WINDOW", 0x030000, 0x4, 1, true, .part, [⟨14, 0, .sh, 512, 64, 16384⟩]⟩,
  ⟨"SES_PARK_CFG", 0x030004, 0x4, 1, true, .part, [⟨21, 21, .sh, 0, 0, 1⟩, ⟨20, 20, .sh, 0, 0, 1⟩, ⟨19, 0, .sh, 0, 0, 1048575⟩]⟩,
  ⟨"SES_COMPRESSOR", 0x030008, 0x4, 1, true, .part, [⟨31, 24, .sh, 8, 2, 64⟩, ⟨15, 0, .sh, 0, 0, 65535⟩]⟩,
  ⟨"SES_IN_USE", 0x030010, 0x4, 1, true, .part, [⟨24, 0, .ro, 0, 0, 33554431⟩]⟩,
  ⟨"SES_PARKED", 0x030014, 0x4, 1, true, .part, [⟨24, 0, .ro, 0, 0, 33554431⟩]⟩,
  ⟨"SES_WAKE_SLOW", 0x030018, 0x4, 1, true, .part, [⟨31, 0, .rc, 0, 0, 4294967295⟩]⟩,
  ⟨"SES_LOST", 0x03001C, 0x4, 1, true, .part, [⟨31, 0, .rc, 0, 0, 4294967295⟩]⟩,
  ⟨"SES_Pp_BASE", 0x030100, 0x8, 16, false, .dev, [⟨24, 0, .sh, 0, 0, 33554431⟩]⟩,
  ⟨"SES_Pp_QUOTA", 0x030104, 0x8, 16, false, .dev, [⟨24, 0, .sh, 2097152, 0, 16777216⟩]⟩,
  ⟨"SES_STAGE_CFG", 0x030200, 0x4, 1, false, .dev, [⟨6, 0, .sh, 98, 50, 100⟩]⟩,
  ⟨"SES_STAGED_A, SES_STAGED_B", 0x030204, 0x4, 2, false, .dev, [⟨18, 0, .ro, 0, 0, 524287⟩]⟩]

/-- Registers of block MEM. -/
def regsMEM : List RegDesc := [
  ⟨"MEM_HBM_USED", 0x040000, 0x4, 1, true, .part, [⟨24, 0, .ro, 0, 0, 33554431⟩]⟩,
  ⟨"MEM_NAND_USED", 0x040004, 0x4, 1, true, .part, [⟨31, 0, .ro, 0, 0, 4294967295⟩]⟩,
  ⟨"MEM_KEY", 0x040008, 0x4, 1, true, .part, [⟨13, 13, .ro, 0, 0, 1⟩, ⟨12, 10, .ro, 1, 0, 7⟩, ⟨5, 0, .ro, 1, 0, 63⟩]⟩,
  ⟨"MEM_SWEEP_CFG", 0x04000C, 0x4, 1, true, .part, [⟨11, 0, .sh, 200, 0, 4000⟩]⟩,
  ⟨"MEM_UNMAPPED", 0x040010, 0x4, 1, true, .part, [⟨31, 0, .rc, 0, 0, 4294967295⟩]⟩,
  ⟨"MEM_Pp_HBM_QUOTA", 0x040100, 0x8, 16, false, .dev, [⟨9, 0, .sh, 47, 0, 752⟩]⟩,
  ⟨"MEM_Pp_NAND_QUOTA", 0x040104, 0x8, 16, false, .dev, [⟨14, 0, .sh, 1391, 0, 22266⟩]⟩,
  ⟨"MEM_FTL_LAYOUT", 0x040200, 0x4, 1, false, .dev, [⟨8, 0, .sh, 100, 0, 320⟩]⟩,
  ⟨"MEM_FTL_STATE", 0x040204, 0x4, 1, false, .dev, [⟨31, 31, .ro, 0, 0, 1⟩, ⟨30, 24, .ro, 0, 0, 127⟩, ⟨23, 16, .ro, 0, 0, 255⟩, ⟨15, 8, .ro, 0, 0, 255⟩, ⟨7, 7, .ro, 0, 0, 1⟩]⟩,
  ⟨"MEM_WEAR", 0x040208, 0x4, 1, false, .dev, [⟨31, 16, .ro, 0, 0, 65535⟩, ⟨15, 0, .ro, 0, 0, 65535⟩]⟩,
  ⟨"MEM_CULM_BUSY", 0x04020C, 0x4, 1, false, .dev, [⟨14, 0, .ro, 0, 0, 32767⟩]⟩,
  ⟨"MEM_HBM_FREE", 0x040210, 0x4, 1, false, .dev, [⟨24, 0, .ro, 24641536, 0, 33554431⟩]⟩,
  ⟨"MEM_SPILL_CFG", 0x040300, 0x4, 1, true, .part, [⟨16, 16, .sh, 0, 0, 1⟩, ⟨15, 8, .sh, 5, 1, 50⟩, ⟨7, 0, .sh, 2, 0, 49⟩]⟩,
  ⟨"MEM_KV_FREE", 0x040304, 0x4, 1, true, .part, [⟨24, 0, .ro, 0, 0, 33554431⟩]⟩,
  ⟨"MEM_KV_SPILLED", 0x040308, 0x4, 1, true, .part, [⟨31, 0, .ro, 0, 0, 4294967295⟩]⟩,
  ⟨"MEM_SPILL_COUNT", 0x04030C, 0x4, 1, true, .part, [⟨31, 0, .rc, 0, 0, 4294967295⟩]⟩,
  ⟨"MEM_STU_FAULTS", 0x040310, 0x4, 1, true, .part, [⟨31, 0, .rc, 0, 0, 4294967295⟩]⟩,
  ⟨"MEM_STU_RESOLVED", 0x040314, 0x4, 1, false, .dev, [⟨16, 0, .ro, 0, 0, 131071⟩]⟩]

/-- Registers of block GLM. -/
def regsGLM : List RegDesc := [
  ⟨"GLM_ALIAS_ERR", 0x050000, 0x4, 1, true, .part, [⟨31, 0, .rc, 0, 0, 4294967295⟩]⟩,
  ⟨"GLM_BUSY_READS", 0x050004, 0x4, 1, true, .part, [⟨31, 0, .rc, 0, 0, 4294967295⟩]⟩,
  ⟨"GLM_REFUSED_WRITES", 0x050008, 0x4, 1, true, .part, [⟨31, 0, .rc, 0, 0, 4294967295⟩]⟩,
  ⟨"GLM_PROG_FAULTS", 0x05000C, 0x4, 1, true, .part, [⟨31, 0, .rc, 0, 0, 4294967295⟩]⟩,
  ⟨"GLM_CE_COUNT", 0x050010, 0x4, 1, false, .dev, [⟨31, 0, .rc, 0, 0, 4294967295⟩]⟩,
  ⟨"GLM_POISON_WRITES", 0x050014, 0x4, 1, false, .dev, [⟨31, 0, .rc, 0, 0, 4294967295⟩]⟩,
  ⟨"GLM_PROG_CFG", 0x050018, 0x4, 1, false, .dev, [⟨17, 17, .ro, 1, 0, 1⟩, ⟨16, 16, .ro, 0, 0, 1⟩, ⟨15, 0, .sh, 1000, 1, 65535⟩]⟩,
  ⟨"GLM_Ss_OWNERk", 0x050100, 0x4, 128, false, .dev, [⟨29, 25, .sh, 31, 0, 31⟩, ⟨24, 20, .sh, 31, 0, 31⟩, ⟨19, 15, .sh, 31, 0, 31⟩, ⟨14, 10, .sh, 31, 0, 31⟩, ⟨9, 5, .sh, 31, 0, 31⟩, ⟨4, 0, .sh, 31, 0, 31⟩]⟩,
  ⟨"GLM_Ss_MODE_LO", 0x050400, 0x8, 16, true, .part, [⟨31, 0, .ro, 0, 0, 4294967295⟩]⟩,
  ⟨"GLM_Ss_MODE_HI", 0x050404, 0x8, 16, true, .part, [⟨15, 0, .ro, 0, 0, 65535⟩]⟩,
  ⟨"GLM_Ss_THERM", 0x050500, 0x4, 16, false, .dev, [⟨17, 16, .ro, 0, 0, 3⟩, ⟨15, 14, .ro, 0, 0, 3⟩, ⟨13, 11, .ro, 0, 0, 7⟩, ⟨7, 0, .ro, 0, 0, 255⟩]⟩]

/-- Registers of block GRID. -/
def regsGRID : List RegDesc := [
  ⟨"GRID_HOTSET", 0x060000, 0x4, 1, true, .part, [⟨31, 31, .sh, 1, 0, 1⟩, ⟨30, 30, .sh, 0, 0, 1⟩, ⟨15, 0, .sh, 100, 0, 60000⟩]⟩,
  ⟨"GRID_RESIDENT", 0x060004, 0x4, 1, true, .part, [⟨24, 16, .ro, 0, 0, 511⟩, ⟨12, 0, .ro, 0, 0, 8191⟩]⟩,
  ⟨"GRID_LOADS", 0x060008, 0x4, 1, true, .part, [⟨31, 0, .rc, 0, 0, 4294967295⟩]⟩,
  ⟨"GRID_EVICTS", 0x06000C, 0x4, 1, true, .part, [⟨31, 0, .rc, 0, 0, 4294967295⟩]⟩,
  ⟨"GRID_FAULTS", 0x060010, 0x4, 1, true, .part, [⟨31, 0, .rc, 0, 0, 4294967295⟩]⟩,
  ⟨"GRID_LAST_FAULT", 0x060014, 0x4, 1, true, .part, [⟨31, 16, .ro, 0, 0, 65535⟩, ⟨11, 8, .ro, 0, 0, 15⟩, ⟨7, 0, .ro, 0, 0, 255⟩]⟩,
  ⟨"GRID_Pp_AREA", 0x060100, 0x4, 16, false, .dev, [⟨16, 16, .sh, 0, 0, 1⟩, ⟨15, 12, .sh, 0, 0, 15⟩, ⟨11, 8, .sh, 0, 0, 15⟩, ⟨7, 4, .sh, 0, 0, 15⟩, ⟨3, 0, .sh, 0, 0, 15⟩]⟩,
  ⟨"GRID_HANG", 0x060200, 0x4, 1, false, .dev, [⟨9, 0, .sh, 50, 1, 1000⟩]⟩,
  ⟨"GRID_DESC", 0x060204, 0x4, 1, false, .dev, [⟨13, 0, .sh, 4096, 256, 8192⟩]⟩,
  ⟨"GRID_BUSYk", 0x060300, 0x4, 8, false, .dev, [⟨31, 0, .ro, 0, 0, 4294967295⟩]⟩,
  ⟨"GRID_OFFLINEk", 0x060320, 0x4, 8, false, .dev, [⟨31, 0, .ro, 0, 0, 4294967295⟩]⟩,
  ⟨"GRID_NUM_CFG", 0x060400, 0x4, 1, true, .part, [⟨31, 31, .sh, 1, 0, 1⟩, ⟨20, 16, .sh, 12, 8, 20⟩, ⟨15, 0, .sh, 100, 10, 60000⟩]⟩,
  ⟨"GRID_NUM_SEL", 0x060404, 0x4, 1, true, .fn, [⟨31, 16, .rw, 65535, 0, 65535⟩, ⟨15, 0, .rw, 0, 0, 65535⟩]⟩,
  ⟨"GRID_NUM_THRESH", 0x060408, 0x4, 1, true, .part, [⟨15, 0, .rw, 8192, 0, 65535⟩]⟩,
  ⟨"GRID_NUM_OVF", 0x06040C, 0x4, 1, true, .part, [⟨31, 0, .rc, 0, 0, 4294967295⟩]⟩,
  ⟨"GRID_NUM_UNF", 0x060410, 0x4, 1, true, .part, [⟨31, 0, .rc, 0, 0, 4294967295⟩]⟩,
  ⟨"GRID_NUM_NAN", 0x060414, 0x4, 1, true, .part, [⟨31, 0, .rc, 0, 0, 4294967295⟩]⟩,
  ⟨"GRID_NUM_SAMPLES", 0x060418, 0x4, 1, true, .part, [⟨31, 0, .ro, 0, 0, 4294967295⟩]⟩,
  ⟨"GRID_NUM_EXCEED", 0x06041C, 0x4, 1, true, .part, [⟨31, 0, .rc, 0, 0, 4294967295⟩]⟩,
  ⟨"GRID_NUM_SKIPPED", 0x060420, 0x4, 1, true, .part, [⟨31, 0, .rc, 0, 0, 4294967295⟩]⟩,
  ⟨"GRID_NUM_ERR", 0x060424, 0x4, 1, true, .part, [⟨31, 16, .rc, 0, 0, 65535⟩, ⟨15, 0, .ro, 0, 0, 65535⟩]⟩,
  ⟨"GRID_RESIDUE_ERR", 0x060500, 0x4, 1, false, .dev, [⟨31, 0, .rc, 0, 0, 4294967295⟩]⟩]

/-- Registers of block SCH. -/
def regsSCH : List RegDesc := [
  ⟨"SCH_CHUNK", 0x070000, 0x4, 1, true, .part, [⟨12, 0, .sh, 512, 0, 8191⟩]⟩,
  ⟨"SCH_BUDGET", 0x070004, 0x4, 1, true, .part, [⟨13, 0, .sh, 2048, 0, 16383⟩]⟩,
  ⟨"SCH_ACTIVE", 0x070008, 0x4, 1, true, .part, [⟨24, 0, .ro, 0, 0, 33554431⟩]⟩,
  ⟨"SCH_LATE_TOKENS", 0x07000C, 0x4, 1, true, .part, [⟨31, 0, .rc, 0, 0, 4294967295⟩]⟩,
  ⟨"SCH_FALLBACKS", 0x070010, 0x4, 1, true, .part, [⟨31, 0, .rc, 0, 0, 4294967295⟩]⟩,
  ⟨"SCH_FB_UNAVAIL", 0x070014, 0x4, 1, true, .part, [⟨31, 0, .rc, 0, 0, 4294967295⟩]⟩,
  ⟨"SCH_ENGINE_NS_LO", 0x070020, 0x4, 1, true, .part, [⟨31, 0, .ro, 0, 0, 4294967295⟩]⟩,
  ⟨"SCH_ENGINE_NS_HI", 0x070024, 0x4, 1, true, .part, [⟨31, 0, .ro, 0, 0, 4294967295⟩]⟩,
  ⟨"SCH_ENERGY_LO", 0x070028, 0x4, 1, true, .part, [⟨31, 0, .ro, 0, 0, 4294967295⟩]⟩,
  ⟨"SCH_ENERGY_HI", 0x07002C, 0x4, 1, true, .part, [⟨31, 0, .ro, 0, 0, 4294967295⟩]⟩,
  ⟨"SCH_ENERGY_UNATTR_LO", 0x070030, 0x4, 1, true, .part, [⟨31, 0, .ro, 0, 0, 4294967295⟩]⟩,
  ⟨"SCH_ENERGY_UNATTR_HI", 0x070034, 0x4, 1, true, .part, [⟨31, 0, .ro, 0, 0, 4294967295⟩]⟩,
  ⟨"SCH_BYTES_SEL", 0x070038, 0x4, 1, true, .fn, [⟨2, 0, .rw, 0, 0, 7⟩]⟩,
  ⟨"SCH_BYTES_LO", 0x07003C, 0x4, 1, true, .part, [⟨31, 0, .ro, 0, 0, 4294967295⟩]⟩,
  ⟨"SCH_BYTES_HI", 0x070040, 0x4, 1, true, .part, [⟨31, 0, .ro, 0, 0, 4294967295⟩]⟩,
  ⟨"SCH_MON_OVERRUN", 0x070100, 0x4, 1, false, .dev, [⟨31, 0, .rc, 0, 0, 4294967295⟩]⟩]

/-- Registers of block TXT. -/
def regsTXT : List RegDesc := [
  ⟨"TXT_TOKk_VOCAB", 0x080000, 0x4, 8, true, .part, [⟨18, 0, .sh, 0, 0, 524287⟩]⟩,
  ⟨"TXT_BANK_USED", 0x080020, 0x4, 1, true, .part, [⟨15, 0, .ro, 0, 0, 65535⟩]⟩,
  ⟨"TXT_TRUNC", 0x080024, 0x4, 1, true, .part, [⟨31, 0, .rc, 0, 0, 4294967295⟩]⟩,
  ⟨"TXT_BAD_UTF8", 0x080028, 0x4, 1, true, .part, [⟨31, 0, .rc, 0, 0, 4294967295⟩]⟩,
  ⟨"TXT_STOPPED", 0x08002C, 0x4, 1, true, .part, [⟨31, 0, .rc, 0, 0, 4294967295⟩]⟩,
  ⟨"TXT_GRAMMAR_DEAD", 0x080030, 0x4, 1, true, .part, [⟨31, 0, .rc, 0, 0, 4294967295⟩]⟩,
  ⟨"TXT_GRAMMAR_VIOL", 0x080034, 0x4, 1, true, .part, [⟨31, 0, .rc, 0, 0, 4294967295⟩]⟩,
  ⟨"TXT_NO_TOK", 0x080038, 0x4, 1, true, .part, [⟨31, 0, .rc, 0, 0, 4294967295⟩]⟩,
  ⟨"TXT_BAD_TOKEN", 0x08003C, 0x4, 1, true, .part, [⟨31, 0, .rc, 0, 0, 4294967295⟩]⟩,
  ⟨"TXT_TABLES", 0x080040, 0x4, 1, true, .part, [⟨24, 24, .ro, 0, 0, 1⟩, ⟨23, 0, .ro, 0, 0, 16777215⟩]⟩,
  ⟨"TXT_Pp_BANK", 0x080100, 0x4, 16, false, .dev, [⟨15, 0, .sh, 2048, 0, 65535⟩]⟩,
  ⟨"TXT_BANK_FREE", 0x080200, 0x4, 1, false, .dev, [⟨15, 0, .ro, 32768, 0, 65535⟩]⟩]

/-- Registers of block NET. -/
def regsNET : List RegDesc := [
  ⟨"NET_KEY", 0x090000, 0x4, 1, true, .part, [⟨27, 0, .sh, 0, 0, 268435455⟩]⟩,
  ⟨"NET_QP_USED", 0x090004, 0x4, 1, true, .part, [⟨20, 0, .ro, 0, 0, 2097151⟩]⟩,
  ⟨"NET_EWR_USED", 0x090008, 0x4, 1, true, .part, [⟨20, 0, .ro, 0, 0, 2097151⟩]⟩,
  ⟨"NET_RNR_SENT", 0x09000C, 0x4, 1, true, .part, [⟨31, 0, .rc, 0, 0, 4294967295⟩]⟩,
  ⟨"NET_HELD_DROPS", 0x090010, 0x4, 1, true, .part, [⟨31, 0, .rc, 0, 0, 4294967295⟩]⟩,
  ⟨"NET_WITHDRAWN", 0x090014, 0x4, 1, true, .part, [⟨31, 0, .rc, 0, 0, 4294967295⟩]⟩,
  ⟨"NET_AUTH_FAIL", 0x090018, 0x4, 1, true, .part, [⟨31, 0, .rc, 0, 0, 4294967295⟩]⟩,
  ⟨"NET_ACCESS_ERR", 0x09001C, 0x4, 1, true, .part, [⟨31, 0, .rc, 0, 0, 4294967295⟩]⟩,
  ⟨"NET_MP_BAD", 0x090020, 0x4, 1, true, .part, [⟨31, 0, .rc, 0, 0, 4294967295⟩]⟩,
  ⟨"NET_CC", 0x090024, 0x4, 1, true, .part, [⟨23, 16, .sh, 5, 1, 100⟩, ⟨9, 0, .sh, 10, 1, 800⟩]⟩,
  ⟨"NET_PORTp_CFG", 0x090100, 0x4, 4, false, .dev, [⟨23, 16, .sh, 0, 0, 255⟩, ⟨11, 8, .sh, 1, 0, 15⟩, ⟨1, 0, .sh, 0, 0, 3⟩]⟩,
  ⟨"NET_PORTp_STATUS", 0x090110, 0x4, 4, false, .dev, [⟨3, 0, .ro, 0, 0, 15⟩]⟩,
  ⟨"NET_MP_CFG", 0x090120, 0x4, 1, false, .dev, [⟨20, 16, .sh, 2, 1, 31⟩, ⟨15, 0, .sh, 49791, 0, 65535⟩]⟩,
  ⟨"NET_CTX_ONCHIP", 0x090124, 0x4, 1, false, .dev, [⟨31, 16, .ro, 0, 0, 65535⟩, ⟨15, 0, .ro, 0, 0, 65535⟩]⟩,
  ⟨"NET_REASM_OPEN", 0x090128, 0x4, 1, false, .dev, [⟨31, 16, .ro, 0, 0, 65535⟩, ⟨15, 0, .ro, 0, 0, 65535⟩]⟩,
  ⟨"NET_REASM_FULL", 0x09012C, 0x4, 1, false, .dev, [⟨31, 0, .rc, 0, 0, 4294967295⟩]⟩,
  ⟨"NET_DROP_ADDR", 0x090130, 0x4, 1, false, .dev, [⟨31, 0, .rc, 0, 0, 4294967295⟩]⟩,
  ⟨"NET_Pp_QP_QUOTA", 0x090200, 0x10, 16, false, .dev, [⟨20, 0, .sh, 65534, 0, 2097151⟩]⟩,
  ⟨"NET_Pp_EWR_QUOTA", 0x090204, 0x10, 16, false, .dev, [⟨20, 0, .sh, 65536, 0, 2097151⟩]⟩,
  ⟨"NET_Pp_PIN_QUOTA", 0x090208, 0x10, 16, false, .dev, [⟨20, 0, .sh, 3072, 0, 2097151⟩]⟩]

/-- Registers of block SHP. -/
def regsSHP : List RegDesc := [
  ⟨"SHP_D0_FPk_RATE", 0x0A0000, 0x10, 8, true, .part, [⟨16, 0, .sh, 0, 0, 120000⟩]⟩,
  ⟨"SHP_D1_FPk_RATE", 0x0A0100, 0x10, 8, true, .part, [⟨16, 0, .sh, 0, 0, 120000⟩]⟩,
  ⟨"SHP_D2_FPk_RATE", 0x0A0200, 0x10, 8, true, .part, [⟨16, 0, .sh, 0, 0, 120000⟩]⟩,
  ⟨"SHP_D0_FPk_PEAK", 0x0A0004, 0x10, 8, true, .part, [⟨16, 0, .sh, 0, 0, 120000⟩]⟩,
  ⟨"SHP_D1_FPk_PEAK", 0x0A0104, 0x10, 8, true, .part, [⟨16, 0, .sh, 0, 0, 120000⟩]⟩,
  ⟨"SHP_D2_FPk_PEAK", 0x0A0204, 0x10, 8, true, .part, [⟨16, 0, .sh, 0, 0, 120000⟩]⟩,
  ⟨"SHP_Dd_PART_RATE", 0x0A0300, 0x10, 3, true, .part, [⟨16, 0, .sh, 0, 0, 120000⟩]⟩,
  ⟨"SHP_Dd_PART_PEAK", 0x0A0304, 0x10, 3, true, .part, [⟨16, 0, .sh, 0, 0, 120000⟩]⟩,
  ⟨"SHP_D0_FPk_BURST", 0x0A0008, 0x10, 8, true, .part, [⟨31, 0, .sh, 0, 0, 4294967295⟩]⟩,
  ⟨"SHP_D1_FPk_BURST", 0x0A0108, 0x10, 8, true, .part, [⟨31, 0, .sh, 0, 0, 4294967295⟩]⟩,
  ⟨"SHP_D2_FPk_BURST", 0x0A0208, 0x10, 8, true, .part, [⟨31, 0, .sh, 0, 0, 4294967295⟩]⟩,
  ⟨"SHP_Dd_PART_BURST", 0x0A0308, 0x10, 3, true, .part, [⟨31, 0, .sh, 0, 0, 4294967295⟩]⟩,
  ⟨"SHP_Dd_PART_WEIGHT", 0x0A030C, 0x10, 3, true, .part, [⟨7, 0, .sh, 16, 1, 255⟩]⟩,
  ⟨"SHP_Dd_PART_HELD", 0x0A0340, 0x4, 3, true, .part, [⟨31, 0, .rc, 0, 0, 4294967295⟩]⟩,
  ⟨"SHP_PORTj_RATE", 0x0A1000, 0x10, 19, false, .dev, [⟨16, 0, .sh, 0, 0, 131071⟩]⟩,
  ⟨"SHP_PORTj_PEAK", 0x0A1004, 0x10, 19, false, .dev, [⟨31, 31, .sh, 0, 0, 1⟩, ⟨16, 0, .sh, 0, 0, 131071⟩]⟩,
  ⟨"SHP_PORTj_BURST", 0x0A1008, 0x10, 19, false, .dev, [⟨31, 0, .sh, 0, 0, 4294967295⟩]⟩,
  ⟨"SHP_PORTj_CREDIT", 0x0A100C, 0x10, 19, false, .dev, [⟨31, 0, .ro, 0, 0, 4294967295⟩]⟩,
  ⟨"SHP_MODE", 0x0A1200, 0x4, 1, false, .dev, [⟨31, 16, .sh, 100, 1, 10000⟩, ⟨10, 8, .rw, 0, 0, 7⟩, ⟨6, 4, .rw, 0, 0, 7⟩, ⟨2, 0, .ro, 7, 0, 7⟩]⟩]

/-- Registers of block PAN. -/
def regsPAN : List RegDesc := [
  ⟨"PAN_CFG", 0x0B0000, 0x4, 1, true, .part, [⟨31, 16, .sh, 50, 1, 10000⟩, ⟨3, 0, .sh, 4, 1, 8⟩]⟩,
  ⟨"PAN_ITEMS", 0x0B0004, 0x4, 1, true, .part, [⟨30, 0, .ro, 0, 0, 2147483647⟩]⟩,
  ⟨"PAN_SHORT", 0x0B0008, 0x4, 1, true, .part, [⟨31, 0, .rc, 0, 0, 4294967295⟩]⟩,
  ⟨"PAN_VISITED_FULL", 0x0B000C, 0x4, 1, true, .part, [⟨31, 0, .rc, 0, 0, 4294967295⟩]⟩,
  ⟨"PAN_REFUSED_WRITES", 0x0B0010, 0x4, 1, true, .part, [⟨31, 0, .rc, 0, 0, 4294967295⟩]⟩,
  ⟨"PAN_POISON", 0x0B0014, 0x4, 1, true, .part, [⟨31, 0, .rc, 0, 0, 4294967295⟩]⟩,
  ⟨"PAN_SHARD_MISSED", 0x0B0018, 0x4, 1, true, .part, [⟨31, 0, .rc, 0, 0, 4294967295⟩]⟩,
  ⟨"PAN_Pp_QUOTA", 0x0B0100, 0x4, 16, false, .dev, [⟨30, 0, .sh, 67108864, 0, 1073741824⟩]⟩,
  ⟨"PAN_INFLIGHT", 0x0B0200, 0x4, 1, false, .dev, [⟨24, 16, .ro, 0, 0, 511⟩, ⟨8, 0, .ro, 0, 0, 511⟩]⟩]

/-- Registers of block CKP. -/
def regsCKP : List RegDesc := [
  ⟨"CKP_CFG", 0x0C0000, 0x4, 1, true, .part, [⟨31, 16, .sh, 5000, 100, 60000⟩, ⟨15, 8, .sh, 20, 1, 255⟩, ⟨3, 0, .sh, 4, 1, 8⟩]⟩,
  ⟨"CKP_RUNNING", 0x0C0004, 0x4, 1, true, .part, [⟨7, 4, .ro, 0, 0, 15⟩, ⟨3, 0, .ro, 0, 0, 15⟩]⟩,
  ⟨"CKP_STALLS", 0x0C0008, 0x4, 1, true, .part, [⟨31, 0, .rc, 0, 0, 4294967295⟩]⟩,
  ⟨"CKP_STALL_US", 0x0C000C, 0x4, 1, true, .part, [⟨31, 0, .rc, 0, 0, 4294967295⟩]⟩,
  ⟨"CKP_ABANDONED", 0x0C0010, 0x4, 1, true, .part, [⟨31, 0, .rc, 0, 0, 4294967295⟩]⟩,
  ⟨"CKP_DEDUP_SKIPPED", 0x0C0014, 0x4, 1, true, .part, [⟨31, 0, .rc, 0, 0, 4294967295⟩]⟩,
  ⟨"CKP_NOTICES_JOINED", 0x0C0018, 0x4, 1, true, .part, [⟨31, 0, .rc, 0, 0, 4294967295⟩]⟩,
  ⟨"CKP_BAD_NOTICE", 0x0C001C, 0x4, 1, true, .part, [⟨31, 0, .rc, 0, 0, 4294967295⟩]⟩,
  ⟨"CKP_BUF_USED", 0x0C0100, 0x4, 1, false, .dev, [⟨31, 16, .ro, 0, 0, 65535⟩, ⟨15, 0, .ro, 0, 0, 65535⟩]⟩]

/-- Registers of block SEC. -/
def regsSEC : List RegDesc := [
  ⟨"SEC_STATE", 0x0D0000, 0x4, 1, true, .part, [⟨7, 7, .ro, 0, 0, 1⟩, ⟨4, 4, .ro, 0, 0, 1⟩, ⟨1, 0, .ro, 0, 0, 3⟩]⟩,
  ⟨"SEC_THROTTLE", 0x0D0004, 0x4, 1, true, .part, [⟨3, 0, .ro, 0, 0, 15⟩]⟩,
  ⟨"SEC_SERIAL_LO", 0x0D0008, 0x4, 1, true, .part, [⟨31, 0, .ro, 0, 0, 4294967295⟩]⟩,
  ⟨"SEC_SERIAL_HI", 0x0D000C, 0x4, 1, true, .part, [⟨31, 0, .ro, 0, 0, 4294967295⟩]⟩,
  ⟨"SEC_INTEGRITY_ERR", 0x0D0010, 0x4, 1, true, .part, [⟨31, 0, .rc, 0, 0, 4294967295⟩]⟩,
  ⟨"SEC_SEALED_REFUSED", 0x0D0014, 0x4, 1, true, .part, [⟨31, 0, .rc, 0, 0, 4294967295⟩]⟩,
  ⟨"SEC_PCFG", 0x0D0018, 0x4, 1, true, .part, [⟨1, 1, .sh, 1, 0, 1⟩, ⟨0, 0, .sh, 1, 0, 1⟩]⟩,
  ⟨"SEC_DEVCFG", 0x0D0100, 0x4, 1, false, .dev, [⟨2, 2, .sh, 0, 0, 1⟩, ⟨1, 1, .sh, 1, 0, 1⟩, ⟨0, 0, .sh, 1, 0, 1⟩]⟩,
  ⟨"SEC_SIGN_QUEUE", 0x0D0104, 0x4, 1, false, .dev, [⟨6, 0, .ro, 0, 0, 127⟩]⟩,
  ⟨"SEC_KEYS", 0x0D0108, 0x4, 1, false, .dev, [⟨21, 16, .ro, 0, 0, 63⟩, ⟨14, 0, .ro, 0, 0, 32767⟩]⟩]

/-- Registers of block MTR. -/
def regsMTR : List RegDesc := [
  ⟨"MTR_STATUS", 0x0E0000, 0x4, 1, true, .dev, [⟨31, 28, .ro, 0, 0, 15⟩, ⟨27, 24, .ro, 0, 0, 15⟩, ⟨23, 16, .ro, 0, 0, 255⟩, ⟨1, 1, .ro, 0, 0, 1⟩, ⟨0, 0, .ro, 0, 0, 1⟩]⟩,
  ⟨"MTR_SW_ID", 0x0E0004, 0x4, 1, true, .dev, [⟨31, 0, .ro, 0, 0, 4294967295⟩]⟩,
  ⟨"MTR_START", 0x0E000C, 0x4, 1, true, .dev, [⟨31, 0, .ro, 0, 0, 4294967295⟩]⟩,
  ⟨"MTR_COEFF_ID", 0x0E0018, 0x4, 1, true, .dev, [⟨31, 0, .ro, 0, 0, 4294967295⟩]⟩,
  ⟨"MTR_SEAL", 0x0E0008, 0x4, 1, true, .dev, [⟨10, 0, .ro, 0, 0, 2047⟩]⟩,
  ⟨"MTR_SEQ_LO", 0x0E0010, 0x4, 1, true, .dev, [⟨31, 0, .ro, 0, 0, 4294967295⟩]⟩,
  ⟨"MTR_SEQ_HI", 0x0E0014, 0x4, 1, true, .dev, [⟨31, 0, .ro, 0, 0, 4294967295⟩]⟩,
  ⟨"MTR_POWER", 0x0E0100, 0x4, 1, false, .dev, [⟨31, 0, .ro, 0, 0, 4294967295⟩]⟩,
  ⟨"MTR_VOLTAGE", 0x0E0104, 0x4, 1, false, .dev, [⟨31, 0, .ro, 0, 0, 4294967295⟩]⟩]

/-- Registers of block FLT. -/
def regsFLT : List RegDesc := [
  ⟨"FLT_EQ_BASE_LO", 0x0F0000, 0x4, 1, true, .fn, [⟨31, 0, .rw, 0, 0, 4294967295⟩]⟩,
  ⟨"FLT_EQ_BASE_HI", 0x0F0004, 0x4, 1, true, .fn, [⟨31, 0, .rw, 0, 0, 4294967295⟩]⟩,
  ⟨"FLT_EQ_CFG", 0x0F0008, 0x4, 1, true, .fn, [⟨31, 31, .rw, 0, 0, 1⟩, ⟨3, 0, .rw, 0, 0, 15⟩]⟩,
  ⟨"FLT_EQ_HEAD", 0x0F000C, 0x4, 1, true, .fn, [⟨13, 0, .rw, 0, 0, 16383⟩]⟩,
  ⟨"FLT_EQ_TAIL", 0x0F0010, 0x4, 1, true, .fn, [⟨31, 31, .ro, 1, 0, 1⟩, ⟨13, 0, .ro, 0, 0, 16383⟩]⟩,
  ⟨"FLT_EQ_COAL", 0x0F0014, 0x4, 1, true, .fn, [⟨31, 16, .rw, 0, 0, 65535⟩, ⟨8, 0, .rw, 1, 0, 511⟩]⟩,
  ⟨"FLT_TRACE_EN", 0x0F0018, 0x4, 1, true, .fn, [⟨4, 0, .rw, 0, 0, 31⟩]⟩,
  ⟨"FLT_DROP_TRACE", 0x0F001C, 0x4, 1, true, .fn, [⟨31, 0, .rc, 0, 0, 4294967295⟩]⟩,
  ⟨"FLT_DROP_LOG", 0x0F0020, 0x4, 1, true, .fn, [⟨31, 0, .rc, 0, 0, 4294967295⟩]⟩,
  ⟨"FLT_DROP_FAULT", 0x0F0024, 0x4, 1, true, .fn, [⟨31, 0, .rc, 0, 0, 4294967295⟩]⟩,
  ⟨"FLT_STAGED", 0x0F0028, 0x4, 1, true, .fn, [⟨26, 16, .ro, 0, 0, 2047⟩, ⟨12, 0, .ro, 0, 0, 8191⟩]⟩,
  ⟨"FLT_STATUS", 0x0F0100, 0x4, 1, false, .dev, [⟨31, 31, .ro, 0, 0, 1⟩, ⟨15, 0, .ro, 0, 0, 65535⟩]⟩,
  ⟨"FLT_SCRUB", 0x0F0104, 0x4, 1, false, .dev, [⟨31, 24, .sh, 30, 7, 90⟩, ⟨23, 14, .sh, 10, 1, 600⟩, ⟨4, 0, .sh, 4, 1, 24⟩]⟩,
  ⟨"FLT_CE_THRESH", 0x0F0108, 0x4, 1, false, .dev, [⟨15, 0, .sh, 1000, 1, 65535⟩]⟩,
  ⟨"FLT_HBM_CE", 0x0F010C, 0x4, 1, false, .dev, [⟨31, 0, .rc, 0, 0, 4294967295⟩]⟩,
  ⟨"FLT_HBM_UE", 0x0F0110, 0x4, 1, false, .dev, [⟨31, 0, .rc, 0, 0, 4294967295⟩]⟩,
  ⟨"FLT_SRAM_CE", 0x0F0114, 0x4, 1, false, .dev, [⟨31, 0, .rc, 0, 0, 4294967295⟩]⟩,
  ⟨"FLT_SRAM_UE", 0x0F0118, 0x4, 1, false, .dev, [⟨31, 0, .rc, 0, 0, 4294967295⟩]⟩,
  ⟨"FLT_OFFLINE", 0x0F011C, 0x4, 1, false, .dev, [⟨31, 28, .ro, 0, 0, 15⟩, ⟨27, 24, .ro, 0, 0, 15⟩, ⟨23, 19, .ro, 0, 0, 31⟩, ⟨18, 9, .ro, 0, 0, 1023⟩, ⟨8, 0, .ro, 0, 0, 511⟩]⟩]

/-- Registers of block DEV. -/
def regsDEV : List RegDesc := [
  ⟨"DEV_ID", 0x000000, 0x4, 1, true, .dev, [⟨31, 16, .ro, 5650, 0, 65535⟩, ⟨7, 0, .ro, 0, 0, 255⟩]⟩,
  ⟨"DEV_STATE", 0x000004, 0x4, 1, true, .dev, [⟨23, 16, .ro, 0, 0, 255⟩, ⟨3, 0, .ro, 0, 0, 15⟩]⟩,
  ⟨"DEV_FW_VERSION", 0x000008, 0x4, 1, true, .dev, [⟨31, 0, .ro, 0, 0, 4294967295⟩]⟩,
  ⟨"DEV_RESET_CAUSE", 0x00000C, 0x4, 1, false, .dev, [⟨7, 4, .ro, 0, 0, 15⟩, ⟨3, 0, .ro, 0, 0, 15⟩]⟩,
  ⟨"DEV_BOOT", 0x000010, 0x4, 1, false, .dev, [⟨31, 16, .ro, 0, 0, 65535⟩, ⟨5, 4, .ro, 0, 0, 3⟩, ⟨1, 1, .ro, 0, 0, 1⟩, ⟨0, 0, .ro, 0, 0, 1⟩]⟩,
  ⟨"DEV_SVN_FLOOR", 0x000014, 0x4, 1, false, .dev, [⟨31, 24, .ro, 0, 0, 255⟩, ⟨23, 16, .ro, 0, 0, 255⟩, ⟨15, 8, .ro, 0, 0, 255⟩, ⟨7, 0, .ro, 0, 0, 255⟩]⟩,
  ⟨"DEV_RESET_CTRL", 0x000018, 0x4, 1, false, .dev, [⟨31, 24, .wo, 0, 0, 255⟩, ⟨2, 0, .wo, 0, 0, 7⟩]⟩,
  ⟨"DEV_PWR_CAP", 0x000100, 0x4, 1, false, .dev, [⟨10, 0, .rw, 1650, 0, 2047⟩]⟩,
  ⟨"DEV_PWR_STATUS", 0x000104, 0x4, 1, false, .dev, [⟨31, 30, .ro, 0, 0, 3⟩, ⟨29, 24, .ro, 0, 0, 63⟩, ⟨23, 12, .ro, 1650, 0, 4095⟩, ⟨11, 0, .ro, 0, 0, 4095⟩]⟩,
  ⟨"DEV_INPUT", 0x000108, 0x4, 1, false, .dev, [⟨31, 16, .ro, 0, 0, 65535⟩, ⟨15, 0, .ro, 0, 0, 65535⟩]⟩,
  ⟨"DEV_TEMP", 0x00010C, 0x4, 1, false, .dev, [⟨31, 24, .ro, 0, 0, 255⟩, ⟨23, 16, .ro, 0, 0, 255⟩, ⟨15, 8, .ro, 0, 0, 255⟩, ⟨7, 0, .ro, 0, 0, 255⟩]⟩,
  ⟨"DEV_COOLANT", 0x000110, 0x4, 1, false, .dev, [⟨31, 24, .ro, 0, 0, 255⟩, ⟨23, 16, .ro, 0, 0, 255⟩, ⟨15, 0, .ro, 0, 0, 65535⟩]⟩,
  ⟨"DEV_EMERG", 0x000114, 0x4, 1, false, .dev, [⟨31, 16, .rc, 0, 0, 65535⟩, ⟨6, 0, .ro, 0, 0, 127⟩]⟩]

/-- Registers of block CRC. -/
def regsCRC : List RegDesc := [
  ⟨"CRC_CTRL", 0x100000, 0x4, 1, false, .dev, [⟨31, 29, .ro, 0, 0, 7⟩, ⟨2, 2, .wo, 0, 0, 1⟩, ⟨1, 1, .wo, 0, 0, 1⟩, ⟨0, 0, .wo, 0, 0, 1⟩]⟩,
  ⟨"CRC_IN8", 0x100004, 0x4, 1, false, .dev, [⟨31, 0, .wo, 0, 0, 4294967295⟩]⟩,
  ⟨"CRC_IN16", 0x100008, 0x4, 1, false, .dev, [⟨31, 0, .wo, 0, 0, 4294967295⟩]⟩,
  ⟨"CRC_IN32", 0x10000C, 0x4, 1, false, .dev, [⟨31, 0, .wo, 0, 0, 4294967295⟩]⟩,
  ⟨"CRC_RESULT", 0x100010, 0x4, 1, false, .dev, [⟨31, 0, .ro, 0, 0, 4294967295⟩]⟩,
  ⟨"CRC_EPOCH", 0x100014, 0x4, 1, false, .dev, [⟨15, 0, .ro, 0, 0, 65535⟩]⟩,
  ⟨"CRC_REFUSED", 0x100018, 0x4, 1, false, .dev, [⟨31, 0, .rc, 0, 0, 4294967295⟩]⟩]

/-- The registers of a block by its BAR0 block number (R43). -/
def regsOfBlock : Nat → List RegDesc
  | 0 => regsDEV
  | 1 => regsCMD
  | 2 => regsCFG
  | 3 => regsSES
  | 4 => regsMEM
  | 5 => regsGLM
  | 6 => regsGRID
  | 7 => regsSCH
  | 8 => regsTXT
  | 9 => regsNET
  | 10 => regsSHP
  | 11 => regsPAN
  | 12 => regsCKP
  | 13 => regsSEC
  | 14 => regsMTR
  | 15 => regsFLT
  | 16 => regsCRC
  | 17 => regsTIME
  | _ => []

/-- The descriptor of the register at a BAR0 offset and the register's index in its array. -/
def regAt (off : Nat) : Option (RegDesc × Nat) :=
  (regsOfBlock (off / 0x10000)).findSome? fun r =>
    if r.off ≤ off && (off - r.off) % r.stride == 0 && (off - r.off) / r.stride < r.count then
      some (r, (off - r.off) / r.stride) else none

/-- The bits of a register whose fields have access `a`. -/
def RegDesc.mask (r : RegDesc) (a : Acc) : Nat :=
  nsum (r.fields.map fun f => if f.acc == a then (2 ^ (f.hi + 1 - f.lo) - 1) * 2 ^ f.lo else 0)

/-- The reset value that the fields give. -/
def RegDesc.fieldReset (r : RegDesc) : Nat := nsum (r.fields.map fun f => f.reset * 2 ^ f.lo)

/-- Reset values of the shaper registers by traffic domain (R326's domains: 0 ETH, 1 NAND, 2 PCIE). -/
def shpReset (rel : Nat) : Option Nat :=
  let eth := 100000; let pcie := 112000
  if rel < 0x300 then
    let d := rel / 0x100
    let k := rel % 0x100 / 0x10
    if k < 8 then
      match rel % 0x10 with
      | 0 => some (if d = 0 then eth else if d = 1 then 2000 else pcie)
      | 4 => some (if d = 0 then eth else if d = 1 then 40000 else pcie)
      | 8 => some (if d = 0 then 64 else if d = 1 then 4096 else 256)
      | _ => none
    else none
  else if rel < 0x330 then
    let d := (rel - 0x300) / 0x10
    match rel % 0x10 with
    | 0 => some (if d = 0 then eth else if d = 1 then 125 else pcie)
    | 4 => some (if d = 0 then eth else if d = 1 then 40000 else pcie)
    | 8 => some (if d = 0 then 4096 else if d = 1 then 976562 else 4096)
    | _ => some 16
  else if 0x1000 ≤ rel ∧ rel < 0x1000 + 19 * 0x10 then
    let j := (rel - 0x1000) / 0x10
    let d := if j < 16 then 0 else if j = 16 then 1 else 2
    match rel % 0x10 with
    | 0 => some (if d = 0 then eth else if d = 1 then 2000 else pcie)
    | 4 => some (if d = 0 then eth + 2 ^ 31 else if d = 1 then 40000 else pcie + 2 ^ 31)
    | 8 => some (if d = 0 then 1024 else if d = 1 then 15625000 else 4096)
    | _ => none
  else none

/-- Whether field j of the i-th GLM_Ss_OWNERk is that of a region in the device reserve, regions 40-47 of stacks 0 and 8: it reads RESERVED,
and writes to it have no effect (R139). -/
def inReserve (i j : Nat) : Bool := (i / 8 == 0 || i / 8 == 8) && decide (40 ≤ i % 8 * 6 + j)

/-- The bits of a register that a write to the shadow set reaches. -/
def RegDesc.shBits (r : RegDesc) (off : Nat) : Nat :=
  let i := (off - r.off) / 4
  nsum (r.fields.map fun f =>
    if f.acc == .sh && !(r.off == 0x050100 && inReserve i (f.lo / 5)) then (2 ^ (f.hi + 1 - f.lo) - 1) * 2 ^ f.lo else 0)

/-- The reset value of the register at a BAR0 offset: the fields' values, with the values that depend on the index
(SES_Pp_BASE is p × 2,097,152; region owners in the device reserve; the shaper registers by domain). -/
def resetOf (off : Nat) : Nat :=
  match regAt off with
  | none => 0
  | some (r, i) =>
    if r.off = 0x030100 then i * 2097152
    else if r.off = 0x050100 then nsum ((List.range 6).map fun j => (if inReserve i j then 30 else 31) * 32 ^ j)
    else if off / 0x10000 = 10 then (shpReset (off % 0x10000)).getD r.fieldReset
    else r.fieldReset

end Sys2Proof.Machine
end

