-- ==== Sys2Proof/Machine/HostState.lean ====
section
/-! DEFINITION. State of the host interface: status codes, rings, commands in progress, ports and bindings, commits,
timers, events, start-up, power and the check-value unit (chapters 2, 3, 18, 19 and 20 of the spec). -/

namespace Sys2Proof.Machine

/-- The status codes of R62. -/
inductive Status where
  | ok | accepted | badOpcode | badParam | notPermitted | noResource | doesNotFit
  | sessionState | staleHandle | regionBusy | deadlineLate | fallbackUsed | grammarDead
  | stopped | truncated | shortResult | checkpointIncomplete | integrity | keyRetired
  | deviceFault | aborted
deriving DecidableEq, Repr

/-- The code of a status (R62). -/
def Status.code : Status → Nat
  | .ok => 0x0000 | .accepted => 0x0001 | .badOpcode => 0x0010 | .badParam => 0x0011
  | .notPermitted => 0x0012 | .noResource => 0x0013 | .doesNotFit => 0x0014
  | .sessionState => 0x0020 | .staleHandle => 0x0021 | .regionBusy => 0x0030
  | .deadlineLate => 0x0040 | .fallbackUsed => 0x0041 | .grammarDead => 0x0050
  | .stopped => 0x0051 | .truncated => 0x0052 | .shortResult => 0x0060
  | .checkpointIncomplete => 0x0070 | .integrity => 0x0080 | .keyRetired => 0x0081
  | .deviceFault => 0x00F0 | .aborted => 0x00FF

/-- A reply entry (R51); PHASE is set when the entry is written. `owner` is the partition of the command, 16 for a
device-level one: it says which orphan store the reply belongs to (R68). `ord` numbers replies in the order in which they
became final. -/
structure Reply where
  status : Status
  tag : Nat
  adopted : Bool
  sq : Nat
  slot : Nat
  time : Nat
  res : List Word
  irqNow : Bool
  owner : Nat
  ord : Nat
deriving DecidableEq, Repr

/-- Classes of event records (R430). -/
inductive RecClass where
  | alarm | fault | trace | log
deriving DecidableEq, Repr

/-- An event record (R430): SOURCE is block × 1,024 + unit (R431). -/
structure Rec where
  cls : RecClass
  code : Nat
  source : Nat
  anon : Bool
  rep : Nat
  time : Nat
  a0 : Word
  a1 : Word
  a2 : Word
  device : Bool
  part : Nat
  raised : Nat × Nat
deriving DecidableEq, Repr

/-- A submission ring of a function (R45-R48 and CMD_SQn registers); `last` is the sequence number of the command
fetched last. -/
structure Sq where
  base : Nat
  en : Bool
  rq : Nat
  size : Nat
  tail : Nat
  head : Nat
  state : Nat
  cause : Nat
  last : Nat
deriving DecidableEq, Repr

/-- A ring right after reset. -/
def Sq.reset : Sq := ⟨0, false, 0, 0, 0, 0, 0, 0, 0⟩

/-- A reply ring of a function (R45, R46, R52, R53 and CMD_RQn registers): `held` holds the replies kept because the
ring is full, `unsig` counts entries not yet signalled and `firstUnsig` is the tick of the first of them. -/
structure Rq where
  base : Nat
  en : Bool
  vector : Nat
  size : Nat
  head : Nat
  tail : Nat
  phase : Bool
  state : Nat
  cause : Nat
  held : List Reply
  coalTime : Nat
  coalCount : Nat
  unsig : Nat
  firstUnsig : Option Nat
deriving DecidableEq, Repr

/-- A reply ring right after reset. -/
def Rq.reset : Rq := ⟨0, false, 0, 0, 0, 0, true, 0, 0, [], 0, 1, 0, none⟩

/-- The fetch arbiter (R58): the ring whose turn it is, as function × 16 + number, and each ring's deficit in 1/65,536 slot. -/
structure Arb where
  turn : Nat
  deficit : Tbl Nat
deriving DecidableEq, Repr

/-- How far a fetched command has come: held by FENCE or SERIAL or behind a held command, started, or accepted. -/
inductive CmdPhase where
  | held | started | accepted
deriving DecidableEq, Repr

/-- Where the replies of a command go: to its ring, to an orphan store (R68, R71), or nowhere (R72). -/
inductive Fate where
  | live | orphan | dropped
deriving DecidableEq, Repr

/-- A fetched command that is outstanding (R57). `part` is none for a device-level command; `prev` is the sequence
number of the command fetched before it from its ring. -/
structure CmdRec where
  seq : Nat
  cmd : Cmd
  fn : Fn
  sq : Nat
  slot : Nat
  rq : Nat
  op : Nat
  tag : Nat
  part : Option Nat
  phase : CmdPhase
  fence : Bool
  serial : Bool
  irqNow : Bool
  fate : Fate
  arrival : Nat
  prev : Nat
deriving DecidableEq, Repr

/-- Who hosts a partition (R65, R68, R71); the number is the (last) port. -/
inductive PartHost where
  | unbound | bound (port : Nat) | orphaned (port : Nat) | released (port : Nat)
deriving DecidableEq, Repr

/-- Delivery of replies after an adoption (R70): the ring chosen, the first sequence number of the new host, and the
new host's replies that wait. -/
structure Adopt where
  ring : Option (Nat × Nat)
  since : Nat
  waiting : List (Nat × Nat × Reply)
deriving DecidableEq, Repr

/-- A PCI Express port (R39, R67-R71, R448). -/
structure PciePort where
  training : Bool
  linkUp : Bool
  lost : Bool
  downSince : Option Nat
  hbPeriod : Nat
  hbLast : Option Nat
  hbSinceLoss : Bool
  vfEnable : Bool
  numVfs : Nat
  ari : Bool
deriving DecidableEq, Repr

/-- A port right after reset. -/
def PciePort.reset : PciePort := ⟨false, false, false, none, 0, none, false, false, 0, false⟩

/-- A commit that has been accepted and not yet swapped or cancelled (R32-R34); `scope` is 16 for the device slice
and p for the slice of partition p. -/
structure Commit where
  id : Nat
  fn : Fn
  scope : Nat
  mask : Nat
  tick : Nat
deriving DecidableEq, Repr

/-- A slice that drains after a swap: the operations that still run under the former set (R35). -/
structure Drain where
  scope : Nat
  block : Nat
  ops : List Nat
deriving DecidableEq, Repr

/-- The CFG registers of one function, and the history its cancels need (R36, R37). -/
structure CfgFn where
  tickLo : Word
  tickHi : Word
  mask : Nat
  device : Bool
  part : Nat
  status : Nat
  state : Nat
  id : Nat
  swapTick : Nat
  errBlock : Nat
  errTable : Bool
  errOff : Nat
  locked : Nat
  view : Nat
  issued : List Nat
  concerns : Nat
deriving DecidableEq, Repr

/-- A function's CFG registers right after reset. -/
def CfgFn.reset : CfgFn := ⟨0, 0, 0, false, 0, 0, 0, 0, 0, 0, false, 0, 0, 0, [], 0⟩

/-- One PF timer (R38); `last` is the tick in which it fired last. -/
structure Timer where
  cmp : Nat
  period : Nat
  fired : Bool
  en : Bool
  last : Option Nat
deriving DecidableEq, Repr

/-- An event ring of a function (R434 and FLT_EQ registers). -/
structure Eq where
  base : Nat
  en : Bool
  size : Nat
  head : Nat
  tail : Nat
  phase : Bool
  coalTime : Nat
  coalCount : Nat
  unsig : Nat
  firstUnsig : Option Nat
  traceEn : Nat
deriving DecidableEq, Repr

/-- An event ring right after reset. -/
def Eq.reset : Eq := ⟨0, false, 0, 0, 0, true, 0, 1, 0, none, 0⟩

/-- One of the 19 record paths (R433): the staged records in delivery order, the cumulative drop counters and the
counts since the last DROP record (R436-R438). -/
structure Path where
  staged : List Rec
  dropT : Nat
  dropL : Nat
  dropF : Nat
  sinceT : Nat
  sinceL : Nat
  sinceF : Nat
deriving DecidableEq, Repr

/-- A path right after reset. -/
def Path.reset : Path := ⟨[], 0, 0, 0, 0, 0, 0⟩

/-- Power and thermal control (R458-R470): the inputs last measured and the controller's own state. -/
structure Power where
  pwrEn : Bool
  pathOpen : Bool
  latched : Bool
  enLowSince : Option Nat
  d : Nat
  emergency : Bool
  active : Nat
  emergCount : Nat
  emergSince : Option Nat
  watts : Nat
  volts : Nat
  amps : Nat
  inlet : Nat
  outlet : Nat
  flow : Nat
  nandT : Nat
  coolLimit : Nat
  capWatts : Nat
  capEff : Nat
  tjA : Nat
  tjB : Nat
  sensors : Tbl Nat
deriving DecidableEq, Repr

/-- A write to the CRC block by a PF: CRC_CTRL with its three action bits, or data of 1, 2 or 4 bytes. -/
inductive CrcWrite where
  | ctrl (release claim init : Bool)
  | data (bytes : Nat) (w : Word)
deriving DecidableEq, Repr

/-- The check-value unit (R454-R456); owner: 0 free, 1 firmware, 2 PF of port 0, 3 PF of port 1. `meter` is set while
the meter holds the unit; writes that wait for it to end stand in `waiting`, in arrival order, with their port. -/
structure CrcUnit where
  value : Word
  owner : Nat
  meter : Bool
  epoch : Nat
  refused : Nat
  waiting : List (Nat × CrcWrite)
deriving DecidableEq, Repr

/-- A running image (R444): KIND, ROOT, REVOKE, VERSION, SVN and BODY_HASH. -/
structure RunImage where
  kind : Nat
  root : Nat
  revoke : Nat
  version : Nat
  svn : Nat
  hash : BitVec 512
deriving DecidableEq, Repr

/-- Start-up and reset state (R439-R450 and DEV registers). `stage` is the running stage, 8 when start-up has ended; `resets`
are the resets accepted, as scope and reset tick; `erased` says that the commit record of the inactive bank is erased since its last
activation (R451). -/
structure Boot where
  state : Nat
  detail : Nat
  stage : Nat
  started : Nat
  scope : Nat
  source : Nat
  ms : Nat
  cfg : Nat
  fallback : Bool
  bank : Nat
  fwVersion : Word
  images : List RunImage
  resets : List (Nat × Nat)
  erased : Bool
deriving DecidableEq, Repr

/-- Register values: the RW fields kept as written, the active and the shadow set, and the counters that a read
clears. Keys are made by `devKey`, `partKey`, `fnKey` and `portKey`. -/
structure Regs where
  rw : Tbl Nat
  act : Tbl Nat
  shd : Tbl Nat
  cnt : Tbl Nat
deriving DecidableEq, Repr

end Sys2Proof.Machine
end

