-- ==== Sys2Proof/Machine/MemState.lean ====
section
/-! DEFINITION. State of the memory tiers (chapter 5), the page tables (chapter 9) and the session directory
(chapter 4). -/

namespace Sys2Proof.Machine

/-- The home of a granule (R112): a device address in HBM, or an FTL logical unit. -/
inductive Home where
  | hbm (addr : Nat)
  | nand (unit : Nat)
deriving DecidableEq, Repr

/-- What a granule outside any extent is held for (R216, R273). -/
inductive GranUse where
  | kv | xchg | blocks (used : Nat) | pending | pfx (share : Nat) | work
deriving DecidableEq, Repr

/-- A granule allocated on its own: its partition and its use. -/
structure Gran where
  part : Nat
  use : GranUse
deriving DecidableEq, Repr

/-- An entry of a partition's buffer table (R111): the extent's HBM base, the granules a running move has switched, and the frozen
object it belongs to (0: none), of which it is extent number `six`; `gone` are the granules it does not hold, because a MEM_LOAD has
not brought them yet or a MEM_STORE took them away (R137). -/
structure Extent where
  base : Nat
  moved : Tbl Home
  frozen : Bool
  share : Nat
  six : Nat
  gone : List Nat
deriving DecidableEq, Repr

/-- A frozen object (R119): its partition, the homes of its granules, its size in bytes, whether the partition
still holds its own reference, and the references of bindings. `pfx` marks a prefix with its number of positions; `blks` are the
1 KiB blocks of its page table, the root's first (R216, R217). -/
structure Share where
  part : Nat
  homes : List Home
  bytes : Nat
  own : Bool
  refs : Nat
  pfx : Bool
  model : Nat
  adapter : Nat
  positions : Nat
  t : Nat
  fmt : Nat
  layers : Nat
  pages : Nat
  set : List (Nat × Nat)
  fills : List (List Nat)
  sealed : Bool
  blks : List Nat
deriving DecidableEq, Repr

/-- A write that stalls behind a granule's copy, or behind a checkpoint's copy region (R115, R359). -/
structure Stalled where
  addr : Nat
  bytes : List Byte
  since : Nat
  bad : Bool
deriving DecidableEq, Repr

/-- A logical unit of the FTL map (R123). State 1 is mapped, 2 unreadable. -/
structure NUnit where
  part : Nat
  key : Nat
  state : Nat
  region : Nat
  die : Nat
  block : Nat
  stripe : Nat
  data : List Byte
deriving DecidableEq, Repr

/-- A NAND block that has been written: its region (2: erased, in the pool), reads since its erase, its wear in
hundredths of a TLC cycle, whether a read used more than 60 % of its correction (R129, R130), and the operations whose reads from it
were in flight when its units were relocated (R128). -/
structure NBlock where
  region : Nat
  reads : Nat
  wear : Nat
  tired : Bool
  readers : List Nat
deriving DecidableEq, Repr

/-- What a location token or park location names. -/
inductive NandKind where
  | park | store | shard | manifest | commit
deriving DecidableEq, Repr

/-- A NAND object: its partition, kind, units in order and length in bytes; `sealed` follows its contents (R384). -/
structure NandObj where
  part : Nat
  kind : NandKind
  units : List Nat
  len : Nat
  sealed : Bool
deriving DecidableEq, Repr

/-- The parking tier. `stripeP` and `stripeB` are the next place of each region, as stripe × 16 + data unit of the stripe (R125).
`open_` is the block that a region writes on a die, by region × 128 + die, with the units programmed in it; `fresh` is the next block
of a die never used (R124). `readDone` are the units whose read has completed and whose data has not been taken yet (R129). `live` and
`current` of `keys` are the key versions of a partition (R133). -/
structure NandState where
  units : Tbl NUnit
  nextUnit : Nat
  objs : Tbl NandObj
  nextObj : Nat
  blocks : Tbl NBlock
  stripeP : Nat
  stripeB : Nat
  failed : List Nat
  failPos : Tbl (Nat × Nat)
  rebuilding : List Nat
  retired : List Nat
  keys : Tbl (List Nat × Nat)
  open_ : Tbl (Nat × Nat)
  fresh : Tbl Nat
  readDone : List Nat
deriving DecidableEq, Repr

/-- HBM, its allocation, the buffer tables, frozen objects, pins, copies and Culm (chapter 5); `unreached` names the buffer-table entries
that a running checkpoint has not copied yet (R358). `pinWait` counts the pins that wait for a granule's copy to end (R115). -/
structure MemState where
  cells : List Host.Cell
  poison : List Nat
  sealed : List Nat
  exts : Tbl Nat
  gran : Tbl Gran
  bufs : Tbl Extent
  shares : Tbl Share
  lastShare : Nat
  pins : Tbl Nat
  copying : Tbl Nat
  stalled : List Stalled
  unreached : List Nat
  culm : Tbl Nat
  culmWait : List Nat
  stu : Tbl Nat
  kvShortAt : Tbl Nat
  spilling : List Nat
  pinWait : Tbl Nat
deriving DecidableEq, Repr

/-- A page entry of a page table (R218). -/
structure KPage where
  valid : Bool
  spilled : Bool
  fill : Nat
  home : Home
deriving DecidableEq, Repr

/-- A session's page table (R217, R218): own pages by layer, the channel set, the exchange pages (0: missing), and
the 1 KiB blocks it is written in, each named by its 32 KiB page. -/
structure Kv where
  root : Nat
  t : Nat
  fmt : Nat
  layers : Nat
  heads : Nat
  dim : Nat
  pfxPages : Nat
  pfx : Nat
  set : List (Nat × Nat)
  xchg : List Nat
  pages : List (List KPage)
  blks : List Nat
deriving DecidableEq, Repr

/-- The eight session states of R11. -/
inductive SesStateName where
  | free | opened | running | waiting | warm | parked | moving | closing
deriving DecidableEq, Repr

/-- STATE codes of R77. -/
def SesStateName.code : SesStateName → Nat
  | .free => 0 | .opened => 1 | .running => 2 | .waiting => 3
  | .warm => 4 | .parked => 5 | .moving => 6 | .closing => 7

/-- An awaited-event slot (R84); kind 0 none, 1 NET, 2 TIMER, 3 HOST. `due` says that its event has completed, with a
message of `len` bytes whose tokens, if any, are in pending input; `plain` that no token came of it; `at_` is the tick of the
message's last byte (R90). -/
structure Slot where
  kind : Nat
  tokenize : Bool
  prepared : Bool
  armed : Bool
  fired : Bool
  cmp : Nat
  textOff : Nat
  textLen : Nat
  due : Bool
  len : Nat
  plain : Bool
  at_ : Option Nat
deriving DecidableEq, Repr

/-- An empty slot. -/
def Slot.empty : Slot := ⟨0, false, false, false, false, 0, 0, 0, false, 0, false, none⟩

/-- A movement in progress (R95, R98, R102-R105): kind 1 park, 2 revive, 3 move out, 4 move in. `op` is the sequence
number of the operation it answers; `fromWarm` is the state to return to; `runLeft` is what a compressor run has still to
take; `img` is the record that a move out sends when its image is written (R103); `sends` are the work requests that carry a move's
image, and `recOp` the one that carries its record or confirmation; `ratio` is the compressor ratio of a park, as it was at its
acceptance (R35); `placed` counts the bytes that a target has received into its move buffer (R107). -/
structure Movement where
  kind : Nat
  op : Nat
  fromWarm : Bool
  img : List Byte
  obj : Nat
  bulk : Bool
  compress : Bool
  compressing : Bool
  written : Bool
  restoreOnly : Bool
  byWake : Bool
  readStarted : Bool
  qpn : Nat
  ident : Nat
  target : Nat
  key : Nat
  targetWarm : Bool
  sent : Option Nat
  recordIn : Bool
  deadline : Nat
  firstExt : Nat
  extCount : Nat
  window : Nat
  digest : BitVec 512
  runLeft : Nat
  sends : List Nat
  recOp : Nat
  ratio : Nat
  placed : Nat
deriving DecidableEq, Repr

/-- A session descriptor (R77), its slots, page table, pending input and movement; `trunc` says that an intake was truncated
before the request it belongs to has started (R276). -/
structure Ses where
  gen : Nat
  die : Nat
  state : SesStateName
  evLatched : Bool
  closePending : Bool
  closeOp : Nat
  waitExpired : Bool
  compressed : Bool
  waitReason : Nat
  adapter : Nat
  model : Nat
  pfx : Nat
  compressor : Nat
  window : Nat
  kv : Option Kv
  ctx : Nat
  nextPos : Nat
  pend : List Nat
  pendPages : List Nat
  parkLoc : Nat
  parkBytes : Nat
  slots : List Slot
  wakeAll : Bool
  waitTicks : Nat
  waitDeadline : Nat
  lastRun : Nat
  since : Nat
  engineNs : Nat
  bytes : List Nat
  energy : Nat
  acct : Nat
  request : Nat
  move : Option Movement
  trunc : Bool
deriving DecidableEq, Repr

/-- The session directory: sessions by partition × 2^24 + index; for each partition the indices freed since reset, oldest first, and
an index below which every index has been used. -/
structure SesDir where
  tbl : Tbl Ses
  freed : Tbl (List Nat)
  fresh : Tbl Nat
deriving DecidableEq, Repr

end Sys2Proof.Machine
end

