-- ==== Sys2Proof/Machine/GridState.lean ====
section
/-! DEFINITION. State of the near-bank units (chapter 6) and of the core grid (chapters 7 and 8). -/

namespace Sys2Proof.Machine

/-- A program bank (R154): whether its last load was accepted, its entries (first instruction, length, partition mask, SESSION
permitted), and its bytes. A bank marked invalid by a refused load (R29) keeps the refused bytes behind a zero byte; one that was never
loaded has none. -/
structure ProgBank where
  valid : Bool
  progs : List (Nat × Nat × Nat × Bool)
  raw : List Byte
deriving DecidableEq, Repr

/-- The refresh and throttle curves (R158, R159): rows (T_LOW, multiplier, threshold), boundaries and limits. -/
structure Curves where
  refreshValid : Bool
  refresh : List (Int × Nat × Nat)
  throttleValid : Bool
  temps : List Nat
  acts : List Nat
  limits : List Nat
deriving DecidableEq, Repr

/-- The default curves of R158 and R159. -/
def Curves.reset : Curves :=
  ⟨true, [(-40, 1, 16384), (85, 2, 8192), (95, 4, 4096), (127, 4, 4096), (127, 4, 4096), (127, 4, 4096), (127, 4, 4096),
      (127, 4, 4096)], true, [75, 85, 95], [100, 200, 300],
    [320, 320, 256, 192, 320, 256, 192, 128, 256, 192, 128, 64, 128, 96, 64, 32]⟩

/-- A command slot of a Glume unit (R149, R150). `part` is the starter, 16 for the control host and the control cores; `device` says
that the run works on a DEVICE region; `first` is the program's first instruction under the bank of the START. -/
structure GSlot where
  st : Nat
  seq : Nat
  status : Status
  resBytes : Nat
  time : Nat
  fcode : Nat
  pc : Nat
  yields : Nat
  runNs : Nat
  prog : Nat
  part : Nat
  words : List Word
  anchor : Nat
  stop : Bool
  result : List Byte
  marked : Bool
  order : Nat
  first : Nat
  device : Bool
deriving DecidableEq, Repr

/-- An IDLE slot. -/
def GSlot.reset : GSlot := ⟨0, 0, .ok, 0, 0, 0, 0, 0, 0, 0, 0, [], 0, false, [], false, 0, 0, false⟩

/-- An access that waits at a unit: an ordinary read held, or an alias-path access queued (R143). -/
structure HeldAcc where
  ag : Agent
  part : Nat
  addr : Nat
  len : Nat
  write : Bool
  bytes : List Byte
  ecc : List (Nat × Ecc)
  since : Nat
  key : Nat × Nat
  bad : Bool
deriving DecidableEq, Repr

/-- A Glume unit (R138): its slots, the running slot with its registers, helper registers, poison marks, scratch and
working range, its held and queued accesses, and the throttle: the limit, the microsecond `issuedAt` and the activations issued in
it. A scratch byte that is not listed reads as zero, or as a free value once `fill` is set (R151). -/
structure GUnit where
  slots : Tbl GSlot
  running : Option Nat
  regs : List Word
  marks : List Bool
  vregs : List (List F32)
  vmarks : List Bool
  scratch : Tbl Byte
  smarks : List Nat
  lastPart : Nat
  range : List Nat
  pages : List (Nat × Nat)
  session : Word
  lastYield : Nat
  startAt : Nat
  windowAt : Option Nat
  held : List HeldAcc
  queue : List HeldAcc
  offline : Bool
  faultAt : Option Nat
  limit : Nat
  issued : Nat
  issuedAt : Nat
  fill : Option Nat
  ceTicks : List Nat
  ceEnd : Option Nat
  ceDue : Bool
  order : Nat
  granted : List (Nat × Nat)
  refused : List (Nat × Nat)
  owed : Nat
deriving DecidableEq, Repr

/-- A unit right after reset. -/
def GUnit.reset : GUnit :=
  ⟨[], none, List.replicate 32 0, List.replicate 32 false, List.replicate 16 (List.replicate 16 0),
    List.replicate 16 false, [], [], 31, [], [], 0, 0, 0, none, [], [], false, none, 320, 0, 0, none,
    [], none, false, 0, [], [], 0⟩

/-- A region's mode switch that waits (R141): the command, the mode wanted and the acceptance tick. -/
structure ModeOp where
  op : Nat
  stack : Nat
  region : Nat
  compute : Bool
  at_ : Nat
deriving DecidableEq, Repr

/-- The near-bank block: COMPUTE regions as stack × 64 + region, waiting mode switches, units, banks, curves and stack
sensors (temperature, throttle band, activity band, refresh row), with each stack's refresh threshold of the window; activations by
row and by channel. -/
structure GlmState where
  compute : List Nat
  modeOps : List ModeOp
  lastSwitch : Tbl Nat
  units : Tbl GUnit
  bankAct : ProgBank
  bankShd : ProgBank
  curvesAct : Curves
  curvesShd : Curves
  therm : Tbl (Nat × Nat × Nat × Nat)
  rowActs : Tbl Nat
  acts : Tbl Nat
  thresh : Tbl Nat
deriving DecidableEq, Repr

/-- A weight tile register with its source (R162, R195, R203): format, layer, OUTLIER, codes and scales by column,
and the reference tile's codes and scales while the tile is sampled, with Σ|narrow − reference| and Σ|reference| of the run in units
of 2⁻¹⁴⁹ (R204). -/
structure Tile where
  fmt : Nat
  layer : Nat
  outlier : Bool
  codes : List (List Nat)
  scales : List (List Nat)
  sampled : Bool
  refCodes : List (List Nat)
  refScales : List (List Nat)
  errNum : Nat
  errDen : Nat
deriving DecidableEq, Repr

/-- An empty tile register. -/
def Tile.empty : Tile := ⟨0, 0, false, [], [], false, [], [], 0, 0⟩

/-- A receive channel of a core (R165, R166): slots, slot size, ring offset, credits by sender; messages delivered in order, as sender,
slot, length and tick of arrival, and those taken and not yet freed. -/
structure Chan where
  slots : Nat
  size : Nat
  ring : Nat
  credits : Tbl Nat
  next : Nat
  queue : List (Nat × Nat × Nat × Nat)
  taken : List (Nat × Nat × Nat)
deriving DecidableEq, Repr

/-- A message on the NoC: sender, receiver, channel and bytes. -/
structure Msg where
  src : Nat
  dst : Nat
  chan : Nat
  bytes : List Byte
deriving DecidableEq, Repr

/-- What a core is blocked in (R168). -/
inductive Block where
  | send (dst chan : Nat) | recv (chan : Nat) | full (buf : Nat) | fence
deriving DecidableEq, Repr

/-- A transfer a core asked for that has not completed, in order (R230). A fan-out holds its descriptor and how far each member is:
0 not started, 12 to 15 running in that slot, 1 copied. -/
structure CoreXfer where
  kind : XferKind
  off : Nat
  len : Nat
  fan : Option (List Byte × List Nat)
deriving DecidableEq, Repr

/-- A core (R161): sequencer, matrix unit, vector registers, buffers, channels, transfers, faults and counts. `fresh` says that a step
record waits to be taken by STEPWAIT; `ctrl` holds the descriptors on channel 14 (R222) and `notices` those on channel 15, as buffer (16:
a transfer) and status; `loops` are the running LOOP blocks, innermost first: start, end, passes left. -/
structure Core where
  model : Nat
  lastPart : Nat
  run : Bool
  pc : Nat
  regs : List (BitVec 64)
  calls : List Nat
  tile0 : Tile
  tile1 : Tile
  acc0 : Tbl (List F32)
  acc1 : Tbl (List F32)
  q : List (List F32)
  bufs : List (Nat × Nat × Bool)
  chans : Tbl Chan
  blocked : Option (Block × Nat)
  inStep : Bool
  fresh : Bool
  waiting : Bool
  done : Bool
  engineNs : Nat
  xfers : List CoreXfer
  ctrl : List (List Byte)
  notices : List (Nat × Status)
  fault : Nat
  offline : Bool
  layer : Nat
  samples : Nat
  ovf : Tbl Nat
  unf : Tbl Nat
  nanc : Tbl Nat
  loops : List (Nat × Nat × Nat)
  errs : List (Nat × Nat)
  skips : Nat
deriving DecidableEq, Repr

/-- A core right after reset. -/
def Core.reset : Core :=
  ⟨0, 31, false, 0, List.replicate 32 0, [], Tile.empty, Tile.empty, [], [], List.replicate 32 (List.replicate 128 0),
    [], [], none, false, false, false, false, 0, [], [], [], 0, false, 0, 0, [], [], [], [], [], 0⟩

/-- Placement states (R176-R178). -/
inductive MdlSt where
  | registered | loading | resident | evicting | faulted
deriving DecidableEq, Repr

/-- State codes of MDL_QUERY. -/
def MdlSt.code : MdlSt → Nat
  | .registered => 0 | .loading => 1 | .resident => 2 | .evicting => 3 | .faulted => 4

/-- An entry of a prefetch schedule (R120), with its share slot and offset (R174). -/
structure PreEntry where
  share : Nat
  src : Nat
  dst : Nat
  core : Nat
  buf : Nat
  stepEnd : Bool
  notify : Bool
  len : Nat
  layer : Nat
deriving DecidableEq, Repr

/-- A core entry of an image (R172): code, static data and its offset, entry point, buffers (offset, size). -/
structure ImgCore where
  code : List Byte
  static : List Byte
  staticDst : Nat
  entry : Nat
  bufs : List (Nat × Nat)
deriving DecidableEq, Repr

/-- A channel entry of an image (R173): receiver index, channel, slots, slot size, ring offset and credits by sender
index. -/
structure ImgChan where
  core : Nat
  chan : Nat
  slots : Nat
  size : Nat
  ring : Nat
  credits : List (Nat × Nat)
deriving DecidableEq, Repr

/-- The fields of a placement image the module uses (R171-R174). -/
structure Image where
  noBridge : Bool
  fixed : Bool
  width : Nat
  height : Nat
  origX : Nat
  origY : Nat
  maxRows : Nat
  chunk : Nat
  kvFmt : Nat
  layers : Nat
  kvHeads : Nat
  headDim : Nat
  progs : Nat
  baseNs : Nat
  rowNs : Nat
  tokenNs : Nat
  depth : Nat
  loopStart : Nat
  entries : List PreEntry
  cores : List ImgCore
  chans : List ImgChan
deriving DecidableEq, Repr

/-- A registered model (R175-R180, R200-R205): image, shares, placement state and numeric watches. `evictOps` are the
commands that an eviction answers (0: the firmware's own), `evictSt` the outcome of its weight moves, `preBytes` the bytes of
the prefetch entries run since the last charge (R258). -/
structure Mdl where
  part : Nat
  img : Image
  shares : List Nat
  st : MdlSt
  pinned : Bool
  origin : Nat
  since : Nat
  lastRun : Nat
  faultCode : Nat
  accepted : Nat
  loadOp : Nat
  evictOps : List Nat
  evictAfter : Option Bool
  moveOps : Nat
  preNext : Nat
  preOpen : List Nat
  preStop : Bool
  repeated : Bool
  thresh : Nat
  ovf : Tbl Nat
  unf : Tbl Nat
  nanc : Tbl Nat
  nanAt : Option Nat
  samples : Nat
  exceed : Nat
  exceedSince : Nat
  exceedAt : Option Nat
  skipped : Nat
  errLast : Nat
  errMax : Nat
  blockedSent : Bool
  wpins : Bool
  movedKb : Nat
  reloading : Bool
  evictSt : Status
  preBytes : Nat
deriving DecidableEq, Repr

/-- The grid: cores, local-store bytes by device address, poisoned local-store words and the granules of HBM that poison came from,
models and offline links. -/
structure GridState where
  cores : Tbl Core
  ls : List Host.Cell
  lsPoison : List Nat
  msgs : List Msg
  mdls : Tbl Mdl
  links : Nat
  lastFault : Tbl Nat
  xferDone : Nat
  lsFrom : Tbl Nat
deriving DecidableEq, Repr

end Sys2Proof.Machine
end

