-- ==== Sys2Proof/Machine/ServeState.lean ====
section
/-! DEFINITION. State of the serving scheduler (chapter 10) and of the text engine (chapter 11). -/

namespace Sys2Proof.Machine

/-- A session's request template (REQ_TEMPLATE, R260). -/
structure Template where
  maxTokens : Nat
  expect : Nat
  deadlineMs : Nat
  late : Nat
  noProject : Bool
  endEvent : Bool
  profile : Nat
  temp : Word
  topK : Nat
  seed : Word
deriving DecidableEq, Repr

/-- The template of a session that none has been set for. -/
def Template.reset : Template := ⟨0, 0, 0, 0, false, false, 0, 0, 0, 0⟩

/-- The grammar state of a request (R286). -/
structure GramSt where
  share : Nat
  state : Nat
  stack : List Nat
  dead : Bool
deriving DecidableEq, Repr

/-- A row of a batch step (R247, R250); kind 0 decode, 1 prefill, 2 last prefill chunk, 3 compressor. -/
structure Row where
  h : Word
  req : Nat
  pos : Nat
  count : Nat
  kind : Nat
  fallback : Bool
  masked : Bool
  pages : List Nat
deriving DecidableEq, Repr

/-- The sequence of batch steps of one model: the step number, the batch decided or running, the rows and tokens of
the step last started (R252), and whether a step computes. -/
structure Batch where
  step : Nat
  rows : List Row
  decided : Bool
  running : Bool
  startAt : Nat
  lastD : Nat
  lastQ : Nat
  queue : List Word
deriving DecidableEq, Repr

/-- A batch sequence with no step yet. -/
def Batch.reset : Batch := ⟨0, [], false, false, 0, 0, 0, []⟩

/-- A training job (R240); state 0 queued, 1 running, 2 ended. -/
structure TrainJob where
  part : Nat
  op : Nat
  model : Nat
  adapterTarget : Bool
  stateExt : Nat × Nat
  dataExt : Nat × Nat
  workExt : Nat × Nat
  steps : Nat
  donesteps : Nat
  st : Nat
  stop : Bool
  inStep : Bool
deriving DecidableEq, Repr

/-- An adapter version (R237-R239). -/
structure Adapter where
  part : Nat
  model : Nat
  line : Nat
  share : Nat
  current : Bool
deriving DecidableEq, Repr

/-- A line of adapters of a model. -/
structure AdpLine where
  model : Nat
  line : Nat
  deflt : Bool
  bytes : Nat
  retired : Bool
deriving DecidableEq, Repr

/-- A byte-class machine (R265): classes of ASCII, ranges (first, last, class), default and invalid class, start
state, and transitions (SPLIT, NEXT) by state × classes + class. -/
structure ByteMachine where
  classes : Nat
  states : Nat
  deflt : Nat
  invalid : Nat
  start : Nat
  ascii : List Nat
  ranges : List (Nat × Nat × Nat)
  trans : List (Bool × Nat)
deriving DecidableEq, Repr

/-- A token of a vocabulary (R268): its string and flags. -/
structure Token where
  str : List Byte
  special : Bool
  emit : Bool
  eos : Bool
deriving DecidableEq, Repr

/-- A tokenizer slot's tables (R262); the Bool of each is whether its last load was accepted (R29). -/
structure TokSlot where
  machine : Option ByteMachine
  machineOk : Bool
  machineLen : Nat
  merges : List (Nat × Nat × Nat)
  mergesOk : Bool
  vocab : List Token
  byteMap : List Nat
  vocabOk : Bool
  vocabLen : Nat
deriving DecidableEq, Repr

/-- A slot with no table. -/
def TokSlot.reset : TokSlot := ⟨none, false, 0, [], false, [], [], false, 0⟩

/-- An output profile (R278). -/
structure Profile where
  dest : Nat
  keepHead : Bool
  gramEn : Bool
  grammar : Nat
  qp : Nat
  ringOff : Nat
  ringLog2 : Nat
  pre : List Nat
  post : List Nat
  stops : List (List Byte)
deriving DecidableEq, Repr

/-- One set of a partition's TXT tables: slots, profiles (`profilesOk` is false after a refused load, R29), model map, grammar
directory (share, slot). -/
structure TxtSet where
  slots : Tbl TokSlot
  profiles : List Profile
  profilesOk : Bool
  profilesLen : Nat
  mmap : Tbl Nat
  grams : Tbl (Nat × Nat)
deriving DecidableEq, Repr

/-- A set right after reset. -/
def TxtSet.reset : TxtSet := ⟨[], [], true, 0, [], []⟩

/-- An unfinished request (R243-R256) with its output (R277-R289): `ops` are the REQ_SUBMIT commands that end with
it, the tokenizer tables and the output profile
are bound at its start (R277). -/
structure Request where
  h : Word
  num : Nat
  start : Nat
  tmpl : Template
  fallback : Nat
  switched : Bool
  deadline : Nat
  expired : Bool
  endNow : Option Status
  generated : Nat
  prefilled : Nat
  anyLate : Bool
  anyFb : Bool
  truncated : Bool
  projection : Nat
  ops : List Nat
  tables : TokSlot
  vocabSize : Nat
  prof : Option Profile
  stopIdx : Option Nat
  eos : Bool
  hold : List Byte
  sinceRec : Nat
  gram : Option GramSt
  maskBlks : List Nat
  bySubmit : Bool
deriving DecidableEq, Repr

/-- Scheduler state: templates by session key, requests by number, batches by model, model configuration (fallback,
chunk, budget), partition totals, the meter records whose energy has been split, the last monitor pass in units of 100 µs, training jobs and adapters (keys of versions: part × 65,536 + number). -/
structure SchState where
  tmpls : Tbl Template
  reqs : Tbl Request
  lastReq : Nat
  batches : Tbl Batch
  mcfg : Tbl (Nat × Nat × Nat)
  engineNs : Tbl Nat
  energy : Tbl Nat
  unattr : Tbl Nat
  bytes : Tbl (List Nat)
  nsThisSec : Tbl Nat
  latched : Tbl Nat
  split : Tbl Nat
  monLast : Nat
  adapters : Tbl Adapter
  lines : List AdpLine
  lastVer : Tbl Nat
  jobs : Tbl TrainJob
  lastJob : Nat
deriving DecidableEq, Repr

/-- Where the text of a text request comes from (R261). -/
inductive TxtSrc where
  | slot (slot : Nat) | submit (op : Nat) | tokenize (op : Nat) | detok (op : Nat)
deriving DecidableEq, Repr

/-- A text request that waits or runs (R261, R272); it holds the tables of the set it started under (R35). -/
structure TxtReq where
  id : Nat
  die : Nat
  part : Nat
  h : Word
  src : TxtSrc
  text : List Byte
  poisoned : Bool
  keepHead : Bool
  slotNum : Option Nat
  tables : TokSlot
  vocabSize : Nat
  profile : Option Profile
  lane : Option Nat
  small : Bool
  cap : Nat
  model : Nat
  off : Nat
  busy : Bool
deriving DecidableEq, Repr

/-- Output records of a request that its destination has not taken yet (R280): those that wait for room in the ring, and
the sends in progress with their lengths. -/
structure OutQ where
  part : Nat
  prof : Profile
  waiting : List (List Byte)
  net : List (Nat × Nat)
deriving DecidableEq, Repr

/-- Text engine state: active and shadow sets by partition, requests, output rings' PRODUCED by partition × 2^40 +
ring offset, and grammar objects by share (header fields, state index, transitions). -/
structure TxtState where
  act : Tbl TxtSet
  shd : Tbl TxtSet
  reqs : List TxtReq
  nextId : Nat
  outq : Tbl OutQ
deriving DecidableEq, Repr

end Sys2Proof.Machine
end

