-- ==== Sys2Proof/Machine/NetState.lean ====
section
/-! DEFINITION. State of Reed (chapter 12) and of the shapers (chapter 13). -/

namespace Sys2Proof.Machine

/-! ### Reed -/

/-- An entry of a sub-port's GID table (R296). -/
structure Gid where
  addr : Nat
  vlan : Nat
  pcp : Nat
  owner : Nat
  valid : Bool
deriving DecidableEq, Repr

/-- A shared receive queue (R306): its ring in the buffer space, its completion ring, and the entries taken. -/
structure Srq where
  part : Nat
  off : Nat
  log2 : Nat
  cq : Option Nat
  taken : Nat
deriving DecidableEq, Repr

/-- A completion ring (R307): its ring in the buffer space, entries written, entries reserved by open messages, and the
tick of the last NET_CQ record. -/
structure Cq where
  part : Nat
  off : Nat
  log2 : Nat
  notify : Bool
  written : Nat
  held : Nat
  lastNote : Option Nat
deriving DecidableEq, Repr

/-- A posted event work request (R308): its buffer (`reserve`: in the device reserve, R102), its SLOT action, the
deferred sends, the message that has claimed it, and the resolved entries it holds (R221). -/
structure Ewr where
  part : Nat
  off : Nat
  len : Nat
  reserve : Bool
  slot : Option (Word × Nat)
  deferred : List Nat
  claimed : Option Nat
  ents : Nat
deriving DecidableEq, Repr

/-- A message being received (R303): its length, the buffer offset it is placed at, whether it is a WRITE, the packet
positions and bytes placed, its immediate data, the SRQ entry (queue, index, length) and the completion ring it claimed,
the EWR it named, the tick of its last packet, whether its last packet is in, the PSN of the packet that came last, and whether a
packet of it waited for the queue pair's context (R89). -/
structure Reasm where
  len : Nat
  base : Nat
  write : Bool
  bits : List Nat
  got : Nat
  imm : Option Word
  srq : Option (Nat × Nat)
  cq : Option Nat
  ewr : Option Nat
  reserve : Bool
  last : Nat
  whole : Bool
  psn : Nat
  waited : Bool
deriving DecidableEq, Repr

/-- A send work request (R313-R315): kind 0 SEND, 1 SEND with immediate, 2 WRITE, 3 WRITE with immediate, 4 READ. Its
data is a buffer range, or bytes that an engine gave with the post. -/
structure Send where
  op : Nat
  kind : Nat
  off : Nat
  len : Nat
  bytes : Option (List Byte)
  va : Nat
  key : Word
  imm : Word
  ses : Option Word
  wait : Option (Nat × Nat)
  started : Bool
  onWire : Bool
  msn : Nat
  psn : Nat
  sentAt : Nat
  tries : Nat
  rnrTries : Nat
  rnrUntil : Option Nat
  bits : List Nat
  got : Nat
deriving DecidableEq, Repr

/-- Where a queue pair's context is (R317, R320): on chip, in the area of a port, or lost with its port. -/
inductive CtxPlace where
  | chip | area (port : Nat) | lost
deriving DecidableEq, Repr

/-- A queue pair (R297, R298): state 0 IDLE, 1 RTS, 2 ERROR. `done` holds the last 256 completed messages with their
status codes, `refused` the messages whose remaining packets are discarded, `encSeen` the sequence numbers accepted in
the window of R321. -/
structure Qp where
  part : Nat
  sub : Nat
  gid : Nat
  ext : Bool
  multi : Bool
  event : Bool
  enc : Bool
  pin : Bool
  mtu : Nat
  srq : Option Nat
  cq : Option Nat
  paths : Nat
  st : Nat
  rqpn : Nat
  raddr : Nat
  dmac : Nat
  sendPsn : Nat
  expPsn : Nat
  ackCode : Nat
  retry : Nat
  rnrRetry : Nat
  dscp : Nat
  key : Nat
  nextMsn : Nat
  count : Nat
  place : CtxPlace
  used : Nat
  held : List Packet
  fetchAt : Option Nat
  fetching : Bool
  sends : List Send
  reasm : Tbl Reasm
  rcMsn : Nat
  done : List (Nat × Nat)
  refused : List Nat
  encSend : Nat
  encTop : Nat
  encSeen : List Nat
  cnpAt : Option Nat
deriving DecidableEq, Repr

/-- Reed: GID entries by sub-port × 16 + index, queue pairs by number, shared receive queues and completion rings by
partition × 256 + number, posted EWRs by queue pair × 2^32 + identifier, deferred sends by operation with the EWR's key
and the queue pair, links that are up, and the context areas of the two ports; `failed` holds the requests of Tiller that
ended with other than OK and that it has not yet seen, and those of Sheaf; `got` holds the data of Sheaf's READs that have ended. -/
structure NetState where
  gids : Tbl Gid
  qps : Tbl Qp
  srqs : Tbl Srq
  cqs : Tbl Cq
  ewrs : Tbl Ewr
  deferred : Tbl (Nat × Nat × Send)
  links : Nat
  areas : Tbl Nat
  drops : Tbl Nat
  paused : Tbl Nat
  failed : List Nat
  got : Tbl (List Byte)
deriving DecidableEq, Repr

/-! ### Shapers -/

/-- A token bucket (R327): credit in units of 1/125 byte, the profile that governs it since the last refill, and the
bytes its units have started in this refill interval. -/
structure Bucket where
  credit : Int
  rate : Nat
  peak : Nat
  burst : Nat
  used : Nat
deriving DecidableEq, Repr

/-- What a waiting unit is: a packet of a queue pair's work request, the write of a map unit for an operation, or a write to host
memory (the operation, and its final status and results when this is its last write). -/
inductive ShWhat where
  | net (qpn op : Nat) (p : Packet)
  | nand (op unit : Nat)
  | host (port addr : Nat) (bytes : List Byte) (op : Nat) (fin : Option (Status × List Word))
deriving DecidableEq, Repr

/-- A unit waiting at a flow: its charged bytes, and what it is (R326). -/
structure ShUnit where
  bytes : Nat
  what : ShWhat
deriving DecidableEq, Repr

/-- A flow (R326): its profile, its bucket, its waiting units, the current rate of a congested queue pair (R322) and
the refills since its last CNP. -/
structure ShFlow where
  prof : Nat
  b : Bucket
  queue : List ShUnit
  cc : Option Nat
  quiet : Nat
deriving DecidableEq, Repr

/-- A partition's bucket under a port node, its deficit (R328) and its last flow served. -/
structure ShPart where
  b : Bucket
  deficit : Nat
  lastFlow : Nat
deriving DecidableEq, Repr

/-- A port node (R326): its bucket, whether credit mode is in force since the last refill, the end of a recovery
window (R330), and the partition that the round robin serves. -/
structure ShNode where
  b : Bucket
  mode : Bool
  until_ : Option Nat
  turn : Nat
deriving DecidableEq, Repr

/-- The shapers: port nodes 0-18, partition buckets by node × 16 + partition, flows by
(node × 16 + partition) × 2^64 + flow, whether SHP's device slice has been committed since
reset, and the tick of the last refill. -/
structure ShpState where
  nodes : Tbl ShNode
  parts : Tbl ShPart
  flows : Tbl ShFlow
  committed : Bool
  lastRefill : Option Nat
deriving DecidableEq, Repr

end Sys2Proof.Machine
end

