-- ==== Sys2Proof/Machine/ServiceState.lean ====
section
/-! DEFINITION. State of Panicle (chapter 14), of Sheaf (chapter 15), of the security block (chapter 16), of the Atvor meter
(chapter 17), and of the sideband endpoints (chapter 20). -/

namespace Sys2Proof.Machine

/-! ### Panicle -/

/-- An update command of an index (R341): kind 0 insert, 1 delete, 2 compact, 3 a compaction whose wait for queries is over; input offset, count, output
offset, and the epoch Ec of a compaction that has started. -/
structure PanUpdate where
  op : Nat
  kind : Nat
  off : Nat
  count : Nat
  out : Nat
  ec : Option Nat
deriving DecidableEq, Repr

/-- An index (R337-R341): its parameters, the fields of its header, the SRQ it listens on, its updates in arrival order
(the first one runs), and the command that waits to destroy it. -/
structure PanIndex where
  part : Nat
  die : Nat
  first : Nat
  count : Nat
  dims : Nat
  fmt : Nat
  metric : Nat
  degree : Nat
  efBuild : Nat
  cap : Nat
  ef : Nat
  entry : Nat
  epoch : Nat
  floor : Nat
  live : Nat
  tombs : Nat
  listen : Option Nat
  updates : List PanUpdate
  destroy : Option Nat
deriving DecidableEq, Repr

/-- Whom a query answers: a command, an open sharded query, or a query message with its queue pair and tag. -/
inductive PanSrc where
  | cmd (op : Nat) | shard (tag : Nat) | remote (qpn tag : Nat)
deriving DecidableEq, Repr

/-- A query that waits or runs (R346, R350); `snap` and `live` are taken at admission, `inp` is the buffer offset of a command's vector. -/
structure PanQuery where
  id : Nat
  die : Nat
  part : Nat
  index : Nat
  k : Nat
  ef : Nat
  w : Nat
  vec : List F32
  out : Nat
  snap : Nat
  all_ : Nat
  none_ : Nat
  any_ : Nat
  live : Nat
  src : PanSrc
  running : Bool
  inp : Option Nat
deriving DecidableEq, Repr

/-- A result entry: distance, group entry, item number and KEY. -/
structure PanHit where
  dist : F32
  entry : Nat
  item : Nat
  key : Nat
deriving DecidableEq, Repr

/-- An open sharded query (R352): the group's table, the group entries not yet answered, the partials taken, and its deadline. -/
structure PanShard where
  op : Nat
  part : Nat
  table : List (Nat × Nat)
  k : Nat
  out : Nat
  dims : Nat
  fmt : Nat
  metric : Nat
  waiting : List Nat
  hits : List PanHit
  scored : Nat
  live : Nat
  answered : Nat
  short : Nat
  missed : Nat
  until_ : Nat
deriving DecidableEq, Repr

/-- Panicle: indexes by handle, queries in arrival order, shard groups by partition × 16 + group as (queue pair, index) entries,
and open sharded queries by TAG. -/
structure PanState where
  idx : Tbl PanIndex
  queries : List PanQuery
  nextQ : Nat
  groups : Tbl (List (Nat × Nat))
  shards : Tbl PanShard
  lastTag : Nat
deriving DecidableEq, Repr

/-! ### Sheaf -/

/-- An item of a job (R355). -/
structure CkpItem where
  kind : Nat
  group : Nat
  first : Nat
  count : Nat
deriving DecidableEq, Repr

/-- A shard of a member's stream (R356, R360, R361); state 0 filling, 1 awaiting a verdict, 2 being written, 3 confirmed,
4 skipped, 5 waiting for its write to start. `loc` is its slot offset or FTL token, `ops` the work requests that write it. -/
structure CkpShard where
  group : Nat
  index : Nat
  off : Nat
  len : Nat
  st : Nat
  digest : BitVec 512
  writer : Nat
  loc : Nat
  annAt : Nat
  ops : List Nat
deriving DecidableEq, Repr

/-- An announcement that the keeper has taken: rank, GROUP, index and digest. -/
structure CkpAnn where
  rank : Nat
  group : Nat
  index : Nat
  digest : BitVec 512
  answered : Bool
deriving DecidableEq, Repr

/-- A running checkpoint (R357-R365). `sizes` are the bytes of the items at the notice tick, `snap` the records of its session items; `data` holds the bytes copied, by
item × 2^24 + region; `cfg` is CKP_CFG at the start (R35). `phase`: 0 copying and writing, 1 the member manifest is being written,
2 reported, 3 the keeper writes the job manifest, 4 the commit record. -/
structure CkpRun where
  cfg : Nat
  ops : List Nat
  seq : Nat
  tick : Nat
  sizes : List Nat
  unreached : List (Nat × Nat)
  snap : Tbl (List Byte)
  data : Tbl (List Byte)
  shards : List CkpShard
  started : Bool
  phase : Nat
  manOps : List Nat
  manLoc : Nat
  anns : List CkpAnn
  ends : List Nat
  reports : Tbl (Nat × Nat × BitVec 512)
  endSent : Bool
  objs : List Nat
deriving DecidableEq, Repr

/-- A running restore (R367): the command, the rank and the sequence asked for, the items still to restore, the map's host
address, what is being read (0 commit records, 1 job manifest, 2 member manifest, 3 shards), the reads in progress, the commit records
that may be taken, the sequence number, the member manifest entries still to read, the bytes read that no item has taken yet, and the
old and new name of each item restored. -/
structure CkpRestore where
  op : Nat
  rank : Nat
  want : Nat
  items : List CkpItem
  host : Nat
  phase : Nat
  reads : List Nat
  cands : List (List Byte)
  seq : Nat
  entries : List (List Byte)
  stream : List Byte
  maps : List (Nat × Nat)
deriving DecidableEq, Repr

/-- A checkpoint job (R355): its member table as queue pairs by rank, the store, the ranks lost, the extents of its shard buffers,
the committed sequence, and the two commit slots of a LOCAL job (commit record object, manifest objects). -/
structure CkpJob where
  part : Nat
  rank : Nat
  n : Nat
  members : List Nat
  remote : Bool
  stage : Nat
  items : List CkpItem
  store : Nat
  area : Nat
  key : Word
  slot : Nat
  lost : List Nat
  bufs : List Nat
  committed : Nat
  run : Option CkpRun
  restore : Option CkpRestore
  slots : Tbl (List Nat)
deriving DecidableEq, Repr

/-- Sheaf: jobs by identifier; the writes that stall behind an unreached region are in `MemState.stalled`. -/
structure CkpState where
  jobs : Tbl CkpJob
deriving DecidableEq, Repr

/-! ### The security block -/

/-- A set key of a partition (R379). -/
structure SetKey where
  part : Nat
  id : Nat
  key : List Byte
deriving DecidableEq, Repr

/-- A signature that waits or has been made (R374): whom it answers, what for (0 CHALLENGE, 1 measurements), its arrival tick, its
token, and whether ResponseNotReady has been sent; `ready` holds the response once it is made. -/
structure SigReq where
  at_ : SpdmPort
  kind : Nat
  since : Nat
  token : Nat
  deferred : Bool
  ready : Option (List Byte)
deriving DecidableEq, Repr

/-- An open of a weight package (R383): the run of extents, its header, and the stage: 0 the unwrap of the content key, then chunk
by chunk. -/
structure Opening where
  part : Nat
  first : Nat
  count : Nat
  hdr : List Byte
  stage : Nat
deriving DecidableEq, Repr

/-- The security block: set keys, connection key records by partition × 65,536 + handle, debug state, the latest challenge nonce,
the signer's queue, the reported throttle level with the first tick at which it may change again, packages being opened by operation,
and the set and the allowed digests of each sealed object by share identifier. -/
structure SecState where
  sets : List SetKey
  conn : Tbl (List Byte)
  debug : Bool
  pend : Bool
  nonce : Option (List Byte)
  sigs : List SigReq
  lastToken : Nat
  level : Nat
  levelAt : Nat
  opens : Tbl Opening
  packs : Tbl (Nat × List (BitVec 512))
deriving DecidableEq, Repr

/-! ### Sideband (R475-R478) -/

/-- A sideband endpoint: its dynamic address, its endpoint ID, and where its platform events go. -/
structure Bus where
  addr : Nat
  eid : Nat
  receiver : Nat
deriving DecidableEq, Repr

/-! ### The Atvor meter -/

/-- A coefficient set (R411-R413): COEFF_ID, IDLE_MW, c_0 to c_7. -/
structure Coeff where
  id : Nat
  idle : Nat
  c : List Nat
deriving DecidableEq, Repr

/-- The meter's flash (R409): starts since manufacture, the digest last adopted, the seal count kept beside the fuses, and the active
coefficient package. -/
structure MeterFlash where
  starts : Nat
  digest : BitVec 512
  sealCount : Nat
  pkg : List Byte
deriving DecidableEq, Repr

/-- The meter. State 0 STARTING, 1 RUNNING, 2 FAILED. `acc` is the energy of the running record in nJ, `ms` the energy and the samples
of the running millisecond; `tap` is the activity seen at the last record end; `due` holds the records signed and not yet in the window,
by partition (16: device); `window` holds records by kind × 64 + slot with their SEQ. `gap` and `newCoeff` say what the next record
carries; `endAt` is the tick of the last record boundary met, `made` counts the records made; `pkg` is the active package; `checkAt` is when SW_ID is recomputed next. -/
structure Meter where
  st : Nat
  cause : Nat
  refused : Nat
  acc : Nat
  ms : Nat × Nat × Nat
  vMin : Nat
  vMax : Nat
  pMax : Nat
  power : Nat
  volts : Nat
  over_ : Bool
  gap : Bool
  newCoeff : Bool
  dbg : Bool
  lastOver : Bool
  lastGap : Bool
  seq : Nat
  made : Nat
  cum : Nat
  readyAt : Nat
  endAt : Nat
  swId : Word
  coeff : Coeff
  pkg : List Byte
  staged : Option (Coeff × List Byte × Nat)
  tap : Tbl (List Nat)
  due : List (Nat × Nat × List Byte)
  window : Tbl (Nat × List Byte)
  flash : MeterFlash
  energy : List Nat
  checkAt : Nat
deriving DecidableEq, Repr

end Sys2Proof.Machine
end

