-- ==== Sys2Proof/Machine/State.lean ====
section
/-! DEFINITION. The state of the module: the queue of waiting commands, device time, the fuses, the image store, the
meter, and everything on the dies, in HBM and on NAND. -/

namespace Sys2Proof.Machine

/-- Reasons to stop with a fault: none. Every command and event of the table has an effect in the spec, so no meaning
faults. -/
inductive Fault where
deriving DecidableEq, Repr

/-- Reasons to refuse a command. -/
inductive Refusal where
  /-- Raised by the dispatch of a row that has no meaning yet; safe, because the machine stops there. -/
  | notModelled (mnemonic : String)
deriving DecidableEq, Repr

/-- What the module sends out (newest first in `Dev.outs`). -/
inductive Out where
  /-- A reply entry written to a reply ring in host memory: its address and its 32 bytes (R45, R51, R52). -/
  | reply (fn : Fn) (rq addr : Nat) (bytes : List Byte)
  /-- An MSI-X interrupt (R44, R53). -/
  | msix (fn : Fn) (entry : Nat)
  /-- A reply returned to the engine that posted a packet (R60). -/
  | engine (e : Engine) (op : Nat) (st : Status) (res : List Word)
  /-- An event record written to an event ring in host memory: its address and its 32 bytes (R430, R434). -/
  | event (fn : Fn) (addr : Nat) (bytes : List Byte)
  /-- An event record delivered on a sideband bus (R433). -/
  | sideband (bus : Nat) (r : Rec)
  /-- A sensor event on the sideband (R466, R477): sensor, level 0 warning, 1 critical, 2 fatal; rising or falling. -/
  | sensor (n level : Nat) (rising : Bool)
  /-- Bytes written to host memory through a port. -/
  | hostWrite (port addr : Nat) (bytes : List Byte)
  /-- The completion of a read by a host: the data, and whether it carries the poisoned-data bit (R143). -/
  | readData (fn : Fn) (bytes : List Byte) (poisoned : Bool)
  /-- The answer to an on-module agent's read, with its status. -/
  | agentData (ag : Agent) (st : Status) (bytes : List Byte) (poisoned : Bool)
  /-- AER Uncorrectable Internal Error at a port (R424). -/
  | aer (port : Nat)
  /-- A packet sent at a sub-port. -/
  | packet (p : Packet)
  /-- An ARP or neighbour answer at a sub-port. -/
  | arp (sub target : Nat)
  /-- Bytes sent in answer to a sideband request of a bus: a tag for the answer's kind, and the payload. -/
  | answer (bus kind : Nat) (bytes : List Byte)
  /-- An SPDM answer: a response code, and the payload. -/
  | spdm (at_ : SpdmPort) (code : Nat) (bytes : List Byte)
  /-- A message of Sheaf to the member of a rank (R357, R361, R363, R364): kind 0 announcement, 1 end marker, 2 verdict, 3 report,
  4 commit, and its numbers. The spec gives these messages no form. -/
  | member (job rank kind : Nat) (args : List Nat)
  /-- A package signalled to the meter, or a meter record signed (R406, R413). -/
  | meter (part seq : Nat)
deriving DecidableEq, Repr

/-- Device time and power (R22, R459): `tick` is whether the event tick runs. `wall` is the model's own count of
time outside the module, in ticks; it runs while the module is off (log entry 1). `order` is the place in the order of R24 that the
events of this tick have reached (log entry 80). -/
structure Clock where
  now : Nat
  wall : Nat
  power : Bool
  tick : Bool
  order : Nat
deriving DecidableEq, Repr

/-- The fuses (R370, R445): lifecycle, root keys (hash, valid, revoked), the SVN floors of KIND 1 to 4, the meter seal
count, the partition erasures, the hashes of the debug key and of the meter authority's key, and the field whose two copies fail
their checks, if one does (R449). -/
structure Fuses where
  lifecycle : Nat
  roots : List (BitVec 512 × Bool × Bool)
  floors : List Nat
  sealCount : Nat
  erases : List Nat
  debugHash : BitVec 512
  meterHash : BitVec 512
  bad : Option Nat
deriving DecidableEq, Repr

/-- The image store (R443): its bytes (an unlisted byte reads as 0xFF). -/
structure ImageStore where
  flash : Tbl Byte
deriving DecidableEq, Repr

/-- How far a move in granules has come (R113-R117): the next granule, failed writes of it, whether it is in copy, and
whether the FTL has confirmed its write to NAND, and the new destination in HBM of that granule after a failed write (0: none). -/
structure MoveProg where
  next : Nat
  tries : Nat
  copying : Bool
  conf : Bool
  alt : Nat
deriving DecidableEq, Repr

/-- What a class D command that has been accepted, or a move that firmware started, still has to do. Extent and
granule lists name the destinations that were allocated when the move was accepted (R118). `held` is a command that waits for
Sheaf to copy its session's record (R358). -/
inductive OpKind where
  | closeSes (h : Word) | parkSes (h : Word) | reviveSes (h : Word) | moveSes (h : Word) | moveIn (h : Word)
  | unmap (first count : Nat)
  | moveExt (first : Nat) (dst : List Nat) (m : MoveProg)
  | store (first count region : Nat) (units : List Nat) (m : MoveProg)
  | load (obj first : Nat) (dst : List Nat) (m : MoveProg)
  | xfer (host off len : Nat) (out : Bool)
  | regionMode
  | progLoad (len : Nat) (crc : Word)
  | curveLoad (table : Nat) (crc : Word)
  | register (len : Nat) (shares : List Nat)
  | mdlLoad (model : Nat)
  | mdlEvict (model : Nat) (toNand : Bool)
  | mdlUnreg (model : Nat)
  | shareUp (model share : Nat) (dst : List Nat) (m : MoveProg)
  | shareDown (model share : Nat) (units : List Nat) (m : MoveProg)
  | pfxSession (h : Word) (share : Nat) (m : MoveProg)
  | pfxCreate (share first count : Nat) (m : MoveProg)
  | train (job : Nat)
  | spill (h : Word) (layer page unit : Nat) (conf : Bool)
  | fetchBack (h : Word) (layer page : Nat) (dst : Option Nat)
  | submit (h : Word) (req : Nat) (mark : Option (Nat × Nat))
  | tableLoad (kind slot len : Nat) (crc : Word)
  | tokenize (dst cap : Nat)
  | detok (dst cap : Nat)
  | weights (first count : Nat)
  | held (opcode : Nat) (words : List Word)
  | other (code a b c : Nat)
deriving DecidableEq, Repr

/-- An operation in progress: the command it answers, its partition, and its kind. -/
structure Op where
  src : CmdSrc
  part : Nat
  kind : OpKind
  aborted : Bool
deriving DecidableEq, Repr

/-- Everything that a power-on reset clears but device time (R439). Keys: rings by function × 16 + n; partitions 0-15
and 16 for the device in `orphans`; functions by port × 32 + number. -/
structure Dev where
  boot : Boot
  power : Power
  ports : Tbl PciePort
  ctrlPort : Nat
  parts : Tbl PartHost
  sqs : Tbl Sq
  rqs : Tbl Rq
  cmds : List CmdRec
  nextSeq : Nat
  nextReply : Nat
  arb : Arb
  fetchStop : List (Nat × Option Nat)
  orphans : Tbl (List Reply)
  adopts : Tbl Adopt
  ops : Tbl Op
  msix : Tbl Word
  cfg : Tbl CfgFn
  commits : List Commit
  lastCommit : Nat
  drains : List Drain
  timers : Tbl Timer
  nowHi : Tbl Word
  speed : Nat × Nat
  speedLow : Tbl Nat
  regs : Regs
  eqs : Tbl Eq
  paths : Tbl Path
  scrubPass : Tbl Nat
  ueAt : Tbl Nat
  offline : Tbl Nat
  faultAt : Tbl Nat
  halted : Bool
  crc : CrcUnit
  mem : MemState
  nand : NandState
  ses : SesDir
  glm : GlmState
  grid : GridState
  sch : SchState
  txt : TxtState
  net : NetState
  shp : ShpState
  pan : PanState
  ckp : CkpState
  sec : SecState
  buses : Tbl Bus
  tap : Tbl (List Nat)
  edge : Tbl (List Nat)
  outs : List Out
  free : Nat
deriving DecidableEq, Repr

/-- The module: the commands waiting at its door, device time, and its parts. -/
structure State where
  pending : List Instr
  clock : Clock
  fuses : Fuses
  store : ImageStore
  meter : Meter
  dev : Dev
deriving DecidableEq, Repr

/-- What a meaning reads and does not change: device time, the fuses, the image store and the meter. -/
structure Ctx where
  now : Nat
  wall : Nat
  fuses : Fuses
  store : ImageStore
  meter : Meter
  order : Nat
deriving DecidableEq, Repr

/-! ### The state right after a power-on reset (R439; log entries 3, 4, 26) -/

/-- Start-up right after a power-on reset: stage 1, with the fuses not yet read. -/
def Boot.reset : Boot := ⟨0, 0, 1, 0, 0, 0, 0, 0, false, 0, 0, [], [], false⟩

/-- Power control right after reset: no throttling, the cap and the limits at 1,650 W (R464, R470). -/
def Power.reset : Power := ⟨true, false, false, none, 0, false, 0, 0, none, 0, 0, 0, 0, 0, 0, 0, 1650, 1650, 1650, 0, 0, []⟩

/-- The check-value unit right after reset (R454, R456): free, with its value cleared. -/
def CrcUnit.reset : CrcUnit := ⟨0xFFFFFFFF#32, 0, false, 0, 0, []⟩

/-- Memory with nothing allocated. -/
def MemState.reset : MemState := ⟨[], [], [], [], [], [], [], 0, [], [], [], [], [], [], [], [], [], []⟩

/-- NAND with nothing written. -/
def NandState.reset : NandState := ⟨[], 0, [], 1, [], 0, 0, [], [], [], [], [], [], [], []⟩

/-- The near-bank block right after reset. -/
def GlmState.reset : GlmState := ⟨[], [], [], [], ⟨false, [], []⟩, ⟨false, [], []⟩, Curves.reset, Curves.reset, [], [], [], []⟩

/-- The grid right after reset. -/
def GridState.reset : GridState := ⟨[], [], [], [], [], 0, [], 0, []⟩

/-- The scheduler right after reset. -/
def SchState.reset : SchState := ⟨[], [], 0, [], [], [], [], [], [], [], [], [], 0, [], [], [], [], 0⟩

/-- Reed right after reset: links down. -/
def NetState.reset : NetState := ⟨[], [], [], [], [], [], 0, [], [], [], [], []⟩

/-- The security block right after reset. -/
def SecState.reset : SecState := ⟨[], [], false, false, none, [], 0, 0, 0, [], []⟩

/-- Everything on the dies, in HBM and on NAND after a power-on reset of a module that has stored nothing. -/
def Dev.reset : Dev where
  boot := Boot.reset
  power := Power.reset
  ports := []
  ctrlPort := 0
  parts := []
  sqs := []
  rqs := []
  cmds := []
  nextSeq := 1
  nextReply := 0
  arb := ⟨0, []⟩
  fetchStop := []
  orphans := []
  adopts := []
  ops := []
  msix := []
  cfg := []
  commits := []
  lastCommit := 0
  drains := []
  timers := []
  nowHi := []
  speed := (1024, 1024)
  speedLow := []
  regs := ⟨[], [], [], []⟩
  eqs := []
  paths := []
  scrubPass := []
  ueAt := []
  offline := []
  faultAt := []
  halted := false
  crc := CrcUnit.reset
  mem := MemState.reset
  nand := NandState.reset
  ses := ⟨[], [], []⟩
  glm := GlmState.reset
  grid := GridState.reset
  sch := SchState.reset
  txt := ⟨[], [], [], 0, []⟩
  net := NetState.reset
  shp := ⟨[], [], [], false, none⟩
  pan := ⟨[], [], 0, [], [], 0⟩
  ckp := ⟨[]⟩
  sec := SecState.reset
  buses := []
  tap := []
  edge := []
  outs := []
  free := 0

/-- The fuses of a module that leaves its manufacture (log entry 26): PRODUCTION, four valid root keys, no floor, no seal burnt. -/
def Fuses.reset : Fuses :=
  ⟨2, (List.range 4).map fun i => (Config.rootHash i, true, false), [0, 0, 0, 0], 0, List.replicate 16 0,
    Config.sha512 Config.debugPub, Config.sha512 Config.meterAuthPub, none⟩

/-- The meter after a power-on reset: STARTING, with the flash it kept (R408, R409). -/
def Meter.reset (fl : MeterFlash) : Meter :=
  ⟨0, 0, 0, 0, (0, 0, 0), 0xFFFFFFFF, 0, 0, 0, 0, false, false, false, false, false, false, 0, 0, 0, 0, 0, 0, ⟨0, 0, []⟩, [], none, [],
    [], [], fl, [], 0⟩

/-- The module right after the power-on reset at its first power-good (R22, R439): device time 0, start-up in its first stage, an
erased image store, a meter that has never started. -/
def State.reset : State where
  pending := []
  clock := ⟨0, 0, true, false, 0⟩
  fuses := Fuses.reset
  store := ⟨[]⟩
  meter := Meter.reset ⟨0, 0, 0, []⟩
  dev := Dev.reset

end Sys2Proof.Machine
end

