-- ==== Sys2Proof/Machine/Ops.lean ====
section
/-! DEFINITION. Operations that every chapter uses: register values, event records, replies, the life of a command,
and the packet frame of a meaning. -/

namespace Sys2Proof

/-- The number of a function. -/
def Fn.idx (f : Fn) : Nat := f.port * 32 + f.num

/-- Whether a function exists: port 0 or 1, PF or VF 1 to 16 (R39). -/
def Fn.ok (f : Fn) : Bool := f.port < 2 && f.num ≤ 16

/-- Word n of a packet. -/
def Cmd.w (c : Cmd) (n : Nat) : Word := (c.words[n]?).getD 0

/-- The opcode of a packet. -/
def Cmd.op (c : Cmd) : Nat := Machine.wfld (c.w 0) 15 0

/-- The partition field of a packet. -/
def Cmd.part (c : Cmd) : Nat := Machine.wfld (c.w 1) 19 16

end Sys2Proof

namespace Sys2Proof.Machine

/-! ### Lifting -/

/-- The read-only part of the state. -/
def State.ctx (s : State) : Ctx := ⟨s.clock.now, s.clock.wall, s.fuses, s.store, s.meter, s.clock.order⟩

/-- A meaning that changes the dies, HBM and NAND only; while power-good is low no logic runs (R463). -/
def onDev (f : Ctx → Dev → Dev) (s : State) : Host.Outcome State Fault Refusal :=
  .next (if s.clock.power then { s with dev := f s.ctx s.dev } else s)

/-! ### Keys -/

/-- The function of a number. -/
def fnOf (i : Nat) : Fn := ⟨i / 32, i % 32⟩

/-- The physical function of a port. -/
def pfOf (port : Nat) : Fn := ⟨port, 0⟩

/-- The key of a register value of the device, of a partition, of a function. -/
def devKey (off : Nat) : Nat := off
def partKey (p off : Nat) : Nat := (1 + p) * 2 ^ 32 + off
def fnKey (f : Fn) (off : Nat) : Nat := (32 + f.idx) * 2 ^ 32 + off

/-- The ticks of a millisecond. -/
def ticksMs : Nat := 125000

/-! ### Register values -/

/-- The active value of a device register. -/
def Dev.devReg (d : Dev) (off : Nat) : Nat := tgetD d.regs.act (devKey off) (resetOf off)

/-- The active value of partition p's register. -/
def Dev.partReg (d : Dev) (p off : Nat) : Nat := tgetD d.regs.act (partKey p off) (resetOf off)

/-- The value of an RW register kept as written. -/
def Dev.rwReg (d : Dev) (key off : Nat) : Nat := tgetD d.regs.rw key (resetOf off)

/-- Replaces the counters. -/
def Dev.withCnt (d : Dev) (c : Tbl Nat) : Dev := { d with regs := { d.regs with cnt := c } }

/-- Adds to a counter that saturates at 32 bits. -/
def Dev.bump (d : Dev) (key n : Nat) : Dev := d.withCnt (tset d.regs.cnt key (satAdd top32 (tgetD d.regs.cnt key 0) n))

/-- Adds to a counter of partition p, and to a counter of the device. -/
def Dev.bumpPart (d : Dev) (p off n : Nat) : Dev := d.bump (partKey p off) n
def Dev.bumpDev (d : Dev) (off n : Nat) : Dev := d.bump (devKey off) n

/-- A free value (log entry 5): the counter it is read at advances. -/
def Dev.takeFree (d : Dev) : Nat × Dev := (Config.freeNat d.free, { d with free := d.free + 1 })

/-- Sends something out. -/
def Dev.out (d : Dev) (o : Out) : Dev := { d with outs := o :: d.outs }

/-- The activity tap of the meter (R411): counter k of partition p rises by n. -/
def Dev.tapAdd (d : Dev) (p k n : Nat) : Dev :=
  let l := tgetD d.tap p (List.replicate 8 0)
  { d with tap := tset d.tap p (l.set k ((l[k]?).getD 0 + n)) }

/-! ### Hosts and ports -/

/-- The state of a port. -/
def Dev.port (d : Dev) (n : Nat) : PciePort := tgetD d.ports n PciePort.reset

/-- The host of a partition. -/
def Dev.host (d : Dev) (p : Nat) : PartHost := tgetD d.parts p .unbound

/-- Whether partition p is bound to a port. -/
def Dev.boundTo (d : Dev) (p port : Nat) : Bool := d.host p == .bound port

/-- The port that partition p is bound to. -/
def Dev.boundPort (d : Dev) (p : Nat) : Option Nat :=
  match d.host p with
  | .bound q => some q
  | _ => none

/-- Whether a function is the PF of the control host (R66). -/
def Dev.isCtrl (d : Dev) (f : Fn) : Bool := f.num == 0 && f.port == d.ctrlPort && !(d.port f.port).lost

/-- Whether the module is READY (R448). -/
def Dev.ready (d : Dev) : Bool := d.boot.state == 6

/-- The partition whose values a function's partition registers address (R27): the one that CFG_VIEW selects for a PF, the VF's own;
either way only while it is bound to the function's port (R27, R40; log entry 86). -/
def Dev.viewPart (d : Dev) (f : Fn) : Option Nat :=
  if f.num = 0 then
    let v := (tgetD d.cfg f.idx CfgFn.reset).view
    if d.boundTo v f.port then some v else none
  else if d.boundTo (f.num - 1) f.port then some (f.num - 1)
  else none

/-! ### Event records (R430-R438) -/

/-- The capacity of a path for records other than ALARM (R433). -/
def pathCap (k : Nat) : Nat := if k = 18 then 256 else 7168

/-- The path numbers of a partition, of a PF and of the sideband (R433). -/
def pfPath (port : Nat) : Nat := 16 + port
def sidebandPath : Nat := 18

/-- The function whose event ring a path delivers to (R433). -/
def Dev.pathFn (d : Dev) (k : Nat) : Option Fn :=
  if k < 16 then
    match d.boundPort k with
    | some q =>
      let vf : Fn := ⟨q, k + 1⟩
      if (tgetD d.eqs vf.idx Eq.reset).en then some vf else some (pfOf q)
    | none => none
  else if k < 18 then some (pfOf (k - 16))
  else none

/-- Whether a TRACE record of a code is placed on a path (R430). -/
def Dev.traceOn (d : Dev) (k code : Nat) : Bool :=
  match d.pathFn k with
  | some f => bitAt (tgetD d.eqs f.idx Eq.reset).traceEn (code - 0x300)
  | none => false

/-- The staged records of a path that are not ALARM. -/
def Path.others (p : Path) : Nat := (p.staged.filter fun r => r.cls != .alarm).length

/-- The list without the first record of class `c`, if there is one. -/
def dropFirst (c : RecClass) : List Rec → Option (List Rec)
  | [] => none
  | r :: rs => if r.cls = c then some rs else (dropFirst c rs).map (r :: ·)

/-- An ALARM merged into the staged ALARM with the same SOURCE and CODE (R437); a DROP's arguments are added. -/
def mergeAlarm (n : Rec) : List Rec → Option (List Rec)
  | [] => none
  | r :: rs =>
    if r.cls = .alarm ∧ r.source = n.source ∧ r.code = n.code ∧ r.anon = n.anon then
      let rep := satAdd 0xFFFF r.rep 1
      let sat (a b : Word) : Word := wd (satAdd top32 a.toNat b.toNat)
      if n.code = 7 then
        some ({ r with rep := rep, time := n.time, a0 := sat r.a0 n.a0, a1 := sat r.a1 n.a1, a2 := sat r.a2 n.a2 } :: rs)
      else some ({ r with rep := rep, time := n.time, a0 := n.a0, a1 := n.a1, a2 := n.a2 } :: rs)
    else (mergeAlarm n rs).map (r :: ·)

/-- Counts drops of a path by class (R436, R438). -/
def Path.countT (p : Path) : Path := { p with dropT := satAdd top32 p.dropT 1, sinceT := satAdd top32 p.sinceT 1 }
def Path.countL (p : Path) : Path := { p with dropL := satAdd top32 p.dropL 1, sinceL := satAdd top32 p.sinceL 1 }
def Path.countF (p : Path) : Path := { p with dropF := satAdd top32 p.dropF 1, sinceF := satAdd top32 p.sinceF 1 }

/-- The class of R24 of the event that acts; `order` counts in steps of 2^19 for a class (log entry 80). -/
def Ctx.cls (x : Ctx) : Nat := x.order / 2 ^ 19

/-- A record put in its place (R435): behind every record of an earlier event; among those of one tick and one class, by SOURCE. -/
def insertRec (r : Rec) : List Rec → List Rec
  | [] => [r]
  | q :: l => if q.raised = r.raised ∧ r.source < q.source then r :: q :: l else q :: insertRec r l

/-- A record staged on a path, with the overload rules of R436 and R437. -/
def Path.place (cap : Nat) (p : Path) (r : Rec) : Path :=
  match r.cls with
  | .alarm =>
    match mergeAlarm r p.staged with
    | some l => { p with staged := l }
    | none => { p with staged := insertRec r p.staged }
  | .trace => if p.others < cap then { p with staged := insertRec r p.staged } else p.countT
  | .log =>
    if p.others < cap then { p with staged := insertRec r p.staged }
    else match dropFirst .trace p.staged with
      | some l => { p with staged := insertRec r l }.countT
      | none => p.countL
  | .fault =>
    if p.others < cap then { p with staged := insertRec r p.staged }
    else match dropFirst .trace p.staged with
      | some l => { p with staged := insertRec r l }.countT
      | none =>
        match dropFirst .log p.staged with
        | some l => { p with staged := insertRec r l }.countL
        | none => p.countF

/-- A record placed on path k; a TRACE only where it is enabled (R430). -/
def Dev.place (d : Dev) (k : Nat) (r : Rec) : Dev :=
  if r.cls = .trace ∧ !d.traceOn k r.code then d
  else { d with paths := tset d.paths k ((tgetD d.paths k Path.reset).place (pathCap k) r) }

/-- SOURCE of a block's unit (R430, R431). -/
def source (block unit : Nat) : Nat := block * 1024 + unit

/-- A partition record on its partition's path (R433). -/
def Dev.recPart (d : Dev) (x : Ctx) (p : Nat) (cls : RecClass) (code src : Nat) (a0 a1 a2 : Word) : Dev :=
  d.place p ⟨cls, code, src, false, 0, x.now, a0, a1, a2, false, p, (x.now, x.cls)⟩

/-- The arguments of a device fault as a partition sees them: object identifiers are zero (R392). -/
def anonArgs (code : Nat) (a0 a1 a2 : Word) : Word × Word × Word :=
  if code = 0x100 ∨ code = 0x104 then (0, a1, a2)
  else if code = 0x102 then (a0 &&& 0xF0000, 0, a2)
  else if code = 0x103 then (0, 0, a2)
  else (a0, a1, a2)

/-- The anonymous copy of a device fault on every bound partition's path (R392, R433): SOURCE 0. -/
def Dev.recAnon (d : Dev) (x : Ctx) (code : Nat) (a0 a1 a2 : Word) : List Nat → Dev
  | [] => d
  | p :: ps =>
    let a := anonArgs code a0 a1 a2
    (if (d.boundPort p).isSome then d.place p ⟨.fault, code, 0, true, 0, x.now, a.1, a.2.1, a.2.2, true, 0, (x.now, x.cls)⟩ else d).recAnon x code a0 a1 a2
      ps

/-- A device record on a PF path, with its copies (R433): ALARM and FAULT to the sideband, FAULT anonymously to the
bound partitions. -/
def Dev.recDevTo (d : Dev) (x : Ctx) (port : Nat) (cls : RecClass) (code src : Nat) (a0 a1 a2 : Word) : Dev :=
  let r : Rec := ⟨cls, code, src, false, 0, x.now, a0, a1, a2, true, 0, (x.now, x.cls)⟩
  let d := d.place (pfPath port) r
  match cls with
  | .alarm => d.place sidebandPath r
  | .fault => (d.place sidebandPath r).recAnon x code a0 a1 a2 (List.range 16)
  | _ => d

/-- A device record to the control host (R433). -/
def Dev.recDev (d : Dev) (x : Ctx) (cls : RecClass) (code src : Nat) (a0 a1 a2 : Word) : Dev :=
  d.recDevTo x d.ctrlPort cls code src a0 a1 a2

/-! ### MSI-X (R44) -/

/-- The words of a function's MSI-X table by block offset, and after them its pending-bit array; each function's in `Dev.msix` (R44). -/
def msixKey (f : Fn) (off : Nat) : Nat := f.idx * 0x1000 + (off - 0x017000)
def msixPba (f : Fn) : Nat := msixKey f 0x017800

/-- A word of the table: right after reset every entry is masked, as PCI Express has it (log entry 43). -/
def Dev.msixWord (d : Dev) (f : Fn) (off : Nat) : Word := tgetD d.msix (msixKey f off) (if off % 16 = 12 ∧ off < 0x017800 then 1 else 0)

/-- Whether an entry of a function is masked, and its pending bits. -/
def Dev.msixMasked (d : Dev) (f : Fn) (n : Nat) : Bool := bitAt (d.msixWord f (0x01700C + 16 * n)).toNat 0
def Dev.msixPend (d : Dev) (f : Fn) : Nat := (tgetD d.msix (msixPba f) 0).toNat

/-- An entry fires: its message is sent, or its pending bit is set while it is masked (R44; log entry 43). -/
def Dev.fire (d : Dev) (f : Fn) (n : Nat) : Dev :=
  if d.msixMasked f n then { d with msix := tset d.msix (msixPba f) (wd (setBit (d.msixPend f) n)) } else d.out (.msix f n)

/-- A write to the table; the entry that it unmasks sends the message that was pending. -/
def Dev.msixWrite (d : Dev) (f : Fn) (off : Nat) (w : Word) : Dev :=
  let n := (off - 0x017000) / 16
  let d := { d with msix := tset d.msix (msixKey f off) w }
  if bitAt (d.msixPend f) n && !d.msixMasked f n then
    { d with msix := tset d.msix (msixPba f) (wd (clrBit (d.msixPend f) n)) }.out (.msix f n)
  else d

/-! ### Replies (R51-R53, R68-R72) -/

/-- The 32 bytes of a reply entry (R51), with the phase of the ring's pass. -/
def Reply.bytes (e : Reply) (phase : Bool) : List Byte :=
  wordBytes ([wd (e.status.code * 65536 + e.tag),
    wd ((if phase then 2 ^ 31 else 0) + (if e.adopted then 2 ^ 30 else 0) + e.sq * 4096 + e.slot), loW e.time, hiW e.time] ++ e.res)

/-- A reply ring of a function. -/
def Dev.rq (d : Dev) (f n : Nat) : Rq := tgetD d.rqs (f * 16 + n) Rq.reset

/-- Replaces a reply ring. -/
def Dev.setRq (d : Dev) (f n : Nat) (r : Rq) : Dev := { d with rqs := tset d.rqs (f * 16 + n) r }

/-- A submission ring of a function. -/
def Dev.sq (d : Dev) (f n : Nat) : Sq := tgetD d.sqs (f * 16 + n) Sq.reset

/-- Replaces a submission ring. -/
def Dev.setSq (d : Dev) (f n : Nat) (r : Sq) : Dev := { d with sqs := tset d.sqs (f * 16 + n) r }

/-- The entries of a reply ring. -/
def Rq.cap (r : Rq) : Nat := 2 ^ r.size

/-- A reply ring is full when the entry at TAIL is the one just before HEAD (R52). -/
def Rq.full (r : Rq) : Bool := (r.tail + 1) % r.cap == r.head

/-- One entry written at TAIL: PHASE inverts on a wrap, and the vector fires under R53. -/
def Dev.writeEntry (d : Dev) (x : Ctx) (f n : Nat) (e : Reply) : Dev :=
  let r := d.rq f n
  let t := (r.tail + 1) % r.cap
  let d := d.out (.reply (fnOf f) n (r.base + 32 * r.tail) (e.bytes r.phase))
  let cnt := r.unsig + 1
  let fire := r.coalCount ≠ 0 ∧ (e.irqNow = true ∨ cnt ≥ r.coalCount)
  let r := { r with tail := t, phase := if t = 0 then !r.phase else r.phase }
  if fire then
    (d.setRq f n { r with unsig := 0, firstUnsig := none }).fire (fnOf f) r.vector
  else
    d.setRq f n { r with unsig := cnt, firstUnsig := some (r.firstUnsig.getD x.now) }

/-- A reply handed to a ring: written, or held behind earlier held replies or while the ring is full (R52). A port that
is lost, and a ring that is not enabled, take nothing. -/
def Dev.pushReply (d : Dev) (x : Ctx) (f n : Nat) (e : Reply) : Dev :=
  let r := d.rq f n
  if !r.en || r.state != 1 || (d.port (f / 32)).lost then d
  else if r.full || !r.held.isEmpty then d.setRq f n { r with held := r.held ++ [e] }
  else d.writeEntry x f n e

/-- Held replies written in order while entries are free (R52). -/
def Dev.flushHeld (d : Dev) (x : Ctx) (f n : Nat) : Nat → Dev
  | 0 => d
  | k + 1 =>
    let r := d.rq f n
    match r.held with
    | [] => d
    | e :: es => if r.full then d else ((d.setRq f n { r with held := es }).writeEntry x f n e).flushHeld x f n k

/-- The key of a command's orphan store: its partition, or 16 for the device store (R68). -/
def CmdRec.key (c : CmdRec) : Nat := c.part.getD 16

/-- Pushes a list of replies to rings, in order. -/
def Dev.pushAll (d : Dev) (x : Ctx) : List (Nat × Nat × Reply) → Dev
  | [] => d
  | (f, n, e) :: l => (d.pushReply x f n e).pushAll x l

/-- Whether a command of an orphan key is still outstanding. -/
def Dev.orphansLeft (d : Dev) (k : Nat) : Bool := d.cmds.any fun c => c.fate == .orphan && c.key == k

/-- Whether a ring still holds replies of a former host back. -/
def Dev.heldAdopted (d : Dev) (k : Nat) : Option (Nat × Nat) → Bool
  | some (f, n) => (d.rq f n).held.any fun e => e.adopted && e.owner == k
  | none => true

/-- Once the former host's replies are all written, the new host's replies that waited go out (R70). -/
def Dev.adoptDone (d : Dev) (x : Ctx) (k : Nat) : Dev :=
  match tget d.adopts k with
  | some a =>
    if !d.heldAdopted k a.ring && !d.orphansLeft k && (tgetD d.orphans k []).isEmpty then
      ({ d with adopts := tdel d.adopts k }).pushAll x a.waiting
    else d
  | none => d

/-- Stored orphan replies go to the ring chosen for them, in order (R70). -/
def Dev.adoptRing (d : Dev) (x : Ctx) (k f n : Nat) : Dev :=
  match tget d.adopts k with
  | some a =>
    if a.ring.isSome then d
    else
      let l := (tgetD d.orphans k []).map fun e => (f, n, e)
      let d := { d with adopts := tset d.adopts k { a with ring := some (f, n) }, orphans := tdel d.orphans k }
      (d.pushAll x l).adoptDone x k
  | none => d

/-- One reply of a command, on the way its fate and an adoption give it (R51, R68, R70, R72). -/
def Dev.reply (d : Dev) (x : Ctx) (c : CmdRec) (st : Status) (res : List Word) : Dev :=
  let e : Reply := ⟨st, c.tag, c.fate == .orphan, c.sq, c.slot, x.now, (res ++ [0, 0, 0, 0]).take 4, c.irqNow, c.key, d.nextReply⟩
  let d := { d with nextReply := d.nextReply + 1 }
  match c.fate with
  | .dropped => d
  | .orphan =>
    match tget d.adopts c.key with
    | some ⟨some (f, n), _, _⟩ => d.pushReply x f n e
    | _ => { d with orphans := tset d.orphans c.key (tgetD d.orphans c.key [] ++ [e]) }
  | .live =>
    let hold (k : Nat) : Bool :=
      match tget d.adopts k with
      | some a => decide (a.since ≤ c.seq)
      | none => false
    let k := c.key
    if c.part.isSome && hold k then
      let a := tgetD d.adopts k ⟨none, 0, []⟩
      { d with adopts := tset d.adopts k { a with waiting := a.waiting ++ [(c.fn.idx, c.rq, e)] } }
    else if d.isCtrl c.fn && c.sq == 0 && hold 16 then
      let a := tgetD d.adopts 16 ⟨none, 0, []⟩
      { d with adopts := tset d.adopts 16 { a with waiting := a.waiting ++ [(c.fn.idx, c.rq, e)] } }
    else d.pushReply x c.fn.idx c.rq e

/-- The final reply of a command: it stops being outstanding, and TRACE CMD_DONE is sent (R57, R432). -/
def Dev.endCmd (d : Dev) (x : Ctx) (c : CmdRec) (st : Status) (res : List Word) : Dev :=
  let d := d.reply x c st res
  let d := { d with cmds := d.cmds.filter fun e => e.seq != c.seq }
  let a0 := wd (c.op + c.tag * 65536)
  let d := match c.part with
    | some p => d.recPart x p .trace 0x302 (source 1 (Config.controlCore c.seq % 8)) a0 (wd st.code) (wd c.sq)
    | none => d.recDevTo x c.fn.port .trace 0x302 (source 1 (Config.controlCore c.seq % 8)) a0 (wd st.code) (wd c.sq)
  if c.fate = .orphan then d.adoptDone x c.key else d

/-! ### Draining (R35) -/

/-- The end of an operation that some slice may be draining for: its number leaves the lists, and a slice whose list
is empty stops draining. Operation numbers of different blocks differ by the block in `drainId`. -/
def Dev.drainEnd (d : Dev) (id : Nat) : Dev :=
  { d with drains := (d.drains.map fun r => { r with ops := r.ops.filter (· != id) }).filter fun r => !r.ops.isEmpty }

/-- A number for operation `n` of a block. -/
def drainId (block n : Nat) : Nat := n * 32 + block

/-- Whether a register value belongs to a slice that a mask names. -/
def inSlice (scope mask key : Nat) : Bool :=
  key / 2 ^ 32 == (if scope = 16 then 0 else scope + 1) && bitAt mask (key % 2 ^ 32 / 0x10000)

/-- The values of `a` outside the slice with those of `b` inside it. -/
def sliceMix (scope mask : Nat) (a b : Tbl Nat) : Tbl Nat :=
  (b.filter fun e => inSlice scope mask e.1).foldl (fun t e => tset t e.1 e.2) (a.filter fun e => !inSlice scope mask e.1)

/-- Whether an operation started before a swap that some slice is draining for. -/
def Dev.oldSet (d : Dev) (id : Nat) : Bool := d.drains.any fun r => r.ops.contains id

/-- Registers of the slices of one block exchanged. -/
def Dev.swapRegs (d : Dev) (block scope : Nat) : Dev :=
  { d with regs := { d.regs with
    act := sliceMix scope (2 ^ block) d.regs.act d.regs.shd
    shd := sliceMix scope (2 ^ block) d.regs.shd d.regs.act } }

/-- What an operation does under the set it started with (R35): until its slice has drained, that set stands in the shadow slice. -/
def Dev.underOld (d : Dev) (block id : Nat) (f : Dev → Dev) : Dev :=
  let l := (d.drains.filter fun r => r.block == block && r.ops.contains id).map Drain.scope
  l.foldl (fun d s => d.swapRegs block s) (f (l.foldl (fun d s => d.swapRegs block s) d))

/-- The final reply of an operation, to its ring or to the engine that posted it (R54, R60). -/
def Dev.endOp (d : Dev) (x : Ctx) (id : Nat) (st : Status) (res : List Word) : Dev :=
  match tget d.ops id with
  | none => d
  | some o =>
    let d := ({ d with ops := tdel d.ops id }.drainEnd (drainId 3 id)).drainEnd (drainId 13 id)
    match o.src with
    | .engine e => d.out (.engine e id st res)
    | .ring _ _ _ =>
      match d.cmds.find? fun c => c.seq == id with
      | some c => d.endCmd x c st res
      | none => d

/-- The operation of a number changed. -/
def Dev.setOp (d : Dev) (id : Nat) (k : OpKind) : Dev := { d with ops := tmod d.ops id fun o => { o with kind := k } }

/-! ### The frame of a host command -/

/-- A command as its meaning sees it: sequence number, issuing function (none for an engine), partition acted on,
words, and arrival tick. -/
structure Req where
  seq : Nat
  fn : Option Fn
  sq : Nat
  part : Nat
  src : CmdSrc
  words : List Word
  arrival : Nat

/-- Word n of a command. -/
def Req.w (q : Req) (n : Nat) : Word := (q.words[n]?).getD 0

/-- Bits [hi:lo] of word n. -/
def Req.f (q : Req) (n hi lo : Nat) : Nat := wfld (q.w n) hi lo

/-- Two words as a 64-bit number, low word first. -/
def Req.d2 (q : Req) (n : Nat) : Nat := dw (q.w n) (q.w (n + 1))

/-- Whether every parameter word holds only the bits that `allow` gives it; words that are not listed are reserved
(R3, R50 step 7). -/
def Req.clean (q : Req) (allow : List (Nat × Nat)) : Bool :=
  (List.range (q.words.length - 2)).all fun i =>
    let m := (allow.find? fun a => a.1 == i + 2).elim 0 Prod.snd
    (q.w (i + 2)).toNat &&& (top32 - m) == 0

/-- What a meaning answers: a refusal; the one reply of class I or A; acceptance of a class D operation; or acceptance
and the final reply at once. -/
inductive Ans where
  | refuse (st : Status)
  | done (st : Status) (res : List Word) (d : Dev)
  | accept (res : List Word) (k : OpKind) (d : Dev)
  | both (res : List Word) (st : Status) (fin : List Word) (d : Dev)

/-- The command record that a row's command answers to: started, and not yet accepted. -/
def Dev.startedRec (d : Dev) (c : Cmd) (op : Nat) : Option CmdRec :=
  d.cmds.find? fun r => r.cmd == c && r.phase == .started && r.op == op

/-- Whether the engine instance that holds the object which word 2 of a command names is out of service (R423): of Tiller the session's
die, of Culm the first extent's, of Reed the queue pair's, of Panicle the index's (log entry 32). -/
def Dev.engineDown (d : Dev) (op : Nat) (words : List Word) (p : Nat) : Bool :=
  let n := ((words[2]?).getD 0).toNat
  let down (block unit : Nat) : Bool := thas d.offline (block * 1024 + unit)
  let one (l : List Nat) : Bool := l.contains op
  if one [0x0101, 0x0102, 0x0103, 0x0104, 0x0105, 0x0107, 0x0108] then
    (tget d.ses.tbl (n / 2 ^ 28 * 2 ^ 24 + n % 2 ^ 24)).elim false fun s => down 3 s.die
  else if one [0x0201, 0x0202, 0x0204, 0x0210] then
    (tget d.mem.bufs (p * 524288 + n % 2 ^ 19)).elim false fun b => down 4 ((b.base - 0x10000000000) / 0xC00000000 / 8)
  else if one [0x0601, 0x0602, 0x0603, 0x0610] then (tget d.net.qps n).elim false fun q => down 9 (16 + q.sub / 8)
  else if one [0x0701, 0x0702, 0x0703, 0x0704, 0x0705, 0x0706] then (tget d.pan.idx n).elim false fun i => down 11 i.die
  else false

/-- The sessions (0), models (1), adapter versions (2), indexes (3), keys (4) and queue pairs (5) that a command acts on, as kind and
number (R56); `w` are its words and p its partition. -/
def opObjects (op p : Nat) (w : Nat → Nat) : List (Nat × Nat) :=
  let ses (n : Nat) : Nat × Nat := (0, w n / 2 ^ 28 * 2 ^ 24 + w n % 2 ^ 24)
  let mdl : Nat × Nat := (1, w 2 % 65536)
  let one (l : List Nat) : Bool := l.contains op
  if op = 0x0100 then [mdl, (2, w 2 / 65536)]
  else if op = 0x0104 then [ses 2, (5, w 3 % 2 ^ 20)]
  else if op = 0x0106 then [mdl, (2, w 2 / 65536), (5, w 4 % 2 ^ 20)]
  else if op / 256 = 1 ∨ one [0x0310, 0x0400, 0x0401, 0x0402, 0x0403, 0x0503] then [ses 2]
  else if one [0x0301, 0x0302, 0x0303, 0x0304, 0x0305, 0x0306, 0x0318, 0x0319, 0x031B, 0x0320, 0x0410, 0x0501, 0x0504, 0x0505] then [mdl]
  else if op = 0x0311 then [mdl, (2, w 2 / 65536)]
  else if op = 0x031A then [(2, w 2 % 65536)]
  else if op = 0x0618 then [(5, w 2 % 2 ^ 20)] ++ if w 7 = 0 then [] else [ses 7]
  else if one [0x0601, 0x0602, 0x0603, 0x0610, 0x0619] then [(5, w 2 % 2 ^ 20)]
  else if one [0x0701, 0x0702, 0x0703, 0x0704, 0x0705, 0x0706, 0x070A] then [(3, w 2 % 65536)]
  else if one [0x0220, 0x0221, 0x0222] then [(4, p)]
  else if op = 0x0904 then [(4, 16 + w 2 % 8192)]
  else []

/-- The objects of a command record. -/
def CmdRec.objects (r : CmdRec) : List (Nat × Nat) := opObjects r.op (r.part.getD 0) fun n => (r.cmd.w n).toNat

/-- Whether a command that arrived earlier, and has not taken effect yet, acts on an object of this one (R56). -/
def Dev.behind (d : Dev) (r : CmdRec) : Bool :=
  d.cmds.any fun e => decide (e.seq < r.seq) && e.phase != .accepted && e.objects.any fun o => r.objects.contains o

/-- A command that has started runs (R64), once those that arrived before it on its objects have (R56): refused, answered once, or accepted
with its operation kept. A packet that an engine posts to Culm, Spelt or Reed runs at once and answers the engine (R60). -/
def runCmd (op : Nat) (c : Cmd) (body : Ctx → Req → Dev → Ans) (x : Ctx) (d : Dev) : Dev :=
  match c.src with
  | .ring _ _ _ =>
    match d.startedRec c op with
    | none => d
    | some r =>
      let q : Req := ⟨r.seq, some r.fn, r.sq, r.part.getD 0, c.src, c.words, r.arrival⟩
      if d.behind r then d
      else match if d.engineDown op c.words q.part then .refuse .deviceFault else body x q d with
      | .refuse st => d.endCmd x r st []
      | .done st res d' => d'.endCmd x r st res
      | .accept res k d' =>
        let d' := d'.reply x r .accepted res
        { d' with
          cmds := d'.cmds.map fun e => if e.seq = r.seq then { e with phase := .accepted } else e
          ops := tset d'.ops r.seq ⟨c.src, r.part.getD 0, k, false⟩ }
      | .both res st fin d' => (d'.reply x r .accepted res).endCmd x r st fin
  | .engine e =>
    if c.op = op ∧ (op / 256 = 2 ∨ op / 256 = 5 ∨ op / 256 = 6) then
      let q : Req := ⟨d.nextSeq, none, 0, c.part, c.src, c.words, x.now⟩
      let d := { d with nextSeq := d.nextSeq + 1 }
      match if d.engineDown op c.words q.part then .refuse .deviceFault else body x q d with
      | .refuse st => d.out (.engine e q.seq st [])
      | .done st res d' => d'.out (.engine e q.seq st res)
      | .accept res k d' => { d' with ops := tset d'.ops q.seq ⟨c.src, q.part, k, false⟩ }.out (.engine e q.seq .accepted res)
      | .both _ st fin d' => d'.out (.engine e q.seq st fin)
    else d

/-- The meaning of a host opcode's row. -/
def hostCmd (op : Nat) (c : Cmd) (body : Ctx → Req → Dev → Ans) (s : State) : Host.Outcome State Fault Refusal :=
  onDev (runCmd op c body) s

end Sys2Proof.Machine
end

