-- ==== Sys2Proof/Machine/MemOps.lean ====
section
/-! DEFINITION. The device address map, HBM contents and allocation, buffer space, frozen objects, the FTL's units and
Culm's descriptors (chapters 5 and 6 of the spec). -/

namespace Sys2Proof.Machine

/-- The unit of a home on NAND. -/
def Home.unit? : Home → Option Nat
  | .nand u => some u
  | .hbm _ => none

/-! ### Addresses (R108-R110) -/

def hbmBase : Nat := 0x010000000000
def stackBytes : Nat := 0xC00000000

/-- The base address of stack s. -/
def stackBase (s : Nat) : Nat := hbmBase + s * stackBytes

/-- Whether an address lies in HBM. -/
def isHbm (a : Nat) : Bool := hbmBase ≤ a && a < hbmBase + 16 * stackBytes

/-- Stack, channel, region and Glume unit of an HBM address (R109). -/
def stackOf (a : Nat) : Nat := (a - hbmBase) / stackBytes
def stackOff (a : Nat) : Nat := (a - hbmBase) % stackBytes
def channelOf (a : Nat) : Nat := stackOff a / 2 ^ 16 % 32
def regionOf (a : Nat) : Nat := stackOff a / 2 ^ 30
def unitOf (a : Nat) : Nat := stackOf a * 32 + channelOf a

/-- The die of a stack. -/
def stackDie (s : Nat) : Nat := s / 8

/-- Granule and extent numbers of an address, and the address of a granule and of an extent. -/
def gran (a : Nat) : Nat := a / 32768
def granAddr (g : Nat) : Nat := g * 32768
def extentNo (a : Nat) : Nat := a / 2097152
def extentAddr (e : Nat) : Nat := e * 2097152

/-- What the module finds at a device address (R108). -/
inductive AddrKind where
  | localStore (core off : Nat) | sram (die : Nat) | window | regs | hbm | glAlias | none
deriving DecidableEq, Repr

/-- The decoding of a 48-bit device address (R108). -/
def addrKind (a : Nat) : AddrKind :=
  if a < 0x40000000 then
    if a % 0x400000 < 0x300000 then .localStore (a / 0x400000) (a % 0x400000) else .none
  else if a < 0x43000000 then .sram 0
  else if a < 0x44000000 then .none
  else if a < 0x47000000 then .sram 1
  else if a < 0x48000000 then .none
  else if a < 0x50000000 then .window
  else if a < 0xF0000000 then .none
  else if a < 0x100000000 then .regs
  else if isHbm a then .hbm
  else if isHbm (a - 0x010000000000) && 0x020000000000 ≤ a then .glAlias
  else .none

/-- The granules that `len` bytes from `a` touch. -/
def gransOf (a len : Nat) : List Nat :=
  if len = 0 then [] else (List.range (gran (a + len - 1) + 1 - gran a)).map fun i => gran a + i

/-! ### Region owners and modes (R139, R140) -/

/-- The owner of a region: 0-15 a partition, 16 DEVICE, 30 RESERVED, 31 SHARED. -/
def Dev.regionOwner (d : Dev) (s r : Nat) : Nat :=
  if (s = 0 ∨ s = 8) ∧ r ≥ 40 then 30
  else fld (d.devReg (0x050100 + s * 0x20 + r / 6 * 4)) (5 * (r % 6) + 4) (5 * (r % 6))

/-- Whether a region is in COMPUTE mode. -/
def Dev.isCompute (d : Dev) (s r : Nat) : Bool := d.glm.compute.contains (s * 64 + r)

/-- Whether the granule of an address lies in a COMPUTE region. -/
def Dev.computeAt (d : Dev) (a : Nat) : Bool := isHbm a && d.isCompute (stackOf a) (regionOf a)

/-! ### Contents of HBM -/

/-- Reads one byte: an unlisted byte is zero, as start-up leaves HBM (R447). -/
def memGet (m : List Host.Cell) (a : Nat) : Byte := tgetD m a 0

/-- Writes one byte, keeping the canonical form: zero removes the entry. -/
def memSet (m : List Host.Cell) (a : Nat) (b : Byte) : List Host.Cell := if b = 0 then tdel m a else tset m a b

/-- Reads `n` bytes. -/
def memRead (m : List Host.Cell) (a : Nat) : Nat → List Byte
  | 0 => []
  | n + 1 => memGet m a :: memRead m (a + 1) n

/-- Writes bytes. -/
def memWrite (m : List Host.Cell) (a : Nat) : List Byte → List Host.Cell
  | [] => m
  | b :: bs => memWrite (memSet m a b) (a + 1) bs

/-- The canonical form: addresses strictly rise, and no listed byte is zero. -/
def Memory.wf (m : List Host.Cell) : Bool := Tbl.wf m && m.all fun c => c.2 != 0

/-- The 32-byte codewords that `len` bytes from `a` touch (R155). -/
def codewords (a len : Nat) : List Nat :=
  if len = 0 then [] else (List.range ((a + len - 1) / 32 + 1 - a / 32)).map fun i => a / 32 + i

/-- Numbers added to and taken from a rising list without repeats. -/
def addNum (n : Nat) : List Nat → List Nat
  | [] => [n]
  | k :: ks => if n < k then n :: k :: ks else if n = k then k :: ks else k :: addNum n ks
def addNums (l : List Nat) (t : List Nat) : List Nat := l.foldl (fun t n => addNum n t) t
def delNums (l : List Nat) (t : List Nat) : List Nat := t.filter fun n => !l.contains n

/-- `bs` written over bytes of a string from offset `o`. -/
def splice (l : List Byte) (o : Nat) (bs : List Byte) : List Byte :=
  l.take o ++ List.replicate (o - l.length) 0 ++ bs ++ l.drop (o + bs.length)

/-- Whether any codeword of a range is poisoned. -/
def Dev.poisoned (d : Dev) (a len : Nat) : Bool := (codewords a len).any d.mem.poison.contains

/-- Bytes of HBM. -/
def Dev.hbmRead (d : Dev) (a len : Nat) : List Byte := memRead d.mem.cells a len

/-- A write by the memory controller or on the alias path: it writes whole codewords and clears their poison (R156). -/
def Dev.hbmWrite (d : Dev) (a : Nat) (bs : List Byte) : Dev :=
  { d with mem := { d.mem with cells := memWrite d.mem.cells a bs, poison := delNums (codewords a bs.length) d.mem.poison } }

/-- Poison written over codewords: the data bits stay (R156). -/
def Dev.hbmPoison (d : Dev) (cws : List Nat) : Dev :=
  { d with mem := { d.mem with poison := addNums cws d.mem.poison } }

/-- A granule's content copied with its poison (R117). -/
def Dev.granCopy (d : Dev) (src dst : Nat) : Dev :=
  let bad := (codewords src 32768).filter d.mem.poison.contains
  (d.hbmWrite dst (d.hbmRead src 32768)).hbmPoison (bad.map fun c => c - src / 32 + dst / 32)

/-- Zeroes a range, with its poison cleared (R391). -/
def Dev.hbmZero (d : Dev) (a len : Nat) : Dev :=
  { d with mem :=
    { d.mem with
      cells := d.mem.cells.filter fun c => !(a ≤ c.1 && c.1 < a + len)
      poison := d.mem.poison.filter fun c => !(a / 32 ≤ c && c < (a + len) / 32) } }

/-! ### Allocation -/

/-- Whether a granule is free. -/
def Dev.granFree (d : Dev) (g : Nat) : Bool := !thas d.mem.gran g && !thas d.mem.exts (g / 64)

/-- Whether a whole extent is free. -/
def Dev.extFree (d : Dev) (e : Nat) : Bool := !thas d.mem.exts e && d.mem.gran.all fun g => g.1 / 64 != e

/-- 32 KiB pages of HBM a partition holds (MEM_HBM_USED). -/
def Dev.hbmUsed (d : Dev) (p : Nat) : Nat :=
  64 * (d.mem.exts.filter fun e => e.2 == p).length + (d.mem.gran.filter fun g => g.2.part == p).length

/-- The partition's HBM quota in pages. -/
def Dev.hbmQuota (d : Dev) (p : Nat) : Nat := fld (d.devReg (0x040100 + p * 8)) 9 0 * 32768

/-- Free pages of HBM for partitions (MEM_HBM_FREE): 752 GiB less what is held. -/
def Dev.hbmFree (d : Dev) : Nat := 24641536 - 64 * d.mem.exts.length - d.mem.gran.length

/-- The regions of a stack that a partition may allocate extents in: its own and SHARED ones (R139). -/
def Dev.extRegions (d : Dev) (p s : Nat) : List Nat :=
  (List.range 48).filter fun r => d.regionOwner s r == p || d.regionOwner s r == 31

/-- The first free extent among `n` extents from number e. -/
def Dev.findExt (d : Dev) : Nat → Nat → Option Nat
  | 0, _ => none
  | n + 1, e => if d.extFree e then some e else d.findExt n (e + 1)

/-- The first free extent of the regions of a stack. -/
def Dev.extIn (d : Dev) (s : Nat) : List Nat → Option Nat
  | [] => none
  | r :: rs =>
    match d.findExt 512 (extentNo (stackBase s) + r * 512) with
    | some e => some e
    | none => d.extIn s rs

/-- The first free extent of a list of stacks for partition p; the spec leaves the choice open, and the model takes
the lowest address (log entry 12). -/
def Dev.extAny (d : Dev) (p : Nat) : List Nat → Option Nat
  | [] => none
  | s :: ss =>
    match d.extIn s (d.extRegions p s) with
    | some e => some e
    | none => d.extAny p ss

/-- `n` extents taken for partition p, zeroed (R391), or none when they are not there. -/
def Dev.takeExts (d : Dev) (p : Nat) (sts : List Nat) : Nat → Option (List Nat × Dev)
  | 0 => some ([], d)
  | n + 1 =>
    match d.extAny p sts with
    | none => none
    | some e =>
      let d := { d with mem := { d.mem with exts := tset d.mem.exts e p } }
      match (d.hbmZero (extentAddr e) 2097152).takeExts p sts n with
      | none => none
      | some (es, d') => some (e :: es, d')

/-- Extents given back. -/
def Dev.freeExts (d : Dev) (es : List Nat) : Dev :=
  { d with mem := { d.mem with exts := es.foldl tdel d.mem.exts } }

/-- A granule taken for a use, and given back. -/
def Dev.takeGran (d : Dev) (p g : Nat) (u : GranUse) : Dev :=
  ({ d with mem := { d.mem with gran := tset d.mem.gran g ⟨p, u⟩ } }).hbmZero (granAddr g) 32768
def Dev.freeGran (d : Dev) (g : Nat) : Dev := { d with mem := { d.mem with gran := tdel d.mem.gran g } }

/-- One granule released: held on its own, or out of a whole extent whose other granules stay in use. -/
def Dev.freeOne (d : Dev) (g : Nat) : Dev :=
  if thas d.mem.gran g then d.freeGran g
  else
    match tget d.mem.exts (g / 64) with
    | none => d
    | some p =>
      let rest := ((List.range 64).map fun i => g / 64 * 64 + i).filter (· != g)
      { d with mem :=
        { d.mem with exts := tdel d.mem.exts (g / 64), gran := rest.foldl (fun t k => tset t k ⟨p, .work⟩) d.mem.gran } }

/-- The first free granule among `n` granules from number g, `step` apart. -/
def Dev.findGran (d : Dev) (step : Nat) : Nat → Nat → Option Nat
  | 0, _ => none
  | n + 1, g => if d.granFree g then some g else d.findGran step n (g + step)

/-- The first free granule of the NORMAL regions, owned by p or SHARED, of a stack (R216). -/
def Dev.normalIn (d : Dev) (p s : Nat) : List Nat → Option Nat
  | [] => none
  | r :: rs =>
    let ok := (d.regionOwner s r == p || d.regionOwner s r == 31) && !d.isCompute s r
    match if ok then d.findGran 1 32768 (gran (stackBase s) + r * 32768) else none with
    | some g => some g
    | none => d.normalIn p s rs

/-- A 32 KiB page of a NORMAL region for partition p within its quota (R216); the lowest address (log entry 12). -/
def Dev.takePage (d : Dev) (p : Nat) (u : GranUse) : Option (Nat × Dev) :=
  if d.hbmUsed p + 1 > d.hbmQuota p then none
  else
    match (List.range 16).findSome? fun s => d.normalIn p s (List.range 48) with
    | some g => some (g, d.takeGran p g u)
    | none => none

/-- The lowest clear bit of a 32-bit map. -/
def clearBit (m : Nat) : Option Nat := (List.range 32).find? fun i => !bitAt m i

/-- One 1 KiB block for partition p: from a page it holds for blocks, or from a new page (R216). The block is named by
its device address. -/
def Dev.takeBlk (d : Dev) (p : Nat) : Option (Nat × Dev) :=
  let room := d.mem.gran.findSome? fun g =>
    match g.2.use with
    | .blocks m => if g.2.part = p then (clearBit m).map fun i => (g.1, m, i) else none
    | _ => none
  match room with
  | some (g, m, i) =>
    some (granAddr g + 1024 * i, { d with mem := { d.mem with gran := tset d.mem.gran g ⟨p, .blocks (m + 2 ^ i)⟩ } })
  | none =>
    match d.takePage p (.blocks 1) with
    | some (g, d) => some (granAddr g, d)
    | none => none

/-- `n` blocks. -/
def Dev.takeBlks (d : Dev) (p : Nat) : Nat → Option (List Nat × Dev)
  | 0 => some ([], d)
  | n + 1 =>
    match d.takeBlk p with
    | none => none
    | some (a, d) =>
      match d.takeBlks p n with
      | none => none
      | some (as, d) => some (a :: as, d)

/-- Blocks given back; a page whose last block is freed is released (R216). -/
def Dev.freeBlks (d : Dev) : List Nat → Dev
  | [] => d
  | a :: as =>
    match tget d.mem.gran (gran a) with
    | some ⟨p, .blocks m⟩ =>
      let m := clrBit m (a % 32768 / 1024)
      if m = 0 then (d.freeGran (gran a)).freeBlks as
      else ({ d with mem := { d.mem with gran := tset d.mem.gran (gran a) ⟨p, .blocks m⟩ } }).freeBlks as
    | _ => d.freeBlks as

/-! ### The KV pool (R212, R213, R216) -/

/-- The COMPUTE regions of a stack that partition p owns. -/
def Dev.poolRegions (d : Dev) (p s : Nat) : List Nat :=
  (List.range 48).filter fun r => d.regionOwner s r == p && d.isCompute s r

/-- Granules of channel c that are held in the given regions of stack s. -/
def Dev.poolHeld (d : Dev) (s c : Nat) (rs : List Nat) : Nat :=
  2 * (d.mem.exts.filter fun e => isHbm (extentAddr e.1) && stackOf (extentAddr e.1) == s && rs.contains (regionOf (extentAddr e.1))).length +
  (d.mem.gran.filter fun g => stackOf (granAddr g.1) == s && channelOf (granAddr g.1) == c && rs.contains (regionOf (granAddr g.1))).length

/-- Free granules of the KV pool in channel c of stack s. -/
def Dev.poolFree (d : Dev) (p s c : Nat) : Nat :=
  let rs := d.poolRegions p s
  1024 * rs.length - d.poolHeld s c rs

/-- The whole pool of a partition, and its free granules (MEM_KV_FREE). -/
def Dev.poolSize (d : Dev) (p : Nat) : Nat := nsum ((List.range 16).map fun s => 32768 * (d.poolRegions p s).length)
def Dev.poolFreeAll (d : Dev) (p : Nat) : Nat :=
  nsum ((List.range 16).map fun s =>
    let rs := d.poolRegions p s
    32768 * rs.length -
      64 * (d.mem.exts.filter fun e => stackOf (extentAddr e.1) == s && rs.contains (regionOf (extentAddr e.1))).length -
      (d.mem.gran.filter fun g => stackOf (granAddr g.1) == s && rs.contains (regionOf (granAddr g.1))).length)

/-- The first free granule of channel c in the given regions: extent by extent, pseudo-channel 0 then 1. -/
def Dev.poolFirst (d : Dev) (s c : Nat) : List Nat → Option Nat
  | [] => none
  | r :: rs =>
    let g0 := gran (stackBase s) + r * 32768 + 2 * c
    let a := d.findGran 64 512 g0
    let b := d.findGran 64 512 (g0 + 1)
    match a, b with
    | some x, some y => some (if y < x then y else x)
    | some x, none => some x
    | none, some y => some y
    | none, none => d.poolFirst s c rs

/-- A KV granule of partition p in member (s, c), within the quota. -/
def Dev.takeKv (d : Dev) (p s c : Nat) (u : GranUse) : Option (Nat × Dev) :=
  if d.hbmUsed p + 1 > d.hbmQuota p then none
  else
    match d.poolFirst s c (d.poolRegions p s) with
    | some g => some (g, d.takeGran p g u)
    | none => none

/-- A KV granule in member m of a set, or in the next member that has one, wrapping from 7 to 0 (R213). -/
def Dev.takeMember (d : Dev) (p : Nat) (set : List (Nat × Nat)) (u : GranUse) : Nat → Nat → Option (Nat × Dev)
  | 0, _ => none
  | n + 1, m =>
    match set[m % 8]? with
    | none => none
    | some (s, c) =>
      match d.takeKv p s c u with
      | some r => some r
      | none => d.takeMember p set u n (m + 1)

/-- The pairs of R212: channels in which the partition owns a COMPUTE region, with their free granules. -/
def Dev.poolPairs (d : Dev) (p : Nat) : List (Nat × Nat × Nat) :=
  (List.range 16).flatMap fun s =>
    if (d.poolRegions p s).isEmpty then [] else (List.range 32).map fun c => (s, c, d.poolFree p s c)

/-- The eligible pair with the most free granules; the lower stack, then the lower channel on a tie. -/
def bestPair (ms : List (Nat × Nat)) : List (Nat × Nat × Nat) → Option (Nat × Nat × Nat)
  | [] => none
  | (s, c, f) :: r =>
    let ok := !(ms.any fun m => m.1 == s) && (ms.filter fun m => stackDie m.1 == stackDie s).length < 4
    match bestPair ms r with
    | none => if ok then some (s, c, f) else none
    | some b => if ok && f ≥ b.2.2 then some (s, c, f) else some b

/-- The allocator of R212: `n` more members. -/
def chanSet (pairs : List (Nat × Nat × Nat)) : Nat → List (Nat × Nat) → Option (List (Nat × Nat))
  | 0, ms => some ms
  | n + 1, ms =>
    match bestPair ms pairs with
    | none => none
    | some (s, c, _) => chanSet pairs n (ms ++ [(s, c)])

/-- A channel set for partition p (R212). -/
def Dev.newSet (d : Dev) (p : Nat) : Option (List (Nat × Nat)) := chanSet (d.poolPairs p) 8 []

/-! ### Buffer space (R111) -/

/-- The key of a buffer-table entry. -/
def bufKey (p e : Nat) : Nat := p * 524288 + e

/-- The buffer-table entry of partition p's extent e. -/
def Dev.buf (d : Dev) (p e : Nat) : Option Extent := tget d.mem.bufs (bufKey p e)

/-- The home of granule i (0-63) of a mapped extent, where the extent holds it. -/
def Extent.home (b : Extent) (i : Nat) : Option Home :=
  if b.gone.contains i then none else some ((tget b.moved i).getD (.hbm (b.base + i * 32768)))

/-- The home of granule i of an extent: the share table names it for a frozen object (R112). -/
def Dev.homeOf (d : Dev) (b : Extent) (i : Nat) : Option Home :=
  match if b.share = 0 then none else tget d.mem.shares b.share with
  | some s => (s.homes[b.six * 64 + i]?).or (b.home i)
  | none => b.home i

/-- The home of the granule of a buffer offset, and whether its extent is frozen. -/
def Dev.bufHome (d : Dev) (p off : Nat) : Option (Home × Bool) :=
  match d.buf p (off / 2097152) with
  | none => none
  | some b => (d.homeOf b (off % 2097152 / 32768)).map fun h => (h, b.frozen)

/-- The device address of a buffer offset, and whether its extent is frozen. -/
def Dev.bufAddr (d : Dev) (p off : Nat) : Option (Nat × Bool) :=
  match d.bufHome p off with
  | some (.hbm a, fr) => some (a + off % 32768, fr)
  | _ => none

/-- A piece of a run of buffer bytes: the home of its granule, the offset in the granule, and its length. -/
structure Piece where
  home : Home
  off : Nat
  len : Nat

/-- The device address of a piece in HBM. -/
def Piece.addr (r : Piece) : Option Nat :=
  match r.home with
  | .hbm a => some (a + r.off)
  | .nand _ => none

/-- The pieces of a run of buffer bytes, `fuel` granules at most; none where an extent is not mapped or does not hold the granule, or
is frozen and `engine` is set: an engine reaches no frozen extent (R111). -/
def Dev.bufRun (d : Dev) (p : Nat) (engine : Bool) : Nat → Nat → Nat → Option (List Piece)
  | _, _, 0 => some []
  | 0, _, _ => none
  | f + 1, off, len =>
    match d.bufHome p off with
    | none => none
    | some (h, fr) =>
      if fr && engine then none
      else
        let n := min len (32768 - off % 32768)
        match d.bufRun p engine f (off + n) (len - n) with
        | none => none
        | some l => some (⟨h, off % 32768, n⟩ :: l)

/-- The fuel a run of `len` bytes needs. -/
def runFuel (len : Nat) : Nat := len / 32768 + 2

/-- Bytes of a granule at its home, from an offset, with whether any is bad. In debug state UNLOCKED no unit of NAND is readable (R396). -/
def Dev.homeRead (d : Dev) (h : Home) (o n : Nat) : List Byte × Bool :=
  match h with
  | .hbm a => (d.hbmRead (a + o) n, d.poisoned (a + o) n)
  | .nand u =>
    match tget d.nand.units u with
    | some v => ((v.data.drop o).take n, v.state != 1 || d.sec.debug)
    | none => (List.replicate n 0, true)

/-- The bytes of the pieces of a run, with whether any is bad: reads reach each granule at its home (R114). -/
def Dev.pieces (d : Dev) : List Piece → List Byte × Bool
  | [] => ([], false)
  | r :: l =>
    let b := d.homeRead r.home r.off r.len
    let t := d.pieces l
    (b.1 ++ t.1, b.2 || t.2)

/-- Bytes of a buffer run as an engine reads them; none where an extent is not mapped, or is frozen (R111). -/
def Dev.bufRead (d : Dev) (p off len : Nat) : Option (List Byte × Bool) := (d.bufRun p true (runFuel len) off len).map d.pieces

/-- Bytes of a buffer run, frozen extents among them: what BAR2 reads, and what Sheaf copies. -/
def Dev.bufView (d : Dev) (p off len : Nat) : Option (List Byte × Bool) := (d.bufRun p false (runFuel len) off len).map d.pieces

/-- The buffer-table entry, not yet copied by a running checkpoint, that bytes of HBM lie in (R358). -/
def Dev.unreachedAt (d : Dev) (a len : Nat) : Option Nat :=
  d.mem.unreached.find? fun k => (tget d.mem.bufs k).elim false fun b =>
    (gransOf a len).any fun g => (List.range 64).any fun i => d.homeOf b i == some (.hbm (granAddr g))

/-! ### Accesses of HBM at the base die (R116, R142, R143, R158) -/

/-- A Glume unit. -/
def Dev.gunit (d : Dev) (u : Nat) : GUnit := tgetD d.glm.units u GUnit.reset

/-- Replaces a Glume unit. -/
def Dev.setGunit (d : Dev) (u : Nat) (g : GUnit) : Dev := { d with glm := { d.glm with units := tset d.glm.units u g } }

/-- The key of a row's activation count. -/
def rowKey (u bank row : Nat) : Nat := (u * 65536 + bank) * 2 ^ 32 + row

/-- Activations of rows of a unit's channel counted. -/
def countRows (u : Nat) (t : Tbl Nat) (l : List (Nat × Nat)) : Tbl Nat :=
  l.foldl (fun t r => tset t (rowKey u r.1 r.2) (tgetD t (rowKey u r.1 r.2) 0 + 1)) t

/-- An access of HBM counted by the base die: its activations by row, and by channel (R158, R159). -/
def Dev.acted (d : Dev) (a len : Nat) : Dev :=
  let u := unitOf a
  let rows := if isHbm a && len != 0 then Config.rowsOf a len else []
  { d with glm := { d.glm with rowActs := countRows u d.glm.rowActs rows, acts := tset d.glm.acts u (tgetD d.glm.acts u 0 + rows.length) } }

/-- Whether a program runs beside the COMPUTE region that an address lies in. -/
def Dev.unitBusy (d : Dev) (a : Nat) : Bool := d.computeAt a && (d.gunit (unitOf a)).running.isSome

/-- A write of one granule's bytes that respects copies in progress: it stalls on a granule in copy (R115), and in a region that a
checkpoint has not reached (R359). Poisoned data leaves poison (R117, R157). -/
def Dev.putGran (d : Dev) (x : Ctx) (a : Nat) (bs : List Byte) (bad : Bool) : Dev :=
  let d' : Dev := { d with mem := { d.mem with stalled := d.mem.stalled ++ [⟨a, bs, x.now, bad⟩] } }
  match d.unreachedAt a bs.length with
  | some k => d'.bumpPart (k / 524288) 0x0C0008 1
  | none =>
    if (gransOf a bs.length).any fun g => thas d.mem.copying g then d'
    else
      let d := (d.acted a bs.length).hbmWrite a bs
      if bad then d.hbmPoison (codewords a bs.length) else d

/-- A write of one granule's bytes on the alias path: it waits for the unit's yield points while a program runs (R116, R142). -/
def Dev.pathPut (d : Dev) (x : Ctx) (a : Nat) (bs : List Byte) (bad : Bool) : Dev :=
  if d.unitBusy a then
    let g := d.gunit (unitOf a)
    d.setGunit (unitOf a) { g with queue := g.queue ++ [⟨.culm, 31, a, bs.length, true, bs, [], x.now, (0, 0), bad⟩] }
  else d.putGran x a bs bad

/-- The parts of a byte string that lie in one granule each, `fuel` at most. -/
def splitGran : Nat → Nat → List Byte → List (Nat × List Byte)
  | 0, _, _ => []
  | f + 1, a, bs => if bs.isEmpty then [] else (a, bs.take (32768 - a % 32768)) :: splitGran f (a + 32768 - a % 32768) (bs.drop (32768 - a % 32768))

/-- A write of Culm, Reed, Sheaf or Tiller. -/
def Dev.hbmPut (d : Dev) (x : Ctx) (a : Nat) (bs : List Byte) (bad : Bool := false) : Dev :=
  (splitGran (runFuel bs.length) a bs).foldl (fun d e => d.pathPut x e.1 e.2 bad) d

/-- How an access of an engine stands: it may go on, it waits at a unit, or it ends with REGION_BUSY. -/
inductive Reach where
  | go | wait | busy
deriving DecidableEq, Repr

/-- An agent whose data accesses take the alias path (R142). -/
def onAliasPath : Agent → Bool
  | .culm => true
  | .reed => true
  | .sheaf => true
  | .tiller => true
  | _ => false

/-- An engine's access, named by its key, waits at the unit of an address: on the alias path queued, else held (R143). -/
def Dev.awaitUnit (d : Dev) (x : Ctx) (ag : Agent) (key : Nat × Nat) (a : Nat) : Dev :=
  let g := d.gunit (unitOf a)
  let h : HeldAcc := ⟨ag, 31, a, 0, false, [], [], x.now, key, false⟩
  if (g.held ++ g.queue).any fun e => e.key == key then d
  else if onAliasPath ag then d.setGunit (unitOf a) { g with queue := g.queue ++ [h] }
  else d.setGunit (unitOf a) { g with held := g.held ++ [h] }

/-- What units keep of an access that has gone on or has ended. -/
def Dev.dropKey (d : Dev) (key : Nat × Nat) (l : List Nat) : Dev :=
  l.foldl (fun d a =>
    let g := d.gunit (unitOf a)
    d.setGunit (unitOf a) { g with
      granted := g.granted.filter (· != key)
      refused := g.refused.filter (· != key)
      held := g.held.filter fun h => h.key != key
      queue := g.queue.filter fun h => h.key != key }) d

/-- An access of an engine to ranges of HBM (R116, R142, R143): where a program runs beside a COMPUTE region of a range, the access waits
until that unit has served it at a yield point. An ordinary read that has waited 4 µs ends. The row of the access is given again. -/
def Dev.reach (d : Dev) (x : Ctx) (ag : Agent) (key : Nat × Nat) (l : List (Nat × Nat)) : Reach × Dev :=
  let as := (l.flatMap fun e => (gransOf e.1 e.2).map granAddr).filter d.computeAt
  let shut := as.filter fun a => d.unitBusy a && !(d.gunit (unitOf a)).granted.contains key
  if as.any fun a => (d.gunit (unitOf a)).refused.contains key then (.busy, d.dropKey key as)
  else if shut.isEmpty then (.go, l.foldl (fun d e => d.acted e.1 e.2) (d.dropKey key as))
  else (.wait, shut.foldl (fun d a => d.awaitUnit x ag key a) d)

/-- What follows an engine's access once it goes on; until then only the units know of it. -/
def Dev.once (d : Dev) (x : Ctx) (ag : Agent) (key : Nat × Nat) (l : List (Nat × Nat)) (f : Dev → Dev) : Dev :=
  match d.reach x ag key l with
  | (.wait, d) => d
  | (_, d) => f d

/-- The ranges of HBM that pieces of a run lie in. -/
def pieceAddrs (l : List Piece) : List (Nat × Nat) := l.filterMap fun r => r.addr.map fun a => (a, r.len)

/-- The ranges of HBM that a run of buffer bytes lies in. -/
def Dev.runAddrs (d : Dev) (p off len : Nat) : List (Nat × Nat) := pieceAddrs ((d.bufRun p false (runFuel len) off len).getD [])

/-- Whether `count` extents from `first` lie in the buffer space (R136). -/
def runOk (first count : Nat) : Bool := count ≠ 0 && first + count ≤ 524288

/-- The extent numbers of a run. -/
def runExts (first count : Nat) : List Nat := (List.range count).map fun i => first + i

/-! ### Pins and Culm descriptors (R59, R114, R115) -/

/-- One more, and one less, of a counter that is listed while it is not zero. -/
def tup (t : Tbl Nat) (g : Nat) : Tbl Nat := tset t g (tgetD t g 0 + 1)
def tdown (t : Tbl Nat) (g : Nat) : Tbl Nat :=
  let n := tgetD t g 0
  if n ≤ 1 then tdel t g else tset t g (n - 1)

/-- A pin taken on a granule, or waiting for the end of the granule's copy (R115); and a pin given back. -/
def Dev.pin (d : Dev) (g : Nat) : Dev :=
  if thas d.mem.copying g then { d with mem := { d.mem with pinWait := tup d.mem.pinWait g } }
  else { d with mem := { d.mem with pins := tup d.mem.pins g } }
def Dev.unpin (d : Dev) (g : Nat) : Dev :=
  if thas d.mem.pinWait g then { d with mem := { d.mem with pinWait := tdown d.mem.pinWait g } }
  else { d with mem := { d.mem with pins := tdown d.mem.pins g } }
def Dev.pinAll (d : Dev) (gs : List Nat) : Dev := gs.foldl Dev.pin d
def Dev.unpinAll (d : Dev) (gs : List Nat) : Dev := gs.foldl Dev.unpin d
def Dev.pinned (d : Dev) (g : Nat) : Bool := thas d.mem.pins g

/-- A descriptor for an operation: taken, or waited for in arrival order (R59). -/
def Dev.takeDesc (d : Dev) (id : Nat) : Dev :=
  if d.mem.culmWait.isEmpty && nsum (d.mem.culm.map Prod.snd) < 16384 then
    { d with mem := { d.mem with culm := tset d.mem.culm id 1 } }
  else { d with mem := { d.mem with culmWait := d.mem.culmWait ++ [id] } }

/-- Whether an operation holds a descriptor. -/
def Dev.hasDesc (d : Dev) (id : Nat) : Bool := thas d.mem.culm id

/-- The descriptors of an operation given back. -/
def Dev.freeDesc (d : Dev) (id : Nat) : Dev :=
  { d with mem := { d.mem with culm := tdel d.mem.culm id, culmWait := d.mem.culmWait.filter (· != id) } }

/-! ### The parking tier (R123-R135) -/

/-- Live key versions and the current one (R133); version 1 at first. -/
def Dev.keysOf (d : Dev) (p : Nat) : List Nat × Nat := tgetD d.nand.keys p ([1], 1)

/-- Map units a partition holds (MEM_NAND_USED). -/
def Dev.nandUsed (d : Dev) (p : Nat) : Nat := (d.nand.units.filter fun u => u.2.part == p).length

/-- The partition's NAND quota in bytes, of usable capacity in GB. -/
def Dev.nandQuota (d : Dev) (p : Nat) : Nat := fld (d.devReg (0x040104 + p * 8)) 14 0 * 1000000000

/-- PSLC_RAW in units of 100 GB. -/
def Dev.pslcRaw (d : Dev) : Nat := fld (d.devReg 0x040200) 8 0

/-- The usable units of a region under a layout (R125), less 1/128 of its raw share for each failed die (R127). -/
def usableUnits (pslc failed : Nat) (bulk : Bool) : Nat :=
  let raw := (if bulk then 320 - pslc else pslc) * 100000000000
  let raw := raw - raw / 128 * failed
  (if bulk then raw else raw / 3) * 225 / 256 / 32768

/-- The usable units of a region. -/
def Dev.regionUnits (d : Dev) (bulk : Bool) : Nat := usableUnits d.pslcRaw d.nand.failed.length bulk

/-- Units in use in a region. -/
def Dev.regionInUse (d : Dev) (r : Nat) : Nat := (d.nand.units.filter fun u => u.2.region == r).length

/-- Whether `n` units more fit in the partition's quota (R118). -/
def Dev.nandFits (d : Dev) (p n : Nat) : Bool := (d.nandUsed p + n) * 32768 ≤ d.nandQuota p

/-- Map units that `len` bytes take. -/
def unitsFor (len : Nat) : Nat := (len + 32767) / 32768

/-- Whether a die works. -/
def Dev.dieOk (d : Dev) (die : Nat) : Bool := !d.nand.failed.contains die

/-- The working dies of a stripe: one die index on the 16 channels, the next index every 16 stripes; a failed die's slot is skipped
(R125, R127). -/
def Dev.stripeDies (d : Dev) (st : Nat) : List Nat := ((List.range 16).map fun c => c * 8 + st / 16 % 8).filter d.dieOk

/-- The die of a stripe's parity, which rotates from stripe to stripe, and the dies of its data units in order. -/
def Dev.parityDie (d : Dev) (st : Nat) : Option Nat :=
  let w := d.stripeDies st
  w[st % max 1 w.length]?
def Dev.dataDies (d : Dev) (st : Nat) : List Nat :=
  let w := d.stripeDies st
  w.eraseIdx (st % max 1 w.length)

/-- The next place at or after place n that a stripe has, `fuel` stripes ahead at most. -/
def Dev.nextPlace (d : Dev) : Nat → Nat → Nat
  | 0, n => n
  | f + 1, n => if n % 16 < (d.dataDies (n / 16)).length then n else d.nextPlace f (n / 16 * 16 + 16)

/-- Map units of a block: 6 MiB in pseudo-SLC mode, 18 MiB in TLC mode. -/
def blockUnits (region : Nat) : Nat := if region = 0 then 192 else 576

/-- Blocks of a die of 250 GB; block i of die n is number n × 16,384 + i. -/
def dieBlocks : Nat := 13245
def blockDie (b : Nat) : Nat := b / 16384

/-- The least-worn erased block of a die in the pool. -/
def erasedBlock (die : Nat) : List (Nat × NBlock) → Option (Nat × Nat)
  | [] => none
  | (b, k) :: l =>
    let r := erasedBlock die l
    if blockDie b = die ∧ k.region = 2 then
      match r with
      | some e => if k.wear ≤ e.2 then some (b, k.wear) else some e
      | none => some (b, k.wear)
    else r

/-- A block of a die that a region puts into service (R124, R130): one never used while there is one, else the least-worn of the pool. -/
def Dev.freshBlock (d : Dev) (die : Nat) : Nat × Dev :=
  let i := tgetD d.nand.fresh die 0
  let new : Nat × Dev := (die * 16384 + i, { d with nand := { d.nand with fresh := tset d.nand.fresh die (i + 1) } })
  if i < dieBlocks then new
  else
    match erasedBlock die d.nand.blocks with
    | some e => (e.1, d)
    | none => new

/-- Room for one unit in the block that a region writes on a die. -/
def Dev.takeRoom (d : Dev) (region die : Nat) : Nat × Dev :=
  let key := region * 128 + die
  let open_ (d : Dev) (b n : Nat) : Dev := { d with nand := { d.nand with open_ := tset d.nand.open_ key (b, n) } }
  match (tget d.nand.open_ key).bind fun e => if e.2 < blockUnits region then some e else none with
  | some e => (e.1, open_ d e.1 (e.2 + 1))
  | none =>
    let r := d.freshBlock die
    let k := tgetD r.2.nand.blocks r.1 ⟨region, 0, 0, false, []⟩
    let d : Dev := { r.2 with nand := { r.2.nand with blocks := tset r.2.nand.blocks r.1 ⟨region, 0, k.wear, false, []⟩ } }
    (r.1, open_ d r.1 1)

/-- The die, block and stripe of the next unit of a region; the last data unit of a stripe takes the stripe's parity with it (R126). -/
def Dev.nextUnitPlace (d : Dev) (region : Nat) : (Nat × Nat × Nat) × Dev :=
  let n := d.nextPlace 128 (if region = 0 then d.nand.stripeP else d.nand.stripeB)
  let st := n / 16
  let dies := d.dataDies st
  let die := (dies[n % 16]?).getD 0
  let r := d.takeRoom region die
  let d := if n % 16 + 1 < dies.length then r.2 else (d.parityDie st).elim r.2 fun k => (r.2.takeRoom region k).2
  ((die, r.1, st), { d with nand :=
    { d.nand with
      stripeP := if region = 0 then n + 1 else d.nand.stripeP
      stripeB := if region = 0 then d.nand.stripeB else n + 1 } })

/-- One unit written into a region under the partition's current key version (R126, R133). -/
def Dev.writeUnit (d : Dev) (p region : Nat) (data : List Byte) (bad : Bool) : Nat × Dev :=
  let u := d.nand.nextUnit
  let r := d.nextUnitPlace region
  let d := r.2
  (u, { d with nand :=
    { d.nand with
      units := tset d.nand.units u ⟨p, (d.keysOf p).2, if bad then 2 else 1, region, r.1.1, r.1.2.1, r.1.2.2, data⟩
      nextUnit := u + 1 } })

/-- A unit written again at the next place of its region: the number, the key version and the data stay (R128). -/
def Dev.relocate (d : Dev) (u : Nat) : Dev :=
  match tget d.nand.units u with
  | none => d
  | some v =>
    let r := d.nextUnitPlace v.region
    { r.2 with nand := { r.2.nand with units := tset r.2.nand.units u { v with die := r.1.1, block := r.1.2.1, stripe := r.1.2.2 } } }

/-- Several units relocated. -/
def Dev.relocateAll (d : Dev) (us : List Nat) : Dev := us.foldl Dev.relocate d

/-- Bytes written into a unit: the FTL writes the whole unit again (R112, R126). -/
def Dev.nandPut (d : Dev) (u o : Nat) (bs : List Byte) : Dev :=
  { d with nand := { d.nand with units := tmod d.nand.units u fun v => { v with data := splice v.data o bs } } }.relocate u

/-- What the dies hold of a unit (R132): its eight sectors of 4,096 bytes, each under the key of the unit's partition and version with
the sector's logical number as tweak. The model keeps the plaintext, from which this follows. -/
def NUnit.cipher (v : NUnit) (u : Nat) : List Byte :=
  ((chunks 4096 8 v.data).mapIdx fun i s => Config.xtsSector v.part v.key (v.part * 2 ^ 60 + (u * 8 + i) % 2 ^ 60) s).flatten

/-- A write to a granule's home: HBM, or a unit of NAND (R114). -/
def Dev.homePut (d : Dev) (x : Ctx) (h : Home) (o : Nat) (bs : List Byte) (bad : Bool := false) : Dev :=
  match h with
  | .hbm a => d.hbmPut x (a + o) bs bad
  | .nand u =>
    let d := d.nandPut u o bs
    if bad then { d with nand := { d.nand with units := tmod d.nand.units u fun v => { v with state := 2 } } } else d

/-- Writes pieces of a byte string at the places of a run. -/
def Dev.putRun (d : Dev) (x : Ctx) : List Piece → List Byte → Dev
  | [], _ => d
  | r :: l, bs => (d.homePut x r.home r.off (bs.take r.len)).putRun x l (bs.drop r.len)

/-- An engine's write to the buffer space; none where an extent is unmapped or frozen (R111). -/
def Dev.bufWrite (d : Dev) (x : Ctx) (p off : Nat) (bs : List Byte) : Option Dev :=
  (d.bufRun p true (runFuel bs.length) off bs.length).map fun l => d.putRun x l bs

/-- Writes by an engine whose writes are ordinary: those into a COMPUTE region are refused and counted (R143). -/
def Dev.putRunOrd (d : Dev) (x : Ctx) (p : Nat) : List Piece → List Byte → Dev
  | [], _ => d
  | r :: l, bs =>
    let d := if r.addr.elim false d.computeAt then d.bumpPart p 0x050008 1 else d.homePut x r.home r.off (bs.take r.len)
    d.putRunOrd x p l (bs.drop r.len)

/-- An ordinary write of an engine to the buffer space; none where an extent is unmapped or frozen (R111). -/
def Dev.bufWriteOrd (d : Dev) (x : Ctx) (p off : Nat) (bs : List Byte) : Option Dev :=
  (d.bufRun p true (runFuel bs.length) off bs.length).map fun l => d.putRunOrd x p l bs

/-- Units written one after another. -/
def Dev.writeUnits (d : Dev) (p region : Nat) : List (List Byte) → List Nat × Dev
  | [] => ([], d)
  | b :: bs =>
    let r := d.writeUnit p region b false
    let rs := r.2.writeUnits p region bs
    (r.1 :: rs.1, rs.2)

/-- Units released. -/
def Dev.freeUnits (d : Dev) (us : List Nat) : Dev :=
  { d with nand := { d.nand with units := us.foldl tdel d.nand.units } }

/-- A NAND object recorded under a new token; 0 is never issued (R123). -/
def Dev.newObj (d : Dev) (p : Nat) (k : NandKind) (us : List Nat) (len : Nat) (sl : Bool) : Nat × Dev :=
  let t := d.nand.nextObj
  (t, { d with nand := { d.nand with objs := tset d.nand.objs t ⟨p, k, us, len, sl⟩, nextObj := t + 1 } })

/-- A NAND object released with its units. -/
def Dev.freeObj (d : Dev) (t : Nat) : Dev :=
  match tget d.nand.objs t with
  | none => d
  | some o => ({ d with nand := { d.nand with objs := tdel d.nand.objs t } }).freeUnits o.units

/-- The bytes of an object, or none when a unit cannot be read (R126, R127, R396). -/
def Dev.readObj (d : Dev) (t : Nat) : Option (List Byte) :=
  match tget d.nand.objs t with
  | none => none
  | some o =>
    if !d.sec.debug && o.units.all fun u => (tget d.nand.units u).elim false fun n => n.state == 1 then
      some ((o.units.flatMap fun u => (tget d.nand.units u).elim [] NUnit.data).take o.len)
    else none

/-- A byte string cut into unit contents. -/
def unitData (bs : List Byte) : List (List Byte) := chunks 32768 (unitsFor bs.length) bs

/-- Units for an image by the rule of R95: the parking region while it has room, then the bulk region; none when
neither has. -/
def Dev.placeUnits (d : Dev) (p : Nat) (bulkOnly : Bool) : List (List Byte) → Option (List Nat × Dev)
  | [] => some ([], d)
  | b :: bs =>
    let region :=
      if !bulkOnly && d.regionInUse 0 < d.regionUnits false then some 0
      else if d.regionInUse 1 < d.regionUnits true then some 1 else none
    match region with
    | none => none
    | some r =>
      let w := d.writeUnit p r b false
      match w.2.placeUnits p bulkOnly bs with
      | none => none
      | some (us, d) => some (w.1 :: us, d)

/-! ### Frozen objects (R119) -/

/-- A frozen object. -/
def Dev.share (d : Dev) (id : Nat) : Option Share := tget d.mem.shares id

/-- Replaces a frozen object. -/
def Dev.setShare (d : Dev) (id : Nat) (s : Share) : Dev := { d with mem := { d.mem with shares := tset d.mem.shares id s } }

/-- One home released: a unit, a granule held on its own, or the whole extent that the granule lies in. -/
def Dev.releaseHome (d : Dev) : Home → Dev
  | .nand u => d.freeUnits [u]
  | .hbm a => if thas d.mem.gran (gran a) then d.freeGran (gran a) else d.freeExts [extentNo a]

/-- Every home of a frozen object released. -/
def Dev.releaseHomes (d : Dev) (hs : List Home) : Dev := hs.foldl Dev.releaseHome d

/-- A frozen object released when no reference remains (R119); its extents leave the buffer table with it. -/
def Dev.shareFree (d : Dev) (id : Nat) : Dev :=
  match d.share id with
  | none => d
  | some s =>
    if !s.own && s.refs = 0 then
      let d := (d.releaseHomes s.homes).freeBlks s.blks
      { d with
        mem := { d.mem with
          shares := tdel d.mem.shares id
          bufs := d.mem.bufs.filter fun b => b.2.share != id }
        sec := { d.sec with packs := tdel d.sec.packs id } }
    else d

/-- The reference count of an adapter version (R239): the sessions that bind it, the prefixes built or being built under it, and one
while it is current. -/
def Dev.adpCount (d : Dev) (p v : Nat) : Nat :=
  (d.ses.tbl.filter fun s => s.1 / 2 ^ 24 == p && s.2.state != .free && s.2.adapter == v).length +
    (d.mem.shares.filter fun s => s.2.part == p && (s.2.pfx || s.2.t != 0) && s.2.adapter == v).length +
    (tget d.sch.adapters (p * 65536 + v)).elim 0 fun a => if a.current then 1 else 0

/-- A version whose count is zero frees its number and drops its reference on its weights (R239). -/
def Dev.adpCheck (d : Dev) (p v : Nat) : Dev :=
  match tget d.sch.adapters (p * 65536 + v) with
  | some a =>
    if d.adpCount p v = 0 then
      let d := { d with sch := { d.sch with adapters := tdel d.sch.adapters (p * 65536 + v) } }
      match d.share a.share with
      | some s => (d.setShare a.share { s with refs := s.refs - 1 }).shareFree a.share
      | none => d
    else d
  | none => d

/-- A frozen object whose last reference goes is released, and with a prefix its reference on its adapter version (R119,
R235, R239). -/
def Dev.shareCheck (d : Dev) (id : Nat) : Dev :=
  match d.share id with
  | some s => if s.pfx then (d.shareFree id).adpCheck s.part s.adapter else d.shareFree id
  | none => d

/-- A reference taken on, and dropped from, a frozen object. -/
def Dev.shareRef (d : Dev) (id : Nat) : Dev :=
  match d.share id with
  | none => d
  | some s => d.setShare id { s with refs := s.refs + 1 }
def Dev.shareUnref (d : Dev) (id : Nat) : Dev :=
  match d.share id with
  | none => d
  | some s => (d.setShare id { s with refs := s.refs - 1 }).shareCheck id

/-- The next share identifier (R119). -/
def Dev.nextShare (d : Dev) : Nat := nextId (fun n => thas d.mem.shares n) 0xFFFFFFFF d.mem.shares.length d.mem.lastShare

/-- The bytes of a frozen object that lie in HBM, from an offset. -/
def Dev.shareRead (d : Dev) (s : Share) (off len : Nat) : List Byte :=
  ((List.range (unitsFor (off % 32768 + len))).flatMap fun i =>
    match s.homes[off / 32768 + i]? with
    | some h => (d.homeRead h 0 32768).1
    | none => List.replicate 32768 0).drop (off % 32768) |>.take len

end Sys2Proof.Machine
end

