-- ==== Sys2Proof/Machine/OpTable.lean ====
section
/-! DEFINITION. The opcodes the module defines, with what the checks of R50 need: size in slots, whether a VF may issue
it, whether only the control host's PF may, and whether it is a device-level opcode (R41, R63 and each family's table). -/

namespace Sys2Proof.Machine

/-- What R50 checks of an opcode. -/
structure OpInfo where
  size : Nat
  vf : Bool
  ctrl : Bool
  device : Bool
deriving DecidableEq, Repr

/-- An opcode that a PF issues for a bound partition, and a VF for its own. -/
def opPart (size : Nat) : OpInfo := ⟨size, true, false, false⟩

/-- A device-level opcode of any PF; of any function; of the control host's PF. -/
def opPf : OpInfo := ⟨1, false, false, true⟩
def opAny : OpInfo := ⟨1, true, false, true⟩
def opCtrl : OpInfo := ⟨1, false, true, true⟩

/-- The opcodes of one family, by low byte. -/
def opFamily : Nat → List (Nat × OpInfo)
  | 0x01 => (List.range 9).map fun i => (i, opPart 1)
  | 0x02 => ([0x00, 0x01, 0x02, 0x03, 0x04, 0x05, 0x06, 0x10, 0x11, 0x12, 0x20, 0x21, 0x22] : List Nat).map fun i => (i, opPart 1)
  | 0x03 => ([0x00, 0x01, 0x02, 0x03, 0x04, 0x05, 0x06, 0x10, 0x11, 0x12, 0x18, 0x19, 0x1A, 0x1B, 0x20, 0x21, 0x22] : List Nat).map
      fun i => (i, opPart 1)
  | 0x04 => ([0x00, 0x01, 0x02, 0x03, 0x10, 0x11] : List Nat).map fun i => (i, opPart 1)
  | 0x05 => (List.range 6).map fun i => (i, opPart 1)
  | 0x06 => (([0x00, 0x01, 0x02, 0x03, 0x08, 0x09, 0x0A, 0x0B, 0x10, 0x18, 0x19, 0x22] : List Nat).map fun i => (i, opPart 1)) ++
      [(0x20, opCtrl), (0x21, opPf)]
  | 0x07 => ([0, 1, 2, 3, 5, 6, 8, 0xA] : List Nat).map (fun i => (i, opPart 1)) ++ [(4, opPart 2), (9, opPart 2)]
  | 0x08 => [(0, opPart 2), (1, opPart 1), (2, opPart 1), (3, opPart 1), (4, opPart 1), (5, opPart 1)]
  | 0x09 => (List.range 7).map (fun i => (i, opPart 1)) ++ [(0x10, opCtrl), (0x11, opCtrl), (0x12, opCtrl), (0x13, opCtrl)]
  | 0x0A => (List.range 4).map fun i => (i, opAny)
  | 0x0B => [(0x00, opPart 1), (0x01, opCtrl), (0x02, opCtrl), (0x03, opPart 2), (0x04, opPart 1), (0x05, opPart 1)]
  | 0x0F => [(0x00, opAny), (0x01, opAny), (0x02, opAny), (0x10, opAny), (0x11, opAny), (0x12, opAny),
      (0x20, opCtrl), (0x21, opCtrl), (0x22, opPf), (0x23, opPf), (0x24, opPf),
      (0x30, opCtrl), (0x31, opCtrl), (0x32, opCtrl), (0x33, opPf), (0x34, opCtrl)]
  | _ => []

/-- What R50 checks of an opcode, or none where it is not defined. -/
def opInfo (op : Nat) : Option OpInfo :=
  ((opFamily (op / 256)).find? fun e => e.1 == op % 256).map Prod.snd

end Sys2Proof.Machine
end

