-- ==== Sys2Proof/Machine/Ring.lean ====
section
/-! DEFINITION. Rings, doorbells, fetching, and the order and limits of commands (R45-R59). -/

namespace Sys2Proof.Machine

/-- Whether a function is present at its port: a PF always, a VF while SR-IOV enables it (R39). -/
def Dev.fnLive (d : Dev) (f : Fn) : Bool :=
  f.ok && (f.num == 0 || ((d.port f.port).vfEnable && f.num ≤ (d.port f.port).numVfs))

/-- Whether writes to registers outside DEV have an effect (R448): once start-up has ended. -/
def Dev.writable (d : Dev) : Bool := d.boot.state == 6 || d.boot.state == 12

/-- Whether a function is a VF whose partition is bound to the other port (R40). -/
def Dev.elsewhere (d : Dev) (f : Fn) : Bool := f.num != 0 && d.boundTo (f.num - 1) (1 - f.port)

/-- Whether the binding check of R46 passes: a PF's ring, or a VF's whose partition is bound to the port. -/
def Dev.bindOk (d : Dev) (f : Fn) : Bool := f.num == 0 || d.boundTo (f.num - 1) f.port

/-- A write to CMD_SQn_CFG (R46). -/
def sqCfgWrite (_ : Ctx) (f : Fn) (n : Nat) (w : Word) (d : Dev) : Dev :=
  if !(d.fnLive f && d.writable && n < 16) then d
  else
    let q := d.sq f.idx n
    let en := bitAt w.toNat 31
    if q.en then
      if en then d else d.setSq f.idx n { q with en := false, state := 0, cause := 0 }
    else
      let q := { q with rq := wfld w 23 20, size := wfld w 3 0 }
      if !en then d.setSq f.idx n { q with state := 0, cause := 0 }
      else if q.base % 4096 ≠ 0 then d.setSq f.idx n { q with state := 2, cause := 3 }
      else if q.size < 4 ∨ q.size > 12 then d.setSq f.idx n { q with state := 2, cause := 4 }
      else if !(d.rq f.idx q.rq).en then d.setSq f.idx n { q with state := 2, cause := 5 }
      else if !d.bindOk f then d.setSq f.idx n { q with state := 4, cause := 0 }
      else d.setSq f.idx n { q with en := true, state := 1, cause := 0, head := 0, tail := 0 }

/-- Whether a submission ring bound to reply ring n of a function is enabled or has outstanding commands. -/
def Dev.rqBusy (d : Dev) (f n : Nat) : Bool :=
  ((List.range 16).any fun i => (d.sq f i).en && (d.sq f i).rq == n) ||
  d.cmds.any fun c => c.fn.idx == f && c.rq == n && c.fate == .live

/-- Replies of a former host that wait for a ring of this function (R70): its partition's, or the device's at ring 0
of the control host's PF. -/
def Dev.takeAdopted (d : Dev) (x : Ctx) (f : Fn) (n : Nat) : Dev :=
  let d := if f.num ≠ 0 && d.boundTo (f.num - 1) f.port then d.adoptRing x (f.num - 1) f.idx n else d
  if d.isCtrl f && n == 0 then d.adoptRing x 16 f.idx 0 else d

/-- A write to CMD_RQn_CFG (R46). A binding failure shows as STATE NOT_BOUND, 4, as R46 says of every ring
(log entry 11). -/
def rqCfgWrite (x : Ctx) (f : Fn) (n : Nat) (w : Word) (d : Dev) : Dev :=
  if !(d.fnLive f && d.writable && n < 16) then d
  else
    let r := { d.rq f.idx n with vector := wfld w 19 16 }
    let en := bitAt w.toNat 31
    if r.en then
      if en || d.rqBusy f.idx n then d.setRq f.idx n r
      else d.setRq f.idx n { r with en := false, state := 0, cause := 0, held := [] }
    else
      let r := { r with size := wfld w 3 0 }
      if !en then d.setRq f.idx n { r with state := 0, cause := 0 }
      else if r.base % 4096 ≠ 0 then d.setRq f.idx n { r with state := 2, cause := 3 }
      else if r.size < 4 ∨ r.size > 13 then d.setRq f.idx n { r with state := 2, cause := 4 }
      else if !d.bindOk f then d.setRq f.idx n { r with state := 4, cause := 0 }
      else
        let r := { r with en := true, state := 1, cause := 0, head := 0, tail := 0, phase := true }
        (d.setRq f.idx n { r with held := [], unsig := 0, firstUnsig := none }).takeAdopted x f n

/-- The doorbell (R47). -/
def doorbellWrite (_ : Ctx) (f : Fn) (n : Nat) (w : Word) (d : Dev) : Dev :=
  if !(d.fnLive f && d.writable && n < 16) then d
  else
    let q := d.sq f.idx n
    let t := wfld w 11 0
    if q.en && q.state == 1 && t ≥ 2 ^ q.size then d.setSq f.idx n { q with tail := t, state := 2, cause := 1 }
    else d.setSq f.idx n { q with tail := t }

/-- The adoptions that deliver to a ring, ended where nothing of theirs is left to write (R70). -/
def Dev.adoptsDone (d : Dev) (x : Ctx) (ring : Nat × Nat) : List (Nat × Adopt) → Dev
  | [] => d
  | (k, a) :: l => (if a.ring = some ring then d.adoptDone x k else d).adoptsDone x ring l

/-- A write to CMD_RQn_HEAD, which takes any value (R6; log entry 85): entries become free, and held replies are written (R52). -/
def rqHead (x : Ctx) (f : Fn) (n : Nat) (w : Word) (d : Dev) : Dev :=
  if !(d.fnLive f && d.writable && n < 16) then d
  else
    let r := d.rq f.idx n
    let d := d.setRq f.idx n { r with head := wfld w 12 0 }
    if !r.en || r.state != 1 || (d.port f.port).lost then d
    else (d.flushHeld x f.idx n r.held.length).adoptsDone x (f.idx, n) d.adopts

/-- Outstanding commands of one ring, of one partition, of one PF's device level (R57). -/
def Dev.outRing (d : Dev) (f n : Nat) : Nat := (d.cmds.filter fun c => c.fn.idx == f && c.sq == n).length
def Dev.outPart (d : Dev) (p : Nat) : Nat := (d.cmds.filter fun c => c.part == some p).length
def Dev.outDevice (d : Dev) (f : Nat) : Nat := (d.cmds.filter fun c => c.fn.idx == f && c.part == none).length

/-- Whether a limit of R57 stops the fetch of one more command. -/
def Dev.atLimit (d : Dev) (f : Fn) (n : Nat) (part : Option Nat) : Bool :=
  d.outRing f.idx n ≥ 4096 || d.cmds.length ≥ 65536 ||
  match part with
  | some p => d.outPart p ≥ fld (d.partReg p 0x010904) 14 0
  | none => d.outDevice f.idx ≥ 16384

/-- Checks 1 to 6 of R50 on the words of a command; none passes. -/
def Dev.checkCmd (d : Dev) (f : Fn) (n : Nat) (w0 w1 : Word) : Option Status :=
  let size := wfld w0 31 24
  let info := opInfo (wfld w0 15 0)
  if size < 1 ∨ size > 4 then some .badParam
  else if (info.elim false fun i => i.size != size) then some .badParam
  else if wfld w0 23 19 ≠ 0 ∨ wfld w1 31 20 ≠ 0 then some .badParam
  else
    match info with
    | none => some .badOpcode
    | some i =>
      if f.num ≠ 0 && !i.vf then some .notPermitted
      else if i.ctrl && !d.isCtrl f then some .notPermitted
      else if f.num ≠ 0 && wfld w1 19 16 ≠ f.num - 1 then some .notPermitted
      else if f.num = 0 && !i.device && !d.boundTo (wfld w1 19 16) f.port then some .notPermitted
      else if d.cmds.any fun c => c.fn == f && c.sq == n && c.tag == wfld w1 15 0 then some .badParam
      else none

/-- The partition a command acts on: none for a device-level opcode of a PF (R41). -/
def cmdPart (f : Fn) (w0 w1 : Word) : Option Nat :=
  if f.num ≠ 0 then some (f.num - 1)
  else
    match opInfo (wfld w0 15 0) with
    | some i => if i.device then none else some (wfld w1 19 16)
    | none => none

/-- Whether a fetched command must wait (R56): FENCE for every earlier command of its ring, SERIAL for the previous
one, or behind a command of the ring that waits. -/
def Dev.mustWait (d : Dev) (c : CmdRec) : Bool :=
  let mine := d.cmds.filter fun e => e.fn == c.fn && e.sq == c.sq && e.seq < c.seq
  (c.fence && !mine.isEmpty) || (c.serial && mine.any fun e => e.seq == c.prev) || mine.any fun e => e.phase == .held

/-! ### Arbitration (R58)

Deficit round robin, with the shares as prices: a visit gives a ring 65,536 units, and a slot of a command costs 65,536 divided by the
command's weight, times the rings that share the weight (log entry 87). -/

/-- Whether the module fetches from a ring now: READY, its port not lost, the ring active, a slot visible, and no reply
held for its reply ring (R47, R52, R68, R424, R448). -/
def Dev.fetchable (d : Dev) (f : Fn) (n : Nat) : Bool :=
  let q := d.sq f.idx n
  d.fnLive f && d.ready && !d.halted && !(d.port f.port).lost && n < 16 && q.en && q.state == 1 && q.head != q.tail &&
    (d.rq f.idx q.rq).held.isEmpty

/-- The rings with something to fetch that no limit stops, in ascending order. -/
def Dev.activeRings (d : Dev) : List Nat :=
  (tkeys d.sqs).filter fun k => d.fetchable (fnOf (k / 16)) (k % 16) && !d.fetchStop.any fun e => e.1 == k

/-- What a command of some slots costs its ring: a device-level command at the fixed weight 64; another at its partition's
CMD_PART_WEIGHT, shared by the partition's active rings. -/
def Dev.fetchCost (d : Dev) (ring slots : Nat) : Option Nat → Nat
  | none => slots * 65536 / 64
  | some p =>
    let rings := (d.activeRings.filter fun k => k / 16 % 32 == p + 1 || k == ring).length
    slots * 65536 * max 1 rings / max 1 (fld (d.partReg p 0x010900) 7 0)

/-- The least that any command costs: a ring with less has had its turn. -/
def leastCost : Nat := 65536 / 255

/-- The ring after `t` in the round. -/
def nextRing (t : Nat) (l : List Nat) : Nat := (l.find? (t < ·)).getD (l.headD t)

/-- Whether a ring's command may be fetched now, with the turn moved on as far as it goes: the turn's ring keeps it while it has
something to fetch and credit to fetch it; a ring that has nothing left loses its credit. -/
def Dev.takeTurn (d : Dev) (ring cost : Nat) : Nat → Bool × Dev
  | 0 => (false, d)
  | fuel + 1 =>
    let rings := d.activeRings
    let t := d.arb.turn
    let c := tgetD d.arb.deficit t 0
    let pass (keep : Tbl Nat) : Dev :=
      let u := nextRing t rings
      { d with arb := ⟨u, tset keep u (tgetD keep u 0 + 65536)⟩ }
    if !rings.contains t then (pass (tdel d.arb.deficit t)).takeTurn ring cost fuel
    else if t = ring ∧ cost ≤ c then (true, { d with arb := ⟨t, tset d.arb.deficit t (c - cost)⟩ })
    else if t ≠ ring ∧ leastCost ≤ c then (false, d)
    else (pass d.arb.deficit).takeTurn ring cost fuel

/-- The host address of the slot that a ring's head names (R45). -/
def Sq.slotAddr (q : Sq) : Nat := q.base + 64 * q.head

/-- A ring-fetch read completes, of the slots from an address on (R45, R48, R50, R55-R58); it counts where the ring's head is there. -/
def fetchCmd (x : Ctx) (f : Fn) (n addr : Nat) (st : Completion) (words : List Word) (d : Dev) : Dev :=
  let q := d.sq f.idx n
  if !d.fetchable f n || addr != q.slotAddr || d.fetchStop.any (fun e => e.1 == f.idx * 16 + n) then d
  else if st ≠ .ok then d.setSq f.idx n { q with state := 2, cause := 2 }
  else
    let w0 := (words[0]?).getD 0
    let w1 := (words[1]?).getD 0
    let size := wfld w0 31 24
    let take := if 1 ≤ size ∧ size ≤ 4 then size else 1
    let cap := 2 ^ q.size
    let avail := (q.tail + cap - q.head) % cap
    let part := cmdPart f w0 w1
    if avail < take ∨ words.length < 16 * take then d
    else if d.atLimit f n part then { d with fetchStop := d.fetchStop ++ [(f.idx * 16 + n, part)] }
    else
      let turn := d.takeTurn (f.idx * 16 + n) (d.fetchCost (f.idx * 16 + n) take part) 128
      let d := turn.2
      if !turn.1 then d
      else
      let seq := d.nextSeq
      let c : CmdRec := ⟨seq, ⟨.ring f n q.head, words.take (16 * take)⟩, f, n, q.head, q.rq, wfld w0 15 0, wfld w1 15 0,
        part, .started, bitAt w0.toNat 16, bitAt w0.toNat 17, bitAt w0.toNat 18, .live, x.now, q.last⟩
      let d' := { d.setSq f.idx n { q with head := (q.head + take) % cap, last := seq } with nextSeq := seq + 1 }
      match d.checkCmd f n w0 w1 with
      | some s => { d' with cmds := d'.cmds ++ [c] }.endCmd x c s []
      | none => { d' with cmds := d'.cmds ++ [{ c with phase := if d.mustWait c then .held else .started }] }

/-- Held commands of a ring that may start now start, in ring order (R56). -/
def startReleased (f : Fn) (n : Nat) : List CmdRec → Dev → Dev
  | [], d => d
  | c :: cs, d =>
    if c.fn = f ∧ c.sq = n ∧ c.phase = .held then
      if d.mustWait c then d
      else startReleased f n cs { d with cmds := d.cmds.map fun e => if e.seq = c.seq then { e with phase := .started } else e }
    else startReleased f n cs d

/-- The coalescing time of a reply ring, or of the event ring (number 16), passes (R53, R434). -/
def coalesceTimeout (x : Ctx) (f : Fn) (n : Nat) (d : Dev) : Dev :=
  let due (first : Option Nat) (t c : Nat) : Bool := t ≠ 0 && c ≠ 0 && first.elim false fun k => decide (k + t * 128 ≤ x.now)
  if n = 16 then
    let e := tgetD d.eqs f.idx Eq.reset
    if e.en && due e.firstUnsig e.coalTime e.coalCount && !(d.port f.port).lost then
      ({ d with eqs := tset d.eqs f.idx { e with unsig := 0, firstUnsig := none } }).fire f 16
    else d
  else
    let r := d.rq f.idx n
    if r.en && due r.firstUnsig r.coalTime r.coalCount && !(d.port f.port).lost then
      (d.setRq f.idx n { r with unsig := 0, firstUnsig := none }).fire f r.vector
    else d

/-- DOORBELL. -/
def effDoorbell (f : Fn) (n : Nat) (w : Word) (s : State) : Host.Outcome State Fault Refusal :=
  onDev (fun x d => doorbellWrite x f n w d) s

/-- SQ_ENABLE. -/
def effSqEnable (f : Fn) (n : Nat) (w : Word) (s : State) : Host.Outcome State Fault Refusal :=
  onDev (fun x d => sqCfgWrite x f n w d) s

/-- RQ_ENABLE. -/
def effRqEnable (f : Fn) (n : Nat) (w : Word) (s : State) : Host.Outcome State Fault Refusal :=
  onDev (fun x d => rqCfgWrite x f n w d) s

/-- RQ_HEAD_WRITE. -/
def effRqHeadWrite (f : Fn) (n : Nat) (w : Word) (s : State) : Host.Outcome State Fault Refusal :=
  onDev (fun x d => rqHead x f n w d) s

/-- COMMAND_FETCH. -/
def effCommandFetch (f : Fn) (n addr : Nat) (st : Completion) (words : List Word) (s : State) :
    Host.Outcome State Fault Refusal :=
  onDev (fun x d => fetchCmd x f n addr st words d) s

/-- The stopped rings whose limits allow a fetch again. -/
def Dev.resumable (d : Dev) : List Nat :=
  (d.fetchStop.filter fun e => !d.atLimit (fnOf (e.1 / 16)) (e.1 % 16) e.2).map Prod.fst

/-- Fetching resumes at a ring that a limit had stopped, the first of them in arbitration order (R57). -/
def fetchResume (f : Fn) (n : Nat) (d : Dev) : Dev :=
  let k := f.idx * 16 + n
  let l := d.resumable
  let before (j : Nat) : Nat := (j + 1024 - d.arb.turn) % 1024
  if l.contains k && l.all fun j => decide (before k ≤ before j) then
    { d with fetchStop := d.fetchStop.filter fun e => e.1 != k }
  else d

/-- FETCH_RESUME. -/
def effFetchResume (f : Fn) (n : Nat) (s : State) : Host.Outcome State Fault Refusal := onDev (fun _ d => fetchResume f n d) s

/-- FENCED_COMMAND_START (R56). -/
def effFencedCommandStart (c : Cmd) (s : State) : Host.Outcome State Fault Refusal :=
  onDev (fun _ d =>
    match d.cmds.find? fun r => r.cmd == c && r.phase == .held with
    | some r => startReleased r.fn r.sq d.cmds d
    | none => d) s

/-- REPLY_COALESCE_TIMEOUT. -/
def effReplyCoalesceTimeout (f : Fn) (n : Nat) (s : State) : Host.Outcome State Fault Refusal :=
  onDev (fun x d => coalesceTimeout x f n d) s

end Sys2Proof.Machine
end

