-- ==== Sys2Proof/Machine/Power.lean ====
section
/-! DEFINITION. Power and thermal control, sensors, the speed factor, and the PF timers (R20-R23, R38, R458-R470,
R477). The rows that remove or restore power are in Startup.lean. -/

namespace Sys2Proof.Machine

/-! ### The controller (R464) -/

/-- The fraction withheld after an evaluation, in 1/64: mean power, effective cap, higher junction (R464). -/
def nextD (d p cap tj : Nat) : Nat :=
  if p > cap ∨ tj > 100 then min 60 (d + 2)
  else if 100 * p < 97 * cap ∧ tj < 98 then d - 1
  else d

/-- The coolant limit of R470: 1,650 W, less 100 W for each degree of inlet above 45. -/
def coolantLimit (inlet : Nat) : Nat := if inlet ≤ 45 then 1650 else 1650 - 100 * (inlet - 45)

/-- The sensor of an emergency condition (R466, R477); of a junction, the die that is at 110 °C. -/
def emergSensor (d : Dev) (cond : Nat) : Nat :=
  match cond with
  | 0 => if d.power.tjB > d.power.tjA then 7 else 6
  | 1 => 8
  | 2 => 0
  | 3 => 0
  | 4 => 3
  | 5 => 5
  | _ => 9

/-- The detection of an emergency condition (R466). -/
def emergency (cond : Nat) (x : Ctx) (d : Dev) : Dev :=
  if cond > 6 ∨ bitAt d.power.active cond then d
  else
    let p := d.power
    let p := { p with
      d := max 48 p.d
      emergency := true
      active := setBit p.active cond
      emergCount := satAdd 0xFFFF p.emergCount 1
      emergSince := some x.now }
    { d with power := p }.out (.sensor (emergSensor d cond) 3 true)

/-- A condition that a reading shows to be over: its bit of DEV_EMERG clears, and the 100 ms of R466 run from there. -/
def condOver (cond : Nat) (x : Ctx) (d : Dev) : Dev :=
  if bitAt d.power.active cond then
    { d with power := { d.power with active := d.power.active - 2 ^ cond, emergSince := some x.now } }
  else d

/-- What a reading says of an emergency condition. -/
def condRead (cond : Nat) (holds : Bool) (x : Ctx) (d : Dev) : Dev := if holds then emergency cond x d else condOver cond x d

/-- What a junction reading says of condition 0: 110 °C on either die. -/
def Dev.junctions (d : Dev) (x : Ctx) : Dev := condRead 0 (decide (110 ≤ max d.power.tjA d.power.tjB)) x d

/-- An evaluation (R464): at a tick that is a multiple of 12,500. In an emergency d is not moved (R466). Its readings also show whether the
conditions of the junctions hold, and whether those of the input voltage are over. -/
def ptcEval (w cv ca tjA tjB : Nat) (x : Ctx) (d : Dev) : Dev :=
  if x.now % 12500 ≠ 0 then d
  else
    let p := d.power
    let cap := min p.capWatts p.coolLimit
    let nd := if p.emergency then p.d else nextD p.d w cap (max tjA tjB)
    let d := { d with power := { p with d := nd, capEff := cap, watts := w, volts := cv, amps := ca, tjA := tjA, tjB := tjB } }
    let d := if 4200 ≤ cv then condOver 2 x d else d
    (if cv ≤ 6200 then condOver 3 x d else d).junctions x

/-- Every emergency condition has been clear for 100 ms: normal control resumes from 48/64 (R466). -/
def emergencyOver (x : Ctx) (d : Dev) : Dev :=
  let p := d.power
  if p.emergency && p.active == 0 && (p.emergSince.getD 0) + 100 * ticksMs ≤ x.now then
    { d with power := { p with emergency := false, d := 48, emergSince := none } }
  else d

/-- Inlet, outlet, flow and NAND temperature as measured every 100 ms, the power limit they give, and the conditions they show (R466, R469,
R470). -/
def coolant (inlet outlet flow nand : Nat) (x : Ctx) (d : Dev) : Dev :=
  let p := d.power
  let d := { d with power := { p with inlet := inlet, outlet := outlet, flow := flow, nandT := nand, coolLimit := coolantLimit inlet } }
  condRead 6 (decide (85 < nand)) x (condRead 5 (decide (flow < 1200)) x (condRead 4 (decide (52 < inlet)) x d))

/-! ### Sensors (R477) -/

/-- Upper thresholds of a sensor, warning to fatal (R477); the flow sensor has none. -/
def upperThr (p : Power) : Nat → List Nat
  | 0 => [60000, 62000, 66000]
  | 1 => [33000, 37500, 45000]
  | 2 => [(97 * p.capEff + 99) / 100, p.capEff, 1980]
  | 3 => [45, 48, 52]
  | 4 => [60, 65, 70]
  | 6 => [95, 100, 110]
  | 7 => [95, 100, 110]
  | 8 => [85, 95, 105]
  | 9 => [70, 80, 85]
  | 10 => [1, 16, 48]
  | _ => []

/-- Lower thresholds: input voltage and coolant flow (R477). -/
def lowerThr : Nat → List Nat
  | 0 => [46000, 44000, 42000]
  | 5 => [1800, 1600, 1200]
  | _ => []

/-- One sensor event for each threshold crossed, in either direction; an upper threshold is met at its value, a lower
one below it (log entry 14). `lv` is the level of the list's first threshold. -/
def crossUp (n : Nat) (old new : Nat) : Nat → List Nat → Dev → Dev
  | _, [], d => d
  | lv, t :: ts, d =>
    let d := if decide (t ≤ old) == decide (t ≤ new) then d else d.out (.sensor n lv (decide (t ≤ new)))
    crossUp n old new (lv + 1) ts d
def crossDown (n : Nat) (old new : Nat) : Nat → List Nat → Dev → Dev
  | _, [], d => d
  | lv, t :: ts, d =>
    let d := if decide (old < t) == decide (new < t) then d else d.out (.sensor n lv (decide (new < t)))
    crossDown n old new (lv + 1) ts d

/-- A reading that crosses no threshold, held before the first update. -/
def calmReading : Nat → Nat
  | 0 => 56000
  | 5 => 2000
  | _ => 0

/-- A sensor's 100 ms update. -/
def sensorSet (n r : Nat) (_ : Ctx) (d : Dev) : Dev :=
  if n > 10 then d
  else
    let old := tgetD d.power.sensors n (calmReading n)
    let d' := crossDown n old r 1 (lowerThr n) (crossUp n old r 1 (upperThr d.power n) d)
    { d' with power := { d'.power with sensors := tset d'.power.sensors n r } }

/-- A write of DEV_PWR_CAP by the control host's PF; any value outside 600-1,650 has no effect. -/
def pwrCapWrite (f : Fn) (w : Word) (_ : Ctx) (d : Dev) : Dev :=
  let v := wfld w 10 0
  if d.isCtrl f ∧ 600 ≤ v ∧ v ≤ 1650 then { d with power := { d.power with capWatts := v } } else d

/-- The two junction sensors of a die (R416, R466): the higher reading governs, and more than 5 °C apart is an ALARM. -/
def dieTemp (die t0 t1 : Nat) (x : Ctx) (d : Dev) : Dev :=
  if die > 1 then d
  else
    let t := max t0 t1
    let p := d.power
    let d := Dev.junctions { d with power := if die = 0 then { p with tjA := t } else { p with tjB := t } } x
    if t0 > t1 + 5 ∨ t1 > t0 + 5 then d.recDev x .alarm 9 (source 17 die) (wd t0) (wd t1) 0 else d

/-! ### Speed factor and timers -/

/-- A die's measurement of its speed factor, in 1/1024 (R20, R21), at a tick that is a multiple of 125,000 (log entry 85); TIME_SPEED
holds 16 bits of it; 0.93 is 952. -/
def speedSet (die f : Nat) (x : Ctx) (d : Dev) : Dev :=
  if die > 1 ∨ x.now % 125000 ≠ 0 then d
  else
    let f := min 0xFFFF f
    let d := { d with speed := if die = 0 then (f, d.speed.2) else (d.speed.1, f) }
    let quiet := match tget d.speedLow die with
      | some t => decide (t + 1250000 ≤ x.now)
      | none => true
    if f < 952 && quiet then
      { d with speedLow := tset d.speedLow die x.now }.recDev x .alarm 1 (source 17 die) (wd f) 0 0
    else d

/-- A timer with its registers at reset. -/
def Timer.reset : Timer := ⟨0, 0, false, false, none⟩

/-- A PF's timer reaches its compare value (R26, R38), once in that tick; EN stays as it is (log entry 85). -/
def timerHit (port n : Nat) (x : Ctx) (d : Dev) : Dev :=
  let t := tgetD d.timers (port * 16 + n) Timer.reset
  if port < 2 && n < 16 && t.en && t.cmp == x.now % 2 ^ 64 && t.last != some x.now then
    let t := { t with fired := true, cmp := (t.cmp + t.period) % 2 ^ 64, last := some x.now }
    { d with timers := tset d.timers (port * 16 + n) t }.recDevTo x port .log 0x201 (source 17 (16 + n)) (wd port) 0 0
  else d

/-- A 32-bit read of TIME_NOW_LO by a function (R22): the high half is latched for it. -/
def nowLo (f : Fn) (x : Ctx) (d : Dev) : Dev :=
  if d.fnLive f then
    { d with nowHi := tset d.nowHi f.idx (hiW x.now) }.out (.readData f (leBytes 4 (x.now % 2 ^ 32)) false)
  else d

def effPtcEvaluate (w cv ca tjA tjB : Nat) (s : State) : Host.Outcome State Fault Refusal := onDev (ptcEval w cv ca tjA tjB) s
def effEmergencyDetect (cond : Nat) (s : State) : Host.Outcome State Fault Refusal := onDev (emergency cond) s
def effEmergencyClear (s : State) : Host.Outcome State Fault Refusal := onDev emergencyOver s
def effCoolantSample (i o f n : Nat) (s : State) : Host.Outcome State Fault Refusal := onDev (coolant i o f n) s
def effSensorUpdate (n r : Nat) (s : State) : Host.Outcome State Fault Refusal := onDev (sensorSet n r) s
def effDevPwrCapWrite (f : Fn) (w : Word) (s : State) : Host.Outcome State Fault Refusal := onDev (pwrCapWrite f w) s
def effDieTempSensorSample (die t0 t1 : Nat) (s : State) : Host.Outcome State Fault Refusal := onDev (dieTemp die t0 t1) s
def effSpeedMeasure (die f : Nat) (s : State) : Host.Outcome State Fault Refusal := onDev (speedSet die f) s
def effTimerFire (port n : Nat) (s : State) : Host.Outcome State Fault Refusal := onDev (timerHit port n) s
def effTimeNowLoRead (f : Fn) (s : State) : Host.Outcome State Fault Refusal := onDev (nowLo f) s

end Sys2Proof.Machine
end

