-- ==== Sys2Proof/Machine/Flt.lean ====
section
/-! DEFINITION. Corrected and uncorrectable HBM codewords, patrol scrub, delivery of event records, and HALTED
(R415-R438). -/

namespace Sys2Proof.Machine

/-! ### HBM errors (R155, R156, R421, R427) -/

def ticksHour : Nat := 450000000000

/-- The corrected codewords of a unit's channel within the hour before `now`, newest first. -/
def ceRecent (now : Nat) (l : List Nat) : List Nat := l.filter fun t => now < t + ticksHour

/-- A corrected codeword of a channel (R427): the alarm falls due when the count within an hour reaches the threshold
and a full hour has passed since it was last at it. -/
def GUnit.ceAdd (g : GUnit) (now thresh : Nat) : GUnit :=
  let l := now :: ceRecent now g.ceTicks
  let g := { g with ceTicks := l }
  match l[thresh - 1]? with
  | none => g
  | some t =>
    let quiet := match g.ceEnd with
      | none => true
      | some e => decide (e + ticksHour ≤ now)
    { g with ceEnd := some (t + ticksHour), ceDue := g.ceDue || quiet }

/-- A corrected HBM codeword at an address. -/
def Dev.hbmCe (d : Dev) (x : Ctx) (a : Nat) : Dev :=
  let d := d.bumpDev 0x0F010C 1
  d.setGunit (unitOf a) ((d.gunit (unitOf a)).ceAdd x.now (fld (d.devReg 0x0F0108) 15 0))

/-- The partition that holds an HBM address. -/
def Dev.holder (d : Dev) (a : Nat) : Option Nat :=
  match tget d.mem.gran (gran a) with
  | some g => some g.part
  | none => tget d.mem.exts (extentNo a)

/-- The report of an uncorrectable HBM codeword: counted, and recorded once for a granule in 10 ms (R421). -/
def Dev.hbmUeReport (d : Dev) (x : Ctx) (a : Nat) (scrub : Bool) : Dev :=
  let d := d.bumpDev 0x0F0110 1
  let seen := match tget d.ueAt (gran a) with
    | some t => decide (x.now < t + 1250000)
    | none => false
  if seen then d
  else
    { d with ueAt := tset d.ueAt (gran a) x.now }.recDev x .fault 0x103 (source 5 (unitOf a)) (loW a)
      (wd (a / 2 ^ 32 % 2 ^ 16)) (if scrub then 1 else 0)

/-- An uncorrectable codeword met at an address: poison is written over it (R156), and it is reported. A codeword that
is poisoned already is not reported again. -/
def Dev.hbmUe (d : Dev) (x : Ctx) (a : Nat) (scrub : Bool) : Dev :=
  if d.mem.poison.contains (a / 32) then d else (d.hbmPoison [a / 32]).hbmUeReport x a scrub

/-- What the code found at an address. -/
def Dev.hbmEcc (d : Dev) (x : Ctx) (a : Nat) (scrub : Bool) : Ecc → Dev
  | .clean => d
  | .corrected => d.hbmCe x a
  | .uncorrectable => d.hbmUe x a scrub

/-- A patrol read of one codeword (R425): a poisoned one is skipped; the last codeword of a stack ends its pass. -/
def scrub (a : Nat) (e : Ecc) (x : Ctx) (d : Dev) : Dev :=
  if !isHbm a then d
  else
    let d := if d.mem.poison.contains (a / 32) then d else d.hbmEcc x a true e
    if stackOff a / 32 = stackBytes / 32 - 1 then
      { d with scrubPass := tset d.scrubPass (stackOf a) (satAdd 0xFFFF (tgetD d.scrubPass (stackOf a) 0) 1) }
    else d

/-- FLT_STATUS.SCRUB_PASS: the passes that every stack has completed. -/
def Dev.scrubPasses (d : Dev) : Nat :=
  (List.range 16).foldl (fun m s => min m (tgetD d.scrubPass s 0)) 0xFFFF

/-- ALARM CE_RATE of a unit's channel (R427). -/
def ceAlarm (u : Nat) (x : Ctx) (d : Dev) : Dev :=
  let g := d.gunit u
  if u < 512 && g.ceDue then
    (d.setGunit u { g with ceDue := false }).recDev x .alarm 8 (source 5 u) (wd (ceRecent x.now g.ceTicks).length) 0 0
  else d

/-! ### Event rings (R433-R438) -/

/-- The event ring of a function. -/
def Dev.eq (d : Dev) (f : Nat) : Eq := tgetD d.eqs f Eq.reset

/-- The entries of an event ring. -/
def Eq.cap (e : Eq) : Nat := 2 ^ e.size

/-- A write to FLT_EQ_CFG: the checks are those of a reply ring (R434, R46); EN stays 0 where one fails. -/
def eqCfgWrite (f : Fn) (w : Word) (_ : Ctx) (d : Dev) : Dev :=
  if !(d.fnLive f && d.writable) then d
  else
    let e := d.eq f.idx
    let put (e : Eq) : Dev := { d with eqs := tset d.eqs f.idx e }
    let en := bitAt w.toNat 31
    if e.en then if en then d else put { e with en := false }
    else
      let e := { e with size := wfld w 3 0 }
      if !en ∨ e.base % 4096 ≠ 0 ∨ e.size < 8 ∨ e.size > 14 ∨ !d.bindOk f then put e
      else put { e with en := true, head := 0, tail := 0, phase := true, unsig := 0, firstUnsig := none }

/-- A write to FLT_EQ_HEAD. -/
def eqHeadWrite (f : Fn) (w : Word) (_ : Ctx) (d : Dev) : Dev :=
  let e := d.eq f.idx
  if d.fnLive f && d.writable then
    { d with eqs := tset d.eqs f.idx { e with head := wfld w 13 0 } }
  else d

/-- A path's own DROP record, once its occupancy has fallen to half and drops have been counted (R438). -/
def Dev.dropRecord (d : Dev) (x : Ctx) (k : Nat) : Dev :=
  let p := tgetD d.paths k Path.reset
  if p.sinceT + p.sinceL + p.sinceF ≠ 0 ∧ 2 * p.others ≤ pathCap k then
    let r : Rec := ⟨.alarm, 7, source 15 0, false, 0, x.now, wd p.sinceT, wd p.sinceL, wd p.sinceF, decide (16 ≤ k),
      if k < 16 then k else 0, (x.now, x.cls)⟩
    let p := { p with sinceT := 0, sinceL := 0, sinceF := 0 }
    { d with paths := tset d.paths k p }.place k r
  else d

/-- The number of a class in an event record (R430). -/
def RecClass.code : RecClass → Nat
  | .alarm => 0
  | .fault => 1
  | .trace => 2
  | .log => 3

/-- The 32 bytes of an event record (R430), with the phase of the ring's pass. -/
def Rec.bytes (r : Rec) (phase : Bool) : List Byte :=
  wordBytes [wd (r.cls.code * 2 ^ 30 + (if phase then 2 ^ 29 else 0) + (if r.anon then 2 ^ 28 else 0) + r.source), wd (r.rep * 65536 + r.code),
    loW r.time, hiW r.time, r.a0, r.a1, r.a2, wd ((if r.device then 16 else 0) + r.part)]

/-- One record written at the tail of an event ring; entry 16 fires under FLT_EQ_COAL (R434, R53). -/
def Dev.writeEvent (d : Dev) (x : Ctx) (f : Fn) (r : Rec) : Dev :=
  let e := d.eq f.idx
  let t := (e.tail + 1) % e.cap
  let d := d.out (.event f (e.base + 32 * e.tail) (r.bytes e.phase))
  let n := e.unsig + 1
  let e := { e with tail := t, phase := if t = 0 then !e.phase else e.phase }
  if e.coalCount ≠ 0 ∧ n ≥ e.coalCount then
    { d with eqs := tset d.eqs f.idx { e with unsig := 0, firstUnsig := none } }.fire f 16
  else { d with eqs := tset d.eqs f.idx { e with unsig := n, firstUnsig := some (e.firstUnsig.getD x.now) } }

/-- The oldest staged record of a partition or PF path moves to its ring when an entry is free (R434, R435). -/
def deliver (k : Nat) (x : Ctx) (d : Dev) : Dev :=
  match d.pathFn k with
  | none => d
  | some f =>
    let e := d.eq f.idx
    let p := tgetD d.paths k Path.reset
    match p.staged with
    | [] => d
    | r :: rs =>
      if e.en && (e.tail + 1) % e.cap != e.head && !(d.port f.port).lost then
        ({ d with paths := tset d.paths k { p with staged := rs } }.writeEvent x f r).dropRecord x k
      else d

/-- The oldest staged record of the sideband path, taken by a bus (R433, R476). -/
def Dev.sidebandTake (d : Dev) (x : Ctx) (bus : Nat) : Dev :=
  let p := tgetD d.paths sidebandPath Path.reset
  match p.staged with
  | [] => d
  | r :: rs =>
    ({ d with paths := tset d.paths sidebandPath { p with staged := rs } }.out (.sideband bus r)).dropRecord x sidebandPath

/-! ### Units out of service and HALTED (R423, R424) -/

/-- FAULT UNIT_OFFLINE; the spec does not number the causes, so the argument is a free value (log entry 5). -/
def Dev.unitOffline (d : Dev) (x : Ctx) (src : Nat) : Dev :=
  let r := d.takeFree
  r.2.recDev x .fault 0x105 src (wd r.1) 0 0

/-- Every outstanding command ended with a status. -/
def Dev.endAll (d : Dev) (x : Ctx) (st : Status) : List CmdRec → Dev
  | [] => d
  | c :: cs => (d.endCmd x c st []).endAll x st cs

/-- FAULT DEVICE_HALT on every path (R424); a partition sees it anonymously (R392). -/
def Dev.haltRecords (d : Dev) (x : Ctx) (cause : Nat) : List Nat → Dev
  | [] => d
  | k :: ks =>
    (d.place k ⟨.fault, 0x106, source 0 0, decide (k < 16), 0, x.now, wd cause, 0, 0, true, 0, (x.now, x.cls)⟩).haltRecords x cause ks

/-- The module enters HALTED: cause 1 the event tick, 2 the control cluster. Replies are written only while a control
core can write them. -/
def Dev.halt (d : Dev) (x : Ctx) (cause : Nat) : Dev :=
  let d := if cause = 2 then { d with cmds := [], ops := [] } else d.endAll x .deviceFault d.cmds
  let d := { d with halted := true, boot := { d.boot with state := 12 } }
  ((d.out (.aer 0)).out (.aer 1)).haltRecords x cause (List.range 19)

/-- Control cores out of service. -/
def Dev.coresDown (d : Dev) : Nat := ((List.range 8).filter fun c => thas d.offline (source 1 c)).length

/-- A control core's fault (R423): its outstanding commands end; a second fault within 1 s keeps it offline, and the
loss of all eight halts the module. -/
def controlFault (core : Nat) (x : Ctx) (d : Dev) : Dev :=
  let src := source 1 core
  if core > 7 ∨ thas d.offline src then d
  else
    let d := d.endAll x .deviceFault (d.cmds.filter fun c => Config.controlCore c.seq % 8 == core)
    let again := match tget d.faultAt src with
      | some t => decide (x.now ≤ t + 1000 * ticksMs)
      | none => false
    let d := { d with faultAt := tset d.faultAt src x.now }
    if again then
      let d := { d with offline := tset d.offline src 1 }.unitOffline x src
      if d.coresDown = 8 then d.halt x 2 else d
    else d

/-- A loss of the tick or of the control cluster (R424). A lost tick stops device time. -/
def tickLoss (cause : Nat) (s : State) : State :=
  if cause = 1 ∨ cause = 2 then
    { s with dev := s.dev.halt s.ctx cause, clock := if cause = 1 then { s.clock with tick := false } else s.clock }
  else s

def effScrubRead (a : Nat) (e : Ecc) (s : State) : Host.Outcome State Fault Refusal := onDev (scrub a e) s
def effCeRate (u : Nat) (s : State) : Host.Outcome State Fault Refusal := onDev (ceAlarm u) s
def effFltEqEnable (f : Fn) (w : Word) (s : State) : Host.Outcome State Fault Refusal := onDev (eqCfgWrite f w) s
def effFltEqHeadWrite (f : Fn) (w : Word) (s : State) : Host.Outcome State Fault Refusal := onDev (eqHeadWrite f w) s
def effEventRecordDeliver (k : Nat) (s : State) : Host.Outcome State Fault Refusal := onDev (deliver k) s
def effControlCoreFault (c : Nat) (s : State) : Host.Outcome State Fault Refusal := onDev (controlFault c) s
def effTickLossHalt (c : Nat) (s : State) : Host.Outcome State Fault Refusal :=
  .next (if s.clock.power then tickLoss c s else s)

end Sys2Proof.Machine
end

