-- ==== Sys2Proof/Machine/Crc.lean ====
section
/-! DEFINITION. The check-value unit (R454-R456) and the meter's use of it (R401). -/

namespace Sys2Proof.Machine

/-- The owner code of a port's PF (CRC_CTRL.OWNER). -/
def crcOwner (port : Nat) : Nat := 2 + port

/-- A write to the CRC block takes effect (R455, R456): CLAIM and RELEASE act only for a free unit and for the owner;
INIT and data from anyone but the owner count as refused. -/
def CrcUnit.apply (c : CrcUnit) (port : Nat) : CrcWrite → CrcUnit
  | .ctrl release claim init =>
    let me := crcOwner port
    let c := if init then
        if c.owner = me then { c with value := 0xFFFFFFFF#32 } else { c with refused := satAdd top32 c.refused 1 }
      else c
    let c := if claim && c.owner == 0 then { c with owner := me } else c
    if release && c.owner == me then { c with owner := 0 } else c
  | .data n w =>
    if c.owner = crcOwner port then { c with value := crcRun c.value (leBytes n w.toNat) }
    else { c with refused := satAdd top32 c.refused 1 }

/-- Writes applied in arrival order. -/
def CrcUnit.applyAll (c : CrcUnit) : List (Nat × CrcWrite) → CrcUnit
  | [] => c
  | (p, w) :: l => (c.apply p w).applyAll l

/-- A PF's write to the CRC block: it waits while the meter holds the unit (R401). A VF's write has no effect (R5), nor
has any before start-up has ended (R448). -/
def crcWrite (f : Fn) (w : CrcWrite) (_ : Ctx) (d : Dev) : Dev :=
  if f.num ≠ 0 ∨ !d.fnLive f ∨ !d.writable then d
  else if d.crc.meter then { d with crc := { d.crc with waiting := d.crc.waiting ++ [(f.port, w)] } }
  else { d with crc := d.crc.apply f.port w }

/-- The meter takes the unit: the value is cleared and the epoch rises; the owner keeps its claim. -/
def crcTake (_ : Ctx) (d : Dev) : Dev :=
  if d.crc.meter then d
  else { d with crc := { d.crc with meter := true, value := 0xFFFFFFFF#32, epoch := (d.crc.epoch + 1) % 2 ^ 16 } }

/-- The meter releases the unit: the value is cleared again, and the writes that waited are applied. -/
def crcGive (_ : Ctx) (d : Dev) : Dev :=
  if d.crc.meter then
    { d with crc := { d.crc with meter := false, value := 0xFFFFFFFF#32, waiting := [] }.applyAll d.crc.waiting }
  else d

/-- Host loss on a port releases its PF's claim (R456). -/
def CrcUnit.dropPort (c : CrcUnit) (port : Nat) : CrcUnit := if c.owner = crcOwner port then { c with owner := 0 } else c

def effCrcInit (f : Fn) (s : State) : Host.Outcome State Fault Refusal := onDev (crcWrite f (.ctrl false false true)) s
def effCrcClaim (f : Fn) (s : State) : Host.Outcome State Fault Refusal := onDev (crcWrite f (.ctrl false true false)) s
def effCrcRelease (f : Fn) (s : State) : Host.Outcome State Fault Refusal := onDev (crcWrite f (.ctrl true false false)) s
def effCrcIn8 (f : Fn) (w : Word) (s : State) : Host.Outcome State Fault Refusal := onDev (crcWrite f (.data 1 w)) s
def effCrcIn16 (f : Fn) (w : Word) (s : State) : Host.Outcome State Fault Refusal := onDev (crcWrite f (.data 2 w)) s
def effCrcIn32 (f : Fn) (w : Word) (s : State) : Host.Outcome State Fault Refusal := onDev (crcWrite f (.data 4 w)) s
def effMeterCrcTake (s : State) : Host.Outcome State Fault Refusal := onDev crcTake s
def effMeterCrcRelease (s : State) : Host.Outcome State Fault Refusal := onDev crcGive s

end Sys2Proof.Machine
end

