-- ==== Sys2Proof/Machine/Shp.lean ====
section
/-! DEFINITION. The shapers: profiles, buckets, refills, credit mode and the start of units (R326-R336). -/

namespace Sys2Proof.Machine

/-! ### Profiles -/

/-- The domain of a port node: 0 ETH, 1 NAND, 2 PCIE (R326). -/
def shDomain (node : Nat) : Nat := if node < 16 then 0 else if node = 16 then 1 else 2

/-- A profile: RATE and PEAK in MB/s, BURST in units of 4,096 bytes. -/
structure ShProf where
  rate : Nat
  peak : Nat
  burst : Nat
deriving DecidableEq, Repr

/-- Flow profile k of partition p in a domain; the partition's own profile; a port's profile. -/
def Dev.flowProf (d : Dev) (p dom k : Nat) : ShProf :=
  let o := 0x0A0000 + dom * 0x100 + k * 0x10
  ⟨fld (d.partReg p o) 16 0, fld (d.partReg p (o + 4)) 16 0, d.partReg p (o + 8)⟩
def Dev.partProf (d : Dev) (p dom : Nat) : ShProf :=
  let o := 0x0A0300 + dom * 0x10
  ⟨fld (d.partReg p o) 16 0, fld (d.partReg p (o + 4)) 16 0, d.partReg p (o + 8)⟩
def Dev.portProf (d : Dev) (j : Nat) : ShProf :=
  let o := 0x0A1000 + j * 0x10
  ⟨fld (d.devReg o) 16 0, fld (d.devReg (o + 4)) 16 0, d.devReg (o + 8)⟩

/-- A partition's WEIGHT in a domain. -/
def Dev.shWeight (d : Dev) (p dom : Nat) : Nat := fld (d.partReg p (0x0A030C + dom * 0x10)) 7 0

/-- The cap of a bucket, in units of 1/125 byte. -/
def ShProf.cap (f : ShProf) : Int := (f.burst * 4096 * 125 : Nat)

/-- A bucket that a profile governs. -/
def ShProf.bucket (f : ShProf) (credit : Int) : Bucket := ⟨credit, f.rate, f.peak, f.burst, 0⟩

/-! ### Buckets -/

def partBKey (node p : Nat) : Nat := node * 16 + p
def flowBKey (node p flow : Nat) : Nat := partBKey node p * 2 ^ 64 + flow

/-- The flow of a session's parks (kind 0) and spills (kind 1), by the session's key; the common flows of R326 are
their own numbers 2 to 5. -/
def sesFlow (key kind : Nat) : Nat := (key + 1) * 8 + kind

/-- The state of a node, of a partition under a node. -/
def Dev.shNode (d : Dev) (j : Nat) : ShNode := tgetD d.shp.nodes j ⟨(d.portProf j).bucket 0, true, none, 0⟩
def Dev.shPart (d : Dev) (j p : Nat) : ShPart := tgetD d.shp.parts (partBKey j p) ⟨(d.partProf p (shDomain j)).bucket 0, 0, 0⟩

/-- Replaces the state of a node, of a partition under a node, of a flow. -/
def Dev.setShNode (d : Dev) (j : Nat) (n : ShNode) : Dev := { d with shp := { d.shp with nodes := tset d.shp.nodes j n } }
def Dev.setShPart (d : Dev) (j p : Nat) (n : ShPart) : Dev :=
  { d with shp := { d.shp with parts := tset d.shp.parts (partBKey j p) n } }
def Dev.setShFlow (d : Dev) (k : Nat) (f : ShFlow) : Dev := { d with shp := { d.shp with flows := tset d.shp.flows k f } }

/-- Whether credit mode is called for at a node (R330). -/
def Dev.creditMode (d : Dev) (x : Ctx) (j : Nat) : Bool :=
  let m := d.rwReg (devKey 0x0A1200) 0x0A1200
  !d.shp.committed || bitAt m (4 + shDomain j) || bitAt m (8 + shDomain j) ||
    (d.shNode j).until_.elim false fun t => decide (x.now < t)

/-- A flow, created with a full bucket, or with none of its credit while credit mode is in force (R327). -/
def Dev.shFlow (d : Dev) (j p flow prof : Nat) : ShFlow :=
  let f := d.flowProf p (shDomain j) prof
  (tget d.shp.flows (flowBKey j p flow)).getD ⟨prof, f.bucket (if (d.shNode j).mode then 0 else f.cap), [], none, 0⟩

/-- Units that wait at a flow, behind those already there. -/
def Dev.shape (d : Dev) (j p flow prof : Nat) (us : List ShUnit) : Dev :=
  let f := d.shFlow j p flow prof
  d.setShFlow (flowBKey j p flow) { f with queue := f.queue ++ us }

/-- Units that wait no longer. -/
def Dev.unshape (d : Dev) (gone : ShUnit → Bool) : Dev :=
  { d with shp := { d.shp with flows := tmap d.shp.flows fun _ f => { f with queue := f.queue.filter fun u => !gone u } } }

/-- The writes of map units of an operation: 32 KiB for each unit of the parking region, six times that in the bulk region (R131,
R326). -/
def Dev.shapeNand (d : Dev) (p flow prof op : Nat) (us : List Nat) : Dev :=
  d.shape 16 p flow prof (us.map fun u =>
    ⟨if (tget d.nand.units u).elim 0 NUnit.region = 0 then 32768 else 196608, .nand op u⟩)

/-- Whether an operation still has NAND writes that wait for credit. -/
def Dev.nandWaits (d : Dev) (op : Nat) : Bool :=
  d.shp.flows.any fun f => f.2.queue.any fun u => match u.what with
    | .nand o _ => o == op
    | _ => false

/-- Writes to host memory in pieces of up to 4 KiB; the last one finishes the operation. -/
def hostUnits (port op : Nat) (fin : Status × List Word) : Nat → Nat → List Byte → List ShUnit
  | 0, _, _ => []
  | n + 1, addr, bs =>
    let b := bs.take 4096
    ⟨b.length, .host port addr b op (if n = 0 then some fin else none)⟩ :: hostUnits port op fin n (addr + 4096) (bs.drop 4096)

/-- Bytes written to host memory for an operation of a submission ring. -/
def Dev.shapeHost (d : Dev) (f : Fn) (sq p op addr : Nat) (bs : List Byte) (st : Status) (res : List Word) : Dev :=
  d.shape (17 + f.port) p (f.idx * 16 + sq) (sq % 8) (hostUnits f.port op (st, res) ((bs.length + 4095) / 4096) addr bs)

/-! ### Refill (R327, R331, R332) -/

/-- One refill of a bucket: `before` and `mode` say whether credit mode was and is in force, `waits` whether a unit
waits. -/
def Bucket.refill (b : Bucket) (f : ShProf) (before mode waits : Bool) : Bucket :=
  let c := if before != mode then min b.credit 0 else b.credit
  let add : Int := (f.rate * 1024 : Nat)
  let c :=
    if !mode || waits then min f.cap (c + add)
    else if c > 0 then 0
    else min 0 (c + add)
  ⟨min f.cap c, f.rate, f.peak, f.burst, 0⟩

/-- The flows under a node, and of a partition under it. -/
def Dev.nodeFlows (d : Dev) (j : Nat) : Tbl ShFlow := d.shp.flows.filter fun f => f.1 / 2 ^ 68 == j
def Dev.partFlows (d : Dev) (j p : Nat) : Tbl ShFlow := d.shp.flows.filter fun f => f.1 / 2 ^ 64 == partBKey j p

/-- The current rate of a congested flow after a refill: 64 refills without a CNP raise it by NET_CC.STEP, up to the
profile's rate (R322). -/
def ShFlow.calm (f : ShFlow) (step rate : Nat) : ShFlow :=
  match f.cc with
  | none => f
  | some c =>
    if f.quiet + 1 < 64 then { f with quiet := f.quiet + 1 }
    else if c + step * 125 ≥ rate then { f with cc := none, quiet := 0 }
    else { f with cc := some (c + step * 125), quiet := 0 }

/-- One refill of a flow; a congested one fills at the lesser of its rates (R329). -/
def Dev.refillFlow (d : Dev) (x : Ctx) (k : Nat) (f : ShFlow) : ShFlow :=
  let j := k / 2 ^ 68
  let p := k / 2 ^ 64 % 16
  let pr := d.flowProf p (shDomain j) f.prof
  let pr' := { pr with rate := min pr.rate (f.cc.getD pr.rate) }
  let f' := { f with b := f.b.refill pr' (d.shNode j).mode (d.creditMode x j) (!f.queue.isEmpty) }
  f'.calm (fld (d.partReg p 0x090024) 23 16) pr.rate

/-- One refill of a partition under a node. -/
def Dev.refillPart (d : Dev) (x : Ctx) (k : Nat) (n : ShPart) : ShPart :=
  let j := k / 16
  let waits := (d.partFlows j (k % 16)).any fun f => !f.2.queue.isEmpty
  { n with b := n.b.refill (d.partProf (k % 16) (shDomain j)) (d.shNode j).mode (d.creditMode x j) waits }

/-- One refill of a node. -/
def Dev.refillNode (d : Dev) (x : Ctx) (j : Nat) (n : ShNode) : ShNode :=
  let m := d.creditMode x j
  let waits := (d.nodeFlows j).any fun f => !f.2.queue.isEmpty
  { n with b := n.b.refill (d.portProf j) n.mode m waits, mode := m }

/-- Whether a bucket lets a unit start: credit above zero and PEAK not yet reached; a shard answering a notice may take
the bucket down to minus BURST. -/
def Bucket.lets (b : Bucket) (shard : Bool) (bytes : Nat) : Bool :=
  decide (b.used * 125 ≤ b.peak * 1024) &&
    (decide (b.credit > 0) || (shard && decide (b.credit - (bytes * 125 : Nat) ≥ -(b.burst * 4096 * 125 : Nat))))

/-- The flow of a partition's checkpoint shards, by its key (R326, R335). -/
def shardFlow (k : Nat) : Bool := k / 2 ^ 68 == 16 && k % 2 ^ 64 == 4

/-- Whether a partition's unit waited for its own bucket in a domain. -/
def Dev.shHeld (d : Dev) (p dom : Nat) : Bool :=
  (List.range 19).any fun j => shDomain j == dom &&
    (d.partFlows j p).any fun f => f.2.queue.head?.elim false fun u => !(d.shPart j p).b.lets (shardFlow f.1) u.bytes

/-- The HELD counters of one refill interval. -/
def Dev.countHeld (d : Dev) : List (Nat × Nat) → Dev
  | [] => d
  | (p, dom) :: l => (if d.shHeld p dom then d.bumpPart p (0x0A0340 + dom * 4) 1 else d).countHeld l

/-- SHAPER_REFILL: at a tick that is a multiple of 1,024, once. -/
def shaperRefill (x : Ctx) (d : Dev) : Dev :=
  if x.now % 1024 ≠ 0 ∨ d.shp.lastRefill = some x.now then d
  else
    let d := d.countHeld ((List.range 16).flatMap fun p => (List.range 3).map fun m => (p, m))
    let d' := { d with shp :=
      { d.shp with
        flows := tmap d.shp.flows (d.refillFlow x)
        parts := (List.range 304).map fun k => (k, d.refillPart x k (d.shPart (k / 16) (k % 16)))
        nodes := (List.range 19).map fun j => (j, d.refillNode x j (d.shNode j))
        lastRefill := some x.now } }
    d'.drainEnd (drainId 10 0)

/-- CREDIT_MODE_RECOVER_END: the window of a node has passed. -/
def recoverEnd (j : Nat) (x : Ctx) (d : Dev) : Dev :=
  let n := d.shNode j
  if j < 19 && n.until_.elim false fun t => decide (t ≤ x.now) then d.setShNode j { n with until_ := none } else d

/-- A recovery window starts at a node (R330). -/
def Dev.startRecover (d : Dev) (x : Ctx) (j : Nat) : Dev :=
  d.setShNode j { d.shNode j with until_ := some (x.now + fld (d.devReg 0x0A1200) 31 16 * ticksMs) }

/-! ### The start of a unit (R328, R335) -/

/-- A unit's size deducted from a bucket. -/
def Bucket.spend (b : Bucket) (bytes : Nat) : Bucket := { b with credit := b.credit - (bytes * 125 : Nat), used := b.used + bytes }

/-- Whether the priority of a packet's queue pair is paused at its sub-port (R295). -/
def Dev.shPaused (d : Dev) (u : ShUnit) : Bool :=
  match u.what with
  | .net qpn _ _ =>
    match tget d.net.qps qpn with
    | some q => bitAt (tgetD d.net.paused q.sub 0) ((tget d.net.gids (q.sub * 16 + q.gid)).elim 0 Gid.pcp)
    | none => false
  | _ => false

/-- The head unit of a flow, when its three buckets let it start. -/
def Dev.flowHead (d : Dev) (j p : Nat) (k : Nat) (f : ShFlow) : Option ShUnit :=
  match f.queue with
  | [] => none
  | u :: _ =>
    let shard := shardFlow k
    if f.b.lets shard u.bytes && (d.shPart j p).b.lets shard u.bytes && (d.shNode j).b.lets shard u.bytes && !d.shPaused u then some u
    else none

/-- The next flow of a partition to be served: round robin after the last one. -/
def Dev.nextFlow (d : Dev) (j p : Nat) : Option (Nat × ShUnit) :=
  let l := (d.partFlows j p).filterMap fun f => (d.flowHead j p f.1 f.2).map fun u => (f.1, u)
  match l.find? fun f => decide (f.1 > (d.shPart j p).lastFlow) with
  | some f => some f
  | none => l.head?

/-- Deficit round robin from partition `turn` with the deficits so far: the partition and flow to serve, its deficit,
and the deficits. `fuel` bounds the partitions visited. -/
def Dev.drr (d : Dev) (j : Nat) : Nat → Nat → Tbl Nat → Option (Nat × Nat × ShUnit × Tbl Nat)
  | 0, _, _ => none
  | f + 1, p, ds =>
    let next := (p + 1) % 16
    let add (ds : Tbl Nat) : Tbl Nat :=
      if (d.nextFlow j next).isSome then tset ds next (tgetD ds next 0 + 4096 * d.shWeight next (shDomain j)) else ds
    match d.nextFlow j p with
    | some (k, u) => if u.bytes ≤ tgetD ds p 0 then some (p, k, u, ds) else d.drr j f next (add ds)
    | none => d.drr j f next (add ds)

/-- The unit that node j starts next. -/
def Dev.shNext (d : Dev) (j : Nat) : Option (Nat × Nat × ShUnit × Tbl Nat) :=
  if (List.range 16).all fun p => (d.nextFlow j p).isNone then none
  else d.drr j 1024 (d.shNode j).turn ((List.range 16).map fun p => (p, (d.shPart j p).deficit))

/-- The work request of a queue pair changed. -/
def Dev.modSend (d : Dev) (qpn op : Nat) (f : Send → Send) : Dev :=
  { d with net := { d.net with qps := tmod d.net.qps qpn fun q => { q with sends := q.sends.map fun s => if s.op = op then f s else s } } }

/-- What starting a unit does. The write of a map unit is made under the key version that is current when it starts (R133). -/
def Dev.startUnit (d : Dev) (x : Ctx) : ShWhat → Dev
  | .net qpn op p => (d.modSend qpn op fun s => { s with onWire := true, sentAt := x.now }).out (.packet p)
  | .nand _ u => { d with nand := { d.nand with units := tmod d.nand.units u fun v => { v with key := (d.keysOf v.part).2 } } }
  | .host port addr bs op fin =>
    let d := d.out (.hostWrite port addr bs)
    match fin with
    | some (st, res) => (d.freeDesc op).endOp x op st res
    | none => d

/-- SHAPED_UNIT_START: the unit that the arbiter chooses starts, and its size is deducted from its three buckets. -/
def shapedStart (j part flow bytes : Nat) (x : Ctx) (d : Dev) : Dev :=
  match d.shNext j with
  | none => d
  | some (p, k, u, ds) =>
    if j ≥ 19 ∨ p ≠ part ∨ k ≠ flowBKey j part flow ∨ u.bytes ≠ bytes then d
    else
      let d := (List.range 16).foldl (fun d q => d.setShPart j q { d.shPart j q with deficit := tgetD ds q 0 }) d
      let n := d.shNode j
      let d := d.setShNode j { n with b := n.b.spend bytes, turn := p }
      let d := match tget d.shp.flows k with
        | some f => d.setShFlow k { f with b := f.b.spend bytes, queue := f.queue.tail }
        | none => d
      let left := (d.partFlows j p).any fun f => !f.2.queue.isEmpty
      let sp := d.shPart j p
      let d := d.setShPart j p { sp with b := sp.b.spend bytes, deficit := if left then sp.deficit - bytes else 0, lastFlow := k }
      d.startUnit x u.what

def effShaperRefill (s : State) : Host.Outcome State Fault Refusal := onDev shaperRefill s
def effCreditModeRecoverEnd (j : Nat) (s : State) : Host.Outcome State Fault Refusal := onDev (recoverEnd j) s

end Sys2Proof.Machine
end

