-- ==== Sys2Proof/Machine/Mem.lean ====
section
/-! DEFINITION. The memory family: mapping, moves in granules, transfers, frozen objects and key versions
(R111-R119, R133-R137). -/

namespace Sys2Proof.Machine

/-! ### Reads of NAND (R126, R127, R129) -/

/-- SOURCE of a NAND die (R431). -/
def nandSource (die : Nat) : Nat := source 4 (256 + die)

/-- A read of a unit: it counts against its block. A read from a failed die, or one that the code cannot correct, is rebuilt from the
stripe with an ALARM; a unit that cannot be rebuilt becomes unreadable. -/
def Dev.unitRead (d : Dev) (x : Ctx) (u : Nat) (res : NandRead) : Dev :=
  match tget d.nand.units u with
  | none => d
  | some v =>
    let d := { d with nand := { d.nand with blocks := tmod d.nand.blocks v.block fun k =>
      { k with reads := k.reads + 1, tired := k.tired || res == .worn } } }
    let rebuilt (d : Dev) : Dev := d.recDev x .alarm 3 (nandSource v.die) (wd u) 0 0
    match res with
    | .unreadable => { d with nand := { d.nand with units := tset d.nand.units u { v with state := 2 } } }
    | .rebuilt => rebuilt d
    | .ok => if d.dieOk v.die || v.state != 1 then d else rebuilt d
    | .worn => if d.dieOk v.die || v.state != 1 then d else rebuilt d

/-- The data of a unit taken by the agent that asked for it: a read that NAND_READ_COMPLETE has not counted is counted here. -/
def Dev.nandUse (d : Dev) (x : Ctx) (u : Nat) : Dev :=
  if d.nand.readDone.contains u then { d with nand := { d.nand with readDone := d.nand.readDone.filter (· != u) } }
  else d.unitRead x u .ok
def Dev.nandUses (d : Dev) (x : Ctx) (us : List Nat) : Dev := us.foldl (fun d u => d.nandUse x u) d

def Dev.objUse (d : Dev) (x : Ctx) (tok : Nat) : Dev := d.nandUses x ((tget d.nand.objs tok).elim [] NandObj.units)

/-- A read that NAND_READ_COMPLETE reports: its data waits to be taken. -/
def Dev.nandDone (d : Dev) (x : Ctx) (u : Nat) (res : NandRead) : Dev :=
  let d := d.unitRead x u res
  { d with nand := { d.nand with readDone := addNum u d.nand.readDone } }

/-- The read that reaching a home makes: none for HBM. -/
def Dev.homeUse (d : Dev) (x : Ctx) : Home → Dev
  | .hbm _ => d
  | .nand u => d.nandUse x u

/-! ### Runs of extents (R136) -/

/-- Bits a run uses in words 2 and 3. -/
def runBits : List (Nat × Nat) := [(2, 0x7FFFF), (3, 0xFFFFF)]

/-- First extent and count. -/
def Req.first (q : Req) : Nat := q.f 2 18 0
def Req.count (q : Req) : Nat := q.f 3 19 0

/-- Whether every extent of a run is mapped; whether every one holds all its granules; whether any is mapped; whether any is frozen. -/
def Dev.allMapped (d : Dev) (p : Nat) (l : List Nat) : Bool := l.all fun e => (d.buf p e).isSome
def Dev.allWhole (d : Dev) (p : Nat) (l : List Nat) : Bool := l.all fun e => (d.buf p e).elim false fun b => b.gone.isEmpty
def Dev.anyMapped (d : Dev) (p : Nat) (l : List Nat) : Bool := l.any fun e => (d.buf p e).isSome
def Dev.anyFrozen (d : Dev) (p : Nat) (l : List Nat) : Bool := l.any fun e => (d.buf p e).elim false Extent.frozen

/-- Replaces a buffer-table entry. -/
def Dev.setBuf (d : Dev) (p e : Nat) (b : Extent) : Dev := { d with mem := { d.mem with bufs := tset d.mem.bufs (bufKey p e) b } }

/-- Extents of HBM entered in the buffer table, one after another from extent e, without the granules named. -/
def Dev.mapRun (d : Dev) (p : Nat) (gone : List Nat) : Nat → List Nat → Dev
  | _, [] => d
  | e, a :: as => (d.setBuf p e ⟨extentAddr a, [], false, 0, 0, gone⟩).mapRun p gone (e + 1) as

/-- The stacks that word 4 of MEM_BUF_MAP names. -/
def mapStacks (n : Nat) : Option (List Nat) := if n < 16 then some [n] else if n = 31 then some (List.range 16) else none

/-- `count` extents for partition p within its quota (R118). -/
def Dev.allotExts (d : Dev) (p : Nat) (sts : List Nat) (count : Nat) : Option (List Nat × Dev) :=
  if d.hbmUsed p + 64 * count > d.hbmQuota p then none else d.takeExts p sts count

/-- MEM_BUF_MAP. -/
def bufMap (_ : Ctx) (q : Req) (d : Dev) : Ans :=
  match mapStacks (q.f 4 4 0) with
  | none => .refuse .badParam
  | some sts =>
    if !q.clean (runBits ++ [(4, 0x1F)]) ∨ !runOk q.first q.count ∨ d.anyMapped q.part (runExts q.first q.count) then .refuse .badParam
    else
      match d.allotExts q.part sts q.count with
      | none => .refuse .doesNotFit
      | some (es, d) => .done .ok [wd q.count] (d.mapRun q.part [] q.first es)

/-- Whether an extent belongs to a sealed object, or to a package that is being opened (R383, R384). -/
def Dev.extSealed (d : Dev) (p e : Nat) : Bool :=
  d.mem.sealed.contains (bufKey p e) || (d.buf p e).elim false fun b => (d.share b.share).elim false Share.sealed

/-- Whether a range of the buffer space touches a sealed extent: an engine's read of it ends with NOT_PERMITTED (R384). -/
def Dev.bufSealed (d : Dev) (p off len : Nat) : Bool :=
  len != 0 && (runExts (off / 2097152) ((off + len - 1) / 2097152 + 1 - off / 2097152)).any (d.extSealed p)

/-- A refused access to a sealed object, counted (R384). -/
def Dev.sealedRead (d : Dev) (p : Nat) : Dev := d.bumpPart p 0x0D0014 1

/-- Whether a range of the buffer space lies in part in a COMPUTE region: an ordinary write to it ends with REGION_BUSY (R143). -/
def Dev.bufCompute (d : Dev) (p off len : Nat) : Bool :=
  ((d.bufRun p true (runFuel len) off len).getD []).any fun r => r.addr.elim false d.computeAt

/-- Whether an extent holds an index (R337). -/
def Dev.extIndexed (d : Dev) (p e : Nat) : Bool :=
  d.pan.idx.any fun i => i.2.part == p && i.2.first ≤ e && e < i.2.first + i.2.count

/-! ### Operations that hold extents -/

/-- The run of extents that an operation moves, stores or loads. -/
def OpKind.run : OpKind → Option (Nat × Nat)
  | .moveExt f dst _ => some (f, dst.length)
  | .store f c _ _ _ => some (f, c)
  | .load _ f dst _ => some (f, dst.length)
  | .unmap f c => some (f, c)
  | .pfxCreate _ f c _ => some (f, c)
  | .weights f c => some (f, c)
  | _ => none

/-- Whether an earlier operation of the same partition holds an extent of a run: operations on one extent act in order
of arrival (log entry 15). -/
def Dev.runHeld (d : Dev) (id p first count : Nat) : Bool :=
  d.ops.any fun o => decide (o.1 < id) && o.2.part == p && (o.2.kind.run.elim false fun r => decide (r.1 < first + count ∧ first < r.1 + r.2))

/-- The HBM granules of an extent. -/
def Dev.extGrans (d : Dev) (p e : Nat) : List Nat :=
  match d.buf p e with
  | none => []
  | some b => (List.range 64).filterMap fun i => match d.homeOf b i with
    | some (.hbm a) => some (gran a)
    | _ => none

/-- Whether a granule of a run is pinned or in copy. -/
def Dev.runPinned (d : Dev) (p first count : Nat) : Bool :=
  (runExts first count).any fun e => (d.extGrans p e).any fun g => d.pinned g || thas d.mem.copying g

/-- One extent unmapped: its HBM is released, and the entry goes. NAND units that a stopped MEM_STORE made belong to its
object. -/
def Dev.unmapExt (d : Dev) (p e : Nat) : Dev :=
  let d := d.releaseHomes ((d.extGrans p e).map fun g => .hbm (granAddr g))
  { d with mem := { d.mem with bufs := tdel d.mem.bufs (bufKey p e) } }

/-- A run unmapped, and the number of extents that were mapped. -/
def Dev.unmapRun (d : Dev) (p first count : Nat) : Nat × Dev :=
  let es := (runExts first count).filter fun e => (d.buf p e).isSome
  (es.length, es.foldl (fun d e => d.unmapExt p e) d)

/-- MEM_BUF_UNMAP: at once where nothing holds the extents, else when BUF_UNMAP_RESUME finds them released. -/
def bufUnmap (_ : Ctx) (q : Req) (d : Dev) : Ans :=
  if !q.clean runBits ∨ !runOk q.first q.count then .refuse .badParam
  else if d.anyFrozen q.part (runExts q.first q.count) || (runExts q.first q.count).any (d.extIndexed q.part) then .refuse .notPermitted
  else if d.runPinned q.part q.first q.count || d.runHeld q.seq q.part q.first q.count then .accept [] (.unmap q.first q.count) d
  else
    let r := d.unmapRun q.part q.first q.count
    .both [] .ok [wd r.1] r.2

/-- BUF_UNMAP_RESUME. -/
def unmapResume (id : Nat) (x : Ctx) (d : Dev) : Dev :=
  match tget d.ops id with
  | some ⟨_, p, .unmap first count, _⟩ =>
    if d.runPinned p first count || d.runHeld id p first count then d
    else
      let r := d.unmapRun p first count
      r.2.endOp x id .ok [wd r.1]
  | _ => d

/-! ### Moves in granules (R113-R118) -/

/-- A home switched in a buffer-table entry, and in the share table where the extent is frozen (R112, R114). -/
def Dev.setHome (d : Dev) (p e i : Nat) (h : Home) : Dev :=
  match d.buf p e with
  | none => d
  | some b =>
    let d := d.setBuf p e { b with moved := tset b.moved i h }
    match if b.share = 0 then none else d.share b.share with
    | none => d
    | some s => d.setShare b.share { s with homes := s.homes.set (b.six * 64 + i) h }

/-- Writes that waited for a granule's copy are applied at its new home (R115). -/
def Dev.applyStalled (d : Dev) (x : Ctx) (g : Nat) (dst : Option Home) : List Stalled → Dev
  | [] => d
  | w :: ws =>
    (if gran w.addr = g then dst.elim d fun h => d.homePut x h (w.addr % 32768) w.bytes w.bad else d).applyStalled x g dst ws

/-- Pins that waited for a granule's copy are taken at its new home (R115). -/
def Dev.movePins (d : Dev) (g : Nat) (dst : Option Home) : Dev :=
  let n := tgetD d.mem.pinWait g 0
  let d := { d with mem := { d.mem with pinWait := tdel d.mem.pinWait g } }
  match dst with
  | some (.hbm a) => if n = 0 then d else { d with mem := { d.mem with pins := tset d.mem.pins (gran a) (tgetD d.mem.pins (gran a) 0 + n) } }
  | _ => d

/-- The end of a granule's copy: the writes and the pins that waited go on at the home it has now. -/
def Dev.endCopy (d : Dev) (x : Ctx) (g : Nat) (dst : Option Home) : Dev :=
  let l := d.mem.stalled
  let d := { d with mem := { d.mem with copying := tdel d.mem.copying g, stalled := l.filter fun w => gran w.addr != g } }
  ((d.movePins g dst).applyStalled x g dst l).drainEnd (drainId 4 g)

/-- A source that stays where it is: its copy ends with nothing switched. -/
def Dev.dropCopy (d : Dev) (x : Ctx) : Home → Dev
  | .hbm a => d.endCopy x (gran a) (some (.hbm a))
  | .nand _ => d

/-- A source whose datum has gone to a new home: what waited for its copy goes on there, and the source is released (R114). -/
def Dev.release (d : Dev) (x : Ctx) (src dst : Home) : Dev :=
  match src with
  | .hbm a => (d.endCopy x (gran a) (some dst)).freeOne (gran a)
  | .nand u => d.freeUnits [u]

/-- The start of a copy of a granule in HBM by operation `id`; none while it is pinned or in copy (R115). -/
def Dev.startCopy (d : Dev) (id : Nat) : Home → Option Dev
  | .nand _ => some d
  | .hbm a =>
    if d.pinned (gran a) || thas d.mem.copying (gran a) then none
    else some { d with mem := { d.mem with copying := tset d.mem.copying (gran a) id } }

/-- A granule's data written to a unit of NAND; poisoned data makes the unit unreadable (R422). -/
def Dev.granToNand (d : Dev) (p region : Nat) (h : Home) : Nat × Dev :=
  let r := d.homeRead h 0 32768
  d.writeUnit p region r.1 r.2

/-- Granule n of a run of extents: its extent and its index there. -/
def runGran (first n : Nat) : Nat × Nat := (first + n / 64, n % 64)

/-- The home of granule n of a run. -/
def Dev.runHome (d : Dev) (p first n : Nat) : Option Home :=
  (d.buf p (runGran first n).1).bind fun b => d.homeOf b (runGran first n).2

/-- The granules of a run that its extents hold, in order, each named by its place in the run. -/
def Dev.heldRun (d : Dev) (p first count : Nat) : List Nat :=
  (List.range (64 * count)).filter fun n => (d.runHome p first n).isSome

/-- The destination address of granule n among destination extents. -/
def dstAddr (dst : List Nat) (n : Nat) : Nat := extentAddr ((dst[n / 64]?).getD 0) + n % 64 * 32768

/-- Granules of a whole extent kept one by one, where only some of them are in use. -/
def Dev.splitExt (d : Dev) (p : Nat) (used : List Nat) (e : Nat) : Dev :=
  if thas d.mem.exts e then
    let d := { d with mem := { d.mem with exts := tdel d.mem.exts e } }
    (used.filter fun g => g / 64 == e).foldl (fun d g => { d with mem := { d.mem with gran := tset d.mem.gran g ⟨p, .work⟩ } }) d
  else d

/-- The granules of an allocated extent that a buffer extent does not use are given back. -/
def Dev.trimExt (d : Dev) (p e eno : Nat) : Dev :=
  let used := (d.extGrans p e).filter fun g => g / 64 == eno
  if used.isEmpty then d.freeExts [eno]
  else if used.length = 64 then d
  else d.splitExt p used eno

/-- The end of a move of extents, of which the granules below place n have moved: a whole extent takes its new base, and an extent
moved in part keeps both halves granule by granule (R137). -/
def Dev.settleExts (d : Dev) (p : Nat) (dst : List Nat) (n : Nat) : Nat → List Nat → Dev
  | _, [] => d
  | k, e :: es =>
    match d.buf p e with
    | none => d.settleExts p dst n (k + 1) es
    | some b =>
      let eno := (dst[k]?).getD 0
      let a := extentAddr eno
      let d := if 64 * (k + 1) ≤ n then
          d.setBuf p e { b with base := a, moved := b.moved.filter fun h => h.2 != .hbm (a + h.1 * 32768) }
        else d
      (d.trimExt p e eno).settleExts p dst n (k + 1) es

/-- TRACE MOVE at the end of a move: the extent or share, the granules switched, the status. -/
def Dev.traceMove (d : Dev) (x : Ctx) (p name n : Nat) (st : Status) (die : Nat) : Dev :=
  d.recPart x p .trace 0x304 (source 4 die) (wd name) (wd n) (wd st.code)

/-- A granule of a stack for a destination whose write failed (R117): one with the same place among the 64 pseudo-channels. -/
def Dev.spareGran (d : Dev) (p a : Nat) : Option Nat :=
  let s := stackOf a
  (d.extRegions p s).findSome? fun r => d.findGran 64 512 (gran (stackBase s) + r * 32768 + gran a % 64)

/-- A failed write to HBM: the failed destination is left for a new one, where one is free (R117). -/
def Dev.retryAt (d : Dev) (p a : Nat) (m : MoveProg) : MoveProg × Dev :=
  let m := { m with tries := m.tries + 1, copying := false }
  match d.spareGran p a with
  | none => (m, d)
  | some g =>
    let d := d.takeGran p g .work
    ({ m with alt := granAddr g }, if m.alt = 0 then d else d.freeOne (gran m.alt))

/-- A new destination that is no longer needed is given back. -/
def Dev.dropAlt (d : Dev) (m : MoveProg) : Dev := if m.alt = 0 then d else d.freeOne (gran m.alt)

/-- The destination of the granule in copy: a new one after a failed write, else its place among the destination extents. -/
def MoveProg.to (m : MoveProg) (dst : List Nat) (n : Nat) : Nat := if m.alt = 0 then dstAddr dst n else m.alt

/-- The end of a MEM_MOVE: RESULT0 counts the granules switched. -/
def Dev.endMoveExt (d : Dev) (x : Ctx) (id p first : Nat) (dst : List Nat) (m : MoveProg) (st : Status) : Dev :=
  let upto := ((d.heldRun p first dst.length)[m.next]?).getD (64 * dst.length)
  let d := ((d.dropAlt m).settleExts p dst upto 0 (runExts first dst.length)).freeDesc id
  (d.traceMove x p first m.next st (stackDie (stackOf (dstAddr dst 0)))).endOp x id st [wd m.next]

/-- A granule's content at an address of HBM, from wherever it is: an uncorrectable source leaves poison (R117). -/
def Dev.copyTo (d : Dev) (x : Ctx) (h : Home) (a : Nat) : Dev :=
  match h with
  | .hbm s => d.granCopy s a
  | .nand u =>
    let d := d.nandUse x u
    let r := d.homeRead h 0 32768
    let d := d.hbmWrite a r.1
    if r.2 then d.hbmPoison (codewords a 32768) else d

/-- The switch of one granule of a MEM_MOVE (R114, R117): data and poison are at the destination, the entry names it,
the source is released and what waited follows. -/
def Dev.switchExt (d : Dev) (x : Ctx) (p first a n : Nat) : Dev :=
  let gi := runGran first n
  match d.runHome p first n with
  | some h => ((d.copyTo x h a).setHome p gi.1 gi.2 (.hbm a)).release x h (.hbm a)
  | none => d

/-- MEM_MOVE (R113, R118). -/
def memMove (_ : Ctx) (q : Req) (d : Dev) : Ans :=
  let l := runExts q.first q.count
  if !q.clean (runBits ++ [(4, 0xF)]) ∨ !runOk q.first q.count ∨ !d.allMapped q.part l then .refuse .badParam
  else if d.pan.idx.any fun i => i.2.part == q.part && i.2.die != stackDie (q.f 4 3 0) && l.any fun e => i.2.first ≤ e && e < i.2.first + i.2.count then
    .refuse .notPermitted
  else
    match d.allotExts q.part [q.f 4 3 0] q.count with
    | none => .refuse .doesNotFit
    | some (es, d) => .accept [] (.moveExt q.first es ⟨0, 0, false, false, 0⟩) (d.takeDesc q.seq)

/-! ### NAND objects of MEM_STORE -/

/-- The buffer-table entries of a run after a MEM_STORE: an extent all of whose granules went to NAND is unmapped, another keeps the
granules it holds (R136, R137). -/
def Dev.leftExts (d : Dev) (p : Nat) : List Nat → Dev
  | [] => d
  | e :: es =>
    match d.buf p e with
    | none => d.leftExts p es
    | some b =>
      let off := (List.range 64).filter fun i => (d.homeOf b i).elim true fun h => h.unit?.isSome
      let d := if off.length = 64 then { d with mem := { d.mem with bufs := tdel d.mem.bufs (bufKey p e) } }
        else d.setBuf p e { b with gone := off, moved := b.moved.filter fun h => h.2.unit?.isNone }
      d.leftExts p es

/-- The end of a MEM_STORE after n granules: the object keeps the units written. RESULT0 is the token, or after a failure the granules
switched (R117). -/
def Dev.endStore (d : Dev) (x : Ctx) (id p first count : Nat) (units : List Nat) (n : Nat) (st : Status) : Dev :=
  let die := (d.buf p first).elim 0 fun b => stackDie (stackOf b.base)
  let o := if n = 0 then (0, d) else d.newObj p .store (units.take n) (n * 32768) false
  let d := (o.2.freeDesc id).leftExts p (runExts first count)
  (d.traceMove x p first n st die).endOp x id st (if st = .deviceFault then [wd n] else [loW o.1, hiW o.1])

/-- MEM_STORE: extents mapped and not frozen (R111), and the NAND quota (R118). -/
def memStore (_ : Ctx) (q : Req) (d : Dev) : Ans :=
  let l := runExts q.first q.count
  if !q.clean (runBits ++ [(4, 1)]) ∨ !runOk q.first q.count ∨ !d.allMapped q.part l ∨ d.anyFrozen q.part l then .refuse .badParam
  else if l.any (d.extIndexed q.part) then .refuse .notPermitted
  else if !d.nandFits q.part (64 * q.count) || d.regionInUse (q.f 4 0 0) + 64 * q.count > d.regionUnits (q.f 4 0 0 == 1) then
    .refuse .doesNotFit
  else .accept [] (.store q.first q.count (q.f 4 0 0) [] ⟨0, 0, false, false, 0⟩) (d.takeDesc q.seq)

/-- The object a location token names, if MEM_STORE made it for partition p and it is live and not being loaded. -/
def Dev.storeObj (d : Dev) (p tok : Nat) : Option NandObj :=
  match tget d.nand.objs tok with
  | some o => if o.part = p ∧ o.kind = .store then some o else none
  | none => none

/-- Whether a load of a token is running. -/
def Dev.loading (d : Dev) (tok : Nat) : Bool :=
  d.ops.any fun o => match o.2.kind with
    | .load t _ _ _ => t == tok
    | _ => false

/-- MEM_LOAD: the extents are entered in the buffer table with no granule in them, and each granule is there from its switch. -/
def memLoad (_ : Ctx) (q : Req) (d : Dev) : Ans :=
  let tok := q.d2 2
  let first := q.f 4 18 0
  if !q.clean [(2, top32), (3, top32), (4, 0x7FFFF)] then .refuse .badParam
  else
    match if d.loading tok then none else d.storeObj q.part tok with
    | none => .refuse .notPermitted
    | some o =>
      let n := (o.units.length + 63) / 64
      if !runOk first n ∨ d.anyMapped q.part (runExts first n) then .refuse .badParam
      else
        match d.allotExts q.part (List.range 16) n with
        | none => .refuse .doesNotFit
        | some (es, d) =>
          .accept [] (.load tok first es ⟨0, 0, false, false, 0⟩) ((d.mapRun q.part (List.range 64) first es).takeDesc q.seq)

/-- The switch of a granule of a MEM_LOAD: the extent holds it, and its unit leaves the object and is released (R113, R114). -/
def Dev.switchLoad (d : Dev) (x : Ctx) (p tok first a n : Nat) : Dev :=
  let gi := runGran first n
  match tget d.nand.objs tok, d.buf p gi.1 with
  | some o, some b =>
    match o.units with
    | [] => d
    | u :: us =>
      let d := (d.copyTo x (.nand u) a).setBuf p gi.1 { b with
        gone := b.gone.filter (· != gi.2)
        moved := if a = b.base + gi.2 * 32768 then b.moved else tset b.moved gi.2 (.hbm a) }
      ({ d with nand := { d.nand with objs := tset d.nand.objs tok { o with units := us, len := o.len - 32768 } } }).freeUnits [u]
  | _, _ => d

/-- The destination extents of a MEM_LOAD at its end: one that holds no granule is unmapped and released. -/
def Dev.loadedExts (d : Dev) (p : Nat) : List (Nat × Nat) → Nat × Dev
  | [] => (0, d)
  | (e, eno) :: l =>
    let empty := (d.buf p e).elim true fun b => b.gone.length == 64
    let d := d.trimExt p e eno
    let r := (if empty then { d with mem := { d.mem with bufs := tdel d.mem.bufs (bufKey p e) } } else d).loadedExts p l
    (r.1 + (if empty then 0 else 1), r.2)

/-- The end of a MEM_LOAD: the object keeps the units not loaded, or goes when there is none. RESULT0 counts the extents mapped, or after
a failure the granules switched (R117). -/
def Dev.endLoad (d : Dev) (x : Ctx) (id p tok first : Nat) (dst : List Nat) (m : MoveProg) (st : Status) : Dev :=
  let r := (d.dropAlt m).loadedExts p ((runExts first dst.length).zip dst)
  let d := match tget r.2.nand.objs tok with
    | none => r.2
    | some o => if o.units.isEmpty then { r.2 with nand := { r.2.nand with objs := tdel r.2.nand.objs tok } } else r.2
  ((d.freeDesc id).traceMove x p first m.next st (stackDie (stackOf (dstAddr dst 0)))).endOp x id st
    [wd (if st = .deviceFault then m.next else r.1)]

/-- MEM_NAND_FREE. -/
def nandFree (_ : Ctx) (q : Req) (d : Dev) : Ans :=
  if !q.clean [(2, top32), (3, top32)] then .refuse .badParam
  else
    match if d.loading (q.d2 2) then none else d.storeObj q.part (q.d2 2) with
    | none => .refuse .notPermitted
    | some _ => .done .ok [] (d.freeObj (q.d2 2))

/-! ### Steps of extent, store and load moves -/

/-- The place and the home of the granule that a move of a run takes next. -/
def Dev.nextHeld (d : Dev) (p first count next : Nat) : Option (Nat × Home) :=
  match (d.heldRun p first count)[next]? with
  | none => none
  | some n => (d.runHome p first n).map fun h => (n, h)

/-- The start of the next granule's copy, for a move of extents, a store or a load. -/
def copyStartMem (id : Nat) (o : Op) (d : Dev) : Option Dev :=
  match o.kind with
  | .moveExt first dst m =>
    if m.copying || !d.hasDesc id || d.runHeld id o.part first dst.length then none
    else
      match d.nextHeld o.part first dst.length m.next with
      | none => none
      | some (_, h) => (d.startCopy id h).map fun d => d.setOp id (.moveExt first dst { m with copying := true })
  | .store first count region units m =>
    if m.copying || !d.hasDesc id || d.runHeld id o.part first count then none
    else
      match d.nextHeld o.part first count m.next with
      | none => none
      | some (_, h) =>
        (d.startCopy id h).map fun d =>
          let w := d.granToNand o.part region h
          let d := w.2.shapeNand o.part 2 2 id [w.1]
          d.setOp id (.store first count region (units ++ [w.1]) { m with copying := true, conf := false })
  | .load tok first dst m =>
    match tget d.nand.objs tok with
    | none => none
    | some n =>
      if m.copying || n.units.isEmpty || !d.hasDesc id then none
      else some (d.setOp id (.load tok first dst { m with copying := true }))
  | _ => none

/-- A granule has switched. -/
def MoveProg.step (m : MoveProg) : MoveProg := ⟨m.next + 1, 0, false, false, 0⟩

/-- The confirmed or failed write of the granule in copy (R114, R117). -/
def switchMem (id : Nat) (confirmed : Bool) (o : Op) (x : Ctx) (d : Dev) : Dev :=
  match o.kind with
  | .moveExt first dst m =>
    match if m.copying then d.nextHeld o.part first dst.length m.next else none with
    | none => d
    | some (n, h) =>
      if confirmed then
        let d := d.switchExt x o.part first (m.to dst n) n
        let m := m.step
        if m.next ≥ (d.heldRun o.part first dst.length).length then d.endMoveExt x id o.part first dst m .ok
        else if o.aborted then d.endMoveExt x id o.part first dst m .aborted
        else d.setOp id (.moveExt first dst m)
      else
        let d := d.dropCopy x h
        if m.tries + 1 ≥ 3 then d.endMoveExt x id o.part first dst m .deviceFault
        else if o.aborted then d.endMoveExt x id o.part first dst m .aborted
        else
          let r := d.retryAt o.part (m.to dst n) m
          r.2.setOp id (.moveExt first dst r.1)
  | .store first count region units m =>
    match if m.copying then d.nextHeld o.part first count m.next else none with
    | none => d
    | some (n, h) =>
      let gi := runGran first n
      let u := (units[m.next]?).getD 0
      if confirmed then
        if !m.conf then d
        else
          let d := (d.setHome o.part gi.1 gi.2 (.nand u)).release x h (.nand u)
          let m := m.step
          if m.next ≥ (d.heldRun o.part first count).length then d.endStore x id o.part first count units m.next .ok
          else if o.aborted then d.endStore x id o.part first count units m.next .aborted
          else d.setOp id (.store first count region units m)
      else
        let d := (d.dropCopy x h).freeUnits [u]
        let units := units.take m.next
        if m.tries + 1 ≥ 3 then d.endStore x id o.part first count units m.next .deviceFault
        else if o.aborted then d.endStore x id o.part first count units m.next .aborted
        else d.setOp id (.store first count region units { m with tries := m.tries + 1, copying := false, conf := false })
  | .load tok first dst m =>
    if !m.copying then d
    else if confirmed then
      let d := d.switchLoad x o.part tok first (m.to dst m.next) m.next
      let m := m.step
      if (tget d.nand.objs tok).elim true fun n => n.units.isEmpty then d.endLoad x id o.part tok first dst m .ok
      else if o.aborted then d.endLoad x id o.part tok first dst m .aborted
      else d.setOp id (.load tok first dst m)
    else if m.tries + 1 ≥ 3 then d.endLoad x id o.part tok first dst m .deviceFault
    else if o.aborted then d.endLoad x id o.part tok first dst m .aborted
    else
      let r := d.retryAt o.part (m.to dst m.next) m
      r.2.setOp id (.load tok first dst r.1)
  | _ => d

/-! ### MEM_XFER -/

/-- The buffer offset of MEM_XFER and MEM_WHERE. -/
def bufOff (lo hi8 : Nat) : Nat := lo + hi8 * 2 ^ 32

/-- The bytes before the first poisoned 64-byte piece, `fuel` pieces at most (R422). -/
def Dev.cleanLen (d : Dev) (p off len : Nat) : Nat → Nat → Nat
  | 0, k => k
  | f + 1, k =>
    if k ≥ len then len
    else
      match d.bufRead p (off + k) (min 64 (len - k)) with
      | some (_, false) => d.cleanLen p off len f (k + 64)
      | _ => k

/-- The transfer from the buffer space to host memory of an operation that holds a descriptor (R422): its writes go
through the PCIe shapers (R326). -/
def Dev.xferOut (d : Dev) (x : Ctx) (id : Nat) : Dev :=
  match tget d.ops id with
  | some ⟨.ring f sq _, p, .xfer host off len true, _⟩ =>
    if !d.hasDesc id then d
    else
      match d.bufRead p off len with
      | none => (d.freeDesc id).endOp x id .badParam [0]
      | some (bs, bad) =>
        let n := if bad then d.cleanLen p off len (len / 64 + 1) 0 else len
        let st : Status := if bad then .integrity else .ok
        if n = 0 then (d.freeDesc id).endOp x id st [0]
        else d.shapeHost f sq p id host (bs.take n) st [wd n]
  | _ => d

/-- The first operation that waits takes a free Culm descriptor (R59). -/
def Dev.descResume (d : Dev) (x : Ctx) : Dev :=
  match d.mem.culmWait with
  | [] => d
  | id :: r =>
    if nsum (d.mem.culm.map Prod.snd) < 16384 then
      { d with mem := { d.mem with culmWait := r, culm := tset d.mem.culm id 1 } }.xferOut x id
    else d

/-- MEM_XFER: the buffer bytes must be mapped and not frozen (R111); a sealed object is not read to host memory (R384). -/
def memXfer (_ : Ctx) (q : Req) (d : Dev) : Ans :=
  let off := bufOff (q.w 4).toNat (q.f 5 7 0)
  let len := (q.w 6).toNat
  let out := bitAt (q.w 5).toNat 31
  let es := runExts (off / 2097152) ((off + len - 1) / 2097152 + 1 - off / 2097152)
  if !q.clean [(2, top32), (3, top32), (4, top32), (5, 0x800000FF), (6, top32)] ∨ len = 0 ∨ off + len > 2 ^ 40 then .refuse .badParam
  else if out && d.allMapped q.part es && es.any (d.extSealed q.part) then .done .notPermitted [] (d.bumpPart q.part 0x0D0014 1)
  else if (d.bufRun q.part true (runFuel len) off len).isNone then .refuse .badParam
  else .accept [] (.xfer (q.d2 2) off len out) (d.takeDesc q.seq)

/-- Data of host memory arrives for a MEM_XFER into the buffer space. -/
def Dev.xferIn (d : Dev) (x : Ctx) (id p off : Nat) (bs : List Byte) : Dev :=
  match d.bufWrite x p off bs with
  | none => (d.freeDesc id).endOp x id .badParam [0]
  | some d => (d.freeDesc id).endOp x id .ok [wd bs.length]

/-! ### Frozen objects and places -/

/-- A run of mapped extents frozen as one object (R119). -/
def Dev.freeze (d : Dev) (p first count : Nat) (sl : Bool) : Nat × Dev :=
  let id := d.nextShare
  let homes := (List.range (64 * count)).map fun n => (d.runHome p first n).getD (.hbm 0)
  let s : Share := ⟨p, homes, count * 2097152, true, 0, false, 0, 0, 0, 0, 0, 0, 0, [], [], sl, []⟩
  let d := { d with mem := { d.mem with lastShare := id } }.setShare id s
  (id, (runExts first count).foldl (fun d e => (d.buf p e).elim d fun b =>
    d.setBuf p e { b with frozen := true, share := id, six := e - first }) d)

/-- MEM_FREEZE (R119); an extent that does not hold all its granules counts as unmapped (log entry 88). -/
def memFreeze (_ : Ctx) (q : Req) (d : Dev) : Ans :=
  let l := runExts q.first q.count
  if !q.clean runBits ∨ !runOk q.first q.count ∨ !d.allWhole q.part l ∨ d.anyFrozen q.part l then .refuse .badParam
  else if l.any (d.extIndexed q.part) then .refuse .notPermitted
  else
    let r := d.freeze q.part q.first q.count false
    .done .ok [wd r.1] r.2

/-- MEM_SHARE_DROP (R119). -/
def shareDrop (_ : Ctx) (q : Req) (d : Dev) : Ans :=
  let id := (q.w 2).toNat
  if !q.clean [(2, top32)] then .refuse .badParam
  else
    match d.share id with
    | none => .refuse .badParam
    | some s =>
      if s.part ≠ q.part ∨ !s.own then .refuse .badParam
      else .done .ok [wd s.refs] ((d.setShare id { s with own := false }).shareCheck id)

/-- MEM_WHERE. -/
def memWhere (_ : Ctx) (q : Req) (d : Dev) : Ans :=
  let off := bufOff (q.w 2).toNat (q.f 3 7 0)
  if !q.clean [(2, top32), (3, 0xFF)] then .refuse .badParam
  else
    match d.bufHome q.part off, d.bufAddr q.part off with
    | some (_, fr), some (a, _) => .done .ok [wd (stackOf a + (if fr then 256 else 0) + 512), loW a, hiW a] d
    | some (_, fr), none => .done .ok [wd ((if fr then 256 else 0) + 512), 0, 0] d
    | none, _ => .done .ok [0, 0, 0] d

/-! ### Key versions (R133-R135) -/

/-- Replaces a partition's live versions and current version. -/
def Dev.setKeys (d : Dev) (p : Nat) (l : List Nat) (cur : Nat) : Dev :=
  { d with nand := { d.nand with keys := tset d.nand.keys p (l, cur) } }

/-- The units a partition holds under a key version. -/
def Dev.unitsUnder (d : Dev) (p v : Nat) : Nat := (d.nand.units.filter fun u => u.2.part == p && u.2.key == v).length

/-- MEM_KEY_ROTATE. -/
def keyRotate (_ : Ctx) (q : Req) (d : Dev) : Ans :=
  let k := d.keysOf q.part
  if !q.clean [] then .refuse .badParam
  else if k.1.length ≥ 4 then .refuse .noResource
  else
    match (List.range 63).find? fun v => !k.1.contains (v + 1) with
    | none => .refuse .noResource
    | some v => .done .ok [wd (v + 1)] (d.setKeys q.part (addNum (v + 1) k.1) (v + 1))

/-- MEM_KEY_RETIRE. -/
def keyRetire (_ : Ctx) (q : Req) (d : Dev) : Ans :=
  let k := d.keysOf q.part
  let v := q.f 2 5 0
  if !q.clean [(2, 0x3F)] then .refuse .badParam
  else if v = k.2 then .refuse .notPermitted
  else if !k.1.contains v || d.unitsUnder q.part v != 0 then .refuse .keyRetired
  else .done .ok [] (d.setKeys q.part (k.1.filter (· != v)) k.2)

/-- The mask of live versions. -/
def verMask (l : List Nat) : Nat := nsum (l.map fun v => 2 ^ v)

/-- MEM_KEY_STATUS. -/
def keyStatus (_ : Ctx) (q : Req) (d : Dev) : Ans :=
  let k := d.keysOf q.part
  if !q.clean [] then .refuse .badParam
  else .done .ok [wd k.2, loW (verMask k.1), hiW (verMask k.1), wd (d.nandUsed q.part - d.unitsUnder q.part k.2)] d

def effMemBufMap (c : Cmd) (s : State) : Host.Outcome State Fault Refusal := hostCmd 0x0200 c bufMap s
def effMemBufUnmap (c : Cmd) (s : State) : Host.Outcome State Fault Refusal := hostCmd 0x0201 c bufUnmap s
def effBufUnmapResume (id : Nat) (s : State) : Host.Outcome State Fault Refusal := onDev (unmapResume id) s
def effMemMove (c : Cmd) (s : State) : Host.Outcome State Fault Refusal := hostCmd 0x0202 c memMove s
/-- MEM_XFER; the writes of a transfer to host memory that has its descriptor are posted at once. -/
def effMemXfer (c : Cmd) (s : State) : Host.Outcome State Fault Refusal :=
  onDev (fun x d =>
    let d' := runCmd 0x0203 c memXfer x d
    match d.startedRec c 0x0203 with
    | some r => d'.xferOut x r.seq
    | none => d') s
def effDescriptorWaitResume (s : State) : Host.Outcome State Fault Refusal := onDev (fun x d => d.descResume x) s
def effMemFreeze (c : Cmd) (s : State) : Host.Outcome State Fault Refusal := hostCmd 0x0204 c memFreeze s
def effMemShareDrop (c : Cmd) (s : State) : Host.Outcome State Fault Refusal := hostCmd 0x0205 c shareDrop s
def effMemWhere (c : Cmd) (s : State) : Host.Outcome State Fault Refusal := hostCmd 0x0206 c memWhere s
def effMemStore (c : Cmd) (s : State) : Host.Outcome State Fault Refusal := hostCmd 0x0210 c memStore s
def effMemLoad (c : Cmd) (s : State) : Host.Outcome State Fault Refusal := hostCmd 0x0211 c memLoad s
def effMemNandFree (c : Cmd) (s : State) : Host.Outcome State Fault Refusal := hostCmd 0x0212 c nandFree s
def effMemKeyRotate (c : Cmd) (s : State) : Host.Outcome State Fault Refusal := hostCmd 0x0220 c keyRotate s
def effMemKeyRetire (c : Cmd) (s : State) : Host.Outcome State Fault Refusal := hostCmd 0x0221 c keyRetire s
def effMemKeyStatus (c : Cmd) (s : State) : Host.Outcome State Fault Refusal := hostCmd 0x0222 c keyStatus s

end Sys2Proof.Machine
end

