-- ==== Sys2Proof/Machine/Host.lean ====
section
/-! DEFINITION. Ports, host loss, adoption, resets of functions and ports, and the binding commands of the device
management family (R39-R44, R63-R72). -/

namespace Sys2Proof.Machine

/-- Replaces a port. -/
def Dev.setPort (d : Dev) (n : Nat) (p : PciePort) : Dev := { d with ports := tset d.ports n p }

/-! ### Orphan stores (R68-R70) -/

/-- A reply that its host did not receive: stored under its owner, or written where an adoption has chosen a ring. -/
def Dev.storeOrphan (d : Dev) (x : Ctx) (e : Reply) : Dev :=
  let e := { e with adopted := true }
  match tget d.adopts e.owner with
  | some ⟨some (f, n), _, _⟩ => d.pushReply x f n e
  | _ => { d with orphans := tset d.orphans e.owner (tgetD d.orphans e.owner [] ++ [e]) }
def Dev.storeOrphans (d : Dev) (x : Ctx) (l : List Reply) : Dev := l.foldl (fun d e => d.storeOrphan x e) d

/-- Replies in the order in which they became final (R68). -/
def putInOrder (e : Reply) : List Reply → List Reply
  | [] => [e]
  | a :: l => if e.ord < a.ord then e :: a :: l else a :: putInOrder e l
def inOrder (l : List Reply) : List Reply := l.foldl (fun t e => putInOrder e t) []

/-- Whether anything of an orphan key is stored or outstanding. -/
def Dev.orphanWork (d : Dev) (k : Nat) : Bool := d.orphansLeft k || !(tgetD d.orphans k []).isEmpty

/-- Device-level replies of a former host wait for, or go to, reply ring 0 of the control host's PF (R70). -/
def Dev.deviceAdopt (d : Dev) (x : Ctx) : Dev :=
  if !d.orphanWork 16 then d
  else
    let d := if thas d.adopts 16 then d else { d with adopts := tset d.adopts 16 ⟨none, d.nextSeq, []⟩ }
    let f := (pfOf d.ctrlPort).idx
    let r := d.rq f 0
    if r.en && r.state == 1 then d.adoptRing x 16 f 0 else d

/-- The adoptions of the keys of which `p` holds end: the replies that waited for them are taken out. -/
def Dev.takeAdopts (d : Dev) (p : Nat → Adopt → Bool) : List Reply × Dev :=
  (d.adopts.flatMap fun e => if p e.1 e.2 then e.2.waiting.map fun (w : Nat × Nat × Reply) => w.2.2 else [],
   { d with adopts := tfilter d.adopts fun k a => !p k a })

/-- Whether an adoption delivers to a port, or is of a partition bound to it. -/
def Dev.adoptsAt (d : Dev) (port k : Nat) (a : Adopt) : Bool :=
  if k = 16 then a.ring.elim false fun r => r.1 / 32 == port else d.boundTo k port

/-! ### Rings of functions -/

/-- The reply rings of a function of which `p` holds: what they hold back is taken out. -/
def Dev.takeHeld (d : Dev) (p : Nat → Bool) : List Reply × Dev :=
  (d.rqs.flatMap fun r => if p (r.1 / 16) then r.2.held else [],
   { d with rqs := tmap d.rqs fun k r => if p (k / 16) then { r with held := [] } else r })

/-- Every ring of the functions of which `p` holds disabled, the event ring with them (R72). -/
def Dev.disableRings (d : Dev) (p : Nat → Bool) : Dev :=
  { d with
    sqs := tmap d.sqs fun k q => if p (k / 16) then { q with en := false, state := 0, cause := 0 } else q
    rqs := tmap d.rqs fun k r => if p (k / 16) then { r with en := false, state := 0, cause := 0, held := [] } else r
    eqs := tmap d.eqs fun k e => if p k then { e with en := false } else e }

/-- Every enabled ring of the functions of which `p` holds stopped with STATE orphaned; event rings are disabled
(R68, R71; log entry 16). -/
def Dev.stopRings (d : Dev) (p : Nat → Bool) : Dev :=
  { d with
    sqs := tmap d.sqs fun k q => if p (k / 16) && q.en then { q with state := 3, cause := 0 } else q
    rqs := tmap d.rqs fun k r => if p (k / 16) && r.en then { r with state := 3, cause := 0 } else r
    eqs := tmap d.eqs fun k e => if p k then { e with en := false } else e }

/-- The rings of the functions of which `p` holds are disabled, and show NOT_BOUND (R40, R71). -/
def Dev.unserve (d : Dev) (p : Nat → Bool) : Dev :=
  { d with
    sqs := tmap d.sqs fun k q => if p (k / 16) then { q with en := false, state := 4, cause := 0 } else q
    rqs := tmap d.rqs fun k r => if p (k / 16) then { r with en := false, state := 4, cause := 0, held := [] } else r
    eqs := tmap d.eqs fun k e => if p k then { e with en := false } else e }

/-- The commands of which `p` holds keep running, with another fate for their replies. -/
def Dev.refate (d : Dev) (p : CmdRec → Bool) (f : Fate) : Dev :=
  { d with cmds := d.cmds.map fun c => if p c && c.fate == .live then { c with fate := f } else c }

/-- The host and NAND writes of an operation that wait for credit are dropped. -/
def Dev.dropUnits (d : Dev) (id : Nat) : Dev :=
  d.unshape fun u => match u.what with
    | .host _ _ _ op _ => op == id
    | .nand op _ => op == id
    | _ => false

/-- The transfers of MEM_XFER that target a lost host's memory end with ABORTED (R68). -/
def Dev.abortXfers (d : Dev) (x : Ctx) (p : CmdRec → Bool) : List CmdRec → Dev
  | [] => d
  | c :: cs =>
    match if p c then tget d.ops c.seq else none with
    | some ⟨_, _, .xfer _ _ _ _, _⟩ => (((d.dropUnits c.seq).freeDesc c.seq).endOp x c.seq .aborted [0]).abortXfers x p cs
    | _ => d.abortXfers x p cs

/-! ### Host loss (R67, R68, R71) -/

/-- Host loss of a port, in one tick; cause 1 link, 2 heartbeat. -/
def Dev.hostLoss (d : Dev) (x : Ctx) (port cause : Nat) : Dev :=
  let mine (f : Nat) : Bool := f / 32 == port
  let d := d.setPort port { d.port port with lost := true, hbSinceLoss := false }
  let a := d.takeAdopts (d.adoptsAt port)
  let h := a.2.takeHeld mine
  let d := (h.2.stopRings mine).refate (fun c => c.fn.port == port) .orphan
  let d := { d with
    parts := tmap d.parts fun _ h => if h = PartHost.bound port then PartHost.orphaned port else h
    ctrlPort := if d.ctrlPort = port then 1 - port else d.ctrlPort
    crc := d.crc.dropPort port }
  let d := d.storeOrphans x (inOrder (a.1 ++ h.1))
  let d := d.abortXfers x (fun c => c.fn.port == port) d.cmds
  let d := d.deviceAdopt x
  d.recDevTo x (1 - port) .alarm 2 (source 1 0) (wd port) (wd cause) 0

/-- A port leaves the lost state when its link is up and, where a heartbeat is watched, the PF has written one; the rings of VFs whose
partitions are not bound to it show NOT_BOUND from then on (R71). -/
def Dev.leaveLost (d : Dev) (port : Nat) : Dev :=
  let p := d.port port
  if p.lost && p.linkUp && (p.hbPeriod == 0 || p.hbSinceLoss) then
    (d.setPort port { p with lost := false }).unserve fun f => f / 32 == port && f % 32 != 0 && !d.boundTo (f % 32 - 1) port
  else d

/-- The data link leaves DL_Active. -/
def dlInactive (port : Nat) (x : Ctx) (d : Dev) : Dev :=
  let p := d.port port
  if port < 2 && p.linkUp then d.setPort port { p with linkUp := false, downSince := some x.now } else d

/-- The data link is DL_Active (R71); link training has started before (R448). -/
def dlActive (port : Nat) (_ : Ctx) (d : Dev) : Dev :=
  let p := d.port port
  if port < 2 && p.training then (d.setPort port { p with linkUp := true, downSince := none }).leaveLost port else d

/-- Whether the link has been down for 10 ms, and whether two heartbeat periods have passed (R67). -/
def PciePort.linkDue (p : PciePort) (now : Nat) : Bool :=
  !p.lost && !p.linkUp && p.downSince.elim false fun t => decide (t + 10 * ticksMs ≤ now)
def PciePort.hbDue (p : PciePort) (now : Nat) : Bool :=
  !p.lost && p.hbPeriod != 0 && p.hbLast.elim false fun t => decide (t + 2 * p.hbPeriod * ticksMs ≤ now)

/-- A heartbeat of a port's PF. -/
def Dev.beat (d : Dev) (x : Ctx) (port : Nat) : Dev :=
  let p := d.port port
  (d.setPort port { p with hbLast := some x.now, hbSinceLoss := true }).leaveLost port

/-- A write to CMD_HB. -/
def hbWrite (f : Fn) (_ : Word) (x : Ctx) (d : Dev) : Dev := if f.num = 0 && f.ok && d.writable then d.beat x f.port else d

/-- A write to CMD_HB_CFG (R67). -/
def hbCfg (f : Fn) (w : Word) (x : Ctx) (d : Dev) : Dev :=
  if f.num = 0 && f.ok && d.writable then
    let v := wfld w 9 0
    if v = 0 then (d.setPort f.port { d.port f.port with hbPeriod := 0, hbLast := none }).leaveLost f.port
    else (d.setPort f.port { d.port f.port with hbPeriod := v }).beat x f.port
  else d

/-- Link training starts after stage 1 and PERST# (R448). -/
def trainStart (port : Nat) (_ : Ctx) (d : Dev) : Dev :=
  if port < 2 && 2 ≤ d.boot.stage then d.setPort port { d.port port with training := true } else d

/-! ### Function-level and port reset (R72, R439) -/

/-- Function-level reset of the functions of which `p` holds: rings disabled, held and unwritten replies discarded,
outstanding commands completing without replies, and a PF's timers disarmed (R38). -/
def Dev.flr (d : Dev) (p : Nat → Bool) : Dev :=
  let d := (d.disableRings p).refate (fun c => p c.fn.idx) .dropped
  { d with
    adopts := tmap d.adopts fun _ a => { a with waiting := a.waiting.filter fun w => !p w.1 }
    timers := tmap d.timers fun k t => if p (pfOf (k / 16)).idx then { t with en := false, fired := false } else t }

/-- FUNCTION_LEVEL_RESET. -/
def fnReset (f : Fn) (_ : Ctx) (d : Dev) : Dev := if d.fnLive f then d.flr (· == f.idx) else d

/-- PORT_RESET: the port's PCI Express core and every function of it; the link goes down and trains again. -/
def portRst (port : Nat) (_ : PortResetKind) (x : Ctx) (d : Dev) : Dev :=
  if port > 1 then d
  else
    let d := d.flr fun f => f / 32 == port
    let p := d.port port
    d.setPort port { p with
      training := false
      linkUp := false
      downSince := if p.linkUp then some x.now else p.downSince
      vfEnable := false
      numVfs := 0
      ari := false }

/-- Whether configuration space answers (R448, R449): once stage 4 has ended, and in every failure state. -/
def Dev.cfgSpace (d : Dev) : Bool := 5 ≤ d.boot.stage || 8 ≤ d.boot.state

/-- CONFIGURATION_WRITE: SR-IOV VF Enable and NumVFs, and ARI (R39). VFs that go are reset as functions. -/
def cfgSpaceWrite (port : Nat) (w : CfgWrite) (_ : Ctx) (d : Dev) : Dev :=
  if port > 1 ∨ !d.cfgSpace then d
  else
    let p := d.port port
    match w with
    | .vfEnable true => d.setPort port { p with vfEnable := true }
    | .vfEnable false => (d.setPort port { p with vfEnable := false }).flr fun f => f / 32 == port && f % 32 != 0
    | .numVfs n => if p.vfEnable ∨ n > 16 then d else d.setPort port { p with numVfs := n }
    | .ari b => d.setPort port { p with ari := b }
    | .other => d

/-! ### Device management commands (R63-R71) -/

/-- The bit mask of the partitions of which `f` holds. -/
def partMask (f : Nat → Bool) : Nat := nsum ((List.range 16).map fun p => if f p then 2 ^ p else 0)

/-- The port code of CMD_HOST_STATE. -/
def PciePort.code (p : PciePort) : Nat := if p.lost then 2 else if p.linkUp then 1 else 0

/-- CMD_HOST_STATE and CMD_PART_BIND. -/
def Dev.hostState (d : Dev) : Nat := d.ctrlPort + 2 * (d.port 0).code + 8 * (d.port 1).code
def Dev.partBind (d : Dev) (port : Nat) : Nat :=
  partMask (fun p => d.boundTo p port) + 65536 * partMask fun p => match d.host p with
    | .orphaned _ => true
    | .released _ => true
    | _ => false

/-- The port and number of the function that issued a command. -/
def Req.fnOr (q : Req) : Fn := q.fn.getD ⟨0, 0⟩

/-- DEV_NOP. -/
def nop (_ : Ctx) (q : Req) (d : Dev) : Ans :=
  if q.clean [] then .done .ok [loW q.arrival, hiW q.arrival] d else .refuse .badParam

/-- DEV_IDENTIFY. -/
def identify (_ : Ctx) (q : Req) (d : Dev) : Ans :=
  if q.clean [] then
    .done .ok [0x1612#32, d.boot.fwVersion, wd (q.fnOr.num + q.fnOr.port * 65536),
      wd (partMask fun p => d.boundTo p q.fnOr.port)] d
  else .refuse .badParam

/-- DEV_HOST_STATUS. -/
def hostStatus (_ : Ctx) (q : Req) (d : Dev) : Ans :=
  if q.clean [] then .done .ok [wd d.hostState, wd (d.partBind q.fnOr.port)] d else .refuse .badParam

/-- DEV_SET_CTRL_HOST (R66). -/
def setCtrl (x : Ctx) (q : Req) (d : Dev) : Ans :=
  if q.clean [(2, 1)] then
    let d := { d with ctrlPort := q.f 2 0 0 }.deviceAdopt x
    .done .ok [] (d.recDev x .log 0x202 (source 1 (Config.controlCore q.seq % 8)) 0 0 0)
  else .refuse .badParam

/-- Partition p bound to a port: its VF at the other port is not served (R40). -/
def Dev.bindTo (d : Dev) (p port : Nat) : Dev :=
  { d with parts := tset d.parts p (.bound port) }.unserve (· == (⟨1 - port, p + 1⟩ : Fn).idx)

/-- DEV_PART_BIND (R65). -/
def partBindCmd (_ : Ctx) (q : Req) (d : Dev) : Ans :=
  if !q.clean [(2, 0x10F)] then .refuse .badParam
  else if d.host (q.f 2 3 0) = .unbound then
    .done .ok [] (d.bindTo (q.f 2 3 0) (q.f 2 8 8))
  else .refuse .notPermitted

/-- DEV_PART_RELEASE (R71). -/
def partRelease (x : Ctx) (q : Req) (d : Dev) : Ans :=
  let p := q.f 2 3 0
  let port := q.fnOr.port
  if !q.clean [(2, 0xF)] then .refuse .badParam
  else if !d.boundTo p port then .refuse .notPermitted
  else
    let vf := (⟨port, p + 1⟩ : Fn).idx
    let a := d.takeAdopts fun k _ => k == p
    let h := a.2.takeHeld (· == vf)
    let d := (h.2.disableRings (· == vf)).refate (fun c => c.fn.port == port && c.part == some p) .orphan
    let d := { d with parts := tset d.parts p (.released port) }.storeOrphans x (inOrder (a.1 ++ h.1))
    let d := d.abortXfers x (fun c => c.fn.port == port && c.part == some p) d.cmds
    .done .ok [wd (d.outPart p)] d

/-- DEV_ADOPT (R69, R70); the port's shapers run in credit mode for RECOVER_MS (R330). -/
def adopt (x : Ctx) (q : Req) (d : Dev) : Ans :=
  let p := q.f 2 3 0
  let port := q.fnOr.port
  let free := match d.host p with
    | .orphaned _ => true
    | .released _ => true
    | _ => false
  if !q.clean [(2, 0xF)] then .refuse .badParam
  else if !free then .refuse .notPermitted
  else if !(d.port port).vfEnable ∨ (d.port port).numVfs < p + 1 then .refuse .noResource
  else
    let res := [wd (d.outPart p), wd (tgetD d.orphans p []).length]
    let d := d.bindTo p port
    let d := d.startRecover x (17 + port)
    .done .ok res (if d.orphanWork p then { d with adopts := tset d.adopts p ⟨none, d.nextSeq, []⟩ } else d)

def effPcieLinkTrainingStart (port : Nat) (s : State) : Host.Outcome State Fault Refusal := onDev (trainStart port) s
def effPortReset (port : Nat) (k : PortResetKind) (s : State) : Host.Outcome State Fault Refusal := onDev (portRst port k) s
def effFunctionLevelReset (f : Fn) (s : State) : Host.Outcome State Fault Refusal := onDev (fnReset f) s
def effPcieDlInactive (port : Nat) (s : State) : Host.Outcome State Fault Refusal := onDev (dlInactive port) s
def effPcieDlActive (port : Nat) (s : State) : Host.Outcome State Fault Refusal := onDev (dlActive port) s
def effHeartbeat (f : Fn) (w : Word) (s : State) : Host.Outcome State Fault Refusal := onDev (hbWrite f w) s
def effHbCfgWrite (f : Fn) (w : Word) (s : State) : Host.Outcome State Fault Refusal := onDev (hbCfg f w) s
def effConfigurationWrite (port : Nat) (w : CfgWrite) (s : State) : Host.Outcome State Fault Refusal := onDev (cfgSpaceWrite port w) s
def effDevNop (c : Cmd) (s : State) : Host.Outcome State Fault Refusal := hostCmd 0x0F00 c nop s
def effDevIdentify (c : Cmd) (s : State) : Host.Outcome State Fault Refusal := hostCmd 0x0F01 c identify s
def effDevSetCtrlHost (c : Cmd) (s : State) : Host.Outcome State Fault Refusal := hostCmd 0x0F20 c setCtrl s
def effDevPartBind (c : Cmd) (s : State) : Host.Outcome State Fault Refusal := hostCmd 0x0F21 c partBindCmd s
def effDevPartRelease (c : Cmd) (s : State) : Host.Outcome State Fault Refusal := hostCmd 0x0F22 c partRelease s
def effDevAdopt (c : Cmd) (s : State) : Host.Outcome State Fault Refusal := hostCmd 0x0F23 c adopt s
def effDevHostStatus (c : Cmd) (s : State) : Host.Outcome State Fault Refusal := hostCmd 0x0F24 c hostStatus s

end Sys2Proof.Machine
end

