-- ==== Sys2Proof/Machine/Mtr.lean ====
section
/-! DEFINITION. The Atvor meter (chapter 17) and the sideband endpoints that read it (R475-R478). The rows of the meter change the
meter, the meter's fields of the fuses, and records; the opcodes and the sideband only read it (R400, R401, R414). -/

namespace Sys2Proof.Machine

/-- Bytes of the image store (R443); an unlisted byte reads as 0xFF. -/
def ImageStore.bytes (s : ImageStore) (off n : Nat) : List Byte := (List.range n).map fun i => tgetD s.flash (off + i) 0xFF

/-- A coefficient set as its package header holds it (R413). -/
def coeffOf (b : List Byte) : Coeff := ⟨leAt b 4 4, leAt b 8 4, (List.range 8).map fun k => leAt b (12 + 4 * k) 4⟩

/-- The ticks of a record (R405). -/
def ticksRecord : Nat := 125000000

/-- Meter rows run while power-good is high. -/
def onMeter (f : State → State) (s : State) : Host.Outcome State Fault Refusal := .next (if s.clock.power then f s else s)

/-- FAILED, with its cause and ALARM METER_FAILED (R410). -/
def meterFail (cause : Nat) (s : State) : State :=
  { s with
    meter := { s.meter with st := 2, cause := cause }
    dev := s.dev.recDev s.ctx .alarm 6 (source 14 0) (wd cause) 0 0 }

/-! ### The start (R408-R410) -/

/-- METER_START: the image signature, the seal count kept in flash, and the seal bit of an image that was not adopted before. -/
def meterBoot (imageOk : Bool) (digest : BitVec 512) (swId : Word) (flashSeal : Nat) (s : State) : State :=
  let m := s.meter
  if m.st ≠ 0 then s
  else if !imageOk then meterFail 1 s
  else if flashSeal ≠ s.fuses.sealCount then meterFail 3 s
  else
    let fresh := digest != m.flash.digest
    if fresh && s.fuses.sealCount ≥ 1024 then meterFail 2 s
    else
      let seals := s.fuses.sealCount + (if fresh then 1 else 0)
      let fl : MeterFlash := { m.flash with starts := (m.flash.starts + 1) % 2 ^ 32, digest := digest, sealCount := seals }
      { s with
        fuses := { s.fuses with sealCount := seals }
        meter := { m with
          st := 1
          readyAt := s.clock.now
          checkAt := s.clock.now + ticksHour
          swId := swId
          gap := true
          coeff := coeffOf fl.pkg
          pkg := fl.pkg
          flash := fl } }

/-- SW_ID_RECHECK (R408): an hour after the start, and an hour after the last. -/
def swRecheck (w : Word) (s : State) : State :=
  if s.meter.st ≠ 1 ∨ s.clock.now < s.meter.checkAt then s
  else
    let s := { s with meter := { s.meter with checkAt := s.clock.now + ticksHour } }
    if w = s.meter.swId then s else meterFail 5 s

/-! ### Records (R405, R406, R411, R412) -/

/-- A counter of a tap. -/
def tapAt (t : Tbl (List Nat)) (p k : Nat) : Nat := ((tgetD t p [])[k]?).getD 0

/-- D[p] of R412: the activity of the record, in fJ. -/
def apportD (c : List Nat) (before after : Tbl (List Nat)) (p : Nat) : Nat :=
  nsum ((List.range 8).map fun k => c.getD k 0 * (tapAt after p k - tapAt before p k))

/-- The energy of each partition (R412). -/
def apportion (e : Nat) (co : Coeff) (before after : Tbl (List Nat)) : List Nat :=
  let ds := (List.range 16).map (apportD co.c before after)
  let s := nsum ds
  let rest := e - min e (co.idle * 1000)
  ds.map fun d => if s = 0 then 0 else rest * d / s

/-- Bytes 0x000 to 0x0FF of a record (R406): kind p, or 16 for the device record. -/
def recordBody (s : State) (m : Meter) (kind seq k e : Nat) (es : List Nat) (cum : Nat) : List Byte :=
  let dev := kind = 16
  let one (n : Nat) : Nat := if dev then n else 0
  let flags := (if m.gap then 1 else 0) + (if m.over_ then 2 else 0) + (if m.newCoeff then 4 else 0) +
    (if m.dbg || s.dev.sec.debug then 8 else 0)
  leBytes 4 0x31525441 ++ leBytes 2 1 ++ leBytes 1 flags ++ leBytes 1 (if dev then 255 else kind) ++
    leBytes 8 Config.serial.toNat ++ leBytes 4 m.flash.starts ++ leBytes 4 s.fuses.sealCount ++ leBytes 8 seq ++
    leBytes 8 (k * ticksRecord) ++ leBytes 8 ((k + 1) * ticksRecord) ++ leBytes 4 m.swId.toNat ++ leBytes 4 m.coeff.id ++
    leBytes 8 (one e) ++ leBytes 8 (one (e - nsum es)) ++ leBytes 8 (one cum) ++
    leBytes 4 (one (if m.vMin > m.vMax then 0 else m.vMin)) ++ leBytes 4 (one m.vMax) ++ leBytes 4 (one m.pMax) ++ leBytes 4 0 ++
    ((List.range 16).flatMap fun p => leBytes 4 (if dev || p == kind then (es[p]?).getD 0 else 0)) ++ List.replicate 96 0

/-- The partitions that get a record: bound, orphaned or released (R406). -/
def Dev.metered (d : Dev) : List Nat := (List.range 16).filter fun p => d.host p != .unbound

/-- A coefficient set that is due swaps in (R413): at the first record boundary at least 1 s after its acceptance. -/
def Meter.coeffDue (m : Meter) (now : Nat) : Meter :=
  match m.staged with
  | some (c, b, at_) => if at_ ≤ now then { m with coeff := c, pkg := b, staged := none, newCoeff := true } else m
  | none => m

/-- The end of a record (R405): one record for the device and one for each partition that has a host, or that had one; the remainder
below 1 µJ goes on. The activity of the record is that of the tap when its last tick ended. A record that began before the meter was RUNNING is not made, and its energy is not recorded (R410). -/
def recordClose (s : State) : State :=
  let m := s.meter
  let now := s.clock.now
  if m.st ≠ 1 ∨ now = 0 ∨ now % ticksRecord ≠ 0 ∨ m.endAt = now then s
  else
    let cleared : Meter := { m with vMin := 0xFFFFFFFF, vMax := 0, pMax := 0, over_ := false, dbg := false, tap := s.dev.edge, endAt := now }
    if now - ticksRecord ≤ m.readyAt then { s with meter := Meter.coeffDue { cleared with acc := 0 } now }
    else
      let e := m.acc / 1000
      let es := apportion e m.coeff m.tap s.dev.edge
      let seq := m.seq + 1
      let cum := (m.cum + e) % 2 ^ 64
      let k := now / ticksRecord - 1
      let recs := (16 :: s.dev.metered).map fun kind => (kind, seq, recordBody s m kind seq k e es cum)
      { s with meter := Meter.coeffDue { cleared with
        acc := m.acc % 1000
        seq := seq
        made := m.made + 1
        cum := cum
        lastOver := m.over_
        lastGap := m.gap
        gap := false
        newCoeff := false
        due := m.due ++ recs
        energy := es } now }

/-- METER_RECORD_PUBLISH: the oldest record is signed and written into its slot (R406, R407). -/
def recordPublish (s : State) : State :=
  let m := s.meter
  match m.due with
  | [] => s
  | (kind, seq, body) :: l =>
    if m.st ≠ 1 then s
    else { s with meter := { m with due := l, window := tset m.window (kind * 64 + seq % 64) (seq, body ++ Config.rsaSign 2 body) } }

/-! ### Sampling (R403, R404) -/

/-- METER_ADC_SAMPLE: once every 1,000 ticks. Below 0.05 A the meter registers zero. A sample belongs to the record of its tick. -/
def adcSample (mv ua : Nat) (clipped : Bool) (s : State) : State :=
  if s.meter.st ≠ 1 ∨ s.clock.now % 1000 ≠ 0 then s
  else
    let s := recordClose s
    let m := s.meter
    let e := if ua < 50000 then 0 else mv * ua * 8 / 1000000
    let start := s.clock.now % 125000 = 0
    let n := if start then 1 else m.ms.2.1 + 1
    let me := if start then e else m.ms.1 + e
    let mvs := if start then mv else m.ms.2.2 + mv
    let m : Meter := { m with
      acc := m.acc + e
      ms := (me, n, mvs)
      vMin := min m.vMin mv
      vMax := max m.vMax mv
      over_ := m.over_ || clipped
      dbg := m.dbg || s.dev.sec.debug }
    let m : Meter := if n = 125 then { m with power := me / 1000, volts := mvs / 125, pMax := max m.pMax (me / 1000) } else m
    { s with meter := m }

/-! ### Coefficient packages (R413) -/

/-- Whether a package passes its checks over a set in force. -/
def packageOk (s : State) (b : List Byte) : Bool :=
  let h := b.take 64
  leAt h 0 4 == 0x31464543 && leAt h 44 4 == (crc32c (h.take 44)).toNat && decide (s.meter.coeff.id < leAt h 4 4) &&
    Config.sha512 Config.meterAuthPub == s.fuses.meterHash && Config.rsaVerify Config.meterAuthPub h (b.drop 64)

/-- COEFF_PACKAGE_STAGED: the package in the slot of the image store is accepted or refused. Without a seal bit left it is refused. -/
def coeffStaged (s : State) : State :=
  let m := s.meter
  let b := s.store.bytes 0x3F00000 576
  if m.st ≠ 1 then s
  else if !packageOk s b ∨ s.fuses.sealCount ≥ 1024 then { s with meter := { m with refused := satAdd 255 m.refused 1 } }
  else
    let at_ := (s.clock.now + 2 * ticksRecord - 1) / ticksRecord * ticksRecord
    { s with
      fuses := { s.fuses with sealCount := s.fuses.sealCount + 1 }
      meter := { m with staged := some (coeffOf b, b, at_), flash := { m.flash with pkg := b, sealCount := s.fuses.sealCount + 1 } } }

/-- METER_COEFF_SWAP: at a record boundary, after the record that ends there; a set accepted at least 1 s before swaps in (R413). -/
def coeffSwap (s : State) : State :=
  if s.meter.st ≠ 1 ∨ s.clock.now % ticksRecord ≠ 0 then s
  else
    let s := recordClose s
    { s with meter := s.meter.coeffDue s.clock.now }

/-! ### What the meter shows (R407, R414, R478) -/

/-- SEQ of the newest record of a kind in the window; 0: none. -/
def Meter.newest (m : Meter) (kind : Nat) : Nat :=
  ((List.range 64).map fun i => (tget m.window (kind * 64 + i)).elim 0 Prod.fst).foldl max 0

/-- A record of a kind by SEQ (0: the newest), if it is in the window. -/
def Meter.record (m : Meter) (kind seq : Nat) : Option (Nat × List Byte) :=
  let n := if seq = 0 then m.newest kind else seq
  match tget m.window (kind * 64 + n % 64) with
  | some r => if r.1 = n ∧ n ≠ 0 then some r else none
  | none => none

/-- The kind of record a function reads: a VF its partition's, a PF the device's. -/
def kindOf (f : Fn) : Nat := if f.num = 0 then 16 else f.num - 1

/-- MTR_RECORD_READ. -/
def recordRead (x : Ctx) (q : Req) (d : Dev) : Ans :=
  let k := kindOf q.fnOr
  if !q.clean [(2, top32), (3, top32), (4, top32), (5, top32)] ∨ q.d2 4 % 64 ≠ 0 then .refuse .badParam
  else if x.meter.st = 2 then .refuse .deviceFault
  else
    match x.meter.record k (q.d2 2) with
    | none => .refuse .badParam
    | some r =>
      .done .ok [loW r.1, hiW r.1, wd (if k = 16 then 255 else k)] (d.out (.hostWrite q.fnOr.port (q.d2 4) r.2))

/-- MTR_IDENTIFY. -/
def mtrIdent (x : Ctx) (q : Req) (d : Dev) : Ans :=
  if q.clean [] then .done .ok [x.meter.swId, wd x.fuses.sealCount, wd x.meter.flash.starts, wd x.meter.coeff.id] d
  else .refuse .badParam

/-- The certificate and modulus as MTR_CERT_READ and the window lay them out: length, MTR_CERT at 0x10, MRK_PUB at 0x810. -/
def mtrCertBlock : List Byte :=
  (leBytes 4 Config.meterCert.length ++ List.replicate 12 (0 : Byte) ++ (Config.meterCert ++ List.replicate 2048 (0 : Byte)).take 2048 ++
    (Config.mrkPub ++ List.replicate 2032 (0 : Byte))).take 4096

/-- MTR_CERT_READ; the rest of the 4 KiB is written as zeros. -/
def mtrCert (_ : Ctx) (q : Req) (d : Dev) : Ans :=
  if !q.clean [(2, top32), (3, top32)] ∨ q.d2 2 % 4096 ≠ 0 then .refuse .badParam
  else .done .ok [] (d.out (.hostWrite q.fnOr.port (q.d2 2) mtrCertBlock))

/-- MTR_COEFF_READ. -/
def mtrCoeff (x : Ctx) (q : Req) (d : Dev) : Ans :=
  if !q.clean [(2, top32), (3, top32)] ∨ q.d2 2 % 64 ≠ 0 then .refuse .badParam
  else if x.meter.st = 2 then .refuse .deviceFault
  else .done .ok [wd x.meter.coeff.id] (d.out (.hostWrite q.fnOr.port (q.d2 2) x.meter.pkg))

/-! ### Sideband (R475-R478) -/

/-- The sideband endpoints answer from the end of start-up stage 2, and in every failure state and HALTED (R475). -/
def Dev.sidebandUp (d : Dev) : Bool := d.boot.stage > 2 || d.boot.state ≥ 8

/-- A bus's endpoint. -/
def Dev.bus (d : Dev) (b : Nat) : Bus := tgetD d.buses b ⟨0, 0, 0⟩

/-- GET_METER_RECORD. -/
def busRecord (b seq : Nat) (x : Ctx) (d : Dev) : Dev :=
  if b > 1 ∨ !d.sidebandUp then d
  else if x.meter.st = 2 then d.out (.answer b 7 [0x81])
  else
    match x.meter.record 16 seq with
    | none => d.out (.answer b 7 [0x80])
    | some r => d.out (.answer b 7 (0 :: r.2))

/-- GET_METER_CERT. -/
def busCert (b : Nat) (_ : Ctx) (d : Dev) : Dev :=
  if b > 1 ∨ !d.sidebandUp then d else d.out (.answer b 7 (0 :: (Config.meterCert ++ Config.mrkPub)))

/-- A sensor's description (R477): number, count of upper and of lower thresholds, and their values. -/
def sensorPdr (d : Dev) (n : Nat) : List Byte :=
  let u := upperThr d.power n
  let l := lowerThr n
  leBytes 2 n ++ leBytes 1 u.length ++ leBytes 1 l.length ++ wordBytes ((u ++ l).map wd)

/-- PLDM_REQUEST (R476, R477). The answers' bytes and completion codes are the model's (PRESUMED, log entry 24). -/
def pldmReq (b : Nat) (r : PldmReq) (x : Ctx) (d : Dev) : Dev :=
  if b > 1 ∨ !d.sidebandUp then d
  else
    match r with
    | .discovery => d.out (.answer b 1 [0, 0, 2, 0x3F])
    | .getSensorReading n =>
      if n ≤ 10 then d.out (.answer b 2 (0 :: leBytes 4 (tgetD d.power.sensors n 0))) else d.out (.answer b 2 [0x80])
    | .getPdr n => if n ≤ 10 then d.out (.answer b 3 (0 :: sensorPdr d n)) else d.out (.answer b 3 [0x82])
    | .setEventReceiver e => { d with buses := tset d.buses b { d.bus b with receiver := e } }.out (.answer b 4 [0])
    | .pollEvent => (d.sidebandTake x b).out (.answer b 5 [0])
    | .other => d.out (.answer b 6 [5])

/-- MCTP_CONTROL (R475): the dynamic address on the bus and the endpoint ID. -/
def mctpCtl (b : Nat) (r : MctpReq) (_ : Ctx) (d : Dev) : Dev :=
  if b > 1 ∨ !d.sidebandUp then d
  else
    let put (u : Bus) : Dev := { d with buses := tset d.buses b u }
    match r with
    | .entdaa a => put { d.bus b with addr := a }
    | .setdasa a => put { d.bus b with addr := a }
    | .setEid e => (put { d.bus b with eid := e }).out (.answer b 0 [0, BitVec.ofNat 8 e])
    | .getEid => d.out (.answer b 0 [0, BitVec.ofNat 8 (d.bus b).eid])
    | .other => d.out (.answer b 0 [5])

def effMeterStart (ok : Bool) (digest : BitVec 512) (swId : Word) (flashSeal : Nat) (s : State) : Host.Outcome State Fault Refusal :=
  onMeter (meterBoot ok digest swId flashSeal) s
def effMeterAdcSample (mv ua : Nat) (c : Bool) (s : State) : Host.Outcome State Fault Refusal := onMeter (adcSample mv ua c) s
def effMeterRecordEnd (s : State) : Host.Outcome State Fault Refusal := onMeter recordClose s
def effMeterRecordPublish (s : State) : Host.Outcome State Fault Refusal := onMeter recordPublish s
def effSwIdRecheck (w : Word) (s : State) : Host.Outcome State Fault Refusal := onMeter (swRecheck w) s
def effCoeffPackageStaged (s : State) : Host.Outcome State Fault Refusal := onMeter coeffStaged s
def effMeterCoeffSwap (s : State) : Host.Outcome State Fault Refusal := onMeter coeffSwap s
def effMtrRecordRead (c : Cmd) (s : State) : Host.Outcome State Fault Refusal := hostCmd 0x0A00 c recordRead s
def effMtrIdentify (c : Cmd) (s : State) : Host.Outcome State Fault Refusal := hostCmd 0x0A01 c mtrIdent s
def effMtrCertRead (c : Cmd) (s : State) : Host.Outcome State Fault Refusal := hostCmd 0x0A02 c mtrCert s
def effMtrCoeffRead (c : Cmd) (s : State) : Host.Outcome State Fault Refusal := hostCmd 0x0A03 c mtrCoeff s
def effGetMeterRecord (b seq : Nat) (s : State) : Host.Outcome State Fault Refusal := onDev (busRecord b seq) s
def effGetMeterCert (b : Nat) (s : State) : Host.Outcome State Fault Refusal := onDev (busCert b) s
def effPldmRequest (b : Nat) (r : PldmReq) (s : State) : Host.Outcome State Fault Refusal := onDev (pldmReq b r) s
def effMctpControl (b : Nat) (r : MctpReq) (s : State) : Host.Outcome State Fault Refusal := onDev (mctpCtl b r) s

end Sys2Proof.Machine
end

