-- ==== Sys2Proof/Machine/Ftl.lean ====
section
/-! DEFINITION. The parking tier's own work: reads, failed programs and dies, relocation and the re-encryption sweep
(R124-R134). -/

namespace Sys2Proof.Machine

/-- The units of a block, and of a die. -/
def Dev.unitsIn (d : Dev) (b : Nat) : List Nat := (d.nand.units.filter fun u => u.2.block == b).map Prod.fst
def Dev.unitsOn (d : Dev) (die : Nat) : List Nat := (d.nand.units.filter fun u => u.2.die == die && u.2.state == 1).map Prod.fst

/-- The reads of NAND in flight (R128): the moves whose granule in copy, fetch-backs whose page, and movements of sessions whose image
is being read, with the units they read. A movement is named by 2^48 plus its session's key. -/
def Dev.readsNow (d : Dev) : List (Nat × List Nat) :=
  (d.ops.filterMap fun o => match o.2.kind with
    | .load tok _ _ m => if m.copying then some (o.1, ((tget d.nand.objs tok).elim [] NandObj.units).take 1) else none
    | .shareUp _ sh _ m => if m.copying then some (o.1, (d.share sh).elim [] fun s => s.homes.filterMap Home.unit?) else none
    | .fetchBack h l j (some _) =>
      match (tget d.ses.tbl (h.toNat / 2 ^ 28 * 2 ^ 24 + h.toNat % 2 ^ 24)).bind Ses.kv with
      | some k => some (o.1, (((k.pages[l]?).getD [])[j]?).elim [] fun p => (Home.unit? p.home).toList)
      | none => none
    | _ => none) ++
  d.ses.tbl.filterMap fun s => s.2.move.bind fun m =>
    if m.kind = 2 ∧ m.readStarted then some (2 ^ 48 + s.1, (tget d.nand.objs m.obj).elim [] NandObj.units) else none

/-- A block erased: it returns to the pool with one cycle more of wear; a pseudo-SLC cycle is 0.06 of a TLC cycle (R130). A block
that a region still writes is closed. -/
def Dev.eraseBlock (d : Dev) (b : Nat) : Dev :=
  { d with nand :=
    { d.nand with
      blocks := tmod d.nand.blocks b fun k => ⟨2, 0, k.wear + (if k.region = 0 then 6 else 100), false, []⟩
      open_ := d.nand.open_.filter fun e => e.2.1 != b } }

/-- A block's valid units relocated, and the block erased once no read from it is in flight (R128). -/
def Dev.cleanBlock (d : Dev) (b : Nat) : Dev :=
  let us := d.unitsIn b
  let live := d.readsNow
  let old := (tget d.nand.blocks b).elim [] NBlock.readers
  let wait := ((live.filter fun r => r.2.any us.contains).map Prod.fst) ++ old.filter fun n => live.any fun r => r.1 == n
  let d := { d with nand := { d.nand with open_ := d.nand.open_.filter fun e => e.2.1 != b } }.relocateAll us
  if wait.isEmpty then d.eraseBlock b
  else { d with nand := { d.nand with blocks := tmod d.nand.blocks b fun k => { k with readers := wait } } }

/-- Good physical blocks: 250 GB dies of 18 MiB blocks (R123, R124), less failed dies and retired blocks. -/
def Dev.goodBlocks (d : Dev) : Nat := (128 - d.nand.failed.length) * 13245 - d.nand.retired.length

/-- A region's allotment of blocks, and the blocks it uses (R124). -/
def Dev.allotment (d : Dev) (region : Nat) : Nat :=
  let a := d.goodBlocks * d.pslcRaw / 320
  if region = 0 then a else d.goodBlocks - a
def Dev.blocksUsed (d : Dev) (region : Nat) : Nat := (d.nand.blocks.filter fun b => b.2.region == region).length

/-- A region's free share in percent (R124). -/
def Dev.freeShare (d : Dev) (region : Nat) : Nat :=
  if d.blocksUsed region ≥ d.allotment region then 0
  else (d.allotment region - d.blocksUsed region) * 100 / d.allotment region

/-- Whether a region writes a block now. -/
def Dev.isOpen (d : Dev) (b : Nat) : Bool := d.nand.open_.any fun e => e.2.1 == b && decide (e.2.2 < blockUnits (e.1 / 128))

/-- The block of a region with the fewest valid units, among those not written any longer. -/
def Dev.emptiest (d : Dev) (region : Nat) : List (Nat × NBlock) → Option Nat
  | [] => none
  | (b, k) :: l =>
    if k.region ≠ region ∨ d.isOpen b = true then d.emptiest region l
    else
      match d.emptiest region l with
      | none => some b
      | some c => if (d.unitsIn b).length ≤ (d.unitsIn c).length then some b else some c

/-- Garbage collection of one block (R128). -/
def gcRegion (region : Nat) (_ : Ctx) (d : Dev) : Dev :=
  if region < 2 ∧ (d.freeShare region < 3 ∨ d.blocksUsed region > d.allotment region) then
    match d.emptiest region d.nand.blocks with
    | some b => d.cleanBlock b
    | none => d
  else d

/-- Relocation for read disturb (R129): the count has reached the region's limit, or a read needed too much of the
code. -/
def disturb (b : Nat) (worn : Bool) (_ : Ctx) (d : Dev) : Dev :=
  match tget d.nand.blocks b with
  | some k =>
    if k.region < 2 ∧ ((worn = true ∧ k.tired = true) ∨ k.reads ≥ (if k.region = 0 then 400000 else 60000)) then d.cleanBlock b else d
  | none => d

/-- Wear of all blocks together, in hundredths of a TLC cycle. -/
def Dev.wearSum (d : Dev) : Nat := nsum (d.nand.blocks.map fun b => b.2.wear)

/-- Wear levelling out of a least-worn block (R130): it has the least wear of the blocks in use, and some block's wear is no longer
within 5 % of rated life, 15,000 hundredths of a cycle, of the mean. -/
def levelMove (b : Nat) (_ : Ctx) (d : Dev) : Dev :=
  let n := d.goodBlocks
  let far := d.nand.blocks.any fun o => decide (d.wearSum + 15000 * n < o.2.wear * n ∨ o.2.wear * n + 15000 * n < d.wearSum)
  match tget d.nand.blocks b with
  | some k => if far && decide (k.region < 2) && d.nand.blocks.all fun o => decide (2 ≤ o.2.region ∨ k.wear ≤ o.2.wear) then d.cleanBlock b else d
  | none => d

/-- MEM_WEAR: the most-worn block and the mean, in 0.01 % of the rated 3,000 TLC cycles. -/
def Dev.wearMax (d : Dev) : Nat := d.nand.blocks.foldl (fun m b => max m b.2.wear) 0 / 30
def Dev.wearMean (d : Dev) : Nat := if d.goodBlocks = 0 then 0 else d.wearSum / d.goodBlocks / 30

/-- A die fails (R127). Units whose stripe also lost a die that is still being rebuilt become unreadable: stripes
written before that die failed. -/
def dieFail (die : Nat) (x : Ctx) (d : Dev) : Dev :=
  if die ≥ 128 ∨ d.nand.failed.contains die then d
  else
    let lost := d.nand.rebuilding.filter fun k => k % 8 == die % 8
    let dead (v : NUnit) : Bool := (lost.contains v.die || v.die == die) && lost.any fun k =>
      let p := tgetD d.nand.failPos k (0, 0)
      decide (v.stripe ≤ (if v.region = 0 then p.1 else p.2) / 16)
    let n := (d.unitsOn die).length
    let d := { d with nand := { d.nand with
      units := tmap d.nand.units fun _ v => if dead v then { v with state := 2 } else v
      failed := addNum die d.nand.failed
      rebuilding := addNum die d.nand.rebuilding
      failPos := tset d.nand.failPos die (d.nand.stripeP, d.nand.stripeB) } }
    d.recDev x .fault 0x101 (nandSource die) (wd n) 0 0

/-- The rewrite of a failed die's valid units ends. -/
def dieRebuilt (die : Nat) (_ : Ctx) (d : Dev) : Dev :=
  if d.nand.rebuilding.contains die then
    let d := d.relocateAll (d.unitsOn die)
    { d with nand := { d.nand with rebuilding := d.nand.rebuilding.filter (· != die) } }
  else d

/-- The units an operation is writing now. -/
def Dev.opUnits (d : Dev) (id : Nat) : List Nat :=
  match tget d.ops id with
  | some o =>
    match o.kind with
    | .store _ _ _ us m => if m.copying then (us.drop m.next) else []
    | .shareDown _ _ us m => if m.copying then (us.drop m.next) else []
    | .spill _ _ _ u _ => [u]
    | .parkSes h => match tget d.ses.tbl (h.toNat / 2 ^ 28 * 2 ^ 24 + h.toNat % 2 ^ 24) with
      | some s => (s.move.elim [] fun m => (tget d.nand.objs m.obj).elim [] NandObj.units)
      | none => []
    | _ => []
  | none => []

/-- A program of an operation's write ends (R126): a failure retires the block of its last unit and writes that unit's
stripe elsewhere; a success confirms. A write that still waits for credit (R328) has not been programmed. -/
def ftlConfirm (id : Nat) (ok : Bool) (_ : Ctx) (d : Dev) : Dev :=
  match (d.opUnits id).getLast? with
  | none => d
  | some u =>
    match if d.nandWaits id then none else tget d.nand.units u with
    | none => d
    | some v =>
      if !ok then
        let mates := (d.nand.units.filter fun w => w.2.region == v.region && w.2.stripe == v.stripe).map Prod.fst
        { d with nand :=
          { d.nand with
            retired := addNum v.block d.nand.retired
            blocks := tmod d.nand.blocks v.block fun k => { k with region := 3 }
            open_ := d.nand.open_.filter fun e => e.2.1 != v.block } }.relocateAll mates
      else
        match tget d.ops id with
        | some ⟨_, _, .store a b c us m, _⟩ => d.setOp id (.store a b c us { m with conf := true })
        | some ⟨_, _, .shareDown a b us m, _⟩ => d.setOp id (.shareDown a b us { m with conf := true })
        | some ⟨_, _, .spill h l j u _, _⟩ => d.setOp id (.spill h l j u true)
        | some ⟨_, _, .parkSes h, _⟩ =>
          let k := h.toNat / 2 ^ 28 * 2 ^ 24 + h.toNat % 2 ^ 24
          { d with ses := { d.ses with tbl := tmod d.ses.tbl k fun s => { s with move := s.move.map fun m => { m with written := true } } } }
        | _ => d

/-- One unit of the re-encryption sweep (R134): it is written under the current version, and charged (R326). -/
def sweepUnit (p u : Nat) (_ : Ctx) (d : Dev) : Dev :=
  match tget d.nand.units u with
  | none => d
  | some v =>
    let cur := (d.keysOf p).2
    if v.part = p ∧ v.key ≠ cur ∧ v.state = 1 ∧ fld (d.partReg p 0x04000C) 11 0 ≠ 0 then
      ({ d with nand := { d.nand with units := tset d.nand.units u { v with key := cur } } }.relocate u).shapeNand p 5 5 0 [u]
    else d

def effFtlWriteConfirm (id : Nat) (ok : Bool) (s : State) : Host.Outcome State Fault Refusal := onDev (ftlConfirm id ok) s
def effNandDieFailure (die : Nat) (s : State) : Host.Outcome State Fault Refusal := onDev (dieFail die) s
def effDieRebuildComplete (die : Nat) (s : State) : Host.Outcome State Fault Refusal := onDev (dieRebuilt die) s
def effGarbageCollect (r : Nat) (s : State) : Host.Outcome State Fault Refusal := onDev (gcRegion r) s
def effReadDisturbRelocate (b : Nat) (w : Bool) (s : State) : Host.Outcome State Fault Refusal := onDev (disturb b w) s
def effWearLevelMove (b : Nat) (s : State) : Host.Outcome State Fault Refusal := onDev (levelMove b) s
def effSweepUnitSwitch (p u : Nat) (s : State) : Host.Outcome State Fault Refusal := onDev (sweepUnit p u) s
def effNandReadScan (u : Nat) (r : NandRead) (s : State) : Host.Outcome State Fault Refusal := onDev (fun x d => d.unitRead x u r) s

end Sys2Proof.Machine
end

