-- ==== Sys2Proof/Machine/Kv.lean ====
section
/-! DEFINITION. KV pages: geometry, channel sets, page tables, exchange pages, and the park-format image
(R91-R94, R209-R218). -/

namespace Sys2Proof.Machine

/-! ### Geometry (R209-R211) -/

/-- Positions per page. -/
def pageT (heads dim fmt : Nat) : Nat := 32768 / (2 * heads * vecBytes fmt dim)

/-- The offset in a page of the vector of a head at a slot, in the K or the V half (R210). -/
def Kv.vecOff (k : Kv) (v : Bool) (head slot : Nat) : Nat :=
  (if v then k.heads * k.t * vecBytes k.fmt k.dim else 0) + (head * k.t + slot) * vecBytes k.fmt k.dim

/-- Own pages of a layer. -/
def Kv.layer (k : Kv) (l : Nat) : List KPage := (k.pages[l]?).getD []

/-- The own page of a position, counted from the session's first own position. -/
def Kv.page (k : Kv) (l pos : Nat) : Option KPage := (k.layer l)[pos / k.t]?

/-- KV_PAGES and SPILL_PAGES. -/
def Kv.count (k : Kv) : Nat := nsum (k.pages.map List.length)
def Kv.spilled (k : Kv) : Nat := nsum (k.pages.map fun l => (l.filter KPage.spilled).length)

/-- The stored bytes of a head vector of an own position. -/
def Dev.kvVec (d : Dev) (k : Kv) (l : Nat) (v : Bool) (head pos : Nat) : List Byte :=
  match k.page l pos with
  | some p => (d.homeRead p.home (k.vecOff v head (pos % k.t)) (vecBytes k.fmt k.dim)).1
  | none => List.replicate (vecBytes k.fmt k.dim) 0

/-- Whether any byte of an own page is bad. -/
def Dev.kvBad (d : Dev) (k : Kv) : Bool := k.pages.any fun l => l.any fun p => (d.homeRead p.home 0 32768).2

/-! ### 1 KiB blocks in a row (R216, R217) -/

/-- The first of `n` clear bits in a row in a 32-bit map. -/
def clearRun (m n : Nat) : Option Nat := (List.range (33 - n)).find? fun i => (List.range n).all fun j => !bitAt m (i + j)

/-- `n` blocks in a row for partition p. -/
def Dev.takeRun (d : Dev) (p n : Nat) : Option (List Nat × Dev) :=
  let bits (i : Nat) : Nat := (2 ^ n - 1) * 2 ^ i
  let addrs (g i : Nat) : List Nat := (List.range n).map fun j => granAddr g + 1024 * (i + j)
  let room := d.mem.gran.findSome? fun g =>
    match g.2.use with
    | .blocks m => if g.2.part = p then (clearRun m n).map fun i => (g.1, m, i) else none
    | _ => none
  match room with
  | some (g, m, i) => some (addrs g i, { d with mem := { d.mem with gran := tset d.mem.gran g ⟨p, .blocks (m + bits i)⟩ } })
  | none =>
    match d.takePage p (.blocks (bits 0)) with
    | some (g, d) => some (addrs g 0, d)
    | none => none

/-- The first granule of a NORMAL region of partition p, or SHARED, that is free with the one behind it. -/
def Dev.freePair (d : Dev) (p : Nat) : Option Nat :=
  (List.range 16).findSome? fun s => (List.range 48).findSome? fun r =>
    if (d.regionOwner s r == p || d.regionOwner s r == 31) && !d.isCompute s r then
      ((List.range 32767).map fun i => gran (stackBase s) + r * 32768 + i).find? fun g => d.granFree g && d.granFree (g + 1)
    else none

/-- An area of `n` blocks in a row: within a page, or the 33 of the largest mask over a page and the block behind it (R288). -/
def Dev.takeArea (d : Dev) (p n : Nat) : Option (List Nat × Dev) :=
  if n ≤ 32 then d.takeRun p n
  else if d.hbmUsed p + 2 > d.hbmQuota p then none
  else
    match d.freePair p with
    | some g => some ((List.range n).map fun i => granAddr g + 1024 * i, (d.takeGran p g (.blocks (2 ^ 32 - 1))).takeGran p (g + 1) (.blocks 1))
    | none => none

/-- Blocks of a root with `layers` entries, and of a layer's directory and leaves for n pages (R217, R218). -/
def rootBlks (layers : Nat) : Nat := (0x80 + 8 * layers + 1023) / 1024
def layerBlks (n : Nat) : Nat := if n = 0 then 0 else if n ≤ 128 then 1 else (n + 127) / 128 + 1

/-- Blocks that a table's layers need. -/
def Kv.tableBlks (k : Kv) : Nat := rootBlks k.layers + nsum (k.pages.map fun l => layerBlks l.length)

/-! ### Tables as they lie in HBM (R217, R218)

The model keeps a table as data and computes the bytes of its blocks from it; which block holds which leaf is the model's choice (log
entry 45). -/

/-- A page entry. -/
def KPage.entry (p : KPage) : Nat :=
  if p.valid then 2 ^ 63 + p.fill * 2 ^ 52 + match p.home with
    | .hbm a => a
    | .nand u => 2 ^ 62 + u
  else 0

/-- A block: entries of 8 bytes, filled up with zeros. -/
def blkBytes (es : List Nat) : List Byte := es.flatMap (leBytes 8) ++ List.replicate (1024 - 8 * es.length) 0

/-- A layer's entry and its blocks: one leaf, or a directory and its leaves. -/
def layerTable (bs es : List Nat) : Nat × List (Nat × List Byte) :=
  let n := es.length
  match bs with
  | [] => (0, [])
  | b :: ls =>
    if n = 0 then (0, [])
    else if n ≤ 128 then (2 ^ 63 + n * 2 ^ 48 + b, [(b, blkBytes es)])
    else (n * 2 ^ 48 + b, (b, blkBytes ls) :: ls.mapIdx fun i a => (a, blkBytes ((es.drop (128 * i)).take 128)))

/-- The layers of a table: their entries, and their blocks. -/
def layerTables : List Nat → List (List Nat) → List Nat × List (Nat × List Byte)
  | _, [] => ([], [])
  | bs, es :: ls =>
    let n := layerBlks es.length
    let t := layerTable (bs.take n) es
    let r := layerTables (bs.drop n) ls
    (t.1 :: r.1, t.2 ++ r.2)

/-- The 128 bytes at the head of a root. -/
def rootHead (t fmt layers pfxPages pfxRoot : Nat) (set : List (Nat × Nat)) (xchg : List Nat) : List Byte :=
  leBytes 2 t ++ leBytes 1 fmt ++ [0] ++ leBytes 2 layers ++ leBytes 2 pfxPages ++ leBytes 8 pfxRoot ++
    (set.flatMap fun m => leBytes 2 (m.1 + 256 * m.2)) ++ (xchg.flatMap (leBytes 8)) ++ List.replicate 32 0

/-- The blocks of a table, each with its bytes. -/
def tableImage (head : List Byte) (blks : List Nat) (layers : List (List Nat)) : List (Nat × List Byte) :=
  let n := rootBlks layers.length
  let t := layerTables (blks.drop n) layers
  let root := head ++ t.1.flatMap (leBytes 8)
  ((blks.take n).zip (chunks 1024 n (root ++ List.replicate (1024 * n - root.length) 0))) ++ t.2

/-- The table of a session, and of a prefix. -/
def Dev.kvImage (d : Dev) (k : Kv) : List (Nat × List Byte) :=
  tableImage (rootHead k.t k.fmt k.layers k.pfxPages ((d.share k.pfx).elim 0 fun s => (s.blks.head?).getD 0) k.set k.xchg) k.blks
    (k.pages.map fun l => l.map KPage.entry)
def Share.image (s : Share) : List (Nat × List Byte) :=
  tableImage (rootHead s.t s.fmt s.layers 0 0 s.set (List.replicate 8 0)) s.blks
    ((List.range s.layers).map fun l => (List.range s.pages).map fun j =>
      (s.homes[l * s.pages + j]?).elim 0 fun h => (KPage.mk true false (((s.fills[l]?).getD [])[j]?.getD 0) h).entry)

/-- The bytes of the 1 KiB block at an address, where a page table has it. -/
def Dev.tableAt (d : Dev) (b : Nat) : Option (List Byte) :=
  match d.ses.tbl.findSome? fun s => s.2.kv.bind fun k => if k.blks.contains b then some k else none with
  | some k => tget (d.kvImage k) b
  | none => (d.mem.shares.find? fun s => s.2.blks.contains b).bind fun s => tget s.2.image b

/-- Bytes of HBM as a reader finds them, page tables among them; `fuel` blocks at most. -/
def Dev.hbmLook (d : Dev) : Nat → Nat → Nat → List Byte
  | 0, _, _ => []
  | f + 1, a, len =>
    if len = 0 then []
    else
      let n := min len (1024 - a % 1024)
      (match d.tableAt (a / 1024 * 1024) with
        | some bs => (bs.drop (a % 1024)).take n
        | none => d.hbmRead a n) ++ d.hbmLook f (a + n) (len - n)

/-! ### The pages and the table of a prefix (R213, R216, R217, R234) -/

/-- Granules for the pages of a prefix, by member. -/
def Dev.pfxGrans (d : Dev) (p id : Nat) (set : List (Nat × Nat)) : List Nat → Option (List Nat × Dev)
  | [] => some ([], d)
  | m :: ms =>
    match d.takeMember p set (.pfx id) 8 m with
    | none => none
    | some (g, d) =>
      match d.pfxGrans p id set ms with
      | none => none
      | some (gs, d) => some (g :: gs, d)

/-- The blocks of a prefix's table: the root's in a row, then those of the layers. -/
def Dev.pfxBlks (d : Dev) (p layers per : Nat) : Option (List Nat × Dev) :=
  match d.takeRun p (rootBlks layers) with
  | none => none
  | some (a, d) =>
    match d.takeBlks p (layers * layerBlks per) with
    | none => none
    | some (b, d) => some (a ++ b, d)

/-- A new frozen object with places for the pages and the table of a prefix; it is a prefix when its last page has come. -/
def Dev.newPfx (d : Dev) (p : Nat) (s : Share) : Option (Nat × Dev) :=
  let id := d.nextShare
  match d.pfxGrans p id s.set ((List.range (s.layers * s.pages)).map fun i => (i / s.pages + i % s.pages) % 8) with
  | none => none
  | some (gs, d) =>
    match d.pfxBlks p s.layers s.pages with
    | none => none
    | some (bs, d) =>
      let homes := gs.map fun g => Home.hbm (granAddr g)
      some (id, { d with mem := { d.mem with lastShare := id } }.setShare id { s with homes := homes, bytes := homes.length * 32768, blks := bs })

/-- The copies that an operation has in progress end with nothing switched. -/
def Dev.dropCopies (d : Dev) (x : Ctx) (id : Nat) : Dev :=
  (d.mem.copying.filter fun c => c.2 == id).foldl (fun d c => d.endCopy x c.1 (some (.hbm (granAddr c.1)))) d

/-- A move into a prefix stops: the pages that have switched stay where they are for what they belong to, and the rest is released with
the object (R117, R242). -/
def Dev.pfxStop (d : Dev) (x : Ctx) (id sh n : Nat) (u : GranUse) (st : Status) : Dev :=
  match d.share sh with
  | none => d.endOp x id st []
  | some s =>
    let gs := s.homes.filterMap fun h => match h with
      | .hbm a => some (gran a)
      | .nand _ => none
    let d := (gs.take n).foldl (fun (d : Dev) g => { d with mem := { d.mem with gran := tset d.mem.gran g ⟨s.part, u⟩ } }) (d.dropCopies x id)
    let d := ((gs.drop n).foldl Dev.freeGran d).freeBlks s.blks
    let d := ({ d with mem := { d.mem with shares := tdel d.mem.shares sh } }.adpCheck s.part s.adapter).freeDesc id
    d.endOp x id st (if st = .deviceFault then [wd n] else [])

/-! ### Failed allocations (R216) -/

/-- A failed KV allocation of a partition: spill starts, and KV_SHORT is sent once in 100 ms. -/
def Dev.kvShort (d : Dev) (x : Ctx) (p : Nat) : Dev :=
  let d := { d with mem := { d.mem with spilling := addNum p d.mem.spilling } }
  let quiet := match tget d.mem.kvShortAt p with
    | some t => decide (x.now < t + 100 * ticksMs)
    | none => false
  if quiet then d
  else { d with mem := { d.mem with kvShortAt := tset d.mem.kvShortAt p x.now } }.recPart x p .log 0x209 (source 4 0) 0 0 0

/-! ### Tables -/

/-- An empty table for a geometry: a channel set, and the root's blocks. None where no set can be formed or no block is
free. `pfx` is the bound prefix with its set and its pages per layer. -/
def Dev.newKv (d : Dev) (p layers heads dim fmt pfx : Nat) : Option (Kv × Dev) :=
  let ps := if pfx = 0 then none else d.share pfx
  let set := match ps with
    | some s => some s.set
    | none => d.newSet p
  match set with
  | none => none
  | some set =>
    match d.takeRun p (rootBlks layers) with
    | none => none
    | some (bs, d) =>
      some (⟨(bs[0]?).getD 0, pageT heads dim fmt, fmt, layers, heads, dim, ps.elim 0 Share.pages, pfx, set,
        List.replicate 8 0, List.replicate layers [], bs⟩, d)

/-- The blocks of a table brought to what its layers need. -/
def Dev.growTable (d : Dev) (p : Nat) (k : Kv) : Option (Kv × Dev) :=
  let want := k.tableBlks - k.blks.length
  match d.takeBlks p want with
  | some (bs, d) => some ({ k with blks := k.blks ++ bs }, d)
  | none => none

/-- One more own page of a layer, in its member or the next that has room (R213). -/
def Dev.addPage (d : Dev) (p l : Nat) (k : Kv) : Option (Kv × Dev) :=
  let n := (k.layer l).length
  match d.takeMember p k.set .kv 8 ((l + k.pfxPages + n) % 8) with
  | none => none
  | some (g, d') =>
    let pg : KPage := ⟨true, false, 0, .hbm (granAddr g)⟩
    d'.growTable p { k with pages := k.pages.set l (k.layer l ++ [pg]) }

/-- Every layer of a list brought to n own pages. -/
def Dev.growLayers (d : Dev) (p n : Nat) : List Nat → Kv → Option (Kv × Dev)
  | [], k => some (k, d)
  | l :: ls, k =>
    let rec add (d : Dev) (k : Kv) : Nat → Option (Kv × Dev)
      | 0 => some (k, d)
      | m + 1 =>
        match d.addPage p l k with
        | none => none
        | some (k, d) => add d k m
    match add d k (n - (k.layer l).length) with
    | none => none
    | some (k, d) => d.growLayers p n ls k

/-- Pages for `pos` own positions in every layer. -/
def Dev.growKv (d : Dev) (p pos : Nat) (k : Kv) : Option (Kv × Dev) :=
  d.growLayers p ((pos + k.t - 1) / k.t) (List.range k.layers) k

/-- FILL of every own page for `pos` own positions. -/
def Kv.fillTo (k : Kv) (pos : Nat) : Kv :=
  { k with pages := k.pages.map fun l => l.mapIdx fun i p => { p with fill := min k.t (pos - i * k.t) } }

/-- The exchange pages that are missing, taken where their member has a free granule (R215). -/
def Dev.takeXchg (d : Dev) (p : Nat) (k : Kv) : Kv × Dev :=
  (List.range 8).foldl (fun (kd : Kv × Dev) m =>
    if (kd.1.xchg[m]?).getD 0 ≠ 0 then kd
    else
      match kd.1.set[m]? with
      | none => kd
      | some (s, c) =>
        match kd.2.takeKv p s c .xchg with
        | none => kd
        | some (g, d) => ({ kd.1 with xchg := kd.1.xchg.set m (granAddr g) }, d)) (k, d)

/-- Whether every exchange page is held. -/
def Kv.xchgFull (k : Kv) : Bool := k.xchg.all (· != 0)

/-- The exchange pages given back. -/
def Dev.freeXchg (d : Dev) (k : Kv) : Kv × Dev :=
  ({ k with xchg := List.replicate 8 0 }, k.xchg.foldl (fun d a => if a = 0 then d else d.freeGran (gran a)) d)

/-- Every page and block of a table released. -/
def Dev.freeKv (d : Dev) (k : Kv) : Dev :=
  let d := (d.freeXchg k).2
  ((k.pages.flatMap fun l => l.map KPage.home).foldl Dev.releaseHome d).freeBlks k.blks

/-! ### The park-format image (R91-R94) -/

/-- The header fields that the session and its model give. -/
structure ParkHdr where
  model : Nat
  adapter : Nat
  pfx : Nat
  nextPos : Nat
  window : Nat
  move : Bool
  engineNs : Nat
  bytes : Nat
  energy : Nat
  summary : Nat
  ratio : Nat

/-- The window section: own positions from `w0` to `ctx`, layer by layer, K before V, page by page, head by head
(R92). -/
def Dev.windowBytes (d : Dev) (k : Kv) (w0 ctx : Nat) : List Byte :=
  (List.range k.layers).flatMap fun l => [false, true].flatMap fun v =>
    ((List.range ((ctx + k.t - 1) / k.t)).filter fun j => (j + 1) * k.t > w0).flatMap fun j =>
      (List.range k.heads).flatMap fun h =>
        ((List.range k.t).filter fun t => w0 ≤ j * k.t + t && j * k.t + t < ctx).flatMap fun t =>
          d.kvVec k l v h (j * k.t + t)

/-- The older elements in the order of R92: summary positions first, then the stored ones. -/
def Dev.olderVals (d : Dev) (k : Kv) (sum first w0 : Nat) : List Fv :=
  (List.range k.layers).flatMap fun l => [false, true].flatMap fun v => (List.range k.heads).flatMap fun h =>
    ((List.range (sum * k.dim)).map fun i => f32Val (Config.summaryElem (d.free + ((l * 2 + if v then 1 else 0) * k.heads + h) * sum * k.dim + i))) ++
    (List.range (w0 - first)).flatMap fun i => vecVals k.fmt k.dim (d.kvVec k l v h (first + i))

/-- A segment's directory entry and coded bytes (R93). -/
def segment (off : Nat) (cs : List Nat) : List Byte × List Byte :=
  let f := ransFreqs cs
  let bs := ransSegment f cs
  (leBytes 8 off ++ leBytes 4 bs.length ++ leBytes 4 cs.length ++ leBytes 12 (packBits 12 f) ++ leBytes 4 (crc32c bs).toNat, bs)

/-- Segments of 65,536 codes one after another. -/
def segments : Nat → List Nat → List (List Byte × List Byte)
  | _, [] => []
  | off, cs =>
    (chunks 65536 ((cs.length + 65535) / 65536) cs).foldl (fun (a : List (List Byte × List Byte) × Nat) c =>
      let s := segment a.2 c
      (a.1 ++ [s], a.2 + s.2.length)) ([], off) |>.1

/-- The image of a session's own KV (R91, R92). With `h.summary` the oldest `ratio × summary` positions before the
window are replaced by that many summary positions (R94). -/
def Dev.parkImage (d : Dev) (k : Kv) (ctx : Nat) (h : ParkHdr) : List Byte :=
  let win := min h.window ctx
  let w0 := ctx - win
  let old := w0 - h.summary * h.ratio + h.summary
  let bl := (chunks 32 (2 * k.layers * k.heads * old * k.dim / 32) (d.olderVals k h.summary (h.summary * h.ratio) w0)).map (quantBlock 0x12)
  let window := d.windowBytes k w0 ctx
  let scales := bl.flatMap fun q => leBytes 2 q.scale
  let segs := segments 0 (bl.flatMap QBlock.codes)
  let dir := segs.flatMap Prod.fst
  let codes := segs.flatMap Prod.snd
  let o1 := 256 + window.length
  let o2 := o1 + scales.length
  let o3 := o2 + dir.length
  let body := window ++ scales ++ dir
  let hdr := leBytes 4 0x3146505A ++ leBytes 2 1 ++ leBytes 2 ((if h.summary = 0 then 0 else 1) + if h.move then 2 else 0) ++
    leBytes 2 h.model ++ leBytes 2 h.adapter ++ leBytes 4 h.pfx ++ leBytes 4 (win + old) ++ leBytes 4 h.nextPos ++
    leBytes 2 k.layers ++ leBytes 2 k.heads ++ leBytes 2 k.dim ++ leBytes 1 k.fmt ++ [0] ++
    leBytes 4 win ++ leBytes 4 old ++ leBytes 4 h.summary ++ leBytes 4 segs.length ++
    leBytes 8 256 ++ leBytes 8 window.length ++ leBytes 8 o1 ++ leBytes 8 scales.length ++
    leBytes 8 o2 ++ leBytes 8 dir.length ++ leBytes 8 o3 ++ leBytes 8 codes.length ++
    leBytes 8 h.engineNs ++ leBytes 8 h.bytes ++ leBytes 8 h.energy ++ List.replicate 112 0 ++ leBytes 4 (crc32c body).toNat
  hdr ++ leBytes 4 (crc32c hdr).toNat ++ body ++ codes

/-- The geometry that a header must match. -/
structure ParkGeo where
  layers : Nat
  heads : Nat
  dim : Nat
  fmt : Nat
deriving DecidableEq, Repr

/-- The header's CRC, MAGIC, VERSION and geometry (R98, R103). -/
def hdrOk (b : List Byte) (g : ParkGeo) : Bool :=
  256 ≤ b.length && leAt b 0xFC 4 == (crc32c (b.take 0xFC)).toNat && leAt b 0 4 == 0x3146505A && leAt b 4 2 == 1 &&
    leAt b 0x18 2 == g.layers && leAt b 0x1A 2 == g.heads && leAt b 0x1C 2 == g.dim && leAt b 0x1E 1 == g.fmt

/-- Whether a header names a session's model, adapter version, prefix and context (R98). -/
def hdrMatch (b : List Byte) (model adapter pfx ctx : Nat) : Bool :=
  leAt b 8 2 == model && leAt b 0xA 2 == adapter && leAt b 0xC 4 == pfx && leAt b 0x10 4 == ctx

/-- A section of an image: offset and length stand at `o` of the header. -/
def section_ (b : List Byte) (o : Nat) : List Byte := (b.drop (leAt b o 8)).take (leAt b (o + 8) 8)

/-- The CRC of the first three sections, and of every segment. -/
def sectionsOk (b : List Byte) : Bool :=
  leAt b 0xF8 4 == (crc32c (section_ b 0x30 ++ section_ b 0x40 ++ section_ b 0x50)).toNat &&
    let dir := section_ b 0x50
    let codes := section_ b 0x60
    (List.range (leAt b 0x2C 4)).all fun i =>
      let bs := (codes.drop (leAt dir (32 * i) 8)).take (leAt dir (32 * i + 8) 4)
      leAt dir (32 * i + 28) 4 == (crc32c bs).toNat

/-- All codes of an image, segment by segment. -/
def imageCodes (b : List Byte) : List Nat :=
  let dir := section_ b 0x50
  let codes := section_ b 0x60
  (List.range (leAt b 0x2C 4)).flatMap fun i =>
    let e := (dir.drop (32 * i)).take 32
    let bs := (codes.drop (leAt e 0 8)).take (leAt e 8 4)
    let f := (List.range 8).map fun k => leAt e 16 12 / 2 ^ (12 * k) % 4096
    ransDec f (leAt e 12 4) (leAt bs 0 4) (bs.drop 4)

/-- The stored bytes of every head vector of an image, in the order layer, K or V, head, position: older positions
scaled back into the working format, then the window as it was. -/
def imageVecs (b : List Byte) (g : ParkGeo) : List (List Byte) :=
  let vb := vecBytes g.fmt g.dim
  let old := leAt b 0x24 4
  let win := leAt b 0x20 4
  let t := pageT g.heads g.dim g.fmt
  let scales := section_ b 0x40
  let vals := (imageCodes b).mapIdx fun i c => elemVal 0x12 c (leAt scales (2 * (i / 32)) 2)
  let olds := chunks g.dim (2 * g.layers * g.heads * old) vals
  let winB := section_ b 0x30
  let per := win * g.heads * vb
  (List.range g.layers).flatMap fun l => (List.range 2).flatMap fun v => (List.range g.heads).flatMap fun h =>
    let row := ((l * 2 + v) * g.heads + h) * old
    ((List.range old).map fun i => vecStore g.fmt g.dim ((olds[row + i]?).getD [])) ++
    (List.range win).map fun i =>
      let p := old + i
      let j := p / t
      let lo := max old (j * t)
      let cnt := min (old + win) ((j + 1) * t) - lo
      let off := (l * 2 + v) * per + (lo - old) * g.heads * vb + (h * cnt + (p - lo)) * vb
      (winB.drop off).take vb

/-- Head vectors written into the own pages of a table, in the order of `imageVecs`. -/
def Dev.putVecs (d : Dev) (k : Kv) (ctx : Nat) (vs : List (List Byte)) : Dev :=
  (List.range k.layers).foldl (fun d l => (List.range 2).foldl (fun d v => (List.range k.heads).foldl (fun d h =>
    (List.range ctx).foldl (fun d p =>
      match k.page l p with
      | some ⟨_, _, _, .hbm a⟩ =>
        d.hbmWrite (a + k.vecOff (v == 1) h (p % k.t)) ((vs[((l * 2 + v) * k.heads + h) * ctx + p]?).getD [])
      | _ => d) d) d) d) d

end Sys2Proof.Machine
end

