-- ==== Sys2Proof/Machine/NetOps.lean ====
section
/-! DEFINITION. Reed's queue pairs, the sending side, and event work requests (R297, R301, R302, R308-R316, R321). -/

namespace Sys2Proof.Machine

/-! ### Queue pairs -/

/-- A queue pair, and its replacement. -/
def Dev.qp (d : Dev) (n : Nat) : Option Qp := tget d.net.qps n
def Dev.setQp (d : Dev) (n : Nat) (q : Qp) : Dev := { d with net := { d.net with qps := tset d.net.qps n q } }
def Dev.modQp (d : Dev) (n : Nat) (f : Qp → Qp) : Dev := { d with net := { d.net with qps := tmod d.net.qps n f } }

/-- The die a queue pair lives on, and its ACK timeout in ticks (R324: 4.096 µs × 2^code). -/
def Qp.die (q : Qp) : Nat := q.sub / 8
def Qp.rto (q : Qp) : Nat := 512 * 2 ^ q.ackCode

/-- The GID entry of a queue pair. -/
def Dev.gidOf (d : Dev) (q : Qp) : Option Gid := tget d.net.gids (q.sub * 16 + q.gid)

/-- The queue pair that partition p owns under a number. -/
def Dev.ownQp (d : Dev) (p n : Nat) : Option Qp :=
  match d.qp n with
  | some q => if q.part = p then some q else none
  | none => none

/-- SOURCE of a sub-port (R431). -/
def netSource (sub : Nat) : Nat := source 9 sub

/-! ### Packets (R301, R302) -/

/-- Bytes of a frame (R326): Ethernet header, VLAN tag, IP, UDP, multipath header, BTH, RETH, ImmDt, payload, tag, ICRC and
FCS; at least 64. -/
def frameBytes (v4 vlan : Bool) (p : Packet) (enc : Bool) : Nat :=
  max 64 (14 + (if vlan then 4 else 0) + (if v4 then 20 else 40) + 8 + (if p.mp.isSome then 32 else 0) + 12 +
    (if p.reth.isSome then 16 else 0) + (if p.imm.isSome then 4 else 0) + p.payload.length + (if enc then 16 else 0) + 4 + 4)

/-- An IPv4-mapped address. -/
def isV4 (a : Nat) : Bool := a / 2 ^ 32 == 0xFFFF

/-- The UDP destination port of multipath packets, and that of RoCEv2 (log entry 94). -/
def Dev.mpPort (d : Dev) : Nat := fld (d.devReg 0x090120) 15 0
def rocePort : Nat := 4791

/-- A packet of queue pair n to its peer, with its UDP ports (R301). -/
def Dev.mkPacket (d : Dev) (n : Nat) (q : Qp) (b : BthOp) (psn : Nat) (mp : Option MpHdr) (reth : Option Reth) (imm : Option Word)
    (bs : List Byte) : Packet :=
  ⟨q.sub, q.raddr, (d.gidOf q).elim 0 Gid.vlan, q.rqpn, 0xFFFF, b, psn % 2 ^ 24, mp, reth, imm, bs, true, true, false, none, none,
    mp.elim (Config.udpSource n) fun h => 0xC000 + (n * 16 + h.path) % 16384, if mp.isSome then d.mpPort else rocePort⟩

/-- A packet sealed on an ENC queue pair, under the next sequence number (R321). -/
def Qp.seal_ (q : Qp) (p : Packet) : Packet × Qp :=
  if q.enc then
    ({ p with
       payload := Config.aesSeal q.key q.encSend p.payload
       mp := p.mp.map fun h => { h with seq := q.encSend } }, { q with encSend := q.encSend + 1 })
  else (p, q)

/-- The multipath header of packet k of a message. -/
def Qp.mpHdr (q : Qp) (s : Send) (k : Nat) : MpHdr :=
  ⟨1, s.kind == 1 || s.kind == 3, s.ses.isSome, false, false, if q.multi then k % q.paths else 0, 0, s.msn, s.len, k * q.mtu,
    s.ses.getD 0, if s.kind = 1 ∨ s.kind = 3 then s.imm else 0, 0⟩

/-- The number of packets of a message. -/
def packetsOf (mtu len : Nat) : Nat := max 1 ((len + mtu - 1) / mtu)

/-- The BTH operation of packet k of n on a queue pair without EXT (R299). -/
def rcOp (write imm : Bool) (k n : Nat) : BthOp :=
  if n = 1 then if write then if imm then .writeOnlyImm else .writeOnly else if imm then .sendOnlyImm else .sendOnly
  else if k = 0 then if write then .writeFirst else .sendFirst
  else if k + 1 = n then if write then if imm then .writeLastImm else .writeLast else if imm then .sendLastImm else .sendLast
  else if write then .writeMiddle else .sendMiddle

/-- Packet k of a work request. -/
def Dev.sendPacket (d : Dev) (m : Nat) (q : Qp) (s : Send) (data : List Byte) (k : Nat) : Packet :=
  let n := packetsOf q.mtu s.len
  let bs := (data.drop (k * q.mtu)).take q.mtu
  let reth : Reth := ⟨s.va, s.key, s.len⟩
  let write := s.kind == 2 || s.kind == 3
  let imm := s.kind == 1 || s.kind == 3
  if s.kind = 4 then d.mkPacket m q .readReq s.psn (if q.ext then some (q.mpHdr s 0) else none) (some reth) none []
  else if q.ext then
    d.mkPacket m q (if write then .writeOnly else .sendOnly) (s.psn + k) (some (q.mpHdr s k)) (if write then some reth else none) none bs
  else
    d.mkPacket m q (rcOp write imm k n) (s.psn + k) none (if write && k == 0 then some reth else none)
      (if imm && k + 1 == n then some s.imm else none) bs

/-- Packets of a work request from number k on, sealed in order, with their charged sizes. -/
def Dev.sendUnits (d : Dev) (n : Nat) (s : Send) (data : List Byte) : Nat → Nat → Qp → List ShUnit × Qp
  | 0, _, q => ([], q)
  | f + 1, k, q =>
    let r := q.seal_ (d.sendPacket n q s data k)
    let g := d.gidOf q
    let v4 := isV4 (g.elim 0 Gid.addr)
    let vlan := g.elim 0 Gid.vlan != 0
    let rs := d.sendUnits n s data f (k + 1) r.2
    (⟨frameBytes v4 vlan r.1 q.enc, .net n s.op r.1⟩ :: rs.1, rs.2)

/-- The bytes a work request sends, with whether any is poisoned; none where its range is not mapped. -/
def Dev.sendData (d : Dev) (q : Qp) (s : Send) : Option (List Byte × Bool) :=
  match s.bytes with
  | some bs => some (bs, false)
  | none => if s.kind = 4 then some ([], false) else d.bufRead q.part s.off s.len

/-- All packets of a work request from number `k` on, put before the shapers (R302, R316). -/
def Dev.transmit (d : Dev) (n : Nat) (s : Send) (data : List Byte) (k : Nat) : Dev :=
  match d.qp n with
  | none => d
  | some q =>
    let count := if s.kind = 4 then 1 else packetsOf q.mtu s.len
    let r := d.sendUnits n s data (count - k) k q
    (d.setQp n r.2).shape q.sub q.part n (q.dscp / 8) r.1

/-! ### The end of a work request -/

/-- Units of a work request that have not started are dropped. -/
def Dev.dropSend (d : Dev) (n op : Nat) : Dev :=
  d.unshape fun u => match u.what with
    | .net m o _ => m == n && o == op
    | _ => false

/-- A work request of a queue pair ends with a status (R313): OK raises the completion count; the final reply carries the
bytes and the count. The data of an engine's READ is kept for it. -/
def Dev.endSend (d : Dev) (x : Ctx) (n op : Nat) (st : Status) : Dev :=
  match d.qp n with
  | none => d.endOp x op st [0, 0]
  | some q =>
    match q.sends.find? fun s => s.op == op with
    | none => d
    | some s =>
      let c := if st = .ok then (q.count + 1) % 2 ^ 32 else q.count
      let d := (d.dropSend n op).setQp n { q with count := c, sends := q.sends.filter fun t => t.op != op }
      let mine := (tget d.ops op).elim false fun o => o.src == .engine .tiller || o.src == .engine .sheaf
      let d := if mine ∧ st ≠ .ok then { d with net := { d.net with failed := op :: d.net.failed } } else d
      let d : Dev := match s.bytes with
        | some bs => if s.kind = 4 ∧ st = Status.ok then { d with net := { d.net with got := tset d.net.got op bs } } else d
        | none => d
      d.endOp x op st [if st = Status.ok then wd s.len else 0, wd c]

/-- A deferred request that ends without starting (R315). -/
def Dev.endDeferred (d : Dev) (x : Ctx) (op : Nat) (st : Status) : Dev :=
  match tget d.net.deferred op with
  | none => d
  | some (_, n, _) =>
    { d with net := { d.net with deferred := tdel d.net.deferred op } }.endOp x op st [0, wd ((d.qp n).elim 0 Qp.count)]

/-- A work request none of whose packets has left: it and what started after it give their numbers back (R325). -/
def Dev.unsend (d : Dev) (n op : Nat) : Dev :=
  match (d.qp n).bind fun q => (q.sends.find? fun s => s.op == op).map fun s => (q, s) with
  | none => d
  | some (q, s) =>
    if s.onWire ∨ !s.started then d
    else
      let later := (q.sends.dropWhile fun t => t.op != op).filter Send.started
      (later.foldl (fun (d : Dev) t => d.dropSend n t.op) d).modQp n fun q => { q with
        nextMsn := s.msn
        sendPsn := s.psn
        sends := q.sends.map fun t => if later.any fun e => e.op == t.op then { t with started := false } else t }

/-- Every work request of a list ended. -/
def Dev.endSends (d : Dev) (x : Ctx) (n : Nat) (st : Status) : List Nat → Dev
  | [] => d
  | o :: os => (d.endSend x n o st).endSends x n st os

/-! ### Message targets and pins -/

/-- The granules of HBM that a range of a partition's buffer covers. -/
def Dev.bufGrans (d : Dev) (p off len : Nat) : List Nat :=
  ((d.bufRun p false (runFuel len) off len).getD []).filterMap fun r => r.addr.map gran

/-- Reed's pins on the granules a message covers, taken and released (R114, R323). -/
def Dev.pinMsg (d : Dev) (q : Qp) (r : Reasm) : Dev := if r.reserve then d else d.pinAll (d.bufGrans q.part r.base r.len)
def Dev.unpinMsg (d : Dev) (q : Qp) (r : Reasm) : Dev := if r.reserve then d else d.unpinAll (d.bufGrans q.part r.base r.len)

/-! ### Completion rings (R307) -/

/-- One completion entry: bytes of R307's layout written at the next place, and the reservation given back. -/
def Dev.cqWrite (d : Dev) (x : Ctx) (p cq : Nat) (write : Bool) (qpn : Nat) (st : Status) (idx len : Nat) (imm : Word) (off : Nat) : Dev :=
  match tget d.net.cqs (p * 256 + cq) with
  | none => d
  | some c =>
    let i := c.written % 2 ^ c.log2
    let ph := if c.written / 2 ^ c.log2 % 2 = 0 then 2 ^ 31 else 0
    let bs := leBytes 4 (ph + (if write then 2 ^ 20 else 0) + qpn % 2 ^ 20) ++ leBytes 4 (st.code * 65536 + idx % 65536) ++ leBytes 4 len ++
      leBytes 4 imm.toNat ++ leBytes 8 x.now ++ leBytes 8 off
    let d := (d.bufWrite x p (c.off + 64 + 32 * i) bs).getD d
    let note := c.notify && c.lastNote.elim true fun t => decide (t + 1250 ≤ x.now)
    let c' := { c with written := c.written + 1, held := c.held - 1, lastNote := if note then some x.now else c.lastNote }
    let d := { d with net := { d.net with cqs := tset d.net.cqs (p * 256 + cq) c' } }
    if note then d.recPart x p .log 0x20C (source 9 ((d.qp qpn).elim 0 Qp.sub)) (wd cq) 0 0 else d

/-- A completion for a message's SRQ entry, where the message has a completion ring. -/
def Dev.complete (d : Dev) (x : Ctx) (n : Nat) (q : Qp) (r : Reasm) (st : Status) : Dev :=
  match r.cq with
  | none => d
  | some c =>
    d.cqWrite x q.part c r.write n st (r.srq.elim 0 Prod.snd) r.len (r.imm.getD 0) r.base

/-! ### Event work requests (R308-R312) -/

/-- The key of an EWR. -/
def ewrKey (qpn id : Nat) : Nat := qpn * 2 ^ 32 + id

/-- A posted EWR. -/
def Dev.ewr (d : Dev) (qpn id : Nat) : Option Ewr := tget d.net.ewrs (ewrKey qpn id)

/-- Resolved entries that an EWR's buffer needs: one for each 2 MiB extent it covers (R221). -/
def ewrEnts (off len : Nat) : Nat := (off + len - 1) / 2097152 + 1 - off / 2097152

/-- Resolved entries in use (MEM_STU_RESOLVED), and a partition's posted EWRs (NET_EWR_USED). -/
def Dev.stuUsed (d : Dev) : Nat := nsum (d.net.ewrs.map fun e => e.2.ents)
def Dev.ewrUsed (d : Dev) (p : Nat) : Nat := (d.net.ewrs.filter fun e => e.2.part == p).length

/-- An EWR leaves the table with its resolved entries. -/
def Dev.dropEwr (d : Dev) (qpn id : Nat) : Dev := { d with net := { d.net with ewrs := tdel d.net.ewrs (ewrKey qpn id) } }

/-- Deferred requests ended with ABORTED. -/
def Dev.abortDeferred (d : Dev) (x : Ctx) : List Nat → Dev
  | [] => d
  | o :: os => (d.endDeferred x o .aborted).abortDeferred x os

/-- A message in reassembly is closed: its entry goes and its pins are released. -/
def Dev.closeMsg (d : Dev) (n msn : Nat) : Dev :=
  match d.qp n with
  | none => d
  | some q =>
    match tget q.reasm msn with
    | none => d
    | some r => (d.setQp n { q with reasm := tdel q.reasm msn }).unpinMsg q r

/-! ### Answers (R302, R305, R311) -/

/-- An ACKNOWLEDGE packet: on an EXT queue pair with its message's number and status, otherwise with a PSN. -/
def Dev.sendAck (d : Dev) (n msn status psn : Nat) (nak rnr : Option Nat) : Dev :=
  match d.qp n with
  | none => d
  | some q =>
    let mp : Option MpHdr := if q.ext then some ⟨1, false, false, true, false, 0, status, msn, 0, 0, 0, 0, 0⟩ else none
    let r := q.seal_ { d.mkPacket n q .ack psn mp none none [] with nak := nak, rnrTimer := rnr }
    (d.setQp n r.2).out (.packet r.1)

/-- A message that has ended is remembered with its status, among the last 256 (R305). -/
def Qp.remember (q : Qp) (msn st : Nat) : Qp :=
  let l := (q.done.filter fun e => e.1 != msn) ++ [(msn, st)]
  { q with done := l.drop (l.length - 256), refused := q.refused.filter (· != msn) }

/-- An EXT message answered with a status and remembered. -/
def Dev.answer (d : Dev) (n msn : Nat) (st : Status) : Dev := (d.modQp n fun q => q.remember msn st.code).sendAck n msn st.code 0 none none

/-- A message refused under R311. -/
def Dev.refuseMsg (d : Dev) (x : Ctx) (n msn psn id : Nat) : Dev :=
  match d.qp n with
  | none => d
  | some q =>
    let d := d.bumpPart q.part 0x090014 1
    if q.ext then d.answer n msn .sessionState
    else (d.sendAck n msn 0 psn none none).recPart x q.part .log 0x20D (netSource q.sub) (wd n) (wd id) 0

/-! ### Withdrawals (R312) -/

/-- An EWR withdrawn (R312): its deferred sends end, and a message that has claimed it is refused from then on (R311): at once where
all of it is in (R88), else when a packet of it comes. -/
def Dev.withdrawEwr (d : Dev) (x : Ctx) (qpn id : Nat) : Dev :=
  match d.ewr qpn id with
  | none => d
  | some e =>
    let d := (d.dropEwr qpn id).abortDeferred x e.deferred
    match e.claimed.bind fun m => (d.qp qpn).bind fun q => (tget q.reasm m).map fun r => (m, r) with
    | none => d
    | some (m, r) =>
      let d := d.closeMsg qpn m
      if r.whole then d.refuseMsg x qpn m r.psn id else d.modQp qpn fun q => { q with refused := q.refused ++ [m] }

/-- The EWRs that name a slot of a session, as keys. -/
def Dev.slotEwrs (d : Dev) (h : Word) (slot : Nat) : List Nat :=
  (d.net.ewrs.filter fun e => e.2.slot == some (h, slot)).map Prod.fst

/-- Several EWRs withdrawn, by key. -/
def Dev.withdrawAll (d : Dev) (x : Ctx) : List Nat → Dev
  | [] => d
  | k :: ks => (d.withdrawEwr x (k / 2 ^ 32) (k % 2 ^ 32)).withdrawAll x ks

/-! ### ERROR (R297) -/

/-- The packets of a queue pair that a swap met while they were held have ended (R35). -/
def Dev.heldDrain (d : Dev) (n : Nat) : Dev := (List.range 8).foldl (fun d i => d.drainEnd (drainId 9 (n * 16 + i))) d

/-- A queue pair enters ERROR: its sends end, its EWRs are withdrawn, messages in reassembly and held packets go. -/
def Dev.qpError (d : Dev) (x : Ctx) (n : Nat) : Dev :=
  match d.qp n with
  | none => d
  | some q =>
    let d := (d.heldDrain n).setQp n { q with st := 2, held := [], fetchAt := none, fetching := false }
    let d := d.endSends x n .aborted (q.sends.map Send.op)
    let d := d.abortDeferred x ((d.net.deferred.filter fun e => e.2.2.1 == n).map Prod.fst)
    let d := (tkeys q.reasm).foldl (fun d m => d.closeMsg n m) d
    d.withdrawAll x ((d.net.ewrs.filter fun e => e.1 / 2 ^ 32 == n).map Prod.fst)

/-! ### Contexts on chip (R317-R320) -/

/-- Contexts on chip of a die (NET_CTX_ONCHIP). -/
def Dev.onChip (d : Dev) (die : Nat) : Nat := (d.net.qps.filter fun q => q.2.die == die && q.2.place == .chip).length

/-- The port to whose area a partition's contexts go: the port that hosts it, with an area set. -/
def Dev.ctxArea (d : Dev) (p : Nat) : Option Nat :=
  match d.boundPort p with
  | some port => if tgetD d.net.areas port 0 = 0 then none else some port
  | none => none

/-- Whether a response to a READ of queue pair n waits at its shaper. -/
def Dev.readOut (d : Dev) (n : Nat) : Bool :=
  d.shp.flows.any fun f => f.2.queue.any fun u => match u.what with
    | .net m 0 _ => m == n
    | _ => false

/-- Whether the context of queue pair n may be evicted (R318). -/
def Dev.evictable (d : Dev) (n : Nat) (q : Qp) : Bool :=
  !d.readOut n && q.place == .chip && !q.pin && q.reasm.isEmpty && q.held.isEmpty && q.sends.isEmpty && (d.ctxArea q.part).isSome

/-- The least recently used of the contexts that may be evicted from a die. -/
def Dev.lruQp (d : Dev) (die : Nat) : List (Nat × Qp) → Option (Nat × Nat)
  | [] => none
  | (n, q) :: l =>
    let r := d.lruQp die l
    if q.die = die && d.evictable n q then
      match r with
      | some (m, u) => if q.used ≤ u then some (n, q.used) else some (m, u)
      | none => some (n, q.used)
    else r

/-- Whether a place on chip is free on a die, or can be made free; the evicted context goes to its area. -/
def Dev.makePlace (d : Dev) (die : Nat) : Option Dev :=
  if d.onChip die < 32768 then some d
  else
    match d.lruQp die d.net.qps with
    | none => none
    | some (n, _) =>
      match d.qp n with
      | none => none
      | some q => (d.ctxArea q.part).map fun port => d.setQp n { q with place := .area port }

/-- Something needs the context of a queue pair (R319, R320): its fetch starts where a place can be made, and a lost
context puts the queue pair in ERROR. -/
def Dev.needCtx (d : Dev) (x : Ctx) (n : Nat) : Dev :=
  match d.qp n with
  | none => d
  | some q =>
    match q.place with
    | .chip => d
    | .lost => d.qpError x n
    | .area _ =>
      if q.fetching then d
      else
        match d.makePlace q.die with
        | none => d
        | some d => d.modQp n fun q => { q with fetching := true }

/-! ### Starting work requests (R302, R313, R314) -/

/-- Whether the wait of a work request is over; none where its queue pair is gone or in ERROR. -/
def Dev.waitOver (d : Dev) (s : Send) : Option Bool :=
  match s.wait with
  | none => some true
  | some (wq, c) =>
    match d.qp wq with
    | none => none
    | some q => if q.st = 2 then none else some (decide ((q.count + 2 ^ 32 - c % 2 ^ 32) % 2 ^ 32 < 2 ^ 31))

/-- Work requests of a queue pair started in post order while they may start. A request whose range reads poisoned ends
with INTEGRITY and none of its packets is sent (R422; log entry 18). -/
def Dev.pumpFuel (d : Dev) (x : Ctx) (n : Nat) : Nat → Dev
  | 0 => d
  | f + 1 =>
    match d.qp n with
    | none => d
    | some q =>
      let busy := q.sends.filter Send.started
      match q.sends.find? fun s => !s.started with
      | none => d
      | some s =>
        if q.st ≠ 1 then d
        else if q.place ≠ .chip then d.needCtx x n
        else if q.ext && busy.length ≥ 256 then d
        else if s.kind = 4 && (busy.filter fun t => t.kind == 4).length ≥ 16 then d
        else
          match d.waitOver s with
          | none => d.endSends x n .aborted ((q.sends.filter fun t => !t.started).map Send.op)
          | some false => d
          | some true =>
            if s.bytes.isNone && s.kind != 4 && d.bufSealed q.part s.off s.len then
              ((d.sealedRead q.part).endSend x n s.op .notPermitted).pumpFuel x n f
            else match d.sendData q s with
            | none => (d.endSend x n s.op .badParam).pumpFuel x n f
            | some (data, true) =>
              (if data.isEmpty then d else d.endSend x n s.op .integrity).pumpFuel x n f
            | some (data, false) =>
              let k := packetsOf q.mtu s.len
              let s' := { s with started := true, msn := q.nextMsn, psn := q.sendPsn, sentAt := x.now }
              let d := d.setQp n { q with
                nextMsn := (q.nextMsn + 1) % 2 ^ 32
                sendPsn := (q.sendPsn + k) % 2 ^ 24
                used := x.now
                sends := q.sends.map fun t => if t.op = s.op then s' else t }
              (d.transmit n s' data 0).pumpFuel x n f

/-- Work requests of a queue pair that may start now. -/
def Dev.pump (d : Dev) (x : Ctx) (n : Nat) : Dev := d.pumpFuel x n ((d.qp n).elim 0 fun q => q.sends.length + 1)

/-- The queue pairs of a partition that have work waiting, pumped: a completion or an ERROR may end a wait (R314). -/
def Dev.pumpPart (d : Dev) (x : Ctx) (p : Nat) : Dev :=
  ((d.net.qps.filter fun q => q.2.part == p && q.2.sends.any fun s => !s.started && s.wait.isSome).map Prod.fst).foldl
    (fun d n => d.pump x n) d

/-- A new work request with nothing sent. -/
def Send.new (op kind off len : Nat) (bytes : Option (List Byte)) (va : Nat) (key imm : Word) (ses : Option Word)
    (wait : Option (Nat × Nat)) : Send :=
  ⟨op, kind, off, len, bytes, va, key, imm, ses, wait, false, false, 0, 0, 0, 0, 0, none, [], 0⟩

/-- A work request that an engine posts on a queue pair of partition p (R60, R313); it is an operation of its own. None
where the queue pair cannot take it. -/
def Dev.netPost (d : Dev) (x : Ctx) (e : Engine) (p n kind : Nat) (bs : List Byte) (va : Nat) (key imm : Word) : Option Dev :=
  match d.ownQp p n with
  | none => none
  | some q =>
    if q.st ≠ 1 ∨ (q.ext ∧ bs.length > 1024 * q.mtu) then none
    else
      let id := d.nextSeq
      let d := { d with nextSeq := id + 1, ops := tset d.ops id ⟨.engine e, p, .other 0x0610 n 0 0, false⟩ }
      let d := d.setQp n { q with sends := q.sends ++ [Send.new id kind 0 bs.length (some bs) va key imm none none] }
      some (d.pump x n)

/-- An EWR fires (R310): it is consumed, and its deferred sends start as if posted now. The SLOT action is the caller's. -/
def Dev.releaseDeferred (d : Dev) (x : Ctx) : List Nat → Dev
  | [] => d
  | o :: os =>
    match tget d.net.deferred o with
    | none => d.releaseDeferred x os
    | some (_, n, s) =>
      let d := { d with net := { d.net with deferred := tdel d.net.deferred o } }
      match d.qp n with
      | none => (d.endOp x o .aborted [0, 0]).releaseDeferred x os
      | some q => ((d.setQp n { q with sends := q.sends ++ [s] }).pump x n).releaseDeferred x os

end Sys2Proof.Machine
end

