-- ==== Sys2Proof/Machine/Spelt.lean ====
section
/-! DEFINITION. Spelt's functions: characters, pieces and merges, truncation, hold-back and stop strings, output records and
rings, and the grammar engine (R265-R289). -/

namespace Sys2Proof.Machine

/-! ### UTF-8 -/

/-- The bounds of the byte after a lead byte, and the bytes that follow the lead; none for a byte that leads nothing. -/
def utf8Lead (b : Nat) : Option (Nat × Nat × Nat) :=
  if b < 0xC2 then none
  else if b < 0xE0 then some (0x80, 0xBF, 1)
  else if b = 0xE0 then some (0xA0, 0xBF, 2)
  else if b = 0xED then some (0x80, 0x9F, 2)
  else if b < 0xF0 then some (0x80, 0xBF, 2)
  else if b = 0xF0 then some (0x90, 0xBF, 3)
  else if b < 0xF4 then some (0x80, 0xBF, 3)
  else if b = 0xF4 then some (0x80, 0x8F, 3)
  else none

/-- Continuation bytes at the head of a list, at most `n`. -/
def utf8Cont : Nat → List Byte → Nat
  | 0, _ => 0
  | _, [] => 0
  | n + 1, b :: bs => if 0x80 ≤ b.toNat && b.toNat ≤ 0xBF then utf8Cont n bs + 1 else 0

/-- What stands at the head of a byte string: `n` bytes that are a whole character, the maximal subpart of an ill-formed
one, or the start of a character that the string's end cuts. -/
inductive Utf8 where
  | whole (n : Nat) | bad (n : Nat) | cut (n : Nat)
deriving DecidableEq, Repr

/-- The head of a byte string that is not empty. -/
def utf8Head : List Byte → Utf8
  | [] => .cut 0
  | b :: bs =>
    if b.toNat < 0x80 then .whole 1
    else
      match utf8Lead b.toNat with
      | none => .bad 1
      | some (lo, hi, k) =>
        match bs with
        | [] => .cut 1
        | c :: cs =>
          if c.toNat < lo ∨ c.toNat > hi then .bad 1
          else
            let n := utf8Cont (k - 1) cs
            if n = k - 1 then .whole (k + 1)
            else if cs.length = n then .cut (n + 2)
            else .bad (n + 2)

/-- The code point of a whole character. -/
def codePoint (bs : List Byte) : Nat :=
  match bs.map BitVec.toNat with
  | [a] => a
  | [a, b] => a % 32 * 64 + b % 64
  | [a, b, c] => a % 16 * 4096 + b % 64 * 64 + c % 64
  | [a, b, c, e] => a % 8 * 262144 + b % 64 * 4096 + c % 64 * 64 + e % 64
  | _ => 0

/-- The characters of a text: the bytes of each, and whether it is valid; an invalid byte is a character of its own
(R266). -/
def chars : Nat → List Byte → List (List Byte × Bool)
  | 0, _ => []
  | _, [] => []
  | f + 1, bs =>
    match utf8Head bs with
    | .whole n => (bs.take n, true) :: chars f (bs.drop n)
    | _ => (bs.take 1, false) :: chars f (bs.drop 1)

/-- The text with each maximal ill-formed subpart replaced by U+FFFD (R281). -/
def replaceBad : Nat → List Byte → List Byte
  | 0, _ => []
  | _, [] => []
  | f + 1, bs =>
    match utf8Head bs with
    | .whole n => bs.take n ++ replaceBad f (bs.drop n)
    | .bad n => [0xEF#8, 0xBF#8, 0xBD#8] ++ replaceBad f (bs.drop n)
    | .cut n => [0xEF#8, 0xBF#8, 0xBD#8] ++ replaceBad f (bs.drop n)

/-- The length of a byte string without an incomplete character at its end (R281). -/
def wholeLen : Nat → Nat → List Byte → Nat
  | 0, k, _ => k
  | _, k, [] => k
  | f + 1, k, bs =>
    match utf8Head bs with
    | .whole n => wholeLen f (k + n) (bs.drop n)
    | .bad n => wholeLen f (k + n) (bs.drop n)
    | .cut _ => k

/-! ### Pieces and merges (R265-R269) -/

/-- The class of a character. -/
def ByteMachine.cls (m : ByteMachine) (c : List Byte × Bool) : Nat :=
  if !c.2 then m.invalid
  else
    let p := codePoint c.1
    if p < 128 then (m.ascii[p]?).getD 0
    else (m.ranges.find? fun r => decide (r.1 ≤ p ∧ p ≤ r.2.1)).elim m.deflt fun r => r.2.2

/-- The pieces of a text: state, current piece, characters left (R266). -/
def ByteMachine.pieces (m : ByteMachine) : Nat → List Byte → List (List Byte × Bool) → List (List Byte)
  | _, cur, [] => if cur.isEmpty then [] else [cur]
  | s, cur, c :: cs =>
    let e := (m.trans[s * m.classes + m.cls c]?).getD (false, 0)
    if !cur.isEmpty && (e.1 || cur.length + c.1.length > 256) then cur :: m.pieces e.2 c.1 cs
    else m.pieces e.2 (cur ++ c.1) cs

/-- The rank and result of a pair. -/
def mergeRank (ms : List (Nat × Nat × Nat)) (a b : Nat) : Option (Nat × Nat) :=
  match ms.findIdx? fun m => m.1 == a && m.2.1 == b with
  | some i => some (i, (ms[i]?).elim 0 fun m => m.2.2)
  | none => none

/-- The merge to make next: rank, place, result; the lowest rank, leftmost on a tie. A token is its id and its length. -/
def bestMerge (ms : List (Nat × Nat × Nat)) : Nat → List (Nat × Nat) → Option (Nat × Nat × Nat)
  | i, a :: b :: l =>
    let rest := bestMerge ms (i + 1) (b :: l)
    match mergeRank ms a.1 b.1 with
    | none => rest
    | some (r, t) =>
      match rest with
      | some q => if r ≤ q.1 then some (r, i, t) else some q
      | none => some (r, i, t)
  | _, _ => none

/-- One piece merged until no pair is left (R269). -/
def mergeAll (ms : List (Nat × Nat × Nat)) : Nat → List (Nat × Nat) → List (Nat × Nat)
  | 0, l => l
  | f + 1, l =>
    match bestMerge ms 0 l with
    | none => l
    | some (_, i, t) => mergeAll ms f (l.take i ++ [(t, ((l.drop i).take 2).foldl (fun n x => n + x.2) 0)] ++ l.drop (i + 2))

/-- The tokens of a text, with the bytes each covers. -/
def TokSlot.tokens (t : TokSlot) (text : List Byte) : List (Nat × Nat) :=
  match t.machine with
  | none => []
  | some m =>
    (m.pieces m.start [] (chars text.length text)).flatMap fun p =>
      mergeAll t.merges p.length (p.map fun b => ((t.byteMap[b.toNat]?).getD 0, 1))

/-! ### Length limits (R274-R276) -/

/-- Offsets at which a character starts, with the end of the text. -/
def bounds (text : List Byte) : List Nat :=
  (chars text.length text).foldl (fun (a : List Nat × Nat) c => (a.1 ++ [a.2 + c.1.length], a.2 + c.1.length)) ([0], 0) |>.1

/-- A tokenized text: the tokens kept, the bytes and tokens dropped, the invalid bytes. -/
structure Intake where
  toks : List Nat
  dropB : Nat
  dropT : Nat
  bad : Nat
deriving DecidableEq, Repr

/-- Leading tokens dropped so that at most `cap` are left and the first starts a character. -/
def cutHead (bs : List Nat) (cap : Nat) : Nat → Nat → List (Nat × Nat) → Nat × Nat × List (Nat × Nat)
  | n, off, [] => (n, off, [])
  | n, off, t :: ts =>
    if (t :: ts).length ≤ cap && bs.contains off then (n, off, t :: ts) else cutHead bs cap (n + 1) (off + t.2) ts

/-- Final tokens dropped (the list is reversed) so that at most `cap` are left and the last ends a character. -/
def cutTail (bs : List Nat) (cap : Nat) : Nat → Nat → List (Nat × Nat) → Nat × Nat × List (Nat × Nat)
  | n, off, [] => (n, off, [])
  | n, off, t :: ts =>
    if (t :: ts).length ≤ cap && bs.contains off then (n, off, t :: ts) else cutTail bs cap (n + 1) (off - t.2) ts

/-- A text request's work: the byte limit on the raw text, then the token limit (R274, R275), then a capacity that stops
it as the keep-head token limit does (R291). -/
def TokSlot.intake (t : TokSlot) (keepHead : Bool) (cap cap2 : Nat) (text : List Byte) : Intake :=
  let lim := 16777216
  let bs := bounds text
  let text' :=
    if text.length ≤ lim then text
    else if keepHead then text.take ((bs.filter (· ≤ lim)).foldl max 0)
    else text.drop ((bs.find? fun b => decide (text.length - lim ≤ b)).getD text.length)
  let cutB := text.length - text'.length
  let bs' := bounds text'
  let bad := ((chars text'.length text').filter fun c => !c.2).length
  let toks := t.tokens text'
  let tail (l : List (Nat × Nat)) (c n e : Nat) : Nat × Nat × List (Nat × Nat) :=
    let r := cutTail bs' c n e l.reverse
    (r.1, r.2.1, r.2.2.reverse)
  let a : Nat × Nat × List (Nat × Nat) := if keepHead then (0, 0, toks) else cutHead bs' cap 0 0 toks
  let e := tail a.2.2 (min cap cap2) 0 text'.length
  ⟨e.2.2.map Prod.fst, cutB + a.2.1 + (text'.length - e.2.1), a.1 + e.1, bad⟩

/-- Whether an intake was truncated. -/
def Intake.cut (i : Intake) : Bool := i.dropB != 0 || i.dropT != 0

/-- The token limit of a text request. -/
def tokCap : Nat := 2097152

/-! ### Token text (R268, R283) -/

/-- The text of a token; none for an id at or above VOCAB_SIZE. -/
def TokSlot.text (t : TokSlot) (vocab id : Nat) : Option (List Byte) :=
  if id < vocab then
    match t.vocab[id]? with
    | some k => some (if k.special && !k.emit then [] else k.str)
    | none => none
  else none

/-- Whether a token ends its request. -/
def TokSlot.isEos (t : TokSlot) (vocab id : Nat) : Bool := decide (id < vocab) && (t.vocab[id]?).elim false Token.eos

/-! ### Hold-back and stop strings (R281, R282) -/

/-- Whether a byte string starts with another. -/
def startsWith : List Byte → List Byte → Bool
  | _, [] => true
  | [], _ :: _ => false
  | a :: as, b :: bs => a == b && startsWith as bs

/-- The earliest stop string: its place and index, the lower index first. -/
def findStop (stops : List (List Byte)) : Nat → List Byte → Option (Nat × Nat)
  | _, [] => none
  | j, b :: bs =>
    match stops.findIdx? fun s => startsWith (b :: bs) s with
    | some i => some (j, i)
    | none => findStop stops (j + 1) bs

/-- Where the longest suffix starts that is a proper prefix of a stop string. -/
def holdFrom (stops : List (List Byte)) : Nat → List Byte → Nat
  | j, [] => j
  | j, b :: bs =>
    if stops.any fun s => (b :: bs).length < s.length && startsWith s (b :: bs) then j else holdFrom stops (j + 1) bs

/-! ### Output records and rings (R279, R280) -/

/-- An output record. -/
def outRecord (h : Word) (req status flags stop tokens : Nat) (text : List Byte) : List Byte :=
  leBytes 4 h.toNat ++ leBytes 4 req ++ leBytes 2 status ++ leBytes 1 flags ++ leBytes 1 stop ++ leBytes 2 text.length ++
    leBytes 2 tokens ++ text ++ List.replicate ((8 - text.length % 8) % 8) 0

/-- A 64-bit count in a partition's buffer. -/
def Dev.bufCount (d : Dev) (p off : Nat) : Nat := (d.bufRead p off 8).elim 0 fun r => leNat r.1

/-- The room of a ring, and the place its next record starts at. -/
def Dev.ringFree (d : Dev) (p : Nat) (f : Profile) : Nat :=
  2 ^ f.ringLog2 - 64 - (d.bufCount p f.ringOff - d.bufCount p (f.ringOff + 8))
def Dev.ringPos (d : Dev) (p : Nat) (f : Profile) : Nat := 64 + d.bufCount p f.ringOff % (2 ^ f.ringLog2 - 64)

/-- The header of a PAD record of `n` bytes: FLAGS and LENGTH; a gap shorter than a header is zeros (log entry 53). -/
def padHead (n : Nat) : List Byte :=
  if n < 16 then List.replicate 16 0 else List.replicate 10 0 ++ leBytes 1 2 ++ [0] ++ leBytes 2 (n - 16) ++ [0, 0]

/-- One record written into a ring, behind a PAD record where it would reach the ring's end; none where there is no
room. -/
def Dev.ringPut (d : Dev) (x : Ctx) (p : Nat) (f : Profile) (r : List Byte) : Option Dev :=
  let pos := d.ringPos p f
  let pad := if pos + r.length > 2 ^ f.ringLog2 then 2 ^ f.ringLog2 - pos else 0
  if d.ringFree p f < pad + r.length then none
  else
    let n := d.bufCount p f.ringOff
    let d := if pad = 0 then d
      else (d.bufWriteOrd x p (f.ringOff + pos) ((padHead pad ++ List.replicate (pad - 16) 0).take pad)).getD d
    let pos := if pad = 0 then pos else 64
    let d := (d.bufWriteOrd x p (f.ringOff + pos) r).getD d
    d.bufWriteOrd x p f.ringOff (leBytes 8 (n + pad + r.length))

/-- The output queue of a request. -/
def Dev.outQ (d : Dev) (num : Nat) : Option OutQ := tget d.txt.outq num
def Dev.setOutQ (d : Dev) (num : Nat) (q : OutQ) : Dev := { d with txt := { d.txt with outq := tset d.txt.outq num q } }

/-- Bytes of a request's output that its destination has not taken: records without room, and sends not acknowledged. -/
def Dev.untaken (d : Dev) (num : Nat) : Nat :=
  match d.outQ num with
  | none => 0
  | some q => nsum (q.waiting.map List.length) + nsum (q.net.map fun o => if thas d.ops o.1 then o.2 else 0)

/-- Waiting records of a ring written in order while there is room. -/
def Dev.flushRing (d : Dev) (x : Ctx) (num : Nat) : Nat → Dev
  | 0 => d
  | f + 1 =>
    match d.outQ num with
    | none => d
    | some q =>
      match q.waiting with
      | [] => d
      | r :: rs =>
        match d.ringPut x q.part q.prof r with
        | none => d
        | some d => (d.setOutQ num { q with waiting := rs }).flushRing x num f

/-- Every ring of a partition: records that have room now. -/
def Dev.flushRings (d : Dev) (x : Ctx) (p : Nat) : Dev :=
  ((d.txt.outq.filter fun q => q.2.part == p && !q.2.waiting.isEmpty).map Prod.fst).foldl
    (fun d n => d.flushRing x n ((d.outQ n).elim 0 fun q => q.waiting.length)) d

/-- One record handed to its destination (R280): a message of Reed, the ring, or nowhere. A record for a queue pair that
cannot take it is lost (log entry 19). -/
def Dev.deliverOut (d : Dev) (x : Ctx) (num p : Nat) (f : Profile) (r : List Byte) : Dev :=
  let q := (d.outQ num).getD ⟨p, f, [], []⟩
  if f.dest = 1 then
    let id := d.nextSeq
    match d.netPost x .spelt p f.qp 0 r 0 0 0 with
    | some d => d.setOutQ num { q with net := q.net ++ [(id, r.length)] }
    | none => d
  else if f.dest = 2 then (d.setOutQ num { q with waiting := q.waiting ++ [r] }).flushRing x num (q.waiting.length + 1)
  else d

/-! ### The grammar engine (R284-R289) -/

/-- A transition of a grammar object. -/
structure GTrans where
  first : Nat
  last : Nat
  next : Nat
  op : Nat
  top : Nat
  sym : Nat
deriving DecidableEq, Repr

/-- STATES, VOCAB and START of a grammar object. -/
def Dev.gramHead (d : Dev) (s : Share) : Nat × Nat × Nat :=
  let b := d.shareRead s 0 64
  (leAt b 4 4, leAt b 8 4, leAt b 12 4)

/-- The transitions of a state. -/
def Dev.gramTrans (d : Dev) (s : Share) (st : Nat) : List GTrans :=
  let states := (d.gramHead s).1
  let ix := d.shareRead s (64 + 8 * st) 8
  let bs := d.shareRead s (64 + 8 * states + 16 * leAt ix 0 4) (16 * leAt ix 4 2)
  (chunks 16 (leAt ix 4 2) bs).map fun t =>
    let w3 := leAt t 12 4
    ⟨fld (leAt t 0 4) 17 0, fld (leAt t 4 4) 17 0, fld (leAt t 8 4) 19 0, fld w3 31 30, fld w3 27 16, fld w3 11 0⟩

/-- Whether a transition is applicable (R286). -/
def GramSt.applies (g : GramSt) (t : GTrans) : Bool :=
  let n := g.stack.length
  (t.top == 0xFFF || t.top == (g.stack.head?).getD 0xFFE) && !(t.op == 2 && n == 0) && !(t.op == 1 && n == 256)

/-- The grammar state after a token, or none where it is not allowed (R287). -/
def Dev.gramStep (d : Dev) (g : GramSt) (tok : Nat) : Option GramSt :=
  match d.share g.share with
  | none => none
  | some s =>
    match (d.gramTrans s g.state).find? fun t => g.applies t && t.first ≤ tok && tok ≤ t.last with
    | none => none
    | some t =>
      let st := if t.op = 1 then t.sym :: g.stack else if t.op = 2 then g.stack.tail else g.stack
      some { g with state := t.next, stack := st }

/-- The mask of a grammar state: one bit a token, and whether none is allowed (R288). -/
def Dev.gramMask (d : Dev) (g : GramSt) (vocab : Nat) : List Byte × Bool :=
  let ts := match d.share g.share with
    | some s => (d.gramTrans s g.state).filter fun t => g.applies t
    | none => []
  let ok (t : Nat) : Bool := t < vocab && !g.dead && ts.any fun e => decide (e.first ≤ t ∧ t ≤ e.last)
  let bs := (List.range ((vocab + 511) / 512 * 64)).map fun i =>
    BitVec.ofNat 8 (nsum ((List.range 8).map fun k => if ok (8 * i + k) then 2 ^ k else 0))
  (bs, bs.all (· == 0))

/-! ### A generated token (R281-R289) -/

/-- Replaces a request. -/
def Dev.req (d : Dev) (num : Nat) : Option Request := tget d.sch.reqs num
def Dev.setReq (d : Dev) (num : Nat) (r : Request) : Dev := { d with sch := { d.sch with reqs := tset d.sch.reqs num r } }

/-- The stop strings of a request. -/
def Request.stops (r : Request) : List (List Byte) := r.prof.elim [] Profile.stops

/-- The partition of a session handle. -/
def hPart (h : Word) : Nat := h.toNat / 2 ^ 28

/-- A record of a request sent with text, with the tokens since the last one. -/
def Dev.sendRecord (d : Dev) (x : Ctx) (num status flags stop : Nat) (text : List Byte) : Dev :=
  match d.req num with
  | none => d
  | some r =>
    match r.prof with
    | none => d
    | some f => (d.setReq num { r with sinceRec := 0 }).deliverOut x num (hPart r.h) f (outRecord r.h num status flags stop r.sinceRec text)

/-- The text a token adds to a request's hold buffer, and what is released of it: the request afterwards and the bytes
released. A stop string ends the request STOPPED. -/
def Request.hear (r : Request) (text : List Byte) : Request × List Byte :=
  let hb := r.hold ++ text
  match findStop r.stops 0 hb with
  | some (j, i) => ({ r with hold := [], stopIdx := some i, endNow := some .stopped }, hb.take j)
  | none =>
    let k := min (wholeLen hb.length 0 hb) (holdFrom r.stops 0 hb)
    ({ r with hold := hb.drop k }, hb.take k)

/-- A generated token counted. -/
def Request.counted (r : Request) : Request := { r with generated := r.generated + 1, sinceRec := r.sinceRec + 1 }

/-- What a generated token does to a request: grammar, EOS, text (R283, R287). A token that is not allowed is
discarded, uncounted, and ends the request GRAMMAR_DEAD. -/
def Dev.hearToken (d : Dev) (num tok : Nat) : Dev × List Byte :=
  match d.req num with
  | none => (d, [])
  | some r =>
    let p := hPart r.h
    let known := decide (tok < r.vocabSize)
    let d := if known then d else d.bumpPart p 0x08003C 1
    match r.gram with
    | some g =>
      match if known then d.gramStep g tok else none with
      | none => ((d.bumpPart p 0x080034 1).setReq num { r with endNow := some .grammarDead }, [])
      | some g' =>
        let r := r.counted
        if r.tables.isEos r.vocabSize tok then (d.setReq num { r with gram := some g', eos := true }, [])
        else
          let q := { r with gram := some g' }.hear ((r.tables.text r.vocabSize tok).getD [])
          (d.setReq num q.1, q.2)
    | none =>
      let r := r.counted
      if r.tables.isEos r.vocabSize tok then (d.setReq num { r with eos := true }, [])
      else
        let q := r.hear ((r.tables.text r.vocabSize tok).getD [])
        (d.setReq num q.1, q.2)

end Sys2Proof.Machine
end

