-- ==== Sys2Proof/Machine/Tiller.lean ====
section
/-! DEFINITION. Tiller's directory and the changes of a session's state that commands and events share: entering OPEN and
WARM, arming, wakes, revives, closes, and the start and end of a request (R73-R107, R243-R245, R256). -/

namespace Sys2Proof.Machine

/-! ### Handles and descriptors (R7, R73-R77) -/

/-- Generation and index of a handle, the key of its descriptor, and the handle of a partition, generation and index. -/
def hGen (h : Word) : Nat := h.toNat / 2 ^ 24 % 16
def hIdx (h : Word) : Nat := h.toNat % 2 ^ 24
def hKey (h : Word) : Nat := hPart h * 2 ^ 24 + hIdx h
def handleOf (p g i : Nat) : Word := wd (p * 2 ^ 28 + g * 2 ^ 24 + i)

/-- A FREE descriptor. -/
def Ses.free (gen die : Nat) : Ses :=
  ⟨gen, die, .free, false, false, 0, false, false, 0, 0, 0, 0, 0, 0, none, 0, 0, [], [], 0, 0, List.replicate 8 Slot.empty, false, 0,
    0, 0, 0, 0, List.replicate 8 0, 0, 0, 0, none, false⟩

/-- A partition's first slot and number of slots. -/
def Dev.sesBase (d : Dev) (p : Nat) : Nat := fld (d.devReg (0x030100 + p * 8)) 24 0
def Dev.sesQuota (d : Dev) (p : Nat) : Nat := fld (d.devReg (0x030104 + p * 8)) 24 0

/-- The home die of an index (R73). -/
def Dev.slotDie (d : Dev) (p i : Nat) : Nat := (d.sesBase p + i) % 2

/-- The descriptor of an index; a FREE index lies on the die of its slot (R73). -/
def Dev.sesAt (d : Dev) (p i : Nat) : Ses :=
  let s := tgetD d.ses.tbl (p * 2 ^ 24 + i) (Ses.free 0 (d.slotDie p i))
  if s.state = .free then { s with die := d.slotDie p i } else s

/-- The descriptor a handle names, where its generation matches and it is not FREE. -/
def Dev.sesOf (d : Dev) (h : Word) : Option Ses :=
  let s := d.sesAt (hPart h) (hIdx h)
  if s.gen = hGen h ∧ s.state ≠ .free then some s else none

/-- Replaces the descriptor of a handle. -/
def Dev.setSes (d : Dev) (h : Word) (s : Ses) : Dev := { d with ses := { d.ses with tbl := tset d.ses.tbl (hKey h) s } }

/-- Whether a running checkpoint has a session whose record it has not copied (R358). -/
def Dev.ckpHolds (d : Dev) (h : Word) : Bool :=
  d.ckp.jobs.any fun j => j.2.run.elim false fun r => r.unreached.any fun u =>
    (j.2.items[u.1]?).elim false fun i => i.kind == 1 && i.first == h.toNat

/-- Whether a running checkpoint has not copied a session's descriptor and pending input: the end of a step waits (R358). -/
def Dev.ckpHead (d : Dev) (h : Word) : Bool :=
  d.ckp.jobs.any fun j => j.2.run.elim false fun r => r.unreached.any fun u =>
    u.2 == 0 && (j.2.items[u.1]?).elim false fun i => i.kind == 1 && i.first == h.toNat

/-- The check of a handle in a command for partition p (R7, R73): its partition, its index, its generation. -/
def Dev.lookup (d : Dev) (p : Nat) (h : Word) : Except Status Ses :=
  if hPart h ≠ p ∨ hIdx h ≥ d.sesQuota p then .error .badParam
  else
    let s := d.sesAt p (hIdx h)
    if s.gen ≠ hGen h then .error .staleHandle else .ok s

/-- Whether a descriptor is staged: its state says so (R76). -/
def Ses.staged (s : Ses) : Bool := s.state != .free && s.state != .parked

/-- Staged descriptors of a die, and free staging entries. -/
def Dev.staged (d : Dev) (die : Nat) : Nat := (d.ses.tbl.filter fun s => s.2.staged && s.2.die == die).length
def Dev.stageFree (d : Dev) (die : Nat) : Nat := 262144 - d.staged die

/-- Whether staging of a die is above SES_STAGE_CFG.HIGH. -/
def Dev.stageHigh (d : Dev) (die : Nat) : Bool := d.staged die * 100 > 262144 * fld (d.devReg 0x030200) 6 0

/-- The index that becomes the next session of a die (R74): indices FREE since reset in ascending order (log entry 12),
then the one freed longest ago. The die of an index is the die of its slot when it is taken (R73). -/
def Dev.takeIndex (d : Dev) (p die : Nat) : Option (Nat × Dev) :=
  let mine (i : Nat) : Bool := d.slotDie p i == die && decide (i < d.sesQuota p)
  let i0 := tgetD d.ses.fresh p 0
  match (List.range (2 * d.ses.tbl.length + 2)).find? fun j => mine (i0 + j) && !thas d.ses.tbl (p * 2 ^ 24 + (i0 + j)) with
  | some j => some (i0 + j, if j = 0 then { d with ses := { d.ses with fresh := tset d.ses.fresh p (i0 + 1) } } else d)
  | none =>
    let l := tgetD d.ses.freed p []
    (l.find? mine).map fun i => (i, { d with ses := { d.ses with freed := tset d.ses.freed p (l.filter (· != i)) } })

/-- SOURCE of a session's die. -/
def Ses.src (s : Ses) : Nat := source 3 s.die

/-- A session that leaves WARM ends a PFX_FROM_SESSION that moves its pages (log entry 42). -/
def Dev.pfxLeave (d : Dev) (x : Ctx) (h : Word) : Dev :=
  d.ops.foldl (fun (d : Dev) (o : Nat × Op) =>
    match o.2.kind with
    | .pfxSession g sh m => if g = h then d.pfxStop x o.1 sh m.next .kv .sessionState else d
    | _ => d) d

/-- A transition (R78): the new state and its tick, and TRACE SES_TRANSITION (R432). -/
def Dev.goto (d : Dev) (x : Ctx) (h : Word) (s : Ses) (t : SesStateName) : Dev :=
  let d := if s.state = .warm then d.pfxLeave x h else d
  let d := if s.state = .moving ∧ t ≠ .moving then d.drainEnd (drainId 3 (2 ^ 32 + h.toNat)) else d
  (d.setSes h { s with state := t, since := x.now }).recPart x (hPart h) .trace 0x300 s.src h (wd (s.state.code + 16 * t.code)) (wd s.request)

/-- The descriptor's words 0x00 and 0x34 (R77). -/
def bitsOf (p : Slot → Bool) (l : List Slot) : Nat := nsum (l.mapIdx fun i s => if p s then 2 ^ i else 0)
def Ses.word34 (s : Ses) : Nat :=
  bitsOf Slot.armed s.slots * 2 ^ 24 + bitsOf Slot.prepared s.slots * 2 ^ 16 + bitsOf Slot.fired s.slots * 2 ^ 8 + (if s.wakeAll then 128 else 0)
def Ses.word0 (s : Ses) (h : Word) : Nat :=
  let b (x : Bool) (n : Nat) : Nat := if x then 2 ^ n else 0
  hPart h * 2 ^ 28 + s.gen * 2 ^ 24 + (if s.state = .moving then s.move.elim 0 Movement.kind else 0) * 2 ^ 16 + s.die * 2 ^ 15 + b s.evLatched 14 + b s.closePending 13 +
    b s.waitExpired 12 + b s.compressed 11 + b s.staged 10 + (if s.state = .waiting then s.waitReason * 2 ^ 8 else 0) + s.state.code

/-- The 128 bytes of a descriptor (R77). -/
def Ses.image (s : Ses) (h : Word) : List Byte :=
  leBytes 4 (s.word0 h) ++ leBytes 4 (s.adapter * 65536 + s.model) ++ leBytes 4 s.pfx ++ leBytes 4 (s.compressor * 65536 + s.window) ++
    leBytes 8 (s.kv.elim 0 Kv.root) ++ leBytes 4 (s.kv.elim 0 Kv.count) ++ leBytes 4 s.ctx ++ leBytes 4 s.pend.length ++
    leBytes 4 (s.kv.elim 0 Kv.spilled) ++ leBytes 8 (if s.state = .parked then s.parkLoc else 0) ++
    leBytes 4 (if s.state = .parked then s.parkBytes else 0) ++ leBytes 4 s.word34 ++ leBytes 8 s.waitDeadline ++
    leBytes 8 s.lastRun ++ leBytes 8 s.since ++ leBytes 8 s.engineNs ++ leBytes 8 (nsum s.bytes) ++ leBytes 8 s.energy ++ leBytes 8 s.acct ++
    leBytes 4 s.request ++ List.replicate 12 0

/-! ### Accounting (R257, R258) -/

/-- Adds to a 64-bit partition total. -/
def addTo (t : Tbl Nat) (p n : Nat) : Tbl Nat := tset t p ((tgetD t p 0 + n) % 2 ^ 64)

/-- Adds to one of eight byte counters. -/
def addBytes (l : List Nat) (i n : Nat) : List Nat := l.set i (((l[i]?).getD 0 + n) % 2 ^ 64)

/-- The tap's counter for a byte counter of R257: HBM, NAND read and written, Ethernet, PCIe; SRAM and the die bridge have none. -/
def tapOf (i : Nat) : Option Nat := ([some 1, none, some 4, some 3, some 5, some 5, some 6, none][i]?).getD none

/-- Bytes charged to a partition only. -/
def Dev.chargePart (d : Dev) (p i n : Nat) : Dev :=
  let d := (tapOf i).elim d fun k => d.tapAdd p k n
  { d with sch := { d.sch with bytes := tset d.sch.bytes p (addBytes (tgetD d.sch.bytes p (List.replicate 8 0)) i n) } }

/-- Bytes charged to a session and its partition: counter i of R257. -/
def Dev.charge (d : Dev) (h : Word) (i n : Nat) : Dev :=
  match d.sesOf h with
  | none => d.chargePart (hPart h) i n
  | some s => (d.setSes h { s with bytes := addBytes s.bytes i n }).chargePart (hPart h) i n

/-! ### Placements as Tiller sees them -/

/-- A registered model, and whether its placement is in the hot set. -/
def Dev.mdl (d : Dev) (m : Nat) : Option Mdl := tget d.grid.mdls m
def Dev.resident (d : Dev) (m : Nat) : Bool := (d.mdl m).elim false fun k => k.st == .resident

/-- The model whose placement a session's request runs on (R253). -/
def Dev.runModel (d : Dev) (s : Ses) : Nat :=
  match d.req s.request with
  | some r => if r.switched then r.fallback else s.model
  | none => s.model

/-- The tokens of pending input that fit session SRAM, and tokens of a 64 KiB block (R273). -/
def pendBlocks (n : Nat) : Nat := if n ≤ 4096 then 0 else (n - 4096 + 16383) / 16384

/-- Pages taken one after another while there are some. -/
def Dev.takePages (d : Dev) (p : Nat) (u : GranUse) : Nat → List Nat × Dev
  | 0 => ([], d)
  | n + 1 =>
    match d.takePage p u with
    | none => ([], d)
    | some (g, d) =>
      let r := d.takePages p u n
      (g :: r.1, r.2)

/-- Pending input changed, with the blocks that hold it (R273). -/
def Dev.setPend (d : Dev) (h : Word) (s : Ses) (toks : List Nat) : Dev :=
  let want := 2 * pendBlocks toks.length
  if want ≤ s.pendPages.length then
    ((s.pendPages.drop want).foldl Dev.freeGran d).setSes h { s with pend := toks, pendPages := s.pendPages.take want }
  else
    let r := d.takePages (hPart h) .pending (want - s.pendPages.length)
    r.2.setSes h { s with pend := toks, pendPages := s.pendPages ++ r.1 }

/-! ### Requests (R243-R245, R256, R277) -/

/-- The next request number (R243). -/
def Dev.nextReq (d : Dev) : Nat := if d.sch.lastReq ≥ 0xFFFFFFFF then 1 else d.sch.lastReq + 1

/-- The active TXT set of a partition, and the tokenizer slot of a model (R262). -/
def Dev.txtSet (d : Dev) (p : Nat) : TxtSet := tgetD d.txt.act p TxtSet.reset
def Dev.tokSlotNo (d : Dev) (p m : Nat) : Option Nat := tget (d.txtSet p).mmap m
def TxtSet.slot (t : TxtSet) (k : Nat) : TokSlot := tgetD t.slots k TokSlot.reset

/-- VOCAB_SIZE of a slot. -/
def Dev.vocabSize (d : Dev) (p k : Nat) : Nat := fld (d.partReg p (0x080000 + k * 4)) 18 0

/-- The tokenizer slot of a model, if the map names one that is in use. -/
def Dev.tokSlot (d : Dev) (p m : Nat) : Option (Nat × TokSlot) :=
  match d.tokSlotNo p m with
  | none => none
  | some k => if d.vocabSize p k = 0 then none else some (k, (d.txtSet p).slot k)

/-- The template of a session. -/
def Dev.template (d : Dev) (h : Word) : Template := tgetD d.sch.tmpls (hKey h) Template.reset

/-- The output profile a template names, while the partition's table is valid. -/
def Dev.profileOf (d : Dev) (p k : Nat) : Option Profile :=
  if (d.txtSet p).profilesOk then ((d.txtSet p).profiles)[k]? else none

/-- The grammar state a request starts in (R284, R286): dead where the grammar is for another slot. -/
def Dev.gramStart (d : Dev) (p slot : Nat) (f : Profile) : Option GramSt :=
  if !f.gramEn then none
  else
    match tget (d.txtSet p).grams f.grammar with
    | none => some ⟨0, 0, [], true⟩
    | some (sh, k) =>
      match d.share sh with
      | none => some ⟨sh, 0, [], true⟩
      | some s => some ⟨sh, (d.gramHead s).2.2, [], k != slot⟩

/-- A request starts (R243, R244, R277): its number, its template and fallback copied, its output bound. `abs` is an
absolute deadline tick of REQ_SUBMIT, 0 for the template's. -/
def Dev.startReq (d : Dev) (x : Ctx) (h : Word) (abs : Nat) (bySubmit : Bool) : Dev :=
  match d.sesOf h with
  | none => d
  | some s =>
    let p := hPart h
    let n := d.nextReq
    let t := d.template h
    let ts := d.tokSlot p s.model
    let f := d.profileOf p t.profile
    let dl := if abs ≠ 0 then abs else if t.deadlineMs = 0 then 0 else x.now + t.deadlineMs * ticksMs
    let g := f.elim none fun f => d.gramStart p (ts.elim 8 Prod.fst) f
    let r : Request := ⟨h, n, x.now, t, (tgetD d.sch.mcfg s.model (0, 0, 0)).1, false, dl, false, none, 0, 0, false, false, s.trunc, 0, [],
      ts.elim TokSlot.reset Prod.snd, ts.elim 0 fun k => d.vocabSize p k.1, f, none, false, [], 0, g, [], bySubmit⟩
    let d := { d with sch := { d.sch with lastReq := n } }.setReq n r
    d.setSes h { s with request := n, trunc := false }

/-- The flags of a request's end (R256). -/
def Request.flags (r : Request) : Nat :=
  (if r.anyLate then 1 else 0) + (if r.anyFb then 2 else 0) + (if r.truncated then 4 else 0) +
    (if r.generated ≥ r.tmpl.maxTokens ∧ r.tmpl.maxTokens ≠ 0 then 8 else 0) + (if r.eos then 16 else 0)

/-- The end status by the precedence of R256. -/
def Request.endStatus (r : Request) (aborted : Bool) : Status :=
  if aborted then .aborted
  else if r.endNow = some .grammarDead then .grammarDead
  else if r.endNow = some .stopped then .stopped
  else if r.anyLate ∨ r.endNow = some .deadlineLate then .deadlineLate
  else if r.anyFb then .fallbackUsed
  else .ok

/-- The final replies of the REQ_SUBMIT commands of a request (R260). -/
def Dev.endSubmits (d : Dev) (x : Ctx) (st : Status) (res : List Word) : List Nat → Dev
  | [] => d
  | o :: os => (d.endOp x o st res).endSubmits x st res os

/-- A request ends, apart from the session's state: the final record with what is released (R283), the replies, and
REQ_END (R260). `text` is what the last step has released. -/
def Dev.finishReq (d : Dev) (x : Ctx) (h : Word) (aborted : Bool) (text : List Byte) : Dev :=
  match d.sesOf h with
  | none => d
  | some s =>
    match d.req s.request with
    | none => d
    | some r =>
      let st := r.endStatus aborted
      let out := if aborted then [] else if r.stopIdx.isSome then text else text ++ r.hold
      let flags := 1 + if r.stopIdx.isSome && !aborted then 4 else 0
      let d := d.sendRecord x r.num st.code flags (if aborted then 0 else r.stopIdx.getD 0) (replaceBad out.length out)
      let d := if st = .stopped then d.bumpPart (hPart h) 0x08002C 1 else if st = .grammarDead then d.bumpPart (hPart h) 0x080030 1 else d
      let d := d.endSubmits x st [wd r.generated, wd r.num, wd r.prefilled, wd r.flags] r.ops
      let d := if r.tmpl.endEvent && !r.bySubmit then
          d.recPart x (hPart h) .log 0x20A (source 7 0) h (wd r.num) (wd (st.code + r.flags * 65536))
        else d
      let d := (d.freeBlks r.maskBlks).drainEnd (drainId 8 r.num)
      let d := { d with sch := { d.sch with reqs := tdel d.sch.reqs r.num } }
      match d.sesOf h with
      | some s => d.setSes h { s with request := 0 }
      | none => d

/-! ### Admission and fetch-back (R89, R225) -/

/-- A session joins the admission queue of the model it runs on. -/
def Dev.enqueue (d : Dev) (h : Word) : Dev :=
  match d.sesOf h with
  | none => d
  | some s =>
    let m := d.runModel s
    let b := tgetD d.sch.batches m Batch.reset
    if b.queue.contains h then d
    else { d with sch := { d.sch with batches := tset d.sch.batches m { b with queue := b.queue ++ [h] } } }

/-- A session leaves every admission queue. -/
def Dev.dequeue (d : Dev) (h : Word) : Dev :=
  { d with sch := { d.sch with batches := tmap d.sch.batches fun _ b => { b with queue := b.queue.filter (· != h) } } }

/-- The fetch-backs of a session that are running. -/
def Dev.fetchesOf (d : Dev) (h : Word) : List (Nat × Op) :=
  d.ops.filter fun o => match o.2.kind with
    | .fetchBack g _ _ _ => g == h
    | _ => false

/-- One spilled page's fetch-back: a granule in the member of R213, or a wait for one. -/
def Dev.startFetch (d : Dev) (x : Ctx) (h : Word) (k : Kv) (l j : Nat) : Dev :=
  let id := d.nextSeq
  let d := { d with nextSeq := id + 1 }
  let put (d : Dev) (dst : Option Nat) : Dev :=
    { d with ops := tset d.ops id ⟨.engine .firmware, hPart h, .fetchBack h l j dst, false⟩ }
  match d.takeMember (hPart h) k.set .kv 8 ((l + k.pfxPages + j) % 8) with
  | some (g, d) => put d (some g)
  | none => (put d none).kvShort x (hPart h)

/-- The layers and pages of a table that are spilled. -/
def Kv.spilledPages (k : Kv) : List (Nat × Nat) :=
  (k.pages.mapIdx fun l ps => (ps.mapIdx fun j p => if p.spilled then [(l, j)] else []).flatten).flatten

/-- The fetch-back of every spilled page of a session that does not come back already (R225). -/
def Dev.fetchBack (d : Dev) (x : Ctx) (h : Word) : Dev :=
  match d.sesOf h with
  | none => d
  | some s =>
    match s.kv with
    | none => d
    | some k =>
      let busy := (d.fetchesOf h).filterMap fun o => match o.2.kind with
        | .fetchBack _ l j _ => some (l, j)
        | _ => none
      (k.spilledPages.filter fun p => !busy.contains p).foldl (fun d p => d.startFetch x h k p.1 p.2) d

/-- A wake, or another entry into OPEN, ends the selection of a session's pages for spill: copies in progress are marked, and their pages
come back after the switch (R226). -/
def Dev.wakeSpills (d : Dev) (h : Word) : Dev :=
  { d with ops := tmap d.ops fun _ o => match o.kind with
      | .spill g _ _ _ _ => if g = h then { o with aborted := true } else o
      | _ => o }

/-- The exchange pages of a session taken, or released (R214, R215); missing ones count as a failed allocation. A session that keeps
no own page gives its table and its channel set back with them (R212). -/
def Dev.sesXchg (d : Dev) (x : Ctx) (h : Word) : Dev :=
  match d.sesOf h with
  | none => d
  | some s =>
    let kd : Option (Kv × Dev) := match s.kv with
      | some k => some (k, d)
      | none =>
        match d.mdl s.model with
        | some m => d.newKv (hPart h) m.img.layers m.img.kvHeads m.img.headDim m.img.kvFmt s.pfx
        | none => none
    match kd with
    | none => d.kvShort x (hPart h)
    | some (k, d) =>
      let r := d.takeXchg (hPart h) k
      let d := r.2.setSes h { s with kv := some r.1 }
      if r.1.xchgFull then d else d.kvShort x (hPart h)
def Dev.dropXchg (d : Dev) (h : Word) : Dev :=
  match d.sesOf h with
  | none => d
  | some s =>
    match s.kv with
    | none => d
    | some k =>
      if k.count = 0 then (d.freeKv k).setSes h { s with kv := none }
      else
        let r := d.freeXchg k
        r.2.setSes h { s with kv := some r.1 }

/-- A session that is OPEN with work: its request starts (R243), spilled pages come back, and it joins the admission
queue. -/
def Dev.openWork (d : Dev) (x : Ctx) (h : Word) : Dev :=
  match d.sesOf h with
  | none => d
  | some s =>
    let d := if s.request = 0 ∧ !s.pend.isEmpty then d.startReq x h 0 false else d
    match d.sesOf h with
    | none => d
    | some s => if s.request = 0 then d else d.enqueue h

/-- A session enters OPEN. -/
def Dev.enterOpen (d : Dev) (x : Ctx) (h : Word) : Dev :=
  match d.sesOf h with
  | none => d
  | some s => ((((d.goto x h s .opened).wakeSpills h).sesXchg x h).fetchBack x h).openWork x h

/-! ### WARM, arming and wakes (R79, R82, R84-R90) -/

/-- A LOG record of Tiller. -/
def Dev.sesLog (d : Dev) (x : Ctx) (h : Word) (code a1 a2 : Nat) : Dev :=
  match d.sesOf h with
  | none => d
  | some s => d.recPart x (hPart h) .log code s.src h (wd a1) (wd a2)

/-- The tick at which a wait that is armed now expires: the value last given (R79). -/
def Ses.deadlineAt (s : Ses) (now : Nat) : Nat := if s.waitTicks = 0 then 0 else now + s.waitTicks

/-- A request's end arms every prepared slot and sets the wait deadline (R12, R79). -/
def Ses.arm (s : Ses) (now : Nat) : Ses :=
  { s with
    slots := s.slots.map fun l => { l with armed := l.prepared, fired := false }
    waitExpired := false
    waitDeadline := s.deadlineAt now }

/-- A session enters WARM: it gives its exchange pages back (R214), and SES_IDLE goes out where nothing is prepared (R79). -/
def Dev.enterWarm (d : Dev) (x : Ctx) (h : Word) : Dev :=
  match (d.dropXchg h).sesOf h with
  | none => d
  | some s =>
    let d := (d.dropXchg h).goto x h s .warm
    if s.slots.any Slot.prepared then d else d.sesLog x h 0x203 0 0

/-- A request's end moves its session, armed in the same tick (R12, R79, R245). -/
def Dev.afterReq (d : Dev) (x : Ctx) (h : Word) : Dev :=
  match (d.dequeue h).sesOf h with
  | none => d
  | some s =>
    let d := (d.dequeue h).setSes h (s.arm x.now)
    if s.pend.isEmpty then d.enterWarm x h
    else if s.state = .opened then d.openWork x h
    else d.enterOpen x h

/-- Whether the wake condition is met (R85): any armed slot has fired, or with WAKE_ALL every armed slot that counts. -/
def Ses.wakeMet (s : Ses) : Bool :=
  let counted := s.slots.filter fun l => l.armed && l.tokenize
  if s.wakeAll then counted.all Slot.fired && !counted.isEmpty else counted.any Slot.fired

/-- The release of pages a revive has taken. -/
def Dev.dropKv (d : Dev) (h : Word) : Dev :=
  match d.sesOf h with
  | none => d
  | some s =>
    match s.kv with
    | none => d
    | some k => (d.freeKv k).setSes h { s with kv := none }

/-- A movement with nothing set. -/
def Movement.new (kind op : Nat) (fromWarm : Bool) : Movement :=
  ⟨kind, op, fromWarm, [], 0, false, false, false, false, false, false, false, 0, 0, 0, 0, false, none, false, 0, 0, 0, 0, 0, 0, [], 0, 0, 0⟩

/-- The pages of a revive, taken before its reads; where one is missing the allocation has failed and is tried again later (R98,
R216; log entry 89). -/
def Dev.reviveAlloc (d : Dev) (x : Ctx) (h : Word) : Dev :=
  match d.sesOf h with
  | none => d
  | some s =>
    if s.state ≠ .moving ∨ s.kv.isSome ∨ !(s.move.elim false fun m => m.kind == 2) then d
    else
      let p := hPart h
      match (d.mdl s.model).bind fun m => (d.newKv p m.img.layers m.img.kvHeads m.img.headDim m.img.kvFmt s.pfx).bind fun r => r.2.growKv p s.ctx r.1 with
      | some (k, d) => d.setSes h { s with kv := some k }
      | none => d.kvShort x p

/-- A revive starts where a staging entry is free (R98, R99): the session stages, is MOVING, and takes its pages. -/
def Dev.startRevive (d : Dev) (x : Ctx) (h : Word) (m : Movement) : Dev :=
  match d.sesOf h with
  | none => d
  | some s =>
    if s.state ≠ .parked then d
    else if d.stageFree s.die = 0 then d.setSes h { s with evLatched := s.evLatched || m.byWake, move := some m }
    else (d.goto x h { s with move := some { m with obj := s.parkLoc } } .moving).reviveAlloc x h

/-- A wake condition met (R13, R15, R82, R89, R100). -/
def Dev.wake (d : Dev) (x : Ctx) (h : Word) : Dev :=
  match d.sesOf h with
  | none => d
  | some s =>
    let s := { s with waitDeadline := 0 }
    let d := d.setSes h s
    match s.state with
    | .warm => if s.pend.isEmpty then d else d.enterOpen x h
    | .parked =>
      match s.move with
      | some m => d.setSes h { s with evLatched := true, move := some { m with byWake := true } }
      | none => d.startRevive x h { Movement.new 2 0 false with byWake := true }
    | .moving => d.setSes h { s with evLatched := true }
    | _ => d

/-- Whether a wake of a WARM session that R89 bounds took more than 125 ticks, lengthened by R21 where either die is below 0.93
(R90). -/
def Dev.wakeSlow (d : Dev) (x : Ctx) (s : Ses) (l : Slot) : Bool :=
  match l.at_ with
  | none => false
  | some t =>
    let f := min d.speed.1 d.speed.2
    s.state == .warm && d.resident s.model && l.len ≤ 4096 && decide (x.now - t > 46 + max 79 ((79 * 95232 + 100 * f - 1) / (100 * f)))

/-- Tiller's part of a slot that fires (R84-R86, R14, R17). `plain` says that it brings no tokens. -/
def Dev.fireSlot (d : Dev) (x : Ctx) (h : Word) (n : Nat) : Dev :=
  match d.sesOf h with
  | none => d
  | some s =>
    match s.slots[n]? with
    | none => d
    | some l =>
      if s.state = .closing ∨ !l.due then d
      else if l.plain then
        (d.setSes h { s with slots := s.slots.set n Slot.empty }).sesLog x h 0x204 n l.len
      else
        let s' := { s with slots := s.slots.set n { l with prepared := false, due := false, fired := l.armed } }
        let d' := d.setSes h s'
        let met := l.armed && s'.wakeMet
        let open_ := d.setSes h (if met then { s' with waitDeadline := 0 } else s')
        match s.state with
        | .opened => open_.openWork x h
        | .running => open_
        | .waiting => open_
        | _ =>
          if met then (if d.wakeSlow x s l then d'.bumpPart (hPart h) 0x030018 1 else d').wake x h else d'

/-! ### Text for a session (R84, R273, R290) -/

/-- A text request joins Spelt's queue on a die. -/
def Dev.addText (d : Dev) (r : TxtReq) : Dev :=
  { d with txt := { d.txt with reqs := d.txt.reqs ++ [{ r with id := d.txt.nextId }], nextId := d.txt.nextId + 1 } }

/-- The text request of an intake for a session, under the active set; none where the model has no tokenizer (R290). -/
def Dev.sesText (d : Dev) (h : Word) (s : Ses) (src : TxtSrc) (off : Nat) (text : List Byte) (bad small : Bool) : Option TxtReq :=
  let p := hPart h
  match d.tokSlot p s.model with
  | none => none
  | some (k, t) =>
    let f := match d.req s.request with
      | some r => r.prof
      | none => d.profileOf p (d.template h).profile
    some ⟨0, s.die, p, h, src, text, bad, f.elim false Profile.keepHead, some k, t, d.vocabSize p k, f, none, small, tokCap, s.model, off, false⟩

/-- The event of a slot completes with a message of `len` bytes at a buffer offset (R84): with TOKENIZE Spelt takes the
text, otherwise the slot falls due at once. A session in CLOSING drops it (R17). -/
def Dev.slotEvent (d : Dev) (h : Word) (n off len : Nat) (at_ : Option Nat) : Dev :=
  match d.sesOf h with
  | none => d
  | some s =>
    match s.slots[n]? with
    | none => d
    | some l =>
      if s.state = .closing then d
      else
        let due (d : Dev) (plain : Bool) : Dev :=
          d.setSes h { s with slots := s.slots.set n { l with due := true, len := len, plain := plain, at_ := at_ } }
        if !l.tokenize then due d true
        else
          let sl := d.bufSealed (hPart h) off len
          let b := if sl then ([], true) else (d.bufRead (hPart h) off len).getD ([], true)
          let d := if sl then d.sealedRead (hPart h) else d
          match d.sesText h s (.slot n) off b.1 b.2 (len ≤ 4096) with
          | none => due (d.bumpPart (hPart h) 0x080038 1) true
          | some r =>
            (d.setSes h { s with slots := s.slots.set n { l with len := len, at_ := at_ } }).addText r

/-! ### Closing and settling (R17, R80, R83, R100) -/

/-- The copies to NAND of a session's pages are abandoned: its session takes rows, or enters MOVING or CLOSING (R223). -/
def Dev.dropSpills (d : Dev) (x : Ctx) (h : Word) : Dev :=
  d.ops.foldl (fun (d : Dev) (o : Nat × Op) =>
    match o.2.kind with
    | .spill g l j u _ =>
      if g ≠ h then d
      else
        let src := (d.sesOf h).elim none fun s => s.kv.elim none fun k => ((k.layer l)[j]?).map KPage.home
        let d := src.elim d fun a => d.dropCopy x a
        { ((d.freeUnits [u]).freeDesc o.1).dropUnits o.1 with ops := tdel d.ops o.1 }
    | _ => d) d

/-- Every operation that ends with a revive of a session ends. -/
def Dev.endRevives (d : Dev) (x : Ctx) (h : Word) (st : Status) (res : List Word) : Dev :=
  ((d.ops.filter fun o => o.2.kind == .reviveSes h).map Prod.fst).foldl (fun d o => d.endOp x o st res) d

/-- What a session holds beside KV released: NET slots' work requests, pending input, and its request. A revive that still waits for a
staging entry ends with ABORTED. -/
def Dev.enterClosing (d : Dev) (x : Ctx) (h : Word) : Dev :=
  match d.sesOf h with
  | none => d
  | some s =>
    let d := if s.request = 0 then d else d.finishReq x h true []
    let d := (d.dequeue h).withdrawAll x ((List.range 8).flatMap fun n => d.slotEwrs h n)
    let d := ((d.endRevives x h .aborted []).dropSpills x h).dropXchg h
    match d.sesOf h with
    | none => d
    | some s =>
      let s := { s with closePending := false, evLatched := false, slots := List.replicate 8 Slot.empty, waitDeadline := 0, move := none }
      match (d.setPend h s []).sesOf h with
      | some s' => (d.setPend h s []).goto x h s' .closing
      | none => d

/-- The end of a movement: a pending close first (R17), then a latched wake (R15, R100). -/
def Dev.settle (d : Dev) (x : Ctx) (h : Word) : Dev :=
  match d.sesOf h with
  | none => d
  | some s =>
    if s.closePending then d.enterClosing x h
    else if s.evLatched then
      let d := d.setSes h { s with evLatched := false }
      d.wake x h
    else d

/-- The wait for a staging entry: parked sessions of a die with a latched wake, oldest transition first (R99). -/
def Dev.waitersFor (d : Dev) (die : Nat) : List Word :=
  (d.ses.tbl.filter fun s => s.2.state == .parked && s.2.move.isSome && s.2.die == die).map fun s =>
    handleOf (s.1 / 2 ^ 24) s.2.gen (s.1 % 2 ^ 24)

/-- A freed index: the session is FREE, its generation kept (R74). -/
def Dev.freeSes (d : Dev) (x : Ctx) (h : Word) : Dev :=
  match d.sesOf h with
  | none => d
  | some s =>
    let p := hPart h
    let d := (d.goto x h s .free).setSes h { Ses.free s.gen s.die with since := x.now }
    let ses := { d.ses with freed := tset d.ses.freed p (tgetD d.ses.freed p [] ++ [hIdx h]) }
    { d with ses := ses, sch := { d.sch with tmpls := tdel d.sch.tmpls (hKey h) } }

end Sys2Proof.Machine
end

