-- ==== Sys2Proof/Machine/Mdl.lean ====
section
/-! DEFINITION. Models and placements: the image and its checks, the fit check, loads, evictions and the hot set
(R171-R182). -/

namespace Sys2Proof.Machine

/-! ### The placement image (R171-R174, R199) -/

/-- A section of an image, from an offset of the header. -/
def imgSect (b : List Byte) (o : Nat) : List Byte := (b.drop (leAt b o 4)).take (leAt b (o + 4) 4)

/-- Core entry i. -/
def imgCore (b : List Byte) (i : Nat) : ImgCore :=
  let e := ((imgSect b 0x1C).drop (192 * i)).take 192
  let data := imgSect b 0x34
  ⟨(data.drop (leAt e 0 4)).take (leAt e 4 4), (data.drop (leAt e 8 4)).take (leAt e 12 4), leAt e 0x10 4, leAt e 0x14 4,
    (List.range 16).map fun k => (leAt e (0x40 + 8 * k) 4, leAt e (0x44 + 8 * k) 4)⟩

/-- Channel entry i. -/
def imgChan (b : List Byte) (i : Nat) : ImgChan :=
  let e := (b.drop (leAt b 0x24 4 + 32 * i)).take 32
  ⟨leAt e 0 1, leAt e 1 1, leAt e 2 1, leAt e 4 2, leAt e 8 4, (List.range (min 8 (leAt e 3 1))).map fun k => (leAt e (16 + 2 * k) 1, leAt e (17 + 2 * k) 1)⟩

/-- Entry i of the prefetch schedule (R120, R174). -/
def imgEntry (b : List Byte) (i : Nat) : PreEntry :=
  let e := ((imgSect b 0x2C).drop (64 + 32 * i)).take 32
  let src := leAt e 0 8
  let fl := leAt e 0xE 1
  ⟨fld src 47 46, fld src 45 0, fld (leAt e 8 4) 21 0, leAt e 0xC 1, leAt e 0xD 1, bitAt fl 0, bitAt fl 1, leAt e 0x10 4, leAt e 0x14 4⟩

/-- An image read from its bytes. -/
def parseImage (b : List Byte) : Image :=
  let sch := imgSect b 0x2C
  let fl := leAt b 6 2
  ⟨bitAt fl 0, bitAt fl 1, leAt b 8 1, leAt b 9 1, leAt b 0xA 1, leAt b 0xB 1, leAt b 0xC 2, leAt b 0xE 2, leAt b 0x11 1, leAt b 0x12 2,
    leAt b 0x14 2, leAt b 0x16 2, leAt b 0x18 4, leAt b 0x3C 4, leAt b 0x40 4, leAt b 0x44 4, leAt sch 6 2, leAt sch 0xC 4,
    (List.range (leAt sch 8 4)).map (imgEntry b), (List.range (leAt b 8 1 * leAt b 9 1)).map (imgCore b),
    (List.range (leAt b 0x28 4)).map (imgChan b)⟩

/-- Whether ranges (offset, length) of a list do not overlap and lie in local store. -/
def rangesOk : List (Nat × Nat) → Bool
  | [] => true
  | (a, n) :: l => a + n ≤ 0x300000 && (n == 0 || l.all fun r => r.2 == 0 || decide (a + n ≤ r.1 ∨ r.1 + r.2 ≤ a)) && rangesOk l

/-- Whether LAYER does not fall from entry to entry up to each STEP_END (R120). -/
def layersOk : Nat → List PreEntry → Bool
  | _, [] => true
  | n, e :: l => n ≤ e.layer && layersOk (if e.stepEnd then 0 else e.layer) l

/-- Check 3 of R175: header fields and sections, the schedule's header and order (R120), and the page geometry (R209). -/
def imgFieldsOk (b : List Byte) : Bool :=
  let i := parseImage b
  let sect (o : Nat) : Bool := leAt b o 4 + leAt b (o + 4) 4 ≤ b.length
  let n := leAt b 0x28 4
  leAt b 6 2 < 4 && 1 ≤ i.width && i.width ≤ 16 && 1 ≤ i.height && i.height ≤ 16 && (!i.fixed || (i.origX + i.width ≤ 16 && i.origY + i.height ≤ 16)) &&
    (i.fixed || (i.origX == 0 && i.origY == 0)) && 1 ≤ i.maxRows && i.maxRows ≤ 1024 && i.chunk % 64 == 0 && 64 ≤ i.chunk && i.chunk ≤ 4096 &&
    1 ≤ leAt b 0x10 1 && leAt b 0x10 1 ≤ 4 && ([0x01, 0x02, 0x05, 0x20, 0x21] : List Nat).contains i.kvFmt && i.layers != 0 && i.kvHeads != 0 && i.headDim != 0 && i.headDim % 32 == 0 &&
    sect 0x1C && sect 0x2C && sect 0x34 && n ≤ 3584 && leAt b 0x24 4 + 32 * n ≤ b.length &&
    leAt b 0x20 4 == 192 * (i.width * i.height) && 64 + 32 * i.entries.length == leAt b 0x30 4 && leAt (imgSect b 0x2C) 0 4 == 0x31534650 &&
    leAt (imgSect b 0x2C) 4 2 == 0 && 1 ≤ i.depth && i.depth ≤ 256 && i.entries.length != 0 && i.entries.length ≤ 1048576 && i.loopStart < i.entries.length &&
    layersOk 0 (i.entries.drop i.loopStart) && 16 ≤ pageT i.kvHeads i.headDim i.kvFmt && i.layers ≤ 256

/-- Whether the code and the static data of core entry i lie within the data section (R172). -/
def imgDataOk (b : List Byte) (i : Nat) : Bool :=
  let e := (imgSect b 0x1C).drop (192 * i)
  leAt e 0 4 + leAt e 4 4 ≤ leAt b 0x38 4 && leAt e 8 4 + leAt e 12 4 ≤ leAt b 0x38 4

/-- Whether channel entry i keeps the ranges of R165 and R173: 1 to 8 senders, unused pairs zero, and slots of 64 to 4,096 bytes in
multiples of 64. -/
def imgChanOk (b : List Byte) (i : Nat) : Bool :=
  let e := (b.drop (leAt b 0x24 4 + 32 * i)).take 32
  let n := leAt e 3 1
  let size := leAt e 4 2
  1 ≤ n && n ≤ 8 && ((e.drop (16 + 2 * n)).all (· == 0)) && size % 64 == 0 && 64 ≤ size && size ≤ 4096

/-- Check 4: what lies in a core's local store does not overlap, and buffer 15 holds the step record (R250). -/
def imgCoreOk (i : Image) (k : Nat) (c : ImgCore) : Bool :=
  let rings := (i.chans.filter fun h => h.core == k).map fun h => (h.ring, h.slots * h.size)
  rangesOk ((0, c.code.length) :: (c.staticDst, c.static.length) :: c.bufs ++ rings) && c.code.length % 8 == 0 && c.code.length ≤ 262144 &&
    c.static.length % 64 == 0 && c.staticDst % 64 == 0 && (c.bufs.all fun f => f.1 % 64 == 0) && (rings.all fun r => r.1 % 64 == 0) &&
    c.entry < c.code.length && 64 + 64 * i.maxRows ≤ (c.bufs[15]?).elim 0 Prod.snd

/-- Check 5: channels. -/
def imgChansOk (i : Image) : Bool :=
  let ks := i.chans.map fun c => (c.core, c.chan)
  ks.dedup.length == ks.length && i.chans.all fun c => c.core < i.width * i.height && c.chan ≤ 13 && 1 ≤ c.slots && c.slots ≤ 64 &&
    nsum (c.credits.map Prod.snd) ≤ c.slots && c.credits.all fun s => s.1 < i.width * i.height

/-- Check 6: schedule entries; buffer 15 is the step record's (R250), and an entry keeps within 2 MiB of its share
(R174). -/
def imgEntryOk (d : Dev) (i : Image) (shares : List Nat) (e : PreEntry) : Bool :=
  let buf := ((i.cores[e.core]?).elim none fun c => c.bufs[e.buf]?).getD (0, 0)
  let size := (d.share ((shares[e.share]?).getD 0)).elim 0 Share.bytes
  e.core < i.width * i.height && e.buf < 15 && buf.2 != 0 && buf.1 ≤ e.dst && e.dst + e.len ≤ buf.1 + buf.2 && e.share < shares.length &&
    (size == 0 || e.src + e.len ≤ size) && e.len % 64 == 0 && 64 ≤ e.len && e.len ≤ 1048576 && e.src % 64 == 0 && e.dst % 64 == 0 &&
    (e.len == 0 || e.src / 2097152 == (e.src + e.len - 1) / 2097152)

/-- Whether a share may be a share slot of an image with a digest, or of any image already registered: a sealed object asks that the
partition hold its set, and that the digest be among its ALLOWED (R381, R384). -/
def Dev.bindOkSealed (d : Dev) (p s : Nat) (dig : Option (BitVec 512)) : Bool :=
  match d.share s with
  | none => true
  | some o =>
    !o.sealed || (tget d.sec.packs s).elim false fun k =>
      (d.sec.sets.any fun e => e.part == p && e.id == k.1) && dig.elim true k.2.contains

/-- The checks of R175 in order; none passes. -/
def Dev.imgCheck (d : Dev) (p : Nat) (shares : List Nat) (b : List Byte) : Option Status :=
  let i := parseImage b
  let sch := imgSect b 0x2C
  if b.length > 67108864 ∨ b.length < 128 ∨ leAt b 0 4 ≠ 0x31434C50 ∨ leAt b 4 2 ≠ 1 then some .badParam
  else if leAt b 0x7C 4 ≠ (crc32c (b.take 0x7C)).toNat ∨ leAt b 0x48 4 ≠ (crc32c (b.drop 128)).toNat ∨
      leAt sch 0x3C 4 ≠ (crc32c (sch.drop 64)).toNat then some .integrity
  else if !imgFieldsOk b then some .badParam
  else if !((i.cores.mapIdx fun k c => imgDataOk b k && imgCoreOk i k c).all id) then some .badParam
  else if !(((List.range i.chans.length).all (imgChanOk b)) && imgChansOk i) then some .badParam
  else if !(i.entries.all (imgEntryOk d i (shares.take (leAt b 0x10 1)))) then some .badParam
  else if (shares.take (leAt b 0x10 1)).any fun s => ((d.share s).elim true fun o => o.part != p || !o.own) || !d.bindOkSealed p s (some (Config.sha512 b)) then some .notPermitted
  else if d.grid.mdls.length ≥ 4095 then some .noResource
  else none

/-- A registered model. -/
def Mdl.new (p : Nat) (i : Image) (shares : List Nat) : Mdl :=
  ⟨p, i, shares, .registered, false, 0, 0, 0, 0, 0, 0, [], none, 0, 0, [], false, false, 0x2000, [], [], [], none, 0, 0, 0, none, 0, 0, 0, false,
    false, 0, false, .ok, 0⟩

/-- Replaces a model. -/
def Dev.setMdl (d : Dev) (m : Nat) (k : Mdl) : Dev := { d with grid := { d.grid with mdls := tset d.grid.mdls m k } }

/-- The image of a MDL_REGISTER has been read from host memory. -/
def Dev.registered (d : Dev) (x : Ctx) (id p : Nat) (shares : List Nat) (b : List Byte) : Dev :=
  match d.imgCheck p shares b with
  | some st => d.endOp x id st []
  | none =>
    let use := shares.take (leAt b 0x10 1)
    let m := freshKey d.grid.mdls 4095 1
    let d := use.foldl Dev.shareRef (d.setMdl m (Mdl.new p (parseImage b) use))
    d.endOp x id .ok [wd m]

/-! ### Cores of a placement -/

/-- A core, and its replacement; core n is at x = n mod 16, y = n div 16. -/
def Dev.core (d : Dev) (n : Nat) : Core := tgetD d.grid.cores n Core.reset
def Dev.setCore (d : Dev) (n : Nat) (c : Core) : Dev := { d with grid := { d.grid with cores := tset d.grid.cores n c } }

/-- The cores of a rectangle, in the order of the core section (R172). -/
def rectCores (w h org : Nat) : List Nat := (List.range (w * h)).map fun i => (org / 16 + i / w) * 16 + org % 16 + i % w

/-- The cores that a placement holds. -/
def Mdl.cores (m : Mdl) : List Nat := rectCores m.img.width m.img.height m.origin

/-- GRID_Pp_AREA: x0, y0, width, height; none while it is not enabled. -/
def Dev.area (d : Dev) (p : Nat) : Option (Nat × Nat × Nat × Nat) :=
  let r := d.devReg (0x060100 + p * 4)
  if bitAt r 16 then some (fld r 3 0, fld r 7 4, fld r 11 8 + 1, fld r 15 12 + 1) else none

/-- Whether the cores of a placement lie in its partition's area. -/
def Dev.inArea (d : Dev) (k : Mdl) : Bool :=
  match d.area k.part with
  | none => false
  | some (x0, y0, w, h) => k.cores.all fun n => x0 ≤ n % 16 && n % 16 < x0 + w && y0 ≤ n / 16 && n / 16 < y0 + h

/-- Whether a core is free for a placement. -/
def Dev.coreFree (d : Dev) (n : Nat) : Bool := (d.core n).model == 0 && !(d.core n).offline

/-- Whether a rectangle fits at an origin (check 2 of R176). -/
def Dev.fitsAt (d : Dev) (p : Nat) (i : Image) (org : Nat) : Bool :=
  match d.area p with
  | none => false
  | some (x0, y0, w, h) =>
    let x := org % 16
    let y := org / 16
    x0 ≤ x && x + i.width ≤ x0 + w && y0 ≤ y && y + i.height ≤ y0 + h && (!i.noBridge || y / 8 == (y + i.height - 1) / 8) &&
      (rectCores i.width i.height org).all d.coreFree

/-- The origin that the check finds: the one given or FIXED, else the first in ascending y, then x. -/
def Dev.fitOrigin (d : Dev) (p : Nat) (i : Image) (given : Option Nat) : Option Nat :=
  let org := if i.fixed then some (i.origY * 16 + i.origX) else given
  match org with
  | some o => if d.fitsAt p i o && (given.isNone || given == some o) then some o else none
  | none => (List.range 256).find? (d.fitsAt p i)

/-! ### Shares (R119, R177, R178) -/

/-- The granules of a frozen object that are on NAND. -/
def Share.onNand (s : Share) : Nat := (s.homes.filter fun h => match h with
  | .nand _ => true
  | .hbm _ => false).length

/-- Granules of a placement's objects on NAND, and bytes of its objects in HBM. -/
def Dev.nandGrans (d : Dev) (m : Mdl) : Nat := nsum (m.shares.dedup.map fun s => (d.share s).elim 0 Share.onNand)
def Dev.hbmBytes (d : Dev) (m : Mdl) : Nat :=
  nsum (m.shares.dedup.map fun s => (d.share s).elim 0 fun o => (o.homes.length - o.onNand) * 32768)

/-- Whether a placement is in the hot set, being loaded or being evicted. -/
def MdlSt.holds (s : MdlSt) : Bool := s == .resident || s == .loading || s == .evicting

/-- DEPTH of all placements that hold descriptors. -/
def Dev.depthUsed (d : Dev) : Nat := nsum ((d.grid.mdls.filter fun k => k.2.st.holds).map fun k => k.2.img.depth)

/-- The fit check of R176 after step 1: the origin, or the step that fails with its status. -/
def Dev.fit (d : Dev) (m : Mdl) (given : Option Nat) : Except (Nat × Status) Nat :=
  match d.fitOrigin m.part m.img given with
  | none => .error (2, .doesNotFit)
  | some o =>
    let need := nsum (m.shares.dedup.map fun s => (d.share s).elim 0 fun h => (h.onNand + 63) / 64 * 64)
    if d.hbmUsed m.part + need > d.hbmQuota m.part ∨ need > d.hbmFree ∨ (d.takeExts m.part (List.range 16) (need / 64)).isNone then
      .error (3, .doesNotFit)
    else if d.depthUsed + m.img.depth > fld (d.devReg 0x060204) 13 0 then .error (4, .doesNotFit)
    else if (List.range 32).any fun k => bitAt m.img.progs k && !(d.glm.bankAct.valid && ((d.glm.bankAct.progs[k]?).elim false fun g => g.2.1 != 0 && bitAt g.2.2.1 m.part)) then
      .error (5, .notPermitted)
    else .ok o

/-! ### Loads (R177) -/

/-- Bytes written into a core's local store, and read from it; a write clears the poison of its words (R157). -/
def lsAddr (n off : Nat) : Nat := n * 0x400000 + off
def Dev.lsWrite (d : Dev) (n off : Nat) (bs : List Byte) : Dev :=
  let a := lsAddr n off
  { d with grid :=
    { d.grid with
      ls := memWrite d.grid.ls a bs
      lsFrom := d.grid.lsFrom.filter fun w => w.1 < a / 4 || (a + bs.length + 3) / 4 ≤ w.1
      lsPoison := delNums ((List.range ((a + bs.length + 3) / 4 - a / 4)).map fun i => a / 4 + i) d.grid.lsPoison } }
def Dev.lsRead (d : Dev) (n off len : Nat) : List Byte := memRead d.grid.ls (lsAddr n off) len
def Dev.lsClear (d : Dev) (n : Nat) : Dev :=
  { d with grid :=
    { d.grid with
      ls := d.grid.ls.filter fun c => c.1 / 0x400000 != n
      lsPoison := d.grid.lsPoison.filter fun w => w / 0x100000 != n } }

/-- The channels that core k of a placement receives on, empty, with full credits. -/
def Mdl.chansOf (m : Mdl) (k : Nat) : Tbl Chan :=
  (m.img.chans.filter fun c => c.core == k).foldl (fun t c =>
    tset t c.chan ⟨c.slots, c.size, c.ring, (c.credits.foldl (fun s r => tset s ((m.cores[r.1]?).getD 0) r.2) []), 0, [], []⟩) []

/-- Core k of a placement written and started: cleared where another partition ran there, code and static data, buffers
FREE, channels empty, running at ENTRY_PC. -/
def Dev.loadCore (d : Dev) (m : Nat) (k : Mdl) (i n : Nat) : Dev :=
  match k.img.cores[i]? with
  | none => d
  | some c =>
    let old := d.core n
    let d := if old.lastPart = k.part then d else d.lsClear n
    let d := (d.lsWrite n 0 c.code).lsWrite n c.staticDst c.static
    d.setCore n { Core.reset with
      model := m
      lastPart := k.part
      run := true
      pc := c.entry
      bufs := c.bufs.map fun b => (b.1, b.2, false)
      chans := k.chansOf i
      offline := old.offline }

/-- The weights of a placement pinned in HBM (R122), and released. -/
def Dev.shareGrans (d : Dev) (m : Mdl) : List Nat :=
  m.shares.dedup.flatMap fun s => (d.share s).elim [] fun o => o.homes.filterMap fun h => match h with
    | .hbm a => some (gran a)
    | .nand _ => none
def Dev.pinWeights (d : Dev) (m : Nat) (k : Mdl) : Dev := (d.pinAll (d.shareGrans k)).setMdl m { k with wpins := true }
def Dev.unpinWeights (d : Dev) (m : Nat) (k : Mdl) : Dev :=
  if k.wpins then (d.unpinAll (d.shareGrans k)).setMdl m { k with wpins := false } else d

/-- The granules of HBM that a frozen object uses. -/
def Share.hbmGrans (s : Share) : List Nat := s.homes.filterMap fun h => match h with
  | .hbm a => some (gran a)
  | .nand _ => none

/-- The granules of the destination extents of a share's move that its object does not use are given back. -/
def Dev.trimShare (d : Dev) (p sh : Nat) (es : List Nat) : Dev :=
  es.foldl (fun d e =>
    let used := ((d.share sh).elim [] Share.hbmGrans).filter fun g => g / 64 == e
    if used.isEmpty then d.freeExts [e] else if used.length = 64 then d else d.splitExt p used e) d

/-- The end of a share's move to HBM: what it took and does not use is given back (R177). -/
def Dev.endUp (d : Dev) (x : Ctx) (id p sh : Nat) (dst : List Nat) (m : MoveProg) (st : Status) : Dev :=
  let d := (((d.dropAlt m).trimShare p sh dst).freeDesc id).traceMove x p sh m.next st (stackDie (stackOf (dstAddr dst 0)))
  d.endOp x id st [wd m.next]

/-- A move in granules ends after the granule in copy (R137). -/
def Dev.markAborted (d : Dev) (id : Nat) : Dev := { d with ops := tmod d.ops id fun o => { o with aborted := true } }

/-- The share moves of a load stop: after the granule in copy, or at once. -/
def Dev.stopUps (d : Dev) (x : Ctx) (m : Nat) : Dev :=
  d.ops.foldl (fun (d : Dev) (o : Nat × Op) =>
    match o.2.kind with
    | .shareUp n sh dst g =>
      if n ≠ m then d
      else if g.copying then d.markAborted o.1
      else
        let d := d.endUp x o.1 o.2.part sh dst g .aborted
        (d.mdl m).elim d fun k => d.setMdl m { k with moveOps := k.moveOps - 1 }
    | _ => d) d

/-- The part of a load after its moves: cores written and started, the schedule started. -/
def Dev.placeCode (d : Dev) (m : Nat) : Dev :=
  match d.mdl m with
  | none => d
  | some k =>
    let k := { k with preNext := 0, preOpen := [], preStop := false, repeated := false }
    let l := k.cores.mapIdx fun i n => (i, n)
    (l.foldl (fun d i => d.loadCore m k i.1 i.2) d).pinWeights m k

/-- The move of a share's NAND granules to HBM, as an operation of the model. -/
def Dev.startShareUp (d : Dev) (m : Nat) (k : Mdl) (sh : Nat) : Dev :=
  match d.share sh with
  | none => d
  | some s =>
    let n := (s.onNand + 63) / 64
    if n = 0 then d
    else
      match d.takeExts k.part (List.range 16) n with
      | none => d
      | some (es, d) =>
        let id := d.nextSeq
        let d := { d with nextSeq := id + 1, ops := tset d.ops id ⟨.engine .culm, k.part, .shareUp m sh es ⟨0, 0, false, false, 0⟩, false⟩ }
        (d.takeDesc id).setMdl m { (d.mdl m).getD k with moveOps := ((d.mdl m).getD k).moveOps + 1 }

/-- A load that has passed the fit check starts at an origin; `op` is the command it answers, 0 for a firmware load, and `at_` the tick of
its acceptance. -/
def Dev.startLoad (d : Dev) (at_ : Nat) (m : Nat) (k : Mdl) (org op : Nat) : Dev :=
  let k := { k with st := .loading, origin := org, accepted := at_, loadOp := op, moveOps := 0, blockedSent := false, faultCode := k.faultCode }
  let d := k.cores.foldl (fun d n => d.setCore n { d.core n with model := m, run := false }) (d.setMdl m k)
  let d := k.shares.dedup.foldl (fun d s => d.startShareUp m k s) d
  if ((d.mdl m).elim 0 Mdl.moveOps) = 0 then d.placeCode m else d

/-- The cores of a placement released. -/
def Dev.freeCores (d : Dev) (k : Mdl) : Dev :=
  k.cores.foldl (fun d n => d.setCore n { d.core n with model := 0, run := false, xfers := [], blocked := none }) d

/-! ### Evictions (R178-R180) -/

/-- The move of an object's HBM granules to the bulk region (R178), as an operation of the model; one that the quota or the region cannot
take is refused with DOES_NOT_FIT (R118). -/
def Dev.startShareDown (d : Dev) (m : Nat) (k : Mdl) (sh : Nat) : Dev :=
  match d.share sh with
  | none => d
  | some s =>
    let n := s.homes.length - s.onNand
    let other := d.grid.mdls.any fun o => o.1 != m && o.2.st.holds && o.2.shares.contains sh
    if n = 0 ∨ other = true then d
    else if !d.nandFits k.part n || d.regionInUse 1 + n > d.regionUnits true then
      d.setMdl m { (d.mdl m).getD k with evictSt := .doesNotFit }
    else
      let id := d.nextSeq
      let d := { d with nextSeq := id + 1, ops := tset d.ops id ⟨.engine .culm, k.part, .shareDown m sh [] ⟨0, 0, false, false, 0⟩, false⟩ }
      (d.takeDesc id).setMdl m { (d.mdl m).getD k with moveOps := ((d.mdl m).getD k).moveOps + 1 }

/-- The final replies of evictions, with the outcome of the weight moves: weight bytes moved to NAND in units of 4 KiB. -/
def Dev.endEvicts (d : Dev) (x : Ctx) (m : Nat) : Dev :=
  match d.mdl m with
  | none => d
  | some k => k.evictOps.foldl (fun d o => d.endOp x o k.evictSt [wd (k.movedKb * 8)]) (d.setMdl m { k with evictOps := [], evictAfter := none })

/-- Evictions that waited for a load that did not come to its end: the placement is not resident (R180; log entry 91). -/
def Dev.dropEvicts (d : Dev) (x : Ctx) (m : Nat) : Dev :=
  match d.mdl m with
  | none => d
  | some k => k.evictOps.foldl (fun d o => d.endOp x o .sessionState []) (d.setMdl m { k with evictOps := [], evictAfter := none })

/-- A placement leaves the hot set: its cores and descriptors are freed, and its weights move where asked. -/
def Dev.finishEvict (d : Dev) (x : Ctx) (m : Nat) (toNand : Bool) : Dev :=
  match d.mdl m with
  | none => d
  | some k =>
    let d := (d.unpinWeights m k).freeCores k
    let k := { (d.mdl m).getD k with st := .registered, moveOps := 0, movedKb := 0, preOpen := [], evictSt := .ok }
    let d := (d.setMdl m k).bumpPart k.part 0x06000C 1
    let d := if toNand then k.shares.dedup.foldl (fun d s => d.startShareDown m k s) d else d
    if ((d.mdl m).elim 0 Mdl.moveOps) = 0 then d.endEvicts x m else d

/-- An eviction starts: at once, or EVICTING until the batch step ends. -/
def Dev.startEvict (d : Dev) (x : Ctx) (m : Nat) (toNand : Bool) : Dev :=
  match d.mdl m with
  | none => d
  | some k =>
    if (tgetD d.sch.batches m Batch.reset).running then
      d.setMdl m { k with st := .evicting, evictAfter := some toNand, evictOps := if k.evictOps.isEmpty then [0] else k.evictOps }
    else d.finishEvict x m toNand

/-- GRID_HOTSET of a partition. -/
def Dev.hotset (d : Dev) (p : Nat) : Nat := d.partReg p 0x060000

/-- Whether a model has a training job that is not ended. -/
def Dev.training (d : Dev) (m : Nat) : Bool := d.sch.jobs.any fun j => j.2.model == m && j.2.st != 2

/-- The placement of partition p to evict next: training placements first (R249), then the one run least recently. -/
def Dev.evictCandidate (d : Dev) (x : Ctx) (p m : Nat) : Option Nat :=
  let ok := d.grid.mdls.filter fun k => k.2.part == p && k.1 != m && k.2.st == .resident && !k.2.pinned &&
    decide (k.2.since + fld (d.hotset p) 15 0 * ticksMs ≤ x.now)
  let best (l : Tbl Mdl) : Option Nat := (l.foldl (fun (b : Option (Nat × Nat)) k =>
    match b with
    | none => some (k.1, k.2.lastRun)
    | some (n, t) => if k.2.lastRun < t then some (k.1, k.2.lastRun) else some (n, t)) none).map Prod.fst
  match best (ok.filter fun k => d.training k.1) with
  | some n => some n
  | none => best ok

/-- Whether an eviction of partition p has not given back what step n of the fit check needs: cores until the end of the batch step, HBM
until its weights are on NAND. -/
def Dev.evictingFor (d : Dev) (p n : Nat) : Bool :=
  d.grid.mdls.any fun k => k.2.part == p && (k.2.st == .evicting || (n == 3 && k.2.st == .registered && k.2.moveOps != 0))

/-- A firmware load (R179, R381): it evicts until the check passes, or reports GRID_HOTSET_BLOCKED once. While an eviction has still to
give back what is missing it waits. -/
def Dev.autoLoad (d : Dev) (x : Ctx) (m : Nat) : Nat → Dev
  | 0 => d
  | f + 1 =>
    match d.mdl m with
    | none => d
    | some k =>
      if k.st ≠ .registered ∨ k.moveOps ≠ 0 ∨ !bitAt (d.hotset k.part) 31 ∨ (k.shares.any fun s => !d.bindOkSealed k.part s none) then d
      else
        match d.fit k none with
        | .ok o => d.startLoad x.now m k o 0
        | .error (step, _) =>
          let blocked (d : Dev) : Dev :=
            if k.blockedSent then d
            else (d.setMdl m { k with blockedSent := true }).recPart x k.part .log 0x207 (source 6 0) (wd m) 0 0
          if step = 2 ∨ step = 3 then
            if d.evictingFor k.part step then d
            else
              match d.evictCandidate x k.part m with
              | some e => (d.startEvict x e (bitAt (d.hotset k.part) 30)).autoLoad x m f
              | none => blocked d
          else blocked d

/-- Models of a partition that its WAITING sessions need. -/
def Dev.neededModels (d : Dev) (p : Nat) : List Nat :=
  ((d.ses.tbl.filter fun s => s.1 / 2 ^ 24 == p && s.2.state == .waiting && bitAt s.2.waitReason 0).map fun s => d.runModel s.2).dedup

/-- The firmware tries the loads of a partition again (R179). -/
def Dev.retryLoads (d : Dev) (x : Ctx) (p : Nat) : Dev := (d.neededModels p).foldl (fun d m => d.autoLoad x m 4096) d

/-- A load ends without its placement: it releases everything it reserved, and its command ends (R177). -/
def Dev.loadFails (d : Dev) (x : Ctx) (m : Nat) (k : Mdl) (st : Status) : Dev :=
  let d := ((d.freeCores k).setMdl m { k with st := .registered, loadOp := 0 }).endOp x k.loadOp st []
  (d.stopUps x m).dropEvicts x m

/-- The end of a share's move of a model: the last one lets the load or the eviction go on, and blocked loads are tried again (R177-R179). -/
def Dev.shareMoved (d : Dev) (x : Ctx) (m : Nat) (st : Status) (grans : Nat) : Dev :=
  match d.mdl m with
  | none => d
  | some k =>
    let k := { k with moveOps := k.moveOps - 1, movedKb := k.movedKb + grans, evictSt := if k.evictSt = .ok then st else k.evictSt }
    let d := d.setMdl m k
    if k.st = .loading then
      if st ≠ .ok then d.loadFails x m k .deviceFault
      else if k.moveOps = 0 then d.placeCode m else d
    else if k.moveOps = 0 then (d.endEvicts x m).retryLoads x k.part else d

/-! ### Range counters (R200, R201) -/

/-- Counts of a core added to a model's, layer by layer; those of layers that the model does not have go to 0xFFFE. -/
def addCounts (layers : Nat) (t : Tbl Nat) (c : Tbl Nat) : Tbl Nat :=
  c.foldl (fun t e =>
    let l := if e.1 < layers then e.1 else 0xFFFE
    tset t l (satAdd top32 (tgetD t l 0) e.2)) t

/-- GRID_NUM_CFG of a partition: SHADOW_EN, SAMPLE_LOG2 and EVENT_MS. -/
def Dev.numCfg (d : Dev) (p : Nat) : Bool × Nat × Nat := let r := d.partReg p 0x060400; (bitAt r 31, fld r 20 16, fld r 15 0)

/-- A sampled run compared on core n (R204, R205), as its error and the tile's layer: the model's error, its exceedances, and
SHADOW_EXCEEDED the first time in EVENT_MS. -/
def Dev.compare (d : Dev) (x : Ctx) (n m : Nat) (r : Nat × Nat) : Dev :=
  match d.mdl m with
  | none => d
  | some k =>
    let e := r.1
    let k := { k with samples := satAdd top32 k.samples 1, errLast := e, errMax := max k.errMax e }
    if e ≤ k.thresh then d.setMdl m k
    else
      let k := { k with exceed := satAdd top32 k.exceed 1, exceedSince := satAdd top32 k.exceedSince 1 }
      if k.exceedAt.elim true fun a => decide (a + (d.numCfg k.part).2.2 * ticksMs ≤ x.now) then
        (d.setMdl m { k with exceedAt := some x.now, exceedSince := 0 }).recPart x k.part .alarm 4 (source 6 n) (wd (m + r.2 * 65536)) (wd e)
          (wd k.exceedSince)
      else d.setMdl m k

/-- What a core sampled in a step reaches its model with the step's end: a step that is discarded loses it (R207). -/
def Dev.mergeSamples (d : Dev) (x : Ctx) (m n : Nat) : Dev :=
  let c := d.core n
  let d := c.errs.foldl (fun d r => d.compare x n m r) d
  let d := (d.mdl m).elim d fun k => d.setMdl m { k with skipped := satAdd top32 k.skipped c.skips }
  d.setCore n { c with errs := [], skips := 0 }

/-- The end of a step: the counts and the samples of a placement's cores reach the model's counters, and NUM_NAN is sent the first time in
EVENT_MS. -/
def Dev.mergeCounts (d : Dev) (x : Ctx) (m : Nat) : Dev :=
  let d := ((d.mdl m).elim [] Mdl.cores).foldl (fun d n => d.mergeSamples x m n) d
  match d.mdl m with
  | none => d
  | some k =>
    let cs := k.cores.map d.core
    let sum (f : Core → Tbl Nat) (t : Tbl Nat) : Tbl Nat := cs.foldl (fun t c => addCounts k.img.layers t (f c)) t
    let fresh := sum Core.nanc []
    let k' := { k with ovf := sum Core.ovf k.ovf, unf := sum Core.unf k.unf, nanc := sum Core.nanc k.nanc }
    let d := k.cores.foldl (fun d n => d.setCore n { d.core n with ovf := [], unf := [], nanc := [] }) d
    let gap := fld (d.partReg k.part 0x060400) 15 0 * ticksMs
    match fresh with
    | [] => d.setMdl m k'
    | (l, _) :: _ =>
      if k.nanAt.elim true fun t => decide (t + gap ≤ x.now) then
        (d.setMdl m { k' with nanAt := some x.now }).recPart x k.part .log 0x208 (source 6 0) (wd m) (wd l) (wd (tgetD k'.nanc l 0))
      else d.setMdl m k'

/-! ### Opcodes (R182) -/

/-- The model a command names, if its partition registered it. -/
def Dev.ownMdl (d : Dev) (q : Req) : Option (Nat × Mdl) :=
  let m := q.f 2 15 0
  match d.mdl m with
  | some k => if k.part = q.part then some (m, k) else none
  | none => none

/-- MDL_REGISTER: the image is read from host memory. -/
def mdlReg (_ : Ctx) (q : Req) (d : Dev) : Ans :=
  let len := (q.w 4).toNat
  if !q.clean ((List.range 7).map fun i => (i + 2, top32)) ∨ len < 128 ∨ len > 67108864 then .refuse .badParam
  else .accept [] (.register len ((List.range 4).map fun i => (q.w (5 + i)).toNat)) d

/-- Whether a command of a model waits for earlier ones of it: MDL_LOAD, MDL_EVICT and MDL_UNREGISTER take effect in arrival order
(R180). -/
def Dev.mdlHeld (d : Dev) (id m : Nat) : Bool :=
  d.ops.any fun o => decide (o.1 < id) && match o.2.kind with
    | .held oc ws => (([0x0301, 0x0302, 0x0306] : List Nat).contains oc) && ((ws[2]?).getD 0).toNat % 65536 == m
    | _ => false

/-- Whether the weights of a placement that has left the hot set still move. -/
def Mdl.unloading (k : Mdl) : Bool := (k.st == .registered || k.st == .faulted) && k.moveOps != 0

/-- A command of a model held, with the tick of its acceptance behind its words. -/
def Req.hold (q : Req) (at_ oc : Nat) : OpKind := .held oc (q.words ++ [loW at_, hiW at_])

/-- MDL_LOAD (R176); `at_` is the tick of its acceptance. It waits while the weights of an earlier eviction move (R180). -/
def mdlLoadGo (at_ : Nat) (q : Req) (d : Dev) : Ans :=
  if !q.clean [(2, 0xFFFF), (3, 0x1FF)] then .refuse .badParam
  else
    match d.ownMdl q with
    | none => .refuse .badParam
    | some (m, k) =>
      if k.shares.any fun s => !d.bindOkSealed q.part s none then .refuse .notPermitted
      else if k.unloading || d.mdlHeld q.seq m then .accept [] (q.hold at_ 0x0301) d
      else if k.st = .resident then .both [] .ok [wd k.origin, 0] d
      else if k.st ≠ .registered ∧ k.st ≠ .faulted then .refuse .sessionState
      else
        match d.fit k (if bitAt (q.w 3).toNat 8 then some (q.f 3 7 0) else none) with
        | .error e => .refuse e.2
        | .ok o => .accept [] (.mdlLoad m) (d.startLoad at_ m k o q.seq)
def mdlLoadCmd (x : Ctx) (q : Req) (d : Dev) : Ans := mdlLoadGo x.now q d

/-- MDL_EVICT: a LOADING placement is evicted after its load (R180). -/
def mdlEvictCmd (x : Ctx) (q : Req) (d : Dev) : Ans :=
  if !q.clean [(2, 0xFFFF), (3, 1)] then .refuse .badParam
  else
    match d.ownMdl q with
    | none => .refuse .badParam
    | some (m, k) =>
      let nand := bitAt (q.w 3).toNat 0
      if k.pinned then .refuse .notPermitted
      else if d.mdlHeld q.seq m then .accept [] (q.hold x.now 0x0302) d
      else if k.st = .registered ∨ k.st = .faulted then .refuse .sessionState
      else
        let d := d.setMdl m { k with evictOps := k.evictOps ++ [q.seq], evictAfter := some nand }
        .accept [] (.mdlEvict m nand) (if k.st = .resident then d.startEvict x m nand else d)

/-- The final replies of evictions that have ended by acceptance. -/
def Dev.evictReplies (d : Dev) (x : Ctx) : Dev :=
  let l := d.ops.filter fun o => match o.2.kind with
    | .mdlEvict m _ => (d.mdl m).elim true fun k => !k.evictOps.contains o.1
    | _ => false
  l.foldl (fun d o => d.endOp x o.1 (match o.2.kind with
    | .mdlEvict m _ => (d.mdl m).elim .ok Mdl.evictSt
    | _ => .ok) [0]) d

/-- MDL_EVICT as a row: an eviction that has ended by acceptance replies at once, and blocked loads are tried again. -/
def evictDone (c : Cmd) (x : Ctx) (d : Dev) : Dev := ((runCmd 0x0302 c mdlEvictCmd x d).evictReplies x).retryLoads x c.part

/-- MDL_PIN. -/
def mdlPinCmd (x : Ctx) (q : Req) (d : Dev) : Ans :=
  if !q.clean [(2, 0xFFFF), (3, 1)] then .refuse .badParam
  else
    match d.ownMdl q with
    | none => .refuse .badParam
    | some (m, k) => .done .ok [] ((d.setMdl m { k with pinned := bitAt (q.w 3).toNat 0 }).retryLoads x k.part)

/-- MDL_CHECK: the status of the fit check now. -/
def mdlCheckCmd (_ : Ctx) (q : Req) (d : Dev) : Ans :=
  if !q.clean [(2, 0xFFFF)] then .refuse .badParam
  else
    match d.ownMdl q with
    | none => .refuse .badParam
    | some (_, k) =>
      if k.st = .resident then .done .ok [wd Status.ok.code, wd k.origin] d
      else if k.st ≠ .registered ∧ k.st ≠ .faulted then .done .ok [wd Status.sessionState.code, 0] d
      else
        match d.fit k none with
        | .error e => .done .ok [wd e.2.code, 0] d
        | .ok o => .done .ok [wd Status.ok.code, wd o] d

/-- MDL_QUERY. -/
def mdlQueryCmd (_ : Ctx) (q : Req) (d : Dev) : Ans :=
  if !q.clean [(2, 0xFFFF)] then .refuse .badParam
  else
    match d.ownMdl q with
    | none => .refuse .badParam
    | some (_, k) =>
      let held := k.st.holds
      .done .ok [wd (k.st.code + (if k.pinned then 256 else 0) + (if held then k.origin * 4096 else 0)),
        wd (if held then k.cores.length else 0), wd (d.hbmBytes k / 4096), wd k.faultCode] d

/-- MDL_UNREGISTER (R180); it waits while the weights of an earlier eviction move. -/
def mdlUnregCmd (x : Ctx) (q : Req) (d : Dev) : Ans :=
  if !q.clean [(2, 0xFFFF)] then .refuse .badParam
  else
    match d.ownMdl q with
    | none => .refuse .badParam
    | some (m, k) =>
      let bound := d.ses.tbl.any fun s => s.2.state != .free && (s.2.model == m || s.2.compressor == m)
      if k.unloading || d.mdlHeld q.seq m then .accept [] (q.hold x.now 0x0306) d
      else if (k.st ≠ .registered ∧ k.st ≠ .faulted) ∨ bound then .refuse .notPermitted
      else
        let d := k.shares.foldl Dev.shareUnref { d with grid := { d.grid with mdls := tdel d.grid.mdls m } }
        .both [] .ok [] { d with sch := { d.sch with batches := tdel d.sch.batches m, mcfg := tdel d.sch.mcfg m } }

/-- A held command of a model that may go on. -/
def Dev.mdlGo (d : Dev) (x : Ctx) (m id : Nat) : Dev :=
  match tget d.ops id with
  | some ⟨src, p, .held oc ws, _⟩ =>
    if ((ws[2]?).getD 0).toNat % 65536 ≠ m then d
    else
      let q : Req := ⟨id, none, 0, p, src, ws.take 16, x.now⟩
      let at_ := ((ws[16]?).getD 0).toNat + ((ws[17]?).getD 0).toNat * 2 ^ 32
      match (if oc = 0x0301 then some (mdlLoadGo at_ q d) else if oc = 0x0302 then some (mdlEvictCmd x q d)
        else if oc = 0x0306 then some (mdlUnregCmd x q d) else none) with
      | none => d
      | some (.refuse st) => d.endOp x id st []
      | some (.done st res d) => d.endOp x id st res
      | some (.both _ st fin d) => d.endOp x id st fin
      | some (.accept _ (.held _ _) _) => d
      | some (.accept _ k d) => (d.setOp id k).evictReplies x
  | _ => d

/-- The held commands of a model, in arrival order (R180). -/
def Dev.mdlRelease (d : Dev) (x : Ctx) (m : Nat) : Dev := (tkeys d.ops).foldl (fun d id => d.mdlGo x m id) d

def effMdlRegister (c : Cmd) (s : State) : Host.Outcome State Fault Refusal := hostCmd 0x0300 c mdlReg s
def effMdlLoad (c : Cmd) (s : State) : Host.Outcome State Fault Refusal := hostCmd 0x0301 c mdlLoadCmd s
def effMdlEvict (c : Cmd) (s : State) : Host.Outcome State Fault Refusal := onDev (evictDone c) s
def effMdlPin (c : Cmd) (s : State) : Host.Outcome State Fault Refusal := hostCmd 0x0303 c mdlPinCmd s
def effMdlCheck (c : Cmd) (s : State) : Host.Outcome State Fault Refusal := hostCmd 0x0304 c mdlCheckCmd s
def effMdlQuery (c : Cmd) (s : State) : Host.Outcome State Fault Refusal := hostCmd 0x0305 c mdlQueryCmd s
def effMdlUnregister (c : Cmd) (s : State) : Host.Outcome State Fault Refusal := hostCmd 0x0306 c mdlUnregCmd s

end Sys2Proof.Machine
end

