-- ==== Sys2Proof/Machine/Park.lean ====
section
/-! DEFINITION. Parking, reviving and closing: what commands, policies and the ends of transfers share (R83, R91-R101). -/

namespace Sys2Proof.Machine

/-! ### Settings of a session -/

/-- SES_PARK_CFG and SES_COMPRESSOR of a partition. -/
def Dev.parkCfg (d : Dev) (p : Nat) : Nat := d.partReg p 0x030004
def Dev.ratio (d : Dev) (p : Nat) : Nat := fld (d.partReg p 0x030008) 31 24

/-- A table with no page, for a session that holds none, in its model's geometry. -/
def Dev.kvOr (d : Dev) (s : Ses) : Kv :=
  match s.kv with
  | some k => k
  | none =>
    match d.mdl s.model with
    | some m => ⟨0, pageT m.img.kvHeads m.img.headDim m.img.kvFmt, m.img.kvFmt, m.img.layers, m.img.kvHeads, m.img.headDim, 0, s.pfx, [],
        List.replicate 8 0, List.replicate m.img.layers [], []⟩
    | none => ⟨0, 1, 0, 0, 0, 0, 0, s.pfx, [], List.replicate 8 0, [], []⟩

/-- Summary positions that a compressor run makes of the positions before the window (R94). -/
def summaryOf (ctx window ratio : Nat) : Nat := if ratio = 0 then 0 else (ctx - min window ctx) / ratio

/-- The image of a session, as a park (R95) or a move (R103) encodes it. -/
def Dev.encode (d : Dev) (p : Nat) (s : Ses) (move compress : Bool) : List Byte :=
  let w := s.window
  let r := match s.move with
    | some m => if m.kind = 1 then m.ratio else d.ratio p
    | none => d.ratio p
  let sm := if compress then summaryOf s.ctx w r else 0
  d.parkImage (d.kvOr s) s.ctx ⟨s.model, s.adapter, s.pfx, s.nextPos, w, move, if move then s.engineNs else 0,
    if move then nsum s.bytes else 0, if move then s.energy else 0, sm, r⟩

/-! ### Park (R94-R97) -/

/-- A park refused or aborted: the session is WARM again, nothing written. -/
def Dev.parkBack (d : Dev) (x : Ctx) (h : Word) : Dev :=
  match d.sesOf h with
  | none => d
  | some s => ((d.setSes h { s with move := none }).enterWarm x h).settle x h

/-- The image is encoded, and Culm writes it through the FTL; none where it does not fit (R96). -/
def Dev.parkWrite (d : Dev) (h : Word) : Option Dev :=
  match d.sesOf h with
  | none => none
  | some s =>
    match s.move with
    | none => none
    | some m =>
      let p := hPart h
      let img := d.encode p s false m.compress
      let n := unitsFor img.length
      let bad := (d.kvOr s) |> d.kvBad
      let d := { d with free := d.free + img.length }
      if img.length > 0xFFFFFFFF ∨ !d.nandFits p n then none
      else
        match d.placeUnits p m.bulk (unitData img) with
        | none => none
        | some (us, d) =>
          let d := if bad then { d with nand := { d.nand with units := tmap d.nand.units fun u v => if us.contains u then { v with state := 2 } else v } } else d
          let o := d.newObj p .park us img.length false
          let d := o.2.shapeNand p (sesFlow (hKey h) 0) 0 m.op us
          some ((d.setSes h { s with move := some { m with obj := o.1, img := [], compressing := false } }).charge h 3 img.length)

/-- The reads of a table's spilled pages, which an encoding makes (R226). -/
def Dev.kvUse (d : Dev) (x : Ctx) (h : Word) : Dev :=
  match (d.sesOf h).bind Ses.kv with
  | none => d
  | some k => (k.pages.flatMap fun l => l.filterMap fun p => p.home.unit?).foldl (fun d u => d.nandUse x u) d

/-- A park begins for a WARM session (R95): it is MOVING, and the compressor run waits for batch rows (R94), or the image is written at
once; whether it goes on, false where it does not fit (R96). `op` is the operation that ends with the park. -/
def Dev.parkBegin (d : Dev) (x : Ctx) (h : Word) (op : Nat) (bulk noCompress : Bool) : Bool × Dev :=
  match (d.dropSpills x h).sesOf h with
  | none => (true, d)
  | some s =>
    let p := hPart h
    let d := d.dropSpills x h
    let comp := !noCompress && s.compressor != 0 && d.resident s.compressor && summaryOf s.ctx s.window (d.ratio p) != 0
    let m := { Movement.new 1 op true with
      bulk := bulk || bitAt (d.parkCfg p) 20
      compress := comp
      ratio := d.ratio p
      compressing := comp
      runLeft := if comp then d.ratio p * summaryOf s.ctx s.window (d.ratio p) else 0 }
    let d := d.goto x h { s with move := some m } .moving
    if comp then (true, d)
    else
      let d := d.kvUse x h
      match d.parkWrite h with
      | some d => (true, d)
      | none => (false, d)

/-- A firmware park (R76, PARK_AFTER), as an operation of its own. -/
def Dev.firmwarePark (d : Dev) (x : Ctx) (h : Word) : Dev :=
  let id := d.nextSeq
  let d := { d with nextSeq := id + 1, ops := tset d.ops id ⟨.engine .firmware, hPart h, .parkSes h, false⟩ }
  match d.parkBegin x h id false false with
  | (true, d) => d
  | (false, d) => (d.endOp x id .doesNotFit []).parkBack x h

/-- The end of a compressor run of a park: the image is written, or the park is refused (R94, R96). -/
def Dev.parkCompressed (d : Dev) (x : Ctx) (h : Word) : Dev :=
  let d := d.kvUse x h
  match d.parkWrite h with
  | some d => d
  | none =>
    let op := (d.sesOf h).elim 0 fun s => s.move.elim 0 Movement.op
    (d.endOp x op .doesNotFit []).parkBack x h

/-- Whether any unit of an object lies in the bulk region. -/
def Dev.anyBulk (d : Dev) (obj : Nat) : Bool :=
  (tget d.nand.objs obj).elim false fun o => o.units.any fun u => (tget d.nand.units u).elim false fun v => v.region == 1

/-- Sessions that wait for a staging entry of a die start their revive while there is one (R99). -/
def Dev.unlatch (d : Dev) (x : Ctx) (die : Nat) : Dev :=
  (d.waitersFor die).foldl (fun d h =>
    match d.sesOf h with
    | some s =>
      match s.move with
      | some m => if d.stageFree die = 0 then d else d.startRevive x h m
      | none => d
    | none => d) d

/-- The FTL has confirmed a park's last write (R95): pages are released, the descriptor leaves staging, and the final
reply goes out. -/
def Dev.parkDone (d : Dev) (x : Ctx) (h : Word) : Dev :=
  match d.sesOf h with
  | none => d
  | some s =>
    match s.move with
    | none => d
    | some m =>
      let len := (tget d.nand.objs m.obj).elim 0 NandObj.len
      let sm := if m.compress then summaryOf s.ctx s.window m.ratio else 0
      let ctx := if m.compress then s.ctx - sm * m.ratio + sm else s.ctx
      let d := d.dropKv h
      let s := { s with kv := none, parkLoc := m.obj, parkBytes := len, compressed := m.compress, ctx := ctx, move := none }
      let d := d.goto x h s .parked
      let d := d.endOp x m.op .ok [loW m.obj, hiW m.obj, wd len, wd ((if m.compress then 1 else 0) + if d.anyBulk m.obj then 2 else 0)]
      (d.settle x h).unlatch x s.die

/-! ### Revive (R98-R101) -/

/-- The geometry of a session's model. -/
def Dev.geoOf (d : Dev) (m : Nat) : ParkGeo :=
  match d.mdl m with
  | some k => ⟨k.img.layers, k.img.kvHeads, k.img.headDim, k.img.kvFmt⟩
  | none => ⟨0, 0, 0, 0⟩

/-- A failed check of a revive (R101): SES_LOST, the command ends with INTEGRITY, and the session closes. -/
def Dev.reviveLost (d : Dev) (x : Ctx) (h : Word) : Dev :=
  match (d.dropKv h).sesOf h with
  | none => d
  | some s =>
    let p := hPart h
    let d := ((d.dropKv h).recPart x p .fault 0x100 s.src h 0 0).bumpPart p 0x03001C 1
    (d.endRevives x h .integrity []).enterClosing x h

/-- Pages for an image's positions, and the image decoded into them; none where no page can be had (R98, R216). -/
def Dev.decodeImage (d : Dev) (p : Nat) (s : Ses) (img : List Byte) (g : ParkGeo) : Option (Kv × Dev) :=
  match (match s.kv with
    | some k => some (k, d)
    | none => d.newKv p g.layers g.heads g.dim g.fmt s.pfx) with
  | none => none
  | some (k, d) =>
    match d.growKv p s.ctx k with
    | none => none
    | some (k, d) => some (k.fillTo s.ctx, d.putVecs k s.ctx (imageVecs img g))

/-- The state a revive reaches (R78, R82, R98, R100): WARM with RESTORE_ONLY and no latched wake, or with no pending
input; OPEN otherwise. A close that waits goes on from there (R17). -/
def Dev.reviveEnd (d : Dev) (x : Ctx) (h : Word) : Dev :=
  match d.sesOf h with
  | none => d
  | some s =>
    match s.move with
    | none => d
    | some m =>
      let warm := (m.restoreOnly && !s.evLatched) || s.pend.isEmpty
      let s := { s with move := none, parkLoc := 0, parkBytes := 0 }
      let d := (d.freeObj m.obj).setSes h s
      if s.closePending then
        let t : SesStateName := if warm then .warm else .opened
        ((d.goto x h s t).endRevives x h .ok [wd t.code]).enterClosing x h
      else
        let d := d.setSes h { s with evLatched := false }
        let d := if warm then d.enterWarm x h else d.enterOpen x h
        d.endRevives x h .ok [wd ((d.sesOf h).elim 0 fun t => t.state.code)]

/-- The ranges of HBM that a table's own pages lie in. -/
def Kv.hbmPages (k : Kv) : List (Nat × Nat) :=
  k.pages.flatMap fun l => l.filterMap fun p => match p.home with
    | .hbm a => some (a, 32768)
    | .nand _ => none

/-- The park image has been read (R98): its checks, its positions in the pages, and the end of the revive. -/
def Dev.reviveDecode (d : Dev) (x : Ctx) (h : Word) : Dev :=
  match d.sesOf h with
  | none => d
  | some s =>
    match s.move with
    | none => d
    | some m =>
      if s.state ≠ .moving ∨ m.kind ≠ 2 ∨ s.kv.isNone then d
      else d.once x .tiller (3, h.toNat) (s.kv.elim [] Kv.hbmPages) fun d =>
        let g := d.geoOf s.model
        let d := d.objUse x m.obj
        match d.readObj m.obj with
        | none => d.reviveLost x h
        | some img =>
          if !hdrOk img g || !hdrMatch img s.model s.adapter s.pfx s.ctx || !sectionsOk img then d.reviveLost x h
          else
            match d.decodeImage (hPart h) s img g with
            | none => d.kvShort x (hPart h)
            | some (k, d) =>
              let d := (d.setSes h { s with kv := some k }).charge h 2 img.length
              d.reviveEnd x h

/-! ### Close (R83) -/

/-- Everything a session holds released, in order, and its index FREE. -/
def Dev.releaseSes (d : Dev) (x : Ctx) (h : Word) : Dev :=
  match d.sesOf h with
  | none => d
  | some s =>
    let d := d.dropKv h
    let d := if s.pfx = 0 then d else d.shareUnref s.pfx
    let d := if s.parkLoc = 0 then d else d.freeObj s.parkLoc
    let d := if s.acct = 0 then d else d.freeBlks [s.acct]
    let d := (d.fetchesOf h).foldl (fun (d : Dev) o =>
      let d := match o.2.kind with
        | .fetchBack _ _ _ (some g) => d.freeGran g
        | _ => d
      { d with ops := tdel d.ops o.1 }) d
    (d.freeSes x h).adpCheck (hPart h) s.adapter

/-- The end of a close (R83): the final reply of every SES_CLOSE carries the counters, also where a movement ended FREE with the close
pending (R17). -/
def Dev.closeReply (d : Dev) (x : Ctx) (h : Word) (s : Ses) : Dev :=
  ((d.ops.filter fun o => o.2.kind == .closeSes h).map Prod.fst).foldl (fun d o =>
    d.endOp x o .ok [loW s.engineNs, hiW s.engineNs, wd (nsum s.bytes / 4096), wd (s.energy / 1000)]) d

/-- The resources of a CLOSING session are released, and the index is FREE. -/
def Dev.closeDone (d : Dev) (x : Ctx) (h : Word) : Dev :=
  match d.sesOf h with
  | none => d
  | some s =>
    if s.state ≠ .closing then d else ((d.releaseSes x h).closeReply x h s).unlatch x s.die

end Sys2Proof.Machine
end

