-- ==== Sys2Proof/Machine/Sch.lean ====
section
/-! DEFINITION. The serving scheduler: batch decisions, steps, the deadline monitor, and accounting (R243-R260). -/

namespace Sys2Proof.Machine

/-! ### Orders -/

/-- Insertion into a list ordered by a list of numbers, smallest first. -/
def lexLt : List Nat → List Nat → Bool
  | [], [] => false
  | [], _ :: _ => true
  | _ :: _, [] => false
  | a :: as, b :: bs => a < b || (a == b && lexLt as bs)
def insBy {α : Type} (key : α → List Nat) (a : α) : List α → List α
  | [] => [a]
  | b :: bs => if lexLt (key a) (key b) then a :: b :: bs else b :: insBy key a bs
def sortBy {α : Type} (key : α → List Nat) (l : List α) : List α := l.foldl (fun t a => insBy key a t) []

/-- A deadline as a rank: none ranks last. -/
def deadRank (dl : Nat) : Nat := if dl = 0 then 2 ^ 64 else dl

/-! ### Batches -/

/-- The batch sequence of a model. -/
def Dev.batch (d : Dev) (m : Nat) : Batch := tgetD d.sch.batches m Batch.reset
def Dev.setBatch (d : Dev) (m : Nat) (b : Batch) : Dev := { d with sch := { d.sch with batches := tset d.sch.batches m b } }

/-- Chunk C and budget B of a model (R247). -/
def Dev.chunkOf (d : Dev) (m : Nat) (k : Mdl) : Nat :=
  let c := (tgetD d.sch.mcfg m (0, 0, 0)).2.1
  min (if c = 0 then fld (d.partReg k.part 0x070000) 12 0 else c) k.img.chunk
def Dev.budgetOf (d : Dev) (m : Nat) (k : Mdl) : Nat :=
  let b := (tgetD d.sch.mcfg m (0, 0, 0)).2.2
  if b = 0 then fld (d.partReg k.part 0x070004) 13 0 else b

/-- The sessions whose request runs on a model, with their requests, in OPEN or RUNNING. -/
def Dev.modelSes (d : Dev) (m : Nat) : List (Word × Ses × Request) :=
  d.ses.tbl.filterMap fun s =>
    if s.2.state = .opened ∨ s.2.state = .running then
      match d.req s.2.request with
      | some r => if d.runModel s.2 = m then some (handleOf (s.1 / 2 ^ 24) s.2.gen (s.1 % 2 ^ 24), s.2, r) else none
      | none => none
    else none

/-- Admission of one OPEN session (R78, R247): WAITING where its placement is absent or pages are spilled. -/
def Dev.letIn (d : Dev) (x : Ctx) (h : Word) : Dev :=
  match d.sesOf h with
  | none => d
  | some s =>
    let m := d.runModel s
    let absent := !d.resident m
    let spill := s.kv.elim false fun k => k.spilled != 0
    if s.state = .opened ∧ (absent = true ∨ spill = true) then
      let d := d.goto x h { s with waitReason := (if absent then 1 else 0) + if spill then 2 else 0 } .waiting
      let d := if spill then d.fetchBack x h else d
      if absent then d.autoLoad x m 4096 else d
    else d

/-- Missing exchange pages tried again at a decision (R215). -/
def Dev.retryXchg (d : Dev) (x : Ctx) (h : Word) : Dev :=
  match d.sesOf h with
  | none => d
  | some s => if s.kv.elim true fun k => !k.xchgFull then d.sesXchg x h else d

/-- Rows decided so far, and the tokens used. -/
structure Forming where
  rows : List Row
  used : Nat

/-- A row for tokens that need pages: its pages allocated, or the session left out (R216, R248). -/
def Dev.rowPages (d : Dev) (_ : Ctx) (h : Word) (count : Nat) : Option Dev :=
  match d.sesOf h with
  | none => none
  | some s =>
    match s.kv with
    | none => none
    | some k =>
      match d.growKv (hPart h) (s.ctx + count) k with
      | some (k, d) => some (d.setSes h { s with kv := some k })
      | none => none

/-- A per-page descriptor of a row (R222): page address, position of slot 0, FILL, layer, whether it is APPEND, and whether the page is a
prefix page. -/
structure PageDesc where
  addr : Nat
  pos : Nat
  fill : Nat
  layer : Nat
  app : Bool
  pfx : Bool

/-- The own page j of a layer as a descriptor, where it is in HBM. -/
def Kv.desc (k : Kv) (base l j : Nat) (app : Bool) : List PageDesc :=
  match (k.layer l)[j]? with
  | some ⟨_, _, f, .hbm a⟩ => [⟨a, base + j * k.t, f, l, app, false⟩]
  | _ => []

/-- The descriptors of a row in a layer: READ for each page that holds earlier positions unless it is a decode row, then APPEND for each
page that receives new ones (R222). A compressor row reads the session's pages. -/
def Dev.layerDescs (d : Dev) (s : Ses) (k : Kv) (r : Row) (l : Nat) : List PageDesc :=
  let pfx := d.share k.pfx
  let base := pfx.elim 0 Share.positions
  let reads : List PageDesc :=
    if r.kind = 0 then []
    else
      ((List.range k.pfxPages).filterMap fun j =>
        match (pfx.elim [] Share.homes)[l * k.pfxPages + j]? with
        | some (.hbm a) =>
          let e : PageDesc := ⟨a, j * k.t, (((pfx.elim [] Share.fills)[l]?).getD []).getD j 0, l, false, true⟩
          some e
        | _ => none) ++
      (List.range ((s.ctx + k.t - 1) / k.t)).flatMap fun j => k.desc base l j false
  let apps : List PageDesc :=
    if r.kind = 3 then []
    else (List.range ((s.ctx + r.count - 1) / k.t + 1 - s.ctx / k.t)).flatMap fun i => k.desc base l (s.ctx / k.t + i) true
  reads ++ apps

/-- The descriptors of a row, layer by layer. -/
def Dev.rowDescs (d : Dev) (r : Row) : List (List PageDesc) :=
  match d.sesOf r.h with
  | some s => s.kv.elim [] fun k => if k.t = 0 then [] else (List.range k.layers).map (d.layerDescs s k r)
  | none => []

/-- The bytes of a descriptor of a row in a step. -/
def PageDesc.bytes (e : PageDesc) (h : Word) (t step : Nat) (last : Bool) : List Byte :=
  leBytes 8 e.addr ++ leBytes 4 h.toNat ++ leBytes 4 e.pos ++ leBytes 2 e.fill ++ leBytes 2 e.layer ++ leBytes 1 (if e.app then 1 else 0) ++
    leBytes 1 ((if e.pfx then 1 else 0) + if last then 2 else 0) ++ leBytes 2 t ++ leBytes 4 step ++ List.replicate 4 0

/-- The descriptors that a step delivers on channel 14. -/
def Dev.stepDescs (d : Dev) (step : Nat) (rows : List Row) : List (List Byte) :=
  rows.flatMap fun r =>
    let t := (d.sesOf r.h).elim 0 fun s => s.kv.elim 0 Kv.t
    (d.rowDescs r).flatMap fun l => l.mapIdx fun i e => e.bytes r.h t step (i + 1 == l.length)

/-- The granules of HBM that a table's own pages lie in. -/
def Kv.grans (k : Kv) : List Nat := k.pages.flatMap fun l => l.filterMap fun p => match p.home with
  | .hbm a => some (gran a)
  | .nand _ => none

/-- The granules pinned while a row computes: the pages its descriptors name, and every own page of its session (R115, R222). -/
def Dev.rowGrans (d : Dev) (r : Row) : List Nat :=
  (((d.rowDescs r).flatMap fun l => l.map fun e => gran e.addr) ++ (d.sesOf r.h).elim [] fun s => s.kv.elim [] Kv.grans).dedup

/-- Rows in the order of R247: each candidate takes a place and its tokens while MAX_ROWS and B allow. -/
def takeRows (maxRows b : Nat) (want : Nat → (Word × Ses × Request) → Option Row) : Forming → List (Word × Ses × Request) → Forming
  | f, [] => f
  | f, c :: cs =>
    if f.rows.length ≥ maxRows ∨ f.used ≥ b then f
    else
      match want (b - f.used) c with
      | some r => takeRows maxRows b want ⟨f.rows ++ [r], f.used + r.count⟩ cs
      | none => takeRows maxRows b want f cs

/-- A decode row, and a prefill row of a chunk of at most `c` and `left` tokens. -/
def decodeRow (_ : Nat) (e : Word × Ses × Request) : Option Row :=
  some ⟨e.1, e.2.2.num, e.2.1.nextPos, 1, 0, e.2.2.switched, e.2.2.gram.isSome, []⟩
def prefillRow (c : Nat) (left : Nat) (e : Word × Ses × Request) : Option Row :=
  let n := e.2.1.pend.length
  let k := min (min c n) left
  if k < 64 ∧ n ≥ 64 ∨ k = 0 then none
  else some ⟨e.1, e.2.2.num, e.2.1.nextPos, k, if k = n then 2 else 1, e.2.2.switched, e.2.2.gram.isSome, []⟩

/-- The compressor runs of parks on a model, in order of acceptance (R94, R247). -/
def Dev.compressRuns (d : Dev) (m : Nat) : List (Word × Ses) :=
  sortBy (fun e => [e.2.move.elim 0 Movement.op]) (d.ses.tbl.filterMap fun s =>
    if s.2.state = .moving && s.2.compressor == m && s.2.move.elim false Movement.compressing then
      some (handleOf (s.1 / 2 ^ 24) s.2.gen (s.1 % 2 ^ 24), s.2) else none)

/-- The next position that a session's compressor run takes: it begins with the oldest own position, behind the prefix (R94). -/
def Dev.compressPos (d : Dev) (s : Ses) : Nat :=
  match s.move with
  | none => 0
  | some m => (d.share s.pfx).elim 0 Share.positions + (m.ratio * summaryOf s.ctx s.window m.ratio - m.runLeft)

/-- Compressor rows with what prefill leaves. -/
def Dev.compressRows (d : Dev) (maxRows b c : Nat) : Forming → List (Word × Ses) → Forming
  | f, [] => f
  | f, e :: es =>
    let n := e.2.move.elim 0 Movement.runLeft
    let k := min (min c n) (b - f.used)
    if f.rows.length ≥ maxRows ∨ f.used ≥ b then f
    else if k < 64 ∧ n ≥ 64 ∨ k = 0 then d.compressRows maxRows b c f es
    else d.compressRows maxRows b c ⟨f.rows ++ [⟨e.1, 0, d.compressPos e.2, k, 3, false, false, []⟩], f.used + k⟩ es

/-- Whether a row would need page 16,384 of its session's layers (R218). -/
def Dev.tableFull (d : Dev) (r : Row) : Bool :=
  (d.sesOf r.h).elim false fun s => s.kv.elim false fun k => decide (s.ctx + r.count > 16384 * k.t)

/-- Rows whose pages cannot be allocated leave the batch (R248), and a row whose table is full ends its request (R218); the others keep
their order. -/
def Dev.allocRows (d : Dev) (x : Ctx) : List Row → List Row × Dev
  | [] => ([], d)
  | r :: rs =>
    if r.kind = 3 then
      let q := d.allocRows x rs
      (r :: q.1, q.2)
    else if d.tableFull r then ((d.finishReq x r.h false []).afterReq x r.h).allocRows x rs
    else
      match d.rowPages x r.h r.count with
      | some d =>
        let q := d.allocRows x rs
        (r :: q.1, q.2)
      | none => (d.kvShort x (hPart r.h)).allocRows x rs

/-- Whether a batch decided or computing holds a session's row: it has at most one (R247), and a switched request's row finishes on its
primary (R253). -/
def Dev.rowHeld (d : Dev) (h : Word) : Bool :=
  d.sch.batches.any fun b => (b.2.running || b.2.decided) && b.2.rows.any fun r => r.h == h && r.kind != 3

/-- The batch decision of a model (R246, R247): the admission queue in its order first. -/
def Dev.decide_ (d : Dev) (x : Ctx) (m : Nat) : Dev :=
  match d.mdl m with
  | none => d
  | some k =>
    let q := (d.batch m).queue
    let d := d.setBatch m { d.batch m with queue := [], decided := false, rows := [] }
    let d := (q ++ ((d.modelSes m).map fun e => e.1).filter fun h => !q.contains h).foldl (fun d h => d.letIn x h) d
    if !d.resident m then d
    else
      let d := (d.modelSes m).foldl (fun d e => d.retryXchg x e.1) d
      let c := d.chunkOf m k
      let b := d.budgetOf m k
      let cands := (d.modelSes m).filter fun e => !e.2.1.closePending && !e.2.2.endNow.isSome && !d.rowHeld e.1
      let dec := sortBy (fun e => [deadRank e.2.2.deadline, e.2.1.lastRun, hIdx e.1]) (cands.filter fun e =>
        e.2.1.pend.isEmpty && e.2.1.kv.elim false Kv.xchgFull && d.untaken e.2.2.num < 65536)
      let pre := sortBy (fun e => [deadRank e.2.2.deadline, e.2.2.start, hIdx e.1]) (cands.filter fun e => !e.2.1.pend.isEmpty)
      let f := takeRows k.img.maxRows b decodeRow ⟨[], 0⟩ dec
      let f := takeRows k.img.maxRows b (prefillRow c) f pre
      let f := d.compressRows k.img.maxRows b c f (d.compressRuns m)
      let d := f.rows.foldl (fun d r => d.dropSpills x r.h) d
      let r := d.allocRows x f.rows
      let left := dec.any (fun e => !(f.rows.any fun r => r.h == e.1)) || pre.any fun e => !(f.rows.any fun r => r.h == e.1)
      let d := r.2.setBatch m { r.2.batch m with rows := r.1, decided := !r.1.isEmpty }
      { d with sch := { d.sch with latched := tset d.sch.latched (k.part * 65536 + m) (if left then 1 else 0) } }

/-- After an event: every model with sessions in its admission queue and no step decided or running decides its batch in
that tick (R246); a compressor run that waits does so too. -/
def Dev.schedule (d : Dev) (x : Ctx) : Dev :=
  (tkeys d.grid.mdls).foldl (fun d m =>
    let b := d.batch m
    if !b.running && !b.decided && (!b.queue.isEmpty || !(d.compressRuns m).isEmpty) then d.decide_ x m else d) d

/-! ### The start of a step (R222, R250, R288) -/

/-- The mask of a row with a grammar, written at its area (R288). -/
def Dev.writeMask (d : Dev) (x : Ctx) (step num : Nat) : Dev :=
  match d.req num with
  | none => d
  | some r =>
    match r.gram with
    | none => d
    | some g =>
      let mk := d.gramMask g r.vocabSize
      let bs := leBytes 8 step ++ leBytes 4 r.vocabSize ++ leBytes 4 (if mk.2 then 1 else 0) ++ List.replicate 48 0 ++ mk.1
      let n := (bs.length + 1023) / 1024
      let bd : List Nat × Dev :=
        if r.maskBlks.isEmpty then (d.takeArea (hPart r.h) n).getD ([], d.kvShort x (hPart r.h)) else (r.maskBlks, d)
      let d := bd.2.setReq num { r with maskBlks := bd.1, gram := some { g with dead := g.dead || mk.2 } }
      match bd.1 with
      | a :: _ => d.hbmPut x a (bs.take (1024 * bd.1.length))
      | [] => d

/-- The device address of a share's first granule, 0 where it is not in HBM. -/
def Dev.shareAddr (d : Dev) (id : Nat) : Nat :=
  match d.share id with
  | some s => match s.homes.head? with
    | some (.hbm a) => a
    | _ => 0
  | none => 0

/-- The 64-byte entry of a row in the step record (R250). -/
def Dev.rowEntry (d : Dev) (r : Row) : List Byte :=
  let s := (d.sesOf r.h).getD (Ses.free 0 0)
  let q := d.req r.req
  let t := q.elim Template.reset Request.tmpl
  let ver := tget d.sch.adapters (hPart r.h * 65536 + s.adapter)
  let adr := ver.elim 0 fun a => d.shareAddr a.share
  leBytes 4 r.h.toNat ++ leBytes 4 r.req ++ leBytes 4 r.pos ++ leBytes 2 r.count ++ leBytes 1 r.kind ++
    leBytes 1 ((if r.fallback then 1 else 0) + if r.masked then 2 else 0) ++ leBytes 8 (Config.tokensAddr r.h.toNat r.pos) ++ leBytes 8 adr ++ leBytes 2 s.adapter ++
    leBytes 2 t.topK ++ leBytes 4 t.temp.toNat ++ leBytes 4 (t.seed.toNat + q.elim 0 Request.generated) ++ List.replicate 4 0 ++
    leBytes 8 (q.elim 0 fun r => (r.maskBlks.head?).getD 0) ++ leBytes 8 (Config.outAddr r.h.toNat r.pos)

/-- The step record (R250). -/
def Dev.stepRecord (d : Dev) (x : Ctx) (m step : Nat) (rows : List Row) : List Byte :=
  let dec := (rows.filter fun r => r.kind == 0).length
  let pre := nsum (rows.map fun r => if r.kind = 0 then 0 else r.count)
  leBytes 4 step ++ leBytes 2 rows.length ++ leBytes 2 dec ++ leBytes 4 pre ++ leBytes 2 m ++ List.replicate 2 0 ++ leBytes 8 x.now ++
    List.replicate 40 0 ++ rows.flatMap d.rowEntry

/-- The step record written into buffer 15 of every core, which a waiting core then reads (R250), and the step's descriptors on its
channel 14 (R222). -/
def Dev.startCores (d : Dev) (k : Mdl) (rec_ : List Byte) (descs : List (List Byte)) : Dev :=
  k.cores.foldl (fun d n =>
    let c := d.core n
    let off := ((c.bufs[15]?).getD (0, 0, false)).1
    (d.lsWrite n off rec_).setCore n { d.core n with inStep := true, fresh := true, done := false, engineNs := 0, ctrl := descs }) d

/-- BATCH_STEP_START; it waits while a granule that it pins is in copy (R115). -/
def stepStart (m : Nat) (x : Ctx) (d : Dev) : Dev :=
  let b := d.batch m
  match d.mdl m with
  | none => d
  | some k =>
    if !b.decided || b.running || k.st != .resident || k.reloading then d
    else
      let step := b.step + 1
      let rows := b.rows.filter fun r => (d.sesOf r.h).elim false fun s => if r.kind = 3 then s.state == .moving else (s.state == .opened || s.state == .running) && s.request == r.req
      if rows.isEmpty then d.setBatch m { b with decided := false, rows := [] }
      else
      let rows := rows.map fun r => { r with pages := d.rowGrans r }
      if rows.any fun r => r.pages.any fun g => thas d.mem.copying g then d
      else
        let d := rows.foldl (fun d r => d.writeMask x step r.req) d
        let d := rows.foldl (fun d r => d.pinAll r.pages) d
        let d := rows.foldl (fun d r =>
          match d.sesOf r.h with
          | some s => if s.state = .opened then d.goto x r.h { s with lastRun := x.now } .running else d.setSes r.h { s with lastRun := x.now }
          | none => d) d
        let q := nsum (rows.map fun r => if r.kind = 0 then 0 else r.count)
        let d := d.setBatch m { b with
          step := step
          rows := rows
          decided := false
          running := true
          startAt := x.now
          lastD := (rows.filter fun r => r.kind == 0).length
          lastQ := q }
        let d := (d.startCores k (d.stepRecord x m step rows) (d.stepDescs step rows)).setMdl m { k with lastRun := x.now, preStop := false }
        d.recPart x k.part .trace 0x301 (source 7 0) (wd (m + rows.length * 65536)) (wd step) (wd q)

/-! ### The end of a step (R79, R246, R255, R258) -/

/-- Engine time and shared bytes charged to a row's session: the first row takes the remainders (R258). -/
def Dev.chargeRows (d : Dev) (e w n rem_e rem_w : Nat) : Nat → List Row → Dev
  | _, [] => d
  | i, r :: rs =>
    let ns := e * r.count / n + if i = 0 then rem_e else 0
    let by_ := w * r.count / n + if i = 0 then rem_w else 0
    let p := hPart r.h
    let d := match d.sesOf r.h with
      | some s => d.setSes r.h { s with engineNs := (s.engineNs + ns) % 2 ^ 64, acct := s.acct }
      | none => d
    let d := { d with sch := { d.sch with engineNs := addTo d.sch.engineNs p ns, nsThisSec := addTo d.sch.nsThisSec (hKey r.h) ns } }
    (d.charge r.h 0 by_).chargeRows e w n rem_e rem_w (i + 1) rs

/-- The charge of a step: its cores' time, and the bytes of the prefetch entries that it ran. -/
def Dev.chargeStep (d : Dev) (m : Nat) (k : Mdl) (rows : List Row) : Dev :=
  let e := nsum (k.cores.map fun n => (d.core n).engineNs)
  let w := k.preBytes
  let d := d.setMdl m { (d.mdl m).getD k with preBytes := 0 }
  let n := max 1 (nsum (rows.map Row.count))
  let fe := nsum (rows.map fun r => e * r.count / n)
  let fw := nsum (rows.map fun r => w * r.count / n)
  (d.tapAdd k.part 0 e).chargeRows e w n (e - fe) (w - fw) 0 rows

/-- A row's tokens are in its context: positions, FILL, pending input (R222, R247). -/
def Dev.rowTaken (d : Dev) (r : Row) : Dev :=
  match d.sesOf r.h with
  | none => d
  | some s =>
    let s := { s with ctx := s.ctx + r.count, nextPos := s.nextPos + r.count, kv := s.kv.map fun k => k.fillTo (s.ctx + r.count) }
    let d := if r.kind = 0 then d.setSes r.h s else d.setPend r.h s (s.pend.drop r.count)
    match d.req r.req with
    | some q => if r.kind = 0 then d else d.setReq r.req { q with prefilled := q.prefilled + r.count }
    | none => d

/-- Whether a token of this tick is late: a completion in the deadline tick is on time (R25, R255). -/
def Request.isLate (r : Request) (now : Nat) : Bool := r.deadline != 0 && r.deadline < now

/-- Whether a request ends now, after a token. -/
def Request.over_ (r : Request) (now : Nat) : Bool :=
  r.endNow.isSome || r.eos || (r.tmpl.maxTokens != 0 && r.generated ≥ r.tmpl.maxTokens) || (r.isLate now && r.tmpl.late == 2)

/-- A generated token of a row (R255, R256, R281-R289); a row whose mask allowed nothing drops it. -/
def Dev.rowToken (d : Dev) (x : Ctx) (r : Row) (tok : Nat) : Dev :=
  match d.sesOf r.h, d.req r.req with
  | some s, some q =>
    if s.closePending then (d.finishReq x r.h true []).enterClosing x r.h
    else if q.endNow = some .aborted then (d.finishReq x r.h true []).afterReq x r.h
    else if q.gram.elim false GramSt.dead then
      ((d.setReq r.req { q with endNow := some .grammarDead }).finishReq x r.h false []).afterReq x r.h
    else
      let late := q.isLate x.now
      let o := d.hearToken r.req tok
      match o.1.req r.req with
      | none => o.1
      | some q =>
        if q.endNow = some .grammarDead then (o.1.finishReq x r.h false []).afterReq x r.h
        else
          let d := if late then o.1.bumpPart (hPart r.h) 0x07000C 1 else o.1
          let d := d.setReq r.req { q with anyLate := q.anyLate || late, anyFb := q.anyFb || r.fallback }
          if q.over_ x.now then (d.finishReq x r.h false o.2).afterReq x r.h
          else if o.2.isEmpty then d
          else
            let st : Status := if late then .deadlineLate else if r.fallback then .fallbackUsed else .ok
            d.sendRecord x r.req st.code 0 0 (replaceBad o.2.length o.2)
  | _, _ => d

/-- A row without a token: a request that is to end does so, a pending close closes. -/
def Dev.rowQuiet (d : Dev) (x : Ctx) (r : Row) : Dev :=
  match d.sesOf r.h, d.req r.req with
  | some s, some q =>
    if s.closePending then (d.finishReq x r.h true []).enterClosing x r.h
    else if q.endNow = some .aborted then (d.finishReq x r.h true []).afterReq x r.h
    else if q.isLate x.now && q.tmpl.late == 2 then
      ((d.setReq r.req { q with endNow := some .deadlineLate }).finishReq x r.h false []).afterReq x r.h
    else d
  | _, _ => d

/-- A compressor row has run (R94). -/
def Dev.rowCompressed (d : Dev) (x : Ctx) (r : Row) : Dev :=
  match d.sesOf r.h with
  | none => d
  | some s =>
    match s.move with
    | none => d
    | some m =>
      let left := m.runLeft - r.count
      let d := d.setSes r.h { s with move := some { m with runLeft := left } }
      if m.compressing ∧ left = 0 then d.parkCompressed x r.h else d

/-- The rows of a step, in order, each yielding row with its token. -/
def Dev.rowsEnd (d : Dev) (x : Ctx) : List Row → List Nat → Dev
  | [], _ => d
  | r :: rs, ts =>
    if r.kind = 3 then (d.rowCompressed x r).rowsEnd x rs ts
    else if r.kind = 1 then ((d.rowTaken r).rowQuiet x r).rowsEnd x rs ts
    else ((d.rowTaken r).rowToken x r ((ts.head?).getD 0)).rowsEnd x rs ts.tail

/-- RUNNING sessions of a model that have no row in the next step become OPEN (R78). -/
def Dev.idleRows (d : Dev) (x : Ctx) (m : Nat) (rows : List Row) : Dev :=
  rows.foldl (fun d r =>
    match d.sesOf r.h with
    | some s =>
      if s.state = .running ∧ !((d.batch m).rows.any fun t => t.h == r.h) then (d.goto x r.h s .opened).enqueue r.h else d
    | none => d) d

/-- The end of a step without its tokens: pins released, and the batch no longer running. -/
def Dev.stepOver (d : Dev) (m : Nat) : Dev :=
  let b := d.batch m
  let d := b.rows.foldl (fun d r => d.unpinAll r.pages) d
  let d := match d.mdl m with
    | some k => k.cores.foldl (fun (d : Dev) n => d.setCore n { d.core n with inStep := false, fresh := false, done := false, ctrl := [] }) d
    | none => d
  d.setBatch m { b with running := false, rows := [] }

/-- BATCH_STEP_END: every core of the placement has ended its step (R164, R246); it waits while a checkpoint has not copied the record of a
session in it (R358). -/
def stepEnd (m : Nat) (tokens : List Nat) (x : Ctx) (d : Dev) : Dev :=
  let b := d.batch m
  match d.mdl m with
  | none => d
  | some k =>
    if !b.running || !(k.cores.all fun n => (d.core n).done) || b.rows.any (fun r => d.ckpHead r.h) then d
    else
      let rows := b.rows
      let d := ((d.chargeStep m k rows).mergeCounts x m).stepOver m
      let d := d.setMdl m { (d.mdl m).getD k with repeated := false }
      let d := d.rowsEnd x rows tokens
      if k.st = .evicting then
        let d := d.finishEvict x m (k.evictAfter.getD false)
        ((d.idleRows x m rows).retryLoads x k.part).schedule x
      else ((d.decide_ x m).idleRows x m rows).schedule x

/-! ### The deadline monitor (R251-R253, R255) -/

/-- The projected completion of a request at a pass (R252). -/
def Dev.projection (d : Dev) (now : Nat) (s : Ses) (r : Request) : Nat :=
  let m := d.runModel s
  match d.mdl m with
  | none => 0
  | some k =>
    let c := max 1 (d.chunkOf m k)
    let p := s.pend.length
    let left := min (r.tmpl.maxTokens - r.generated) (max (r.tmpl.expect - r.generated) 1)
    let n := if p > 0 then (p + c - 1) / c + left - 1 else left
    let b := d.batch m
    let fA := max 1 d.speed.1
    let fB := max 1 d.speed.2
    let rows := (k.origin / 16, k.origin / 16 + k.img.height - 1)
    let f := if rows.2 < 8 then fA else if rows.1 ≥ 8 then fB else min fA fB
    let base := k.img.baseNs + k.img.rowNs * b.lastD + k.img.tokenNs * b.lastQ
    let t := (base * 1024 + f - 1) / f + 4000
    now + (n * t + 7) / 8

/-- A request switched to its fallback where R253 allows it; a session that waited for its primary waits no longer (R78). -/
def Dev.tryFallback (d : Dev) (x : Ctx) (s : Ses) (r : Request) : Dev :=
  let p := hPart r.h
  if r.fallback = 0 ∨ r.switched then d
  else if d.resident r.fallback then
    let d := (d.setReq r.num { r with switched := true }).bumpPart p 0x070010 1
    if s.state = .running then d
    else if s.state = .waiting then
      let w := clrBit s.waitReason 0
      let d := d.setSes r.h { s with waitReason := w }
      if w = 0 then d.enterOpen x r.h else d
    else (d.dequeue r.h).enqueue r.h
  else d.bumpPart p 0x070014 1

/-- One request in a pass. -/
def Dev.monitorOne (d : Dev) (x : Ctx) (num : Nat) : Dev :=
  match d.req num with
  | none => d
  | some r =>
    match d.sesOf r.h with
    | none => d
    | some s =>
      if s.state = .opened ∨ s.state = .running ∨ s.state = .waiting then
        let t := d.projection x.now s r
        let r := { r with projection := t }
        let d := d.setReq num r
        if r.deadline ≠ 0 ∧ t > r.deadline ∧ !r.tmpl.noProject then d.tryFallback x s r else d
      else d

/-- MONITOR_PASS: the pass that is due at the latest multiple of 12,500 ticks, once; a later tick is a delayed pass, which is counted
(R251). -/
def monitorPass (x : Ctx) (d : Dev) : Dev :=
  let due := x.now / 12500
  if due ≤ d.sch.monLast then d
  else
    let d := { d with sch := { d.sch with monLast := due } }
    let d := if x.now % 12500 = 0 then d else d.bumpDev 0x070100 1
    ((tkeys d.sch.reqs).foldl (fun d n => d.monitorOne x n) d).schedule x

/-- Whether a step in progress holds a session's row. -/
def Dev.rowRunning (d : Dev) (h : Word) : Bool := d.sch.batches.any fun b => b.2.running && b.2.rows.any fun r => r.h == h && r.kind != 3

/-- DEADLINE_EXPIRY (R255). -/
def deadlineExpiry (h : Word) (x : Ctx) (d : Dev) : Dev :=
  match d.sesOf h with
  | none => d
  | some s =>
    match d.req s.request with
    | none => d
    | some r =>
      if r.deadline = 0 ∨ r.deadline > x.now ∨ r.expired then d
      else
        let d := d.setReq r.num { r with expired := true }
        if r.tmpl.late = 1 then (if r.switched ∨ !d.resident r.fallback ∨ r.fallback = 0 then d else d.tryFallback x s { r with expired := true }).schedule x
        else if r.tmpl.late = 2 ∧ !d.rowRunning h then
          let d := d.setReq r.num { r with expired := true, endNow := some .deadlineLate }
          ((d.finishReq x h false []).afterReq x h).schedule x
        else d

/-! ### Opcodes (R260) -/

/-- REQ_TEMPLATE. -/
def reqTmpl (_ : Ctx) (q : Req) (d : Dev) : Ans :=
  match d.lookup q.part (q.w 2) with
  | .error st => .refuse st
  | .ok s =>
    let ok := q.clean [(2, top32), (3, 0xFFFFF), (4, 0xFFFFF), (5, 0xFFFFFF), (6, 0xFF33), (7, top32), (8, 0xFFFF), (9, top32)]
    if !ok ∨ q.f 3 19 0 = 0 ∨ q.f 6 1 0 = 3 ∨ q.f 6 15 8 > 63 then .refuse .badParam
    else if s.state = .free then .refuse .sessionState
    else
      let t : Template := ⟨q.f 3 19 0, q.f 4 19 0, q.f 5 23 0, q.f 6 1 0, bitAt (q.w 6).toNat 4, bitAt (q.w 6).toNat 5, q.f 6 15 8, q.w 7,
        q.f 8 15 0, q.w 9⟩
      .done .ok [] { d with sch := { d.sch with tmpls := tset d.sch.tmpls (hKey (q.w 2)) t } }

/-- REQ_CANCEL (R256): a request whose row computes ends with its step, any other at once. -/
def reqCancelCmd (x : Ctx) (q : Req) (d : Dev) : Ans :=
  let h := q.w 2
  match d.lookup q.part h with
  | .error st => .refuse st
  | .ok s =>
    if !q.clean [(2, top32)] then .refuse .badParam
    else
      match d.req s.request with
      | none => .done .ok [0] d
      | some r =>
        if d.rowRunning h then .done .ok [wd r.num] (d.setReq r.num { r with endNow := some .aborted })
        else .done .ok [wd r.num] (((d.finishReq x h true []).afterReq x h).schedule x)

/-- REQ_QUERY. -/
def reqQueryCmd (_ : Ctx) (q : Req) (d : Dev) : Ans :=
  match d.lookup q.part (q.w 2) with
  | .error st => .refuse st
  | .ok s =>
    if !q.clean [(2, top32)] then .refuse .badParam
    else
      match d.req s.request with
      | none => .done .ok [0, 0, 0, 0] d
      | some r => .done .ok [wd r.num, wd r.generated, loW r.projection, hiW r.projection] d

/-- SCH_MODEL_CFG (R254). -/
def schCfgCmd (_ : Ctx) (q : Req) (d : Dev) : Ans :=
  let m := q.f 2 15 0
  let fb := q.f 2 31 16
  let c := q.f 3 12 0
  let b := q.f 4 13 0
  match d.mdl m with
  | none => .refuse .badParam
  | some k =>
    let fbOk := fb = 0 ∨ (fb ≠ m ∧ (d.mdl fb).elim false fun g =>
      g.part == k.part && g.img.layers == k.img.layers && g.img.kvHeads == k.img.kvHeads && g.img.headDim == k.img.headDim && g.img.kvFmt == k.img.kvFmt)
    if k.part ≠ q.part ∨ !q.clean [(2, top32), (3, 0x1FFF), (4, 0x3FFF)] ∨ !fbOk ∨ c % 64 ≠ 0 ∨ c > 4096 ∨ (b ≠ 0 ∧ (b < 64 ∨ b > 8192)) then
      .refuse .badParam
    else .done .ok [] { d with sch := { d.sch with mcfg := tset d.sch.mcfg m (fb, c, b) } }

/-- The 64-byte accounting record of a session (R257). -/
def Ses.acctRecord (s : Ses) : List Byte := s.bytes.flatMap (leBytes 8)

/-- SCH_ACCT_READ. -/
def acctReadCmd (_ : Ctx) (q : Req) (d : Dev) : Ans :=
  match d.lookup q.part (q.w 2) with
  | .error st => .refuse st
  | .ok s =>
    if !q.clean [(2, top32), (3, top32), (4, top32)] ∨ q.d2 3 % 64 ≠ 0 then .refuse .badParam
    else
      let d := match q.fn with
        | some f => d.out (.hostWrite f.port (q.d2 3) s.acctRecord)
        | none => d
      .done .ok [loW s.engineNs, hiW s.engineNs, wd (s.energy / 1000), wd (nsum s.bytes / 4096)] d

def effBatchStepStart (m : Nat) (s : State) : Host.Outcome State Fault Refusal := onDev (stepStart m) s
def effBatchStepEnd (m : Nat) (ts : List Nat) (s : State) : Host.Outcome State Fault Refusal := onDev (stepEnd m ts) s
def effMonitorPass (s : State) : Host.Outcome State Fault Refusal := onDev monitorPass s
def effDeadlineExpiry (h : Word) (s : State) : Host.Outcome State Fault Refusal := onDev (deadlineExpiry h) s
def effReqTemplate (c : Cmd) (s : State) : Host.Outcome State Fault Refusal := hostCmd 0x0400 c reqTmpl s
def effReqCancel (c : Cmd) (s : State) : Host.Outcome State Fault Refusal := hostCmd 0x0402 c reqCancelCmd s
def effReqQuery (c : Cmd) (s : State) : Host.Outcome State Fault Refusal := hostCmd 0x0403 c reqQueryCmd s
def effSchModelCfg (c : Cmd) (s : State) : Host.Outcome State Fault Refusal := hostCmd 0x0410 c schCfgCmd s
def effSchAcctRead (c : Cmd) (s : State) : Host.Outcome State Fault Refusal := hostCmd 0x0411 c acctReadCmd s

end Sys2Proof.Machine
end

