-- ==== Sys2Proof/Machine/Ses.lean ====
section
/-! DEFINITION. The session commands but for moves, and the events of sessions (chapter 4). -/

namespace Sys2Proof.Machine

/-! ### SES_OPEN (R73-R75, R235, R238) -/

/-- The die for a new session (R75): the one named, or that with more free staging entries, on a tie that of the port the
partition is bound to. -/
def Dev.chooseDie (d : Dev) (p want : Nat) : Nat :=
  if want = 1 then 0
  else if want = 2 then 1
  else
    let a := d.stageFree 0
    let b := d.stageFree 1
    if a > b then 0 else if b > a then 1 else (d.boundPort p).getD 0

/-- The adapter version an open binds (R238, R239): 0xFFFF is the current version of the model's default line. -/
def Dev.bindAdapter (d : Dev) (p m v : Nat) : Option Nat :=
  if v = 0 then some 0
  else if v = 0xFFFF then
    (d.sch.lines.find? fun l => l.model == m && l.deflt && !l.retired).elim none fun l =>
      (d.sch.adapters.find? fun a => a.2.part == p && a.2.model == m && a.2.line == l.line && a.2.current).map fun a => a.1 % 65536
  else if (tget d.sch.adapters (p * 65536 + v)).elim false fun a => a.model == m then some v
  else none

/-- Whether a session may bind a prefix (R235). -/
def Dev.prefixOk (d : Dev) (p m v pf : Nat) : Bool :=
  pf == 0 || (d.share pf).elim false fun s => s.pfx && s.part == p && s.model == m && s.adapter == v

/-- A descriptor for a new session of a die: index and generation taken, accounting record zeroed (R257), references taken
(R236). The handle, or none where a resource is missing (R75). -/
def Dev.newSes (d : Dev) (x : Ctx) (p die m v pf comp win : Nat) (st : SesStateName) (mv : Option Movement) : Option (Word × Dev) :=
  if d.stageFree die = 0 then none
  else
    match d.takeIndex p die with
    | none => none
    | some (i, d) =>
      match d.takeBlk p with
      | none => none
      | some (blk, d) =>
        let old := d.sesAt p i
        let g := if old.gen ≥ 15 then 1 else old.gen + 1
        let h := handleOf p g i
        let s := { Ses.free g die with
          model := m
          adapter := v
          pfx := pf
          compressor := comp
          window := win
          acct := blk
          move := mv }
        let d := (d.setSes h s).hbmZero blk 1024
        some (h, (if pf = 0 then d else d.shareRef pf).goto x h s st)

/-- SES_OPEN: the session enters OPEN with the exchange pages that can be had (R214, R215). -/
def sesOpenCmd (x : Ctx) (q : Req) (d : Dev) : Ans :=
  let p := q.part
  let m := q.f 2 15 0
  let pf := (q.w 3).toNat
  let w := q.f 4 15 0
  let c := q.f 4 31 16
  let want := q.f 5 1 0
  match d.mdl m with
  | none => .refuse .badParam
  | some k =>
    if !q.clean [(2, top32), (3, top32), (4, top32), (5, 3)] ∨ k.part ≠ p ∨ k.img.headDim % 32 ≠ 0 ∨ want = 3 ∨
        (w ≠ 0 ∧ (w % 64 ≠ 0 ∨ w > 16384)) ∨ (c ≠ 0 ∧ c ≠ 0xFFFF ∧ !(d.mdl c).elim false fun k => k.part == p) then .refuse .badParam
    else
      match d.bindAdapter p m (q.f 2 31 16) with
      | none => .refuse .badParam
      | some v =>
        if !d.prefixOk p m v pf then .refuse .badParam
        else
          let comp := if c = 0xFFFF then 0 else if c = 0 then fld (d.partReg p 0x030008) 15 0 else c
          let win := if w = 0 then fld (d.partReg p 0x030000) 14 0 else w
          let die := d.chooseDie p want
          match d.newSes x p die m v pf comp win .opened none with
          | none => .refuse .noResource
          | some (h, d) => .done .ok [h, wd (v + die * 65536)] (d.sesXchg x h)

/-! ### SES_PARK, SES_REVIVE, SES_CLOSE, SES_QUERY -/

/-- SES_PARK (R95, R96); it waits while Sheaf has not copied the record (R358). -/
def sesParkCmd (x : Ctx) (q : Req) (d : Dev) : Ans :=
  let h := q.w 2
  match d.lookup q.part h with
  | .error st => .refuse st
  | .ok s =>
    if !q.clean [(2, top32), (3, 3)] then .refuse .badParam
    else if s.state ≠ .warm then .refuse .sessionState
    else if d.ckpHolds h then .accept [] (.held 0x0101 q.words) d
    else
      match d.parkBegin x h q.seq (bitAt (q.w 3).toNat 1) (bitAt (q.w 3).toNat 0) with
      | (true, d) => .accept [] (.parkSes h) d
      | (false, d) => .both [] .doesNotFit [] (d.parkBack x h)

/-- SES_REVIVE (R81, R82, R98); on a PARKED session that already waits for a staging entry it joins that revive. -/
def sesReviveCmd (x : Ctx) (q : Req) (d : Dev) : Ans :=
  let h := q.w 2
  let only := bitAt (q.w 3).toNat 0
  match d.lookup q.part h with
  | .error st => .refuse st
  | .ok s =>
    if !q.clean [(2, top32), (3, 1)] then .refuse .badParam
    else
      match s.state with
      | .warm =>
        if only ∨ s.pend.isEmpty then .both [] .ok [wd 4] d
        else .both [] .ok [wd 1] ((d.enterOpen x h).schedule x)
      | .parked =>
        match s.move with
        | some m => .accept [] (.reviveSes h) (d.setSes h { s with move := some { m with restoreOnly := only && (m.restoreOnly || m.byWake) } })
        | none => .accept [] (.reviveSes h) (d.startRevive x h { Movement.new 2 q.seq false with restoreOnly := only })
      | _ => .refuse .sessionState

/-- SES_CLOSE (R17, R80, R81, R83); it waits while Sheaf has not copied the record (R358). On a RUNNING or MOVING session whose close
is already pending it joins that close (log entry 90). -/
def sesCloseCmd (x : Ctx) (q : Req) (d : Dev) : Ans :=
  let h := q.w 2
  match d.lookup q.part h with
  | .error st => .refuse st
  | .ok s =>
    if !q.clean [(2, top32)] then .refuse .badParam
    else if s.state = .free ∨ s.state = .closing then .refuse .sessionState
    else if d.ckpHolds h then .accept [] (.held 0x0103 q.words) d
    else if s.state = .running ∨ s.state = .moving then
      .accept [] (.closeSes h) (d.setSes h { s with closePending := true, closeOp := q.seq })
    else
      .accept [] (.closeSes h) (((d.setSes h { s with closeOp := q.seq }).enterClosing x h).schedule x)

/-- SES_QUERY. -/
def sesQueryCmd (_ : Ctx) (q : Req) (d : Dev) : Ans :=
  let h := q.w 2
  match d.lookup q.part h with
  | .error st => .refuse st
  | .ok s =>
    if !q.clean [(2, top32), (3, top32), (4, top32)] ∨ q.d2 3 % 128 ≠ 0 then .refuse .badParam
    else
      let d := match q.fn with
        | some f => if q.d2 3 = 0 then d else d.out (.hostWrite f.port (q.d2 3) (s.image h))
        | none => d
      .done .ok [wd (s.word0 h), wd s.ctx, wd s.pend.length, wd s.word34] d

/-! ### SES_AWAIT and SES_SIGNAL (R84, R106) -/

/-- A slot prepared by SES_AWAIT, and armed at once on a WARM session. -/
def awaitSlot (q : Req) (warm : Bool) : Slot :=
  { Slot.empty with
    kind := q.f 3 11 8
    tokenize := bitAt (q.w 3).toNat 12
    prepared := true
    armed := warm
    cmp := q.d2 4
    textOff := bufOff (q.w 6).toNat (q.f 7 7 0)
    textLen := q.f 7 28 16 }

/-- SES_AWAIT: prepare, withdraw, or WAKE_ALL and the deadline only. A prepare on a WARM session arms the slot at once. -/
def sesAwaitCmd (x : Ctx) (q : Req) (d : Dev) : Ans :=
  let h := q.w 2
  let op := q.f 3 5 4
  let n := q.f 3 2 0
  let k := q.f 3 11 8
  match d.lookup q.part h with
  | .error st => .refuse st
  | .ok s =>
    if !q.clean [(2, top32), (3, 0x11F37), (4, top32), (5, top32), (6, top32), (7, 0x1FFF00FF), (8, top32), (9, top32)] ∨ op = 3 ∨
        (op = 0 ∧ (k = 0 ∨ k > 3)) ∨ q.f 7 28 16 > 4096 then .refuse .badParam
    else if s.state = .free ∨ s.state = .closing ∨ (s.state = .moving ∧ s.move.elim false fun m => m.kind == 3) then .refuse .sessionState
    else
      let set (s : Ses) : Ses := { s with wakeAll := bitAt (q.w 3).toNat 16, waitTicks := q.d2 8 }
      let s' : Ses :=
        if op = 0 then
          let s : Ses := { set s with slots := s.slots.set n (awaitSlot q (s.state == .warm)) }
          if s.state = .warm then { s with waitDeadline := s.deadlineAt x.now } else s
        else if op = 1 then { s with slots := s.slots.set n Slot.empty }
        else set s
      let d := if op = 1 then d.withdrawAll x (d.slotEwrs h n) else d
      .done .ok [wd s'.word34] (d.setSes h s')

/-- Whether a wake would be met by slot n firing now with tokens. -/
def Ses.wouldWake (s : Ses) (n : Nat) : Bool :=
  match s.slots[n]? with
  | none => false
  | some l =>
    (s.state == .warm || s.state == .parked || s.state == .moving) && l.armed && l.tokenize &&
      { s with slots := s.slots.set n { l with fired := true } }.wakeMet

/-- SES_SIGNAL. -/
def sesSignalCmd (_ : Ctx) (q : Req) (d : Dev) : Ans :=
  let h := q.w 2
  let n := q.f 3 2 0
  match d.lookup q.part h with
  | .error st => .refuse st
  | .ok s =>
    match s.slots[n]? with
    | none => .refuse .badParam
    | some l =>
      if !q.clean [(2, top32), (3, 7)] then .refuse .badParam
      else if s.state = .free ∨ s.state = .closing ∨ (s.state = .moving ∧ s.move.elim false fun m => m.kind == 3) then .refuse .sessionState
      else if !l.prepared ∨ l.kind ≠ 3 then .refuse .badParam
      else .done .ok [if s.wouldWake n then 1 else 0] (d.slotEvent h n l.textOff l.textLen none)

/-! ### Events of slots and waits (R84-R88) -/

/-- SLOT_FIRE: a slot whose event has completed, after its tokens are appended. -/
def slotFired (h : Word) (n len : Nat) (x : Ctx) (d : Dev) : Dev :=
  match d.sesOf h with
  | none => d
  | some s =>
    match s.slots[n]? with
    | none => d
    | some l => if l.due && l.len == len then (d.fireSlot x h n).schedule x else d

/-- Whether a slot's text is with Spelt. -/
def Dev.slotBusy (d : Dev) (h : Word) (n : Nat) : Bool := d.txt.reqs.any fun r => r.h == h && r.src == .slot n

/-- TIMER_SLOT_FIRE: device time has reached the compare value of a prepared TIMER slot. -/
def timerSlot (h : Word) (n : Nat) (x : Ctx) (d : Dev) : Dev :=
  match d.sesOf h with
  | none => d
  | some s =>
    match s.slots[n]? with
    | none => d
    | some l =>
      if l.kind = 2 ∧ l.prepared ∧ l.cmp ≤ x.now ∧ !l.due ∧ !d.slotBusy h n then d.slotEvent h n l.textOff l.textLen none else d

/-- The armed NET slots of a session. -/
def Ses.armedNet (s : Ses) : List Nat := (List.range 8).filter fun n => (s.slots[n]?).elim false fun l => l.armed && l.kind == 1

/-- WAIT_EXPIRY (R87). -/
def waitExpired (h : Word) (x : Ctx) (d : Dev) : Dev :=
  match d.sesOf h with
  | none => d
  | some s =>
    if s.waitDeadline = 0 ∨ s.waitDeadline > x.now ∨ s.state = .free ∨ s.state = .closing then d
    else
      let d := d.withdrawAll x (s.armedNet.flatMap fun n => d.slotEwrs h n)
      let s : Ses := { s with
        slots := s.slots.map fun l => { l with armed := false, fired := false }
        waitExpired := true
        waitDeadline := 0 }
      (d.setSes h s).sesLog x h 0x205 0 0

/-! ### Parks by firmware, and the ends of parks, revives and closes -/

/-- PARK_AFTER_EXPIRY (SES_PARK_CFG.PARK_AFTER). -/
def parkAfter (h : Word) (x : Ctx) (d : Dev) : Dev :=
  match d.sesOf h with
  | none => d
  | some s =>
    let ms := fld (d.parkCfg (hPart h)) 19 0
    if s.state = .warm ∧ ms ≠ 0 ∧ s.since + ms * ticksMs ≤ x.now ∧ !d.ckpHolds h then d.firmwarePark x h else d

/-- The parks that run on a die. -/
def Dev.parking (d : Dev) (die : Nat) : Nat :=
  (d.ses.tbl.filter fun s => s.2.state == .moving && s.2.die == die && s.2.move.elim false fun m => m.kind == 1).length

/-- The WARM session of a die with the oldest LAST_RUN, as key and descriptor. -/
def oldestWarm (die : Nat) : List (Nat × Ses) → Option (Nat × Ses)
  | [] => none
  | s :: l =>
    let r := oldestWarm die l
    if s.2.state = .warm ∧ s.2.die = die then
      match r with
      | some t => if s.2.lastRun ≤ t.2.lastRun then some s else some t
      | none => some s
    else r

/-- STAGING_HIGH_PARK (R76); sessions already being parked no longer count. -/
def highPark (die : Nat) (x : Ctx) (d : Dev) : Dev :=
  if (d.staged die - d.parking die) * 100 > 262144 * fld (d.devReg 0x030200) 6 0 then
    match oldestWarm die d.ses.tbl with
    | some s =>
      let h := handleOf (s.1 / 2 ^ 24) s.2.gen (s.1 % 2 ^ 24)
      if d.ckpHolds h then d else d.firmwarePark x h
    | none => d
  else d

/-- PARK_WRITE_CONFIRMED (R95). -/
def parkWritten (h : Word) (x : Ctx) (d : Dev) : Dev :=
  match d.sesOf h with
  | none => d
  | some s =>
    if s.state = .moving ∧ (s.move.elim false fun m => m.kind == 1 && m.written && !m.compressing) then (d.parkDone x h).schedule x else d

/-- STAGING_ENTRY_FREE_REVIVE (R99). -/
def stagingFree (h : Word) (x : Ctx) (d : Dev) : Dev :=
  match d.sesOf h with
  | none => d
  | some s =>
    match s.move with
    | some m => d.startRevive x h m
    | none => d

/-- Whether text of a REQ_SUBMIT is with Spelt: a revive that it called for ends when its tokens are appended (R82). -/
def Dev.submitting (d : Dev) (h : Word) : Bool :=
  d.txt.reqs.any fun r => r.h == h && match r.src with
    | .submit _ => true
    | _ => false

/-- REVIVE_DECODE_END (R98). -/
def reviveDone (h : Word) (x : Ctx) (d : Dev) : Dev :=
  match d.sesOf h with
  | none => d
  | some s => if s.move.elim false Movement.readStarted && !d.submitting h then (d.reviveDecode x h).schedule x else d.reviveAlloc x h

/-- CLOSE_RELEASE_DONE (R83). -/
def closeReleased (h : Word) (x : Ctx) (d : Dev) : Dev := (d.closeDone x h).schedule x

/-- The handles of sessions that are being revived from an object that holds a unit. -/
def Dev.revivingFrom (d : Dev) (u : Nat) : List Word :=
  (d.ses.tbl.filter fun s => s.2.state == .moving && s.2.move.elim false fun m =>
    m.kind == 2 && (tget d.nand.objs m.obj).elim false fun o => o.units.contains u).map fun s =>
      handleOf (s.1 / 2 ^ 24) s.2.gen (s.1 % 2 ^ 24)

/-- NAND_READ_COMPLETE (R126, R101): a read of a unit; a revive that has its pages has begun to read with its first unit, and fails at a
unit that cannot be read. A revive that waits for pages tries again (R98). -/
def nandRead (u : Nat) (res : NandRead) (x : Ctx) (d : Dev) : Dev :=
  let d := d.nandDone x u res
  let bad := (tget d.nand.units u).elim false fun v => v.state == 2
  ((d.revivingFrom u).foldl (fun d h =>
    let d := d.reviveAlloc x h
    match d.sesOf h with
    | some s =>
      if s.kv.isNone then d
      else if bad then d.reviveLost x h
      else d.setSes h { s with move := s.move.map fun m => { m with readStarted := true } }
    | none => d) d).schedule x

def effSesOpen (c : Cmd) (s : State) : Host.Outcome State Fault Refusal := hostCmd 0x0100 c sesOpenCmd s
def effSesPark (c : Cmd) (s : State) : Host.Outcome State Fault Refusal := hostCmd 0x0101 c sesParkCmd s
def effSesRevive (c : Cmd) (s : State) : Host.Outcome State Fault Refusal := hostCmd 0x0102 c sesReviveCmd s
def effSesClose (c : Cmd) (s : State) : Host.Outcome State Fault Refusal := hostCmd 0x0103 c sesCloseCmd s
def effSesQuery (c : Cmd) (s : State) : Host.Outcome State Fault Refusal := hostCmd 0x0105 c sesQueryCmd s
def effSesAwait (c : Cmd) (s : State) : Host.Outcome State Fault Refusal := hostCmd 0x0107 c sesAwaitCmd s
def effSesSignal (c : Cmd) (s : State) : Host.Outcome State Fault Refusal := hostCmd 0x0108 c sesSignalCmd s
def effTimerSlotFire (h : Word) (n : Nat) (s : State) : Host.Outcome State Fault Refusal := onDev (timerSlot h n) s
def effWaitExpiry (h : Word) (s : State) : Host.Outcome State Fault Refusal := onDev (waitExpired h) s
def effParkAfterExpiry (h : Word) (s : State) : Host.Outcome State Fault Refusal := onDev (parkAfter h) s
def effStagingHighPark (die : Nat) (s : State) : Host.Outcome State Fault Refusal := onDev (highPark die) s
def effParkWriteConfirmed (h : Word) (s : State) : Host.Outcome State Fault Refusal := onDev (parkWritten h) s
def effStagingEntryFreeRevive (h : Word) (s : State) : Host.Outcome State Fault Refusal := onDev (stagingFree h) s
def effReviveDecodeEnd (h : Word) (s : State) : Host.Outcome State Fault Refusal := onDev (reviveDone h) s
def effCloseReleaseDone (h : Word) (s : State) : Host.Outcome State Fault Refusal := onDev (closeReleased h) s
def effNandReadComplete (u : Nat) (r : NandRead) (s : State) : Host.Outcome State Fault Refusal := onDev (nandRead u r) s

end Sys2Proof.Machine
end

