-- ==== Sys2Proof/Machine/CkpOps.lean ====
section
/-! DEFINITION. Sheaf: the stream of a checkpoint, its shards, manifests and commit record, and the restore of a stream (R355-R368).
The rows that drive it are in Ckp.lean. The forms of the messages between members, of a job manifest entry's fields and of the map are
the model's where the spec gives none (log entry 29). -/

namespace Sys2Proof.Machine

/-! ### Jobs -/

def Dev.job (d : Dev) (j : Nat) : Option CkpJob := tget d.ckp.jobs j
def Dev.setJob (d : Dev) (j : Nat) (k : CkpJob) : Dev := { d with ckp := { d.ckp with jobs := tset d.ckp.jobs j k } }

/-- Whether a rank is a live member; the keeper is the lowest live rank (R361, R368). -/
def CkpJob.alive (k : CkpJob) (r : Nat) : Bool := r < k.n && !k.lost.contains r
def CkpJob.liveRanks (k : CkpJob) : List Nat := (List.range k.n).filter k.alive
def CkpJob.keeper (k : CkpJob) : Nat := (k.liveRanks.head?).getD 0
def CkpJob.keeps (k : CkpJob) : Bool := k.keeper == k.rank

/-- The job area of a REMOTE job (R362): a rank's slot, a job manifest, a commit record. -/
def CkpJob.slotAt (k : CkpJob) (r s : Nat) : Nat := 0x4000000 + (2 * r + s) * (k.slot * 0x4000000)
def jobManAt (s : Nat) : Nat := 0x1000000 + s * 0x1800000
def commitAt (s : Nat) : Nat := s * 0x1000

/-- CKP_CFG of a run: COMMIT_MS, DEDUP_MS, INFLIGHT. -/
def CkpRun.commitMs (r : CkpRun) : Nat := fld r.cfg 31 16
def CkpRun.dedupMs (r : CkpRun) : Nat := fld r.cfg 15 8
def CkpRun.inflight (r : CkpRun) : Nat := fld r.cfg 3 0

/-! ### The stream (R356) -/

/-- The session record of an item: descriptor, pending input, and an image with no position quantized, or the stored image. -/
def Dev.sesRecord (d : Dev) (p : Nat) (h : Word) : Option (List Byte) :=
  match d.sesOf h with
  | none => none
  | some s =>
    if s.state = .free then none
    else
      let img := if s.kv.isNone ∧ s.parkLoc ≠ 0 then d.readObj s.parkLoc else some (d.encode p { s with window := s.ctx } false false)
      img.map fun i => s.image h ++ wordBytes (s.pend.map wd) ++ i

/-- The bytes of descriptor and pending input in a session record. -/
def recordHead (b : List Byte) : Nat := 128 + 4 * leAt b 0x20 4

/-- The regions of an item of a size: start within the item, and length. A session record's first region is its descriptor and
pending input; everything else is cut into pieces of 2 MiB. -/
def itemRegions (size head : Nat) : List (Nat × Nat) :=
  (if head = 0 then [] else [(0, head)]) ++
    (List.range ((size - head + 2097151) / 2097152)).map fun i => (head + i * 2097152, min 2097152 (size - head - i * 2097152))

/-- Start of item i in the stream. -/
def itemStart (sizes : List Nat) (i : Nat) : Nat := nsum (sizes.take i)

/-- The head of an item's record, zero for other items. -/
def CkpRun.head (r : CkpRun) (i : Nat) : Nat := (tget r.snap i).elim 0 recordHead

/-- The regions of a stream: start, length, item, region. -/
def CkpRun.regions (r : CkpRun) : List (Nat × Nat × Nat × Nat) :=
  (List.range r.sizes.length).flatMap fun i =>
    (itemRegions ((r.sizes[i]?).getD 0) (r.head i)).mapIdx fun n g => (itemStart r.sizes i + g.1, g.2, i, n)

/-- The segments of a stream: maximal runs of items with the same GROUP, as group, start and length. -/
def segmentsOf : Nat → List (CkpItem × Nat) → List (Nat × Nat × Nat)
  | _, [] => []
  | at_, (i, n) :: l =>
    match segmentsOf (at_ + n) l with
    | (g, s, m) :: t => if g = i.group then (g, at_, n + m) :: t else (i.group, at_, n) :: (g, s, m) :: t
    | [] => [(i.group, at_, n)]

/-- The shards of a stream: 64 MiB pieces of each segment. -/
def shardsOf (rank : Nat) (l : List (CkpItem × Nat)) : List CkpShard :=
  (segmentsOf 0 l).flatMap fun s => (List.range ((s.2.2 + 0x3FFFFFF) / 0x4000000)).map fun i =>
    ⟨s.1, i, s.2.1 + i * 0x4000000, min 0x4000000 (s.2.2 - i * 0x4000000), 0, 0, rank, 0, 0, []⟩

/-- Whether two ranges overlap. -/
def overlap (a n b m : Nat) : Bool := a < b + m && b < a + n

/-- The regions that a shard takes bytes of. -/
def CkpRun.regionsOf (r : CkpRun) (s : CkpShard) : List (Nat × Nat × Nat × Nat) := r.regions.filter fun g => overlap g.1 g.2.1 s.off s.len

/-- The bytes of a shard once every region of it is copied. -/
def CkpRun.shardBytes (r : CkpRun) (s : CkpShard) : Option (List Byte) :=
  let gs := r.regionsOf s
  if gs.all fun g => thas r.data (g.2.2.1 * 2 ^ 24 + g.2.2.2) then
    let all := gs.flatMap fun g => tgetD r.data (g.2.2.1 * 2 ^ 24 + g.2.2.2) []
    some ((all.drop (s.off - (gs.head?).elim 0 Prod.fst)).take s.len)
  else none

/-- Whether a shard holds a shard buffer (R360): some of it is copied, and the target has not confirmed it. -/
def CkpRun.holds (r : CkpRun) (s : CkpShard) : Bool :=
  s.st != 3 && s.st != 4 && (s.st != 0 || (r.regionsOf s).any fun g => thas r.data (g.2.2.1 * 2 ^ 24 + g.2.2.2))

/-- Whether a region may be copied: its shards have buffers, one buffer being kept for the in-order cursor (R360), and no session's
descriptor and pending input waits before it (R358). -/
def CkpRun.mayCopy (r : CkpRun) (items : List CkpItem) (stage item region : Nat) : Bool :=
  let first := r.unreached.filter fun u => u.2 == 0 && (items[u.1]?).elim false fun i => i.kind == 1
  let mine := r.shards.filter fun s => (r.regionsOf s).any fun g => g.2.2.1 == item && g.2.2.2 == region
  let cursor := r.shards.find? fun s => s.st == 0
  let new := mine.filter fun s => !r.holds s
  let used := (r.shards.filter r.holds).length + new.length
  let side := ((r.shards.filter fun s => r.holds s && some s != cursor).length) + (new.filter fun s => some s != cursor).length
  r.unreached.contains (item, region) && (first.isEmpty || first.contains (item, region)) && used ≤ stage && side + 1 ≤ stage

/-! ### Unreached regions (R358, R359) -/

/-- The buffer-table entries that running checkpoints have not copied yet. -/
def Dev.ckpMarks (d : Dev) : Dev :=
  let l := d.ckp.jobs.flatMap fun j => j.2.run.elim [] fun r => r.unreached.filterMap fun u =>
    match j.2.items[u.1]? with
    | some i => if i.kind = 0 then some (bufKey j.2.part (i.first + u.2)) else none
    | none => none
  { d with mem := { d.mem with unreached := l } }

/-- Writes that stalled go on in their order once no checkpoint holds them; the time of the stall counts (R359). -/
def Dev.ckpFlush (d old : Dev) (x : Ctx) : List Stalled → Dev
  | [] => d
  | w :: ws =>
    let keep : Dev := { d with mem := { d.mem with stalled := d.mem.stalled ++ [w] } }
    match old.unreachedAt w.addr w.bytes.length, d.unreachedAt w.addr w.bytes.length with
    | some k, none =>
      let c := ((gransOf w.addr w.bytes.length).any fun g => thas d.mem.copying g)
      let t (d : Dev) : Dev := d.bumpPart (k / 524288) 0x0C000C ((x.now - w.since) / 125)
      if c then (t keep).ckpFlush old x ws else (t (d.pathPut x w.addr w.bytes w.bad)).ckpFlush old x ws
    | _, _ => keep.ckpFlush old x ws

/-- A job replaced, with the marks that follow from it and the writes that may go on. -/
def Dev.putJob (d : Dev) (x : Ctx) (j : Nat) (k : CkpJob) : Dev :=
  let n := (d.setJob j k).ckpMarks
  ({ n with mem := { n.mem with stalled := [] } }).ckpFlush d x d.mem.stalled

/-! ### Writing to the target (R335, R362) -/

/-- An FTL object written in the bulk region for a LOCAL job, with the operation under which its units wait at the NAND shaper: they start
without waiting for credit, down to -BURST (R335). None where the partition has no room. -/
def Dev.ckpObj (d : Dev) (p : Nat) (kind : NandKind) (bs : List Byte) : Option (Nat × Nat × Dev) :=
  if !d.nandFits p (unitsFor bs.length) then none
  else
    match d.placeUnits p true (unitData bs) with
    | none => none
    | some (us, d) =>
      let id := d.nextSeq
      let o := ({ d with nextSeq := id + 1 }.shapeNand p 4 4 id us).newObj p kind us bs.length false
      some (o.1, id, o.2)

/-- Work requests that Sheaf posts on the store queue pair, in pieces (kind 2 WRITE, 4 READ). -/
def Dev.sheafPost (d : Dev) (x : Ctx) (p n kind : Nat) (key : Word) : List (Nat × List Byte) → Option (List Nat × Dev)
  | [] => some ([], d)
  | (va, bs) :: l =>
    let id := d.nextSeq
    match d.netPost x .sheaf p n kind bs va key 0 with
    | none => none
    | some d => (d.sheafPost x p n kind key l).map fun r => (id :: r.1, r.2)

/-- The pieces of a string at an address of the job area, each of at most 1,024 packets. -/
def Dev.sheafPieces (d : Dev) (k : CkpJob) (at_ : Nat) (bs : List Byte) : List (Nat × List Byte) :=
  let size := 1024 * (d.qp k.store).elim 1 Qp.mtu
  ((chunks size (bs.length / size + 1) bs).mapIdx fun i c => (k.area + at_ + i * size, c)).filter fun c => !c.2.isEmpty
def Dev.storeWrite (d : Dev) (x : Ctx) (k : CkpJob) (at_ : Nat) (bs : List Byte) : Option (List Nat × Dev) :=
  d.sheafPost x k.part k.store 2 k.key (d.sheafPieces k at_ bs)
def Dev.storeRead (d : Dev) (x : Ctx) (k : CkpJob) (at_ len : Nat) : Option (List Nat × Dev) :=
  d.sheafPost x k.part k.store 4 k.key (d.sheafPieces k at_ (List.replicate len 0))

/-- Work requests and NAND writes of Sheaf that have not started are dropped, and their outcomes forgotten. -/
def Dev.sheafDrop (d : Dev) (n : Nat) (ops : List Nat) : Dev :=
  let gone := ((d.qp n).elim [] fun q => q.sends.filter fun s => !s.started && ops.contains s.op).map Send.op
  let d := match d.qp n with
    | none => d
    | some q => d.setQp n { q with sends := q.sends.filter fun s => !gone.contains s.op }
  let d := d.unshape fun u => match u.what with
    | .nand o _ => ops.contains o
    | _ => false
  { d with ops := d.ops.filter fun o => !gone.contains o.1, net := { d.net with got := d.net.got.filter fun g => !ops.contains g.1 } }

/-! ### Records on the target (R363, R364) -/

def manifestHeader (job rank seq tick count : Nat) : List Byte :=
  leBytes 4 0x31464E4D ++ leBytes 2 job ++ leBytes 2 rank ++ leBytes 8 seq ++ leBytes 8 tick ++ leBytes 4 count ++ List.replicate 36 0
def shardEntry (s : CkpShard) : List Byte :=
  leBytes 8 (s.index + s.group * 2 ^ 48) ++ leBytes 4 s.len ++ leBytes 2 s.writer ++ leBytes 2 0 ++ leBytes 16 s.loc ++ leBytes 64 s.digest.toNat

/-- The member manifest of a run. -/
def CkpRun.manifest (r : CkpRun) (job rank : Nat) : List Byte :=
  manifestHeader job rank r.seq r.tick r.shards.length ++ r.shards.flatMap shardEntry

/-- The job manifest: one entry for each live rank with its report. -/
def CkpRun.jobManifest (r : CkpRun) (job : Nat) (k : CkpJob) : List Byte :=
  manifestHeader job 0xFFFF r.seq r.tick k.liveRanks.length ++ k.liveRanks.flatMap fun n =>
    let e := tgetD r.reports n (0, 0, 0)
    leBytes 4 n ++ leBytes 4 e.2.1 ++ leBytes 8 e.1 ++ leBytes 64 e.2.2.toNat

/-- The commit record. -/
def CkpRun.commitRecord (r : CkpRun) (job : Nat) (k : CkpJob) : List Byte :=
  let m := r.jobManifest job k
  let b := leBytes 4 0x31524D43 ++ leBytes 2 job ++ leBytes 2 0 ++ leBytes 8 r.seq ++ leBytes 8 r.tick ++ leBytes 4 m.length ++
    leBytes 4 k.liveRanks.length ++ leBytes 64 (Config.sha512 m).toNat ++ List.replicate 28 0
  b ++ leBytes 4 (crc32c b).toNat

/-! ### The end of a checkpoint (R364, R365) -/

/-- The commands of a checkpoint answered. -/
def Dev.endOps (d : Dev) (x : Ctx) (st : Status) (res : List Word) : List Nat → Dev
  | [] => d
  | o :: os => (d.endOp x o st res).endOps x st res os

/-- The work requests of a run. -/
def CkpRun.allOps (r : CkpRun) : List Nat := r.manOps ++ r.shards.flatMap CkpShard.ops

/-- A checkpoint ends without a commit: what it wrote in a LOCAL job is released, every region counts as reached. -/
def Dev.ckpStop (d : Dev) (x : Ctx) (j : Nat) (st : Status) : Dev :=
  match d.job j with
  | none => d
  | some k =>
    match k.run with
    | none => d
    | some r =>
      let d := r.objs.foldl Dev.freeObj d
      let d := (d.sheafDrop k.store r.allOps).putJob x j { k with run := none }
      (d.endOps x st [] r.ops).drainEnd (drainId 12 (2 * j))

/-- A checkpoint is abandoned (R365). -/
def Dev.ckpAbandon (d : Dev) (x : Ctx) (j : Nat) : Dev :=
  match d.job j with
  | none => d
  | some k => (d.ckpStop x j .checkpointIncomplete).bumpPart k.part 0x0C0010 1

/-- A checkpoint is committed. -/
def Dev.ckpFinish (d : Dev) (x : Ctx) (j : Nat) : Dev :=
  match d.job j with
  | none => d
  | some k =>
    match k.run with
    | none => d
    | some r =>
      let n (st : Nat) : Nat := (r.shards.filter fun s => s.st == st).length
      let k := { k with run := none, committed := r.seq, slots := if k.remote then k.slots else tset k.slots (r.seq % 2) r.objs }
      ((d.putJob x j k).endOps x .ok [loW r.seq, hiW r.seq, wd (n 3), wd (n 4)] r.ops).drainEnd (drainId 12 (2 * j))

/-! ### Announcements and verdicts (R361) -/

/-- A shard of a key changed. -/
def CkpRun.modShard (r : CkpRun) (group index : Nat) (f : CkpShard → CkpShard) : CkpRun :=
  { r with shards := r.shards.map fun s => if s.group = group ∧ s.index = index then f s else s }

/-- A verdict on a member's own shard: WRITE (none), or SKIP with the writer's rank. -/
def Dev.ckpVerdict (d : Dev) (j group index : Nat) (skip : Option Nat) : Dev :=
  match d.job j with
  | none => d
  | some k =>
    match k.run with
    | none => d
    | some r =>
      match r.shards.find? fun s => s.group == group && s.index == index with
      | none => d
      | some s =>
        match skip with
        | none =>
          if r.phase = 0 ∧ (s.st = 1 ∨ s.st = 4) then
            d.setJob j { k with run := some (r.modShard group index fun s => { s with st := 5, writer := k.rank }) }
          else d
        | some w =>
          if s.st = 1 then
            let loc := 0x4000000 * (1 + r.shards.findIdx fun t => t == s)
            (d.setJob j { k with run := some (r.modShard group index fun s => { s with st := 4, writer := w, loc := loc }) }).bumpPart
              k.part 0x0C0014 1
          else d

/-- Whether the keeper may answer an announcement, and what it answers. -/
def CkpRun.mayAnswer (r : CkpRun) (k : CkpJob) (now : Nat) (a : CkpAnn) : Bool :=
  !a.answered && k.alive a.rank && (r.tick + r.dedupMs * ticksMs ≤ now || (k.liveRanks.filter (· < a.rank)).all fun n =>
    r.ends.contains n || r.anns.any fun b => b.rank == n && b.group == a.group && b.index == a.index)
def CkpRun.writerFor (r : CkpRun) (k : CkpJob) (a : CkpAnn) : Option Nat :=
  (k.liveRanks.filter (· < a.rank)).find? fun n =>
    r.anns.any fun b => b.rank == n && b.group == a.group && b.index == a.index && b.digest == a.digest

/-- The keeper answers one announcement: its own at once, another member's by a message. -/
def Dev.ckpAnswer (d : Dev) (j : Nat) (k : CkpJob) (r : CkpRun) (a : CkpAnn) : Dev :=
  let w := r.writerFor k a
  let r := { r with anns := r.anns.map fun b => if b = a then { b with answered := true } else b }
  let d := d.setJob j { k with run := some r }
  if a.rank = k.rank then d.ckpVerdict j a.group a.index w
  else d.out (.member j a.rank 2 [a.group, a.index, w.getD 0xFFFFFFFF])

/-! ### One step of a running checkpoint -/

/-- The write of a shard starts: none where the target cannot take it. The first one releases the older checkpoint of the slot. -/
def Dev.ckpWrite (d : Dev) (x : Ctx) (j : Nat) (k : CkpJob) (r : CkpRun) (i : Nat) (s : CkpShard) : Option Dev :=
  let bs := (r.shardBytes s).getD []
  let put (d : Dev) (k : CkpJob) (r : CkpRun) (t : CkpShard) : Dev :=
    d.setJob j { k with run := some { r with started := true, shards := r.shards.set i t } }
  if k.remote then
    let loc := 0x4000000 * (1 + i)
    (d.storeWrite x k (k.slotAt k.rank (r.seq % 2) + loc) bs).map fun w => put w.2 k r { s with st := 2, writer := k.rank, loc := loc, ops := w.1 }
  else
    let old := if r.started then [] else tgetD k.slots (r.seq % 2) []
    let d := old.foldl Dev.freeObj d
    let k := if r.started then k else { k with slots := tdel k.slots (r.seq % 2) }
    (d.ckpObj k.part .shard bs).map fun w =>
      put w.2.2 k { r with objs := r.objs ++ [w.1] } { s with st := 2, writer := k.rank, loc := w.1, ops := [w.2.1] }

/-- The member manifest is written once every shard is confirmed or skipped (R363). -/
def Dev.ckpManifest (d : Dev) (x : Ctx) (j : Nat) (k : CkpJob) (r : CkpRun) : Option Dev :=
  let m := r.manifest j k.rank
  if k.remote then
    (d.storeWrite x k (k.slotAt k.rank (r.seq % 2)) m).map fun w =>
      w.2.setJob j { k with run := some { r with phase := 1, manOps := w.1, manLoc := k.slotAt k.rank (r.seq % 2) } }
  else
    (d.ckpObj k.part .manifest m).map fun w =>
      w.2.2.setJob j { k with run := some { r with phase := 1, manOps := [w.2.1], manLoc := w.1, objs := r.objs ++ [w.1] } }

/-- The member's report to the keeper (R363). -/
def Dev.ckpReport (d : Dev) (j : Nat) (k : CkpJob) (r : CkpRun) : Dev :=
  let m := r.manifest j k.rank
  let g := Config.sha512 m
  let r := { r with phase := 2, manOps := [] }
  if k.keeps then d.setJob j { k with run := some { r with reports := tset r.reports k.rank (r.manLoc, m.length, g) } }
  else (d.setJob j { k with run := some r }).out (.member j k.keeper 3 [k.rank, r.manLoc, m.length, g.toNat])

/-- The keeper writes the job manifest, and then the commit record (R364). -/
def Dev.ckpJobManifest (d : Dev) (x : Ctx) (j : Nat) (k : CkpJob) (r : CkpRun) : Option Dev :=
  let m := r.jobManifest j k
  if k.remote then
    (d.storeWrite x k (jobManAt (r.seq % 2)) m).map fun w => w.2.setJob j { k with run := some { r with phase := 3, manOps := w.1 } }
  else
    (d.ckpObj k.part .manifest m).map fun w =>
      w.2.2.setJob j { k with run := some { r with phase := 3, manOps := [w.2.1], objs := r.objs ++ [w.1] } }
def Dev.ckpCommit (d : Dev) (x : Ctx) (j : Nat) (k : CkpJob) (r : CkpRun) : Option Dev :=
  let b := r.commitRecord j k
  if k.remote then
    (d.storeWrite x k (commitAt (r.seq % 2)) b).map fun w => w.2.setJob j { k with run := some { r with phase := 4, manOps := w.1 } }
  else
    (d.ckpObj k.part .commit b).map fun w =>
      w.2.2.setJob j { k with run := some { r with phase := 4, manOps := [w.2.1], objs := r.objs ++ [w.1] } }

/-- Whether every work request and every NAND write of a list has ended. -/
def Dev.opsOver (d : Dev) (l : List Nat) : Bool := l.all fun o => !thas d.ops o && !d.nandWaits o

/-- What Sheaf does next of itself for a job's checkpoint, if anything. -/
def Dev.ckpStep (d : Dev) (x : Ctx) (j : Nat) : Dev :=
  match d.job j with
  | none => d
  | some k =>
    match k.run with
    | none => d
    | some r =>
      let or (o : Option Dev) : Dev := o.getD (d.ckpAbandon x j)
      let busy := (r.shards.filter fun s => s.st == 2).length
      let next := r.shards.findIdx fun s => s.st == 5
      if r.allOps.any d.net.failed.contains then d.ckpAbandon x j
      else
        match (if k.remote && busy ≥ r.inflight then none else r.shards[next]?) with
        | some s => or (d.ckpWrite x j k r next s)
        | none =>
          if k.n ≠ 1 ∧ !r.endSent ∧ r.shards.all (fun s => s.group == 0 || s.st != 0) then
            let r := { r with endSent := true }
            if k.keeps then d.setJob j { k with run := some { r with ends := addNum k.rank r.ends } }
            else (d.setJob j { k with run := some r }).out (.member j k.keeper 1 [k.rank])
          else
            match (if k.keeps then r.anns.find? (r.mayAnswer k x.now) else none) with
            | some a => d.ckpAnswer j k r a
            | none =>
              if r.phase = 0 ∧ r.unreached.isEmpty ∧ r.shards.all (fun s => s.st == 3 || s.st == 4) then or (d.ckpManifest x j k r)
              else if r.phase = 1 ∧ d.opsOver r.manOps then d.ckpReport j k r
              else if r.phase = 2 ∧ k.keeps ∧ k.liveRanks.all (thas r.reports) then or (d.ckpJobManifest x j k r)
              else if r.phase = 3 ∧ d.opsOver r.manOps then or (d.ckpCommit x j k r)
              else d

/-- Steps until Sheaf has nothing to do of itself. -/
def Dev.ckpSteps (d : Dev) (x : Ctx) (j : Nat) : Nat → Dev
  | 0 => d
  | f + 1 => (d.ckpStep x j).ckpSteps x j f

/-! ### Restore (R367) -/

/-- What restoring one item gives: more of the stream is needed; the bytes taken, the old and the new name; or the end of the restore. -/
inductive ItemRes where
  | more
  | done (n old new : Nat) (d : Dev)
  | stop (st : Status)

/-- The lowest run of unmapped extents of a partition's buffer space. -/
def Dev.freeRun (d : Dev) (p n : Nat) : Nat → Nat → Nat → Option Nat
  | 0, _, _ => none
  | f + 1, e, got =>
    if got = n then some (e - n)
    else if e ≥ 524288 then none
    else d.freeRun p n f (e + 1) (if (d.buf p e).isNone then got + 1 else 0)

/-- A frozen object restored into newly mapped extents. -/
def Dev.restoreObj (d : Dev) (x : Ctx) (p : Nat) (bs : List Byte) : Option (Nat × Dev) :=
  let n := (bs.length + 2097151) / 2097152
  match d.freeRun p n 524290 0 0, d.allotExts p (List.range 16) n with
  | some e, some (es, d) =>
    match (d.mapRun p [] e es).bufWrite x p (e * 2097152) bs with
    | none => none
    | some d =>
      let r := d.freeze p e n false
      some (r.1, match r.2.share r.1 with
        | some s => r.2.setShare r.1 { s with bytes := bs.length }
        | none => r.2)
  | _, _ => none

/-- A session restored into a FREE index, in state WARM, with its counters and pending input. -/
def Dev.restoreSes (d : Dev) (x : Ctx) (p : Nat) (b : List Byte) : Except Status (Word × Dev) :=
  let m := leAt b 4 2
  let v := leAt b 6 2
  let pf := leAt b 8 4
  let np := leAt b 0x20 4
  let img := b.drop (128 + 4 * np)
  let toks := (List.range np).map fun i => leAt b (128 + 4 * i) 4
  let g := d.geoOf m
  match d.mdl m, d.bindAdapter p m v with
  | some k, some v =>
    if k.part ≠ p ∨ !d.prefixOk p m v pf then .error .badParam
    else if !hdrOk img g || !hdrMatch img m v pf (leAt b 0x1C 4) || !sectionsOk img then .error .integrity
    else
      match d.newSes x p (d.chooseDie p 0) m v pf (leAt b 0xE 2) (leAt b 0xC 2) .warm none with
      | none => .error .noResource
      | some (h, d) =>
        let s := (d.sesOf h).getD (Ses.free 0 0)
        let s := { s with
          ctx := leAt b 0x1C 4
          nextPos := leAt img 0x14 4
          compressed := bitAt (leAt img 6 2) 0
          engineNs := leAt b 0x50 8
          bytes := s.bytes.set 4 (leAt b 0x58 8)
          energy := leAt b 0x60 8 }
        match d.decodeImage p s img g with
        | none => .error .noResource
        | some (kv, d) => .ok (h, (d.setPend h { s with kv := some kv } toks).sesLog x h 0x203 0 0)
  | _, _ => .error .badParam

/-- One item taken from the front of the stream; `rem` is what is left of the stream, read or not. -/
def Dev.restoreItem (d : Dev) (x : Ctx) (p : Nat) (it : CkpItem) (rest : List CkpItem) (b : List Byte) (rem : Nat) : ItemRes :=
  if it.kind = 0 then
    let n := it.count * 2097152
    if b.length < n then .more
    else
      match d.bufWrite x p (it.first * 2097152) (b.take n) with
      | none => .stop .badParam
      | some d => .done n it.first it.first d
  else if it.kind = 1 then
    let head := recordHead b
    let n := head + leAt b (head + 0x60) 8 + leAt b (head + 0x68) 8
    if b.length < 128 ∨ b.length < head + 256 ∨ b.length < n then .more
    else
      match d.restoreSes x p (b.take n) with
      | .error st => .stop st
      | .ok (h, d) => .done n it.first h.toNat d
  else
    let later := nsum (rest.map fun i => if i.kind = 0 then i.count * 2097152 else 0)
    let n := match d.share it.first with
      | some s => if s.part = p then s.bytes else rem - later
      | none => rem - later
    if b.length < n ∨ n = 0 then .more
    else
      match d.restoreObj x p (b.take n) with
      | none => .stop .noResource
      | some (sh, d) => .done n it.first sh d

/-- The map written to the host, and the final reply. -/
def Dev.restoreEnd (d : Dev) (x : Ctx) (j : Nat) (k : CkpJob) (r : CkpRestore) : Dev :=
  let d := (d.setJob j { k with restore := none, committed := max k.committed r.seq }).drainEnd (drainId 12 (2 * j + 1))
  let res := [loW r.seq, hiW r.seq, wd r.maps.length]
  let bs := r.maps.flatMap fun m => leBytes 4 m.1 ++ leBytes 4 m.2
  match (tget d.ops r.op).map Op.src with
  | some (.ring f sq _) => if bs.isEmpty then d.endOp x r.op .ok res else d.shapeHost f sq k.part r.op r.host bs .ok res
  | _ => d.endOp x r.op .ok res

/-- A restore ends early; what it restored stays. -/
def Dev.restoreStop (d : Dev) (x : Ctx) (j : Nat) (st : Status) : Dev :=
  match d.job j with
  | none => d
  | some k =>
    match k.restore with
    | none => d
    | some r =>
      (((d.sheafDrop k.store r.reads).setJob j { k with restore := none }).drainEnd (drainId 12 (2 * j + 1))).endOp x r.op st []

/-- Items taken from the stream while it holds them whole. -/
def Dev.restoreItems (d : Dev) (x : Ctx) (j : Nat) (k : CkpJob) (r : CkpRestore) : List CkpItem → Dev
  | [] => d.setJob j { k with restore := some { r with items := [] } }
  | it :: its =>
    let rem := r.stream.length + nsum (r.entries.map fun e => leAt e 8 4)
    match d.restoreItem x k.part it its r.stream rem with
    | .more => d.setJob j { k with restore := some { r with items := it :: its } }
    | .stop st => (d.setJob j { k with restore := some { r with items := it :: its } }).restoreStop x j st
    | .done n old new d => d.restoreItems x j k { r with stream := r.stream.drop n, maps := r.maps ++ [(old, new)] } its

/-- Whether 128 bytes are a commit record of a job, by MAGIC and CRC; the manifest's digest is checked when it is read (R364). -/
def recordOk (j : Nat) (b : List Byte) : Bool :=
  b.length == 128 && leAt b 0 4 == 0x31524D43 && leAt b 4 2 == j && leAt b 0x7C 4 == (crc32c (b.take 0x7C)).toNat

/-- The records that may be taken, the higher sequence number first, or the one asked for. -/
def candidates (j want : Nat) (l : List (List Byte)) : List (List Byte) :=
  let l := l.filter fun b => recordOk j b && (want == 0 || leAt b 8 8 == want)
  l.foldl (fun (t : List (List Byte)) (b : List Byte) =>
    if (t.head?).elim false fun c => leAt c 8 8 ≤ leAt b 8 8 then b :: t else t ++ [b]) []

/-- The manifest entry of a rank in a job manifest: location, length, digest. -/
def rankEntry (m : List Byte) (rank : Nat) : Option (Nat × Nat × BitVec 512) :=
  ((List.range (leAt m 0x18 4)).map fun i => (m.drop (64 + 80 * i)).take 80).findSome? fun e =>
    if leAt e 0 4 = rank ∧ e.length = 80 then some (leAt e 8 8, leAt e 4 4, BitVec.ofNat 512 (leAt e 16 64)) else none

/-- The entries of a member manifest. -/
def shardEntries (m : List Byte) : List (List Byte) := (List.range (leAt m 0x18 4)).map fun i => (m.drop (64 + 96 * i)).take 96

/-- Whether a digest is that of a byte string. -/
def isDigest (b e : List Byte) : Bool := Config.sha512 b == BitVec.ofNat 512 (leAt e 32 64)

/-- The objects of a kind of a partition, by token. -/
def Dev.objsOf (d : Dev) (p : Nat) (k : NandKind) : List (List Byte) :=
  d.nand.objs.filterMap fun o => if o.2.part = p ∧ o.2.kind = k then d.readObj o.1 else none

/-- The shards of a LOCAL restore, read and checked one after another, each giving its items. -/
def Dev.localShards (d : Dev) (x : Ctx) (j : Nat) : Nat → Dev
  | 0 => d
  | f + 1 =>
    match (d.job j).elim none fun k => k.restore.map fun r => (k, r) with
    | none => d
    | some (k, r) =>
      match r.entries with
      | [] => if r.items.isEmpty then d.restoreEnd x j k r else d.restoreStop x j .integrity
      | e :: es =>
        let d := d.objUse x (leAt e 16 16)
        match d.readObj (leAt e 16 16) with
        | none => d.restoreStop x j .integrity
        | some b =>
          if !isDigest b e then d.restoreStop x j .integrity
          else (d.restoreItems x j k { r with entries := es, stream := r.stream ++ b } r.items).localShards x j f

/-- A LOCAL restore, from the objects of the bulk region. -/
def Dev.localRestore (d : Dev) (x : Ctx) (j : Nat) (k : CkpJob) (r : CkpRestore) : Dev :=
  let mans := d.objsOf k.part .manifest
  let pick := (candidates j r.want (d.objsOf k.part .commit)).findSome? fun c =>
    (mans.find? fun m => isDigest m c).map fun m => (leAt c 8 8, m)
  match pick with
  | none => d.restoreStop x j .checkpointIncomplete
  | some (seq, m) =>
    match rankEntry m r.rank with
    | none => d.restoreStop x j .checkpointIncomplete
    | some (loc, _, g) =>
      let d := d.objUse x loc
      match d.readObj loc with
      | none => d.restoreStop x j .integrity
      | some mm =>
        if Config.sha512 mm ≠ g then d.restoreStop x j .integrity
        else
          let es := shardEntries mm
          (d.restoreItems x j k { r with phase := 3, seq := seq, entries := es } r.items).localShards x j (es.length + 1)

/-- The next READ of a REMOTE restore, or its end. -/
def Dev.remoteNext (d : Dev) (x : Ctx) (j : Nat) : Dev :=
  match (d.job j).elim none fun k => k.restore.map fun r => (k, r) with
  | none => d
  | some (k, r) =>
    let read (d : Dev) (k : CkpJob) (r : CkpRestore) (at_ len : Nat) : Dev :=
      match d.storeRead x k at_ len with
      | none => d.restoreStop x j .aborted
      | some (ops, d) => d.setJob j { k with restore := some { r with reads := ops } }
    let slot := r.seq % 2
    match r.phase with
    | 1 =>
      match r.cands with
      | [] => d.restoreStop x j .checkpointIncomplete
      | c :: _ => read d k { r with seq := leAt c 8 8 } (jobManAt (leAt c 8 8 % 2)) (leAt c 0x18 4)
    | _ =>
      match r.entries with
      | [] => if r.items.isEmpty then d.restoreEnd x j k r else d.restoreStop x j .integrity
      | e :: _ => read d k r (k.slotAt (leAt e 12 2) slot + leAt e 16 16) (leAt e 8 4)

/-- The data of READs that have ended, in order. -/
def Dev.readsData (d : Dev) (l : List Nat) : List Byte := l.flatMap fun o => tgetD d.net.got o []

/-- What a restore does next: nothing while a READ runs. -/
def Dev.restoreStep (d : Dev) (x : Ctx) (j : Nat) : Dev :=
  match (d.job j).elim none fun k => k.restore.map fun r => (k, r) with
  | none => d
  | some (k, r) =>
    if !k.remote then d.localRestore x j k r
    else if r.reads.any d.net.failed.contains then d.restoreStop x j (if r.phase ≤ 1 then .checkpointIncomplete else .aborted)
    else if !d.opsOver r.reads then d
    else if r.reads.isEmpty then
      match d.storeRead x k (commitAt 0) 128 with
      | none => d.restoreStop x j .aborted
      | some (a, d) =>
        match d.storeRead x k (commitAt 1) 128 with
        | none => d.restoreStop x j .aborted
        | some (b, d) => d.setJob j { k with restore := some { r with reads := a ++ b } }
    else
      let b := d.readsData r.reads
      let d : Dev := { d with net := { d.net with got := d.net.got.filter fun g => !r.reads.contains g.1 } }
      match r.phase with
      | 0 =>
        let c := candidates j r.want [b.take 128, b.drop 128]
        (d.setJob j { k with restore := some { r with phase := 1, cands := c } }).remoteNext x j
      | 1 =>
        match r.cands with
        | [] => d.restoreStop x j .checkpointIncomplete
        | c :: cs =>
          if !isDigest b c then (d.setJob j { k with restore := some { r with cands := cs } }).remoteNext x j
          else
            match rankEntry b r.rank with
            | none => d.restoreStop x j .checkpointIncomplete
            | some (loc, len, g) =>
              match d.storeRead x k loc len with
              | none => d.restoreStop x j .aborted
              | some (ops, d) => d.setJob j { k with restore := some { r with phase := 2, reads := ops, cands := [leBytes 64 g.toNat] } }
      | 2 =>
        if Config.sha512 b ≠ BitVec.ofNat 512 (leNat ((r.cands.head?).getD [])) then d.restoreStop x j .integrity
        else (d.restoreItems x j k { r with phase := 3, entries := shardEntries b } r.items).remoteNext x j
      | _ =>
        match r.entries with
        | [] => d
        | e :: es =>
          if !isDigest b e then d.restoreStop x j .integrity
          else (d.restoreItems x j k { r with entries := es, stream := r.stream ++ b } r.items).remoteNext x j

/-! ### Sheaf's part after Reed's -/

/-- The work requests of Sheaf whose outcomes it has still to see. -/
def Dev.sheafOps (d : Dev) : List Nat :=
  d.ckp.jobs.flatMap fun j => (j.2.run.elim [] CkpRun.allOps) ++ j.2.restore.elim [] CkpRestore.reads

/-- Every job's checkpoint and restore go on as far as they can. -/
def Dev.sheafSettle (d : Dev) (x : Ctx) : Dev :=
  d.ckp.jobs.foldl (fun (d : Dev) (j : Nat × CkpJob) =>
    (d.ckpSteps x j.1 (j.2.run.elim 0 fun r => 4 * r.shards.length + r.anns.length + 12)).restoreStep x j.1) d

end Sys2Proof.Machine
end

