-- ==== Sys2Proof/Machine/SesMove.lean ====
section
/-! DEFINITION. Moving a session to another module (R102-R105). -/

namespace Sys2Proof.Machine

/-! ### Posting an EWR (R221, R308) -/

/-- An EWR posted on a queue pair of partition p, or why not: identifier in use, quota, resolved entries. -/
def Dev.ewrPost (d : Dev) (p n id off len : Nat) (reserve : Bool) (slot : Option (Word × Nat)) : Except Status Dev :=
  let ents := if reserve then 0 else ewrEnts off len
  if (d.ewr n id).isSome then .error .badParam
  else if d.ewrUsed p ≥ fld (d.devReg (0x090204 + p * 0x10)) 20 0 ∨ d.net.ewrs.length ≥ 1048576 ∨ d.stuUsed + ents > 65536 then
    .error .noResource
  else .ok { d with net := { d.net with ewrs := tset d.net.ewrs (ewrKey n id) ⟨p, off, len, reserve, slot, [], none, ents⟩ } }

/-! ### Messages -/

/-- A move message of 128 bytes (R102): kind 1 record, 2 abort, 3 confirmation. -/
def moveMsg (kind status ident target len : Nat) (warm : Bool) (digest : BitVec 512) : List Byte :=
  leBytes 4 0x3143564D ++ leBytes 2 kind ++ leBytes 2 status ++ leBytes 4 ident ++ leBytes 4 target ++ leBytes 8 len ++
    [if warm then 1 else 0] ++ List.replicate 7 0 ++ leBytes 64 digest.toNat ++ List.replicate 32 0

/-- The sessions that move out (3) or in (4), as handles. -/
def Dev.movers (d : Dev) (kind : Nat) : List Word :=
  (d.ses.tbl.filter fun s => s.2.state == .moving && s.2.move.elim false fun m => m.kind == kind).map fun s =>
    handleOf (s.1 / 2 ^ 24) s.2.gen (s.1 % 2 ^ 24)

/-- The session that a move message on a queue pair concerns. -/
def Dev.moverOf (d : Dev) (kind mkind qpn : Nat) (msg : List Byte) : Option (Word × Ses × Movement) :=
  if leAt msg 0 4 ≠ 0x3143564D ∨ leAt msg 4 2 ≠ mkind then none
  else
    (d.movers kind).findSome? fun h =>
      match d.sesOf h with
      | some s =>
        match s.move with
        | some m => if m.qpn = qpn ∧ m.ident = leAt msg 8 4 then some (h, s, m) else none
        | none => none
      | none => none

/-- Work requests posted one after another by Tiller, and their operation numbers. -/
def Dev.postAll (d : Dev) (x : Ctx) (p n kind key imm : Nat) : List (Nat × List Byte) → List Nat × Dev
  | [] => ([], d)
  | (va, bs) :: l =>
    let id := d.nextSeq
    match d.netPost x .tiller p n kind bs va (wd key) (wd imm) with
    | none => ([], d)
    | some d =>
      let r := d.postAll x p n kind key imm l
      (id :: r.1, r.2)

/-- The status that a message's code names; codes that no check of a target gives read as ABORTED. -/
def moveStatus (c : Nat) : Status := if c = 0x80 then .integrity else if c = 0x14 then .doesNotFit else .aborted

/-! ### The source -/

/-- The work requests of a move none of whose packets has left are dropped. -/
def Dev.dropUnsent (d : Dev) (m : Movement) : Dev :=
  let gone := ((d.qp m.qpn).elim [] fun q => q.sends.filter fun s => !s.onWire && (m.recOp :: m.sends).contains s.op).map Send.op
  let d := (gone.foldl (fun d o => d.unsend m.qpn o) d).modQp m.qpn fun q => { q with sends := q.sends.filter fun s => !gone.contains s.op }
  { d with ops := d.ops.filter fun o => !gone.contains o.1 }

/-- A move that ends before its commit point: the EWR is withdrawn, SES_MOVE ends, and the session returns to its former
state, where it acts on a latched wake (R104, R105). -/
def Dev.moveBack (d : Dev) (x : Ctx) (h : Word) (st : Status) : Dev :=
  match d.sesOf h with
  | none => d
  | some s =>
    match s.move with
    | none => d
    | some m =>
      let d := (((d.dropUnsent m).withdrawEwr x m.qpn m.ident).pump x m.qpn).setSes h { s with move := none }
      let d := if m.fromWarm then d.enterWarm x h else d.goto x h { s with move := none } .parked
      let d := d.endOp x m.op st []
      (d.settle x h).unlatch x s.die

/-- A wake on the source abandons the move (R104): before the record is sent an abort record goes out in its place. -/
def Dev.moveAbandon (d : Dev) (x : Ctx) (h : Word) (m : Movement) : Dev :=
  let d := if m.sent.isSome then d
    else
      let d := d.dropUnsent m
      (d.netPost x .tiller (hPart h) m.qpn 1 (moveMsg 2 0 m.ident 0 0 false 0) 0 0 (wd m.ident)).getD d
  d.moveBack x h .aborted

/-- Whether the first byte of a work request of an engine has been sent. -/
def Dev.sendLeft (d : Dev) (n op : Nat) : Bool :=
  op != 0 && (!thas d.ops op || (d.qp n).elim true fun q => q.sends.any fun s => s.op == op && s.onWire)

/-- The move record sent once every WRITE of the image has ended (R103): on an EXT queue pair one message follows another only so
(R305). -/
def Dev.postRecord (d : Dev) (x : Ctx) (h : Word) (s : Ses) (m : Movement) : Dev :=
  let id := d.nextSeq
  match d.netPost x .tiller (hPart h) m.qpn 1 m.img 0 0 (wd m.ident) with
  | some d => d.setSes h { s with move := some { m with recOp := id } }
  | none => d.moveBack x h .aborted

/-- Tiller's part after Reed's: moves that a wake or a failed work request ends, the record behind the image, and the tick it is sent. -/
def Dev.moveCheck (d : Dev) (x : Ctx) (h : Word) : Dev :=
  match d.sesOf h with
  | none => d
  | some s =>
    match s.move with
    | none => d
    | some m =>
      if s.evLatched then d.moveAbandon x h m
      else if (m.recOp :: m.sends).any d.net.failed.contains then d.moveBack x h .aborted
      else if m.recOp = 0 then if m.sends.all fun o => !thas d.ops o then d.postRecord x h s m else d
      else if m.sent = none ∧ d.sendLeft m.qpn m.recOp = true then d.setSes h { s with move := some { m with sent := some x.now } }
      else d

/-- Whether a queue pair may carry a move (R102, R105). -/
def Dev.moveQp (d : Dev) (p n : Nat) : Except Status Qp :=
  match d.ownQp p n with
  | none => .error .badParam
  | some q =>
    if !q.ext ∨ !q.event ∨ (!q.enc ∧ !bitAt (d.parkCfg p) 21) then .error .notPermitted
    else if q.st ≠ 1 then .error .sessionState
    else .ok q

/-- SES_MOVE (R102, R103). A revive that waits for a staging entry ends with ABORTED (log entry 92). -/
def sesMoveCmd (x : Ctx) (q : Req) (d : Dev) : Ans :=
  let h := q.w 2
  let p := q.part
  let n := q.f 3 19 0
  let ident := (q.w 4).toNat
  let target := bufOff (q.w 6).toNat (q.f 7 7 0)
  match d.lookup p h with
  | .error st => .refuse st
  | .ok s =>
    if !q.clean [(2, top32), (3, 0xFFFFF), (4, top32), (5, 1), (6, top32), (7, 0xFF), (8, top32)] ∨ ident = 0 ∨ ident > 0xFFFEFFFF then
      .refuse .badParam
    else if s.state ≠ .warm ∧ s.state ≠ .parked then .refuse .sessionState
    else if d.ckpHolds h then .accept [] (.held 0x0104 q.words) d
    else
      match d.moveQp p n with
      | .error st => .refuse st
      | .ok qp =>
        match d.ewrPost p n ident 0 128 true none with
        | .error st => .refuse st
        | .ok d =>
          let fromWarm := s.state == .warm
          let img := if fromWarm then (if d.kvBad (d.kvOr s) then none else some (d.encode p s true false)) else d.readObj s.parkLoc
          match img with
          | none => .both [] .integrity [] (d.dropEwr n ident)
          | some img =>
            let d := { d with free := d.free + img.length }
            let warm := bitAt (q.w 5).toNat 0
            let dg := Config.sha512 img
            let size := 1024 * qp.mtu
            let parts := (chunks size (img.length / size + 1) img).mapIdx fun i c => (target + 0x1000 + i * size, c)
            let parts := parts.filter fun c => !c.2.isEmpty
            let d := (if fromWarm then d.kvUse x h else d.objUse x s.parkLoc).endRevives x h .aborted []
            let w := (d.dropSpills x h).postAll x p n 2 (q.w 8).toNat 0 parts
            let m := { Movement.new 3 q.seq fromWarm with
              img := moveMsg 1 0 ident 0 img.length warm dg
              obj := if fromWarm then 0 else s.parkLoc
              qpn := n
              ident := ident
              target := target
              key := (q.w 8).toNat
              targetWarm := warm
              digest := dg
              sends := w.1 }
            let d := w.2.goto x h { s with move := some m } .moving
            .accept [] (.moveSes h) d

/-- A command that waited for Sheaf to copy its session's record goes on (R358). -/
def Dev.heldGo (d : Dev) (x : Ctx) (id : Nat) (o : Op) : Dev :=
  match o.kind with
  | .held oc ws =>
    if d.ckpHolds ((ws[2]?).getD 0) then d
    else
      let q : Req := ⟨id, none, 0, o.part, o.src, ws, x.now⟩
      match (if oc = 0x0101 then some (sesParkCmd x q d) else if oc = 0x0103 then some (sesCloseCmd x q d)
        else if oc = 0x0104 then some (sesMoveCmd x q d) else none) with
      | none => d
      | some (.refuse st) => d.endOp x id st []
      | some (.done st res d) => d.endOp x id st res
      | some (.accept _ k d) => d.setOp id k
      | some (.both _ st fin d) => d.endOp x id st fin
  | _ => d
def Dev.heldAll (d : Dev) (x : Ctx) : Dev := d.ops.foldl (fun (d : Dev) (o : Nat × Op) => d.heldGo x o.1 o.2) d

/-- What follows Reed's part: moves and checkpoints that a work request lets go on or ends, commands that waited for a checkpoint, and
the scheduler. -/
def Dev.reedSettle (d : Dev) (x : Ctx) : Dev :=
  let d := (d.movers 3).foldl (fun d h => d.moveCheck x h) d
  let d := (d.sheafSettle x).heldAll x
  let keep := (d.movers 4).filterMap fun h => (d.sesOf h).elim none fun s => s.move.map Movement.recOp
  let keep := keep ++ d.sheafOps
  ({ d with net := { d.net with failed := d.net.failed.filter keep.contains } }).schedule x

/-- MOVE_CONFIRMATION_ARRIVAL (R103): with STATUS OK the commit point. -/
def moveConfirmed (qpn : Nat) (msg : List Byte) (x : Ctx) (d : Dev) : Dev :=
  match d.moverOf 3 3 qpn msg with
  | none => d
  | some (h, s, m) =>
    let d := d.dropEwr qpn m.ident
    if leAt msg 6 2 ≠ 0 then (d.moveBack x h (moveStatus (leAt msg 6 2))).schedule x
    else
      let d := d.withdrawAll x ((List.range 8).flatMap fun n => d.slotEwrs h n)
      let d := (d.setPend h s []).releaseSes x h
      let d := (d.endOp x m.op .ok [wd (leAt msg 12 4)]).closeReply x h s
      (d.unlatch x s.die).schedule x

/-- MOVE_CONFIRM_TIMEOUT (R105): one second after the record. -/
def moveConfirmLate (h : Word) (x : Ctx) (d : Dev) : Dev :=
  match d.sesOf h with
  | none => d
  | some s =>
    match s.move with
    | some m =>
      if s.state = .moving ∧ m.kind = 3 ∧ (m.sent.elim false fun t => decide (t + 125000000 ≤ x.now)) then
        (d.moveBack x h .aborted).schedule x
      else d
    | none => d

/-! ### The target -/

/-- Whether a run of extents may be a move buffer (R102). -/
def Dev.moveBuf (d : Dev) (p first count : Nat) : Bool :=
  1 ≤ count && count ≤ 2049 && first < 262144 && first + count ≤ 524288 &&
    (runExts first count).all fun e => (d.buf p e).elim false fun b => !b.frozen && (List.range 64).all fun i =>
      match d.homeOf b i with
      | some (.hbm a) => !d.computeAt a
      | _ => false

/-- SES_MOVE_IN (R102): an index in MOVING (move in), and the EWR that the record fires. -/
def sesMoveInCmd (x : Ctx) (q : Req) (d : Dev) : Ans :=
  let p := q.part
  let md := q.f 2 15 0
  let pf := (q.w 3).toNat
  let n := q.f 4 19 0
  let ident := (q.w 5).toNat
  let ms := (q.w 6).toNat
  let first := q.f 7 18 0
  let count := (q.w 8).toNat
  match d.mdl md with
  | none => .refuse .badParam
  | some k =>
    if !q.clean [(2, top32), (3, top32), (4, 0xFFFFF), (5, top32), (6, top32), (7, 0x7FFFF), (8, top32)] ∨ k.part ≠ p ∨ ident = 0 ∨
        ident > 0xFFFEFFFF ∨ ms = 0 ∨ ms > 60000 ∨ !d.moveBuf p first count then .refuse .badParam
    else
      match d.bindAdapter p md (q.f 2 31 16) with
      | none => .refuse .badParam
      | some v =>
        if !d.prefixOk p md v pf then .refuse .badParam
        else
          match d.moveQp p n with
          | .error st => .refuse st
          | .ok _ =>
            match d.ewrPost p n ident (first * 2097152) 128 false none with
            | .error st => .refuse st
            | .ok d =>
              let m := { Movement.new 4 q.seq false with
                qpn := n
                ident := ident
                deadline := x.now + ms * ticksMs
                firstExt := first
                extCount := count }
              match d.newSes x p (d.chooseDie p 0) md v pf (fld (d.partReg p 0x030008) 15 0) (fld (d.partReg p 0x030000) 14 0) .moving (some m) with
              | none => .refuse .noResource
              | some (h, d) => .accept [h] (.moveIn h) d

/-- A move in that ends without a session (R104, R105): what was taken is released and the index is FREE. -/
def Dev.moveInEnd (d : Dev) (x : Ctx) (h : Word) (st : Status) : Dev :=
  match d.sesOf h with
  | none => d
  | some s =>
    match s.move with
    | none => d
    | some m =>
      let d := (d.withdrawEwr x m.qpn m.ident).withdrawAll x ((List.range 8).flatMap fun n => d.slotEwrs h n)
      let d := (d.setPend h s []).releaseSes x h
      (((d.endOp x m.op st []).closeReply x h s).unlatch x s.die).schedule x

/-- A move image as the target parks it: the header names the target's model, adapter version and prefix, and carries no
accounting (R91, R98). -/
def ownHeader (img : List Byte) (m v pf : Nat) : List Byte :=
  let hdr := img.take 6 ++ leBytes 2 (clrBit (leAt img 6 2) 1) ++ leBytes 2 m ++ leBytes 2 v ++ leBytes 4 pf ++ (img.take 0x70).drop 0x10 ++
    List.replicate 24 0 ++ (img.take 0xFC).drop 0x88
  hdr ++ leBytes 4 (crc32c hdr).toNat ++ img.drop 0x100

/-- The checked image kept (R103): decoded into pages, or parked. The session's counters take what a move image carries;
its bytes stand in the counter of Ethernet bytes received. -/
def Dev.moveKeep (d : Dev) (h : Word) (s : Ses) (m : Movement) (img : List Byte) : Option Dev :=
  let p := hPart h
  let carry := bitAt (leAt img 6 2) 1
  let s := { s with
    ctx := leAt img 0x10 4
    nextPos := leAt img 0x14 4
    compressed := bitAt (leAt img 6 2) 0
    engineNs := if carry then leAt img 0x70 8 else s.engineNs
    bytes := if carry then s.bytes.set 4 (leAt img 0x78 8) else s.bytes
    energy := if carry then leAt img 0x80 8 else s.energy }
  if m.targetWarm then
    match d.decodeImage p s img (d.geoOf s.model) with
    | none => none
    | some (k, d) => some (d.setSes h { s with kv := some k, move := some m })
  else
    let own := ownHeader img s.model s.adapter s.pfx
    let n := unitsFor own.length
    if own.length > 0xFFFFFFFF ∨ !d.nandFits p n then none
    else
      match d.placeUnits p (bitAt (d.parkCfg p) 20) (unitData own) with
      | none => none
      | some (us, d) =>
        let o := d.newObj p .park us own.length false
        let d := o.2.shapeNand p (sesFlow (hKey h) 0) 0 m.op us
        some (d.setSes h { s with parkLoc := o.1, parkBytes := own.length, move := some { m with obj := o.1 } })

/-- MOVE_RECORD_ARRIVAL (R103): the record fires the EWR; the checks, and the confirmation with their outcome. -/
def moveRecord (qpn : Nat) (msg : List Byte) (x : Ctx) (d : Dev) : Dev :=
  match d.moverOf 4 1 qpn msg with
  | none => d
  | some (h, s, m) =>
    if m.recordIn then d
    else d.once x .tiller (3, h.toNat) (d.runAddrs (hPart h) (m.firstExt * 2097152) (m.extCount * 2097152)) fun d =>
      let d := d.dropEwr qpn m.ident
      let len := leAt msg 16 8
      let m := { m with recordIn := true, targetWarm := bitAt (leAt msg 24 1) 0 }
      let g := d.geoOf s.model
      let img := if len + 0x1000 ≤ m.extCount * 2097152 then d.bufRead (hPart h) (m.firstExt * 2097152 + 0x1000) len else none
      let good := match img with
        | some (b, false) => Config.sha512 b == BitVec.ofNat 512 (leAt msg 32 64) && hdrOk b g && sectionsOk b
        | _ => false
      let kept := if good then d.moveKeep h s m (img.elim [] Prod.fst) else none
      let st : Status := if !good then .integrity else if kept.isNone then .doesNotFit else .ok
      let reply := moveMsg 3 st.code m.ident (if st = .ok then h.toNat else 0) 0 false 0
      let d := kept.getD d
      let id := d.nextSeq
      match d.netPost x .tiller (hPart h) qpn 1 reply 0 0 (wd m.ident) with
      | none => d.moveInEnd x h .aborted
      | some d =>
        if st ≠ .ok then d.moveInEnd x h st
        else
          match d.sesOf h with
          | some s => (d.setSes h { s with move := s.move.map fun m => { m with recOp := id } }).reedSettle x
          | none => d

/-- MOVE_CONFIRM_SEND_COMPLETE (R103): the session enters WARM or PARKED; a refused confirmation frees it (R104). -/
def moveSent (h : Word) (status : Nat) (x : Ctx) (d : Dev) : Dev :=
  match d.sesOf h with
  | none => d
  | some s =>
    match s.move with
    | none => d
    | some m =>
      if s.state ≠ .moving ∨ m.kind ≠ 4 ∨ m.recOp = 0 ∨ thas d.ops m.recOp then d
      else if status ≠ 0 ∨ d.net.failed.contains m.recOp then d.moveInEnd x h .aborted
      else
        let t : SesStateName := if m.targetWarm then .warm else .parked
        let d := if m.targetWarm then (d.setSes h { s with move := none }).enterWarm x h else d.goto x h { s with move := none } t
        let d := d.endOp x m.op .ok [h, wd t.code]
        ((d.settle x h).unlatch x s.die).schedule x

/-- MOVE_ABORT_ARRIVAL (R104). -/
def moveAborted (qpn : Nat) (msg : List Byte) (x : Ctx) (d : Dev) : Dev :=
  match d.moverOf 4 2 qpn msg with
  | none => d
  | some (h, _, m) => if m.recordIn then d else d.moveInEnd x h .aborted

/-- MOVE_IN_TIMEOUT (R105). -/
def moveInLate (h : Word) (x : Ctx) (d : Dev) : Dev :=
  match d.sesOf h with
  | none => d
  | some s =>
    match s.move with
    | some m => if s.state = .moving ∧ m.kind = 4 ∧ !m.recordIn ∧ m.deadline ≤ x.now then d.moveInEnd x h .aborted else d
    | none => d

/-- Whether the whole image of a move in is in its buffer: as many bytes as its header gives (R107; log entry 92). -/
def Dev.imageIn (d : Dev) (h : Word) (m : Movement) : Bool :=
  let hdr := (d.bufRead (hPart h) (m.firstExt * 2097152 + 0x1000) 0x70).elim [] Prod.fst
  let len := leAt hdr 0x60 8 + leAt hdr 0x68 8
  m.recordIn || (m.placed != 0 && len != 0 && decide (len ≤ m.placed))

/-- The bytes of a WRITE that a queue pair has placed, counted for the moves in whose buffers they lie in. -/
def Dev.countPlaced (d : Dev) (n base len : Nat) : Dev :=
  (d.movers 4).foldl (fun d h =>
    match d.sesOf h with
    | none => d
    | some s =>
      match s.move with
      | none => d
      | some m =>
        let lo := m.firstExt * 2097152 + 0x1000
        if m.qpn = n ∧ lo ≤ base ∧ base < (m.firstExt + m.extCount) * 2097152 then
          d.setSes h { s with move := some { m with placed := m.placed + len } }
        else d) d

/-- SHAPED_UNIT_START, which may send a move's record (R104). -/
def shapedRow (j p flow bytes : Nat) (x : Ctx) (d : Dev) : Dev := (shapedStart j p flow bytes x d).reedSettle x

/-- SLOT_FIRE, which may abandon a move out (R104). -/
def slotFireRow (h : Word) (n len : Nat) (x : Ctx) (d : Dev) : Dev := (slotFired h n len x d).reedSettle x

/-- SES_MOVE, and what Reed has done of it at once. -/
def sesMoveRow (c : Cmd) (x : Ctx) (d : Dev) : Dev := (runCmd 0x0104 c sesMoveCmd x d).reedSettle x

def effShapedUnitStart (j p flow bytes : Nat) (s : State) : Host.Outcome State Fault Refusal := onDev (shapedRow j p flow bytes) s
def effSesMove (c : Cmd) (s : State) : Host.Outcome State Fault Refusal := onDev (sesMoveRow c) s
def effSesMoveIn (c : Cmd) (s : State) : Host.Outcome State Fault Refusal := hostCmd 0x0106 c sesMoveInCmd s
def effSlotFire (h : Word) (n len : Nat) (s : State) : Host.Outcome State Fault Refusal := onDev (slotFireRow h n len) s
def effMoveRecordArrival (q : Nat) (msg : List Byte) (s : State) : Host.Outcome State Fault Refusal := onDev (moveRecord q msg) s
def effMoveConfirmationArrival (q : Nat) (msg : List Byte) (s : State) : Host.Outcome State Fault Refusal := onDev (moveConfirmed q msg) s
def effMoveConfirmSendComplete (h : Word) (st : Nat) (s : State) : Host.Outcome State Fault Refusal := onDev (moveSent h st) s
def effMoveAbortArrival (q : Nat) (msg : List Byte) (s : State) : Host.Outcome State Fault Refusal := onDev (moveAborted q msg) s
def effMoveInTimeout (h : Word) (s : State) : Host.Outcome State Fault Refusal := onDev (moveInLate h) s
def effMoveConfirmTimeout (h : Word) (s : State) : Host.Outcome State Fault Refusal := onDev (moveConfirmLate h) s

end Sys2Proof.Machine
end

