-- ==== Sys2Proof/Machine/Txt.lean ====
section
/-! DEFINITION. The text engine's intakes, table loads and commands (chapter 11), and REQ_SUBMIT (R260). -/

namespace Sys2Proof.Machine

/-! ### Locked and draining slices (R33, R35) -/

/-- Whether a pending commit has locked a block's slice of a scope; whether it drains; whether either holds. -/
def Dev.sliceLocked (d : Dev) (scope block : Nat) : Bool := d.commits.any fun c => c.scope == scope && bitAt c.mask block
def Dev.sliceDrains (d : Dev) (scope block : Nat) : Bool := d.drains.any fun r => r.scope == scope && r.block == block
def Dev.sliceBusy (d : Dev) (scope block : Nat) : Bool := d.sliceLocked scope block || d.sliceDrains scope block

/-! ### Tables (R264-R268, R278) -/

/-- `n` little-endian items of `size` bytes from offset `o`. -/
def items (b : List Byte) (o size n : Nat) : List Nat := ((chunks size n ((b.drop o).take (size * n))).take n).map leNat

/-- Whether bytes [lo, hi) are all zero. -/
def zeroBytes (b : List Byte) (lo hi : Nat) : Bool := ((b.take hi).drop lo).all (· == 0)

/-- Ranges ascend and do not overlap. -/
def ascending : List (Nat × Nat × Nat) → Bool
  | [] => true
  | [r] => r.1 ≤ r.2.1
  | r :: s :: l => r.1 ≤ r.2.1 && r.2.1 < s.1 && ascending (s :: l)

/-- A byte-class machine table (R265). -/
def parseMachine (b : List Byte) : Option ByteMachine :=
  let cl := leAt b 4 1
  let st := leAt b 8 2
  let nr := leAt b 12 2
  let ascii := items b 64 1 128
  let rw := items b 192 8 nr
  let ranges := rw.map fun w => (fld w 20 0, fld w 52 32, fld w 61 56)
  let tr := items b (192 + 8 * nr) 2 (st * cl)
  let m : ByteMachine := ⟨cl, st, leAt b 5 1, leAt b 6 1, leAt b 10 2, ascii, ranges, tr.map fun e => (bitAt e 15, e % 1024)⟩
  let ok := b.length == 192 + 8 * nr + 2 * (st * cl) && leAt b 0 4 == 0x31434253 && zeroBytes b 7 8 && zeroBytes b 14 64 &&
    2 ≤ cl && cl ≤ 64 && 1 ≤ st && st ≤ 1024 && nr ≤ 4096 && m.start < st && (m.deflt :: m.invalid :: ascii).all (· < cl) &&
    (rw.all fun w => fld w 31 21 == 0 && fld w 55 53 == 0 && fld w 63 62 == 0) && ascending ranges &&
    (ranges.all fun r => r.2.2 < cl) && tr.all fun e => e % 1024 < st && fld e 14 10 == 0
  if ok then some m else none

/-- Whether a pair stands twice in a list of merges. -/
def pairTwice : List (Nat × Nat × Nat) → Bool
  | [] => false
  | m :: l => (l.any fun n => n.1 == m.1 && n.2.1 == m.2.1) || pairTwice l

/-- A merge table (R267). -/
def parseMerges (b : List Byte) : Option (List (Nat × Nat × Nat)) :=
  let n := leAt b 4 4
  let ms := (items b 64 12 n).map fun w => (fld w 31 0, fld w 63 32, fld w 95 64)
  let ok := leAt b 0 4 == 0x3147524D && n ≤ 262144 && b.length == 64 + 12 * n && zeroBytes b 8 64 &&
    (ms.all fun m => m.1 < 262144 && m.2.1 < 262144 && m.2.2 < 262144) && !pairTwice ms
  if ok then some ms else none

/-- A vocabulary table (R268): its tokens and its byte map. -/
def parseVocab (b : List Byte) : Option (List Token × List Nat) :=
  let n := leAt b 4 4
  let sb := leAt b 8 4
  let bm := items b 64 4 256
  let ents := items b 1088 8 n
  let area := b.drop (1088 + 8 * n)
  let toks : List Token := ents.map fun e =>
    ⟨(area.drop (fld e 31 0)).take (fld e 39 32), bitAt e 40, bitAt e 41, bitAt e 42⟩
  let entOk (e : Nat) : Bool := fld e 63 43 == 0 && fld e 39 32 ≤ 128 && fld e 31 0 + fld e 39 32 ≤ sb && (bitAt e 40 || fld e 39 32 != 0)
  let byteOk (i t : Nat) : Bool := (toks[t]?).elim false fun k => !k.special && k.str == [BitVec.ofNat 8 i]
  let ok := leAt b 0 4 == 0x31424356 && zeroBytes b 12 64 && 256 ≤ n && n ≤ 262144 && sb ≤ 4194304 && b.length == 1088 + 8 * n + sb &&
    ents.all entOk && bm.length == 256 && (bm.mapIdx byteOk).all id && bm.dedup.length == 256
  if ok then some (toks, bm) else none

/-- An output profile entry (R278). -/
def parseProfile (e : List Byte) : Option Profile :=
  let ns := leAt e 3 1
  let fl := leAt e 1 1
  let stops := (List.range ns).map fun j => (e.drop (0x80 + 72 * j + 8)).take (leAt e (0x80 + 72 * j) 1)
  let stopOk (j : Nat) : Bool :=
    let o := 0x80 + 72 * j
    let s := (e.drop (o + 8)).take (leAt e o 1)
    1 ≤ leAt e o 1 && leAt e o 1 ≤ 64 && zeroBytes e (o + 1) (o + 8) && (chars s.length s).all Prod.snd
  let f : Profile := ⟨leAt e 0 1, bitAt fl 0, bitAt fl 1, leAt e 2 1, leAt e 4 4, leAt e 8 8, leAt e 0x10 1,
    items e 0x14 4 (leAt e 0x11 1), items e 0x34 4 (leAt e 0x12 1), stops⟩
  let ok := f.dest ≤ 2 && fl < 4 && f.grammar ≤ 15 && ns ≤ 16 && leAt e 0x11 1 ≤ 8 && leAt e 0x12 1 ≤ 8 && f.qp < 2 ^ 20 &&
    f.ringOff < 2 ^ 39 && zeroBytes e 0x13 0x14 && zeroBytes e 0x54 0x80 &&
    (f.dest != 2 || (f.ringOff % 4096 == 0 && 12 ≤ f.ringLog2 && f.ringLog2 ≤ 24)) && (List.range ns).all stopOk
  if ok then some f else none

/-- The output profile table. -/
def parseProfiles (b : List Byte) : Option (List Profile) :=
  if b.length = 81984 ∧ leAt b 0 4 = 0x31465250 ∧ zeroBytes b 4 64 then
    let l := ((chunks 1280 64 (b.drop 64)).take 64).filterMap parseProfile
    if l.length = 64 then some l else none
  else none

/-! ### The table bank (R263, R264) -/

/-- The bank use of a set, of a partition's two sets, and of the module, in bytes. -/
def TokSlot.use (t : TokSlot) : Nat := t.machineLen + (if t.mergesOk then 20 * t.merges.length else 0) + t.vocabLen
def TxtSet.use (t : TxtSet) : Nat := nsum (t.slots.map fun k => k.2.use) + t.profilesLen
def Dev.txtShd (d : Dev) (p : Nat) : TxtSet := tgetD d.txt.shd p TxtSet.reset
def Dev.bankUse (d : Dev) (p : Nat) : Nat := (d.txtSet p).use + (d.txtShd p).use
def Dev.bankAll (d : Dev) : Nat := nsum ((List.range 16).map d.bankUse)

/-- Replaces a partition's shadow set. -/
def Dev.setShd (d : Dev) (p : Nat) (t : TxtSet) : Dev := { d with txt := { d.txt with shd := tset d.txt.shd p t } }

/-- A table of a kind taken out of a set: the shadow table is invalid (R29). -/
def TxtSet.drop (t : TxtSet) (kind slot : Nat) : TxtSet :=
  let k := t.slot slot
  if kind = 0 then { t with slots := tset t.slots slot { k with machine := none, machineOk := false, machineLen := 0 } }
  else if kind = 1 then { t with slots := tset t.slots slot { k with merges := [], mergesOk := false } }
  else if kind = 2 then { t with slots := tset t.slots slot { k with vocab := [], byteMap := [], vocabOk := false, vocabLen := 0 } }
  else { t with profiles := [], profilesOk := false, profilesLen := 0 }

/-- A table of a kind put into a set; none where its bytes break its layout. -/
def TxtSet.put (t : TxtSet) (kind slot : Nat) (b : List Byte) : Option TxtSet :=
  let k := t.slot slot
  if kind = 0 then (parseMachine b).map fun m =>
    { t with slots := tset t.slots slot { k with machine := some m, machineOk := true, machineLen := b.length } }
  else if kind = 1 then (parseMerges b).map fun m => { t with slots := tset t.slots slot { k with merges := m, mergesOk := true } }
  else if kind = 2 then (parseVocab b).map fun v =>
    { t with slots := tset t.slots slot { k with vocab := v.1, byteMap := v.2, vocabOk := true, vocabLen := b.length } }
  else (parseProfiles b).map fun l => { t with profiles := l, profilesOk := true, profilesLen := 81984 }

/-- A table's bytes have arrived from the host (R29, R264). -/
def Dev.textLoaded (d : Dev) (x : Ctx) (id p kind slot : Nat) (crc : Word) (b : List Byte) : Dev :=
  let t := d.txtShd p
  if d.sliceBusy p 8 then d.endOp x id .notPermitted []
  else if crc32c b ≠ crc then (d.setShd p (t.drop kind slot)).endOp x id .integrity []
  else
    match t.put kind slot b with
    | none => (d.setShd p (t.drop kind slot)).endOp x id .badParam []
    | some n =>
      let grown := d.setShd p n
      if grown.bankUse p > fld (d.devReg (0x080100 + p * 4)) 15 0 * 1024 ∨ grown.bankAll > 33554432 then d.endOp x id .noResource []
      else grown.endOp x id .ok [wd (n.use - (t.drop kind slot).use)]

/-- TXT_TABLE_LOAD. -/
def tableLoadCmd (_ : Ctx) (q : Req) (d : Dev) : Ans :=
  if !q.clean [(2, top32), (3, top32), (4, top32), (5, 0x703), (6, top32)] then .refuse .badParam
  else if d.sliceBusy q.part 8 then .refuse .notPermitted
  else .accept [] (.tableLoad (q.f 5 1 0) (q.f 5 10 8) (q.w 4).toNat (q.w 6)) d

/-- TXT_MODEL_TOK. -/
def modelTokCmd (_ : Ctx) (q : Req) (d : Dev) : Ans :=
  let m := q.f 2 15 0
  let p := q.part
  if !q.clean [(2, 0xFFFF), (3, 0x107)] ∨ m > 4095 then .refuse .badParam
  else if d.sliceBusy p 8 then .refuse .notPermitted
  else
    let t := d.txtShd p
    let t := { t with mmap := if bitAt (q.w 3).toNat 8 then tdel t.mmap m else tset t.mmap m (q.f 3 2 0) }
    let enc (v : Option Nat) : Word := v.elim 0 fun k => wd (256 + k)
    .done .ok [enc (tget (d.txtSet p).mmap m), enc (tget t.mmap m)] (d.setShd p t)

/-! ### Grammar objects (R284, R285) -/

/-- Whether an object is a grammar within its ranges. -/
def Dev.grammarOk (d : Dev) (s : Share) : Bool :=
  let h := d.shareRead s 0 64
  let ns := leAt h 4 4
  let nt := leAt h 16 4
  let need := 64 + 8 * ns + 16 * nt
  if leAt h 0 4 ≠ 0x31524D47 ∨ ns = 0 ∨ ns > 1048576 ∨ leAt h 12 4 ≥ ns ∨ need > s.bytes then false
  else
    let b := d.shareRead s 0 need
    let idx := (items b 64 8 ns).map fun e => (fld e 31 0, fld e 47 32)
    let trs := items b (64 + 8 * ns) 16 nt
    let trOk (t : Nat) : Bool :=
      fld t 83 64 < ns && fld t 127 126 != 3 && (fld t 123 112 ≤ 4093 || 0xFFE ≤ fld t 123 112) &&
        (fld t 127 126 != 1 || fld t 107 96 ≤ 4093)
    let firsts (e : Nat × Nat) : List Nat := ((trs.drop e.1).take e.2).map fun t => fld t 17 0
    trs.all trOk && idx.all fun e => e.1 + e.2 ≤ nt && decide (List.Pairwise (· ≤ ·) (firsts e))

/-- TXT_GRAMMAR_SET. An entry holds a reference on its object for as long as it is in a set. -/
def grammarSetCmd (_ : Ctx) (q : Req) (d : Dev) : Ans :=
  let g := q.f 2 3 0
  let p := q.part
  let sh := (q.w 3).toNat
  if !q.clean [(2, 0x1070F), (3, top32)] then .refuse .badParam
  else if d.sliceBusy p 8 then .refuse .notPermitted
  else
    let t := d.txtShd p
    let drop (d : Dev) : Dev := (tget t.grams g).elim d fun o => d.shareUnref o.1
    if bitAt (q.w 2).toNat 16 then .done .ok [] (drop (d.setShd p { t with grams := tdel t.grams g }))
    else
      match d.share sh with
      | none => .refuse .notPermitted
      | some s =>
        if s.part ≠ p ∨ !s.own ∨ s.sealed then .refuse .notPermitted
        else if !d.grammarOk s then .refuse .badParam
        else
          let h := d.shareRead s 0 64
          .done .ok [wd (leAt h 4 4), wd (leAt h 8 4)]
            (drop ((d.shareRef sh).setShd p { t with grams := tset t.grams g (sh, q.f 2 10 8) }))

/-- TXT_QUERY. -/
def txtQueryCmd (_ : Ctx) (q : Req) (d : Dev) : Ans :=
  match d.lookup q.part (q.w 2) with
  | .error st => .refuse st
  | .ok s =>
    if !q.clean [(2, top32)] then .refuse .badParam
    else
      match d.req s.request with
      | none => .done .ok [0, 0, 0] d
      | some r =>
        .done .ok [wd (r.gram.elim 0 GramSt.state), wd ((r.gram.elim 0 fun g => g.stack.length) + r.hold.length * 65536), wd r.generated] d

/-! ### Text requests (R261, R272-R276) -/

/-- A PARKED session that a REQ_SUBMIT meets is revived as by SES_REVIVE without RESTORE_ONLY (R260). -/
def Dev.submitRevive (d : Dev) (x : Ctx) (h : Word) : Dev :=
  match d.sesOf h with
  | none => d
  | some s =>
    if s.state ≠ .parked then d
    else
      match s.move with
      | none => d.startRevive x h (Movement.new 2 0 false)
      | some m => d.setSes h { s with move := some { m with restoreOnly := false } }

/-- REQ_SUBMIT (R260): the request it starts or joins, and its text with Spelt. -/
def reqSubmitCmd (x : Ctx) (q : Req) (d : Dev) : Ans :=
  let h := q.w 2
  let len := (q.w 5).toNat
  match d.lookup q.part h with
  | .error st => .refuse st
  | .ok s =>
    if !q.clean [(2, top32), (3, top32), (4, 0xFF), (5, top32), (6, top32), (7, top32)] ∨ len = 0 ∨ len > 16777216 then .refuse .badParam
    else if s.state = .free ∨ s.state = .moving ∨ s.state = .closing then .refuse .sessionState
    else if d.bufSealed q.part (bufOff (q.w 3).toNat (q.f 4 7 0)) len then .done .notPermitted [] (d.sealedRead q.part)
    else
      match d.bufRead q.part (bufOff (q.w 3).toNat (q.f 4 7 0)) len with
      | none => .refuse .badParam
      | some (text, bad) =>
        match d.sesText h s (.submit q.seq) (bufOff (q.w 3).toNat (q.f 4 7 0)) text bad false with
        | none => .refuse .badParam
        | some r =>
          let d := if s.request = 0 then d.startReq x h (q.d2 6) true else d
          let num := (d.sesOf h).elim 0 Ses.request
          let d := match d.req num with
            | some t => d.setReq num { t with ops := t.ops ++ [q.seq] }
            | none => d
          let d := d.addText r
          let d := d.submitRevive x h
          .accept [wd num] (.submit h num none) d

/-- TXT_TOKENIZE. -/
def tokenizeCmd (_ : Ctx) (q : Req) (d : Dev) : Ans :=
  let p := q.part
  let len := (q.w 5).toNat
  match d.tokSlot p (q.f 2 15 0) with
  | none => .refuse .badParam
  | some (k, t) =>
    if !q.clean [(2, 0x1FFFF), (3, top32), (4, 0xFF), (5, top32), (6, top32), (7, 0xFF), (8, top32)] ∨ len = 0 then .refuse .badParam
    else if d.bufSealed p (bufOff (q.w 3).toNat (q.f 4 7 0)) len then .done .notPermitted [] (d.sealedRead p)
    else
      match d.bufRead p (bufOff (q.w 3).toNat (q.f 4 7 0)) len with
      | none => .refuse .badParam
      | some (text, bad) =>
        .accept [] (.tokenize (bufOff (q.w 6).toNat (q.f 7 7 0)) (q.w 8).toNat)
          (d.addText ⟨0, 2, p, 0, .tokenize q.seq, text, bad, bitAt (q.w 2).toNat 16, some k, t, d.vocabSize p k, none, none, false,
            (q.w 8).toNat, q.f 2 15 0, bufOff (q.w 3).toNat (q.f 4 7 0), false⟩)

/-- TXT_DETOKENIZE. -/
def detokenizeCmd (_ : Ctx) (q : Req) (d : Dev) : Ans :=
  let p := q.part
  let n := (q.w 5).toNat
  match d.tokSlot p (q.f 2 15 0) with
  | none => .refuse .badParam
  | some (k, t) =>
    if !q.clean [(2, 0xFFFF), (3, top32), (4, 0xFF), (5, top32), (6, top32), (7, 0xFF), (8, top32)] ∨ n = 0 ∨ n > tokCap then .refuse .badParam
    else if d.bufSealed p (bufOff (q.w 3).toNat (q.f 4 7 0)) (4 * n) then .done .notPermitted [] (d.sealedRead p)
    else
      match d.bufRead p (bufOff (q.w 3).toNat (q.f 4 7 0)) (4 * n) with
      | none => .refuse .badParam
      | some (text, bad) =>
        .accept [] (.detok (bufOff (q.w 6).toNat (q.f 7 7 0)) (q.w 8).toNat)
          (d.addText ⟨0, 2, p, 0, .detok q.seq, text, bad, false, some k, t, d.vocabSize p k, none, none, false, (q.w 8).toNat, q.f 2 15 0,
            bufOff (q.w 3).toNat (q.f 4 7 0), false⟩)

/-- Replaces a text request. -/
def Dev.setText (d : Dev) (r : TxtReq) : Dev :=
  { d with txt := { d.txt with reqs := d.txt.reqs.map fun t => if t.id = r.id then r else t } }

/-- The lowest free lane of an instance (R272). -/
def Dev.freeLane (d : Dev) (die : Nat) : Option Nat :=
  (List.range 4).find? fun l => !d.txt.reqs.any fun r => r.die == die && r.lane == some l

/-- The text request that a free lane takes next: small ones of slots first, then in start order (R272). -/
def Dev.nextText (d : Dev) (die : Nat) : Option TxtReq :=
  let w := d.txt.reqs.filter fun r => r.lane == none && (r.die == die || r.die == 2)
  match w.find? TxtReq.small with
  | some r => some r
  | none => w.head?

/-- A text request bound, at its start, to the active set, its profile with it (R35); the text of a request keeps the profile that the
request bound (R277). -/
def Dev.bindText (d : Dev) (r : TxtReq) : TxtReq :=
  let r := match r.profile, d.sesOf r.h with
    | some _, some s =>
      let f := match d.req s.request with
        | some q => q.prof
        | none => d.profileOf r.part (d.template r.h).profile
      { r with profile := f, keepHead := f.elim false Profile.keepHead }
    | _, _ => r
  match d.tokSlot r.part r.model with
  | none => { r with slotNum := none }
  | some (k, t) => { r with slotNum := some k, tables := t, vocabSize := d.vocabSize r.part k }

/-- SPELT_INTAKE: a free lane of an instance takes the next text request. Its read of a COMPUTE region is held while a program runs
there; held for 4 µs, the text is poisoned and the command ends with REGION_BUSY (R143). -/
def speltIntake (die : Nat) (x : Ctx) (d : Dev) : Dev :=
  match d.freeLane die, d.nextText die with
  | some l, some r =>
    if die ≥ 2 then d
    else
      match d.reach x .spelt (9, r.id) (d.runAddrs r.part r.off r.text.length) with
      | (.wait, d) => d
      | (.busy, d) => d.setText { d.bindText r with die := die, lane := some l, poisoned := true, busy := true }
      | (.go, d) => d.setText { d.bindText r with die := die, lane := some l }
  | _, _ => d

/-- The status of a command whose text was poisoned. -/
def TxtReq.badStatus (r : TxtReq) : Status := if r.busy then .regionBusy else .integrity

/-- A slot's text is done: the slot falls due, without tokens where there was no text to take. -/
def Dev.textDue (d : Dev) (h : Word) (n : Nat) (plain : Bool) : Dev :=
  match d.sesOf h with
  | none => d
  | some s =>
    match s.slots[n]? with
    | none => d
    | some l => d.setSes h { s with slots := s.slots.set n { l with due := true, plain := plain } }

/-- A REQ_SUBMIT whose text cannot be taken ends alone; a request that it started and that has nothing else ends too. -/
def Dev.submitFails (d : Dev) (x : Ctx) (h : Word) (op : Nat) (st : Status) : Dev :=
  match d.sesOf h with
  | none => d.endOp x op st []
  | some s =>
    match d.req s.request with
    | none => d.endOp x op st []
    | some r =>
      let ops := r.ops.filter (· != op)
      let d := (d.setReq r.num { r with ops := ops }).endOp x op st []
      if ops.isEmpty ∧ s.pend.isEmpty ∧ r.generated = 0 ∧ r.prefilled = 0 then d.finishReq x h true [] else d

/-- The tokens of an intake appended to pending input (R271, R273, R276). -/
def Dev.appendText (d : Dev) (x : Ctx) (r : TxtReq) (s : Ses) : Dev :=
  let p := r.part
  let i := r.tables.intake r.keepHead tokCap tokCap r.text
  let toks := r.profile.elim [] Profile.pre ++ i.toks ++ r.profile.elim [] Profile.post
  let d := if i.bad = 0 then d else d.bumpPart p 0x080028 i.bad
  let s := { s with trunc := s.trunc || (i.cut && s.request == 0) }
  let d := if i.cut then
      let d := (d.bumpPart p 0x080024 1).recPart x p .log 0x20B (source 8 s.die) r.h (wd (min top32 i.dropB)) (wd (min top32 i.dropT))
      match d.req s.request with
      | some q => d.setReq q.num { q with truncated := true }
      | none => d
    else d
  let pos := s.nextPos + s.pend.length
  let d := d.setPend r.h s (s.pend ++ toks)
  match r.src with
  | .submit op =>
    match tget d.ops op with
    | some ⟨_, _, .submit h n _, _⟩ => d.setOp op (.submit h n (some (pos, toks.length)))
    | _ => d
  | _ => d

/-- The end of an intake for a session. -/
def Dev.sesTextEnd (d : Dev) (x : Ctx) (r : TxtReq) : Dev :=
  match d.sesOf r.h with
  | none => d
  | some s =>
    if s.state = .free ∨ s.state = .closing then
      match r.src with
      | .submit op => d.endOp x op .aborted []
      | _ => d
    else
      match r.src with
      | .slot n =>
        if r.slotNum = none then (d.bumpPart r.part 0x080038 1).textDue r.h n true
        else if r.poisoned then d.textDue r.h n true
        else (d.appendText x r s).textDue r.h n false
      | .submit op =>
        if r.slotNum = none then d.submitFails x r.h op .badParam
        else if r.poisoned then d.submitFails x r.h op r.badStatus
        else if !thas d.ops op then d
        else
          let d := d.appendText x r s
          match s.state with
          | .opened => (d.openWork x r.h).schedule x
          | .warm => (d.enterOpen x r.h).schedule x
          | .moving => (d.sesOf r.h).elim d fun s => d.setSes r.h { s with evLatched := true }
          | .parked => d.submitRevive x r.h
          | _ => d.schedule x
      | _ => d

/-- The end of TXT_TOKENIZE: the tokens written, and what was dropped (R276, R291). -/
def Dev.tokenizeEnd (d : Dev) (x : Ctx) (r : TxtReq) (op : Nat) : Dev :=
  match tget d.ops op with
  | some ⟨_, p, .tokenize dst cap, _⟩ =>
    if r.slotNum = none then d.endOp x op .badParam [0, 0, 0]
    else if r.poisoned then d.endOp x op r.badStatus [0, 0, 0]
    else
      let i := r.tables.intake r.keepHead tokCap cap r.text
      if d.bufCompute p dst (4 * i.toks.length) then (d.bumpPart p 0x050008 1).endOp x op .regionBusy [0, 0, 0]
      else match d.bufWrite x p dst (i.toks.flatMap (leBytes 4)) with
      | none => d.endOp x op .badParam [0, 0, 0]
      | some d =>
        let d := if i.bad = 0 then d else d.bumpPart p 0x080028 i.bad
        let d := if i.cut then d.bumpPart p 0x080024 1 else d
        d.endOp x op (if i.cut then .truncated else .ok) [wd i.toks.length, wd i.dropB, wd i.dropT]
  | _ => d

/-- The end of TXT_DETOKENIZE: the text written, cut at a character's end where it exceeds the capacity. -/
def Dev.detokEnd (d : Dev) (x : Ctx) (r : TxtReq) (op : Nat) : Dev :=
  match tget d.ops op with
  | some ⟨_, p, .detok dst cap, _⟩ =>
    if r.slotNum = none then d.endOp x op .badParam [0]
    else if r.poisoned then d.endOp x op r.badStatus [0]
    else
      let ids := items r.text 0 4 (r.text.length / 4)
      let bad := (ids.filter fun t => (r.tables.text r.vocabSize t).isNone).length
      let raw := ids.flatMap fun t => (r.tables.text r.vocabSize t).getD []
      let text := replaceBad raw.length raw
      let text := if text.length ≤ cap then text else text.take (((bounds text).filter (· ≤ cap)).foldl max 0)
      if d.bufCompute p dst text.length then (d.bumpPart p 0x050008 1).endOp x op .regionBusy [0]
      else match d.bufWrite x p dst text with
      | none => d.endOp x op .badParam [0]
      | some d => (if bad = 0 then d else d.bumpPart p 0x08003C bad).endOp x op .ok [wd text.length]
  | _ => d

/-- SPELT_REQUEST_END: a lane's text request ends, and the meter's tap counts its bytes (R411; log entry 84). -/
def speltEnd (die lane : Nat) (x : Ctx) (d : Dev) : Dev :=
  match d.txt.reqs.find? fun r => r.die == die && r.lane == some lane with
  | none => d
  | some r =>
    let d := { d with txt := { d.txt with reqs := d.txt.reqs.filter fun t => t.id != r.id } }.drainEnd (drainId 24 r.id)
    let d := d.tapAdd r.part 7 r.text.length
    match r.src with
    | .slot _ => d.sesTextEnd x r
    | .submit _ => d.sesTextEnd x r
    | .tokenize op => d.tokenizeEnd x r op
    | .detok op => d.detokEnd x r op

def effReqSubmit (c : Cmd) (s : State) : Host.Outcome State Fault Refusal := hostCmd 0x0401 c reqSubmitCmd s
def effTxtTableLoad (c : Cmd) (s : State) : Host.Outcome State Fault Refusal := hostCmd 0x0500 c tableLoadCmd s
def effTxtModelTok (c : Cmd) (s : State) : Host.Outcome State Fault Refusal := hostCmd 0x0501 c modelTokCmd s
def effTxtGrammarSet (c : Cmd) (s : State) : Host.Outcome State Fault Refusal := hostCmd 0x0502 c grammarSetCmd s
def effTxtQuery (c : Cmd) (s : State) : Host.Outcome State Fault Refusal := hostCmd 0x0503 c txtQueryCmd s
def effTxtTokenize (c : Cmd) (s : State) : Host.Outcome State Fault Refusal := hostCmd 0x0504 c tokenizeCmd s
def effTxtDetokenize (c : Cmd) (s : State) : Host.Outcome State Fault Refusal := hostCmd 0x0505 c detokenizeCmd s
def effSpeltIntake (die : Nat) (s : State) : Host.Outcome State Fault Refusal := onDev (speltIntake die) s
def effSpeltRequestEnd (die lane : Nat) (s : State) : Host.Outcome State Fault Refusal := onDev (speltEnd die lane) s

end Sys2Proof.Machine
end

