-- ==== Sys2Proof/Machine/Net.lean ====
section
/-! DEFINITION. Reed's receiving side, timers, and commands (chapter 12). -/

namespace Sys2Proof.Machine

/-! ### Ports (R293-R295) -/

/-- Whether the mode of a port presents a sub-port, and it is enabled. -/
def Dev.subUp (d : Dev) (sub : Nat) : Bool :=
  let r := d.devReg (0x090100 + sub / 4 * 4)
  let m := fld r 1 0
  sub < 16 && bitAt (fld r 11 8) (sub % 4) && (if m = 0 then sub % 4 == 0 else if m = 1 then sub % 4 < 2 else true)

/-- A frame dropped and counted at a sub-port. -/
def Dev.dropFrame (d : Dev) (sub : Nat) : Dev :=
  { d with net := { d.net with drops := tset d.net.drops sub (satAdd top32 (tgetD d.net.drops sub 0) 1) } }

/-- Whether the MAC passes a frame above (R295). -/
def frameOk (f : Frame) : Bool :=
  64 ≤ f.len && f.len ≤ 9216 && f.tags ≤ 1 && f.fcsOk && match f.kind with
    | .roce4 opts => !opts && f.icrcOk
    | .roce6 ext => !ext && f.icrcOk
    | .pfc => true
    | .arp => true
    | .neighbour => true
    | .other => false

/-- FRAME_RECEIVE. -/
def frameIn (f : Frame) (_ : Ctx) (d : Dev) : Dev := if f.sub ≥ 16 ∨ frameOk f then d else d.dropFrame f.sub

/-- PFC_FRAME: honoured on the priorities that NET_PORTp_CFG.PFC sets. -/
def pfcIn (sub prio : Nat) (xoff : Bool) (_ : Ctx) (d : Dev) : Dev :=
  if sub < 16 ∧ prio < 8 ∧ bitAt (fld (d.devReg (0x090100 + sub / 4 * 4)) 23 16) prio then
    let m := tgetD d.net.paused sub 0
    { d with net := { d.net with paused := tset d.net.paused sub (if xoff then setBit m prio else clrBit m prio) } }
  else d

/-- ARP_REQUEST: answered for the GIDs of the sub-port. -/
def arpIn (sub target : Nat) (_ : Ctx) (d : Dev) : Dev :=
  if d.net.gids.any fun g => g.1 / 16 == sub && g.2.valid && g.2.addr == target then d.out (.arp sub target) else d

/-- ETH_LINK_CHANGE: ALARM NET_LINK to the control host. -/
def linkChange (sub : Nat) (up : Bool) (x : Ctx) (d : Dev) : Dev :=
  if sub ≥ 16 ∨ bitAt d.net.links sub = up then d
  else
    let d := { d with net := { d.net with links := if up then setBit d.net.links sub else clrBit d.net.links sub } }
    (if up then d.startRecover x sub else d).recDev x .alarm 5 (netSource sub) (if up then 1 else 0) 0 0

/-! ### Answers (R302, R305) -/

/-- An RNR NAK for a message or at a PSN (R319). -/
def Dev.sendRnr (d : Dev) (n msn psn : Nat) : Dev :=
  match d.qp n with
  | none => d
  | some q => (d.sendAck n msn 0 psn none (some (fld (d.devReg 0x090120) 20 16))).bumpPart q.part 0x09000C 1

/-- An access that fails (R300): on an EXT queue pair a status, otherwise a NAK Remote Access Error. -/
def Dev.accessErr (d : Dev) (n msn psn : Nat) (st : Status) : Dev :=
  match d.qp n with
  | none => d
  | some q =>
    let d := d.bumpPart q.part 0x09001C 1
    if q.ext then d.answer n msn st else d.sendAck n msn 0 psn (some 2) none

/-! ### Addresses of remote accesses (R219, R220, R300) -/

/-- The partition's memory key. -/
def Dev.memKey (d : Dev) (p : Nat) : Nat := p * 2 ^ 28 + fld (d.partReg p 0x090000) 27 0

/-- One page piece of the KV half: the bytes from `va` to the end of its page, `n` at most. -/
def Dev.kvPiece (d : Dev) (s : Ses) (va n : Nat) : Except Status (List Byte × Bool) :=
  let l := fld va 38 31
  let j := fld va 30 15
  match s.kv with
  | none => .error .badParam
  | some k =>
    if l ≥ k.layers then .error .badParam
    else if j < k.pfxPages then
      match (d.share k.pfx).elim none fun sh => sh.homes[l * sh.pages + j]? with
      | some h => let r := d.homeRead h (va % 32768) n; .ok r
      | none => .error .badParam
    else
      match (k.layer l)[j - k.pfxPages]? with
      | none => .error .badParam
      | some pg => if !pg.valid then .error .badParam else if pg.spilled then .error .sessionState else .ok (d.homeRead pg.home (va % 32768) n)

/-- A read of the KV half. -/
def Dev.kvRange (d : Dev) (s : Ses) : Nat → Nat → Nat → Except Status (List Byte × Bool)
  | 0, _, _ => .ok ([], false)
  | f + 1, va, len =>
    if len = 0 then .ok ([], false)
    else
      let n := min len (32768 - va % 32768)
      match d.kvPiece s va n, d.kvRange s f (va + n) (len - n) with
      | .ok a, .ok b => .ok (a.1 ++ b.1, a.2 || b.2)
      | .error e, _ => .error e
      | _, .error e => .error e

/-- The session a SESSION address names, checked for a queue pair's partition. -/
def Dev.virtSes (d : Dev) (p : Nat) (h : Word) : Except Status Ses := if hPart h ≠ p then .error .notPermitted else d.lookup p h

/-- The bytes a remote read reaches: mapped extents, frozen ones among them, and the KV half (R300). -/
def Dev.remoteRead (d : Dev) (p : Nat) (r : Reth) (ses : Option Word) : Except Status (List Byte × Bool) :=
  let buf (off : Nat) : Except Status (List Byte × Bool) := match d.bufView p off r.len with
    | some b => .ok b
    | none => .error .badParam
  if r.rkey.toNat ≠ d.memKey p then .error .notPermitted
  else if r.va ≥ 2 ^ 40 then .error .badParam
  else
    match ses with
    | none => buf r.va
    | some h =>
      match d.virtSes p h with
      | .error e => .error e
      | .ok s => if bitAt r.va 39 then buf (r.va - 2 ^ 39) else d.kvRange s (r.len / 32768 + 2) r.va r.len

/-- The buffer offset that a remote write reaches. -/
def Dev.remoteWrite (d : Dev) (p : Nat) (r : Reth) (ses : Option Word) : Except Status Nat :=
  let buf (off : Nat) : Except Status Nat := if (d.bufRun p true (runFuel r.len) off r.len).isSome then .ok off else .error .badParam
  if r.rkey.toNat ≠ d.memKey p then .error .notPermitted
  else if r.va ≥ 2 ^ 40 then .error .badParam
  else
    match ses with
    | none => buf r.va
    | some h =>
      match d.virtSes p h with
      | .error e => .error e
      | .ok _ => if bitAt r.va 39 then buf (r.va - 2 ^ 39) else .error .notPermitted

/-- A translation that fails counts in MEM_STU_FAULTS (R220): not a wrong key or partition, nor a write to a session's own pages, which
R300 refuses. -/
def Dev.stuFault (d : Dev) (p : Nat) (write : Bool) (r : Reth) (ses : Option Word) : Dev :=
  match ses with
  | none => d
  | some h =>
    let own := write && !bitAt r.va 39 && match d.virtSes p h with
      | .ok s => s.kv.elim false fun k => k.pfxPages ≤ fld r.va 30 15
      | .error _ => false
    if r.rkey.toNat ≠ d.memKey p ∨ r.va ≥ 2 ^ 40 ∨ hPart h ≠ p ∨ own = true then d else d.bumpPart p 0x040310 1

/-! ### Targets of messages (R306, R307, R310) -/

/-- The next posted entry of an SRQ, taken: its index, buffer offset and length. -/
def Dev.takeSrq (d : Dev) (x : Ctx) (p n : Nat) : Option (Nat × Nat × Nat × Dev) :=
  match tget d.net.srqs (p * 256 + n) with
  | none => none
  | some s =>
    if d.bufCount p s.off ≤ s.taken then none
    else
      let i := s.taken % 2 ^ s.log2
      let e := (d.bufRead p (s.off + 64 + 16 * i) 16).elim [] Prod.fst
      let d := { d with net := { d.net with srqs := tset d.net.srqs (p * 256 + n) { s with taken := s.taken + 1 } } }
      some (i, leAt e 0 8 % 2 ^ 40, leAt e 8 4, (d.bufWrite x p (s.off + 8) (leBytes 8 (s.taken + 1))).getD d)

/-- The completion ring of a queue pair's messages: its own, or that of its SRQ; none for an SRQ that an index listens on (R351). -/
def Dev.msgCq (d : Dev) (q : Qp) : Option Nat :=
  if q.srq.elim false fun s => d.pan.idx.any fun i => i.2.part == q.part && i.2.listen == some s then none
  else match q.cq with
  | some c => some c
  | none => q.srq.elim none fun s => (tget d.net.srqs (q.part * 256 + s)).elim none Srq.cq

/-- An entry of a completion ring reserved; none where no entry is free. -/
def Dev.takeCq (d : Dev) (p : Nat) : Option Nat → Option Dev
  | none => some d
  | some n =>
    match tget d.net.cqs (p * 256 + n) with
    | none => some d
    | some c =>
      if c.written + c.held - d.bufCount p c.off ≥ 2 ^ c.log2 then none
      else some { d with net := { d.net with cqs := tset d.net.cqs (p * 256 + n) { c with held := c.held + 1 } } }

/-- An EWR claimed by a message. -/
def Dev.claimEwr (d : Dev) (n id msn : Nat) : Dev :=
  { d with net := { d.net with ewrs := tmod d.net.ewrs (ewrKey n id) fun e => { e with claimed := some msn } } }

/-- A new reassembly entry. -/
def Reasm.new (len base : Nat) (write : Bool) (imm : Option Word) (now psn : Nat) : Reasm :=
  ⟨len, base, write, [], 0, imm, none, none, none, false, now, false, psn, false⟩

/-- An entry opened with its pins. -/
def Dev.openMsg (d : Dev) (n msn : Nat) (r : Reasm) : Dev :=
  match d.qp n with
  | none => d
  | some q => (d.setQp n { q with reasm := tset q.reasm msn r }).pinMsg q r

/-- Open entries of a die (R304). -/
def Dev.reasmOpen (d : Dev) (die : Nat) : Nat := nsum ((d.net.qps.filter fun q => q.2.die == die).map fun q => q.2.reasm.length)

/-- What opening a message finds: an entry; an RNR NAK; a refusal under R311 for an EWR identifier; a status answer; a
NAK Invalid Request or Remote Access Error. -/
inductive Opened where
  | entry (r : Reasm) (d : Dev)
  | rnr
  | refused (id : Nat)
  | status (st : Status) (d : Dev)
  | access (st : Status)

/-- The target of a SEND that takes an SRQ entry; `len` is the message length where it is known. -/
def Dev.srqTarget (d : Dev) (x : Ctx) (q : Qp) (n len : Nat) (known : Bool) (imm : Option Word) (psn : Nat) : Opened :=
  match q.srq with
  | none => .rnr
  | some s =>
    match d.takeCq q.part (d.msgCq q) with
    | none => .rnr
    | some d' =>
      match d'.takeSrq x q.part s with
      | none => .rnr
      | some (i, off, el, d') =>
        let r := { Reasm.new (if known then len else el) off false imm x.now psn with srq := some (s, i), cq := d.msgCq q }
        if (known ∧ len > el) ∨ (d'.bufRun q.part true (runFuel r.len) off r.len).isNone then .status .badParam (d'.complete x n q r .badParam)
        else .entry r d'

/-- The target of a message that names an EWR: a SEND goes to its buffer, a WRITE must lie in it (R309). -/
def Dev.ewrTarget (d : Dev) (x : Ctx) (n msn id len : Nat) (write : Option Nat) (imm : Option Word) (psn : Nat) : Opened :=
  match d.ewr n id with
  | none => .refused id
  | some e =>
    if e.claimed.isSome then .refused id
    else
      let base := write.getD e.off
      if base < e.off ∨ base + len > e.off + e.len then .status .badParam d
      else .entry { Reasm.new len base write.isSome imm x.now psn with ewr := some id, reserve := e.reserve } (d.claimEwr n id msn)

/-- The target of a WRITE WITH IMMEDIATE that names no EWR: an SRQ entry for its completion only. -/
def Dev.writeImmTarget (d : Dev) (x : Ctx) (q : Qp) (len base : Nat) (imm : Option Word) (psn : Nat) : Opened :=
  match q.srq with
  | none => .rnr
  | some s =>
    match d.takeCq q.part (d.msgCq q) with
    | none => .rnr
    | some d' =>
      match d'.takeSrq x q.part s with
      | none => .rnr
      | some (i, _, _, d') => .entry { Reasm.new len base true imm x.now psn with srq := some (s, i), cq := d.msgCq q } d'

/-- The target of an EXT message (R303). -/
def Dev.extTarget (d : Dev) (x : Ctx) (n : Nat) (q : Qp) (p : Packet) (h : MpHdr) : Opened :=
  let imm := if h.immValid then some h.imm else none
  let ses := if h.session then some h.sesHandle else none
  match p.reth with
  | some r =>
    match d.remoteWrite q.part { r with len := h.msgLen } ses with
    | .error e => .access e
    | .ok base =>
      if h.immValid && q.event then d.ewrTarget x n h.msn h.imm.toNat h.msgLen (some base) imm 0
      else if h.immValid then d.writeImmTarget x q h.msgLen base imm 0
      else .entry (Reasm.new h.msgLen base true none x.now 0) d
  | none =>
    if h.immValid && q.event then d.ewrTarget x n h.msn h.imm.toNat h.msgLen none imm 0
    else d.srqTarget x q n h.msgLen true imm 0

/-! ### EXT packets (R301, R303, R305) -/

/-- Whether a header keeps the table of R301 and the packet forms of R301 and R303, for a queue pair. -/
def mpOk (q : Qp) (p : Packet) (h : MpHdr) : Bool :=
  h.version == 1 && !h.reserved && h.path < (if q.multi then q.paths else 1) && (h.ackPkt || h.status == 0) &&
    (h.session || h.sesHandle == 0) && (h.immValid || h.imm == 0) && (q.enc || h.seq == 0) && p.imm.isNone

/-- Whether a data packet's place in its message is right. -/
def placeOk (q : Qp) (p : Packet) (h : MpHdr) : Bool :=
  h.offset % q.mtu == 0 && h.msgLen ≤ 1024 * q.mtu && p.payload.length ≤ q.mtu && h.offset + p.payload.length ≤ h.msgLen &&
    (p.payload.length == q.mtu || h.offset + p.payload.length == h.msgLen)

/-- The bytes of a packet placed in an entry. -/
def Dev.placeBytes (d : Dev) (x : Ctx) (p : Nat) (r : Reasm) (off : Nat) (bs : List Byte) : Dev :=
  if r.reserve ∨ bs.isEmpty then d else (d.bufWrite x p (r.base + off) bs).getD d

/-- A data packet of an EXT queue pair. -/
def Dev.rxExt (d : Dev) (x : Ctx) (n : Nat) (q : Qp) (p : Packet) (h : MpHdr) : Dev :=
  let bad := d.bumpPart q.part 0x090020 1
  if !placeOk q p h ∨ (p.bth = .writeOnly ∧ p.reth = none) ∨ (p.bth = .sendOnly ∧ p.reth ≠ none) ∨ (p.bth ≠ .writeOnly ∧ p.bth ≠ .sendOnly) then bad
  else
    match q.done.find? fun e => e.1 == h.msn with
    | some e => d.sendAck n h.msn e.2 0 none none
    | none =>
      if q.refused.contains h.msn then d.refuseMsg x n h.msn 0 h.imm.toNat
      else
        let put (d : Dev) (r : Reasm) : Dev :=
          if r.len ≠ h.msgLen then d.bumpPart q.part 0x090020 1
          else if r.bits.contains (h.offset / q.mtu) ∨ r.whole then d
          else
            let got := r.got + p.payload.length
            let r := { r with bits := addNum (h.offset / q.mtu) r.bits, got := got, last := x.now, whole := decide (got = r.len) }
            (d.placeBytes x q.part r h.offset p.payload).modQp n fun q => { q with reasm := tset q.reasm h.msn r }
        match tget q.reasm h.msn with
        | some r => put d r
        | none =>
          if d.reasmOpen q.die ≥ 32768 then (d.sendRnr n h.msn 0).bumpDev 0x09012C 1
          else
            match d.extTarget x n q p h with
            | .entry r d => put (d.openMsg n h.msn r) r
            | .rnr => d.sendRnr n h.msn 0
            | .refused id => d.refuseMsg x n h.msn 0 id
            | .status st d => d.answer n h.msn st
            | .access st => 
              let d := d.accessErr n h.msn 0 st
              p.reth.elim d fun r => d.stuFault q.part true r (if h.session then some h.sesHandle else none)

/-! ### Packets without EXT (R305) -/

/-- Whether an operation starts a message, ends one, or writes. -/
def bthFirst (b : BthOp) : Bool := [.sendFirst, .sendOnly, .sendOnlyImm, .writeFirst, .writeOnly, .writeOnlyImm].contains b
def bthLast (b : BthOp) : Bool :=
  [.sendLast, .sendOnly, .sendLastImm, .sendOnlyImm, .writeLast, .writeOnly, .writeLastImm, .writeOnlyImm].contains b
def bthWrite (b : BthOp) : Bool := [.writeFirst, .writeMiddle, .writeLast, .writeOnly, .writeLastImm, .writeOnlyImm].contains b
def bthImm (b : BthOp) : Bool := [.sendLastImm, .sendOnlyImm, .writeLastImm, .writeOnlyImm].contains b
def bthData (b : BthOp) : Bool :=
  bthFirst b || bthLast b || [.sendMiddle, .writeMiddle].contains b

/-- The target of a message that starts without EXT. -/
def Dev.rcTarget (d : Dev) (x : Ctx) (n : Nat) (q : Qp) (p : Packet) : Opened :=
  if bthWrite p.bth then
    match p.reth with
    | none => .status .badParam d
    | some r =>
      match d.remoteWrite q.part r none with
      | .error e => .access e
      | .ok base => .entry (Reasm.new r.len base true none x.now p.psn) d
  else if p.bth = .sendOnlyImm ∧ q.event then d.ewrTarget x n q.rcMsn (p.imm.getD 0).toNat p.payload.length none p.imm p.psn
  else d.srqTarget x q n p.payload.length (p.bth == .sendOnly || p.bth == .sendOnlyImm) p.imm p.psn

/-- The immediate data of a WRITE's last packet claims its EWR, or takes an SRQ entry (R307, R309). -/
def Dev.rcImm (d : Dev) (x : Ctx) (n : Nat) (q : Qp) (p : Packet) (r : Reasm) : Opened :=
  if !bthWrite p.bth ∨ !bthImm p.bth then .entry { r with imm := p.imm } d
  else
    let o := if q.event then d.ewrTarget x n q.rcMsn (p.imm.getD 0).toNat r.len (some r.base) p.imm p.psn
      else d.writeImmTarget x q r.len r.base p.imm p.psn
    match o with
    | .entry e d => .entry { e with got := r.got, len := r.len } d
    | o => o

/-- A data packet with the expected PSN: the entry, the placement, and the next PSN. -/
def Dev.rcAccept (d : Dev) (x : Ctx) (n : Nat) (q : Qp) (p : Packet) (r : Reasm) : Dev :=
  let msn := q.rcMsn
  let nak (k : Nat) : Dev := d.sendAck n 0 0 p.psn (some k) none
  let got := r.got + p.payload.length
  let whole := bthLast p.bth
  if p.payload.length > q.mtu ∨ (!whole ∧ p.payload.length ≠ q.mtu) ∨ got > r.len ∨ (whole = true ∧ r.write = true ∧ got ≠ r.len) then nak 1
  else
    let next (d : Dev) : Dev := d.modQp n fun q => { q with expPsn := (p.psn + 1) % 2 ^ 24, rcMsn := if whole then q.rcMsn + 1 else q.rcMsn }
    match d.rcImm x n q p r with
    | .rnr => d.sendRnr n 0 p.psn
    | .refused id =>
      next (((d.placeBytes x q.part r r.got p.payload).closeMsg n msn).refuseMsg x n 0 p.psn id)
    | .status _ _ => nak 1
    | .access _ => nak 2
    | .entry r d =>
      let d := d.placeBytes x q.part r r.got p.payload
      let d := (d.qp n).elim d fun q => (tget q.reasm msn).elim d fun o => d.unpinMsg q o
      let r := { r with got := got, len := if whole && !r.write then got else r.len, last := x.now, whole := whole, psn := p.psn }
      next (d.openMsg n msn r)

/-- A data packet of a queue pair without EXT: PSN order, with a NAK for a gap and an ACK for a duplicate. -/
def Dev.rxRc (d : Dev) (x : Ctx) (n : Nat) (q : Qp) (p : Packet) : Dev :=
  let gap := (p.psn + 2 ^ 24 - q.expPsn) % 2 ^ 24
  if gap ≥ 2 ^ 23 then d.sendAck n 0 0 ((q.expPsn + 2 ^ 24 - 1) % 2 ^ 24) none none
  else if gap ≠ 0 then d.sendAck n 0 0 q.expPsn (some 0) none
  else
    match tget q.reasm q.rcMsn with
    | some r => if bthFirst p.bth ∨ bthWrite p.bth ≠ r.write then d.sendAck n 0 0 p.psn (some 1) none else d.rcAccept x n q p r
    | none =>
      if !bthFirst p.bth then d.sendAck n 0 0 p.psn (some 1) none
      else
        match d.rcTarget x n q p with
        | .entry r d => d.rcAccept x n q p r
        | .rnr => d.sendRnr n 0 p.psn
        | .refused id =>
          (d.modQp n fun q => { q with expPsn := (p.psn + 1) % 2 ^ 24, rcMsn := q.rcMsn + 1 }).refuseMsg x n 0 p.psn id
        | .status _ _ => d.sendAck n 0 0 p.psn (some 1) none
        | .access st => d.accessErr n 0 p.psn st

/-! ### READ (R299) -/

/-- The packets of a READ's response. -/
def Dev.readUnits (d : Dev) (n psn : Nat) (h : Option MpHdr) (data : List Byte) (count : Nat) : Nat → Nat → Qp → List ShUnit × Qp
  | 0, _, q => ([], q)
  | f + 1, k, q =>
    let b : BthOp := if count = 1 then .readRespOnly else if k = 0 then .readRespFirst else if k + 1 = count then .readRespLast else .readRespMiddle
    let mp := h.map fun h => { h with msgLen := data.length, offset := k * q.mtu, path := if q.multi then k % q.paths else 0, imm := 0, immValid := false, session := false, sesHandle := 0, seq := 0 }
    let r := q.seal_ (d.mkPacket n q b (psn + k) mp none none ((data.drop (k * q.mtu)).take q.mtu))
    let g := d.gidOf q
    let rs := d.readUnits n psn h data count f (k + 1) r.2
    (⟨frameBytes (isV4 (g.elim 0 Gid.addr)) (g.elim 0 Gid.vlan != 0) r.1 q.enc, .net n 0 r.1⟩ :: rs.1, rs.2)

/-- A READ REQUEST served (R300, R422). -/
def Dev.serveRead (d : Dev) (n : Nat) (q : Qp) (p : Packet) : Dev :=
  let gap := (p.psn + 2 ^ 24 - q.expPsn) % 2 ^ 24
  let msn := p.mp.elim 0 MpHdr.msn
  let ses := p.mp.elim none fun h => if h.session then some h.sesHandle else none
  match p.reth with
  | none => if q.ext then d.bumpPart q.part 0x090020 1 else d.sendAck n 0 0 p.psn (some 1) none
  | some r =>
    if !q.ext ∧ gap ≠ 0 ∧ gap < 2 ^ 23 then d.sendAck n 0 0 q.expPsn (some 0) none
    else if r.rkey.toNat = d.memKey q.part ∧ r.va < 2 ^ 40 ∧ (ses.isNone ∨ bitAt r.va 39) ∧
        d.bufSealed q.part (if ses.isSome then r.va - 2 ^ 39 else r.va) r.len then
      (d.sealedRead q.part).accessErr n msn p.psn .notPermitted
    else
      match d.remoteRead q.part r ses with
      | .error e => (d.accessErr n msn p.psn e).stuFault q.part false r ses
      | .ok (_, true) => if q.ext then d.answer n msn .integrity else d.sendAck n 0 0 p.psn (some 3) none
      | .ok (bs, false) =>
        let c := packetsOf q.mtu bs.length
        let u := d.readUnits n p.psn p.mp bs c c 0 q
        let q' := if q.ext ∨ gap ≠ 0 then u.2 else { u.2 with expPsn := (p.psn + c) % 2 ^ 24 }
        (d.setQp n q').shape q.sub q.part n (q.dscp / 8) u.1

/-- What follows the end of work requests: requests that may start now, and Tiller's moves. -/
def Dev.afterSends (d : Dev) (x : Ctx) (n : Nat) : Dev :=
  let p := (d.qp n).elim 16 Qp.part
  ((d.pump x n).pumpPart x p).reedSettle x

/-- A READ's response: placed, and the request ends when all of it is in. -/
def Dev.readResp (d : Dev) (x : Ctx) (n : Nat) (q : Qp) (p : Packet) : Dev :=
  let off (s : Send) : Nat := match p.mp with
    | some h => h.offset
    | none => (p.psn + 2 ^ 24 - s.psn) % 2 ^ 24 * q.mtu
  let mine (s : Send) : Bool := s.kind == 4 && s.started && match p.mp with
    | some h => h.msn == s.msn
    | none => off s == s.got
  match q.sends.find? mine with
  | none => d
  | some s =>
    if off s + p.payload.length > s.len ∨ s.bits.contains (off s / q.mtu) then d
    else
      let d := match s.bytes with
        | some bs => d.modSend n s.op fun s => { s with bytes := some (bs.take (off s) ++ p.payload ++ bs.drop (off s + p.payload.length)) }
        | none => (d.bufWrite x q.part (s.off + off s) p.payload).getD d
      let got := s.got + p.payload.length
      let d := d.modSend n s.op fun s => { s with got := got, bits := addNum (off s / q.mtu) s.bits }
      if got = s.len then (d.endSend x n s.op .ok).afterSends x n else d

/-! ### Acknowledgements (R302, R305) -/

/-- The RNR timer table of the transport, in units of 10 µs. -/
def rnrTable : List Nat :=
  [65536, 1, 2, 3, 4, 6, 8, 12, 16, 24, 32, 48, 64, 96, 128, 192, 256, 384, 512, 768, 1024, 1536, 2048, 3072, 4096, 6144, 8192, 12288,
    16384, 24576, 32768, 49152]
def rnrTicks (code : Nat) : Nat := (rnrTable[code]?).getD 0 * 1250

/-- All packets of a work request sent again, from packet k on. -/
def Dev.resend (d : Dev) (x : Ctx) (n op k : Nat) : Dev :=
  match d.qp n with
  | none => d
  | some q =>
    match q.sends.find? fun s => s.op == op with
    | none => d
    | some s =>
      match d.sendData q s with
      | none => d.endSend x n op .badParam
      | some (_, true) => d.endSend x n op .integrity
      | some (data, false) =>
        let s' := { s with sentAt := x.now, rnrUntil := none, got := if s.kind = 4 then 0 else s.got, bits := if s.kind = 4 then [] else s.bits }
        let d := (d.dropSend n op).modSend n op fun _ => s'
        d.transmit n s' data k

/-- A work request whose retries are used up: it ends, and its queue pair enters ERROR. -/
def Dev.giveUp (d : Dev) (x : Ctx) (n op : Nat) : Dev := (d.endSend x n op .aborted).qpError x n

/-- A resend counted against RETRY. -/
def Dev.retry (d : Dev) (x : Ctx) (n op k : Nat) : Dev :=
  match d.qp n with
  | none => d
  | some q =>
    match q.sends.find? fun s => s.op == op with
    | none => d
    | some s =>
      if s.tries + 1 > q.retry then d.giveUp x n op
      else (d.modSend n op fun s => { s with tries := s.tries + 1 }).resend x n op k

/-- An RNR NAK for a work request. -/
def Dev.rnrWait (d : Dev) (x : Ctx) (n op code : Nat) : Dev :=
  match d.qp n with
  | none => d
  | some q =>
    match q.sends.find? fun s => s.op == op with
    | none => d
    | some s =>
      if q.rnrRetry ≠ 7 ∧ s.rnrTries + 1 > q.rnrRetry then d.giveUp x n op
      else (d.dropSend n op).modSend n op fun s => { s with rnrTries := s.rnrTries + 1, rnrUntil := some (x.now + rnrTicks code) }

/-- The work requests of a queue pair without EXT whose last PSN is at or before `psn`, in order; a READ that still waits
for its data ends the list. -/
def ackedBy (q : Qp) (psn : Nat) : List Send → List Send
  | [] => []
  | s :: l =>
    let lastPsn := s.psn + packetsOf q.mtu s.len - 1
    if s.kind ≠ 4 ∧ (psn + 2 ^ 24 - lastPsn % 2 ^ 24) % 2 ^ 24 < 2 ^ 23 then s :: ackedBy q psn l else []

/-- The status that a code in an ACK names. -/
def Status.ofCode (c : Nat) : Status :=
  ([.ok, .badParam, .notPermitted, .noResource, .doesNotFit, .sessionState, .staleHandle, .regionBusy, .truncated, .integrity,
    .deviceFault, .aborted] : List Status).find? (fun s => s.code == c) |>.getD .deviceFault

/-- An ACK on an EXT queue pair. -/
def Dev.ackExt (d : Dev) (x : Ctx) (n : Nat) (q : Qp) (p : Packet) (h : MpHdr) : Dev :=
  match q.sends.find? fun s => s.started && s.msn == h.msn with
  | none => d
  | some s =>
    match p.rnrTimer, p.nak with
    | some c, _ => d.rnrWait x n s.op c
    | none, some 0 => d.retry x n s.op 0
    | none, some _ => d.giveUp x n s.op
    | none, none => if s.kind = 4 ∧ h.status = 0 then d else d.endSend x n s.op (Status.ofCode h.status)

/-- An ACK or NAK on a queue pair without EXT; go-back-N from the PSN of a sequence error. -/
def Dev.ackRc (d : Dev) (x : Ctx) (n : Nat) (q : Qp) (p : Packet) : Dev :=
  let upto := if p.nak.isSome ∨ p.rnrTimer.isSome then (p.psn + 2 ^ 24 - 1) % 2 ^ 24 else p.psn
  let done := ackedBy q upto (q.sends.filter Send.started)
  let d := d.endSends x n .ok (done.map Send.op)
  match (d.qp n).elim none fun q => (q.sends.filter Send.started).head? with
  | none => d
  | some s =>
    match p.rnrTimer, p.nak with
    | some c, _ => d.rnrWait x n s.op c
    | none, some 0 =>
      let rest := ((d.qp n).elim [] fun q => (q.sends.filter Send.started)).tail
      let k := (p.psn + 2 ^ 24 - s.psn) % 2 ^ 24
      let d := d.retry x n s.op (if k < packetsOf q.mtu s.len then k else 0)
      rest.foldl (fun d t => d.resend x n t.op 0) d
    | none, some _ => d.giveUp x n s.op
    | none, none => d

/-! ### Arrival -/

/-- Authentication of an ENC queue pair's packet (R321): its tag, and a sequence number in the window and not seen. -/
def Qp.authOk (q : Qp) (p : Packet) : Bool :=
  !q.enc || (p.tagOk && p.mp.elim false fun h => h.seq + 4096 > q.encTop && !q.encSeen.contains h.seq)

/-- The window after a packet is accepted, and the packet's plaintext. -/
def Qp.opened (q : Qp) (p : Packet) : Packet × Qp :=
  if q.enc then
    let sq := p.mp.elim 0 MpHdr.seq
    let top := max q.encTop sq
    ({ p with payload := Config.aesOpen q.key sq p.payload }, { q with encTop := top, encSeen := (addNum sq q.encSeen).filter fun t => t + 4096 > top })
  else (p, q)

/-- A CNP for a packet marked CE, at most one per queue pair in 50 µs (R322). -/
def Dev.sendCnp (d : Dev) (x : Ctx) (n : Nat) (q : Qp) : Dev :=
  if q.cnpAt.elim true fun t => decide (t + 6250 ≤ x.now) then
    let r := q.seal_ (d.mkPacket n q .cnp 0 (if q.ext then some ⟨1, false, false, false, false, 0, 0, 0, 0, 0, 0, 0, 0⟩ else none) none none [])
    (d.setQp n { r.2 with cnpAt := some x.now }).out (.packet r.1)
  else d

/-- A packet of a queue pair whose context is on chip. -/
def Dev.rxQp (d : Dev) (x : Ctx) (n : Nat) (p : Packet) : Dev :=
  match d.qp n with
  | none => d
  | some q =>
    if q.st ≠ 1 then d
    else
      let d := if p.ce then d.sendCnp x n q else d
      match d.qp n with
      | none => d
      | some q =>
        if q.ext ≠ p.mp.isSome then d
        else if !(p.mp.elim true fun h => mpOk q p h) then d.bumpPart q.part 0x090020 1
        else if !q.authOk p then d.bumpPart q.part 0x090018 1
        else
          let o := q.opened p
          let p := o.1
          let q := { o.2 with used := x.now }
          let d := d.setQp n q
          if p.bth = .ack then
            match p.mp with
            | some h => if h.ackPkt then (d.ackExt x n q p h).afterSends x n else d.bumpPart q.part 0x090020 1
            | none => (d.ackRc x n q p).afterSends x n
          else if p.bth = .readReq then d.serveRead n q p
          else if bthData p.bth then
            match p.mp with
            | some h => if h.ackPkt then d.bumpPart q.part 0x090020 1 else d.rxExt x n q p h
            | none => d.rxRc x n q p
          else if [BthOp.readRespFirst, .readRespMiddle, .readRespLast, .readRespOnly].contains p.bth then d.readResp x n q p
          else d.sendAck n (p.mp.elim 0 MpHdr.msn) 0 p.psn (some 1) none

/-- Held bytes of a queue pair and of a die (R319). -/
def heldBytes (l : List Packet) : Nat := nsum (l.map fun p => p.payload.length)
def Dev.dieHeld (d : Dev) (die : Nat) : Nat := nsum ((d.net.qps.filter fun q => q.2.die == die).map fun q => heldBytes q.2.held)

/-- A packet held for a context fetch, or dropped with an RNR NAK where a limit is exceeded (R319). -/
def Dev.holdPacket (d : Dev) (x : Ctx) (n : Nat) (q : Qp) (p : Packet) : Dev :=
  if q.held.length ≥ 8 ∨ heldBytes q.held + p.payload.length > 65536 ∨ d.dieHeld q.die + p.payload.length > 8388608 then
    d.sendRnr n (p.mp.elim 0 MpHdr.msn) p.psn
  else
    (d.setQp n { q with held := q.held ++ [p], fetchAt := some (q.fetchAt.getD x.now) }).needCtx x n

/-- A packet at a sub-port: its P_Key, ICRC and UDP port, its address (R296), then its queue pair. -/
def Dev.packetIn (d : Dev) (x : Ctx) (p : Packet) : Dev :=
  match d.qp p.qpn with
  | none => d.bumpDev 0x090130 1
  | some q =>
    let mine := (d.gidOf q).elim false fun g => q.sub == p.sub && g.valid && g.addr == p.dst && g.vlan == p.vlan && g.owner == q.part
    if !p.icrcOk ∨ p.pkey ≠ 0xFFFF ∨ p.dport ≠ (if p.mp.isSome then d.mpPort else rocePort) then d.dropFrame p.sub
    else if !mine then d.bumpDev 0x090130 1
    else if q.st ≠ 1 then d
    else
      match q.place with
      | .chip => d.rxQp x p.qpn p
      | .lost => d.needCtx x p.qpn
      | .area _ => d.holdPacket x p.qpn q p

/-- PACKET_ARRIVAL_EXT, PACKET_ARRIVAL_RC, READ_REQUEST and ACK_ARRIVAL, each for its kind of packet. -/
def extIn (p : Packet) (x : Ctx) (d : Dev) : Dev := if p.mp.isSome ∧ p.bth ≠ .readReq ∧ p.bth ≠ .ack ∧ p.bth ≠ .cnp then d.packetIn x p else d
def rcIn (p : Packet) (x : Ctx) (d : Dev) : Dev := if p.mp = none ∧ p.bth ≠ .readReq ∧ p.bth ≠ .ack ∧ p.bth ≠ .cnp then d.packetIn x p else d
def readIn (p : Packet) (x : Ctx) (d : Dev) : Dev := if p.bth = .readReq then d.packetIn x p else d
def ackIn (p : Packet) (x : Ctx) (d : Dev) : Dev := if p.bth = .ack then d.packetIn x p else d

/-- CNP_ARRIVAL (R322). -/
def cnpIn (n : Nat) (_ : Ctx) (d : Dev) : Dev :=
  match d.qp n with
  | none => d
  | some q =>
    if q.st ≠ 1 then d
    else
    let pr := d.flowProf q.part (shDomain q.sub) (q.dscp / 8)
    let f := d.shFlow q.sub q.part n (q.dscp / 8)
    let c := max (f.cc.getD pr.rate * 7 / 8) (fld (d.partReg q.part 0x090024) 9 0 * 125)
    d.setShFlow (flowBKey q.sub q.part n) { f with cc := some (min c pr.rate), quiet := 0 }

/-! ### Completion of a message (R303, R310) -/

/-- An EWR that fires: it is consumed, its SLOT action is posted, and its deferred sends start. One that Sheaf keeps for notices is
posted again in the same tick (R357). -/
def Dev.fireEwr (d : Dev) (x : Ctx) (n id : Nat) (r : Reasm) : Dev :=
  match d.ewr n id with
  | none => d
  | some e =>
    let d : Dev := if id < 0xFFFF0000 then d.dropEwr n id
      else { d with net := { d.net with ewrs := tset d.net.ewrs (ewrKey n id) { e with deferred := [], claimed := none } } }
    let d := match e.slot with
      | some (h, k) => (d.charge h 4 r.len).slotEvent h k r.base r.len (if r.waited then none else some r.last)
      | none => d
    d.releaseDeferred x e.deferred

/-- MESSAGE_COMPLETE. -/
def msgComplete (n msn : Nat) (x : Ctx) (d : Dev) : Dev :=
  match d.qp n with
  | none => d
  | some q =>
    match tget q.reasm msn with
    | none => d
    | some r =>
      if !r.whole then d
      else
        let d := (d.setQp n { q with reasm := tdel q.reasm msn }).unpinMsg q r
        let d := if q.ext then d.answer n msn .ok else d.sendAck n 0 0 r.psn none none
        let d := if r.write then d.countPlaced n r.base r.len else d
        let d := d.complete x n q r .ok
        (match r.ewr with
          | some id => d.fireEwr x n id r
          | none => d).reedSettle x

/-! ### Timers (R302, R304, R314, R319) -/

/-- ACK_TIMEOUT. -/
def ackTimeout (n msn : Nat) (x : Ctx) (d : Dev) : Dev :=
  match d.qp n with
  | none => d
  | some q =>
    match q.sends.find? fun s => s.started && s.msn == msn with
    | none => d
    | some s =>
      if !s.onWire ∨ s.rnrUntil.isSome ∨ s.sentAt + q.rto > x.now ∨ q.st ≠ 1 then d
      else
        let rest := if q.ext then [] else ((q.sends.filter fun t => t.started && t.op != s.op)).map Send.op
        let d := d.retry x n s.op 0
        (rest.foldl (fun d o => d.resend x n o 0) d).afterSends x n

/-- RNR_TIMER_EXPIRY. -/
def rnrExpiry (n msn : Nat) (x : Ctx) (d : Dev) : Dev :=
  match d.qp n with
  | none => d
  | some q =>
    match q.sends.find? fun s => s.started && s.msn == msn with
    | none => d
    | some s =>
      if s.rnrUntil.elim true fun t => decide (x.now < t) then d
      else
        let rest := if q.ext then [] else ((q.sends.filter fun t => t.started && t.op != s.op)).map Send.op
        rest.foldl (fun d o => d.resend x n o 0) (d.resend x n s.op 0)

/-- REASSEMBLY_TIMEOUT (R304). -/
def reasmTimeout (n msn : Nat) (x : Ctx) (d : Dev) : Dev :=
  match d.qp n with
  | none => d
  | some q =>
    match tget q.reasm msn with
    | none => d
    | some r =>
      if r.whole ∨ r.last + 4 * q.rto > x.now then d
      else
        let d := d.closeMsg n msn
        let d := if r.srq.isSome then d.complete x n q r .aborted else d
        match r.ewr with
        | some id => { d with net := { d.net with ewrs := tmod d.net.ewrs (ewrKey n id) fun e => { e with claimed := none } } }
        | none => d

/-- CONTEXT_FETCH_COMPLETE: the context is on chip, and the held packets are processed in arrival order. -/
def ctxFetched (n : Nat) (x : Ctx) (d : Dev) : Dev :=
  match d.qp n with
  | none => d
  | some q =>
    if !q.fetching then d
    else
      match (d.modQp n fun q => { q with fetching := false }).makePlace q.die with
      | none => d
      | some d =>
        let d := d.setQp n { q with place := .chip, fetching := false, fetchAt := none, held := [], used := x.now }
        let d := ((q.held.mapIdx fun i p => (i, p)).foldl (fun d e => d.underOld 9 (drainId 9 (n * 16 + e.1)) fun d => d.rxQp x n e.2) d).heldDrain n
        (d.modQp n fun q => { q with reasm := q.reasm.map fun m => (m.1, { m.2 with waited := m.2.waited || m.2.last == x.now }) }).afterSends x n

/-- The packets that get an RNR NAK when held packets are dropped: one at the earliest PSN, or one for each message. -/
def rnrHeads (ext : Bool) (l : List Packet) : List Packet :=
  if ext then l.foldl (fun t p => if t.any fun u => u.mp.map MpHdr.msn == p.mp.map MpHdr.msn then t else t ++ [p]) [] else l.take 1

/-- CONTEXT_FETCH_EXPIRY: 20 µs after the first held packet. -/
def ctxExpired (n : Nat) (x : Ctx) (d : Dev) : Dev :=
  match d.qp n with
  | none => d
  | some q =>
    if q.place = .chip ∨ q.held.isEmpty ∨ (q.fetchAt.elim true fun t => decide (x.now < t + 2500)) then d
    else
      let d := ((d.heldDrain n).setQp n { q with held := [], fetchAt := none, fetching := false }).bumpPart q.part 0x090010 q.held.length
      (rnrHeads q.ext q.held).foldl (fun d p => d.sendRnr n (p.mp.elim 0 MpHdr.msn) p.psn) d

/-- WAIT_EN_RELEASE. -/
def waitRelease (n : Nat) (x : Ctx) (d : Dev) : Dev := (d.pump x n).reedSettle x

/-! ### Commands (R324) -/

/-- The lowest free queue pair number from 2 on (R297). -/
def Dev.freeQpn (d : Dev) : Nat := freshKey d.net.qps d.net.qps.length 2

/-- The path MTU of a code. -/
def mtuOf (code : Nat) : Nat := if code = 3 then 1024 else if code = 4 then 2048 else 4096

/-- NET_QP_CREATE. -/
def qpCreateCmd (x : Ctx) (q : Req) (d : Dev) : Ans :=
  let p := q.part
  let b (i : Nat) : Bool := bitAt (q.w 2).toNat i
  let sub := q.f 2 3 0
  let code := q.f 2 26 24
  let srq := if bitAt (q.w 3).toNat 8 then some (q.f 3 7 0) else none
  let cq := if bitAt (q.w 4).toNat 8 then some (q.f 4 7 0) else none
  let paths := q.f 5 4 0
  let known (t : Option Nat) (has : Nat → Bool) : Bool := t.elim true fun n => has (p * 256 + n)
  if !q.clean [(2, 0x71F0F0F), (3, 0x1FF), (4, 0x1FF), (5, 0x1F)] ∨ code < 3 ∨ code > 5 ∨ paths = 0 ∨ paths > 16 ∨ (b 17 ∧ !b 16) ∨
      (b 19 ∧ !b 16) ∨ !known srq (thas d.net.srqs) ∨ !known cq (thas d.net.cqs) ∨ !d.subUp sub then .refuse .badParam
  else if !(tget d.net.gids (sub * 16 + q.f 2 11 8)).elim false fun g => g.valid && g.owner == p then .refuse .notPermitted
  else if (d.net.qps.filter fun e => e.2.part == p).length ≥ fld (d.devReg (0x090200 + p * 0x10)) 20 0 then .refuse .noResource
  else if b 20 ∧ ((d.net.qps.filter fun e => e.2.part == p && e.2.pin).length ≥ fld (d.devReg (0x090208 + p * 0x10)) 20 0 ∨
      (d.net.qps.filter fun e => e.2.die == sub / 8 && e.2.pin).length ≥ 24576) then .refuse .noResource
  else
    let n := d.freeQpn
    let mk (pl : CtxPlace) : Qp := ⟨p, sub, q.f 2 11 8, b 16, b 17, b 18, b 19, b 20, mtuOf code, srq, cq, paths, 0, 0, 0, 0, 0, 0, 0, 0, 0, 0, 0,
      0, 0, pl, x.now, [], none, false, [], [], 0, [], [], 1, 0, [], none⟩
    match d.makePlace (sub / 8) with
    | some d => .done .ok [wd n] (d.setQp n (mk .chip))
    | none =>
      match if b 20 then none else d.ctxArea p with
      | some port => .done .ok [wd n] (d.setQp n (mk (.area port)))
      | none => .refuse .noResource

/-- NET_QP_CONNECT. -/
def qpConnectCmd (_ : Ctx) (q : Req) (d : Dev) : Ans :=
  match d.ownQp q.part (q.w 2).toNat with
  | none => .refuse .badParam
  | some t =>
    if !q.clean [(2, 0xFFFFF), (3, 0xFFFFFF), (4, top32), (5, top32), (6, top32), (7, top32), (8, top32), (9, 0xFFFF), (10, 0xFFFFFF),
        (11, 0xFFFFFF), (12, 0x3F771F), (13, 0xFFFF)] ∨ (t.enc ∧ !thas d.sec.conn (q.part * 65536 + q.f 13 15 0)) then .refuse .badParam
    else if t.st ≠ 0 then .refuse .sessionState
    else
      .done .ok [] (d.setQp (q.w 2).toNat { t with
        st := 1
        rqpn := q.f 3 23 0
        raddr := q.d2 4 + q.d2 6 * 2 ^ 64
        dmac := (q.w 8).toNat + q.f 9 15 0 * 2 ^ 32
        sendPsn := q.f 10 23 0
        expPsn := q.f 11 23 0
        ackCode := q.f 12 4 0
        retry := q.f 12 10 8
        rnrRetry := q.f 12 14 12
        dscp := q.f 12 21 16
        key := q.f 13 15 0 })

/-- NET_QP_DESTROY, from any state (R297). -/
def qpDestroyCmd (x : Ctx) (q : Req) (d : Dev) : Ans :=
  let n := (q.w 2).toNat
  match d.ownQp q.part n with
  | none => .refuse .badParam
  | some t =>
    if !q.clean [(2, 0xFFFFF)] then .refuse .badParam
    else
      let count := t.sends.length + (d.net.deferred.filter fun e => e.2.2.1 == n).length
      let d := d.qpError x n
      let d := { d with net := { d.net with qps := tdel d.net.qps n } }.unshape fun u => match u.what with
        | .net m _ _ => m == n
        | _ => false
      .both [] .ok [wd count] ((d.pumpPart x q.part).reedSettle x)

/-- NET_QP_QUERY. -/
def qpQueryCmd (_ : Ctx) (q : Req) (d : Dev) : Ans :=
  let n := (q.w 2).toNat
  match d.ownQp q.part n with
  | none => .refuse .badParam
  | some t =>
    if !q.clean [(2, 0xFFFFF)] then .refuse .badParam
    else .done .ok [wd (t.st + if t.place = .chip then 256 else 0), wd t.count, wd t.reasm.length,
      wd (d.net.ewrs.filter fun e => e.1 / 2 ^ 32 == n).length] d

/-- The lowest free number of a partition's 256. -/
def freeNum {α : Type} (t : Tbl α) (p : Nat) : Option Nat := (List.range 256).find? fun i => !thas t (p * 256 + i)

/-- NET_SRQ_CREATE. -/
def srqCreateCmd (_ : Ctx) (q : Req) (d : Dev) : Ans :=
  let p := q.part
  let n := q.f 4 4 0
  let off := bufOff (q.w 2).toNat (q.f 3 7 0)
  let cq := if bitAt (q.w 5).toNat 8 then some (q.f 5 7 0) else none
  let len := 64 + 16 * 2 ^ n
  if !q.clean [(2, top32), (3, 0xFF), (4, 0x1F), (5, 0x1FF)] ∨ n < 4 ∨ n > 16 ∨ (d.bufRun p true (runFuel len) off len).isNone ∨
      !cq.elim true fun c => thas d.net.cqs (p * 256 + c) then .refuse .badParam
  else
    match freeNum d.net.srqs p with
    | none => .refuse .noResource
    | some i => .done .ok [wd i] { d with net := { d.net with srqs := tset d.net.srqs (p * 256 + i) ⟨p, off, n, cq, 0⟩ } }

/-- NET_SRQ_DESTROY. -/
def srqDestroyCmd (_ : Ctx) (q : Req) (d : Dev) : Ans :=
  let k := q.part * 256 + q.f 2 7 0
  if !q.clean [(2, 0xFF)] ∨ !thas d.net.srqs k then .refuse .badParam
  else if d.net.qps.any fun e => e.2.part == q.part && e.2.srq == some (q.f 2 7 0) then .refuse .notPermitted
  else .done .ok [] { d with net := { d.net with srqs := tdel d.net.srqs k } }

/-- NET_CQ_CREATE. -/
def cqCreateCmd (_ : Ctx) (q : Req) (d : Dev) : Ans :=
  let p := q.part
  let n := q.f 4 4 0
  let off := bufOff (q.w 2).toNat (q.f 3 7 0)
  let len := 64 + 32 * 2 ^ n
  if !q.clean [(2, top32), (3, 0xFF), (4, 0x11F)] ∨ n < 4 ∨ n > 16 ∨ (d.bufRun p true (runFuel len) off len).isNone then .refuse .badParam
  else
    match freeNum d.net.cqs p with
    | none => .refuse .noResource
    | some i =>
      .done .ok [wd i] { d with net := { d.net with cqs := tset d.net.cqs (p * 256 + i) ⟨p, off, n, bitAt (q.w 4).toNat 8, 0, 0, none⟩ } }

/-- NET_CQ_DESTROY: refused while a queue pair uses the ring, itself or through its SRQ. -/
def cqDestroyCmd (_ : Ctx) (q : Req) (d : Dev) : Ans :=
  let i := q.f 2 7 0
  let k := q.part * 256 + i
  if !q.clean [(2, 0xFF)] ∨ !thas d.net.cqs k then .refuse .badParam
  else if d.net.qps.any fun e => e.2.part == q.part && d.msgCq e.2 == some i then .refuse .notPermitted
  else .done .ok [] { d with net := { d.net with cqs := tdel d.net.cqs k } }

/-- The remote key of a NET_SEND, which no parameter gives: a free value (log entry 5). -/
def Dev.freeKey (d : Dev) : Word × Dev := (wd d.takeFree.1, d.takeFree.2)

/-- NET_SEND (R313-R315). -/
def netSendCmd (_ : Ctx) (q : Req) (d : Dev) : Ans :=
  let p := q.part
  let n := q.f 2 19 0
  let k := q.f 3 2 0
  let b (i : Nat) : Bool := bitAt (q.w 3).toNat i
  let off := bufOff (q.w 4).toNat (q.f 5 7 0)
  let len := (q.w 6).toNat
  let wq := q.f 11 19 0
  match d.ownQp p n with
  | none => .refuse .badParam
  | some t =>
    if !q.clean [(2, 0xFFFFF), (3, 0x707), (4, top32), (5, 0xFF), (6, top32), (7, top32), (8, top32), (9, top32), (10, top32), (11, 0xFFFFF),
        (12, top32), (13, 0xFFFFF), (14, top32)] ∨ k > 4 ∨ (t.ext ∧ len > 1024 * t.mtu) ∨ len > 2 ^ 31 ∨ (b 8 ∧ !t.ext) ∨
        (d.bufRun p (k == 4) (runFuel len) off len).isNone ∨ (b 10 ∧ (wq = n ∨ (d.ownQp p wq).isNone)) then .refuse .badParam
    else if t.st = 0 then .refuse .sessionState
    else if t.st = 2 then .refuse .aborted
    else if t.sends.length ≥ 4096 then .refuse .noResource
    else
      let r := d.freeKey
      let s := Send.new q.seq k off len none (q.d2 7) r.1 (q.w 9) (if b 8 then some (q.w 10) else none)
        (if b 10 then some (wq, (q.w 12).toNat) else none)
      let d := r.2
      if b 9 then
        match if (d.ownQp p (q.f 13 19 0)).isSome then d.ewr (q.f 13 19 0) (q.w 14).toNat else none with
        | none => .refuse .badParam
        | some e =>
          if e.deferred.length ≥ 4 then .refuse .noResource
          else
            let key := ewrKey (q.f 13 19 0) (q.w 14).toNat
            let net := { d.net with
              ewrs := tset d.net.ewrs key { e with deferred := e.deferred ++ [q.seq] }
              deferred := tset d.net.deferred q.seq (key, n, s) }
            .accept [] (.other 0x0610 n 0 0) { d with net := net }
      else .accept [] (.other 0x0610 n 0 0) (d.setQp n { t with sends := t.sends ++ [s] })

/-- NET_SEND, and the start of what may start now. -/
def netSendRow (c : Cmd) (x : Ctx) (d : Dev) : Dev := (runCmd 0x0610 c netSendCmd x d).afterSends x (wfld (c.w 2) 19 0)

/-- NET_EWR_POST. -/
def ewrPostCmd (_ : Ctx) (q : Req) (d : Dev) : Ans :=
  let p := q.part
  let n := q.f 2 19 0
  let id := (q.w 3).toNat
  let off := bufOff (q.w 4).toNat (q.f 5 7 0)
  let len := (q.w 6).toNat
  let k := q.f 8 2 0
  match d.ownQp p n with
  | none => .refuse .badParam
  | some t =>
    if !q.clean [(2, 0xFFFFF), (3, top32), (4, top32), (5, 0xFF), (6, top32), (7, top32), (8, 7)] ∨ !t.event ∨ id = 0 ∨ len = 0 ∨
        len > 4194304 ∨ off + len > 2 ^ 39 ∨ (d.bufRun p true (runFuel len) off len).isNone then .refuse .badParam
    else if t.st = 2 then .refuse .sessionState
    else
      let slot : Except Status (Option (Word × Nat)) :=
        if q.w 7 = 0 then .ok none
        else
          match d.lookup p (q.w 7) with
          | .error e => .error e
          | .ok s => if (s.slots[k]?).elim false fun l => l.prepared && l.kind == 1 then .ok (some (q.w 7, k)) else .error .badParam
      match slot with
      | .error e => .refuse e
      | .ok sl =>
        match d.ewrPost p n id off len false sl with
        | .error e => .refuse e
        | .ok d => .done .ok [wd (ewrEnts off len)] d

/-- NET_EWR_WITHDRAW. -/
def ewrWithdrawCmd (x : Ctx) (q : Req) (d : Dev) : Ans :=
  let n := q.f 2 19 0
  match d.ownQp q.part n with
  | none => .refuse .badParam
  | some _ =>
    if !q.clean [(2, 0xFFFFF), (3, top32)] then .refuse .badParam
    else .done .ok [if (d.ewr n (q.w 3).toNat).isSome then 1 else 0] (d.withdrawEwr x n (q.w 3).toNat)

/-- NET_GID_SET. -/
def gidSetCmd (_ : Ctx) (q : Req) (d : Dev) : Ans :=
  let sub := q.f 2 3 0
  let i := q.f 2 11 8
  if !q.clean [(2, 0x710F0F0F), (3, 0xFFF), (4, top32), (5, top32), (6, top32), (7, top32)] then .refuse .badParam
  else if d.net.qps.any fun e => e.2.sub == sub && e.2.gid == i then .refuse .notPermitted
  else
    let g : Gid := ⟨q.d2 4 + q.d2 6 * 2 ^ 64, q.f 3 11 0, q.f 2 30 28, q.f 2 19 16, bitAt (q.w 2).toNat 24⟩
    .done .ok [] { d with net := { d.net with gids := tset d.net.gids (sub * 16 + i) g } }

/-- NET_CTX_AREA. -/
def ctxAreaCmd (_ : Ctx) (q : Req) (d : Dev) : Ans :=
  if !q.clean [(2, top32), (3, top32)] ∨ q.d2 2 % 4096 ≠ 0 then .refuse .badParam
  else .done .ok [] { d with net := { d.net with areas := tset d.net.areas q.fnOr.port (q.d2 2) } }

/-- NET_PORT_QUERY: the FEC counts come from the line, and are free values (log entry 5). -/
def portQueryCmd (_ : Ctx) (q : Req) (d : Dev) : Ans :=
  let sub := q.f 2 3 0
  if !q.clean [(2, 0xF)] then .refuse .badParam
  else
    let own := d.net.gids.any fun g => g.1 / 16 == sub && g.2.valid && g.2.owner == q.part
    let a := d.takeFree
    let b := a.2.takeFree
    .done .ok [wd ((if bitAt d.net.links sub then 1 else 0) + if own then 2 else 0), wd a.1, wd b.1, wd (tgetD d.net.drops sub 0)] b.2

def effFrameReceive (f : Frame) (s : State) : Host.Outcome State Fault Refusal := onDev (frameIn f) s
def effPfcFrame (sub prio : Nat) (xoff : Bool) (s : State) : Host.Outcome State Fault Refusal := onDev (pfcIn sub prio xoff) s
def effArpRequest (sub target : Nat) (s : State) : Host.Outcome State Fault Refusal := onDev (arpIn sub target) s
def effPacketArrivalExt (p : Packet) (s : State) : Host.Outcome State Fault Refusal := onDev (extIn p) s
def effPacketArrivalRc (p : Packet) (s : State) : Host.Outcome State Fault Refusal := onDev (rcIn p) s
def effReadRequest (p : Packet) (s : State) : Host.Outcome State Fault Refusal := onDev (readIn p) s
def effMessageComplete (n msn : Nat) (s : State) : Host.Outcome State Fault Refusal := onDev (msgComplete n msn) s
def effAckArrival (p : Packet) (s : State) : Host.Outcome State Fault Refusal := onDev (ackIn p) s
def effAckTimeout (n msn : Nat) (s : State) : Host.Outcome State Fault Refusal := onDev (ackTimeout n msn) s
def effRnrTimerExpiry (n msn : Nat) (s : State) : Host.Outcome State Fault Refusal := onDev (rnrExpiry n msn) s
def effCnpArrival (n : Nat) (s : State) : Host.Outcome State Fault Refusal := onDev (cnpIn n) s
def effReassemblyTimeout (n msn : Nat) (s : State) : Host.Outcome State Fault Refusal := onDev (reasmTimeout n msn) s
def effContextFetchComplete (n : Nat) (s : State) : Host.Outcome State Fault Refusal := onDev (ctxFetched n) s
def effContextFetchExpiry (n : Nat) (s : State) : Host.Outcome State Fault Refusal := onDev (ctxExpired n) s
def effEthLinkChange (sub : Nat) (up : Bool) (s : State) : Host.Outcome State Fault Refusal := onDev (linkChange sub up) s
def effWaitEnRelease (n : Nat) (s : State) : Host.Outcome State Fault Refusal := onDev (waitRelease n) s
def effNetQpCreate (c : Cmd) (s : State) : Host.Outcome State Fault Refusal := hostCmd 0x0600 c qpCreateCmd s
def effNetQpConnect (c : Cmd) (s : State) : Host.Outcome State Fault Refusal := hostCmd 0x0601 c qpConnectCmd s
def effNetQpDestroy (c : Cmd) (s : State) : Host.Outcome State Fault Refusal := hostCmd 0x0602 c qpDestroyCmd s
def effNetQpQuery (c : Cmd) (s : State) : Host.Outcome State Fault Refusal := hostCmd 0x0603 c qpQueryCmd s
def effNetSrqCreate (c : Cmd) (s : State) : Host.Outcome State Fault Refusal := hostCmd 0x0608 c srqCreateCmd s
def effNetSrqDestroy (c : Cmd) (s : State) : Host.Outcome State Fault Refusal := hostCmd 0x0609 c srqDestroyCmd s
def effNetCqCreate (c : Cmd) (s : State) : Host.Outcome State Fault Refusal := hostCmd 0x060A c cqCreateCmd s
def effNetCqDestroy (c : Cmd) (s : State) : Host.Outcome State Fault Refusal := hostCmd 0x060B c cqDestroyCmd s
def effNetSend (c : Cmd) (s : State) : Host.Outcome State Fault Refusal := onDev (netSendRow c) s
def effNetEwrPost (c : Cmd) (s : State) : Host.Outcome State Fault Refusal := hostCmd 0x0618 c ewrPostCmd s
def effNetEwrWithdraw (c : Cmd) (s : State) : Host.Outcome State Fault Refusal := hostCmd 0x0619 c ewrWithdrawCmd s
def effNetGidSet (c : Cmd) (s : State) : Host.Outcome State Fault Refusal := hostCmd 0x0620 c gidSetCmd s
def effNetCtxArea (c : Cmd) (s : State) : Host.Outcome State Fault Refusal := hostCmd 0x0621 c ctxAreaCmd s
def effNetPortQuery (c : Cmd) (s : State) : Host.Outcome State Fault Refusal := hostCmd 0x0622 c portQueryCmd s

end Sys2Proof.Machine
end

