-- ==== Sys2Proof/Machine/Attn.lean ====
section
/-! DEFINITION. Spill and fetch-back, prefixes, adapters, training jobs and the split of energy (R223-R242, R249, R259). -/

namespace Sys2Proof.Machine

/-! ### Spill (R223, R224) -/

/-- MEM_SPILL_CFG of a partition: LOW, HIGH and REGION. -/
def Dev.spillLow (d : Dev) (p : Nat) : Nat := fld (d.partReg p 0x040300) 7 0
def Dev.spillHigh (d : Dev) (p : Nat) : Nat := fld (d.partReg p 0x040300) 15 8
def Dev.spillRegion (d : Dev) (p : Nat) : Nat := fld (d.partReg p 0x040300) 16 16

/-- Whether the free fraction of a partition's KV pool is below `pc` percent. -/
def Dev.poolBelow (d : Dev) (p pc : Nat) : Bool := decide (d.poolFreeAll p * 100 < pc * d.poolSize p)

/-- The spill moves of a partition in flight. -/
def Dev.spills (d : Dev) (p : Nat) : List (Nat × Op) :=
  d.ops.filter fun o => o.2.part == p && match o.2.kind with
    | .spill _ _ _ _ _ => true
    | _ => false

/-- Whether a page of a session is in copy to NAND. -/
def Dev.spillingPage (d : Dev) (h : Word) (l j : Nat) : Bool :=
  d.ops.any fun o => match o.2.kind with
    | .spill g l' j' _ _ => g == h && l' == l && j' == j
    | _ => false

/-- Own pages of a session that may spill, lowest position first across all layers: those without any of the last W positions. -/
def Ses.spillPages (s : Ses) (k : Kv) : List (Nat × Nat) :=
  ((List.range ((s.ctx + k.t - 1) / k.t)).filter fun j => (j + 1) * k.t + s.window ≤ s.ctx).flatMap fun j =>
    ((List.range k.layers).filter fun l => ((k.layer l)[j]?).elim false fun p => p.valid && !p.spilled).map fun l => (l, j)

/-- The sessions of a partition in the order in which the firmware picks them: ascending LAST_RUN, then index. -/
def Dev.spillOrder (d : Dev) (p : Nat) : List (Word × Ses) :=
  (sortBy (fun e => [e.2.lastRun, e.1 % 2 ^ 24]) (d.ses.tbl.filter fun e => e.1 / 2 ^ 24 == p &&
    (e.2.state == .opened || e.2.state == .waiting || e.2.state == .warm))).map fun e => (handleOf p e.2.gen (e.1 % 2 ^ 24), e.2)

/-- Whether the firmware may pick a session: no page of it comes back, no wake has met its spill, no row of it is decided, and no
PFX_FROM_SESSION moves its pages (R223, R226). -/
def Dev.maySpill (d : Dev) (h : Word) : Bool :=
  (d.fetchesOf h).isEmpty && !(d.sch.batches.any fun b => b.2.rows.any fun r => r.h == h) &&
    !d.ops.any fun o => match o.2.kind with
      | .spill g _ _ _ _ => g == h && o.2.aborted
      | .pfxSession g _ _ => g == h
      | _ => false

/-- The next page to spill. -/
def Dev.spillPick (d : Dev) (p : Nat) : Option (Word × Nat × Nat × Nat) :=
  (d.spillOrder p).findSome? fun e =>
    if !d.maySpill e.1 then none
    else
      match e.2.kv with
      | none => none
      | some k =>
        (e.2.spillPages k).findSome? fun lj =>
          match (k.layer lj.1)[lj.2]? with
          | none => none
          | some pg =>
            match pg.home with
            | .nand _ => none
            | .hbm a =>
              if d.spillingPage e.1 lj.1 lj.2 || d.pinned (gran a) || thas d.mem.copying (gran a) then none
              else some (e.1, lj.1, lj.2, a)

/-- One spill move started: the page's copy to a unit of the region that MEM_SPILL_CFG names. Its read waits while a program runs
beside the page (R116). -/
def Dev.spillOne (d : Dev) (x : Ctx) (p : Nat) : Option Dev :=
  let r := d.spillRegion p
  if (d.spills p).length ≥ 64 ∨ d.regionInUse r ≥ d.regionUnits (r == 1) then none
  else
    match d.spillPick p with
    | none => none
    | some (h, l, j, a) =>
      let id := d.nextSeq
      match d.reach x .culm (10, gran a) [(a, 32768)] with
      | (.go, d) =>
       match { d with nextSeq := id + 1 }.startCopy id (.hbm a) with
       | none => none
       | some d =>
        let w := d.granToNand p r (.hbm a)
        let d := w.2.shapeNand p (sesFlow (hKey h) 0) 1 id [w.1]
        some ({ d with ops := tset d.ops id ⟨.engine .firmware, p, .spill h l j w.1 false, false⟩ }.takeDesc id)
      | (_, d) => some d

/-- Spill moves started while there are pages to take, `fuel` at most. A spill that the NAND quota refuses is not started: the firmware
stops spilling for the partition and reports KV_SHORT (R118). -/
def Dev.spillMany (d : Dev) (x : Ctx) (p : Nat) : Nat → Dev
  | 0 => d
  | f + 1 =>
    if !d.nandFits p 1 then
      let d := d.kvShort x p
      { d with mem := { d.mem with spilling := d.mem.spilling.filter (· != p) } }
    else
      match d.spillOne x p with
      | none => d
      | some d => d.spillMany x p f

/-- SPILL_MOVE_START: while the free fraction is below LOW, or after a failed allocation, up to HIGH. -/
def spillStart (p : Nat) (x : Ctx) (d : Dev) : Dev :=
  let to_ (l : List Nat) : Dev := { d with mem := { d.mem with spilling := l } }
  if !d.poolBelow p (d.spillHigh p) then to_ (d.mem.spilling.filter (· != p))
  else if d.poolBelow p (d.spillLow p) || d.mem.spilling.contains p then (to_ (addNum p d.mem.spilling)).spillMany x p 64
  else d

/-- A page entry of a session changed. -/
def Dev.setPage (d : Dev) (h : Word) (l j : Nat) (f : KPage → KPage) : Dev :=
  match d.sesOf h with
  | none => d
  | some s =>
    match s.kv with
    | none => d
    | some k => d.setSes h { s with kv := some { k with pages := k.pages.modify l fun ps => ps.modify j f } }

/-- The home of a page of a session. -/
def Dev.pageHome (d : Dev) (h : Word) (l j : Nat) : Option Home :=
  ((d.sesOf h).bind Ses.kv).bind fun k => ((k.layer l)[j]?).map KPage.home

/-- SPILL_SWITCH: the unit is written; the entry names it, and the granule is free. The page of a session that waits for its pages, or
that a wake has met, comes back at once (R225, R226). -/
def spillSwitch (id : Nat) (x : Ctx) (d : Dev) : Dev :=
  match tget d.ops id with
  | some ⟨_, p, .spill h l j u true, woken⟩ =>
    match if d.hasDesc id then d.pageHome h l j else none with
    | some (.hbm a) =>
      let back := woken || !(d.fetchesOf h).isEmpty || (d.sesOf h).elim false fun s => s.state == .waiting
      let d := (d.setPage h l j fun pg => { pg with spilled := true, home := .nand u }).release x (.hbm a) (.nand u)
      let d := (d.bumpPart p 0x04030C 1).charge h 3 32768
      let d := { d.freeDesc id with ops := tdel d.ops id }
      (if back then d.fetchBack x h else d).schedule x
    | _ => d
  | _ => d

/-! ### Fetch-back (R225) -/

/-- A session whose last spilled page is back goes on: WAITING becomes OPEN once nothing else is missing (R78). -/
def Dev.fetchDone (d : Dev) (x : Ctx) (h : Word) : Dev :=
  match d.sesOf h with
  | none => d
  | some s =>
    if s.kv.elim false fun k => k.spilled != 0 then d
    else if s.state = .waiting then
      let d := d.setSes h { s with waitReason := clrBit s.waitReason 1 }
      if d.resident (d.runModel s) then d.enterOpen x h else d
    else d

/-- FETCH_BACK_SWITCH: the page is in its granule, and its unit is released. A unit that cannot be read leaves poison. -/
def fetchSwitch (id : Nat) (x : Ctx) (d : Dev) : Dev :=
  match tget d.ops id with
  | some ⟨_, _, .fetchBack h l j (some g), _⟩ =>
   d.once x .culm (1, id) [(granAddr g, 32768)] fun d =>
    let d := { d with ops := tdel d.ops id }
    match d.pageHome h l j with
    | some (.nand u) =>
      let a := granAddr g
      let d := (d.copyTo x (.nand u) a).setPage h l j fun pg => { pg with spilled := false, home := .hbm a }
      (((d.freeUnits [u]).charge h 2 32768).fetchDone x h).schedule x
    | _ => d.freeGran g
  | _ => d

/-- FETCH_BACK_PAGE_PLACE: the page that has waited longest takes a granule. -/
def fetchPlace (p : Nat) (_ : Ctx) (d : Dev) : Dev :=
  let w := d.ops.find? fun o => o.2.part == p && match o.2.kind with
    | .fetchBack _ _ _ none => true
    | _ => false
  match w with
  | some (id, ⟨_, _, .fetchBack h l j none, _⟩) =>
    match (d.sesOf h).bind Ses.kv, d.pageHome h l j with
    | some k, some (.nand _) =>
      match d.takeMember p k.set .kv 8 ((l + k.pfxPages + j) % 8) with
      | none => d
      | some (g, d) => d.setOp id (.fetchBack h l j (some g))
    | _, _ => { d with ops := tdel d.ops id }
  | _ => d

/-! ### Prefixes (R234-R236) -/

/-- The frozen object that a session's own KV becomes, with places for its pages (R118); none where they do not fit. -/
def Dev.pfxOfSes (d : Dev) (p : Nat) (s : Ses) : Option (Nat × Dev) :=
  match s.kv with
  | none => none
  | some k =>
    let per := (k.pages.map List.length).foldl max 0
    d.newPfx p ⟨p, [], 0, false, 0, false, s.model, s.adapter, s.ctx, k.t, k.fmt, k.layers, per, k.set, k.pages.map fun l => l.map KPage.fill,
      false, []⟩

/-- The progress of a move that has not begun. -/
def MoveProg.start : MoveProg := ⟨0, 0, false, false, 0⟩

/-- PFX_FROM_SESSION: places for the pages are taken at acceptance, and each page moves on its own. In a running checkpoint it waits for
the session's record (R358). -/
def pfxFromCmd (x : Ctx) (q : Req) (d : Dev) : Ans :=
  let h := q.w 2
  match d.lookup q.part h with
  | .error st => .refuse st
  | .ok s =>
    let busy := d.ops.any fun o => match o.2.kind with
      | .pfxSession g _ _ => g == h
      | _ => false
    if !q.clean [(2, top32)] then .refuse .badParam
    else if s.state ≠ .warm ∨ busy = true then .refuse .sessionState
    else if s.pfx ≠ 0 ∨ s.ctx = 0 ∨ s.ctx > 1048576 then .refuse .badParam
    else if d.ckpHolds h then .accept [] (.pfxSession h 0 MoveProg.start) d
    else
      match (d.dropSpills x h).pfxOfSes q.part s with
      | none => .refuse .doesNotFit
      | some (sh, d) => .accept [] (.pfxSession h sh MoveProg.start) (d.takeDesc q.seq)

/-- A PFX_FROM_SESSION that waited for Sheaf takes its places. -/
def Dev.pfxResume (d : Dev) (x : Ctx) (id : Nat) (h : Word) : Dev :=
  match d.sesOf h with
  | none => d.endOp x id .staleHandle []
  | some s =>
    match (d.dropSpills x h).pfxOfSes (hPart h) s with
    | none => d.endOp x id .doesNotFit []
    | some (sh, d) => (d.takeDesc id).setOp id (.pfxSession h sh MoveProg.start)

/-- The PFX_FROM_SESSION of a session that waits for Sheaf goes on. -/
def Dev.pfxAwake (d : Dev) (x : Ctx) (h : Word) : Dev :=
  match d.ops.find? fun o => match o.2.kind with
    | .pfxSession g 0 _ => g == h
    | _ => false with
  | none => d
  | some (id, _) => d.pfxResume x id h

/-- PFX_CREATE: destinations are taken at acceptance (R118), and the pages move granule by granule. -/
def pfxCreateCmd (_ : Ctx) (q : Req) (d : Dev) : Ans :=
  let p := q.part
  let m := q.f 2 15 0
  let first := q.f 3 18 0
  let count := (q.w 4).toNat
  let n := (q.w 5).toNat
  match d.mdl m with
  | none => .refuse .badParam
  | some k =>
    match d.bindAdapter p m (q.f 2 31 16) with
    | none => .refuse .badParam
    | some v =>
      let t := pageT k.img.kvHeads k.img.headDim k.img.kvFmt
      let per := (n + t - 1) / t
      let pages := k.img.layers * per
      let es := runExts first count
      if !q.clean [(2, top32), (3, 0x7FFFF), (4, top32), (5, top32)] ∨ k.part ≠ p ∨ n = 0 ∨ n > 1048576 ∨ !runOk first count ∨
          64 * count < pages ∨ !d.allWhole p es ∨ d.anyFrozen p es then .refuse .badParam
      else
        let fills := List.replicate k.img.layers ((List.range per).map fun j => min t (n - j * t))
        match (d.newSet p).bind fun set =>
            d.newPfx p ⟨p, [], 0, false, 0, false, m, v, n, t, k.img.kvFmt, k.img.layers, per, set, fills, false, []⟩ with
        | none => .refuse .doesNotFit
        | some (id, d) => .accept [] (.pfxCreate id first count MoveProg.start) (d.takeDesc q.seq)

/-- Where a move into a prefix takes page n from. -/
def Dev.pfxSrc (d : Dev) (o : Op) (pages n : Nat) : Option Home :=
  match o.kind with
  | .pfxCreate _ first _ _ => d.runHome o.part first n
  | .pfxSession h _ _ => d.pageHome h (n / pages) (n % pages)
  | _ => none

/-- The object and the progress of a move into a prefix. -/
def OpKind.pfxMove : OpKind → Option (Nat × MoveProg)
  | .pfxCreate sh _ _ m => some (sh, m)
  | .pfxSession _ sh m => some (sh, m)
  | _ => none

/-- The progress of a move into a prefix replaced. -/
def OpKind.setPfx (m : MoveProg) : OpKind → OpKind
  | .pfxCreate sh first count _ => .pfxCreate sh first count m
  | .pfxSession h sh _ => .pfxSession h sh m
  | k => k

/-- Whether a move into a prefix waits: for earlier operations on its extents, or for its session's pages to come back. -/
def Dev.pfxHeld (d : Dev) (id : Nat) (o : Op) : Bool :=
  match o.kind with
  | .pfxCreate _ first count _ => d.runHeld id o.part first count
  | .pfxSession h _ _ => !(d.fetchesOf h).isEmpty
  | _ => true

/-- The next page's copy of a move into a prefix. -/
def pfxCopyStart (id : Nat) (o : Op) (d : Dev) : Option Dev :=
  match o.kind.pfxMove with
  | none => none
  | some (sh, m) =>
    match d.share sh with
    | none => none
    | some s =>
      if m.copying || m.next ≥ s.homes.length || !d.hasDesc id || d.pfxHeld id o then none
      else ((d.pfxSrc o s.pages m.next).bind (d.startCopy id)).map fun d => d.setOp id (o.kind.setPfx { m with copying := true })

/-- The use to which the pages go that a stopped move leaves at their new places. -/
def OpKind.pfxLeft : OpKind → GranUse
  | .pfxSession _ _ _ => .kv
  | _ => .work

/-- The directory entry of page n of a move into a prefix names its new place (R112, R114). -/
def Dev.pfxEntry (d : Dev) (o : Op) (pages n a : Nat) : Dev :=
  match o.kind with
  | .pfxCreate _ first _ _ => d.setHome o.part (runGran first n).1 (runGran first n).2 (.hbm a)
  | .pfxSession h _ _ => d.setPage h (n / pages) (n % pages) fun pg => { pg with spilled := false, home := .hbm a }
  | _ => d

/-- A failed write of a page: the failed destination is released for another granule of its member (R117). -/
def Dev.pfxRetry (d : Dev) (p sh n : Nat) : Dev :=
  match d.share sh with
  | none => d
  | some s =>
    match s.homes[n]? with
    | some (.hbm a) =>
      match d.takeKv p (stackOf a) (channelOf a) (.pfx sh) with
      | none => d
      | some (g, d) => (d.setShare sh { s with homes := s.homes.set n (.hbm (granAddr g)) }).freeGran (gran a)
    | _ => d

/-- The granules of a run that went into a prefix leave its extents. -/
def Dev.pfxTaken (d : Dev) (p first : Nat) : Nat → Dev
  | 0 => d
  | n + 1 =>
    let gi := runGran first n
    ((d.buf p gi.1).elim d fun b => d.setBuf p gi.1 { b with gone := addNum gi.2 b.gone, moved := tdel b.moved gi.2 }).pfxTaken p first n

/-- The end of a move into a prefix: the object is a prefix that the partition holds, and the extents are unmapped, or the session binds
it with an empty context (R234). -/
def Dev.pfxEnd (d : Dev) (x : Ctx) (id : Nat) (o : Op) (sh : Nat) (s : Share) : Dev :=
  match o.kind with
  | .pfxCreate _ first count _ =>
    let d := ((d.pfxTaken o.part first s.homes.length).unmapRun o.part first count).2
    ((d.setShare sh { s with own := true, pfx := true }).freeDesc id).endOp x id .ok [wd sh]
  | .pfxSession h _ _ =>
    let d := (d.setShare sh { s with own := true, refs := 1, pfx := true }).freeDesc id
    let d := match d.sesOf h with
      | some t => (d.freeBlks (t.kv.elim [] Kv.blks)).setSes h { t with pfx := sh, ctx := 0, kv := none }
      | none => d
    d.endOp x id .ok [wd sh, wd s.positions]
  | _ => d

/-- The switch of a page of a move into a prefix (R114, R117, R234). The last one waits while a running checkpoint has not copied the
session's record (R358). -/
def pfxSwitch (id : Nat) (confirmed : Bool) (o : Op) (x : Ctx) (d : Dev) : Dev :=
  match o.kind.pfxMove.bind fun m => (d.share m.1).map fun s => (m.1, m.2, s) with
  | none => d
  | some (sh, m, s) =>
    let held := match o.kind with
      | .pfxSession h _ _ => decide (m.next + 1 ≥ s.homes.length) && d.ckpHolds h
      | _ => false
    match if !m.copying || held then none else (d.pfxSrc o s.pages m.next).bind fun h => (s.homes[m.next]?).map fun t => (h, t) with
    | some (src, .hbm a) =>
      if confirmed then
        let d := ((d.copyTo x src a).pfxEntry o s.pages m.next a).release x src (.hbm a)
        if m.step.next ≥ s.homes.length then d.pfxEnd x id o sh s else d.setOp id (o.kind.setPfx m.step)
      else
        let d := d.dropCopy x src
        if m.tries + 1 ≥ 3 then d.pfxStop x id sh m.next o.kind.pfxLeft .deviceFault
        else (d.pfxRetry o.part sh m.next).setOp id (o.kind.setPfx { m with tries := m.tries + 1, copying := false })
    | _ => d

/-- PFX_QUERY. -/
def pfxQueryCmd (_ : Ctx) (q : Req) (d : Dev) : Ans :=
  match d.share (q.w 2).toNat with
  | none => .refuse .badParam
  | some s =>
    if !q.clean [(2, top32)] ∨ s.part ≠ q.part ∨ !s.pfx then .refuse .badParam
    else .done .ok [wd (s.model + s.adapter * 65536), wd s.positions, wd (s.refs + if s.own then 1 else 0), wd (s.layers * s.pages)] d

/-! ### Adapters (R237-R239) -/

/-- Live versions of a partition, and the next number. -/
def Dev.liveVers (d : Dev) (p : Nat) : Nat := (d.sch.adapters.filter fun a => a.1 / 65536 == p).length
def Dev.nextVer (d : Dev) (p : Nat) : Nat :=
  nextId (fun n => thas d.sch.adapters (p * 65536 + n)) 65534 4096 (tgetD d.sch.lastVer p 0)

/-- A frozen object that an adapter may be made of: the partition's, no prefix; a sealed one is refused (R384). -/
def Dev.adpShare (d : Dev) (p id : Nat) : Except Status Share :=
  match d.share id with
  | none => .error .badParam
  | some s => if s.part ≠ p ∨ s.pfx ∨ s.positions ≠ 0 then .error .badParam else if s.sealed then .error .notPermitted else .ok s

/-- A new current version of a line, holding its object. -/
def Dev.addVer (d : Dev) (p m line sh : Nat) : Nat × Dev :=
  let v := d.nextVer p
  let d := d.shareRef sh
  (v, { d with sch := { d.sch with adapters := tset d.sch.adapters (p * 65536 + v) ⟨p, m, line, sh, true⟩, lastVer := tset d.sch.lastVer p v } })

/-- The current version of a line. -/
def Dev.curVer (d : Dev) (p m line : Nat) : Option Nat :=
  (d.sch.adapters.find? fun a => a.2.part == p && a.2.model == m && a.2.line == line && a.2.current).map fun a => a.1 % 65536

/-- A version stops being current. -/
def Dev.uncur (d : Dev) (p v : Nat) : Dev :=
  { d with sch := { d.sch with adapters := tmod d.sch.adapters (p * 65536 + v) fun a => { a with current := false } } }.adpCheck p v

/-- Lines of a model that still stand: not retired, or with a live version. -/
def Dev.linesOf (d : Dev) (p m : Nat) : List AdpLine :=
  d.sch.lines.filter fun l => l.model == m && (!l.retired || d.sch.adapters.any fun a => a.2.part == p && a.2.model == m && a.2.line == l.line)

/-- ADP_CREATE. -/
def adpCreateCmd (_ : Ctx) (q : Req) (d : Dev) : Ans :=
  let p := q.part
  let m := q.f 2 15 0
  let sh := (q.w 3).toNat
  match d.ownMdl q with
  | none => .refuse .badParam
  | some _ =>
    if !q.clean [(2, 0x1FFFF), (3, top32)] then .refuse .badParam
    else
      match d.adpShare p sh with
      | .error st => .refuse st
      | .ok s =>
        let ls := d.linesOf p m
        let first := !(d.sch.lines.any fun l => l.model == m)
        match (List.range 256).find? fun n => !(ls.any fun l => l.line == n) with
        | none => .refuse .noResource
        | some n =>
          if d.liveVers p ≥ 4096 then .refuse .noResource
          else
            let df := first || bitAt (q.w 2).toNat 16
            let lines := (d.sch.lines.filter fun l => !(l.model == m && l.line == n)).map fun l => if df && l.model == m then { l with deflt := false } else l
            let line : AdpLine := ⟨m, n, df, s.bytes, false⟩
            let d : Dev := { d with sch := { d.sch with lines := lines ++ [line] } }
            let r := d.addVer p m n sh
            .done .ok [wd (n + r.1 * 65536)] r.2

/-- ADP_REPLACE. -/
def adpReplaceCmd (_ : Ctx) (q : Req) (d : Dev) : Ans :=
  let p := q.part
  let m := q.f 2 15 0
  let n := q.f 2 23 16
  let sh := (q.w 3).toNat
  match d.ownMdl q, d.sch.lines.find? fun l => l.model == m && l.line == n && !l.retired with
  | some _, some l =>
    if !q.clean [(2, 0xFFFFFF), (3, top32)] then .refuse .badParam
    else
      match d.adpShare p sh with
      | .error st => .refuse st
      | .ok s =>
        if s.bytes ≠ l.bytes then .refuse .badParam
        else if d.liveVers p ≥ 4096 then .refuse .noResource
        else
          let old := (d.curVer p m n).getD 0
          let r := d.addVer p m n sh
          .done .ok [wd r.1, wd old] (r.2.uncur p old)
  | _, _ => .refuse .badParam

/-- ADP_QUERY. -/
def adpQueryCmd (_ : Ctx) (q : Req) (d : Dev) : Ans :=
  let v := q.f 2 15 0
  match tget d.sch.adapters (q.part * 65536 + v) with
  | none => .refuse .badParam
  | some a =>
    if !q.clean [(2, 0xFFFF)] then .refuse .badParam
    else .done .ok [wd (a.model + a.line * 65536 + if a.current then 2 ^ 24 else 0), wd (d.adpCount q.part v), wd a.share] d

/-- ADP_RETIRE: the line has no current version from now on. -/
def adpRetireCmd (_ : Ctx) (q : Req) (d : Dev) : Ans :=
  let p := q.part
  let m := q.f 2 15 0
  let n := q.f 2 23 16
  match d.ownMdl q, d.sch.lines.find? fun l => l.model == m && l.line == n && !l.retired with
  | some _, some _ =>
    if !q.clean [(2, 0xFFFFFF)] then .refuse .badParam
    else
      let lines := d.sch.lines.map fun (l : AdpLine) => if l.model == m && l.line == n then { l with retired := true } else l
      let d : Dev := { d with sch := { d.sch with lines := lines } }
      let d := (d.curVer p m n).elim d fun v => d.uncur p v
      .done .ok [wd (d.sch.adapters.filter fun a => a.2.part == p && a.2.model == m && a.2.line == n).length] d
  | _, _ => .refuse .badParam

/-! ### Training jobs (R240, R249) -/

/-- Jobs of a partition that have not ended. -/
def Dev.liveJobs (d : Dev) (p : Nat) : Nat := (d.sch.jobs.filter fun j => j.2.part == p && j.2.st != 2).length

/-- Whether a run of extents is mapped and not frozen. -/
def Dev.mutableRun (d : Dev) (p first count : Nat) : Bool :=
  runOk first count && d.allMapped p (runExts first count) && !d.anyFrozen p (runExts first count)

/-- TRN_START. -/
def trnStartCmd (_ : Ctx) (q : Req) (d : Dev) : Ans :=
  let p := q.part
  let m := q.f 2 15 0
  let run (n : Nat) : Nat × Nat := ((q.w n).toNat, (q.w (n + 1)).toNat)
  let steps := (q.w 9).toNat
  match d.mdl m with
  | none => .refuse .badParam
  | some k =>
    if !q.clean [(2, 0x1FFFF), (3, top32), (4, top32), (5, top32), (6, top32), (7, top32), (8, top32), (9, top32)] ∨ k.part ≠ p ∨ steps = 0 ∨
        !d.mutableRun p (run 3).1 (run 3).2 ∨ !runOk (run 5).1 (run 5).2 ∨ !d.allMapped p (runExts (run 5).1 (run 5).2) ∨
        !d.mutableRun p (run 7).1 (run 7).2 then .refuse .badParam
    else if d.liveJobs p ≥ 4 then .refuse .noResource
    else
      let id := nextId (fun n => thas d.sch.jobs n) top32 d.sch.jobs.length d.sch.lastJob
      let j : TrainJob := ⟨p, q.seq, m, bitAt (q.w 2).toNat 16, run 3, run 5, run 7, steps, 0, 0, false, false⟩
      .accept [wd id] (.train id) { d with sch := { d.sch with jobs := tset d.sch.jobs id j, lastJob := id } }

/-- The end of a training job. -/
def Dev.trainEnd (d : Dev) (x : Ctx) (id : Nat) (j : TrainJob) (st : Status) : Dev :=
  { d with sch := { d.sch with jobs := tset d.sch.jobs id { j with st := 2, inStep := false } } }.endOp x j.op st [wd j.donesteps]

/-- The job a command names, if it is the partition's. -/
def Dev.ownJob (d : Dev) (q : Req) : Option TrainJob :=
  match tget d.sch.jobs (q.w 2).toNat with
  | some j => if j.part = q.part then some j else none
  | none => none

/-- TRN_STOP. -/
def trnStopCmd (_ : Ctx) (q : Req) (d : Dev) : Ans :=
  match d.ownJob q with
  | none => .refuse .badParam
  | some j =>
    if !q.clean [(2, top32)] then .refuse .badParam
    else .done .ok [] { d with sch := { d.sch with jobs := tset d.sch.jobs (q.w 2).toNat { j with stop := true } } }

/-- TRN_STOP as a row: a job that is between steps stands at a training-step boundary and ends. -/
def trnStopRow (c : Cmd) (x : Ctx) (d : Dev) : Dev :=
  let d := runCmd 0x0321 c trnStopCmd x d
  match tget d.sch.jobs (c.w 2).toNat with
  | some j => if j.stop ∧ !j.inStep ∧ j.st ≠ 2 then d.trainEnd x (c.w 2).toNat j .ok else d
  | none => d

/-- TRN_QUERY. -/
def trnQueryCmd (_ : Ctx) (q : Req) (d : Dev) : Ans :=
  match d.ownJob q with
  | none => .refuse .badParam
  | some j => if !q.clean [(2, top32)] then .refuse .badParam else .done .ok [wd j.donesteps, wd j.st] d

/-- The three conditions of R249 for a partition. -/
def Dev.idleFor (d : Dev) (p : Nat) : Bool :=
  !(d.ses.tbl.any fun s => s.1 / 2 ^ 24 == p && s.2.state == .waiting && bitAt s.2.waitReason 0) &&
    !(d.sch.latched.any fun l => l.1 / 65536 == p && l.2 != 0)

/-- TRAINING_STEP_START: on a resident training placement. -/
def trnStepStart (id : Nat) (x : Ctx) (d : Dev) : Dev :=
  match tget d.sch.jobs id with
  | none => d
  | some j =>
    if j.st = 2 ∨ j.inStep ∨ !d.resident j.model ∨ !d.idleFor j.part then d
    else
      let d := { d with sch := { d.sch with jobs := tset d.sch.jobs id { j with st := 1, inStep := true } } }
      match d.mdl j.model with
      | none => d
      | some k => (k.cores.foldl (fun d n => d.setCore n { d.core n with inStep := true, fresh := true, done := false, engineNs := 0 }) d).setMdl j.model { k with lastRun := x.now }

/-- TRAINING_STEP_BOUNDARY: the partition is charged (R258), and the job ends, or pauses until it may start a step again. -/
def trainBoundary (id : Nat) (x : Ctx) (d : Dev) : Dev :=
  match tget d.sch.jobs id with
  | none => d
  | some j =>
    let cores := (d.mdl j.model).elim [] Mdl.cores
    if !j.inStep ∨ !(cores.all fun n => (d.core n).done) then d
    else
      let ns := nsum (cores.map fun n => (d.core n).engineNs)
      let by_ := (d.mdl j.model).elim 0 Mdl.preBytes
      let d := (d.mdl j.model).elim d fun k => d.setMdl j.model { k with preBytes := 0 }
      let d := cores.foldl (fun d n => d.setCore n { d.core n with inStep := false, fresh := false, done := false }) (d.mergeCounts x j.model)
      let d := { d with sch := { d.sch with engineNs := addTo d.sch.engineNs j.part ns } }
      let d := (d.tapAdd j.part 0 ns).chargePart j.part 0 by_
      let j := { j with donesteps := j.donesteps + 1, inStep := false, st := 0 }
      let gone := (tget d.ops j.op).elim false Op.aborted
      if gone then d.trainEnd x id j .aborted
      else if j.donesteps ≥ j.steps ∨ j.stop then d.trainEnd x id j .ok
      else { d with sch := { d.sch with jobs := tset d.sch.jobs id j } }

/-! ### Energy (R259) -/

/-- Sessions of a partition charged energy in proportion to their engine time in the second. -/
def Dev.energyTo (d : Dev) (e total : Nat) : List (Nat × Nat) → Dev
  | [] => d
  | (k, ns) :: l =>
    { d with ses := { d.ses with tbl := tmod d.ses.tbl k fun s => { s with energy := (s.energy + e * ns / total) % 2 ^ 64 } } }.energyTo e total l

/-- ENERGY_SPLIT of a partition's share of the last meter record: what is not split among live sessions is unattributed. -/
def energySplit (p : Nat) (x : Ctx) (d : Dev) : Dev :=
  if p ≥ 16 ∨ x.meter.made ≤ tgetD d.sch.split p 0 then d
  else
    let e := (x.meter.energy[p]?).getD 0
    let mine := d.sch.nsThisSec.filter fun n => n.1 / 2 ^ 24 == p
    let total := nsum (mine.map Prod.snd)
    let live := mine.filter fun n => (tget d.ses.tbl n.1).elim false fun s => s.state != .free
    let given := if total = 0 then 0 else nsum (live.map fun n => e * n.2 / total)
    let d := if total = 0 then d else d.energyTo e total live
    { d with sch :=
      { d.sch with
        energy := addTo d.sch.energy p e
        unattr := addTo d.sch.unattr p (e - given)
        nsThisSec := d.sch.nsThisSec.filter fun n => n.1 / 2 ^ 24 != p
        split := tset d.sch.split p x.meter.made } }

def effSpillMoveStart (p : Nat) (s : State) : Host.Outcome State Fault Refusal := onDev (spillStart p) s
def effSpillSwitch (id : Nat) (s : State) : Host.Outcome State Fault Refusal := onDev (spillSwitch id) s
def effFetchBackSwitch (id : Nat) (s : State) : Host.Outcome State Fault Refusal := onDev (fetchSwitch id) s
def effFetchBackPagePlace (p : Nat) (s : State) : Host.Outcome State Fault Refusal := onDev (fetchPlace p) s
def effPfxFromSession (c : Cmd) (s : State) : Host.Outcome State Fault Refusal := hostCmd 0x0310 c pfxFromCmd s
def effPfxCreate (c : Cmd) (s : State) : Host.Outcome State Fault Refusal := hostCmd 0x0311 c pfxCreateCmd s
def effPfxQuery (c : Cmd) (s : State) : Host.Outcome State Fault Refusal := hostCmd 0x0312 c pfxQueryCmd s
def effAdpCreate (c : Cmd) (s : State) : Host.Outcome State Fault Refusal := hostCmd 0x0318 c adpCreateCmd s
def effAdpReplace (c : Cmd) (s : State) : Host.Outcome State Fault Refusal := hostCmd 0x0319 c adpReplaceCmd s
def effAdpQuery (c : Cmd) (s : State) : Host.Outcome State Fault Refusal := hostCmd 0x031A c adpQueryCmd s
def effAdpRetire (c : Cmd) (s : State) : Host.Outcome State Fault Refusal := hostCmd 0x031B c adpRetireCmd s
def effTrnStart (c : Cmd) (s : State) : Host.Outcome State Fault Refusal := hostCmd 0x0320 c trnStartCmd s
def effTrnStop (c : Cmd) (s : State) : Host.Outcome State Fault Refusal := onDev (trnStopRow c) s
def effTrnQuery (c : Cmd) (s : State) : Host.Outcome State Fault Refusal := hostCmd 0x0322 c trnQueryCmd s
def effTrainingStepStart (id : Nat) (s : State) : Host.Outcome State Fault Refusal := onDev (trnStepStart id) s
def effTrainingStepBoundary (id : Nat) (s : State) : Host.Outcome State Fault Refusal := onDev (trainBoundary id) s
def effEnergySplit (p : Nat) (s : State) : Host.Outcome State Fault Refusal := onDev (energySplit p) s

end Sys2Proof.Machine
end

