-- ==== Sys2Proof/Machine/Glm.lean ====
section
/-! DEFINITION. The near-bank block: region modes, the alias window and its slots, ordinary and alias-path accesses, the BAR2 window,
refresh and throttle, and the near-bank opcodes (R138-R160). -/

namespace Sys2Proof.Machine

/-! ### Granules of a unit and of a region -/

/-- The unit of a granule. -/
def granUnit (g : Nat) : Nat := unitOf (granAddr g)

/-- Granule k of a unit's channel in address order from granule g (R109, R151): two in each extent. -/
def chanGran (g k : Nat) : Nat :=
  let c := g % 64 / 2
  let n := g / 64 * 2 + g % 2 + k
  n / 2 * 64 + 2 * c + n % 2

/-- Whether a granule lies in region r of stack s. -/
def inRegion (s r g : Nat) : Bool := isHbm (granAddr g) && stackOf (granAddr g) == s && regionOf (granAddr g) == r

/-- The running programs that pin a granule of a region. -/
def Dev.regionPins (d : Dev) (s r : Nat) : Nat :=
  (d.glm.units.filter fun u => u.2.running.isSome && u.2.range.any (inRegion s r)).length

/-- Whether an alias-path access to a region waits at a unit. -/
def Dev.regionQueued (d : Dev) (s r : Nat) : Bool :=
  d.glm.units.any fun u => u.2.queue.any fun h => inRegion s r (gran h.addr)

/-- Whether a switch of a region to NORMAL is pending: no program starts on it (R141). -/
def Dev.leaving (d : Dev) (g : Nat) : Bool := d.glm.modeOps.any fun o => !o.compute && inRegion o.stack o.region g

/-- Whether a granule belongs to a frozen object. -/
def Dev.granFrozen (d : Dev) (g : Nat) : Bool := d.mem.shares.any fun s => s.2.homes.contains (.hbm (granAddr g))

/-- Whether a region holds a granule of a sealed object, or of a package that is being opened (R384). -/
def Dev.regionSealed (d : Dev) (s r : Nat) : Bool :=
  (d.mem.shares.any fun o => o.2.sealed && o.2.homes.any fun h => match h with
    | .hbm a => inRegion s r (gran a)
    | .nand _ => false) ||
  d.mem.sealed.any fun k => (tget d.mem.bufs k).elim false fun b => inRegion s r (gran b.base)

/-! ### Reading and writing at a unit (R142-R144) -/

/-- The answer to a read. -/
def Dev.readAnswer (d : Dev) (ag : Agent) (st : Status) (bs : List Byte) (bad : Bool) : Dev :=
  match ag with
  | .host f => d.out (.readData f bs bad)
  | _ => d.out (.agentData ag st bs bad)

/-- What the code finds in codewords of an access, each named by its place in the access. -/
def Dev.hbmEccs (d : Dev) (x : Ctx) (a len : Nat) (l : List (Nat × Ecc)) : Dev :=
  l.foldl (fun d e => if e.1 < (codewords a len).length then d.hbmEcc x ((a / 32 + e.1) * 32) false e.2 else d) d

/-- An access served: a write, a read with what the code finds in its codewords, or the leave for an engine's access to go on. -/
def Dev.serveAcc (d : Dev) (x : Ctx) (h : HeldAcc) : Dev :=
  if h.key ≠ (0, 0) then d.setGunit (unitOf h.addr) { d.gunit (unitOf h.addr) with granted := (d.gunit (unitOf h.addr)).granted ++ [h.key] }
  else if h.write then d.putGran x h.addr h.bytes h.bad
  else
    let d := (d.acted h.addr h.len).hbmEccs x h.addr h.len h.ecc
    d.readAnswer h.ag .ok (d.hbmRead h.addr h.len) (d.poisoned h.addr h.len)

/-- Accesses served in order. -/
def Dev.serveAll (d : Dev) (x : Ctx) : List HeldAcc → Dev
  | [] => d
  | h :: hs => (d.serveAcc x h).serveAll x hs

/-- Every access that waits at a unit served, held reads first. -/
def Dev.serveUnit (d : Dev) (x : Ctx) (u : Nat) : Dev :=
  let g := d.gunit u
  (d.setGunit u { g with held := [], queue := [], windowAt := none }).serveAll x (g.held ++ g.queue)

/-- A service window: as many of the waiting accesses as 0.5 µs allows, held reads first; the number is a free value. The window
stays open while any is left. -/
def Dev.serveWindow (d : Dev) (x : Ctx) (u : Nat) : Dev :=
  let g := d.gunit u
  let l := g.held ++ g.queue
  let r := d.takeFree
  let n := r.1 % (l.length + 1)
  let g' := { g with held := g.held.drop n, queue := g.queue.drop (n - g.held.length), windowAt := if n < l.length then some x.now else none }
  (r.2.setGunit u g').serveAll x (l.take n)

/-- Counts against a partition; the device has no such counter. -/
def Dev.glmCount (d : Dev) (p off : Nat) : Dev := if p < 16 then d.bumpPart p off 1 else d

/-- An ordinary read of HBM: held while a program runs beside its COMPUTE region. -/
def Dev.ordRead (d : Dev) (x : Ctx) (ag : Agent) (p a len : Nat) (e : List (Nat × Ecc)) : Dev :=
  let h : HeldAcc := ⟨ag, p, a, len, false, [], e, x.now, (0, 0), false⟩
  let g := d.gunit (unitOf a)
  if d.computeAt a && g.running.isSome then d.setGunit (unitOf a) { g with held := g.held ++ [h] } else d.serveAcc x h

/-- An ordinary write: refused in a COMPUTE region. -/
def Dev.ordWrite (d : Dev) (x : Ctx) (ag : Agent) (p a : Nat) (bs : List Byte) : Dev :=
  if d.computeAt a then
    let d := d.glmCount p 0x050008
    match ag with
    | .host _ => d
    | _ => d.out (.agentData ag .regionBusy [] false)
  else d.putGran x a bs false

/-- Whether an access lies within one granule of HBM. -/
def oneGran (a len : Nat) : Bool := isHbm a && len != 0 && a % 32768 + len ≤ 32768

/-- ORDINARY_READ and ORDINARY_WRITE, of the agents that make ordinary accesses. -/
def ordRead (ag : Agent) (p a len : Nat) (e : List (Nat × Ecc)) (x : Ctx) (d : Dev) : Dev :=
  if !onAliasPath ag && oneGran a len then d.ordRead x ag p a len e else d
def ordWrite (ag : Agent) (p a : Nat) (bs : List Byte) (x : Ctx) (d : Dev) : Dev :=
  if !onAliasPath ag && oneGran a bs.length then d.ordWrite x ag p a bs else d

/-- ALIAS_PATH_ACCESS: queued while a program runs, else served at once. -/
def pathAccess (ag : Agent) (p a : Nat) (wr : Bool) (len : Nat) (bs : List Byte) (e : List (Nat × Ecc)) (x : Ctx) (d : Dev) : Dev :=
  if onAliasPath ag && oneGran a (if wr then bs.length else len) && d.computeAt a then
    let h : HeldAcc := ⟨ag, p, a, len, wr, bs, e, x.now, (0, 0), false⟩
    let g := d.gunit (unitOf a)
    if g.running.isSome then d.setGunit (unitOf a) { g with queue := g.queue ++ [h] } else d.serveAcc x h
  else d

/-- A held read that has waited 4 µs: poisoned data and REGION_BUSY, counted for BAR2 (R143). The command or work request that an
engine's read belongs to ends when its row is given. -/
def Dev.heldOut (d : Dev) : List HeldAcc → Dev
  | [] => d
  | h :: hs =>
    let d := match h.ag with
      | .host _ => d.glmCount h.part 0x050004
      | _ => d
    (if h.key ≠ (0, 0) then
      d.setGunit (unitOf h.addr) { d.gunit (unitOf h.addr) with refused := (d.gunit (unitOf h.addr)).refused ++ [h.key] }
    else d.readAnswer h.ag .regionBusy (List.replicate h.len 0) true).heldOut hs
def heldTimeout (u : Nat) (x : Ctx) (d : Dev) : Dev :=
  let g := d.gunit u
  let due (h : HeldAcc) : Bool := decide (h.since + 500 ≤ x.now)
  (d.setGunit u { g with held := g.held.filter fun h => !due h }).heldOut (g.held.filter due)

/-! ### BAR2 (R42, R111) -/

/-- A BAR2 read lies in a 4 KiB page, as a PCI Express request does. -/
def bar2Ok (d : Dev) (f : Fn) (off len : Nat) : Bool :=
  d.fnLive f && d.cfgSpace && len != 0 && off % 4096 + len ≤ 4096 && off + len ≤ 2 ^ 40

/-- BAR2_READ: an unmapped extent reads as zeros and is counted; so does a sealed one (R384). -/
def bar2Read (f : Fn) (off len : Nat) (e : List (Nat × Ecc)) (x : Ctx) (d : Dev) : Dev :=
  if !bar2Ok d f off len then d
  else
    let zeros : Dev := d.out (.readData f (List.replicate len 0) false)
    match d.viewPart f with
    | none => zeros
    | some p =>
      if !d.boundTo p f.port then zeros
      else if d.extSealed p (off / 2097152) then zeros.bumpPart p 0x0D0014 1
      else
        match d.bufHome p off with
        | none => zeros.bumpPart p 0x040010 1
        | some (.hbm a, _) => d.ordRead x (.host f) p (a + off % 32768) len e
        | some (.nand u, _) =>
          let r := d.homeRead (.nand u) (off % 32768) len
          d.out (.readData f r.1 r.2)

/-- BAR2_WRITE: no effect on an unmapped, frozen or sealed extent, nor on an index; refused in a COMPUTE region. -/
def bar2Write (f : Fn) (off : Nat) (bs : List Byte) (x : Ctx) (d : Dev) : Dev :=
  if !bar2Ok d f off bs.length then d
  else
    match d.viewPart f with
    | none => d
    | some p =>
      let e := off / 2097152
      if !d.boundTo p f.port then d
      else if d.mem.sealed.contains (bufKey p e) then d.bumpPart p 0x0D0014 1
      else if d.extIndexed p e then d.bumpPart p 0x0B0010 1
      else
        match d.bufHome p off with
        | some (.hbm a, false) => d.ordWrite x (.host f) p (a + off % 32768) bs
        | _ => d.bumpPart p 0x040010 1

/-! ### The alias window (R147-R150) -/

/-- Bits of a command's words that must be zero (R148). -/
def cmdReserved : List (Nat × Nat) :=
  [(0, 0x00F80000), (1, 0xFFE0F800), (3, 0xFFFF0000), (12, 0xFFC00000), (13, 0xFFFFE000), (14, top32), (15, top32)]
def cmdOk (ws : List Word) : Bool :=
  ws.length == 16 && (cmdReserved.all fun r => ((ws[r.1]?).getD 0).toNat &&& r.2 == 0) && wfld ((ws[0]?).getD 0) 17 16 != 3

/-- Word n of a command. -/
def cw (ws : List Word) (n : Nat) : Word := (ws[n]?).getD 0

/-- Whether an agent may use the regions of an owner (R147). -/
def aliasUse (ag : Agent) (p owner : Nat) : Bool :=
  (decide (p < 16) && owner == p) || (owner == 16 && match ag with
    | .ctl => true
    | .core _ => true
    | _ => false)

/-- What an alias access addresses: unit, slot, group and anchor; none where it has no effect. -/
def Dev.aliasAt (d : Dev) (ag : Agent) (p addr len : Nat) : Option (Nat × Nat × Nat × Nat) :=
  let a := addr - 0x010000000000
  let s := stackOf a
  let r := regionOf a
  if addrKind addr = .glAlias ∧ len = 64 ∧ addr % 64 = 0 ∧ d.isCompute s r = true ∧ aliasUse ag p (d.regionOwner s r) = true then
    some (unitOf a, fld a 14 11, fld a 10 6, granAddr (gran a))
  else none

/-- A slot of a unit. -/
def GUnit.slot (g : GUnit) (k : Nat) : GSlot := tgetD g.slots k GSlot.reset
def GUnit.setSlot (g : GUnit) (k : Nat) (s : GSlot) : GUnit := { g with slots := tset g.slots k s }

/-- The status words of a slot (R149). -/
def GSlot.words_ (s : GSlot) : List Word :=
  [wd (s.st * 2 ^ 24 + s.seq), wd (s.status.code * 65536 + s.resBytes), loW s.time, hiW s.time, wd (s.fcode * 2 ^ 24 + s.pc), wd s.yields, wd s.runNs,
    wd (s.prog * 65536 + s.part % 16)] ++ List.replicate 8 0

/-- What a partition sees of a slot: zeros where the slot's program belongs to another one. -/
def GSlot.seen (s : GSlot) (p : Nat) : GSlot := if s.st = 0 ∨ s.part = p then s else GSlot.reset

/-- What a slot's group reads as, with its mark: group 0 the status, another 64 bytes of the result buffer. -/
def GSlot.group (s : GSlot) (grp : Nat) : List Byte × Bool :=
  if grp = 0 then (wordBytes s.words_, false) else ((((s.result ++ List.replicate 1984 0).drop ((grp - 1) * 64))).take 64, s.marked)

/-- The data of an alias read, with its mark: zeros, counted, where the access has no effect (R147). -/
def Dev.aliasData (d : Dev) (ag : Agent) (p addr len : Nat) : (List Byte × Bool) × Dev :=
  match d.aliasAt ag p addr len with
  | none => ((List.replicate 64 0, false), d.glmCount p 0x050000)
  | some (u, k, grp, _) => ((((d.gunit u).slot k).seen p).group grp, d)

/-- An alias read as a row of its kind: status, or 64 bytes of the result buffer. -/
def aliasRead (status : Bool) (ag : Agent) (p addr len : Nat) (_ : Ctx) (d : Dev) : Dev :=
  if (d.aliasAt ag p addr len).elim false fun t => (t.2.2.1 == 0) != status then d
  else
    let r := d.aliasData ag p addr len
    r.2.out (.agentData ag .ok r.1.1 r.1.2)

/-! ### Starting a run (R150, R151) -/

/-- The pages of a session that lie in a unit's channel, in page-table order with the position of their first token: layer by layer,
prefix pages before own pages (R213, R218). -/
def Dev.unitPages (d : Dev) (k : Kv) (u : Nat) : List (Nat × Nat) :=
  let pfx := d.share k.pfx
  let base := pfx.elim 0 Share.positions
  (List.range k.layers).flatMap fun l =>
    ((List.range k.pfxPages).filterMap fun j =>
      match (pfx.elim [] Share.homes)[l * k.pfxPages + j]? with
      | some (.hbm a) => if unitOf a = u then some (a, j * k.t) else none
      | _ => none) ++
    (((k.layer l).mapIdx fun j p => (p, j)).filterMap fun pj =>
      match pj.1.home with
      | .hbm a => if pj.1.valid ∧ unitOf a = u then some (a, base + pj.2 * k.t) else none
      | .nand _ => none)

/-- The granules a run works on, and the pages that PGNEXT gives; a session's exchange page in the unit's channel belongs to the
range (R230). -/
def Dev.runRange (d : Dev) (u : Nat) (anchor : Nat) (ws : List Word) : List Nat × List (Nat × Nat) :=
  let kind := wfld (cw ws 0) 17 16
  if kind = 1 then ((List.range (wfld (cw ws 1) 10 0)).map (chanGran (gran anchor)), [])
  else if kind = 2 then
    match (d.sesOf (cw ws 2)).elim none Ses.kv with
    | none => ([], [])
    | some k =>
      let ps := d.unitPages k u
      (ps.map (fun p => gran p.1) ++ (k.xchg.filter fun a => a != 0 && unitOf a == u).map gran, ps)
  else ([], [])

/-- Whether a granule is mapped to a partition's buffer space. -/
def Dev.granMapped (d : Dev) (p g : Nat) : Bool :=
  tget d.mem.exts (g / 64) == some p || tget d.mem.gran g == some ⟨p, .work⟩

/-- The checks of a START, in order: status and FAULT code of the first that fails. A range that has left COMPUTE mode since its START was
queued is refused as one that is leaving it (R140, R141). -/
def Dev.startCheck (d : Dev) (u p : Nat) (device : Bool) (anchor : Nat) (ws : List Word) : Option (Status × Nat) :=
  let g := d.gunit u
  let kind := wfld (cw ws 0) 17 16
  let n := wfld (cw ws 1) 10 0
  let pr := (d.glm.bankAct.progs[wfld (cw ws 1) 20 16]?).getD (0, 0, 0, false)
  let last := granAddr (chanGran (gran anchor) (n - 1))
  let rg := (d.runRange u anchor ws).1
  if g.offline then some (.deviceFault, 9)
  else if !d.glm.bankAct.valid ∨ pr.2.1 = 0 ∨ !(device || bitAt pr.2.2.1 p) ∨ (kind = 2 ∧ !pr.2.2.2) then some (.notPermitted, 0)
  else if (kind = 1 ∧ (n = 0 ∨ n > 1024 ∨ stackOf last ≠ stackOf anchor ∨ regionOf last ≠ regionOf anchor)) ∨ (kind ≠ 1 ∧ n ≠ 0) ∨
      (kind ≠ 2 ∧ cw ws 2 ≠ 0) ∨ (bitAt (cw ws 0).toNat 18 ∧ (cw ws 12).toNat % 64 ≠ 0) then some (.badParam, 0)
  else if kind = 1 ∧ !device ∧ !(rg.all (d.granMapped p)) then some (.notPermitted, 0)
  else
    let ses : Option (Status × Nat) :=
      if kind ≠ 2 then none
      else
        match d.lookup p (cw ws 2) with
        | .error st => some (st, 0)
        | .ok s =>
          if s.state = .moving ∨ s.kv.elim false (fun k => k.spilled != 0) then some (.sessionState, 0)
          else if rg.any fun q => !d.computeAt (granAddr q) then some (.badParam, 7)
          else none
    match ses with
    | some e => some e
    | none => if rg.any fun q => d.leaving q || !d.computeAt (granAddr q) then some (.regionBusy, 0) else none

/-- The status of a FAULT code (R153). -/
def gStatus (code : Nat) : Status :=
  if code = 2 ∨ code = 3 ∨ code = 6 then .aborted else if code = 9 then .deviceFault else .badParam

/-- LOG GLM_FAULT to the starting partition, with unit, slot and code, and the count of runs ended in FAULT. -/
def Dev.glmFaultLog (d : Dev) (x : Ctx) (u k p code : Nat) : Dev :=
  if p < 16 then (d.bumpPart p 0x05000C 1).recPart x p .log 0x206 (source 5 u) (wd u) (wd k) (wd code)
  else d.recDev x .log 0x206 (source 5 u) (wd u) (wd k) (wd code)

/-- A slot that does not run: FAULT with a status; a refusal that has a FAULT code is reported as R153 says. -/
def Dev.slotFault (d : Dev) (x : Ctx) (u k : Nat) (s : GSlot) (st : Status) (code : Nat) : Dev :=
  let d := d.setGunit u ((d.gunit u).setSlot k { s with st := 4, status := st, fcode := code, time := x.now })
  if code = 0 then d else d.glmFaultLog x u k s.part code

/-- A run whose session range does not translate counts in MEM_STU_FAULTS (R220). -/
def Dev.stuRun (d : Dev) (p : Nat) (ws : List Word) (st : Status) : Dev :=
  let spilled := match d.lookup p (cw ws 2) with
    | .ok s => s.kv.elim false fun k => k.spilled != 0
    | .error _ => false
  if wfld (cw ws 0) 17 16 = 2 ∧ (st = .staleHandle ∨ (st = .sessionState ∧ spilled = true)) then d.bumpPart p 0x040310 1 else d

/-- A command written to a slot. -/
def Dev.glumeCmd (d : Dev) (x : Ctx) (ag : Agent) (p u k anchor : Nat) (ws : List Word) : Dev :=
  let g := d.gunit u
  let s := g.slot k
  let op := wfld (cw ws 0) 31 24
  let seq := wfld (cw ws 0) 15 0
  if !cmdOk ws then d
  else if op = 1 then
    if s.st = 1 ∨ s.st = 2 then d.glmCount p 0x050000
    else
      let device := d.regionOwner (stackOf anchor) (regionOf anchor) == 16
      let p' := match ag with
        | .core _ => p
        | _ => if device then 16 else p
      let n := wfld (cw ws 1) 20 16
      let first := ((d.glm.bankAct.progs[n]?).getD (0, 0, 0, false)).1
      let t : GSlot := { GSlot.reset with st := 1, seq := seq, prog := n, part := p', words := ws, anchor := anchor, order := g.order, first := first,
                                          pc := first, device := device }
      match d.startCheck u p' device anchor ws with
      | some (st, code) => (d.stuRun p' ws st).slotFault x u k { t with pc := 0 } st code
      | none => d.setGunit u ({ g with order := g.order + 1 }.setSlot k t)
  else if op = 2 then
    if s.st = 1 then d.slotFault x u k { s with seq := seq, pc := 0 } .aborted 6
    else if s.st = 2 then d.setGunit u (g.setSlot k { s with seq := seq, stop := true })
    else d
  else if op = 3 then
    if s.st = 3 ∨ s.st = 4 then d.setGunit u (g.setSlot k { GSlot.reset with seq := seq }) else d
  else d

/-- An alias write of 64 bytes. -/
def Dev.aliasWrite (d : Dev) (x : Ctx) (ag : Agent) (p addr : Nat) (ws : List Word) : Dev :=
  match d.aliasAt ag p addr (4 * ws.length) with
  | none => d.glmCount p 0x050000
  | some (u, k, grp, anchor) => if grp ≠ 0 then d.glmCount p 0x050000 else d.glumeCmd x ag p u k anchor ws

/-- GLUME_START, GLUME_STOP and GLUME_CLEAR: an alias write whose command has that operation. -/
def glumeWrite (op : Nat) (ag : Agent) (p addr : Nat) (ws : List Word) (x : Ctx) (d : Dev) : Dev :=
  if wfld (cw ws 0) 31 24 = op then d.aliasWrite x ag p addr ws else d

/-! ### The end of a run (R149, R153) -/

/-- Bytes written into a core's local store with poison. -/
def Dev.lsPoisonWrite (d : Dev) (n off : Nat) (bs : List Byte) : Dev :=
  let d := d.lsWrite n off bs
  let a := lsAddr n off
  { d with grid := { d.grid with lsPoison := addNums ((List.range ((a + bs.length + 3) / 4 - a / 4)).map fun i => a / 4 + i) d.grid.lsPoison } }

/-- A buffer of a core set FULL, with or without the notice. -/
def Dev.bufFull (d : Dev) (n b : Nat) (note : Bool) (st : Status) : Dev :=
  let c := d.core n
  d.setCore n { c with
    bufs := c.bufs.modify b fun t => (t.1, t.2.1, true)
    notices := if note then c.notices ++ [(b, st)] else c.notices }

/-- The CHAIN of a run: Culm copies the result buffer to a core of the starter's placements (R148, R157). -/
def Dev.chain (d : Dev) (s : GSlot) : Dev :=
  let off := wfld (cw s.words 12) 21 0
  let n := wfld (cw s.words 13) 7 0
  let mine := (d.mdl (d.core n).model).elim false fun m => s.device || m.part == s.part
  if !bitAt (cw s.words 0).toNat 18 ∨ !mine ∨ off + s.resBytes > 0x300000 then d
  else
    let d := if s.marked then d.lsPoisonWrite n off (s.result.take s.resBytes) else d.lsWrite n off (s.result.take s.resBytes)
    d.bufFull n (wfld (cw s.words 13) 11 8) (bitAt (cw s.words 13).toNat 12) (if s.marked then .integrity else .ok)

/-- A run ends: DONE, or FAULT with a code. Pins are released, the accesses that wait are served, and the energy tap counts the
time. -/
def Dev.glmEnd (d : Dev) (x : Ctx) (u : Nat) (code : Nat) : Dev :=
  let g := d.gunit u
  match g.running with
  | none => d
  | some k =>
    let s := g.slot k
    let ns := 8 * (x.now - g.startAt)
    let st : Status := if code ≠ 0 then gStatus code else if s.marked then .integrity else .ok
    let t := { s with
      st := if code = 0 then 3 else 4
      status := st
      fcode := code
      pc := if code = 0 then 0 else s.pc
      runNs := ns
      time := x.now
      stop := false }
    let d := (d.setGunit u { g.setSlot k t with running := none, range := [], pages := [], windowAt := none }).unpinAll g.range
    let d := if s.part < 16 then d.tapAdd s.part 2 ns else d
    let d := if code = 0 then d.chain t else d.glmFaultLog x u k s.part code
    (d.serveUnit x u).drainEnd (drainId 5 (u * 16 + k))

/-- A unit taken out of service: its run and its queued slots end with FAULT code 9 (R423). -/
def Dev.glmOffline (d : Dev) (x : Ctx) (u : Nat) : Dev :=
  let d := d.glmEnd x u 9
  let d := d.setGunit u { d.gunit u with offline := true }
  (List.range 16).foldl (fun d k =>
    let s := (d.gunit u).slot k
    if s.st = 1 then d.slotFault x u k { s with pc := 0 } .deviceFault 9 else d) d

/-- The QUEUED slot that started first. -/
def GUnit.nextSlot (g : GUnit) : Option Nat :=
  ((g.slots.filter fun s => s.2.st == 1).foldl (fun (b : Option (Nat × Nat)) s =>
    match b with
    | none => some (s.1, s.2.order)
    | some (k, o) => if s.2.order < o then some (s.1, s.2.order) else some (k, o)) none).map Prod.fst

/-- PROGRAM_START: the checks are made again, a granule in copy delays the start, and the run takes its pins. -/
def programStart (u : Nat) (x : Ctx) (d : Dev) : Dev :=
  let g := d.gunit u
  if g.running.isSome ∨ u ≥ 512 then d
  else
    match g.nextSlot with
    | none => d
    | some k =>
      let s := g.slot k
      let rr := d.runRange u s.anchor s.words
      match d.startCheck u s.part s.device s.anchor s.words with
      | some (st, code) => (d.stuRun s.part s.words st).slotFault x u k { s with pc := 0 } st code
      | none =>
        if rr.1.any fun q => thas d.mem.copying q then d
        else
          let fresh := g.lastPart != s.part
          let regs := (List.range 32).map fun i =>
            if i = 1 then wd s.anchor
            else if i = 2 then wd (if wfld (cw s.words 0) 17 16 = 2 then rr.2.length else rr.1.length)
            else if 10 ≤ i ∧ i ≤ 17 then cw s.words (i - 6)
            else (g.regs[i]?).getD 0
          let g := { g.setSlot k { s with st := 2 } with
            running := some k
            regs := regs
            marks := g.marks.mapIdx fun i m => m && i != 1 && i != 2 && !(10 ≤ i && i ≤ 17)
            scratch := []
            smarks := []
            fill := if fresh then none else some d.free
            lastPart := s.part
            range := rr.1
            pages := rr.2
            session := cw s.words 2
            startAt := x.now
            lastYield := x.now
            windowAt := none }
          ({ d with free := d.free + 1 }.setGunit u g).pinAll rr.1

/-- SERVICE_WINDOW_END: 0.5 µs have passed and the program resumes. -/
def windowEnd (u : Nat) (x : Ctx) (d : Dev) : Dev :=
  let g := d.gunit u
  match g.windowAt with
  | some t => if t + 63 ≤ x.now then d.setGunit u { g with windowAt := none, lastYield := x.now } else d
  | none => d

/-- A yield point: the slot counts it, a STOP takes effect, and a service window opens. -/
def Dev.yieldPoint (d : Dev) (x : Ctx) (u : Nat) : Dev :=
  let g := d.gunit u
  match g.running with
  | none => d
  | some k =>
    let s := g.slot k
    let d := d.setGunit u { g.setSlot k { s with yields := satAdd top32 s.yields 1 } with lastYield := x.now }
    if s.stop then d.glmEnd x u 6 else d.serveWindow x u

/-- YIELD_OVERRUN. -/
def yieldOverrun (u : Nat) (x : Ctx) (d : Dev) : Dev :=
  let g := d.gunit u
  if g.running.isSome && g.windowAt.isNone && g.lastYield + 250 ≤ x.now then d.glmEnd x u 2 else d

/-- The run-time limit of a unit's slot, in µs; a run that a swap met keeps the default of the set it started with (R35). -/
def Dev.budget (d : Dev) (u k : Nat) : Nat :=
  let b := wfld (cw ((d.gunit u).slot k).words 3) 15 0
  let regs := if d.oldSet (drainId 5 (u * 16 + k)) then d.regs.shd else d.regs.act
  if b = 0 then fld (tgetD regs (devKey 0x050018) (resetOf 0x050018)) 15 0 else b

/-- BUDGET_EXPIRY. -/
def budgetExpiry (u : Nat) (x : Ctx) (d : Dev) : Dev :=
  let g := d.gunit u
  match g.running with
  | none => d
  | some k => if g.startAt + 125 * d.budget u k < x.now then d.glmEnd x u 3 else d

/-! ### Region modes (R140, R141) -/

/-- The commands that wait for a region. -/
def Dev.modeOpsOf (d : Dev) (s r : Nat) : List ModeOp := d.glm.modeOps.filter fun o => o.stack == s && o.region == r

/-- The mode that a region will have once every command for it has taken effect. -/
def Dev.modeAfter (d : Dev) (s r : Nat) : Bool := ((d.modeOpsOf s r).getLast?).elim (d.isCompute s r) ModeOp.compute

/-- GLM_REGION_MODE. -/
def regionModeCmd (_ : Ctx) (q : Req) (d : Dev) : Ans :=
  let s := q.f 2 3 0
  let r := q.f 2 13 8
  let c := bitAt (q.w 2).toNat 16
  let o := d.regionOwner s r
  if !q.clean [(2, 0x13F0F)] ∨ r > 47 then .refuse .badParam
  else if o = 30 ∨ o = 31 ∨ (o < 16 ∧ o ≠ q.part) ∨ (o = 16 ∧ !(q.fn.elim false d.isCtrl)) then .refuse .notPermitted
  else if c && d.regionSealed s r then .refuse .notPermitted
  else if (d.modeOpsOf s r).isEmpty && c == d.isCompute s r then .both [] .ok [loW q.arrival, hiW q.arrival] d
  else
    let m : ModeOp := ⟨q.seq, s, r, c, q.arrival⟩
    let ms : List ModeOp := d.glm.modeOps ++ [m]
    .accept [] .regionMode { d with glm := { d.glm with modeOps := ms } }

/-- Commands at the head of a region's line that name the mode it has end with the tick of the last switch, `fuel` at most. -/
def Dev.modeSettle (d : Dev) (x : Ctx) (s r : Nat) : Nat → Dev
  | 0 => d
  | f + 1 =>
    match d.modeOpsOf s r with
    | [] => d
    | o :: _ =>
      if o.compute == d.isCompute s r then
        let t := max o.at_ (tgetD d.glm.lastSwitch (s * 64 + r) 0)
        ({ d with glm := { d.glm with modeOps := d.glm.modeOps.filter fun m => m.op != o.op } }.endOp x o.op .ok [loW t, hiW t]).modeSettle x s r f
      else d

/-- REGION_SWITCH: to COMPUTE once no earlier write to the region is outstanding, to NORMAL once no program pins a granule of it and no
alias-path access to it waits. -/
def regionSwitch (s r : Nat) (x : Ctx) (d : Dev) : Dev :=
  match d.modeOpsOf s r with
  | [] => d
  | o :: _ =>
    let busy := if o.compute then d.mem.stalled.any fun w => inRegion s r (gran w.addr) else d.regionPins s r != 0 || d.regionQueued s r
    if busy then d
    else
      let n := s * 64 + r
      let d := { d with glm :=
        { d.glm with
          compute := if o.compute then addNum n d.glm.compute else d.glm.compute.filter (· != n)
          lastSwitch := tset d.glm.lastSwitch n x.now
          modeOps := d.glm.modeOps.filter fun m => m.op != o.op } }
      (d.endOp x o.op .ok [loW x.now, hiW x.now]).modeSettle x s r d.glm.modeOps.length

/-- An abort of a mode change that has not switched (R64). -/
def Dev.modeAbort (d : Dev) (x : Ctx) (id : Nat) : Dev :=
  match d.glm.modeOps.find? fun o => o.op == id with
  | none => d
  | some o =>
    ({ d with glm := { d.glm with modeOps := d.glm.modeOps.filter fun m => m.op != id } }.endOp x id .aborted []).modeSettle x o.stack o.region
      d.glm.modeOps.length

/-! ### Program bank and curves (R154, R158, R159) -/

/-- Entry k of a bank. -/
def bankEntry (b : List Byte) (k : Nat) : Nat × Nat × Nat × Bool :=
  let o := 64 + 16 * k
  if k < leAt b 4 4 then (leAt b o 2, leAt b (o + 2) 2, leAt b (o + 4) 2, bitAt (leAt b (o + 6) 2) 0) else (0, 0, 0, false)

/-- Whether a bank's bytes keep to their layout. -/
def bankOk (b : List Byte) : Bool :=
  let n := leAt b 8 4
  leAt b 0 4 == 0x31474C47 && 1 ≤ leAt b 4 4 && leAt b 4 4 ≤ 32 && 1 ≤ n && n ≤ 4096 && b.length == 576 + 4 * n && zeroBytes b 0xC 0x3C &&
    (List.range (leAt b 4 4)).all fun k =>
      let e := bankEntry b k
      e.1 + e.2.1 ≤ n && leAt b (64 + 16 * k + 6) 2 < 2 && zeroBytes b (64 + 16 * k + 8) (80 + 16 * k)

/-- GLM_PROG_LOAD. -/
def progLoadCmd (_ : Ctx) (q : Req) (d : Dev) : Ans :=
  let len := (q.w 4).toNat
  if !q.clean [(2, top32), (3, top32), (4, top32), (5, top32)] ∨ len > 64 + 512 + 16384 then .refuse .badParam
  else if d.sliceBusy 16 5 then .refuse .notPermitted
  else .accept [] (.progLoad len (q.w 5)) d

/-- The bank's bytes have arrived (R29): a refused load leaves the shadow bank invalid. -/
def Dev.bankLoaded (d : Dev) (x : Ctx) (id : Nat) (crc : Word) (b : List Byte) : Dev :=
  let put (k : ProgBank) : Dev := { d with glm := { d.glm with bankShd := k } }
  if d.sliceBusy 16 5 then d.endOp x id .notPermitted []
  else if crc32c b ≠ crc ∨ leAt b 0x3C 4 ≠ (crc32c (b.drop 64)).toNat then (put ⟨false, [], 0 :: b⟩).endOp x id .integrity []
  else if !bankOk b then (put ⟨false, [], 0 :: b⟩).endOp x id .badParam []
  else (put ⟨true, (List.range 32).map (bankEntry b), b⟩).endOp x id .ok []

/-- GLM_CURVE_LOAD. -/
def curveLoadCmd (_ : Ctx) (q : Req) (d : Dev) : Ans :=
  if !q.clean [(2, top32), (3, top32), (4, 1), (5, top32)] then .refuse .badParam
  else if d.sliceBusy 16 5 then .refuse .notPermitted
  else .accept [] (.curveLoad (q.f 4 0 0) (q.w 5)) d

/-- The bytes of a curve table. -/
def curveLen (t : Nat) : Nat := if t = 0 then 64 else 48

/-- A byte as a signed number. -/
def signed8 (n : Nat) : Int := if n < 128 then (n : Int) else (n : Int) - 256

/-- A curve table's bytes have arrived. -/
def Dev.curveLoaded (d : Dev) (x : Ctx) (id t : Nat) (crc : Word) (b : List Byte) : Dev :=
  let c := d.glm.curvesShd
  let put (c : Curves) : Dev := { d with glm := { d.glm with curvesShd := c } }
  let ok := crc32c b = crc ∧ b.length = curveLen t
  if d.sliceBusy 16 5 then d.endOp x id .notPermitted []
  else if ok then
    if t = 0 then
      (put { c with
        refreshValid := true
        refresh := (List.range 8).map fun k => (signed8 (leAt b (8 * k) 1), leAt b (8 * k + 1) 1, leAt b (8 * k + 2) 2) }).endOp x id .ok []
    else
      (put { c with
        throttleValid := true
        temps := (List.range 3).map fun k => leAt b k 1
        acts := (List.range 3).map fun k => leAt b (4 + 2 * k) 2
        limits := (List.range 16).map fun k => leAt b (10 + 2 * k) 2 }).endOp x id .ok []
  else (put (if t = 0 then { c with refreshValid := false } else { c with throttleValid := false })).endOp x id .integrity []

/-- The row of the refresh curve in force: the last whose T_LOW does not exceed the temperature. -/
def Curves.row (c : Curves) (t : Nat) : Nat :=
  ((List.range 8).filter fun k => ((c.refresh[k]?).getD (127, 4, 4096)).1 ≤ (t : Int)).foldl max 0

/-- The band of a value among boundaries. -/
def band (l : List Nat) (v : Nat) : Nat := (l.filter fun b => b ≤ v).length

/-- STACK_TEMP_SAMPLE: temperature, and the limits of the next window by the activity of each channel, which the base die has counted
over the 8 µs that end. At 105 °C the emergency is raised (R158, R466). -/
def stackTemp (s t : Nat) (x : Ctx) (d : Dev) : Dev :=
  if s ≥ 16 then d
  else
    let c := d.glm.curvesAct
    let tb := band c.temps t
    let ab (k : Nat) : Nat := band c.acts (tgetD d.glm.acts (s * 32 + k) 0 / 8)
    let top := (List.range 32).foldl (fun m k => max m (ab k)) 0
    let d := { d with glm := { d.glm with therm := tset d.glm.therm s (t, tb, top, c.row t) } }
    let d := (List.range 32).foldl (fun d k =>
      let u := s * 32 + k
      d.setGunit u { d.gunit u with limit := (c.limits[tb * 4 + ab k]?).getD 0 }) d
    let th := ((c.refresh[c.row t]?).getD (0, 1, 16384)).2.2
    let d := { d with glm := { d.glm with acts := d.glm.acts.filter fun a => a.1 / 32 != s, thresh := tset d.glm.thresh s th } }
    let d := d.drainEnd (drainId 5 (2 ^ 20 + s))
    condRead 1 (d.glm.therm.any fun e => decide (105 ≤ e.2.1)) x d

/-- TARGETED_REFRESH: a row at its threshold has its neighbours refreshed, and its count is reset. -/
def targetedRefresh (u bank row : Nat) (_ : Ctx) (d : Dev) : Dev :=
  if tgetD d.glm.thresh (u / 32) 16384 ≤ tgetD d.glm.rowActs (rowKey u bank row) 0 then { d with glm := { d.glm with rowActs := tdel d.glm.rowActs (rowKey u bank row) } } else d

/-- REFRESH_WINDOW_END: the counts of a stack restart. -/
def refreshEnd (s : Nat) (_ : Ctx) (d : Dev) : Dev :=
  { d with glm := { d.glm with rowActs := d.glm.rowActs.filter fun r => r.1 / 2 ^ 48 / 32 != s } }

/-! ### Opcodes (R160) -/

/-- An anchor: its device address, and whether it is the device form. -/
def Dev.anchor (d : Dev) (q : Req) : Except Status (Nat × Bool) :=
  let hi := (q.w 3).toNat
  let lo := (q.w 2).toNat
  if bitAt hi 31 then
    if fld hi 30 16 ≠ 0 then .error .badParam
    else if !(q.fn.elim false d.isCtrl) then .error .notPermitted
    else
      let a := lo + fld hi 15 0 * 2 ^ 32
      if isHbm a then .ok (a, true) else .error .badParam
  else if fld hi 30 8 ≠ 0 then .error .badParam
  else
    match d.bufAddr q.part (lo + fld hi 7 0 * 2 ^ 32) with
    | some (a, _) => .ok (a, false)
    | none => .error .badParam

/-- The alias address of a slot's group under an anchor. -/
def aliasOf (a k grp : Nat) : Nat := granAddr (gran a) + 0x010000000000 + k * 2048 + grp * 64

/-- GLM_SUBMIT. -/
def submitCmd (x : Ctx) (q : Req) (d : Dev) : Ans :=
  let ws := (q.words.drop 16).take 16
  let own := (List.range 16).map fun i => (16 + i, top32)
  if !q.clean ([(2, top32), (3, top32), (4, 0xF)] ++ own) then .refuse .badParam
  else
    match d.anchor q with
    | .error st => .refuse st
    | .ok (a, dev) =>
      let p := if dev then 16 else q.part
      let d := d.aliasWrite x .ctl p (aliasOf a (q.f 4 3 0) 0) ws
      match d.aliasAt .ctl p (aliasOf a (q.f 4 3 0) 0) 64 with
      | none => .done .ok [0, 0] (d.glmCount p 0x050000)
      | some (u, k, _, _) => .done .ok ((((d.gunit u).slot k).seen p).words_.take 2) d

/-- GLM_STATUS: the status words, and the result buffer to host memory where asked. -/
def statusCmd (_ : Ctx) (q : Req) (d : Dev) : Ans :=
  if !q.clean [(2, top32), (3, top32), (4, 0xF), (5, top32), (6, top32)] then .refuse .badParam
  else
    match d.anchor q with
    | .error st => .refuse st
    | .ok (a, dev) =>
      let p := if dev then 16 else q.part
      match d.aliasAt .ctl p (aliasOf a (q.f 4 3 0) 0) 64 with
      | none => .done .ok [0, 0, 0, 0] (d.glmCount p 0x050000)
      | some (u, k, _, _) =>
        let s := ((d.gunit u).slot k).seen p
        let d := match q.fn with
          | some f => if q.d2 5 = 0 then d else d.out (.hostWrite f.port (q.d2 5) ((s.result ++ List.replicate 1984 0).take 1984))
          | none => d
        .done .ok [(s.words_[0]?).getD 0, (s.words_[1]?).getD 0, (s.words_[4]?).getD 0, (s.words_[6]?).getD 0] d

/-- GLM_REGION_QUERY. -/
def regionQueryCmd (_ : Ctx) (q : Req) (d : Dev) : Ans :=
  let s := q.f 2 3 0
  let r := q.f 2 13 8
  if !q.clean [(2, 0x3F0F)] ∨ r > 47 then .refuse .badParam
  else .done .ok [wd (d.regionOwner s r + if d.isCompute s r then 256 else 0), wd (d.regionPins s r)] d

def effGlmRegionMode (c : Cmd) (s : State) : Host.Outcome State Fault Refusal := hostCmd 0x0B00 c regionModeCmd s
def effRegionSwitch (st r : Nat) (s : State) : Host.Outcome State Fault Refusal := onDev (regionSwitch st r) s
def effGlmProgLoad (c : Cmd) (s : State) : Host.Outcome State Fault Refusal := hostCmd 0x0B01 c progLoadCmd s
def effGlmCurveLoad (c : Cmd) (s : State) : Host.Outcome State Fault Refusal := hostCmd 0x0B02 c curveLoadCmd s
def effGlmSubmit (c : Cmd) (s : State) : Host.Outcome State Fault Refusal := hostCmd 0x0B03 c submitCmd s
def effGlmStatus (c : Cmd) (s : State) : Host.Outcome State Fault Refusal := hostCmd 0x0B04 c statusCmd s
def effGlmRegionQuery (c : Cmd) (s : State) : Host.Outcome State Fault Refusal := hostCmd 0x0B05 c regionQueryCmd s
def effGlumeStart (ag : Agent) (p a : Nat) (ws : List Word) (s : State) : Host.Outcome State Fault Refusal := onDev (glumeWrite 1 ag p a ws) s
def effGlumeStop (ag : Agent) (p a : Nat) (ws : List Word) (s : State) : Host.Outcome State Fault Refusal := onDev (glumeWrite 2 ag p a ws) s
def effGlumeClear (ag : Agent) (p a : Nat) (ws : List Word) (s : State) : Host.Outcome State Fault Refusal := onDev (glumeWrite 3 ag p a ws) s
def effGlAliasStatusRead (ag : Agent) (p a len : Nat) (s : State) : Host.Outcome State Fault Refusal := onDev (aliasRead true ag p a len) s
def effGlAliasResultRead (ag : Agent) (p a len : Nat) (s : State) : Host.Outcome State Fault Refusal := onDev (aliasRead false ag p a len) s
def effProgramStart (u : Nat) (s : State) : Host.Outcome State Fault Refusal := onDev (programStart u) s
def effServiceWindowEnd (u : Nat) (s : State) : Host.Outcome State Fault Refusal := onDev (windowEnd u) s
def effYieldOverrun (u : Nat) (s : State) : Host.Outcome State Fault Refusal := onDev (yieldOverrun u) s
def effBudgetExpiry (u : Nat) (s : State) : Host.Outcome State Fault Refusal := onDev (budgetExpiry u) s
def effOrdinaryRead (ag : Agent) (p a len : Nat) (e : List (Nat × Ecc)) (s : State) : Host.Outcome State Fault Refusal := onDev (ordRead ag p a len e) s
def effOrdinaryWrite (ag : Agent) (p a : Nat) (bs : List Byte) (s : State) : Host.Outcome State Fault Refusal := onDev (ordWrite ag p a bs) s
def effHeldReadTimeout (u : Nat) (s : State) : Host.Outcome State Fault Refusal := onDev (heldTimeout u) s
def effGlAliasPathAccess (ag : Agent) (p a : Nat) (w : Bool) (len : Nat) (bs : List Byte) (e : List (Nat × Ecc)) (s : State) :
    Host.Outcome State Fault Refusal :=
  onDev (pathAccess ag p a w len bs e) s
def effBar2Read (f : Fn) (off len : Nat) (e : List (Nat × Ecc)) (s : State) : Host.Outcome State Fault Refusal := onDev (bar2Read f off len e) s
def effBar2Write (f : Fn) (off : Nat) (bs : List Byte) (s : State) : Host.Outcome State Fault Refusal := onDev (bar2Write f off bs) s
def effStackTempSample (st t : Nat) (s : State) : Host.Outcome State Fault Refusal := onDev (stackTemp st t) s
def effTargetedRefresh (u b r : Nat) (s : State) : Host.Outcome State Fault Refusal := onDev (targetedRefresh u b r) s
def effRefreshWindowEnd (st : Nat) (s : State) : Host.Outcome State Fault Refusal := onDev (refreshEnd st) s

end Sys2Proof.Machine
end

