-- ==== Sys2Proof/Machine/GlumeIsa.lean ====
section
/-! DEFINITION. The operations of a Glume program (R138, R151-R157, R198): each row is the next operation of the program that runs on its
unit. -/

namespace Sys2Proof.Machine

/-! ### Integer operations, for the Glume scalar core and for the core's sequencer -/

/-- The number of an operation for `Config`. -/
def aluNo : AluOp → Nat
  | .add => 0 | .sub => 1 | .and => 2 | .or => 3 | .xor => 4 | .shl => 5 | .shr => 6 | .sra => 7 | .cmpEq => 8 | .cmpLt => 9 | .cmpLtu => 10

/-- A one-bit result in a register. -/
def boolBits (w : Nat) (b : Bool) : BitVec w := if b then BitVec.ofNat w 1 else BitVec.ofNat w 0

/-- The result of an integer operation at a width; a shift by the width or more has a result that the spec does not state (log
entry 9). -/
def aluVal (w : Nat) (op : AluOp) (a b : BitVec w) : BitVec w :=
  let shift (v : BitVec w) : BitVec w := if b.toNat < w then v else BitVec.ofNat w (Config.wideShift (aluNo op) a.toNat b.toNat)
  match op with
  | .add => a + b
  | .sub => a - b
  | .and => a &&& b
  | .or => a ||| b
  | .xor => a ^^^ b
  | .shl => shift (a <<< b.toNat)
  | .shr => shift (a >>> b.toNat)
  | .sra => shift (a.sshiftRight b.toNat)
  | .cmpEq => boolBits w (a == b)
  | .cmpLt => boolBits w (a.slt b)
  | .cmpLtu => boolBits w (a.ult b)

/-- A branch condition. -/
def condVal {w : Nat} (c : Cond) (a b : BitVec w) : Bool :=
  match c with
  | .always => true
  | .eq => a == b
  | .ne => a != b
  | .lt => a.slt b
  | .ge => !a.slt b
  | .ltu => a.ult b
  | .geu => !a.ult b

/-- An immediate at a width, sign-extended or not as `Config.immSigned` says for the operation (log entry 9). -/
def immVal (n w : Nat) {k : Nat} (v : BitVec k) : BitVec w := if Config.immSigned n then v.signExtend w else v.setWidth w

/-! ### Registers and scratch of a unit -/

/-- A scalar register with its poison mark; x0 reads as zero. -/
def GUnit.rd (g : GUnit) (r : Nat) : Word × Bool := if r = 0 then (0, false) else ((g.regs[r]?).getD 0, (g.marks[r]?).getD false)

/-- A scalar register written; a write of x0 has no effect. -/
def GUnit.wr (g : GUnit) (r : Nat) (v : Word) (m : Bool) : GUnit :=
  if r = 0 then g else { g with regs := g.regs.set r v, marks := g.marks.set r m }

/-- A helper register with its poison mark, and its replacement. -/
def GUnit.vrd (g : GUnit) (v : Nat) : List F32 × Bool := ((g.vregs[v]?).getD (List.replicate 16 0), (g.vmarks[v]?).getD false)
def GUnit.vwr (g : GUnit) (v : Nat) (l : List F32) (m : Bool) : GUnit := { g with vregs := g.vregs.set v l, vmarks := g.vmarks.set v m }

/-- The size of the scratch data area. -/
def scratchTop : Nat := 0x8400

/-- A byte of scratch: what the run wrote; else zero, or a free value where the unit's last program belonged to the same partition (log
entry 22). -/
def GUnit.sbyte (g : GUnit) (a : Nat) : Byte :=
  match tget g.scratch a with
  | some b => b
  | none => g.fill.elim 0 fun n => Config.staleByte n a

/-- Bytes of scratch, and whether any 32-byte word of them is poisoned. -/
def GUnit.sread (g : GUnit) (a n : Nat) : List Byte := (List.range n).map fun i => g.sbyte (a + i)
def GUnit.smark (g : GUnit) (a n : Nat) : Bool := (codewords a n).any g.smarks.contains

/-- The 32-byte words that a range covers whole. -/
def wholeWords (a n : Nat) : List Nat := (codewords a n).filter fun w => a ≤ w * 32 && w * 32 + 32 ≤ a + n

/-- Bytes written into scratch: a whole word written without a mark loses its mark; a marked write marks every word it touches. -/
def GUnit.swrite (g : GUnit) (a : Nat) (bs : List Byte) (m : Bool) : GUnit :=
  let sc := (bs.mapIdx fun i b => (a + i, b)).foldl (fun (t : Tbl Byte) e => tset t e.1 e.2) g.scratch
  { g with
    scratch := sc
    smarks := if m then addNums (codewords a bs.length) g.smarks else delNums (wholeWords a bs.length) g.smarks }

/-- Whether an access lies in the scratch data area. -/
def inScratch (a n : Nat) : Bool := a + n ≤ scratchTop

/-! ### The frame of an operation -/

/-- What an operation leads to: the unit after it with the next instruction, or a FAULT code (R153). -/
inductive GRes where
  | next (g : GUnit) (pc : Nat)
  | fault (code : Nat)

/-- Whether the running program of a unit may execute now, and its slot: not inside a service window. -/
def Dev.glmReady (d : Dev) (u : Nat) : Option (Nat × GSlot) :=
  let g := d.gunit u
  match g.running with
  | none => none
  | some k => if g.windowAt.isSome ∨ g.offline then none else some (k, g.slot k)

/-- The unit's next instruction index stored. -/
def Dev.glmPc (d : Dev) (u k pc : Nat) : Dev := d.setGunit u ((d.gunit u).setSlot k { (d.gunit u).slot k with pc := pc })

/-- An operation on the unit alone. -/
def glmOp (u : Nat) (f : GUnit → Nat → GRes) (x : Ctx) (d : Dev) : Dev :=
  match d.glmReady u with
  | none => d
  | some (k, s) =>
    match f (d.gunit u) s.pc with
    | .next g pc => (d.setGunit u g).glmPc u k pc
    | .fault c => d.glmEnd x u c

/-- Whether register numbers exist (scalar and helper). -/
def xs (l : List Nat) : Bool := l.all (· < 32)
def vs (l : List Nat) : Bool := l.all (· < 16)

/-- An undefined instruction is FAULT code 4. -/
def gIf (ok : Bool) (r : GRes) : GRes := if ok then r else .fault 4

/-! ### Scalar operations -/

/-- A scalar operand. -/
def GUnit.src (g : GUnit) (op : AluOp) : GSrc → Word × Bool
  | .reg r => g.rd r
  | .imm v => (immVal (aluNo op) 32 v, false)

/-- Whether a scalar operand names a register that exists. -/
def gsrcOk : GSrc → Bool
  | .reg r => r < 32
  | .imm _ => true

/-- ALU and ALUI. -/
def glmAluOp (op : AluOp) (rd rs : Nat) (src : GSrc) (g : GUnit) (pc : Nat) : GRes :=
  let a := g.rd rs
  let b := g.src op src
  gIf (xs [rd, rs] && gsrcOk src) (.next (g.wr rd (aluVal 32 op a.1 b.1) (a.2 || b.2)) (pc + 1))

/-- MUL, low or high word; the spec does not say whether the high word is of a signed product (log entry 9). -/
def glmMulOp (high : Bool) (rd rs rt : Nat) (g : GUnit) (pc : Nat) : GRes :=
  let a := g.rd rs
  let b := g.rd rt
  gIf (xs [rd, rs, rt]) (.next (g.wr rd (if high then Config.mulHigh a.1 b.1 else a.1 * b.1) (a.2 || b.2)) (pc + 1))

/-- LI: two instructions. -/
def glmLiOp (rd : Nat) (v : Word) (g : GUnit) (pc : Nat) : GRes := gIf (xs [rd]) (.next (g.wr rd v false) (pc + 2))

/-- B, BCC and J; a target outside the instruction store is no defined instruction. -/
def glmBranchOp (c : Cond) (rs rt target : Nat) (g : GUnit) (pc : Nat) : GRes :=
  gIf (xs [rs, rt] && target < 4096) (.next g (if condVal c (g.rd rs).1 (g.rd rt).1 then target else pc + 1))

/-- A 12-bit offset added to a base register. -/
def GUnit.ea (g : GUnit) (n base : Nat) (off : BitVec 12) : Nat := ((g.rd base).1 + immVal n 32 off).toNat

/-- A loaded value of 8, 16 or 32 bits in a register. -/
def loadVal (n : Nat) (bs : List Byte) (w : Nat) : BitVec w :=
  let v := leNat bs
  if Config.loadSigned n ∧ bitAt v (8 * bs.length - 1) then BitVec.ofNat w (v + 2 ^ w - 2 ^ (8 * bs.length)) else BitVec.ofNat w v

/-- LD and ST. -/
def glmLdStOp (store : Bool) (bytes r base : Nat) (off : BitVec 12) (g : GUnit) (pc : Nat) : GRes :=
  let a := g.ea 11 base off
  if !(xs [r, base] && ([1, 2, 4] : List Nat).contains bytes) then .fault 4
  else if !inScratch a bytes then .fault 5
  else if store then .next (g.swrite a (leBytes bytes (g.rd r).1.toNat) ((g.rd r).2 || (g.rd base).2)) (pc + 1)
  else .next (g.wr r (loadVal 0 (g.sread a bytes) 32) (g.smark a bytes || (g.rd base).2)) (pc + 1)

/-! ### Helper operations -/

/-- VLD and VST: 64 bytes; a lane is stored finite and without a subnormal, as the core's is (R191, R192). -/
def glmVldVstOp (store : Bool) (v base : Nat) (off : BitVec 12) (g : GUnit) (pc : Nat) : GRes :=
  let a := g.ea 12 base off
  if !(xs [base] && vs [v]) then .fault 4
  else if !inScratch a 64 then .fault 5
  else if store then .next (g.swrite a (wordBytes ((g.vrd v).1.map fun w => f32OfFv (f32Val w))) ((g.vrd v).2 || (g.rd base).2)) (pc + 1)
  else .next (g.vwr v (bytesWords 16 (g.sread a 64)) (g.smark a 64 || (g.rd base).2)) (pc + 1)

/-- The formats that Glume VCVT reads. -/
def vcvtFmts : List Nat := [0x20, 0x21, 0x01, 0x02, 0x05, 0x12]

/-- The elements in 64 bytes of a format; PK3 fills them with five whole blocks of 12 bytes. -/
def vcvtCount (f : Nat) : Nat := if f = 0x12 then 160 else 512 / fmtBits f

/-- The bytes of the block scales of `n` elements: none for BF16 and FP16, BF16 for PK3, else one byte (R184). -/
def scaleBytes (f n : Nat) : Nat :=
  if f = 0x20 ∨ f = 0x21 ∨ f = 0x22 then 0 else if f = 0x12 then 2 * (n / 32) else n / fmtBlock f

/-- FP32 values of `n` elements from their codes and scales. -/
def cvtVals (f n : Nat) (codes scales : List Byte) : List F32 :=
  (List.range n).map fun k =>
    if f = 0x20 then f32OfFv (bf16Val (leAt codes (2 * k) 2))
    else if f = 0x21 then f32OfFv (fp16Val (leAt codes (2 * k) 2))
    else if f = 0x22 then BitVec.ofNat 32 (leAt codes (4 * k) 4)
    else
      let b := k / fmtBlock f
      f32OfFv (elemVal f (bitElem codes (fmtBits f) k) (if f = 0x12 then leAt scales (2 * b) 2 else leAt scales b 1))

/-- Helper registers written in order from v. -/
def GUnit.vfill (g : GUnit) (m : Bool) : Nat → List (List F32) → GUnit
  | _, [] => g
  | v, l :: ls => (g.vwr v l m).vfill m (v + 1) ls

/-- VCVT: the elements fill v, v + 1 and so on, 16 lanes each. -/
def glmVcvtOp (f v src scales : Nat) (g : GUnit) (pc : Nat) : GRes :=
  let n := vcvtCount f
  let sb := scaleBytes f n
  let a := (g.rd src).1.toNat
  let s := (g.rd scales).1.toNat
  if !(vcvtFmts.contains f && xs [src, scales] && v + n / 16 ≤ 16) then .fault 4
  else if !inScratch a 64 ∨ (sb ≠ 0 ∧ !inScratch s sb) then .fault 5
  else
    let m := g.smark a 64 || (sb != 0 && g.smark s sb) || (g.rd src).2 || (sb != 0 && (g.rd scales).2)
    .next (g.vfill m v (chunks 16 (n / 16) (cvtVals f n (g.sread a 64) (g.sread s sb)))) (pc + 1)

/-- A vector operand: a helper register, or a scalar register in every lane. -/
def GUnit.vsrc (g : GUnit) : VSrc → List F32 × Bool
  | .reg r => g.vrd r
  | .bcast r => (List.replicate 16 (g.rd r).1, (g.rd r).2)

/-- Whether a vector operand exists. -/
def gvsrcOk : VSrc → Bool
  | .reg r => r < 16
  | .bcast r => r < 32

/-- A lane-wise operation on three operands: d is the former destination (R198). -/
def laneOp (op : VecOp) (a b d : F32) : F32 :=
  match op with
  | .add => f32Add a b
  | .mul => f32Mul a b
  | .fma => f32Fma a b d
  | .max => f32Max a b
  | .exp2 => f32Exp2 a
  | .rcp => f32Rcp a
  | .rsqrt => f32Rsqrt a

/-- Lanes combined. -/
def lanes (op : VecOp) : List F32 → List F32 → List F32 → List F32
  | a :: as, b :: bs, d :: ds => laneOp op a b d :: lanes op as bs ds
  | _, _, _ => []

/-- VFMA (vd := va × b + vd), VMUL, VADD and VMAX; the helper has no other two-operand form. -/
def glmVecOp (op : VecOp) (vd va : Nat) (b : VSrc) (g : GUnit) (pc : Nat) : GRes :=
  let m := (g.vrd va).2 || (g.vsrc b).2 || (op == .fma && (g.vrd vd).2)
  gIf (vs [vd, va] && gvsrcOk b && ([.add, .mul, .fma, .max] : List VecOp).contains op)
    (.next (g.vwr vd (lanes op (g.vrd va).1 (g.vsrc b).1 (g.vrd vd).1) m) (pc + 1))

/-- VEXP2. -/
def glmExpOp (vd va : Nat) (g : GUnit) (pc : Nat) : GRes :=
  gIf (vs [vd, va]) (.next (g.vwr vd ((g.vrd va).1.map f32Exp2) (g.vrd va).2) (pc + 1))

/-- A reduction of lanes in a fixed pairwise tree (R198; log entry 8). -/
def reduceLanes (max : Bool) (n : Nat) (l : List F32) : F32 := ((pairTree (if max then f32Max else f32Add) n l).head?).getD 0

/-- VRSUM and VRMAX. -/
def glmRedOp (max : Bool) (rd va : Nat) (g : GUnit) (pc : Nat) : GRes :=
  gIf (xs [rd] && vs [va]) (.next (g.wr rd (reduceLanes max 4 (g.vrd va).1) (g.vrd va).2) (pc + 1))

/-! ### Pages, results and yield points -/

/-- PGNEXT: the next page's device address and first position, or zeros after the last. -/
def glmPgnextOp (rLo rHi rPos : Nat) (g : GUnit) (pc : Nat) : GRes :=
  let p := (g.pages.head?).getD (0, 0)
  gIf (xs [rLo, rHi, rPos])
    (.next ({ (((g.wr rLo (loW p.1) false).wr rHi (hiW p.1) false).wr rPos (wd p.2) false) with pages := g.pages.tail }) (pc + 1))

/-- RES: bytes of scratch join the slot's result buffer; 1,984 bytes are its size. -/
def glmResOp (k src len : Nat) (g : GUnit) (pc : Nat) : GRes :=
  let a := (g.rd src).1.toNat
  let n := (g.rd len).1.toNat
  let s := g.slot k
  if !xs [src, len] then .fault 4
  else if s.resBytes + n > 1984 then .fault 8
  else if !inScratch a n then .fault 5
  else
    let t := { s with
      result := s.result ++ g.sread a n
      resBytes := s.resBytes + n
      marked := s.marked || g.smark a n || (g.rd src).2 || (g.rd len).2 }
    .next (g.setSlot k t) (pc + 1)

/-- BWAIT and YIELD: every access issued has completed in this model, and a yield point follows. -/
def glmYield (u : Nat) (x : Ctx) (d : Dev) : Dev :=
  match d.glmReady u with
  | none => d
  | some (k, s) => (d.glmPc u k (s.pc + 1)).yieldPoint x u

/-- END: the run ends DONE. -/
def glmFinish (u : Nat) (x : Ctx) (d : Dev) : Dev :=
  match d.glmReady u with
  | none => d
  | some _ => d.glmEnd x u 0

/-! ### Bank accesses (R152, R155-R159) -/

/-- The operands of a bank access: its device address and scratch address, or the FAULT code. -/
def GUnit.bank (g : GUnit) (sc lo hi len : Nat) : Except Nat (Nat × Nat × Bool) :=
  let a := (g.rd lo).1.toNat + (g.rd hi).1.toNat * 2 ^ 32
  let s := (g.rd sc).1.toNat
  if !xs [sc, lo, hi] ∨ len = 0 ∨ len % 64 ≠ 0 ∨ len > 32768 then .error 4
  else if !((gransOf a len).all g.range.contains) then .error 1
  else if !inScratch s len then .error 5
  else .ok (a, s, (g.rd lo).2 || (g.rd hi).2 || (g.rd sc).2)

/-- The activations that the issue throttle still gives this microsecond (R159). -/
def GUnit.room (g : GUnit) (now : Nat) : Nat := g.limit - if g.issuedAt = now / 125 then g.issued else 0

/-- Whether the issue throttle holds an access of so many activations back: what it was given in the microseconds it has waited, and
this one's room, do not suffice (R159). -/
def GUnit.throttled (g : GUnit) (now n : Nat) : Bool := g.owed + g.room now < n

/-- An access held back: it keeps the activations that this microsecond had left. -/
def GUnit.holdBack (g : GUnit) (now : Nat) : GUnit := { g with owed := g.owed + g.room now, issued := g.limit, issuedAt := now / 125 }

/-- The activations of an access, issued and counted. -/
def Dev.issue (d : Dev) (x : Ctx) (u a len : Nat) : Dev :=
  let g := d.gunit u
  let n := (if g.issuedAt = x.now / 125 then g.issued else 0) + ((Config.rowsOf a len).length - g.owed)
  (d.setGunit u { g with issued := n, issuedAt := x.now / 125, owed := 0 }).acted a len

/-- What the base die's decoder finds in a codeword of a Glume access. -/
def Dev.bankEcc (d : Dev) (x : Ctx) (a : Nat) : Ecc → Dev
  | .clean => d
  | .corrected => (d.hbmCe x a).bumpDev 0x050010 1
  | .uncorrectable => d.hbmUe x a false

/-- What it finds in the codewords of a Glume access, each named by its place in the access. -/
def Dev.bankEccs (d : Dev) (x : Ctx) (a len : Nat) (l : List (Nat × Ecc)) : Dev :=
  l.foldl (fun d e => if e.1 < (codewords a len).length then d.bankEcc x ((a / 32 + e.1) * 32) e.2 else d) d

/-- A bank access that the throttle holds back: a yield point (R152). -/
def Dev.throttle (d : Dev) (x : Ctx) (u : Nat) : Dev := (d.setGunit u ((d.gunit u).holdBack x.now)).yieldPoint x u

/-- BRD: bytes into scratch; each scratch word that a poisoned codeword fills is marked (R157). -/
def brdOp (u dst lo hi len : Nat) (e : List (Nat × Ecc)) (x : Ctx) (d : Dev) : Dev :=
  match d.glmReady u with
  | none => d
  | some (k, s) =>
    match (d.gunit u).bank dst lo hi len with
    | .error c => d.glmEnd x u c
    | .ok (a, t, m) =>
      if (d.gunit u).throttled x.now (Config.rowsOf a len).length then d.throttle x u
      else
        let d := (d.bankEccs x a len e).issue x u a len
        let bad := (codewords a len).filter d.mem.poison.contains
        let g := (d.gunit u).swrite t (d.hbmRead a len) m
        let marks := bad.flatMap fun c => codewords (t + max (c * 32) a - a) (min (c * 32 + 32) (a + len) - max (c * 32) a)
        (d.setGunit u { g with smarks := addNums marks g.smarks }).glmPc u k (s.pc + 1)

/-- BWR: a read-modify-write of each codeword. Poison that stands in a codeword stays, and is counted; a marked word of scratch is
written as poison. A frozen granule takes no write (R119). A region that a checkpoint has not reached holds the access as the throttle
does (R359). -/
def bwrOp (u src lo hi len : Nat) (e : List (Nat × Ecc)) (x : Ctx) (d : Dev) : Dev :=
  match d.glmReady u with
  | none => d
  | some (k, s) =>
    match (d.gunit u).bank src lo hi len with
    | .error c => d.glmEnd x u c
    | .ok (a, t, m) =>
      if (d.gunit u).throttled x.now (Config.rowsOf a len).length then d.throttle x u
      else
        match d.unreachedAt a len with
        | some b => (d.bumpPart (b / 524288) 0x0C0008 1).yieldPoint x u
        | none =>
          let d := (d.bankEccs x a len e).issue x u a len
          if (gransOf a len).any d.granFrozen then d.glmPc u k (s.pc + 1)
          else
            let g := d.gunit u
            let old := (codewords a len).filter d.mem.poison.contains
            let src := (codewords a len).filter fun c => m || g.smark (t + max (c * 32) a - a) (min (c * 32 + 32) (a + len) - max (c * 32) a)
            let d := { d with mem := { d.mem with cells := memWrite d.mem.cells a (g.sread t len) } }
            let d := if old.isEmpty then d else d.bumpDev 0x050014 old.length
            (d.hbmPoison (addNums old src)).glmPc u k (s.pc + 1)

/-- RES as a row. -/
def glmRes (u src len : Nat) (x : Ctx) (d : Dev) : Dev := glmOp u (fun g pc => glmResOp ((g.running).getD 0) src len g pc) x d

def effGlmAlu (u : Nat) (op : AluOp) (rd rs : Nat) (src : GSrc) (s : State) : Host.Outcome State Fault Refusal := onDev (glmOp u (glmAluOp op rd rs src)) s
def effGlmMul (u : Nat) (high : Bool) (rd rs rt : Nat) (s : State) : Host.Outcome State Fault Refusal := onDev (glmOp u (glmMulOp high rd rs rt)) s
def effGlmLi (u rd : Nat) (v : Word) (s : State) : Host.Outcome State Fault Refusal := onDev (glmOp u (glmLiOp rd v)) s
def effGlmBranch (u : Nat) (c : Cond) (rs rt target : Nat) (s : State) : Host.Outcome State Fault Refusal := onDev (glmOp u (glmBranchOp c rs rt target)) s
def effGlmLdSt (u : Nat) (store : Bool) (bytes r base : Nat) (off : BitVec 12) (s : State) : Host.Outcome State Fault Refusal :=
  onDev (glmOp u (glmLdStOp store bytes r base off)) s
def effBrd (u dst lo hi len : Nat) (e : List (Nat × Ecc)) (s : State) : Host.Outcome State Fault Refusal := onDev (brdOp u dst lo hi len e) s
def effBwr (u src lo hi len : Nat) (e : List (Nat × Ecc)) (s : State) : Host.Outcome State Fault Refusal := onDev (bwrOp u src lo hi len e) s
def effBwait (u : Nat) (s : State) : Host.Outcome State Fault Refusal := onDev (glmYield u) s
def effPgnext (u rLo rHi rPos : Nat) (s : State) : Host.Outcome State Fault Refusal := onDev (glmOp u (glmPgnextOp rLo rHi rPos)) s
def effGlmVldVst (u : Nat) (store : Bool) (v base : Nat) (off : BitVec 12) (s : State) : Host.Outcome State Fault Refusal :=
  onDev (glmOp u (glmVldVstOp store v base off)) s
def effGlmVcvt (u fmt v src scales : Nat) (s : State) : Host.Outcome State Fault Refusal := onDev (glmOp u (glmVcvtOp fmt v src scales)) s
def effGlmVectorArith (u : Nat) (op : VecOp) (vd va : Nat) (b : VSrc) (s : State) : Host.Outcome State Fault Refusal :=
  onDev (glmOp u (glmVecOp op vd va b)) s
def effGlmVexp2 (u vd va : Nat) (s : State) : Host.Outcome State Fault Refusal := onDev (glmOp u (glmExpOp vd va)) s
def effGlmVreduce (u : Nat) (max : Bool) (rd va : Nat) (s : State) : Host.Outcome State Fault Refusal := onDev (glmOp u (glmRedOp max rd va)) s
def effRes (u src len : Nat) (s : State) : Host.Outcome State Fault Refusal := onDev (glmRes u src len) s
def effYield (u : Nat) (s : State) : Host.Outcome State Fault Refusal := onDev (glmYield u) s
def effGlmEnd (u : Nat) (s : State) : Host.Outcome State Fault Refusal := onDev (glmFinish u) s

end Sys2Proof.Machine
end

