-- ==== Sys2Proof/Machine/Grid.lean ====
section
/-! DEFINITION. The core grid: the frame of a core's operation, faults and reloads, messages, buffers, steps, transfers, fan-outs and the
prefetch schedule (R120-R122, R161-R170, R177, R222, R229-R231). -/

namespace Sys2Proof.Machine

/-! ### Local store -/

/-- The size of a core's local store. -/
def lsTop : Nat := 0x300000

/-- Whether a range of a core's local store holds a poisoned word. -/
def Dev.lsBad (d : Dev) (n off len : Nat) : Bool :=
  len != 0 && d.grid.lsPoison.any fun w => decide (lsAddr n off / 4 ≤ w ∧ w ≤ (lsAddr n off + len - 1) / 4)

/-- Bytes that an operation reads: fault code 1 outside the local store, 5 where a word is poisoned. -/
def Dev.lsGet (d : Dev) (n off len : Nat) : Except Nat (List Byte) :=
  if off + len > lsTop then .error 1 else if d.lsBad n off len then .error 5 else .ok (d.lsRead n off len)

/-- Bytes that an operation writes. -/
def Dev.lsPut (d : Dev) (n off : Nat) (bs : List Byte) : Except Nat Dev := if off + bs.length > lsTop then .error 1 else .ok (d.lsWrite n off bs)

/-- Words of local store marked as poisoned. -/
def Dev.lsMark (d : Dev) (n off len : Nat) : Dev :=
  if len = 0 then d
  else
    let a := lsAddr n off
    let ws := (List.range ((a + len - 1) / 4 + 1 - a / 4)).map fun i => a / 4 + i
    { d with grid := { d.grid with lsPoison := addNums ws d.grid.lsPoison } }

/-- The granule that the poison of words of local store came from. -/
def Dev.lsSource (d : Dev) (n off len g : Nat) : Dev :=
  let a := lsAddr n off
  let t := (List.range ((a + len + 3) / 4 - a / 4)).foldl (fun t i => tset t (a / 4 + i) g) d.grid.lsFrom
  { d with grid := { d.grid with lsFrom := t } }

/-- HBM copied into local store with its poison (R117, R157). -/
def Dev.lsFill (d : Dev) (n off a len : Nat) : Dev :=
  let bad := (codewords a len).filter d.mem.poison.contains
  bad.foldl (fun d c =>
    let o := off + (max (c * 32) a - a)
    let k := min (c * 32 + 32) (a + len) - max (c * 32) a
    (d.lsMark n o k).lsSource n o k (gran a)) (d.lsWrite n off (d.hbmLook (len / 1024 + 2) a len))

/-! ### Core faults (R169, R170) -/

/-- A placement reloaded on its cores: code, static data, buffers, channels and schedule as after a load. `rep` says that a step is
repeated, or that the load is. -/
def Dev.reloadCores (d : Dev) (m : Nat) (k : Mdl) (rep : Bool) : Dev :=
  let l := k.cores.mapIdx fun i n => (i, n)
  let d := l.foldl (fun d i => d.loadCore m k i.1 i.2) d
  d.setMdl m { k with preNext := 0, preOpen := [], preStop := false, repeated := rep, reloading := true }

/-- The sessions whose page or buffer a poisoned word of a core's local store came from, as the per-page descriptors of the running step
identify them (R170, R222). -/
def Dev.poisonSessions (d : Dev) (n m : Nat) : List Nat :=
  let b := d.batch m
  let gs := (d.grid.lsFrom.filter fun w => w.1 / 0x100000 == n && d.grid.lsPoison.contains w.1).map Prod.snd
  ((d.stepDescs b.step b.rows).filterMap fun e => if gs.contains (gran (leAt e 0 6)) then some (leAt e 8 4) else none).dedup

/-- The session handle of a FAULT record with code 5: the one that the descriptors identify; which of several is not stated. -/
def Dev.faultSession (d : Dev) (n m : Nat) : Nat × Dev :=
  match d.poisonSessions n m with
  | [] => (0, d)
  | [h] => (h, d)
  | l =>
    let r := d.takeFree
    ((l[r.1 % l.length]?).getD 0, r.2)

/-- Engine time of a discarded step: what the cores reported; a core that had not reported has spent a time that the spec gives no
number for (log entry 5). -/
def Dev.spentTime (d : Dev) (k : Mdl) : Dev :=
  k.cores.foldl (fun d n =>
    let c := d.core n
    if c.inStep && !c.done then
      let r := d.takeFree
      r.2.setCore n { c with engineNs := r.1 }
    else d) d

/-- The placement becomes FAULTED: its cores and weights are freed, the step's sessions leave RUNNING, its load and its evictions are
answered, and a training job on it ends. -/
def Dev.modelFaulted (d : Dev) (x : Ctx) (m : Nat) (k : Mdl) (code : Nat) : Dev :=
  let rows := (d.batch m).rows
  let d := d.stepOver m
  let d := (d.unpinWeights m k).freeCores k
  let d := d.setMdl m { (d.mdl m).getD k with st := .faulted, faultCode := code, repeated := false, reloading := false, loadOp := 0, preOpen := [] }
  let d := rows.foldl (fun d r =>
    match d.sesOf r.h with
    | some s => if s.state = .running then (d.goto x r.h s .opened).enqueue r.h else d
    | none => d) d
  let d := (d.sch.jobs.filter fun j => j.2.model == m && j.2.st != 2).foldl (fun d j => d.trainEnd x j.1 j.2 .deviceFault) d
  let d := if k.loadOp = 0 then d else d.endOp x k.loadOp .deviceFault []
  if k.st = .loading then d.dropEvicts x m else d.endEvicts x m

/-- The cores of a placement stop. -/
def Dev.stopCores (d : Dev) (k : Mdl) : Dev := k.cores.foldl (fun d n => d.setCore n { d.core n with run := false, blocked := none }) d

/-- A core fault: recorded and counted, the step discarded with its counts, and the placement reloaded once, or FAULTED. A second fault
that the core's own checks detect within 1 s takes the core out of service (R423). -/
def Dev.coreFault (d : Dev) (x : Ctx) (n code : Nat) : Dev :=
  let c := d.core n
  match d.mdl c.model with
  | none => d
  | some k =>
    let m := c.model
    let src := source 6 n
    let own := code = 6 ∨ code = 8
    let again := own ∧ (tget d.faultAt src).elim false (fun t => decide (x.now ≤ t + 1000 * ticksMs)) = true
    let off := code = 8 ∨ again
    let fr := if code = 5 then d.faultSession n m else (0, d)
    let d := fr.2
    let d := if own then { d with faultAt := tset d.faultAt src x.now } else d
    let d := (d.bumpPart k.part 0x060010 1).recPart x k.part .fault 0x102 src (wd (m + code * 65536)) (wd fr.1) 0
    let d := { d with grid := { d.grid with lastFault := tset d.grid.lastFault k.part (m * 65536 + code * 256 + n) } }
    let running := (d.batch m).running
    let d := if running then (d.spentTime k).chargeStep m k (d.batch m).rows else d
    let d := d.stopCores k
    let d := if off then (d.setCore n { d.core n with fault := code, offline := true }).unitOffline x src else d.setCore n { d.core n with fault := code }
    let rep := running || k.st == .loading || d.sch.jobs.any fun j => j.2.model == m && j.2.inStep
    if off ∨ k.repeated then d.modelFaulted x m k code else d.reloadCores m { k with faultCode := code } rep

/-- A core fault as a row, with what it lets the scheduler do. -/
def Dev.faultRow (d : Dev) (x : Ctx) (n code : Nat) : Dev := (d.coreFault x n code).schedule x

/-! ### The frame of a core's operation -/

/-- A core that runs its placement's program and is not waiting for a step. -/
def Dev.coreAt (d : Dev) (n : Nat) : Option Core :=
  let c := d.core n
  if n < 256 ∧ c.model ≠ 0 ∧ c.run = true ∧ c.waiting = false ∧ c.offline = false then some c else none

/-- The next operation's address with the running LOOP blocks: at a block's end its next pass starts, or the block is left. -/
def loopPc : List (Nat × Nat × Nat) → Nat → Nat × List (Nat × Nat × Nat)
  | [], pc => (pc, [])
  | (s, e, k) :: ls, pc =>
    if pc = e then (if k > 1 then (s, (s, e, k - 1) :: ls) else loopPc ls pc) else (pc, (s, e, k) :: ls)

/-- A core after an operation that is followed by `pc`. -/
def Core.goto (c : Core) (pc : Nat) : Core :=
  let r := loopPc c.loops pc
  { c with pc := r.1, loops := r.2, blocked := none }

/-- What an operation leads to: the module and the core after it with the next address, or a fault code. -/
abbrev CRes := Except Nat (Dev × Core × Nat)

/-- The end of an operation. -/
def Dev.coreRes (d : Dev) (x : Ctx) (n : Nat) : CRes → Dev
  | .ok (d', c, pc) => d'.setCore n (c.goto pc)
  | .error code => d.faultRow x n code

/-- An operation that cannot block; an instruction outside the local store is fault code 1. -/
def coreOp (n : Nat) (f : Dev → Core → CRes) (x : Ctx) (d : Dev) : Dev :=
  match d.coreAt n with
  | none => d
  | some c => if c.blocked.isSome then d else if c.pc + 8 > lsTop then d.faultRow x n 1 else d.coreRes x n (f d c)

/-- An operation that may block: none keeps the core blocked in it, from the tick it began to wait (R168). -/
def coreBlock (n : Nat) (b : Block) (f : Dev → Core → Option CRes) (x : Ctx) (d : Dev) : Dev :=
  match d.coreAt n with
  | none => d
  | some c =>
    if c.blocked.elim false fun k => k.1 != b then d
    else if c.pc + 8 > lsTop then d.faultRow x n 1
    else
      match f d c with
      | some r => d.coreRes x n r
      | none => d.setCore n { c with blocked := some (c.blocked.getD (b, x.now)) }

/-- A sequencer register, and its replacement; s0 reads as zero. -/
def Core.rd (c : Core) (r : Nat) : BitVec 64 := if r = 0 then 0 else (c.regs[r]?).getD 0
def Core.wr (c : Core) (r : Nat) (v : BitVec 64) : Core := if r = 0 then c else { c with regs := c.regs.set r v }

/-- A number as a register value. -/
def w64 (n : Nat) : BitVec 64 := BitVec.ofNat 64 n

/-- An undefined instruction is fault code 2. -/
def cIf (ok : Bool) (r : CRes) : CRes := if ok then r else .error 2

/-! ### Messages (R165, R166) -/

/-- The core of an index of a placement, from a core of it. -/
def Dev.peer (d : Dev) (c : Core) (i : Nat) : Option Nat := (d.mdl c.model).elim none fun k => k.cores[i]?

/-- Replaces a channel of a core. -/
def Core.setChan (c : Core) (k : Nat) (h : Chan) : Core := { c with chans := tset c.chans k h }

/-- SEND: to a core, given by its index in the placement, and a channel. -/
def sendOp (n dst chan off len : Nat) (d : Dev) (c : Core) : Option CRes :=
  match d.peer c dst with
  | none => some (.error 3)
  | some t =>
    match tget (d.core t).chans chan with
    | none => some (.error 3)
    | some h =>
      match tget h.credits n with
      | none => some (.error 3)
      | some k =>
        if len > h.size then some (.error 3)
        else
          match d.lsGet n off len with
          | .error e => some (.error e)
          | .ok bs =>
            if k = 0 then none
            else
              let h' := { h with credits := tset h.credits n (k - 1) }
              let d := d.setCore t ((d.core t).setChan chan h')
              let ms := d.grid.msgs ++ [(⟨n, t, chan, bs⟩ : Msg)]
              some (.ok ({ d with grid := { d.grid with msgs := ms } }, if t = n then c.setChan chan h' else c, c.pc + 8))

/-- The list without its first element that `p` accepts, with that element. -/
def takeFirst {α : Type} (p : α → Bool) : List α → Option (α × List α)
  | [] => none
  | a :: l => if p a then some (a, l) else (takeFirst p l).map fun r => (r.1, a :: r.2)

/-- A message joins a channel: behind those that arrived earlier, and among those of its tick in ascending order of sender (R166). -/
def Chan.arrive (h : Chan) (src slot len now : Nat) : List (Nat × Nat × Nat × Nat) :=
  let late (e : Nat × Nat × Nat × Nat) : Bool := e.2.2.2 == now && decide (src < e.1)
  (h.queue.filter fun e => !late e) ++ [(src, slot, len, now)] ++ h.queue.filter late

/-- MESSAGE_DELIVERY: the oldest message of a sender to a channel is in its slot. -/
def msgDeliver (src dst chan : Nat) (x : Ctx) (d : Dev) : Dev :=
  match takeFirst (fun (m : Msg) => m.src == src && m.dst == dst && m.chan == chan) d.grid.msgs with
  | none => d
  | some (m, l) =>
    let d := { d with grid := { d.grid with msgs := l } }
    match tget (d.core dst).chans chan with
    | none => d
    | some h =>
      let slot := h.next % max 1 h.slots
      let d := d.lsWrite dst (h.ring + slot * h.size) m.bytes
      d.setCore dst ((d.core dst).setChan chan { h with next := h.next + 1, queue := h.arrive src slot m.bytes.length x.now })

/-- RECV: the oldest message's slot address and length. The control and the notice channel are not declared: the module chooses where
their messages lie, and the spec gives a notice no form (log entry 5). -/
def recvOp (n chan rAddr rLen : Nat) (d : Dev) (c : Core) : Option CRes :=
  if rAddr ≥ 32 ∨ rLen ≥ 32 then some (.error 2)
  else if chan = 14 then
    match c.ctrl with
    | [] => none
    | b :: bs =>
      let r := d.takeFree
      let a := r.1 % ((lsTop - 32) / 64) * 64
      some (.ok (r.2.lsWrite n a b, ({ c with ctrl := bs }.wr rAddr (w64 a)).wr rLen (w64 b.length), c.pc + 8))
  else if chan = 15 then
    match c.notices with
    | [] => none
    | _ :: ns =>
      let r := d.takeFree
      let s := r.2.takeFree
      some (.ok (s.2, ({ c with notices := ns }.wr rAddr (w64 r.1)).wr rLen (w64 s.1), c.pc + 8))
  else
    match tget c.chans chan with
    | none => some (.error 3)
    | some h =>
      match h.queue with
      | [] => none
      | (s, k, len, _) :: q =>
        let c := c.setChan chan { h with queue := q, taken := h.taken ++ [(s, k, len)] }
        some (.ok (d, (c.wr rAddr (w64 (h.ring + k * h.size))).wr rLen (w64 len), c.pc + 8))

/-- MFREE: the oldest taken slot is freed and its sender's credit returns; the module's own channels take back none. -/
def mfreeOp (chan : Nat) (d : Dev) (c : Core) : CRes :=
  if chan = 14 ∨ chan = 15 then .ok (d, c, c.pc + 8)
  else
    match tget c.chans chan with
    | none => .error 3
    | some h =>
      match h.taken with
      | [] => .ok (d, c, c.pc + 8)
      | (s, _, _) :: t => .ok (d, c.setChan chan { h with taken := t, credits := tset h.credits s (tgetD h.credits s 0 + 1) }, c.pc + 8)

/-- POLL: whether a channel has a message, or a buffer is FULL. -/
def pollOp (rd : Nat) (buffer : Bool) (idx : Nat) (d : Dev) (c : Core) : CRes :=
  let yes :=
    if buffer then (c.bufs[idx]?).elim false fun b => b.2.2
    else if idx = 14 then !c.ctrl.isEmpty
    else if idx = 15 then !c.notices.isEmpty
    else (tget c.chans idx).elim false fun h => !h.queue.isEmpty
  cIf (rd < 32) (.ok (d, c.wr rd (w64 (if yes then 1 else 0)), c.pc + 8))

/-! ### Buffers (R121) -/

/-- WAITFULL. -/
def waitfullOp (b : Nat) (d : Dev) (c : Core) : Option CRes :=
  match c.bufs[b]? with
  | none => some (.error 7)
  | some t => if t.2.1 = 0 then some (.error 7) else if t.2.2 then some (.ok (d, c, c.pc + 8)) else none

/-- BRELEASE: a FULL buffer becomes FREE. -/
def breleaseOp (b : Nat) (d : Dev) (c : Core) : CRes :=
  match c.bufs[b]? with
  | none => .error 7
  | some t => if t.2.1 = 0 ∨ t.2.2 = false then .error 7 else .ok (d, { c with bufs := c.bufs.set b (t.1, t.2.1, false) }, c.pc + 8)

/-! ### Steps (R164, R177) -/

/-- STEPWAIT: blocks until a step has started, and gives the step record's local-store offset. -/
def stepWait (n rd : Nat) (x : Ctx) (d : Dev) : Dev :=
  let c := d.core n
  match ({ d with grid := { d.grid with cores := tset d.grid.cores n { c with waiting := false } } } : Dev).coreAt n with
  | none => d
  | some c =>
    if c.blocked.isSome then d
    else if rd ≥ 32 then d.faultRow x n 2
    else if c.fresh then
      d.setCore n (({ c with fresh := false, waiting := false }.wr rd (w64 ((c.bufs[15]?).getD (0, 0, false)).1)).goto (c.pc + 8))
    else d.setCore n { c with waiting := true }

/-- STEPDONE: the core's part of the step is complete, with its engine time. -/
def stepDoneOp (ns : Nat) (d : Dev) (c : Core) : CRes :=
  .ok (d, if c.inStep && !c.fresh then { c with done := true, engineNs := ns } else c, c.pc + 8)

/-- FENCE: waits while a send or a transfer of the core is outstanding; its stores complete at once in this model. -/
def fenceOp (n : Nat) (d : Dev) (c : Core) : Option CRes :=
  if c.xfers.isEmpty && !(d.grid.msgs.any fun m => m.src == n) then some (.ok (d, c, c.pc + 8)) else none

/-- HALT. -/
def haltCore (n : Nat) (_ : Ctx) (d : Dev) : Dev :=
  match d.coreAt n with
  | none => d
  | some c => if c.blocked.isSome then d else d.setCore n { c with run := false }

/-- Whether what a core waits for is still missing. -/
def Dev.stillBlocked (d : Dev) (n : Nat) (c : Core) : Block → Bool
  | .send t k => ((d.peer c t).elim none fun h => (tget (d.core h).chans k).elim none fun h => tget h.credits n) == some 0
  | .recv 14 => c.ctrl.isEmpty
  | .recv 15 => c.notices.isEmpty
  | .recv k => (tget c.chans k).elim false fun h => h.queue.isEmpty
  | .full b => (c.bufs[b]?).elim false fun t => !t.2.2
  | .fence => !(c.xfers.isEmpty && !(d.grid.msgs.any fun m => m.src == n))

/-- HANG_TIMEOUT (R168): fault code 4. -/
def hangOut (n : Nat) (x : Ctx) (d : Dev) : Dev :=
  match d.coreAt n with
  | none => d
  | some c =>
    match c.blocked with
    | none => d
    | some (b, t) => if t + fld (d.devReg 0x060200) 9 0 * ticksMs ≤ x.now ∧ d.stillBlocked n c b = true then d.faultRow x n 4 else d

/-- A step whose placement has been reloaded starts again on its cores with the same rows (R170). -/
def Dev.restart (d : Dev) (x : Ctx) (m : Nat) (k : Mdl) : Dev :=
  let b := d.batch m
  if b.running then d.startCores k (d.stepRecord x m b.step b.rows) (d.stepDescs b.step b.rows)
  else if d.sch.jobs.any fun j => j.2.model == m && j.2.inStep then
    k.cores.foldl (fun d n => d.setCore n { d.core n with inStep := true, fresh := true, done := false, engineNs := 0 }) d
  else d

/-- A placement is RESIDENT: sessions that waited for it alone become OPEN (R78). -/
def Dev.openWaiting (d : Dev) (x : Ctx) (m : Nat) : Dev :=
  (d.ses.tbl.filter fun s => s.2.state == .waiting && bitAt s.2.waitReason 0 && d.runModel s.2 == m).foldl (fun d e =>
    let h := handleOf (e.1 / 2 ^ 24) e.2.gen (e.1 % 2 ^ 24)
    match d.sesOf h with
    | none => d
    | some s =>
      let d := d.setSes h { s with waitReason := clrBit s.waitReason 0 }
      if clrBit s.waitReason 0 = 0 then d.enterOpen x h else d) d

/-- LOAD_COMPLETE (R177): every core waits at STEPWAIT. A placement whose area has left it meanwhile does not become resident (log entry 91). -/
def loadComplete (m : Nat) (x : Ctx) (d : Dev) : Dev :=
  match d.mdl m with
  | none => d
  | some k =>
    if !(k.cores.all fun n => (d.core n).run && (d.core n).waiting && (d.core n).model == m) then d
    else if k.reloading ∧ k.st ≠ .loading then ((d.setMdl m { k with reloading := false }).restart x m k).schedule x
    else if k.st = .loading ∧ k.moveOps = 0 then
      if !d.inArea k then ((d.loadFails x m k .doesNotFit).mdlRelease x m).schedule x
      else
      let d := d.setMdl m { k with st := .resident, since := x.now, loadOp := 0, reloading := false, repeated := false }
      let d := d.bumpPart k.part 0x060008 1
      let d := if k.loadOp = 0 then d else d.endOp x k.loadOp .ok [wd k.origin, wd (x.now - k.accepted)]
      let d := d.openWaiting x m
      let d := match k.evictAfter with
        | some nand => d.startEvict x m nand
        | none => d
      (d.retryLoads x k.part).schedule x
    else d

/-! ### Transfers (R163, R222) -/

/-- Whether Culm may transfer between a core's local store and a range of HBM: the range is its partition's, and a write does not reach
a frozen granule. -/
def Dev.xferOk (d : Dev) (p a len : Nat) (write : Bool) : Bool :=
  isHbm a && len != 0 && isHbm (a + len - 1) && (gransOf a len).all fun g => d.holder (granAddr g) == some p && !(write && d.granFrozen g)

/-- XFER: the transfer joins the core's line. -/
def xferOp (kind : XferKind) (off len : Nat) (d : Dev) (c : Core) : CRes :=
  if off + len > lsTop then .error 1
  else
    let xs : List CoreXfer := c.xfers ++ [⟨kind, off, len, none⟩]
    .ok (d, { c with xfers := xs }, c.pc + 8)

/-- A notice to a core. -/
def Dev.notice (d : Dev) (n b : Nat) (st : Status) : Dev :=
  let c := d.core n
  let ns : List (Nat × Status) := c.notices ++ [(b, st)]
  d.setCore n { c with notices := ns }

/-- The head of a core's line of transfers removed. -/
def Dev.popXfer (d : Dev) (n : Nat) : Dev := d.setCore n { d.core n with xfers := (d.core n).xfers.tail }

/-- The core and the offset of a device address in a local store that partition p's transfers reach: a core of a placement of its
(log entry 93). -/
def Dev.peerStore (d : Dev) (p a len : Nat) : Option (Nat × Nat) :=
  match addrKind a with
  | .localStore n off =>
    if off + len ≤ lsTop && (d.mdl (d.core n).model).elim false fun m => m.part == p then some (n, off) else none
  | _ => none

/-- Local store copied to local store, with its poison. -/
def Dev.lsCopy (d : Dev) (src so dst do_ len : Nat) : Dev :=
  let bad := (List.range len).filter fun i => d.grid.lsPoison.contains (lsAddr src (so + i) / 4)
  bad.foldl (fun d i => d.lsMark dst (do_ + i) 1) (d.lsWrite dst do_ (d.lsRead src so len))

/-- The data of a transfer moved, to or from HBM, another core's local store or the alias window: the status its notice carries. An
alias access of another size than 64 bytes is one without effect (R147). -/
def Dev.doXfer (d : Dev) (x : Ctx) (n p : Nat) (t : CoreXfer) : Status × Dev :=
  match t.kind with
  | .out a =>
    match d.peerStore p a t.len with
    | some (m, off) => (.ok, d.lsCopy n t.off m off t.len)
    | none =>
      if d.xferOk p a t.len true then
        (.ok, (d.hbmPut x a (d.lsRead n t.off t.len) (d.lsBad n t.off t.len)).chargePart p 0 t.len)
      else (.badParam, d)
  | .inp a =>
    if addrKind a = .glAlias then
      let r := d.aliasData (.core n) p a t.len
      let bs := r.1.1.take t.len
      let d := r.2.lsWrite n t.off bs
      (.ok, if r.1.2 then d.lsMark n t.off bs.length else d)
    else
      match d.peerStore p a t.len with
      | some (m, off) => (.ok, d.lsCopy m off n t.off t.len)
      | none => if d.xferOk p a t.len false then (.ok, (d.lsFill n t.off a t.len).chargePart p 0 t.len) else (.badParam, d)
  | .glume a =>
    if addrKind a ≠ .glAlias then (.badParam, d)
    else if t.len ≠ 64 then (.ok, d.glmCount p 0x050000)
    else (.ok, d.aliasWrite x (.core n) p a (bytesWords 16 (d.lsRead n t.off 64)))

/-! ### Fan-outs (R229, R230) -/

/-- The fields of a fan-out descriptor. -/
structure FanDesc where
  ses : Word
  layer : Nat
  qheads : Nat
  n : Nat
  qoff : Nat
  buf : Nat
  prog : Nat
  scale : Nat

/-- A descriptor read from its bytes. -/
def fanDesc (b : List Byte) : FanDesc := ⟨wd (leAt b 0 4), leAt b 4 2, leAt b 6 2, leAt b 8 4, leAt b 0xC 4, leAt b 0x10 1, leAt b 0x11 1, leAt b 0x14 4⟩

/-- The bytes of one partial area. -/
def FanDesc.bytes (f : FanDesc) (k : Kv) : Nat := f.qheads * (4 * k.dim + 8)

/-- The page table of a descriptor that keeps the limits of R214 and R229. -/
def Dev.fanKv (d : Dev) (n p : Nat) (b : List Byte) (f : FanDesc) : Option Kv :=
  match d.lookup p f.ses with
  | .error _ => none
  | .ok s =>
    match s.kv with
    | none => none
    | some k =>
      let buf := ((d.core n).bufs[f.buf]?).getD (0, 0, false)
      if 1 ≤ f.qheads ∧ f.qheads * k.dim ≤ 4096 ∧ f.qheads % max 1 k.heads = 0 ∧ f.layer < k.layers ∧ f.prog < 32 ∧ f.buf < 16 ∧ 8 * f.bytes k ≤ buf.2.1 ∧
          f.qoff + f.qheads * k.dim * 2 ≤ lsTop ∧ k.xchgFull = true ∧ zeroBytes b 0x12 0x14 = true ∧ zeroBytes b 0x18 0x40 = true then some k else none

/-- The unit of member i of a channel set. -/
def Kv.unit (k : Kv) (i : Nat) : Nat := let m := (k.set[i]?).getD (0, 0); m.1 * 32 + m.2

/-- Whether a fan-out of some core still watches a slot of a unit. -/
def Dev.fanWatches (d : Dev) (u slot : Nat) : Bool :=
  d.grid.cores.any fun c => (c.2.xfers.head?).elim false fun t => t.fan.elim false fun f =>
    match (d.sesOf (fanDesc f.1).ses).elim none Ses.kv with
    | some k => (List.range 8).any fun i => (f.2[i]?).getD 0 == slot && k.unit i == u
    | none => false

/-- The 64-byte START that Culm writes for a member. -/
def fanStart (f : FanDesc) (k : Kv) (page i : Nat) : List Word :=
  [wd (0x01000000 + 2 * 65536), wd (f.prog * 65536), f.ses, 0, wd f.layer, wd f.n, wd (f.qheads + k.heads * 65536), wd (k.dim + k.fmt * 65536), loW page,
    hiW page, wd f.scale, wd i, 0, 0, 0, 0]

/-- The state of member i in a core's first transfer. -/
def Dev.setFan (d : Dev) (n i v : Nat) : Dev :=
  let c := d.core n
  match c.xfers with
  | ⟨kd, o, l, some (b, ms)⟩ :: ts =>
    let xs : List CoreXfer := ⟨kd, o, l, some (b, ms.set i v)⟩ :: ts
    d.setCore n { c with xfers := xs }
  | _ => d

/-- One member started: the query in its exchange page, and START in its first free slot of 12 to 15; it waits where none is free. -/
def Dev.fanMember (d : Dev) (x : Ctx) (n p : Nat) (f : FanDesc) (k : Kv) (i : Nat) : Dev :=
  let u := k.unit i
  match ([12, 13, 14, 15] : List Nat).find? fun s => ([0, 3, 4] : List Nat).contains ((d.gunit u).slot s).st && !d.fanWatches u s with
  | none => d
  | some s =>
    let page := (k.xchg[i]?).getD 0
    let len := f.qheads * k.dim * 2
    let bad := d.lsBad n f.qoff len
    let d := d.hbmPut x page (d.lsRead n f.qoff len) bad
    (d.aliasWrite x (.core n) p (aliasOf page s 0) (fanStart f k page i)).setFan n i s

/-- The members of a core's fan-out that have not started, started in order. -/
def Dev.fanGo (d : Dev) (x : Ctx) (n : Nat) : Dev :=
  let c := d.core n
  match c.xfers.head? with
  | some ⟨_, _, _, some (b, ms)⟩ =>
    let f := fanDesc b
    match (d.mdl c.model).elim none fun m => (d.fanKv n m.part b f).map fun k => (m.part, k) with
    | none => if ms.all (· == 0) then (d.popXfer n).notice n 16 .badParam else d
    | some (p, k) => (List.range 8).foldl (fun d i => if ms[i]? = some 0 then d.fanMember x n p f k i else d) d
  | _ => d

/-- Fan-outs at the head of a core's line started; those that break a limit leave it, `fuel` at most. -/
def Dev.fanHead (d : Dev) (x : Ctx) (n : Nat) : Nat → Dev
  | 0 => d
  | k + 1 =>
    match (d.core n).xfers.head? with
    | some ⟨_, _, _, some _⟩ =>
      let l := (d.core n).xfers.length
      let d := d.fanGo x n
      if (d.core n).xfers.length < l then d.fanHead x n k else d
    | _ => d

/-- The range of HBM that a transfer reads. -/
def CoreXfer.reads (t : CoreXfer) : List (Nat × Nat) :=
  match t.kind with
  | .inp a => if isHbm a then [(a, t.len)] else []
  | _ => []

/-- XFER_COMPLETE: the oldest transfer of a core, which is no fan-out, is done, and a fan-out behind it starts. A read of a COMPUTE region
waits for the unit (R116). -/
def xferDone (n : Nat) (x : Ctx) (d : Dev) : Dev :=
  let c := d.core n
  match c.xfers, d.mdl c.model with
  | ⟨kd, o, l, none⟩ :: _, some m =>
    d.once x .culm (2, n) (CoreXfer.reads ⟨kd, o, l, none⟩) fun d =>
      let r := d.doXfer x n m.part ⟨kd, o, l, none⟩
      let d := (r.2.popXfer n).notice n 16 r.1
      d.fanHead x n (d.core n).xfers.length
  | _, _ => d

/-- FAN_OUT: an XFER of a fan-out descriptor; Culm starts it once every earlier transfer of the core has completed. -/
def fanOutOp (n off : Nat) (x : Ctx) (d : Dev) : Dev :=
  let d := coreOp n (fun d c =>
    match d.lsGet n off 64 with
    | .error e => .error e
    | .ok b =>
      let xs : List CoreXfer := c.xfers ++ [⟨.inp 0, off, 64, some (b, List.replicate 8 0)⟩]
      .ok (d, { c with xfers := xs }, c.pc + 8)) x d
  if (d.core n).xfers.length = 1 then d.fanHead x n 1 else d

/-- The partial of a member copied on the alias path, or poison where its run gave none. -/
def Dev.fanCopy (d : Dev) (x : Ctx) (n : Nat) (f : FanDesc) (k : Kv) (i slot : Nat) : Dev :=
  let t := (d.gunit (k.unit i)).slot slot
  let at_ := ((((d.core n).bufs[f.buf]?).getD (0, 0, false)).1) + i * f.bytes k
  let page := (k.xchg[i]?).getD 0
  d.once x .culm (8, n * 8 + i) [(page + 0x2000, f.bytes k)] fun d =>
    let d := d.lsFill n at_ (page + 0x2000) (f.bytes k)
    (if t.st = 3 ∧ t.status = .ok then d else d.lsMark n at_ (f.bytes k)).setFan n i 1

/-- FAN_OUT_MEMBER_DONE: members whose run has ended are copied; after all eight the buffer is FULL and the core has its notice. -/
def fanMemberDone (n : Nat) (x : Ctx) (d : Dev) : Dev :=
  match (d.core n).xfers.head? with
  | some ⟨_, _, _, some (b, ms)⟩ =>
    let f := fanDesc b
    match (d.sesOf f.ses).elim none Ses.kv with
    | none =>
      let d := (d.lsMark n (((d.core n).bufs[f.buf]?).getD (0, 0, false)).1 (((d.core n).bufs[f.buf]?).getD (0, 0, false)).2.1).bufFull n f.buf true .badParam
      let d := d.popXfer n
      d.fanHead x n (d.core n).xfers.length
    | some k =>
      let ended (i : Nat) : Option Nat :=
        match ms[i]? with
        | some s => if 12 ≤ s ∧ s ≤ 15 ∧ !([1, 2] : List Nat).contains (((d.gunit (k.unit i)).slot s).st) then some s else none
        | none => none
      let d := (List.range 8).foldl (fun d i => (ended i).elim d fun s => d.fanCopy x n f k i s) d
      let d := d.fanGo x n
      match (d.core n).xfers.head? with
      | some ⟨_, _, _, some (_, ms)⟩ =>
        if ms.all (· == 1) then
          let d := (d.bufFull n f.buf true .ok).popXfer n
          d.fanHead x n (d.core n).xfers.length
        else d
      | _ => d
  | _ => d

/-! ### The prefetch schedule (R120-R122) -/

/-- Entries from an open entry to the next one in schedule order, both counted. -/
def Mdl.preSpan (k : Mdl) (o : Nat) : Nat :=
  if o ≤ k.preNext then k.preNext - o + 1
  else
    let e := ((List.range k.img.entries.length).find? fun i => decide (o ≤ i) && (k.img.entries[i]?).elim false PreEntry.stepEnd).getD (k.img.entries.length - 1)
    (e - o + 1) + (k.preNext - k.img.loopStart) + 1

/-- PREFETCH_ENTRY_START: the next entry starts once its buffer is FREE and DEPTH allows it. -/
def prefetchStart (m : Nat) (_ : Ctx) (d : Dev) : Dev :=
  match d.mdl m with
  | none => d
  | some k =>
    match k.img.entries[k.preNext]? with
    | none => d
    | some e =>
      let n := (k.cores[e.core]?).getD 0
      let busy := ((d.core n).bufs[e.buf]?).elim true (fun b => b.2.2) || k.preOpen.any fun i =>
        (k.img.entries[i]?).elim false fun o => o.core == e.core && o.buf == e.buf
      let deep := (k.preOpen.head?).elim false fun o => decide (k.preSpan o > k.img.depth)
      if k.preStop ∨ busy ∨ deep ∨ !k.wpins ∨ !(d.core n).run then d
      else
        let last := e.stepEnd || k.preNext + 1 == k.img.entries.length
        let os : List Nat := k.preOpen ++ [k.preNext]
        d.setMdl m { k with preOpen := os, preStop := last, preNext := if last then k.img.loopStart else k.preNext + 1 }

/-- The bytes of an entry copied from its object's homes in HBM, granule by granule, with their poison. -/
def Dev.preCopy (d : Dev) (s : Share) (n : Nat) : Nat → Nat → Nat → Nat → Dev
  | 0, _, _, _ => d
  | f + 1, off, dst, len =>
    if len = 0 then d
    else
      let k := min len (32768 - off % 32768)
      let d := match s.homes[off / 32768]? with
        | some (.hbm a) => d.lsFill n dst (a + off % 32768) k
        | _ => d
      d.preCopy s n f (off + k) (dst + k) (len - k)

/-- The ranges of HBM that an entry's bytes lie in. -/
def Share.ranges (s : Share) : Nat → Nat → Nat → List (Nat × Nat)
  | 0, _, _ => []
  | f + 1, off, len =>
    if len = 0 then []
    else
      let k := min len (32768 - off % 32768)
      (match s.homes[off / 32768]? with
        | some (.hbm a) => [(a + off % 32768, k)]
        | _ => []) ++ s.ranges f (off + k) (len - k)

/-- PREFETCH_ENTRY_COMPLETE: the entry is in its core's buffer, which is FULL; NOTIFY sends the notice. -/
def prefetchDone (m i : Nat) (x : Ctx) (d : Dev) : Dev :=
  match d.mdl m with
  | none => d
  | some k =>
    match k.img.entries[i]?, k.preOpen.contains i with
    | some e, true =>
      let n := (k.cores[e.core]?).getD 0
      let s := d.share ((k.shares[e.share]?).getD 0)
      d.once x .culm (5, m * 2 ^ 32 + i) (s.elim [] fun s => s.ranges (e.len / 32768 + 2) e.src e.len) fun d =>
        let d := d.setMdl m { k with preOpen := k.preOpen.filter (· != i), preBytes := k.preBytes + e.len }
        let d := s.elim d fun s => d.preCopy s n (e.len / 32768 + 2) e.src e.dst e.len
        d.bufFull n e.buf e.notify .ok
    | _, _ => d

def effLoadComplete (m : Nat) (s : State) : Host.Outcome State Fault Refusal := onDev (loadComplete m) s
def effCoreSend (n dst chan off len : Nat) (s : State) : Host.Outcome State Fault Refusal := onDev (coreBlock n (.send dst chan) (sendOp n dst chan off len)) s
def effMessageDelivery (src dst chan : Nat) (s : State) : Host.Outcome State Fault Refusal := onDev (msgDeliver src dst chan) s
def effRecv (n chan rAddr rLen : Nat) (s : State) : Host.Outcome State Fault Refusal := onDev (coreBlock n (.recv chan) (recvOp n chan rAddr rLen)) s
def effMfree (n chan : Nat) (s : State) : Host.Outcome State Fault Refusal := onDev (coreOp n (mfreeOp chan)) s
def effPoll (n rd : Nat) (b : Bool) (i : Nat) (s : State) : Host.Outcome State Fault Refusal := onDev (coreOp n (pollOp rd b i)) s
def effWaitfull (n b : Nat) (s : State) : Host.Outcome State Fault Refusal := onDev (coreBlock n (.full b) (waitfullOp b)) s
def effBrelease (n b : Nat) (s : State) : Host.Outcome State Fault Refusal := onDev (coreOp n (breleaseOp b)) s
def effXfer (n : Nat) (k : XferKind) (off len : Nat) (s : State) : Host.Outcome State Fault Refusal := onDev (coreOp n (xferOp k off len)) s
def effXferComplete (n : Nat) (s : State) : Host.Outcome State Fault Refusal := onDev (xferDone n) s
def effStepwait (n rd : Nat) (s : State) : Host.Outcome State Fault Refusal := onDev (stepWait n rd) s
def effStepdone (n ns : Nat) (s : State) : Host.Outcome State Fault Refusal := onDev (coreOp n (stepDoneOp ns)) s
def effCoreFence (n : Nat) (s : State) : Host.Outcome State Fault Refusal := onDev (coreBlock n .fence (fenceOp n)) s
def effHalt (n : Nat) (s : State) : Host.Outcome State Fault Refusal := onDev (haltCore n) s
def effHangTimeout (n : Nat) (s : State) : Host.Outcome State Fault Refusal := onDev (hangOut n) s
def effFanOut (n off : Nat) (s : State) : Host.Outcome State Fault Refusal := onDev (fanOutOp n off) s
def effFanOutMemberDone (n : Nat) (s : State) : Host.Outcome State Fault Refusal := onDev (fanMemberDone n) s
def effPrefetchEntryStart (m : Nat) (s : State) : Host.Outcome State Fault Refusal := onDev (prefetchStart m) s
def effPrefetchEntryComplete (m i : Nat) (s : State) : Host.Outcome State Fault Refusal := onDev (prefetchDone m i) s

end Sys2Proof.Machine
end

