-- ==== Sys2Proof/Machine/CoreIsa.lean ====
section
/-! DEFINITION. The scalar, matrix and vector operations of a core (R161-R163, R185-R206). Operands that are addresses are local-store
offsets, as the operation reaches them (log entry 23). -/

namespace Sys2Proof.Machine

/-! ### Scalar operations (R163) -/

/-- ADD to CMP with a register or a 16-bit immediate, MUL (none), and LI of 48 bits. -/
def coreAluOp (op : Option AluOp) (rd rs : Nat) (src : CSrc) (d : Dev) (c : Core) : CRes :=
  let no := op.elim 15 aluNo + 16
  let go (b : BitVec 64) : CRes :=
    let v := match op with
      | some o => aluVal 64 o (c.rd rs) b
      | none => c.rd rs * b
    .ok (d, c.wr rd v, c.pc + 8)
  if rd ≥ 32 ∨ rs ≥ 32 then .error 2
  else
    match src with
    | .reg r => if r ≥ 32 then .error 2 else go (c.rd r)
    | .imm v => go (immVal no 64 v)
    | .li v => .ok (d, c.wr rd (immVal 14 64 v), c.pc + 8)

/-- LD and ST. -/
def coreLdStOp (n : Nat) (store : Bool) (bytes r base : Nat) (off : BitVec 16) (d : Dev) (c : Core) : CRes :=
  let a := (c.rd base + immVal 13 64 off).toNat
  if r ≥ 32 ∨ base ≥ 32 ∨ !([1, 2, 4, 8] : List Nat).contains bytes then .error 2
  else if store then
    match d.lsPut n a (leBytes bytes (c.rd r).toNat) with
    | .error e => .error e
    | .ok d => .ok (d, c, c.pc + 8)
  else
    match d.lsGet n a bytes with
    | .error e => .error e
    | .ok bs => .ok (d, c.wr r (loadVal 1 bs 64), c.pc + 8)

/-- Whether an address may hold an instruction. -/
def codeAt (a : Nat) : Bool := a % 8 == 0 && a + 8 ≤ lsTop

/-- B, BCC, J, CALL and RET; a target that can hold no instruction, and a RET with no call, are undefined. -/
def coreBranchOp (b : CoreBr) (d : Dev) (c : Core) : CRes :=
  let jump (t : Nat) (c : Core) : CRes := cIf (codeAt t) (.ok (d, c, t))
  match b with
  | .b t => jump t c
  | .j t => jump t c
  | .bcc k rs rt t => if rs ≥ 32 ∨ rt ≥ 32 then .error 2 else if condVal k (c.rd rs) (c.rd rt) then jump t c else .ok (d, c, c.pc + 8)
  | .call t => jump t { c with calls := (c.pc + 8) :: c.calls }
  | .ret =>
    match c.calls with
    | [] => .error 2
    | a :: as => .ok (d, { c with calls := as }, a)

/-- LOOP: the block of `len` instructions after it runs a register count of times. -/
def coreLoopOp (r len : Nat) (d : Dev) (c : Core) : CRes :=
  let k := (c.rd r).toNat
  let s := c.pc + 8
  let e := s + 8 * len
  if r ≥ 32 then .error 2
  else if k = 0 ∨ len = 0 then .ok (d, c, e)
  else
    let ls : List (Nat × Nat × Nat) := (s, e, k) :: c.loops
    .ok (d, { c with loops := ls }, s)

/-! ### Results that saturate (R191, R200) -/

/-- Whether the rounded magnitude of m × 2^e lies beyond the largest finite FP32 value. -/
def tooBig (m : Nat) (e : Int) : Bool := encMag false 23 127 (2 ^ 40) m e > top32f

/-- Whether a sum, a product, or a fused multiply-add saturates. -/
def addSat (a b : F32) : Bool :=
  match f32Val a, f32Val b with
  | .num s m e, .num t n f => let r := dyAdd (sgn s m) e (sgn t n) f; tooBig r.1.natAbs r.2
  | _, _ => false
def mulSat (a b : F32) : Bool :=
  match f32Val a, f32Val b with
  | .num _ m e, .num _ n f => tooBig (m * n) (e + f)
  | _, _ => false
def fmaSat (a b c : F32) : Bool :=
  match f32Val a, f32Val b, f32Val c with
  | .num s m e, .num t n f, .num u k g => let r := dyAdd (sgn (xor s t) (m * n)) (e + f) (sgn u k) g; tooBig r.1.natAbs r.2
  | _, _, _ => false

/-- Whether a lane of a vector operation saturates; VEXP2 does at 128 and above. -/
def laneSat (op : VecOp) (a b d : F32) : Bool :=
  match op with
  | .add => addSat a b
  | .mul => mulSat a b
  | .fma => fmaSat a b d
  | .exp2 => fvLe (.num false 128 0) (f32Val a)
  | _ => false

/-- Lanes that saturate. -/
def satLanes (op : VecOp) : List F32 → List F32 → List F32 → Nat
  | a :: as, b :: bs, d :: ds => (if laneSat op a b d then 1 else 0) + satLanes op as bs ds
  | _, _, _ => 0

/-- Counts of a core under the layer of its last WLOAD. -/
def Core.count (c : Core) (ovf unf nan : Nat) : Core :=
  let up (t : Tbl Nat) (n : Nat) : Tbl Nat := if n = 0 then t else tset t c.layer (tgetD t c.layer 0 + n)
  { c with ovf := up c.ovf ovf, unf := up c.unf unf, nanc := up c.nanc nan }

/-! ### The matrix unit (R194-R197, R203-R206) -/

/-- A tile register and its replacement. -/
def Core.tile (c : Core) (w : Nat) : Tile := if w = 0 then c.tile0 else c.tile1
def Core.setTile (c : Core) (w : Nat) (t : Tile) : Core := if w = 0 then { c with tile0 := t } else { c with tile1 := t }

/-- Columns of codes and of scales in a tile's layout (R195). -/
def tileCodes (fmt k : Nat) (bs : List Byte) : List (List Nat) :=
  let cb := k * fmtBits fmt / 8
  (List.range 64).map fun n => (List.range k).map fun i => bitElem ((bs.drop (n * cb)).take cb) (fmtBits fmt) i
def tileScales (fmt k : Nat) (bs : List Byte) : List (List Nat) :=
  let per := k / fmtBlock fmt
  (List.range 64).map fun n => (List.range per).map fun i => leAt bs (n * per + i) 1

/-- Bytes of a tile's codes and scales. -/
def tileLen (fmt k : Nat) : Nat := 64 * (k * fmtBits fmt / 8) + 64 * (k / fmtBlock fmt)

/-- Formats that shadow sampling counts (R203). -/
def narrowFmt (f : Nat) : Bool := ([0x03, 0x04, 0x05, 0x10, 0x11] : List Nat).contains f

/-- The header of a tile: format, REF, OUTLIER, layer; none where it is not allowed. -/
def tileHdr (b : List Byte) : Option (Nat × Bool × Bool × Nat) :=
  let f := leAt b 0 1
  let fl := leAt b 1 1
  let refF := bitAt fl 0
  let out := bitAt fl 1
  if (depthOf f).isNone ∨ fl ≥ 4 ∨ !zeroBytes b 4 64 ∨ (out ∧ f ≠ 0x01 ∧ f ≠ 0x02) ∨ (refF ∧ !narrowFmt f) then none
  else some (f, refF, out, leAt b 2 2)

/-- The error of a sampled run in units of 2⁻¹⁶ (R204). -/
def Tile.error (t : Tile) : Nat :=
  if t.errDen = 0 then (if t.errNum = 0 then 0 else 0xFFFF) else min 0xFFFF (t.errNum * 65536 / t.errDen)

/-- WLOAD: the tile and its scales, its reference where a sample is due; a sampled run in the register ends with its error. -/
def wloadOp (n w base : Nat) (d : Dev) (c : Core) : CRes :=
  if w > 1 ∨ base % 64 ≠ 0 then .error 2
  else
    match d.lsGet n base 64 with
    | .error e => .error e
    | .ok hd =>
      match tileHdr hd with
      | none => .error 2
      | some (f, refF, out, layer) =>
        let k := (depthOf f).getD 64
        match d.lsGet n (base + 64) (tileLen f k) with
        | .error e => .error e
        | .ok bs =>
          let c := if (c.tile w).sampled then { c with errs := c.errs ++ [((c.tile w).error, (c.tile w).layer)] } else c
          let cb := 64 * (k * fmtBits f / 8)
          let t : Tile := { Tile.empty with
            fmt := f
            layer := layer
            outlier := out
            codes := tileCodes f k (bs.take cb)
            scales := tileScales f k (bs.drop cb) }
          let part := (d.mdl c.model).elim 0 Mdl.part
          let cfg := d.numCfg part
          let due := cfg.1 && narrowFmt f && decide (c.samples ≥ 2 ^ cfg.2.1)
          let c := { c with layer := layer }
          if due && refF then
            match d.lsGet n (base + 64 + tileLen f k) (tileLen 0x01 k) with
            | .error e => .error e
            | .ok rs =>
              let t := { t with sampled := true, refCodes := tileCodes 0x01 k (rs.take (64 * k)), refScales := tileScales 0x01 k (rs.drop (64 * k)) }
              .ok (d, { c with samples := 0 }.setTile w t, c.pc + 8)
          else
            let c := if due then { c with skips := c.skips + 1 } else c
            .ok (d, { c with samples := if narrowFmt f then c.samples + 1 else c.samples }.setTile w t, c.pc + 8)

/-- An accumulator and its replacement; a row that is not listed is zero. -/
def Core.acc (c : Core) (a : Nat) : Tbl (List F32) := if a = 0 then c.acc0 else c.acc1
def Core.setAcc (c : Core) (a : Nat) (t : Tbl (List F32)) : Core := if a = 0 then { c with acc0 := t } else { c with acc1 := t }
def Core.accRow (c : Core) (a r : Nat) : List F32 := tgetD (c.acc a) r (List.replicate 64 0)

/-- The steps of one output that saturate: terms and additions (R197, R200). -/
def satTerms (wf af len wblk : Nat) (as ws sas sws : List Nat) : Nat → Nat → F32 → Nat
  | 0, _, _ => 0
  | n + 1, k, acc =>
    let a := (as.drop k).take len
    let w := (ws.drop k).take len
    let sa := (sas[k / 32]?).getD 0
    let sw := (sws[k / wblk]?).getD 0
    let t := termVal wf af a w sa sw
    let big := match blockSum wf af a w, scaleVal af sa, scaleVal wf sw with
      | some v, some (m, e), some (p, f) => tooBig (v.natAbs * (m * p)) (elemUnit af + elemUnit wf + e + f)
      | _, _, _ => false
    (if big then 1 else 0) + (if addSat acc t then 1 else 0) + satTerms wf af len wblk as ws sas sws n (k + len) (f32Add acc t)

/-- An activation row: its codes and its E8M0 scales (R196). -/
structure ActRow where
  codes : List Nat
  scales : List Nat

/-- The rows of an activation block of m rows with depth k. -/
def actRows (af k m : Nat) (bs : List Byte) : List ActRow :=
  let b := k * fmtBits af / 8
  (List.range m).map fun j =>
    ⟨(List.range k).map fun i => bitElem ((bs.drop (j * b)).take b) (fmtBits af) i, (List.range (k / 32)).map fun i => leAt bs (m * b + j * (k / 32) + i) 1⟩

/-- One row through a tile: the accumulator row after it, with the number of saturations. -/
def rowThrough (t : Tile) (af : Nat) (a : ActRow) (acc : List F32) : List F32 × Nat :=
  let k := (depthOf t.fmt).getD 64
  let len := termLen t.fmt
  let cols := List.range 64
  let go (n : Nat) : F32 := addTerms t.fmt af len (fmtBlock t.fmt) a.codes ((t.codes[n]?).getD []) a.scales ((t.scales[n]?).getD []) (k / len) 0 ((acc[n]?).getD 0)
  let sat (n : Nat) : Nat := satTerms t.fmt af len (fmtBlock t.fmt) a.codes ((t.codes[n]?).getD []) a.scales ((t.scales[n]?).getD []) (k / len) 0 ((acc[n]?).getD 0)
  (cols.map go, nsum (cols.map sat))

/-- An FP32 number as a signed multiple of 2⁻¹⁴⁹; NaN counts as zero. -/
def fixOf (a : F32) : Int :=
  match f32Val a with
  | .num s m e => atExp (sgn s m) e (-149)
  | .nan => 0

/-- The two hidden contributions of a row to a sampled tile's error (R204): Σ|narrow − reference| and Σ|reference|. -/
def Tile.sample (t : Tile) (af : Nat) (a : ActRow) : Tile :=
  if !t.sampled then t
  else
    let zero := List.replicate 64 (0 : F32)
    let nar := (rowThrough t af a zero).1
    let k := (depthOf t.fmt).getD 64
    let ref_ := (List.range 64).map fun n =>
      addTerms 0x01 af 32 32 a.codes ((t.refCodes[n]?).getD []) a.scales ((t.refScales[n]?).getD []) (k / 32) 0 0
    { t with
      errNum := t.errNum + nsum ((List.range 64).map fun n => (fixOf ((nar[n]?).getD 0) - fixOf ((ref_[n]?).getD 0)).natAbs)
      errDen := t.errDen + nsum (ref_.map fun v => (fixOf v).natAbs) }

/-- MMUL's rows in order: accumulator rows from r, counts, and the tile's sample. -/
def mmulRows (af w ac : Nat) : Core → Nat → List ActRow → Core
  | c, _, [] => c
  | c, r, a :: as =>
    let t := c.tile w
    let old := c.accRow ac r
    let res := rowThrough t af a old
    let nan := if res.1.any (fun v => f32Val v == .nan) && !(old.any fun v => f32Val v == .nan) then 1 else 0
    let c := ((c.setAcc ac (tset (c.acc ac) r res.1)).count res.2 0 nan).setTile w (t.sample af a)
    mmulRows af w ac c (r + 1) as

/-- MMUL: an activation format that the tile's class does not allow is undefined (R194). -/
def mmulOp (n w ac af base rows row : Nat) (d : Dev) (c : Core) : CRes :=
  let t := c.tile w
  match depthOf t.fmt with
  | none => .error 2
  | some k =>
    if w > 1 ∨ ac > 1 ∨ rows = 0 ∨ row + rows > 64 ∨ !actOk t.fmt af then .error 2
    else
      match d.lsGet n base (rows * (k * fmtBits af / 8) + rows * (k / 32)) with
      | .error e => .error e
      | .ok bs => .ok (d, mmulRows af w ac c row (actRows af k rows bs), c.pc + 8)

/-- MMUL with the outcome of its checks: a residue mismatch is counted (R206), and it or an adder mismatch (R420) is fault code 6. -/
def mmulRow (n w ac af base rows row : Nat) (resOk addOk : Bool) (x : Ctx) (d : Dev) : Dev :=
  if resOk && addOk then coreOp n (mmulOp n w ac af base rows row) x d
  else
    match d.coreAt n with
    | none => d
    | some c =>
      if c.blocked.isSome then d
      else
        match mmulOp n w ac af base rows row d c with
        | .error e => d.faultRow x n e
        | .ok _ => (if resOk then d else d.bumpDev 0x060500 1).faultRow x n 6

/-- The bytes of an FP32 value stored as FP32, BF16 or FP16; an infinity and a subnormal are stored as they are read (R191, R192). -/
def storeVal (fmt : Nat) (v : F32) : List Byte :=
  if fmt = 0x20 then leBytes 2 (bf16Of (f32Val v)) else if fmt = 0x21 then leBytes 2 (fp16Of (f32Val v)) else leBytes 4 (f32OfFv (f32Val v)).toNat

/-- ACCOUT: accumulator rows as FP32 or BF16, times a scale of each column where one is given (R198). -/
def accoutOp (n ac row rows fmt dst : Nat) (scale : Option Nat) (d : Dev) (c : Core) : CRes :=
  if ac > 1 ∨ rows = 0 ∨ row + rows > 64 ∨ !([0x20, 0x22] : List Nat).contains fmt then .error 2
  else
    match (match scale with
      | none => (.ok [] : Except Nat (List Byte))
      | some o => d.lsGet n o 256) with
    | .error e => .error e
    | .ok sb =>
      let sc (k : Nat) : F32 := wd (leAt sb (4 * k) 4)
      let out := (List.range rows).flatMap fun i => (c.accRow ac (row + i)).mapIdx fun k v => if scale.isSome then f32Mul v (sc k) else v
      let sat := if scale.isNone then 0 else
        nsum ((List.range rows).map fun i => ((c.accRow ac (row + i)).mapIdx fun k v => if mulSat v (sc k) then 1 else 0).foldl (· + ·) 0)
      match d.lsPut n dst (out.flatMap (storeVal fmt)) with
      | .error e => .error e
      | .ok d => .ok (d, c.count sat 0 0, c.pc + 8)

/-- ACCZ. -/
def acczOp (ac : Nat) (d : Dev) (c : Core) : CRes := cIf (ac ≤ 1) (.ok (d, c.setAcc ac [], c.pc + 8))

/-! ### The vector unit (R189-R193, R198, R202) -/

/-- A vector register and its replacement. -/
def Core.vec (c : Core) (q : Nat) : List F32 := (c.q[q]?).getD (List.replicate 128 0)
def Core.setVec (c : Core) (q : Nat) (l : List F32) : Core := { c with q := c.q.set q l }

/-- VLD and VST: 128 lanes of FP32, BF16 or FP16. -/
def coreVldVstOp (n : Nat) (store : Bool) (q fmt a : Nat) (d : Dev) (c : Core) : CRes :=
  if q ≥ 32 ∨ !([0x20, 0x21, 0x22] : List Nat).contains fmt then .error 2
  else if store then
    match d.lsPut n a ((c.vec q).flatMap (storeVal fmt)) with
    | .error e => .error e
    | .ok d => .ok (d, c, c.pc + 8)
  else
    match d.lsGet n a (128 * fmtBits fmt / 8) with
    | .error e => .error e
    | .ok bs => .ok (d, c.setVec q (cvtVals fmt 128 bs []), c.pc + 8)

/-- A vector operand of a core: a register, or the low word of a scalar register in every lane. -/
def Core.vsrc (c : Core) : VSrc → List F32
  | .reg r => c.vec r
  | .bcast r => List.replicate 128 ((c.rd r).setWidth 32)

/-- VADD, VMUL, VFMA (qd := qa × b + qd), VMAX, VEXP2, VRCP and VRSQRT. -/
def coreVecOp (op : VecOp) (qd qa : Nat) (b : VSrc) (d : Dev) (c : Core) : CRes :=
  let ok := match b with
    | .reg r => r < 32
    | .bcast r => r < 32
  let a := c.vec qa
  let v := c.vsrc b
  let t := c.vec qd
  cIf (qd < 32 && qa < 32 && ok) (.ok (d, (c.setVec qd (lanes op a v t)).count (satLanes op a v t) 0 0, c.pc + 8))

/-- The sums of a pairwise tree that saturate. -/
def satTree : Nat → List F32 → Nat
  | 0, _ => 0
  | n + 1, l => sums l + satTree n (pairTree f32Add 1 l)
where
  sums : List F32 → Nat
    | a :: b :: r => (if addSat a b then 1 else 0) + sums r
    | _ => 0

/-- VRED: the sum or the maximum of the lanes in a scalar register. -/
def vredOp (max : Bool) (rd qa : Nat) (d : Dev) (c : Core) : CRes :=
  let c' := c.wr rd ((reduceLanes max 7 (c.vec qa)).setWidth 64)
  cIf (rd < 32 && qa < 32) (.ok (d, c'.count (if max then 0 else satTree 7 (c.vec qa)) 0 0, c.pc + 8))

/-- The block formats of VQUANT and VCVT. -/
def blockFmt (f : Nat) : Bool := fmtOk f && f < 0x20

/-- The quantized blocks of lanes (R189). -/
def quantLanes (f : Nat) (l : List F32) : List QBlock := (chunks (fmtBlock f) (l.length / fmtBlock f) (l.map f32Val)).map (quantBlock f)

/-- The bytes of a block's scale. -/
def scaleStore (f s : Nat) : List Byte := if f = 0x12 then leBytes 2 s else leBytes 1 s

/-- The outlier map of R202: the index of each position, 0xFFFF where it is unused. -/
def outMap (bs : List Byte) : List Nat := (List.range 64).map fun j => leAt bs (2 * j) 2

/-- The inputs of a group that an outlier map names, stored as FP32 at their map positions. -/
def stageOut (n stage group : Nat) (l : List F32) : Dev → List (Nat × Nat) → Dev
  | d, [] => d
  | d, (j, i) :: r =>
    let d := if i ≠ 0xFFFF ∧ i / 128 = group then d.lsWrite n (stage + 4 * j) (storeVal 0x22 ((l[i % 128]?).getD 0)) else d
    stageOut n stage group l d r

/-- Quantized blocks written: codes, then scales, with what the core counts. -/
def quantOut (n f dst scales : Nat) (bl : List QBlock) (d : Dev) (c : Core) : CRes :=
  let count (p : QBlock → Bool) : Nat := (bl.filter p).length
  match d.lsPut n dst (leBytes (bl.length * fmtBlock f * fmtBits f / 8) (packBits (fmtBits f) (bl.flatMap QBlock.codes))) with
  | .error e => .error e
  | .ok d =>
    match d.lsPut n scales (bl.flatMap fun b => scaleStore f b.scale) with
    | .error e => .error e
    | .ok d => .ok (d, c.count (count QBlock.ovf) (count QBlock.unf) (count QBlock.nan), c.pc + 8)

/-- VQUANT of the 256-byte staging area to MXFP8 E4M3: the 64-element side row (R202). -/
def vquantSideOp (n f dst scales stage : Nat) (d : Dev) (c : Core) : CRes :=
  if f ≠ 0x01 then .error 2
  else
    match d.lsGet n stage 256 with
    | .error e => .error e
    | .ok bs => quantOut n f dst scales (quantLanes f (bytesWords 64 bs)) d c

/-- VQUANT: 128 lanes to codes and scales. With SPLIT, the inputs that the outlier map names go to the staging area and are zero in the
body, so that its scales are chosen without them (R202). Its form with no vector register takes the staging area. -/
def vquantOp (n f : Nat) (src : Option Nat) (dst scales : Nat) (split : Option Nat) (stage group : Nat) (d : Dev) (c : Core) : CRes :=
  match src with
  | none => vquantSideOp n f dst scales stage d c
  | some q =>
  if q ≥ 32 ∨ !blockFmt f then .error 2
  else
    match (match split with
      | none => (.ok [] : Except Nat (List Byte))
      | some o => d.lsGet n o 128) with
    | .error e => .error e
    | .ok mb =>
      let m := if split.isSome then outMap mb else []
      let l := c.vec q
      if split.isSome ∧ stage + 256 > lsTop then .error 1
      else
        let d := stageOut n stage group l d (m.mapIdx fun j i => (j, i))
        let body := l.mapIdx fun i v => if group * 128 + i ≠ 0xFFFF ∧ m.contains (group * 128 + i) = true then (0 : F32) else v
        quantOut n f dst scales (quantLanes f body) d c

/-- The conversions to FP32 that saturate. -/
def cvtSat (f n : Nat) (codes scales : List Byte) : Nat :=
  ((List.range n).filter fun k =>
    match elemVal f (bitElem codes (fmtBits f) k) (if f = 0x12 then leAt scales (2 * (k / fmtBlock f)) 2 else leAt scales (k / fmtBlock f) 1) with
    | .nan => false
    | .num _ m e => tooBig m e).length

/-- VCVT: codes and scales to FP32 lanes. -/
def coreVcvtOp (n f q src scales : Nat) (d : Dev) (c : Core) : CRes :=
  if q ≥ 32 ∨ !blockFmt f then .error 2
  else
    match d.lsGet n src (128 * fmtBits f / 8), d.lsGet n scales (scaleBytes f 128) with
    | .error e, _ => .error e
    | _, .error e => .error e
    | .ok cb, .ok sb => .ok (d, (c.setVec q (cvtVals f 128 cb sb)).count (cvtSat f 128 cb sb) 0 0, c.pc + 8)

def effCoreScalarAlu (n : Nat) (op : Option AluOp) (rd rs : Nat) (src : CSrc) (s : State) : Host.Outcome State Fault Refusal :=
  onDev (coreOp n (coreAluOp op rd rs src)) s
def effCoreLdSt (n : Nat) (st : Bool) (bytes r base : Nat) (off : BitVec 16) (s : State) : Host.Outcome State Fault Refusal :=
  onDev (coreOp n (coreLdStOp n st bytes r base off)) s
def effCoreBranch (n : Nat) (b : CoreBr) (s : State) : Host.Outcome State Fault Refusal := onDev (coreOp n (coreBranchOp b)) s
def effCoreLoop (n r len : Nat) (s : State) : Host.Outcome State Fault Refusal := onDev (coreOp n (coreLoopOp r len)) s
def effWload (n w base : Nat) (s : State) : Host.Outcome State Fault Refusal := onDev (coreOp n (wloadOp n w base)) s
def effMmul (n w ac af base rows row : Nat) (r a : Bool) (s : State) : Host.Outcome State Fault Refusal := onDev (mmulRow n w ac af base rows row r a) s
def effAccout (n ac row rows fmt dst : Nat) (sc : Option Nat) (s : State) : Host.Outcome State Fault Refusal :=
  onDev (coreOp n (accoutOp n ac row rows fmt dst sc)) s
def effAccz (n ac : Nat) (s : State) : Host.Outcome State Fault Refusal := onDev (coreOp n (acczOp ac)) s
def effCoreVldVst (n : Nat) (st : Bool) (q fmt a : Nat) (s : State) : Host.Outcome State Fault Refusal := onDev (coreOp n (coreVldVstOp n st q fmt a)) s
def effCoreVectorArith (n : Nat) (op : VecOp) (qd qa : Nat) (b : VSrc) (s : State) : Host.Outcome State Fault Refusal :=
  onDev (coreOp n (coreVecOp op qd qa b)) s
def effVred (n : Nat) (max : Bool) (rd qa : Nat) (s : State) : Host.Outcome State Fault Refusal := onDev (coreOp n (vredOp max rd qa)) s
def effVquant (n f : Nat) (src : Option Nat) (dst sc : Nat) (split : Option Nat) (stage group : Nat) (s : State) :
    Host.Outcome State Fault Refusal :=
  onDev (coreOp n (vquantOp n f src dst sc split stage group)) s
def effCoreVcvt (n f q src sc : Nat) (s : State) : Host.Outcome State Fault Refusal := onDev (coreOp n (coreVcvtOp n f q src sc)) s

end Sys2Proof.Machine
end

