-- ==== Sys2Proof/Machine/Sec.lean ====
section
/-! DEFINITION. The security block: attestation, device sets and sealed weights, keys, debug unlock, RMA and partition erase
(R370-R399). -/

namespace Sys2Proof.Machine

/-! ### Measurements (R375-R378) -/

/-- The security block's lifecycle is RMA (R397): no private key and no key derived from the device root is left. -/
def Fuses.rma (f : Fuses) : Bool := f.lifecycle == 3

/-- A digest as its 64 bytes: `Config.sha512` is the number they spell, first byte lowest (log entry 6). -/
def digestBytes (h : BitVec 512) : List Byte := leBytes 64 h.toNat

/-- The running image of a KIND. -/
def Dev.image (d : Dev) (k : Nat) : Option RunImage := d.boot.images.find? fun i => i.kind == k

/-- The fuse and debug state (R376). -/
def fuseState (x : Ctx) (d : Dev) : List Byte :=
  let bits (f : (BitVec 512 × Bool × Bool) → Bool) : Nat := nsum (x.fuses.roots.mapIdx fun i r => if f r then 2 ^ i else 0)
  [BitVec.ofNat 8 x.fuses.lifecycle, if d.sec.debug then 1 else 0, if d.sec.pend then 1 else 0, 0] ++ leBytes 2 0x1612 ++ [0, 0] ++
    leBytes 8 Config.serial.toNat ++ leBytes 1 (bits fun r => r.2.1) ++ leBytes 1 (bits fun r => r.2.2) ++ List.replicate 46 0

/-- Regions that partition p owns. -/
def Dev.ownedRegions (d : Dev) (p : Nat) : Nat := nsum ((List.range 16).map fun s => ((List.range 48).filter fun r => d.regionOwner s r == p).length)

/-- Entry p of the partition layout (R377). -/
def layoutEntry (d : Dev) (p : Nat) : List Byte :=
  leBytes 1 p ++ leBytes 1 ((d.boundPort p).getD 0xFF) ++ [0, 0] ++ leBytes 4 (d.sesBase p) ++ leBytes 4 (d.sesQuota p) ++
    leBytes 2 (fld (d.devReg (0x040100 + p * 8)) 9 0) ++ leBytes 2 (fld (d.devReg (0x040104 + p * 8)) 14 0) ++
    leBytes 4 (fld (d.devReg (0x060100 + p * 4)) 16 0) ++ leBytes 2 (fld (d.devReg (0x080100 + p * 4)) 15 0) ++ leBytes 2 (d.ownedRegions p) ++
    leBytes 4 (fld (d.devReg (0x090200 + p * 0x10)) 20 0) ++ leBytes 4 (fld (d.devReg (0x0B0100 + p * 4)) 30 0)

/-- The partition layout as the responder of a partition (some p) or of a PF or MCTP (none) reports it (R377, R378). -/
def layout (d : Dev) (view : Option Nat) : List Byte :=
  leBytes 4 0x3154594C ++ leBytes 2 1 ++ leBytes 1 (if view.isSome then 0 else d.ctrlPort) ++ leBytes 1 16 ++ List.replicate 24 0 ++
    (List.range 16).flatMap fun p => if view.elim true (· == p) then layoutEntry d p else List.replicate 32 0

/-- The value of measurement block n, 1 to 10 (R375). -/
def measurement (x : Ctx) (d : Dev) (n : Nat) : List Byte :=
  let image (k : Nat) : List Byte := (d.image k).elim (List.replicate 64 0) fun i => digestBytes i.hash
  match n with
  | 1 => digestBytes Config.bootRom
  | 2 => image 1
  | 3 => image 2
  | 4 => image 3
  | 5 => image 4
  | 6 => digestBytes x.meter.flash.digest
  | 7 => if d.glm.bankAct.valid then digestBytes (Config.sha512 d.glm.bankAct.raw) else List.replicate 64 0
  | 8 => fuseState x d
  | 9 => ([1, 2, 3, 4] : List Nat).flatMap fun k => leBytes 8 ((d.image k).elim 0 RunImage.svn)
  | 10 => leBytes 4 65537 ++ Config.tpkPub.take 512
  | _ => []

/-- The current measurement digest (R380). -/
def measureDigest (x : Ctx) (d : Dev) : BitVec 512 := Config.sha512 ((List.range 10).flatMap fun i => measurement x d (i + 1))

/-- The measurement blocks of a report: index, type of R375, length and value of each. -/
def measureBlocks (x : Ctx) (d : Dev) (view : Option Nat) : List Byte :=
  (([(1, 0), (2, 1), (3, 1), (4, 1), (5, 1), (6, 1), (7, 3), (8, 2), (9, 7), (10, 4), (11, 2)] : List (Nat × Nat)).flatMap fun b =>
    let v := if b.1 = 11 then layout d view else measurement x d b.1
    leBytes 1 b.1 ++ leBytes 1 (b.2 + if 8 ≤ b.1 then 128 else 0) ++ leBytes 2 v.length ++ v)

/-! ### SPDM (R373, R374) -/

/-- The partition whose layout entry a responder shows (R378). -/
def spdmView : SpdmPort → Option Nat
  | .doe f => if f.num = 0 then none else some (f.num - 1)
  | .mctp _ => none

/-- SEC_DEVCFG. -/
def Dev.secCfg (d : Dev) : Nat := d.devReg 0x0D0100


/-- Whether a responder answers at all: a DOE mailbox from the end of stage 4, a VF's while SPDM_VF is set. -/
def Dev.spdmHere (d : Dev) : SpdmPort → Bool
  | .doe f => d.fnLive f && d.boot.stage > 4 && (f.num == 0 || bitAt d.secCfg 1)
  | .mctp b => b < 2 && d.sidebandUp

/-- An SPDM ERROR; the codes are those of the SPDM standard (PRESUMED, log entry 24). -/
def Dev.spdmErr (d : Dev) (a : SpdmPort) (code : Nat) (ext : List Byte) : Dev := d.out (.spdm a 0x7F (leBytes 1 code ++ ext))

/-- The requests for which a signature is not there yet. -/
def SecState.waiting (s : SecState) : List SigReq := s.sigs.filter fun r => r.ready.isNone

/-- The certificate chain of slot 0 (R373). -/
def certChain : List Byte := Config.rootCert ++ Config.productCert ++ Config.devCert

/-- A request that needs a signature joins the queue; ERROR Busy at 64, and ERROR Unspecified in RMA (R374, R397). -/
def Dev.signQueue (d : Dev) (x : Ctx) (a : SpdmPort) (kind : Nat) : Dev :=
  if x.fuses.rma then d.spdmErr a 0x05 []
  else if d.sec.waiting.length ≥ 64 then d.spdmErr a 0x03 []
  else
    let t := d.sec.lastToken % 255 + 1
    { d with sec := { d.sec with sigs := d.sec.sigs ++ [⟨a, kind, x.now, t, false, none⟩], lastToken := t } }

/-- ERROR ResponseNotReady with RDTExponent 14 (R374). -/
def Dev.notReady (d : Dev) (r : SigReq) : Dev := d.spdmErr r.at_ 0x42 [14, BitVec.ofNat 8 r.token]

/-- A response that is signed goes out: CHALLENGE_AUTH or MEASUREMENTS. -/
def Dev.signedOut (d : Dev) (r : SigReq) (bs : List Byte) : Dev := d.out (.spdm r.at_ (if r.kind = 0 then 0x03 else 0x60) bs)

/-- SPDM_REQUEST at a responder (R373, R374). -/
def spdmReq (a : SpdmPort) (r : SpdmReq) (x : Ctx) (d : Dev) : Dev :=
  let mctp : Bool := match a with
    | .mctp _ => true
    | .doe _ => false
  if !d.spdmHere a then d
  else if mctp && d.boot.stage ≤ 4 then d.spdmErr a 0x03 []
  else if mctp && !bitAt d.secCfg 0 then d.spdmErr a 0x07 []
  else
    match r with
    | .getVersion => d.out (.spdm a 0x04 [0x13])
    | .getCapabilities => d.out (.spdm a 0x61 ([14] ++ leBytes 4 0x16 ++ leBytes 4 4096 ++ leBytes 4 4096))
    | .negotiateAlgorithms => d.out (.spdm a 0x63 ([1] ++ leBytes 4 0x04 ++ leBytes 4 0x40 ++ leBytes 4 0x04))
    | .getDigests => d.out (.spdm a 0x01 ([1] ++ digestBytes (Config.sha512 certChain)))
    | .getCertificate => d.out (.spdm a 0x02 certChain)
    | .challenge => d.signQueue x a 0
    | .getMeasurements signed => if signed then d.signQueue x a 1 else d.out (.spdm a 0x60 (measureBlocks x d (spdmView a)))
    | .respondIfReady t =>
      match d.sec.sigs.find? fun s => s.at_ == a && s.token == t && s.deferred with
      | none => d.spdmErr a 0x01 []
      | some s =>
        match s.ready with
        | none => d.notReady s
        | some bs => { d with sec := { d.sec with sigs := d.sec.sigs.filter (· != s) } }.signedOut s bs
    | .other => d.spdmErr a 0x07 []

/-- SIGNATURE_DONE: the head of the queue is signed with IDK over current values (R371, R375). -/
def signDone (x : Ctx) (d : Dev) : Dev :=
  let d := d.drainEnd (drainId 13 (2 ^ 40))
  match d.sec.waiting with
  | [] => d
  | r :: _ =>
    let body := if r.kind = 0 then digestBytes (Config.sha512 certChain) ++ digestBytes (measureDigest x d) else measureBlocks x d (spdmView r.at_)
    let bs := body ++ Config.rsaSign 0 body
    if x.fuses.rma then { d with sec := { d.sec with sigs := d.sec.sigs.filter (· != r) } }.spdmErr r.at_ 0x05 []
    else if r.deferred then
      { d with sec := { d.sec with sigs := d.sec.sigs.map fun s => if s = r then { s with ready := some bs } else s } }
    else { d with sec := { d.sec with sigs := d.sec.sigs.filter (· != r) } }.signedOut r bs

/-- SPDM_RESPONSE_NOT_READY: 100 µs after the request, with no signature yet. -/
def spdmLate (t : Nat) (x : Ctx) (d : Dev) : Dev :=
  match d.sec.sigs.find? fun s => s.token == t && s.ready.isNone && !s.deferred && decide (s.since + 12500 ≤ x.now) with
  | none => d
  | some r =>
    { d with sec := { d.sec with sigs := d.sec.sigs.map fun s => if s = r then { s with deferred := true } else s } }.notReady r

/-! ### Set keys, connection keys and packages (R379-R388) -/

/-- SEC_PCFG of a partition. -/
def Dev.secPcfg (d : Dev) (p : Nat) : Nat := d.partReg p 0x0D0018

/-- The set keys of a partition, and whether it holds one of a set. -/
def Dev.setsOf (d : Dev) (p : Nat) : List SetKey := d.sec.sets.filter fun s => s.part == p
def Dev.holdsSet (d : Dev) (p id : Nat) : Bool := (d.setsOf p).any fun s => s.id == id

/-- Connection keys of a partition. -/
def Dev.connOf (d : Dev) (p : Nat) : List (Nat × List Byte) := d.sec.conn.filter fun c => c.1 / 65536 == p

/-- SEC_INTEGRITY_ERR of a partition. -/
def Dev.secErr (d : Dev) (p : Nat) : Dev := d.bumpPart p 0x0D0010 1

/-- SEC_SET_JOIN is accepted with its blob in the buffer space. -/
def setJoin (_ : Ctx) (q : Req) (d : Dev) : Ans :=
  let off := bufOff (q.w 2).toNat (q.f 3 7 0)
  if !q.clean [(2, top32), (3, 0xFF)] then .refuse .badParam
  else if d.bufSealed q.part off 512 then .done .notPermitted [] (d.sealedRead q.part)
  else if (d.bufRead q.part off 512).isNone then .refuse .badParam
  else .accept [] (.other 0x0900 off 0 0) d

/-- The checks of R379 on a decoded blob, in order; none passes. -/
def Dev.joinCheck (d : Dev) (x : Ctx) (p : Nat) (b : List Byte) : Option Status :=
  let id := leAt b 8 8
  let key := (b.drop 0x10).take 32
  let meas := (b.drop 0x38).take 64
  if b.length < 0x78 ∨ leAt b 0 4 ≠ 0x31544553 ∨ leAt b 4 2 ≠ 1 ∨ id = 0 then some .badParam
  else if leAt b 0x30 8 ≠ Config.serial.toNat ∨ d.sec.debug ∨ !bitAt (d.secPcfg p) 0 ∨
      (meas ≠ List.replicate 64 0 ∧ meas ≠ digestBytes (measureDigest x d)) then some .notPermitted
  else if (d.setsOf p).any fun s => s.id == id && s.key != key then some .badParam
  else if !d.holdsSet p id && ((d.setsOf p).length ≥ 4 || d.sec.sets.length ≥ 32) then some .noResource
  else none

/-- The end of a join: the blob has been decoded under TPK. -/
def Dev.joinEnd (d : Dev) (x : Ctx) (op p off : Nat) (r : KeyResult) : Dev :=
  let bad := (d.bufRead p off 512).elim true Prod.snd
  match if bad || x.fuses.rma then .fail else r with
  | .fail => (d.secErr p).endOp x op .integrity []
  | .ok b =>
    match d.joinCheck x p b with
    | some st => d.endOp x op st []
    | none =>
      let id := leAt b 8 8
      let d := if d.holdsSet p id then d
        else { d with sec := { d.sec with sets := d.sec.sets ++ [⟨p, id, (b.drop 0x10).take 32⟩] } }
      d.endOp x op .ok [loW id, hiW id]

/-- SEC_SET_LEAVE (R381). -/
def setLeave (_ : Ctx) (q : Req) (d : Dev) : Ans :=
  let id := q.d2 2
  if !q.clean [(2, top32), (3, top32)] ∨ !d.holdsSet q.part id then .refuse .badParam
  else
    let n := (d.mem.shares.filter fun s => s.2.part == q.part && s.2.sealed && (tget d.sec.packs s.1).elim false fun k => k.1 == id).length
    .done .ok [wd n] { d with sec := { d.sec with sets := d.sec.sets.filter fun s => !(s.part == q.part && s.id == id) } }

/-- The fields of a package header (R382). -/
def pkgChunks (h : List Byte) : Nat := leAt h 0x20 4
def pkgLength (h : List Byte) : Nat := leAt h 0x18 8
def pkgOk (h : List Byte) (count : Nat) : Bool :=
  let n := pkgChunks h
  leAt h 0 4 == 0x31505757 && leAt h 4 2 == 1 && 1 ≤ leAt h 6 2 && leAt h 6 2 ≤ 8 && n == (pkgLength h + 2097151) / 2097152 &&
    1 ≤ n && n ≤ 130816 && count == n + 1

/-- The plaintext bytes of chunk i (R382). -/
def chunkLen (h : List Byte) (i : Nat) : Nat := min 2097152 (pkgLength h - i * 2097152)

/-- Extents of a run marked as a package being opened, and unmarked. -/
def Dev.sealRun (d : Dev) (p first count : Nat) : Dev :=
  { d with mem := { d.mem with sealed := addNums ((runExts first count).map (bufKey p)) d.mem.sealed } }
def Dev.unsealRun (d : Dev) (p first count : Nat) : Dev :=
  { d with mem := { d.mem with sealed := delNums ((runExts first count).map (bufKey p)) d.mem.sealed } }

/-- SEC_WEIGHTS_OPEN (R383): the header is checked, the extents are sealed, and the content key is taken from the set key held. -/
def weightsOpen (_ : Ctx) (q : Req) (d : Dev) : Ans :=
  let es := runExts q.first q.count
  if !q.clean [(2, 0x7FFFF), (3, top32)] ∨ !runOk q.first (q.w 3).toNat ∨ !d.allMapped q.part es ∨ d.anyFrozen q.part es then .refuse .badParam
  else if es.any (d.extSealed q.part) then .done .notPermitted [] (d.sealedRead q.part)
  else if es.any (d.extIndexed q.part) then .refuse .notPermitted
  else
    match d.bufRead q.part (q.first * 2097152) 4096 with
    | none => .refuse .badParam
    | some (h, bad) =>
      if (es.any fun e => (d.extGrans q.part e).any fun g => d.computeAt (granAddr g)) || !pkgOk h q.count then .refuse .badParam
      else if bad then .refuse .integrity
      else if !d.holdsSet q.part (leAt h 8 8) then .refuse .notPermitted
      else
        let d := d.sealRun q.part q.first q.count
        .accept [] (.weights q.first q.count) { d with sec := { d.sec with opens := tset d.sec.opens q.seq ⟨q.part, q.first, q.count, h, 0⟩ } }

/-- Zeros over the first n chunks written back. -/
def Dev.wipeChunks (d : Dev) (x : Ctx) (o : Opening) (n : Nat) : Dev :=
  (List.range n).foldl (fun d i =>
    (d.bufWrite x o.part ((o.first + 1 + i) * 2097152) (List.replicate (chunkLen o.hdr i) 0)).getD d) d

/-- The end of an open that does not succeed: what was written back is zeroed, and the extents stay mapped and unsealed. -/
def Dev.openFail (d : Dev) (x : Ctx) (op : Nat) (o : Opening) (st : Status) : Dev :=
  let d := (d.wipeChunks x o (o.stage - 1)).unsealRun o.part o.first o.count
  { d with sec := { d.sec with opens := tdel d.sec.opens op } }.endOp x op st []

/-- The end of an open: extent 0 is zeroed and unmapped, and the data extents become one sealed object. -/
def Dev.openDone (d : Dev) (x : Ctx) (op : Nat) (o : Opening) : Dev :=
  let d := (d.bufWrite x o.part (o.first * 2097152) (List.replicate 2097152 0)).getD d
  let d := (d.unmapExt o.part o.first).unsealRun o.part o.first o.count
  let r := d.freeze o.part (o.first + 1) (o.count - 1) true
  let allowed := (List.range (leAt o.hdr 6 2)).map fun i => BitVec.ofNat 512 (leNat ((o.hdr.drop (0x80 + 64 * i)).take 64))
  let d := { r.2 with sec := { r.2.sec with opens := tdel r.2.sec.opens op, packs := tset r.2.sec.packs r.1 (leAt o.hdr 8 8, allowed) } }
  d.endOp x op .ok [wd r.1, wd (pkgChunks o.hdr)]

/-- The key engine's next step of an open: the unwrap, then chunk after chunk (R383). -/
def Dev.openStep (d : Dev) (x : Ctx) (op : Nat) (o : Opening) (r : KeyResult) : Dev :=
  match r with
  | .fail => (d.secErr o.part).openFail x op o .integrity
  | .ok b =>
    if o.stage = 0 then { d with sec := { d.sec with opens := tset d.sec.opens op { o with stage := 1 } } }
    else
      let i := o.stage - 1
      let n := chunkLen o.hdr i
      let d := (d.bufWrite x o.part ((o.first + o.stage) * 2097152) ((b ++ List.replicate n 0).take n)).getD d
      let o := { o with stage := o.stage + 1 }
      if o.stage > pkgChunks o.hdr then d.openDone x op o
      else { d with sec := { d.sec with opens := tset d.sec.opens op o } }

/-- DEV_ABORT of an open (R399): before the first chunk is written back it ends ABORTED, and after that as a failed tag. -/
def Dev.openAbort (d : Dev) (x : Ctx) (op : Nat) : Dev :=
  match tget d.sec.opens op with
  | none => d
  | some o => if o.stage ≤ 1 then d.openFail x op o .aborted else (d.secErr o.part).openFail x op o .integrity

/-- Whether one more connection key may be held (R388). -/
def Dev.connRoom (d : Dev) (p : Nat) : Bool := (d.connOf p).length < 4096 && d.sec.conn.length < 16384

/-- SEC_CONN_KEY_LOAD (R388). -/
def connLoad (_ : Ctx) (q : Req) (d : Dev) : Ans :=
  let wrapped := bitAt (q.w 2).toNat 0
  let at_ := q.d2 3
  if !q.clean [(2, 1), (3, top32), (4, top32), (5, top32), (6, top32)] then .refuse .badParam
  else if d.sec.debug then .refuse .notPermitted
  else if !wrapped then
    if !bitAt (d.secPcfg q.part) 1 then .refuse .notPermitted
    else if !d.connRoom q.part then .refuse .noResource
    else .accept [] (.other 0x0903 0 at_ 0) d
  else if d.bufSealed q.part at_ 104 then .done .notPermitted [] (d.sealedRead q.part)
  else if (d.bufRead q.part at_ 104).isNone then .refuse .badParam
  else if !d.holdsSet q.part (q.d2 5) then .refuse .notPermitted
  else if !d.connRoom q.part then .refuse .noResource
  else .accept [] (.other 0x0903 1 at_ (q.d2 5)) d

/-- The end of a connection key load with its record: it takes the lowest handle free (log entry 12). -/
def Dev.connEnd (d : Dev) (x : Ctx) (op p : Nat) (rec : List Byte) : Dev :=
  if !d.connRoom p then d.endOp x op .noResource []
  else
    match (List.range 4096).find? fun i => !thas d.sec.conn (p * 65536 + i + 1) with
    | none => d.endOp x op .noResource []
    | some i =>
      { d with sec := { d.sec with conn := tset d.sec.conn (p * 65536 + i + 1) (rec.take 96) } }.endOp x op .ok [wd (i + 1)]

/-- SEC_CONN_KEY_DESTROY. -/
def connDestroy (_ : Ctx) (q : Req) (d : Dev) : Ans :=
  let h := q.f 2 12 0
  if !q.clean [(2, 0x1FFF)] ∨ !thas d.sec.conn (q.part * 65536 + h) then .refuse .badParam
  else if d.net.qps.any fun e => e.2.part == q.part && e.2.enc && e.2.st != 0 && e.2.key == h then .refuse .notPermitted
  else .done .ok [] { d with sec := { d.sec with conn := tdel d.sec.conn (q.part * 65536 + h) } }

/-- SEC_IDENTITY_READ. -/
def identRead (_ : Ctx) (q : Req) (d : Dev) : Ans :=
  if !q.clean [(2, top32), (3, top32)] ∨ q.d2 2 % 4096 ≠ 0 then .refuse .badParam
  else .accept [] (.other 0x0905 (q.d2 2) 0 0) d

/-- A byte string padded with zeros to a length. -/
def padTo (n : Nat) (b : List Byte) : List Byte := (b ++ List.replicate n 0).take n

/-- What SEC_IDENTITY_READ writes. -/
def identBytes : List Byte :=
  padTo 16 (leBytes 4 (min 2048 Config.devCert.length)) ++ padTo 0x800 Config.devCert ++ padTo 512 Config.idkPub ++ padTo 512 Config.tpkPub

/-- SEC_STATE (R376 and the register's table). -/
def secState (x : Ctx) (d : Dev) : Nat := x.fuses.lifecycle % 4 + (if d.sec.debug then 16 else 0) + (if d.sec.pend then 128 else 0)

/-- SEC_QUERY. -/
def secQuery (x : Ctx) (q : Req) (d : Dev) : Ans :=
  if !q.clean [] then .refuse .badParam
  else .done .ok [wd (secState x d), wd (d.setsOf q.part).length, wd (d.connOf q.part).length] d

/-! ### Debug unlock, RMA and partition erase (R389, R395-R397) -/

/-- SEC_DEBUG_CHALLENGE: 16 random bytes. -/
def debugChallenge (_ : Ctx) (q : Req) (d : Dev) : Ans :=
  if !q.clean [] then .refuse .badParam
  else
    let n := (List.range 16).map fun i => Config.randomByte (d.free + i)
    .done .ok (bytesWords 4 n) { d with free := d.free + 16, sec := { d.sec with nonce := some n } }

/-- SEC_DEBUG_UNLOCK and SEC_RMA are accepted with the host address of the signature. -/
def tokenCmd (op : Nat) (_ : Ctx) (q : Req) (d : Dev) : Ans :=
  if !q.clean [(2, top32), (3, top32)] then .refuse .badParam
  else .accept [] (.other op (q.d2 2) 0 0) d

/-- Whether a signature is the debug key's over a MAGIC, SERIAL and the latest nonce (R396). -/
def tokenOk (x : Ctx) (d : Dev) (magic : Nat) (sig : List Byte) : Bool :=
  match d.sec.nonce with
  | none => false
  | some n =>
    Config.sha512 Config.debugPub == x.fuses.debugHash &&
      Config.rsaVerify Config.debugPub (leBytes 4 magic ++ leBytes 8 Config.serial.toNat ++ n) sig

/-- The signature of SEC_DEBUG_UNLOCK has been read. -/
def Dev.unlockEnd (d : Dev) (x : Ctx) (op : Nat) (sig : List Byte) : Dev :=
  if tokenOk x d 0x31474244 sig then { d with sec := { d.sec with pend := true } }.endOp x op .ok []
  else d.endOp x op .integrity []

/-- RMA (R397): the fuses change, and with the device root every storage key is lost, so that no unit of NAND is readable. -/
def Fuses.toRma (f : Fuses) : Fuses := { f with lifecycle := 3 }
def Dev.rmaEnd (d : Dev) (x : Ctx) (op : Nat) : Dev :=
  { d with nand := { d.nand with units := tmap d.nand.units fun _ u => { u with state := 2 } } }.endOp x op .ok []

/-- The checks of SEC_PART_ERASE (R389). -/
def eraseCheck (x : Ctx) (q : Req) (d : Dev) : Option Status :=
  let p := q.f 2 3 0
  if !q.clean [(2, 0xF)] then some .badParam
  else if (d.ses.tbl.any fun s => s.1 / 2 ^ 24 == p && s.2.state != .free) || (d.grid.mdls.any fun m => m.2.part == p && m.2.st != .registered) then
    some .notPermitted
  else if 64 ≤ (x.fuses.erases[p]?).getD 0 then some .noResource
  else none

/-- SEC_PART_ERASE: every key of the partition goes, version 1 is made anew, and every unit is unmapped (log entry 25). -/
def partErase (x : Ctx) (q : Req) (d : Dev) : Ans :=
  let p := q.f 2 3 0
  match eraseCheck x q d with
  | some st => .refuse st
  | none =>
    let n := d.nandUsed p
    let d := { d with
      nand := { d.nand with
        units := d.nand.units.filter fun u => u.2.part != p
        objs := d.nand.objs.filter fun o => o.2.part != p }
      sec := { d.sec with
        sets := d.sec.sets.filter fun s => s.part != p
        conn := d.sec.conn.filter fun c => c.1 / 65536 != p } }
    .both [] .ok [wd n] (d.setKeys p [1] 1)

/-- A further ERASE_COUNT bit burnt. -/
def Fuses.erase (f : Fuses) (p : Nat) : Fuses := { f with erases := f.erases.set p ((f.erases[p]?).getD 0 + 1) }

/-- The fuses after SEC_PART_ERASE: a bit is burnt where the command starts and passes its checks. -/
def eraseFuses (c : Cmd) (x : Ctx) (d : Dev) : Fuses :=
  match (d.startedRec c 0x0913).filter fun r => !d.behind r with
  | none => x.fuses
  | some r =>
    let q : Req := ⟨r.seq, some r.fn, r.sq, r.part.getD 0, c.src, c.words, r.arrival⟩
    if (eraseCheck x q d).isNone then x.fuses.erase (q.f 2 3 0) else x.fuses

/-! ### The key engine's completions (R387) -/

/-- KEY_ENGINE_DONE for an operation. An open waits for an earlier move of its extents (log entry 15). -/
def keyDone (op : Nat) (r : KeyResult) (x : Ctx) (d : Dev) : Dev :=
  match tget d.ops op with
  | some ⟨_, p, .other 0x0900 off _ _, _⟩ => d.joinEnd x op p off r
  | some ⟨_, p, .other 0x0903 1 off _, _⟩ =>
    let bad := (d.bufRead p off 104).elim true Prod.snd
    match if bad then .fail else r with
    | .fail => (d.secErr p).endOp x op .integrity []
    | .ok b => d.connEnd x op p b
  | some ⟨_, p, .weights first count, _⟩ =>
    match tget d.sec.opens op with
    | none => d
    | some o => if d.runHeld op p first count then d else d.openStep x op o r
  | _ => d

/-! ### The reported throttle level (R393) -/

/-- LOG THROTTLE_LEVEL to every bound partition. -/
def Dev.levelLogs (d : Dev) (x : Ctx) : List Nat → Dev
  | [] => d
  | p :: ps => (if (d.boundPort p).isSome then d.recPart x p .log 0x20E (source 13 0) 0 0 0 else d).levelLogs x ps

/-- THROTTLE_LEVEL. -/
def throttle (x : Ctx) (d : Dev) : Dev :=
  let n := min 15 ((d.power.d + 3) / 4)
  if n = d.sec.level ∨ x.now < d.sec.levelAt then d
  else { d with sec := { d.sec with level := n, levelAt := x.now + 1250000 } }.levelLogs x (List.range 16)

/-- SEC_IDENTITY_READ; its writes to host memory are posted at once, and the last one ends it. -/
def identRow (c : Cmd) (x : Ctx) (d : Dev) : Dev :=
  let d' := runCmd 0x0905 c identRead x d
  match d.startedRec c 0x0905 with
  | none => d'
  | some r =>
    match tget d'.ops r.seq with
    | some ⟨_, p, .other _ at_ _ _, _⟩ => d'.shapeHost r.fn r.sq p r.seq at_ identBytes .ok []
    | _ => d'

def effSecSetJoin (c : Cmd) (s : State) : Host.Outcome State Fault Refusal := hostCmd 0x0900 c setJoin s
def effSecSetLeave (c : Cmd) (s : State) : Host.Outcome State Fault Refusal := hostCmd 0x0901 c setLeave s
def effSecWeightsOpen (c : Cmd) (s : State) : Host.Outcome State Fault Refusal := hostCmd 0x0902 c weightsOpen s
def effSecConnKeyLoad (c : Cmd) (s : State) : Host.Outcome State Fault Refusal := hostCmd 0x0903 c connLoad s
def effSecConnKeyDestroy (c : Cmd) (s : State) : Host.Outcome State Fault Refusal := hostCmd 0x0904 c connDestroy s
def effSecIdentityRead (c : Cmd) (s : State) : Host.Outcome State Fault Refusal := onDev (identRow c) s
def effSecQuery (c : Cmd) (s : State) : Host.Outcome State Fault Refusal := hostCmd 0x0906 c secQuery s
def effSecDebugChallenge (c : Cmd) (s : State) : Host.Outcome State Fault Refusal := hostCmd 0x0910 c debugChallenge s
def effSecDebugUnlock (c : Cmd) (s : State) : Host.Outcome State Fault Refusal := hostCmd 0x0911 c (tokenCmd 0x0911) s
def effSecRma (c : Cmd) (s : State) : Host.Outcome State Fault Refusal := hostCmd 0x0912 c (tokenCmd 0x0912) s
/-- SEC_PART_ERASE: the only command of a host that burns an ERASE_COUNT bit. -/
def effSecPartErase (c : Cmd) (s : State) : Host.Outcome State Fault Refusal :=
  .next (if s.clock.power then
    { s with fuses := eraseFuses c s.ctx s.dev, dev := runCmd 0x0913 c partErase s.ctx s.dev } else s)
def effSpdmRequest (a : SpdmPort) (r : SpdmReq) (s : State) : Host.Outcome State Fault Refusal := onDev (spdmReq a r) s
def effSignatureDone (s : State) : Host.Outcome State Fault Refusal := onDev signDone s
def effSpdmResponseNotReady (t : Nat) (s : State) : Host.Outcome State Fault Refusal := onDev (spdmLate t) s
def effThrottleLevel (s : State) : Host.Outcome State Fault Refusal := onDev throttle s
def effKeyEngineDone (op : Nat) (r : KeyResult) (s : State) : Host.Outcome State Fault Refusal := onDev (keyDone op r) s

end Sys2Proof.Machine
end

