-- ==== Sys2Proof/Machine/Images.lean ====
section
/-! DEFINITION. The image store: banks, their checks, and the firmware opcodes (R443-R446, R451-R453, R457). -/

namespace Sys2Proof.Machine

/-! ### Banks (R443-R446) -/

/-- The size of a bank, and where bank b starts. -/
def bankSize : Nat := 0x2000000
def bankBase (b : Nat) : Nat := b * bankSize

/-- A bank's directory and its commit record. -/
def ImageStore.dir (s : ImageStore) (b : Nat) : List Byte := s.bytes (bankBase b) 4096
def ImageStore.record (s : ImageStore) (b : Nat) : List Byte := s.bytes (bankBase b + 0x1000) 16

/-- SEQ of a bank whose commit record checks by itself. -/
def ImageStore.seq (s : ImageStore) (b : Nat) : Option Nat :=
  let r := s.record b
  if leAt r 0 4 == 0x31544D43 && leAt r 12 4 == (crc32c (r.take 12)).toNat then some (leAt r 4 4) else none

/-- Whether the directory has its MAGIC and COUNT. -/
def ImageStore.dirOk (s : ImageStore) (b : Nat) : Bool := leAt (s.dir b) 0 4 == 0x31524944 && leAt (s.dir b) 4 4 == 5

/-- Whether a bank's commit record and directory check. -/
def ImageStore.recordOk (s : ImageStore) (b : Nat) : Bool :=
  (s.seq b).isSome && s.dirOk b && leAt (s.record b) 8 4 == (crc32c (s.dir b)).toNat

/-- Offset and length of the one image of a kind that a directory names. -/
def ImageStore.imageAt (s : ImageStore) (b k : Nat) : Option (Nat × Nat) :=
  let d := s.dir b
  match (List.range 5).filter fun i => leAt d (64 + 16 * i) 1 == k with
  | [i] => some (leAt d (64 + 16 * i + 4) 4, leAt d (64 + 16 * i + 8) 4)
  | _ => none

/-- The header of an image. -/
def ImageStore.header (s : ImageStore) (b off : Nat) : List Byte := s.bytes (bankBase b + off) 1536

/-- Whether an image's header belongs to its directory entry: MAGIC, KIND, a LENGTH that ends inside the bank, and an SVN of 0 to
64. -/
def imageForm (h : List Byte) (k off len : Nat) : Bool :=
  leAt h 0 4 == 0x31474D49 && leAt h 4 1 == k && leAt h 0xC 4 + 1536 == len && off + len ≤ bankSize &&
    leAt h 0x10 8 ≤ 64

/-- Root key, signature, body and SVN of an image of KIND 1 to 4 (R445). -/
def imageTrusted (f : Fuses) (h body : List Byte) (k : Nat) : Bool :=
  let pub := (h.drop 0x200).take 512
  ((f.roots[leAt h 5 1]?).elim false fun (r : BitVec 512 × Bool × Bool) => r.1 == Config.sha512 pub && r.2.1 && !r.2.2) &&
    Config.rsaVerify pub (h.take 0x400) (h.drop 0x400) && Config.sha512 body == BitVec.ofNat 512 (leAt h 0x18 64) &&
    decide ((f.floors[k - 1]?).getD 0 ≤ leAt h 0x10 8)

/-- What fails of a bank's image of a kind: it is not there in its form, or it is not trusted. The boot ROM does not check KIND 5. -/
inductive ImageFault where
  | form | trust
deriving DecidableEq, Repr

def ImageStore.imageFault (s : ImageStore) (f : Fuses) (b k : Nat) : Option ImageFault :=
  match s.imageAt b k with
  | none => some .form
  | some (off, len) =>
    if k = 5 then none
    else
      let h := s.header b off
      if !imageForm h k off len then some .form
      else if imageTrusted f h (s.bytes (bankBase b + off + 1536) (leAt h 0xC 4)) k then none
      else some .trust

/-- The first kind whose image fails, with how it fails. -/
def ImageStore.firstFault (s : ImageStore) (f : Fuses) (b : Nat) : Option (Nat × ImageFault) :=
  ([1, 2, 3, 4, 5] : List Nat).findSome? fun k => (s.imageFault f b k).map fun e => (k, e)

/-- A valid bank (R445). -/
def ImageStore.valid (s : ImageStore) (f : Fuses) (b : Nat) : Bool := s.recordOk b && (s.firstFault f b).isNone

/-- The bank that the boot ROM prefers (R446): the newer SEQ; a bank without one only where the other has none either (log entry 33). -/
def ImageStore.preferred (s : ImageStore) : Nat :=
  match s.seq 0, s.seq 1 with
  | some a, some b => if a ≠ b ∧ (b + 2 ^ 32 - a) % 2 ^ 32 < 2 ^ 31 then 1 else 0
  | none, some _ => 1
  | _, _ => 0

/-- The running images of a bank: KIND 1 to 4, which the boot ROM has checked. -/
def ImageStore.running (s : ImageStore) (b : Nat) : List RunImage :=
  ([1, 2, 3, 4] : List Nat).filterMap fun k => (s.imageAt b k).map fun e =>
    let h := s.header b e.1
    ⟨k, leAt h 5 1, leAt h 6 1 % 16, leAt h 8 4, leAt h 0x10 8, BitVec.ofNat 512 (leAt h 0x18 64)⟩

/-! ### Writes to the store (R451) -/

/-- A byte written; an erased byte is not listed. -/
def flashPut (t : Tbl Byte) (a : Nat) (b : Byte) : Tbl Byte := if b = 0xFF then tdel t a else tset t a b

/-- Bytes written from an address on. -/
def ImageStore.write (s : ImageStore) (a : Nat) : List Byte → ImageStore
  | [] => s
  | b :: bs => ImageStore.write ⟨flashPut s.flash a b⟩ (a + 1) bs

/-- Base and size of a DEV_FW_WRITE target while a bank runs. -/
def fwTarget (bank t : Nat) : Nat × Nat :=
  if t = 0 then (bankBase (1 - bank), bankSize) else if t = 1 then (0x3E00000, 0x100000) else (0x3F00000, 0x10000)

/-- A commit record with its check values. -/
def commitRecord (seq : Nat) (dir : List Byte) : List Byte :=
  let r := leBytes 4 0x31544D43 ++ leBytes 4 seq ++ leBytes 4 (crc32c dir).toNat
  r ++ leBytes 4 (crc32c r).toNat

/-- DEV_FW_WRITE. -/
def fwWriteCmd (_ : Ctx) (q : Req) (d : Dev) : Ans :=
  let len := (q.w 4).toNat
  let off := (q.w 5).toNat
  let t := q.f 6 1 0
  if !q.clean [(2, top32), (3, top32), (4, top32), (5, top32), (6, 3)] ∨ len < 4 ∨ len > 1048576 ∨ len % 4 ≠ 0 ∨ t > 2 then .refuse .badParam
  else if off + len > (fwTarget d.boot.bank t).2 then .refuse .badParam
  else .accept [] (.other 0x0F31 t off len) d

/-- The data of a DEV_FW_WRITE has arrived: the store with it, and the operation's end. The first write into the inactive bank since its
activation erases the commit record first. -/
def fwStore (d : Dev) (s : ImageStore) (t off : Nat) (b : List Byte) : ImageStore :=
  let base := (fwTarget d.boot.bank t).1
  let s := if t = 0 ∧ !d.boot.erased then s.write (base + 0x1000) (List.replicate 16 0xFF) else s
  s.write (base + off) b
def Dev.fwStored (d : Dev) (x : Ctx) (op t : Nat) (b : List Byte) : Dev :=
  let d := if t = 0 then { d with boot := { d.boot with erased := true } } else d
  let d := if t = 2 then d.out (.meter 16 0) else d
  d.endOp x op .ok [wd b.length]

/-- What DEV_FW_ACTIVATE finds: the new SEQ, or the status with the first failing KIND (0: no kind is to blame; log entry 33). -/
def fwCheck (x : Ctx) (d : Dev) : Except (Status × Nat) Nat :=
  let b := 1 - d.boot.bank
  if !x.store.dirOk b then .error (.badParam, 0)
  else
    match x.store.firstFault x.fuses b with
    | some (k, .form) => .error (.badParam, k)
    | some (k, .trust) => .error (.integrity, k)
    | none => .ok (((x.store.seq d.boot.bank).getD 0 + 1) % 2 ^ 32)

/-- DEV_FW_ACTIVATE. -/
def fwActivateCmd (x : Ctx) (q : Req) (d : Dev) : Ans :=
  if !q.clean [] then .refuse .badParam
  else
    match fwCheck x d with
    | .error (st, 0) =>
      let r := d.takeFree
      .both [] st [0, wd r.1] r.2
    | .error (st, k) => .both [] st [0, wd k] d
    | .ok n => .both [] .ok [wd n] { d with boot := { d.boot with erased := false } }

/-- The request of a command that has started and waits for no earlier one. -/
def Dev.startedReq (d : Dev) (c : Cmd) (op : Nat) : Option Req :=
  ((d.startedRec c op).filter fun r => !d.behind r).map fun r => ⟨r.seq, some r.fn, r.sq, r.part.getD 0, c.src, c.words, r.arrival⟩

/-- The store after DEV_FW_ACTIVATE: the inactive bank has its commit record. -/
def fwActivated (c : Cmd) (x : Ctx) (d : Dev) : ImageStore :=
  match d.startedReq c 0x0F32 with
  | none => x.store
  | some q =>
    let b := 1 - d.boot.bank
    match if q.clean [] then fwCheck x d else .error (.badParam, 0) with
    | .ok n => x.store.write (bankBase b + 0x1000) (commitRecord n (x.store.dir b))
    | .error _ => x.store

/-- DEV_FW_QUERY. Of a bank without a commit record, and of one without an image of KIND 1, the spec states no values: they are free
(log entry 5). -/
def fwQueryCmd (x : Ctx) (q : Req) (d : Dev) : Ans :=
  if !q.clean [(2, 1)] then .refuse .badParam
  else
    let b := q.f 2 0 0
    let a := match x.store.seq b with
      | some n => (n, d)
      | none => d.takeFree
    let v := a.2.takeFree
    let s := v.2.takeFree
    let ok : Word := if x.store.valid x.fuses b then 1 else 0
    match if x.store.dirOk b then x.store.imageAt b 1 else none with
    | some (off, _) =>
      let h := x.store.header b off
      .done .ok [wd a.1, ok, wd (leAt h 8 4), wd (leAt h 0x10 4)] a.2
    | none => .done .ok [wd a.1, ok, wd v.1, wd s.1] s.2

/-- The SVN floors after DEV_SVN_COMMIT, in fields of 64 bits (R445). -/
def svnFloors (d : Dev) (f : Fuses) : List Nat :=
  (List.range 4).map fun i => max ((f.floors[i]?).getD 0) (min 64 ((d.image (i + 1)).elim 0 RunImage.svn))

/-- The roots that a running image revokes and that sign none. -/
def svnRoots (d : Dev) : List Nat :=
  (List.range 4).filter fun r => (d.boot.images.any fun i => bitAt i.revoke r) && !(d.boot.images.any fun i => i.root == r)

/-- The fuses after DEV_SVN_COMMIT. -/
def Fuses.svn (f : Fuses) (d : Dev) : Fuses :=
  { f with
    floors := svnFloors d f
    roots := f.roots.mapIdx fun i r => if (svnRoots d).contains i then (r.1, r.2.1, true) else r }

/-- DEV_SVN_COMMIT: bit KIND − 1 of RESULT0 for each floor raised, and the roots newly revoked (log entry 33). -/
def svnCommitCmd (x : Ctx) (q : Req) (d : Dev) : Ans :=
  if !q.clean [] then .refuse .badParam
  else if d.boot.fallback then .refuse .notPermitted
  else
    let up := nsum ((List.range 4).map fun i => if (x.fuses.floors[i]?).getD 0 < ((svnFloors d x.fuses)[i]?).getD 0 then 2 ^ i else 0)
    let rev := nsum ((svnRoots d).map fun r => if (x.fuses.roots[r]?).elim false fun (e : BitVec 512 × Bool × Bool) => !e.2.2 then 2 ^ r else 0)
    .done .ok [wd up, wd rev] d

/-- The fuses after the command: burnt where it starts and is not refused. -/
def svnFuses (c : Cmd) (x : Ctx) (d : Dev) : Fuses :=
  match d.startedReq c 0x0F34 with
  | some q => if q.clean [] && !d.boot.fallback then x.fuses.svn d else x.fuses
  | none => x.fuses

def effDevFwWrite (c : Cmd) (s : State) : Host.Outcome State Fault Refusal := hostCmd 0x0F31 c fwWriteCmd s
def effDevFwActivate (c : Cmd) (s : State) : Host.Outcome State Fault Refusal :=
  .next (if s.clock.power then
    { s with store := fwActivated c s.ctx s.dev, dev := runCmd 0x0F32 c fwActivateCmd s.ctx s.dev } else s)
def effDevFwQuery (c : Cmd) (s : State) : Host.Outcome State Fault Refusal := hostCmd 0x0F33 c fwQueryCmd s
def effDevSvnCommit (c : Cmd) (s : State) : Host.Outcome State Fault Refusal :=
  .next (if s.clock.power then
    { s with fuses := svnFuses c s.ctx s.dev, dev := runCmd 0x0F34 c svnCommitCmd s.ctx s.dev } else s)

end Sys2Proof.Machine
end

