-- ==== Sys2Proof/Machine/Pan.lean ====
section
/-! DEFINITION. Panicle: indexes, epochs, updates, queries and sharded queries (R337-R354). -/

namespace Sys2Proof.Machine

/-! ### FP32 division and square root, rounded to nearest (log entry 27) -/

/-- a / b, one rounding. A quotient by zero saturates (R191); zero by zero is no NaN (R193), and otherwise a free value (log entry 27). -/
def f32Div (a b : F32) : F32 :=
  match f32Val a, f32Val b with
  | .num s m e, .num t n f =>
    if n = 0 then
      if m = 0 then
        match f32Val (Config.zeroByZero a b) with
        | .nan => 0
        | v => f32OfFv v
      else BitVec.ofNat 32 (top32f + if s != t then 2 ^ 31 else 0)
    else
      let q := m * 2 ^ 64 / n
      f32Of (s != t) (2 * q + if m * 2 ^ 64 % n = 0 then 0 else 1) (e - f - 65)
  | _, _ => nan32

/-- The square root of a number that is not negative, one rounding. -/
def f32Sqrt (a : F32) : F32 :=
  match f32Val a with
  | .num s m e =>
    if m = 0 then 0
    else if s then nan32
    else
      let odd := Int.fmod e 2 = 1
      let n := (if odd then 2 * m else m) * 2 ^ 64
      let g := (if odd then e - 1 else e) - 64
      let r := isqrtBits n 70 0
      f32Of false (2 * r + if r * r = n then 0 else 1) (Int.fdiv g 2 - 1)
  | .nan => nan32

/-- Whether a distance is less than another; a NaN is the farthest. -/
def distLt (a b : F32) : Bool :=
  match f32Val a, f32Val b with
  | .nan, _ => false
  | _, .nan => true
  | x, y => fvLe x y && !fvLe y x

/-- Nearer by distance, then by the lower number (R340). -/
def nearer (a : F32) (n : Nat) (b : F32) (m : Nat) : Bool := distLt a b || (!distLt b a && n < m)

/-- A sum in FP32 by the pairwise tree (R198). -/
def f32Sum (l : List F32) : F32 := ((pairTree f32Add 13 l).head?).getD 0

/-- Inner product, and the Euclidean norm, of vectors of FP32. -/
def f32Dot (a b : List F32) : F32 := f32Sum (List.zipWith f32Mul a b)
def f32Norm (a : List F32) : F32 := f32Sqrt (f32Dot a a)

/-- A negation; the NaN stays canonical (R193). -/
def f32Neg (a : F32) : F32 :=
  match f32Val a with
  | .nan => nan32
  | .num s m e => f32Of (!s) m e

/-- The distance of a stored vector from a query (R340). -/
def panDist (metric : Nat) (q : List F32) (v : List F32) (norm : F32) : F32 :=
  match metric with
  | 0 => f32Neg (f32Dot q v)
  | 1 =>
    let qn := f32Norm q
    let zero (x : F32) : Bool := x &&& 0x7FFFFFFF#32 == 0
    if zero qn || zero norm then 0x3F800000#32 else f32Add 0x3F800000#32 (f32Neg (f32Div (f32Dot q v) (f32Mul qn norm)))
  | _ =>
    let df := List.zipWith (fun x y => f32Add x (y ^^^ 0x80000000#32)) q v
    f32Dot df df

/-! ### Records (R339) -/

/-- Bytes of an item record, its first byte's buffer offset, and the bytes of the whole index. -/
def PanIndex.rb (i : PanIndex) : Nat := 64 * ((64 + 4 * i.degree + vecBytes i.fmt i.dims + 63) / 64)
def PanIndex.at_ (i : PanIndex) (n : Nat) : Nat := i.first * 2097152 + 4096 + n * i.rb
def PanIndex.bytes (i : PanIndex) : Nat := 4096 + i.cap * i.rb

/-- An item record (R339). -/
structure PanItem where
  key : Nat
  attr : Nat
  ins : Nat
  del : Nat
  norm : F32
  used : Bool
  nbrs : List Nat
  vec : List F32
deriving DecidableEq, Repr

/-- The record in its bytes. -/
def PanIndex.item (i : PanIndex) (b : List Byte) : PanItem :=
  ⟨leAt b 0 8, leAt b 8 8, leAt b 0x10 8, leAt b 0x18 8, wd (leAt b 0x20 4), bitAt (leAt b 0x26 2) 0,
    (List.range (min i.degree (leAt b 0x24 2))).map fun k => leAt b (0x40 + 4 * k) 4,
    (vecVals i.fmt i.dims (b.drop (0x40 + 4 * i.degree))).map f32OfFv⟩

/-- The bytes of a record. -/
def PanIndex.record (i : PanIndex) (t : PanItem) (stored : List Byte) : List Byte :=
  padTo i.rb (leBytes 8 t.key ++ leBytes 8 t.attr ++ leBytes 8 t.ins ++ leBytes 8 t.del ++ leBytes 4 t.norm.toNat ++ leBytes 2 t.nbrs.length ++
    leBytes 2 (if t.used then 1 else 0) ++ List.replicate 24 0 ++
    (t.nbrs.flatMap (leBytes 4) ++ List.replicate (4 * (i.degree - t.nbrs.length)) 0xFF) ++ stored)

/-- Item n, or none where its record reads poisoned (R349). -/
def Dev.panItem (d : Dev) (i : PanIndex) (n : Nat) : Option PanItem :=
  match d.bufRead i.part (i.at_ n) i.rb with
  | some (b, false) => some (i.item b)
  | _ => none

/-- The header (R339). -/
def PanIndex.header (i : PanIndex) : List Byte :=
  leBytes 4 0x31584E50 ++ leBytes 2 i.dims ++ leBytes 1 i.fmt ++ leBytes 1 i.metric ++ leBytes 1 i.degree ++ [0, 0, 0] ++ leBytes 4 i.rb ++
    leBytes 4 i.cap ++ leBytes 4 i.entry ++ leBytes 8 i.epoch ++ leBytes 8 i.floor ++ leBytes 4 i.live ++ leBytes 4 i.tombs

/-- An index with its header written. -/
def Dev.setIdx (d : Dev) (x : Ctx) (h : Nat) (i : PanIndex) : Dev :=
  let d := (d.bufWrite x i.part (i.first * 2097152) i.header).getD d
  { d with pan := { d.pan with idx := tset d.pan.idx h i } }

/-- Replaces fields of an index that its header does not hold. -/
def Dev.modIdx (d : Dev) (h : Nat) (f : PanIndex → PanIndex) : Dev := { d with pan := { d.pan with idx := tmod d.pan.idx h f } }

/-- A part of the buffer space that Panicle reads: why it cannot, or its bytes (R337, R384, R422). Where a unit shuts its bytes out the
caller waits for it (R143). -/
def Dev.panRead (d : Dev) (p off len : Nat) : Except Status (List Byte) :=
  if d.bufSealed p off len then .error .notPermitted
  else
    match d.bufRead p off len with
    | none => .error .badParam
    | some (b, bad) => if bad then .error .integrity else .ok b

/-- Whether a program runs beside a COMPUTE region that a range of the buffer space lies in. -/
def Dev.bufShut (d : Dev) (p off len : Nat) : Bool := (d.runAddrs p off len).any fun r => (gransOf r.1 r.2).any fun g => d.unitBusy (granAddr g)

/-- Whether a granule of an index lies in a COMPUTE region; in copy, or unreached by a checkpoint. -/
def Dev.idxBusy (d : Dev) (i : PanIndex) : Bool :=
  (runExts i.first i.count).any fun e => (d.extGrans i.part e).any fun g => d.computeAt (granAddr g)
def Dev.idxHeld (d : Dev) (i : PanIndex) : Bool :=
  (runExts i.first i.count).any fun e => d.mem.unreached.contains (bufKey i.part e) || (d.extGrans i.part e).any fun g => thas d.mem.copying g

/-! ### The search (R342, R346-R349) -/

/-- A candidate of the queue: distance, item, and whether it has not been expanded. -/
structure Cand where
  dist : F32
  item : Nat
  open_ : Bool
deriving DecidableEq, Repr

/-- A search: queue size, queue, visited items, results, items scored, records found poisoned. -/
structure PanSearch where
  l : Nat
  queue : List Cand
  visited : List Nat
  hits : List PanHit
  scored : Nat
  poison : Nat
deriving DecidableEq, Repr

/-- A candidate in its place in the queue. -/
def insCand (c : Cand) : List Cand → List Cand
  | [] => [c]
  | e :: l => if nearer c.dist c.item e.dist e.item then c :: e :: l else e :: insCand c l

/-- A result in its place. -/
def insHit (c : PanHit) : List PanHit → List PanHit
  | [] => [c]
  | e :: l => if nearer c.dist c.item e.dist e.item then c :: e :: l else e :: insHit c l

/-- An item met for the first time: scored where it is USED and clean, queued, and kept as a result where `ok` takes it. -/
def PanSearch.meet (d : Dev) (i : PanIndex) (q : List F32) (k : Nat) (ok : PanItem → Bool) (s : PanSearch) (n : Nat) : PanSearch :=
  if s.visited.contains n ∨ n ≥ i.cap ∨ s.visited.length ≥ 32768 then s
  else
    let s := { s with visited := n :: s.visited }
    match d.panItem i n with
    | none => { s with poison := s.poison + 1 }
    | some t =>
      if !t.used then s
      else
        let dist := panDist i.metric q t.vec t.norm
        { s with
          queue := (insCand ⟨dist, n, true⟩ s.queue).take s.l
          hits := if ok t then (insHit ⟨dist, 0, n, t.key⟩ s.hits).take k else s.hits
          scored := s.scored + 1 }

/-- The nearest unexpanded candidate nearer than the L-th of the queue. -/
def PanSearch.next (s : PanSearch) : Option Cand := (if s.queue.length < s.l then s.queue else s.queue.take (s.l - 1)).find? Cand.open_

/-- The loop of R346: it expands, widens up to w, and stops with k results or a full visited set. -/
def PanSearch.run (d : Dev) (i : PanIndex) (q : List F32) (k w : Nat) (ok : PanItem → Bool) : Nat → PanSearch → PanSearch
  | 0, s => s
  | f + 1, s =>
    if s.visited.length ≥ 32768 then s
    else
      match s.next with
      | some c =>
        let s := { s with queue := s.queue.map fun e => if e.item = c.item then { e with open_ := false } else e }
        let ns := (d.panItem i c.item).elim [] PanItem.nbrs
        PanSearch.run d i q k w ok f (ns.foldl (PanSearch.meet d i q k ok) s)
      | none => if s.hits.length = k ∨ s.l ≥ w then s else PanSearch.run d i q k w ok f { s with l := min (2 * s.l) w }

/-- A search from ENTRY, which is met like any other item (log entry 28). -/
def Dev.search (d : Dev) (i : PanIndex) (q : List F32) (k l w : Nat) (ok : PanItem → Bool) : PanSearch :=
  let s : PanSearch := ⟨l, [], [], [], 0, 0⟩
  if i.entry = 0xFFFFFFFF then s else PanSearch.run d i q k w ok 65536 (PanSearch.meet d i q k ok s i.entry)

/-- Visible to a snapshot (R342), and passing a filter (R346). -/
def PanItem.seen (t : PanItem) (snap : Nat) : Bool := t.used && t.ins ≤ snap && (t.del == 0 || t.del > snap)
def PanItem.passes (t : PanItem) (all_ none_ any_ : Nat) : Bool :=
  t.attr &&& all_ == all_ && t.attr &&& none_ == 0 && (any_ == 0 || t.attr &&& any_ != 0)

/-! ### Updates (R341, R343-R345) -/

/-- select() of R343 over candidates (item, record) for an owner's vector. -/
def selectLoop (i : PanIndex) : List (Nat × F32 × PanItem) → List (Nat × PanItem) → List Nat
  | [], kept => kept.map Prod.fst
  | (n, dist, t) :: l, kept =>
    if kept.length = i.degree then kept.map Prod.fst
    else if kept.all fun x => !distLt (panDist i.metric x.2.vec t.vec t.norm) dist then selectLoop i l (kept ++ [(n, t)])
    else selectLoop i l kept
def insNear (c : Nat × F32 × PanItem) : List (Nat × F32 × PanItem) → List (Nat × F32 × PanItem)
  | [] => [c]
  | e :: l => if nearer c.2.1 c.1 e.2.1 e.1 then c :: e :: l else e :: insNear c l
def Dev.select (d : Dev) (i : PanIndex) (owner : List F32) (cands : List Nat) : List Nat :=
  let cs := cands.filterMap fun n => (d.panItem i n).map fun t => (n, panDist i.metric owner t.vec t.norm, t)
  selectLoop i (cs.foldl (fun (l : List (Nat × F32 × PanItem)) (c : Nat × F32 × PanItem) => insNear c l) []) []

/-- A neighbour list written as one write. -/
def Dev.setNbrs (d : Dev) (x : Ctx) (i : PanIndex) (n : Nat) (l : List Nat) : Dev :=
  let d := (d.bufWrite x i.part (i.at_ n + 0x24) (leBytes 2 l.length)).getD d
  (d.bufWrite x i.part (i.at_ n + 0x40) (l.flatMap (leBytes 4) ++ List.replicate (4 * (i.degree - l.length)) 0xFF)).getD d

/-- The first `need` item numbers from n on that are not USED. -/
def Dev.freeItems (d : Dev) (i : PanIndex) : Nat → Nat → Nat → List Nat
  | 0, _, _ => []
  | _, _, 0 => []
  | f + 1, n, need + 1 =>
    if (d.panItem i n).elim true PanItem.used then d.freeItems i f (n + 1) (need + 1) else n :: d.freeItems i f (n + 1) need

/-- One item of PAN_INSERT linked into the graph; the index's ENTRY may change. -/
def Dev.insertOne (d : Dev) (x : Ctx) (i : PanIndex) (n : Nat) (inp : List Byte) : PanIndex × Dev :=
  let stored := vecStore i.fmt i.dims ((List.range i.dims).map fun k => f32Val (wd (leAt inp (16 + 4 * k) 4)))
  let v := (vecVals i.fmt i.dims stored).map f32OfFv
  let s := d.search i v 0 i.efBuild i.efBuild fun _ => false
  let d := if s.poison = 0 then d else d.bumpPart i.part 0x0B0014 s.poison
  let c := s.queue.map Cand.item
  let ns := d.select i v c
  let t : PanItem := ⟨leAt inp 0 8, leAt inp 8 8, i.epoch + 1, 0, f32Norm v, true, ns, v⟩
  let d := (d.bufWrite x i.part (i.at_ n) (i.record t stored)).getD d
  let d := ns.foldl (fun (d : Dev) m =>
    match d.panItem i m with
    | none => d
    | some u => d.setNbrs x i m (d.select i u.vec (u.nbrs ++ [n]))) d
  ({ i with entry := if i.entry = 0xFFFFFFFF then n else i.entry }, d)

/-- The items of PAN_INSERT in input order. -/
def Dev.insertAll (d : Dev) (x : Ctx) (i : PanIndex) : List Nat → List Byte → PanIndex × Dev
  | [], _ => (i, d)
  | n :: ns, inp =>
    let r := d.insertOne x i n inp
    r.2.insertAll x r.1 ns (inp.drop (16 + 4 * i.dims))

/-- PAN_DELETE of item numbers: the number deleted. -/
def Dev.deleteAll (d : Dev) (x : Ctx) (i : PanIndex) : List Nat → Nat × Dev
  | [] => (0, d)
  | n :: ns =>
    match if n < i.cap then d.panItem i n else none with
    | none => d.deleteAll x i ns
    | some t =>
      if !t.used ∨ t.del ≠ 0 then d.deleteAll x i ns
      else
        let r := ((d.bufWrite x i.part (i.at_ n + 0x18) (leBytes 8 (i.epoch + 1))).getD d).deleteAll x i ns
        (r.1 + 1, r.2)

/-- The USED items with their records. -/
def Dev.usedItems (d : Dev) (i : PanIndex) : List (Nat × PanItem) :=
  (List.range i.cap).filterMap fun n =>
    match d.panItem i n with
    | some t => if t.used then some (n, t) else none
    | none => none

/-- The removal of PAN_COMPACT (R345): the items removed, with the index's new ENTRY. -/
def Dev.compactAll (d : Dev) (x : Ctx) (i : PanIndex) (ec : Nat) : Nat × PanIndex × Dev :=
  let us := d.usedItems i
  let gone := (us.filter fun t => 0 < t.2.del && t.2.del ≤ ec)
  let isGone (n : Nat) : Bool := gone.any fun g => g.1 == n
  let left := us.filter fun t => !isGone t.1
  let d' := left.foldl (fun (e : Dev) t =>
    if t.2.nbrs.any isGone then
      let keep := t.2.nbrs.filter fun n => !isGone n
      let more := (t.2.nbrs.filter isGone).flatMap fun n => (gone.find? fun g => g.1 == n).elim [] fun g => g.2.nbrs.filter fun m => !isGone m && m != t.1
      e.setNbrs x i t.1 (d.select i t.2.vec (keep ++ more).dedup)
    else e) d
  let d' := gone.foldl (fun (e : Dev) g => (e.bufWrite x i.part (i.at_ g.1 + 0x26) [0, 0]).getD e) d'
  let entry :=
    if !isGone i.entry then i.entry
    else
      let ns := ((gone.find? fun g => g.1 == i.entry).elim [] fun g => g.2.nbrs).filter fun n => !isGone n
      let ev := ((gone.find? fun g => g.1 == i.entry).elim [] fun g => g.2.vec)
      let cs := ns.filterMap fun n => (d.panItem i n).map fun t => (n, panDist i.metric ev t.vec t.norm, t)
      match cs.foldl (fun (l : List (Nat × F32 × PanItem)) (c : Nat × F32 × PanItem) => insNear c l) [] with
      | c :: _ => c.1
      | [] => (left.head?).elim 0xFFFFFFFF Prod.fst
  (gone.length, { i with entry := entry }, d')

/-- A final reply of Panicle. -/
def Dev.endPan (d : Dev) (x : Ctx) (op : Nat) (st : Status) (res : List Word) : Dev := (d.endOp x op st res).drainEnd (drainId 11 (2 * op + 1))

/-- The updates of an index after the first one has ended, and a destroy that nothing holds any more (R354). -/
def Dev.panNext (d : Dev) (x : Ctx) (h : Nat) : Dev :=
  match tget d.pan.idx h with
  | none => d
  | some i =>
    match i.destroy with
    | some op =>
      if i.updates.isEmpty && d.pan.queries.all fun q => q.index != h then
        { d with pan := { d.pan with idx := tdel d.pan.idx h } }.endOp x op .ok []
      else d
    | none =>
      match i.updates with
      | u :: us =>
        if u.kind = 2 ∧ u.ec.isNone then d.setIdx x h { i with floor := i.epoch, updates := { u with ec := some i.epoch } :: us } else d
      | [] => d

/-- The first update of an index ends. -/
def Dev.updateEnd (d : Dev) (x : Ctx) (h : Nat) (st : Status) (res : List Word) : Dev :=
  match tget d.pan.idx h with
  | none => d
  | some i =>
    match i.updates with
    | [] => d
    | u :: us => ((d.modIdx h fun i => { i with updates := us }).endPan x u.op st res).panNext x h

/-- COMPACT_RESUME: no query with an older snapshot runs (R345). -/
def compactResume (h : Nat) (_ : Ctx) (d : Dev) : Dev :=
  match tget d.pan.idx h with
  | none => d
  | some i =>
    match i.updates with
    | ⟨op, 2, a, b, c, some ec⟩ :: us =>
      if d.pan.queries.any fun q => q.index == h && q.running && q.snap < ec then d
      else d.modIdx h fun i => { i with updates := ⟨op, 3, a, b, c, some ec⟩ :: us }
    | _ => d

/-- The ranges that an update's input lies in. -/
def Dev.updateRanges (d : Dev) (i : PanIndex) (u : PanUpdate) : List (Nat × Nat) :=
  if u.kind = 0 then d.runAddrs i.part u.off (u.count * (16 + 4 * i.dims)) else if u.kind = 1 then d.runAddrs i.part u.off (4 * u.count) else []

/-- UPDATE_COMPLETE: the running update writes what it changes and raises EPOCH (R341). It waits while an extent of the index is in
copy or unreached by a checkpoint, and while a program shuts out its input; an index that reaches into a COMPUTE region takes no write
(R143). -/
def updateDone (h : Nat) (x : Ctx) (d : Dev) : Dev :=
  match tget d.pan.idx h with
  | none => d
  | some i =>
    match i.updates with
    | [] => d
    | u :: _ =>
      if d.idxHeld i then d
      else if d.idxBusy i then d.updateEnd x h .regionBusy []
      else
        match d.reach x .panicle (13, h) (d.updateRanges i u) with
        | (.wait, d) => d
        | (.busy, d) => d.updateEnd x h .regionBusy []
        | (.go, d) => match u.kind with
        | 0 =>
          match d.panRead i.part u.off (u.count * (16 + 4 * i.dims)) with
          | .error st => d.updateEnd x h st []
          | .ok inp =>
            let ns := d.freeItems i i.cap 0 u.count
            if ns.length < u.count then d.updateEnd x h .noResource []
            else
              match d.bufWrite x i.part u.out (ns.flatMap (leBytes 4)) with
              | none => d.updateEnd x h .badParam []
              | some d =>
                let r := d.insertAll x i ns inp
                let j : PanIndex := { r.1 with epoch := i.epoch + 1, live := i.live + u.count }
                ((r.2.tapAdd i.part 7 inp.length).setIdx x h j).updateEnd x h .ok [wd u.count, loW j.epoch, hiW j.epoch]
        | 1 =>
          match d.panRead i.part u.off (4 * u.count) with
          | .error st => d.updateEnd x h st []
          | .ok b =>
            let r := d.deleteAll x i ((List.range u.count).map fun k => leAt b (4 * k) 4)
            let j : PanIndex := { i with epoch := i.epoch + 1, live := i.live - r.1, tombs := i.tombs + r.1 }
            ((r.2.tapAdd i.part 7 b.length).setIdx x h j).updateEnd x h .ok [wd r.1, wd (u.count - r.1), loW j.epoch, hiW j.epoch]
        | 3 =>
          let r := d.compactAll x i (u.ec.getD 0)
          let j : PanIndex := { r.2.1 with epoch := i.epoch + 1, tombs := i.tombs - r.1 }
          (r.2.2.setIdx x h j).updateEnd x h .ok [wd r.1, loW j.floor, hiW j.floor]
        | _ => d

/-! ### Sharded queries (R351-R353) -/

/-- A hit's place in a merge (R353). -/
def insMerge (c : PanHit) : List PanHit → List PanHit
  | [] => [c]
  | e :: l =>
    if distLt c.dist e.dist || (!distLt e.dist c.dist && (c.entry < e.entry || (c.entry == e.entry && c.item < e.item))) then c :: e :: l
    else e :: insMerge c l

/-- The bytes of result entries (R350). -/
def hitBytes (l : List PanHit) : List Byte := l.flatMap fun h => leBytes 8 h.key ++ leBytes 4 h.item ++ leBytes 4 h.dist.toNat

/-- The coverage figure (R348); with LIVE 0 the spec states no value, and it is free (log entry 5). -/
def Dev.coverage (d : Dev) (scored live : Nat) : Nat × Dev :=
  if live = 0 then
    let r := d.takeFree
    (r.1 % 65536, r.2)
  else (min 65535 (scored * 65536 / live), d)

/-- A sharded query whose entries have all answered, or whose time has passed, ends (R353). -/
def Dev.shardEnd (d : Dev) (x : Ctx) (tag : Nat) : Dev :=
  match tget d.pan.shards tag with
  | none => d
  | some s =>
    let d := { d with pan := { d.pan with shards := tdel d.pan.shards tag, queries := d.pan.queries.filter fun (q : PanQuery) => q.src != PanSrc.shard tag } }
    let hs := (s.hits.foldl (fun l c => insMerge c l) []).take s.k
    let c := d.coverage s.scored s.live
    let d := c.2.bumpPart s.part 0x0B0018 s.missed
    if d.bufCompute s.part s.out (16 * hs.length) then d.endPan x s.op .regionBusy []
    else
      match d.bufWrite x s.part s.out (hitBytes hs) with
      | none => d.endPan x s.op .badParam []
      | some d =>
        let short := hs.length < s.k || s.missed != 0 || s.short != 0
        let d := if short then d.bumpPart s.part 0x0B0008 1 else d
        d.endPan x s.op (if short then .shortResult else .ok) [wd hs.length, wd c.1, wd s.answered, wd s.short]

/-- A partial taken for a group entry, or the entry given up. -/
def Dev.shardTake (d : Dev) (x : Ctx) (tag entry : Nat) (got : Option (List PanHit × Nat × Nat × Bool)) : Dev :=
  match tget d.pan.shards tag with
  | none => d
  | some s =>
    if !s.waiting.contains entry then d
    else
      let s := { s with waiting := s.waiting.filter (· != entry) }
      let s := match got with
        | none => { s with missed := s.missed + 1 }
        | some (hs, sc, lv, sh) =>
          { s with
            hits := s.hits ++ hs.map fun h => { h with entry := entry }
            scored := s.scored + sc
            live := s.live + lv
            answered := s.answered + 1
            short := s.short + if sh then 1 else 0 }
      let d := { d with pan := { d.pan with shards := tset d.pan.shards tag s } }
      if s.waiting.isEmpty then d.shardEnd x tag else d

/-- PARTIAL_LIST_ARRIVAL: the message that an EWR of a sharded query took (R351, R352). -/
def partialIn (tag entry : Nat) (msg : List Byte) (x : Ctx) (d : Dev) : Dev :=
  match tget d.pan.shards tag with
  | none => d
  | some s =>
    let n := (s.table[entry]?).elim 0 Prod.fst
    if n = 0 ∨ (d.ewr n tag).isNone ∨ !s.waiting.contains entry then d
    else
      let d := d.dropEwr n tag
      let c := leAt msg 8 2
      if leAt msg 0 4 ≠ 0x31524E50 ∨ leAt msg 4 4 ≠ tag ∨ leAt msg 20 2 ≠ s.dims ∨ leAt msg 22 1 ≠ s.fmt ∨ leAt msg 23 1 ≠ s.metric then
        d.shardTake x tag entry none
      else
        let hs := (List.range (min c s.k)).map fun k =>
          let b := (msg.drop (64 + 16 * k)).take 16
          (⟨wd (leAt b 12 4), 0, leAt b 8 4, leAt b 0 8⟩ : PanHit)
        d.shardTake x tag entry (some (hs, leAt msg 12 4, leAt msg 16 4, leAt msg 10 2 == Status.shortResult.code))

/-- Every entry of a sharded query that has not answered, given up with its EWR withdrawn. -/
def Dev.shardGiveUp (d : Dev) (x : Ctx) (tag : Nat) : List (Nat × Nat) → Dev
  | [] => d
  | (e, n) :: l => ((if n = 0 then d else d.withdrawEwr x n tag).shardTake x tag e none).shardGiveUp x tag l

/-- The entries of a sharded query that wait, with their queue pairs. -/
def PanShard.open_ (s : PanShard) : List (Nat × Nat) := s.waiting.map fun e => (e, (s.table[e]?).elim 0 Prod.fst)

/-- SHARD_TIMEOUT. -/
def shardTimeout (tag : Nat) (x : Ctx) (d : Dev) : Dev :=
  match tget d.pan.shards tag with
  | none => d
  | some s => if x.now < s.until_ then d else d.shardGiveUp x tag s.open_

/-! ### Queries (R346, R350) -/

/-- The queries that run on a die (PAN_INFLIGHT). -/
def Dev.panRunning (d : Dev) (die : Nat) : Nat := (d.pan.queries.filter fun q => q.die == die && q.running).length

/-- The ranges that a query has read: a command's vector, and the records of the items that it has met. -/
def Dev.queryRanges (d : Dev) (q : PanQuery) (i : PanIndex) (s : PanSearch) : List (Nat × Nat) :=
  (q.inp.elim [] fun o => d.runAddrs q.part o (4 * i.dims)) ++ s.visited.flatMap fun n => d.runAddrs i.part (i.at_ n) i.rb

/-- The end of a query without results, or with them. -/
def Dev.queryOut (d : Dev) (x : Ctx) (q : PanQuery) (i : PanIndex) (st : Status) (hs : List PanHit) (scored : Nat) : Dev :=
  let d := { d with pan := { d.pan with queries := d.pan.queries.filter fun e => e.id != q.id } }.drainEnd (drainId 11 (2 * q.id))
  let d := if st = .shortResult then d.bumpPart q.part 0x0B0008 1 else d
  (match q.src with
    | .cmd op =>
      if st ≠ Status.ok ∧ st ≠ Status.shortResult then d.endPan x op st []
      else if d.bufCompute q.part q.out (16 * hs.length) then d.endPan x op .regionBusy []
      else
        match d.bufWrite x q.part q.out (hitBytes hs) with
        | none => d.endPan x op .badParam []
        | some d =>
          let c := d.coverage scored q.live
          c.2.endPan x op st [wd hs.length, wd c.1, loW q.snap, hiW q.snap]
    | .shard tag =>
      let e := (tget d.pan.shards tag).elim 0 fun s => ((s.open_.find? fun (o : Nat × Nat) => o.2 == 0).elim 0 Prod.fst)
      d.shardTake x tag e (if st = Status.ok ∨ st = Status.shortResult then some (hs, scored, q.live, st == Status.shortResult) else none)
    | .remote n tag =>
      let msg := leBytes 4 0x31524E50 ++ leBytes 4 tag ++ leBytes 2 hs.length ++ leBytes 2 st.code ++ leBytes 4 scored ++ leBytes 4 q.live ++
        leBytes 2 i.dims ++ leBytes 1 i.fmt ++ leBytes 1 i.metric ++ leBytes 8 q.snap ++ List.replicate 32 0 ++ hitBytes hs
      (d.netPost x .panicle q.part n 1 msg 0 0 (wd tag)).getD d).panNext x q.index

/-- QUERY_ADMIT: the oldest query that waits at a die's instance starts while fewer than 256 run (R350); its snapshot and LIVE are
taken (R342, R348). -/
def queryAdmit (die : Nat) (x : Ctx) (d : Dev) : Dev :=
  if d.panRunning die ≥ 256 then d
  else
    match d.pan.queries.find? fun q => q.die == die && !q.running with
    | none => d
    | some q =>
      match tget d.pan.idx q.index with
      | none => d
      | some i =>
        let snap := if q.snap = 0 then i.epoch else q.snap
        let q' := { q with snap := snap, live := i.live, running := true }
        if snap < i.floor ∨ snap > i.epoch then d.queryOut x q' i .badParam [] 0
        else { d with pan := { d.pan with queries := d.pan.queries.map fun e => if e.id = q.id then q' else e } }

/-- QUERY_COMPLETE: the traversal over the records as they stand (R346; log entry 28). It waits where a program shuts out what it reads, and
ends with REGION_BUSY after 4 µs (R143, R337). -/
def queryDone (die id : Nat) (x : Ctx) (d : Dev) : Dev :=
  match d.pan.queries.find? fun q => q.id == id && q.die == die && q.running with
  | none => d
  | some q =>
    match tget d.pan.idx q.index with
    | none => d
    | some i =>
      let s := d.search i q.vec q.k (max q.ef q.k) q.w fun t => t.seen q.snap && t.passes q.all_ q.none_ q.any_
      match d.reach x .panicle (12, q.id) (d.queryRanges q i s) with
      | (.wait, d) => d
      | (.busy, d) => d.queryOut x q i .regionBusy [] 0
      | (.go, d) =>
        let d := (d.bumpPart q.part 0x0B0014 s.poison).bumpPart q.part 0x0B000C (if s.visited.length ≥ 32768 then 1 else 0)
        let n := s.scored * i.rb
        let d := (d.chargePart q.part 0 n).tapAdd q.part 7 n
        d.queryOut x q i (if s.hits.length = q.k then .ok else .shortResult) s.hits s.scored

/-- A query put in the queue of its index's die. -/
def Dev.addQuery (d : Dev) (q : PanQuery) : Dev :=
  { d with pan := { d.pan with queries := d.pan.queries ++ [{ q with id := d.pan.nextQ }], nextQ := d.pan.nextQ + 1 } }

/-- FP32 values of a byte string. -/
def f32List (n : Nat) (b : List Byte) : List F32 := (List.range n).map fun k => wd (leAt b (4 * k) 4)

/-- QUERY_MESSAGE_ARRIVAL: a query message in an SRQ that an index listens on (R351). -/
def queryMsg (qpn srq : Nat) (msg : List Byte) (_ : Ctx) (d : Dev) : Dev :=
  match d.qp qpn with
  | none => d
  | some q =>
    match d.pan.idx.find? fun i => i.2.part == q.part && i.2.listen == some srq && i.2.destroy.isNone with
    | none => d
    | some (h, i) =>
      let k := leAt msg 8 2
      let w := leAt msg 12 2
      let ef := leAt msg 10 2
      if q.srq ≠ some srq ∨ leAt msg 0 4 ≠ 0x31514E50 ∨ msg.length ≠ 64 + 4 * i.dims ∨ k = 0 ∨ k > 1024 ∨ ef > 1024 ∨ w > 1024 then d
      else
        d.addQuery ⟨0, i.die, i.part, h, k, if ef = 0 then i.ef else ef, if w = 0 then min (4 * k) 1024 else w, f32List i.dims (msg.drop 64), 0, 0,
          leAt msg 16 8, leAt msg 24 8, leAt msg 32 8, 0, .remote qpn (leAt msg 4 4), false, none⟩

/-! ### Opcodes (R354) -/

/-- The index a command names, of its own partition. -/
def Dev.ownIdx (d : Dev) (q : Req) : Option (Nat × PanIndex) :=
  let h := q.f 2 15 0
  match tget d.pan.idx h with
  | some i => if i.part = q.part ∧ i.destroy.isNone then some (h, i) else none
  | none => none

/-- A buffer offset in two words. -/
def Req.boff (q : Req) (n : Nat) : Nat := bufOff (q.w n).toNat (q.f (n + 1) 7 0)

/-- PAN_INDEX_CREATE (R337-R339). The records start with no item USED (log entry 28). -/
def idxCreate (x : Ctx) (q : Req) (d : Dev) : Ans :=
  let p := q.part
  let first := q.first
  let count := (q.w 3).toNat
  let es := runExts first count
  let dims := q.f 4 12 0
  let fmt := q.f 4 23 16
  let deg := q.f 5 6 0
  let efb := q.f 5 26 16
  let cap := (q.w 6).toNat
  let ef := q.f 7 10 0
  let die := ((d.buf p first).elim 0 fun b => stackDie (stackOf b.base))
  let i : PanIndex := ⟨p, die, first, count, dims, fmt, q.f 4 25 24, deg, if efb = 0 then 128 else efb, cap, if ef = 0 then 64 else ef,
    0xFFFFFFFF, 1, 0, 0, 0, none, [], none⟩
  let inGran (g : Nat) : Bool := stackDie (stackOf (granAddr g)) == die && !d.computeAt (granAddr g)
  if !q.clean [(2, 0x7FFFF), (3, top32), (4, 0x3FF1FFF), (5, 0x7FF007F), (6, top32), (7, 0x7FF)] ∨ !runOk first count ∨ dims = 0 ∨ dims > 4096 ∨
      !([0x21, 0x20, 0x01, 0x02, 0x06, 0x05] : List Nat).contains fmt ∨ (fmt < 0x10 ∧ dims % 32 ≠ 0) ∨ q.f 4 25 24 = 3 ∨ deg < 4 ∨ deg > 64 ∨
      i.efBuild < 16 ∨ i.efBuild > 1024 ∨ i.ef > 1024 ∨ cap = 0 ∨ cap > 1073741824 then .refuse .badParam
  else if !d.allMapped p es ∨ d.anyFrozen p es ∨ es.any (d.extIndexed p) ∨
      (es.any fun e => (d.extGrans p e).length != 64 || !(d.extGrans p e).all inGran) ∨ i.bytes > count * 2097152 then .refuse .badParam
  else
    let mine := d.pan.idx.filter fun j => j.2.part == p
    if mine.length ≥ 64 ∨ d.pan.idx.length ≥ 256 ∨ nsum (mine.map fun j => j.2.cap) + cap > fld (d.devReg (0x0B0100 + p * 4)) 30 0 then .refuse .noResource
    else
      match (List.range 65535).find? fun h => !thas d.pan.idx (h + 1) with
      | none => .refuse .noResource
      | some h =>
        let d := es.foldl (fun d e => (d.extGrans p e).foldl (fun d g => d.hbmZero (granAddr g) 32768) d) d
        .done .ok [wd (h + 1), wd i.rb] (d.setIdx x (h + 1) i)

/-- PAN_INDEX_DESTROY: updates that have not started fall away (log entry 28). -/
def idxDestroy (_ : Ctx) (q : Req) (d : Dev) : Ans :=
  if !q.clean [(2, 0xFFFF)] then .refuse .badParam
  else
    match d.ownIdx q with
    | none => .refuse .badParam
    | some (h, _) => .accept [] (.other 0x0701 h 0 0) (d.modIdx h fun i => { i with destroy := some q.seq, listen := none })

/-- Indexes being destroyed: their updates that have not started end as ABORTED, and one that nothing holds goes. -/
def Dev.destroySettle (d : Dev) (x : Ctx) : Dev :=
  let l := d.pan.idx.filter fun i => i.2.destroy.isSome && i.2.updates.length > 1
  let d := l.foldl (fun (d : Dev) i =>
    let d := d.modIdx i.1 fun j => { j with updates := j.updates.take 1 }
    (i.2.updates.drop 1).foldl (fun (d : Dev) u => d.endPan x u.op .aborted []) d) d
  ((d.pan.idx.filter fun i => i.2.destroy.isSome).map Prod.fst).foldl (fun d h => d.panNext x h) d

/-- PAN_INDEX_DESTROY as a row: it ends at once where nothing holds the index. -/
def idxDestroyRow (c : Cmd) (x : Ctx) (d : Dev) : Dev := (runCmd 0x0701 c idxDestroy x d).destroySettle x

/-- An update command accepted, in arrival order (R341). -/
def Dev.addUpdate (d : Dev) (h : Nat) (u : PanUpdate) : Dev := d.modIdx h fun i => { i with updates := i.updates ++ [u] }

/-- PAN_INSERT. -/
def panInsertCmd (_ : Ctx) (q : Req) (d : Dev) : Ans :=
  let n := q.f 5 16 0
  if !q.clean [(2, 0xFFFF), (3, top32), (4, 0xFF), (5, 0x1FFFF), (6, top32), (7, 0xFF)] ∨ n = 0 ∨ n > 65536 then .refuse .badParam
  else
    match d.ownIdx q with
    | none => .refuse .badParam
    | some (h, i) =>
      let len := n * (16 + 4 * i.dims)
      if d.bufSealed q.part (q.boff 3) len then .done .notPermitted [] (d.sealedRead q.part)
      else if (d.bufRead q.part (q.boff 3) len).isNone ∨ (d.bufRun q.part true (runFuel (4 * n)) (q.boff 6) (4 * n)).isNone then .refuse .badParam
      else .accept [] (.other 0x0702 h 0 0) (d.addUpdate h ⟨q.seq, 0, q.boff 3, n, q.boff 6, none⟩)

/-- PAN_DELETE. -/
def panDeleteCmd (_ : Ctx) (q : Req) (d : Dev) : Ans :=
  let n := q.f 5 16 0
  if !q.clean [(2, 0xFFFF), (3, top32), (4, 0xFF), (5, 0x1FFFF)] ∨ n = 0 ∨ n > 65536 then .refuse .badParam
  else
    match d.ownIdx q with
    | none => .refuse .badParam
    | some (h, _) =>
      if d.bufSealed q.part (q.boff 3) (4 * n) then .done .notPermitted [] (d.sealedRead q.part)
      else if (d.bufRead q.part (q.boff 3) (4 * n)).isNone then .refuse .badParam
      else .accept [] (.other 0x0703 h 0 0) (d.addUpdate h ⟨q.seq, 1, q.boff 3, n, 0, none⟩)

/-- PAN_COMPACT. -/
def panCompactCmd (_ : Ctx) (q : Req) (d : Dev) : Ans :=
  if !q.clean [(2, 0xFFFF)] then .refuse .badParam
  else
    match d.ownIdx q with
    | none => .refuse .badParam
    | some (h, _) => .accept [] (.other 0x0705 h 0 0) (d.addUpdate h ⟨q.seq, 2, 0, 0, 0, none⟩)

/-- A compaction that is the first update of its index starts. -/
def Dev.startCompacts (d : Dev) (x : Ctx) : Dev := (tkeys d.pan.idx).foldl (fun d h => d.panNext x h) d

/-- PAN_COMPACT as a row: a compaction that is first starts at once (R345). -/
def panCompactRow (c : Cmd) (x : Ctx) (d : Dev) : Dev := (runCmd 0x0705 c panCompactCmd x d).startCompacts x

/-- The parameter words that PAN_QUERY and PAN_SHARD_QUERY share. -/
def queryBits (snap : Nat) : List (Nat × Nat) :=
  [(3, 0x7FF07FF), (4, 0x7FF), (5, top32), (6, 0xFF), (7, top32), (8, 0xFF), (9, snap), (10, snap), (11, top32), (12, top32), (13, top32),
    (14, top32), (15, top32), (16, top32)]

/-- A query of a command for an index, with its vector read; why not otherwise. -/
def Dev.queryOf (d : Dev) (q : Req) (h : Nat) (i : PanIndex) (out snap : Nat) (src : PanSrc) : Except Status PanQuery :=
  let k := q.f 3 10 0
  let ef := q.f 3 26 16
  let w := q.f 4 10 0
  if k = 0 ∨ k > 1024 ∨ ef > 1024 ∨ w > 1024 then .error .badParam
  else
    match d.panRead q.part (q.boff 5) (4 * i.dims) with
    | .error st => .error st
    | .ok b => .ok ⟨0, i.die, q.part, h, k, if ef = 0 then i.ef else ef, if w = 0 then min (4 * k) 1024 else w, f32List i.dims b, out, snap,
        q.d2 11, q.d2 13, q.d2 15, 0, src, false, some (q.boff 5)⟩

/-- PAN_QUERY (R342, R346). -/
def panQueryCmd (_ : Ctx) (q : Req) (d : Dev) : Ans :=
  if !q.clean ((2, 0xFFFF) :: queryBits top32) then .refuse .badParam
  else
    match d.ownIdx q with
    | none => .refuse .badParam
    | some (h, i) =>
      let k := q.f 3 10 0
      let snap := q.d2 9
      if d.bufSealed q.part (q.boff 5) (4 * i.dims) then .done .notPermitted [] (d.sealedRead q.part)
      else if snap ≠ 0 ∧ (snap < i.floor ∨ snap > i.epoch) then .refuse .badParam
      else if (d.bufRun q.part true (runFuel (16 * k)) (q.boff 7) (16 * k)).isNone then .refuse .badParam
      else
        match d.queryOf q h i (q.boff 7) snap (.cmd q.seq) with
        | .error st => .refuse st
        | .ok e => .accept [] (.other 0x0704 h 0 0) (d.addQuery e)

/-- PAN_INDEX_QUERY. -/
def idxQueryCmd (_ : Ctx) (q : Req) (d : Dev) : Ans :=
  if !q.clean [(2, 0xFFFF)] then .refuse .badParam
  else
    match d.ownIdx q with
    | none => .refuse .badParam
    | some (_, i) => .done .ok [wd i.live, wd i.tombs, loW i.epoch, hiW i.epoch] d

/-- PAN_GROUP_SET. -/
def groupSetCmd (_ : Ctx) (q : Req) (d : Dev) : Ans :=
  let g := q.part * 16 + q.f 2 3 0
  let n := q.f 5 13 0
  if !q.clean [(2, 0x1000F), (3, top32), (4, 0xFF), (5, 0x3FFF)] then .refuse .badParam
  else if bitAt (q.w 2).toNat 16 then .done .ok [] { d with pan := { d.pan with groups := tdel d.pan.groups g } }
  else if n = 0 ∨ n > 8192 then .refuse .badParam
  else if d.bufSealed q.part (q.boff 3) (8 * n) then .done .notPermitted [] (d.sealedRead q.part)
  else
    match if d.bufShut q.part (q.boff 3) (8 * n) then .error .regionBusy else d.panRead q.part (q.boff 3) (8 * n) with
    | .error st => .refuse st
    | .ok b =>
      let t := (List.range n).map fun k => (fld (leAt b (8 * k) 8) 19 0, fld (leAt b (8 * k) 8) 47 32)
      if t.any fun e => e.1 != 0 && (d.ownQp q.part e.1).elim true fun r => !(r.ext && r.event) then .refuse .notPermitted
      else .done .ok [] { d with pan := { d.pan with groups := tset d.pan.groups g t } }

/-- The query message of a sharded query (R351). -/
def shardMsg (tag : Nat) (q : PanQuery) : List Byte :=
  leBytes 4 0x31514E50 ++ leBytes 4 tag ++ leBytes 2 q.k ++ leBytes 2 q.ef ++ leBytes 2 q.w ++ [0, 0] ++ leBytes 8 q.all_ ++ leBytes 8 q.none_ ++
    leBytes 8 q.any_ ++ List.replicate 24 0 ++ q.vec.flatMap fun v => leBytes 4 v.toNat

/-- The EWRs and query messages of a sharded query, entry after entry; an entry that Reed cannot serve is given up. -/
def Dev.shardPost (d : Dev) (x : Ctx) (p tag : Nat) (q : PanQuery) : List (Nat × Nat) → Dev
  | [] => d
  | (e, n) :: l =>
    if n = 0 then d.shardPost x p tag q l
    else
      match d.ewrPost p n tag 0 (64 + 16 * q.k) true none with
      | .error _ => (d.shardTake x tag e none).shardPost x p tag q l
      | .ok d' =>
        match d'.netPost x .panicle p n 0 (shardMsg tag q) 0 0 0 with
        | some d' => d'.shardPost x p tag q l
        | none => (d.shardTake x tag e none).shardPost x p tag q l

/-- PAN_SHARD_QUERY (R352). The local entry gives the vector's length. -/
def shardQueryCmd (x : Ctx) (q : Req) (d : Dev) : Ans :=
  match tget d.pan.groups (q.part * 16 + q.f 2 3 0) with
  | none => .refuse .badParam
  | some t =>
    let own := (t.find? fun e => e.1 == 0).elim none fun e => (tget d.pan.idx e.2).map fun i => (e.2, i)
    match own with
    | none => .refuse .badParam
    | some (h, i) =>
      let k := q.f 3 10 0
      if !q.clean ((2, 0xF) :: queryBits 0) ∨ i.part ≠ q.part ∨ i.destroy.isSome ∨ (t.filter fun e => e.1 == 0).length ≠ 1 then .refuse .badParam
      else if d.bufSealed q.part (q.boff 5) (4 * i.dims) then .done .notPermitted [] (d.sealedRead q.part)
      else if (d.bufRun q.part true (runFuel (16 * k)) (q.boff 7) (16 * k)).isNone then .refuse .badParam
      else
        let tag := nextId (fun n => thas d.pan.shards n) 0xFFFEFFFF d.pan.shards.length d.pan.lastTag
        match d.queryOf q h i 0 0 (.shard tag) with
        | .error st => .refuse st
        | .ok e =>
          let ms := fld (d.partReg q.part 0x0B0000) 31 16
          let s : PanShard := ⟨q.seq, q.part, t, k, q.boff 7, i.dims, i.fmt, i.metric, List.range t.length, [], 0, 0, 0, 0, 0, x.now + ms * ticksMs⟩
          let d := { d with pan := { d.pan with shards := tset d.pan.shards tag s, lastTag := tag } }.addQuery e
          .accept [] (.other 0x0709 tag 0 0) (d.shardPost x q.part tag e s.open_)

/-- PAN_LISTEN. -/
def listenCmd (_ : Ctx) (q : Req) (d : Dev) : Ans :=
  let s := q.f 3 7 0
  if !q.clean [(2, 0xFFFF), (3, 0x100FF)] then .refuse .badParam
  else
    match d.ownIdx q with
    | none => .refuse .badParam
    | some (h, _) =>
      if bitAt (q.w 3).toNat 16 then .done .ok [] (d.modIdx h fun i => { i with listen := none })
      else if !thas d.net.srqs (q.part * 256 + s) ∨ (d.pan.idx.any fun j => j.1 != h && j.2.part == q.part && j.2.listen == some s) then .refuse .badParam
      else .done .ok [] (d.modIdx h fun i => { i with listen := some s })

/-- DEV_ABORT of a Panicle operation that has not reached its abort point (R354): a query at any time, an update before it writes. -/
def Dev.panAbort (d : Dev) (x : Ctx) (op : Nat) : Dev :=
  match d.pan.queries.find? fun q => q.src == .cmd op with
  | some q =>
    let d := { d with pan := { d.pan with queries := d.pan.queries.filter fun e => e.id != q.id } }.drainEnd (drainId 11 (2 * q.id))
    (d.endPan x op .aborted []).panNext x q.index
  | none =>
    match d.pan.shards.find? fun s => s.2.op == op with
    | some (tag, s) =>
      let d := { d with pan := { d.pan with shards := tdel d.pan.shards tag, queries := d.pan.queries.filter fun (q : PanQuery) => q.src != PanSrc.shard tag } }
      (s.open_.foldl (fun (d : Dev) e => if e.2 = 0 then d else d.withdrawEwr x e.2 tag) d).endPan x op .aborted []
    | none =>
      match d.pan.idx.find? fun i => i.2.updates.any fun u => u.op == op with
      | some (h, _) => ((d.modIdx h fun i => { i with updates := i.updates.filter fun u => u.op != op }).endPan x op .aborted []).panNext x h
      | none => d

def effPanIndexCreate (c : Cmd) (s : State) : Host.Outcome State Fault Refusal := hostCmd 0x0700 c idxCreate s
def effPanIndexDestroy (c : Cmd) (s : State) : Host.Outcome State Fault Refusal := onDev (idxDestroyRow c) s
def effPanInsert (c : Cmd) (s : State) : Host.Outcome State Fault Refusal := hostCmd 0x0702 c panInsertCmd s
def effPanDelete (c : Cmd) (s : State) : Host.Outcome State Fault Refusal := hostCmd 0x0703 c panDeleteCmd s
def effPanQuery (c : Cmd) (s : State) : Host.Outcome State Fault Refusal := hostCmd 0x0704 c panQueryCmd s
def effPanCompact (c : Cmd) (s : State) : Host.Outcome State Fault Refusal := onDev (panCompactRow c) s
def effCompactResume (h : Nat) (s : State) : Host.Outcome State Fault Refusal := onDev (compactResume h) s
def effPanIndexQuery (c : Cmd) (s : State) : Host.Outcome State Fault Refusal := hostCmd 0x0706 c idxQueryCmd s
def effPanGroupSet (c : Cmd) (s : State) : Host.Outcome State Fault Refusal := hostCmd 0x0708 c groupSetCmd s
def effPanShardQuery (c : Cmd) (s : State) : Host.Outcome State Fault Refusal := hostCmd 0x0709 c shardQueryCmd s
def effPanListen (c : Cmd) (s : State) : Host.Outcome State Fault Refusal := hostCmd 0x070A c listenCmd s
def effQueryAdmit (die : Nat) (s : State) : Host.Outcome State Fault Refusal := onDev (queryAdmit die) s
def effQueryMessageArrival (n srq : Nat) (m : List Byte) (s : State) : Host.Outcome State Fault Refusal := onDev (queryMsg n srq m) s
def effPartialListArrival (t e : Nat) (m : List Byte) (s : State) : Host.Outcome State Fault Refusal := onDev (partialIn t e m) s
def effShardTimeout (t : Nat) (s : State) : Host.Outcome State Fault Refusal := onDev (shardTimeout t) s
def effQueryComplete (die q : Nat) (s : State) : Host.Outcome State Fault Refusal := onDev (queryDone die q) s
def effUpdateComplete (h : Nat) (s : State) : Host.Outcome State Fault Refusal := onDev (updateDone h) s

end Sys2Proof.Machine
end

