-- ==== Sys2Proof/Machine/Ckp.lean ====
section
/-! DEFINITION. The commands and events of Sheaf (R355-R369). -/

namespace Sys2Proof.Machine

/-- CKP_CFG of a partition. -/
def Dev.ckpCfg (d : Dev) (p : Nat) : Nat := d.partReg p 0x0C0000

/-- A job of the partition that a command names in W2. -/
def Dev.ckpOwn (d : Dev) (q : Req) : Option (Nat × CkpJob) :=
  let j := q.f 2 15 0
  match d.job j with
  | some k => if k.part = q.part then some (j, k) else none
  | none => none

/-! ### CKP_JOB_DEFINE, CKP_JOB_DROP, CKP_QUERY, CKP_SHRINK -/

/-- Item n of an item list, and whether its fields keep to R355. -/
def itemAt (b : List Byte) (n : Nat) : CkpItem := ⟨leAt b (16 * n) 1 % 4, leAt b (16 * n + 2) 2, leAt b (16 * n + 4) 4, leAt b (16 * n + 8) 4⟩
def itemOk (p : Nat) (b : List Byte) (n : Nat) : Bool :=
  let i := itemAt b n
  leAt b (16 * n) 2 == i.kind && leAt b (16 * n + 12) 4 == 0 && i.kind < 3 &&
    (if i.kind = 0 then runOk i.first i.count else i.count == 0) && (i.kind != 1 || i.first / 2 ^ 28 == p)

/-- Whether an item is, or lies in, a sealed object (R384). -/
def Dev.itemSealed (d : Dev) (p : Nat) (i : CkpItem) : Bool :=
  if i.kind = 0 then (runExts i.first i.count).any (d.extSealed p)
  else i.kind == 2 && (d.share i.first).elim false fun s => s.sealed

/-- The items of a list in the buffer space, or why not. -/
def Dev.readItems (d : Dev) (p off n : Nat) : Except Status (List CkpItem) :=
  if d.bufSealed p off (16 * n) then .error .notPermitted
  else
    match d.bufRead p off (16 * n) with
    | none => .error .badParam
    | some (_, true) => .error .integrity
    | some (b, false) =>
      let l := (List.range n).map (itemAt b)
      if !(List.range n).all (itemOk p b) then .error .badParam
      else if l.any (d.itemSealed p) then .error .notPermitted
      else .ok l

/-- The member table: every other rank's queue pair is EXT and EVENT and belongs to the partition; this module's entry is 0. -/
def Dev.readMembers (d : Dev) (p off n rank : Nat) : Except Status (List Nat) :=
  if d.bufSealed p off (8 * n) then .error .notPermitted
  else
    match d.bufRead p off (8 * n) with
    | none => .error .badParam
    | some (_, true) => .error .integrity
    | some (b, false) =>
      let l := (List.range n).map fun r => leAt b (8 * r) 8
      let good (r qpn : Nat) : Bool := if r = rank then qpn == 0 else (d.ownQp p qpn).elim false fun q => qpn < 2 ^ 20 && q.ext && q.event
      if (l.mapIdx good).all id then .ok l else .error .notPermitted

/-- Bytes of an item as it stands: its size, and its size if it is a PARKED session's. -/
def Dev.itemSize (d : Dev) (p : Nat) (i : CkpItem) : Nat × Nat :=
  if i.kind = 0 then (i.count * 2097152, 0)
  else if i.kind = 1 then
    let n := ((d.sesRecord p (wd i.first)).getD []).length
    (n, if (d.sesOf (wd i.first)).elim false fun s => s.state == .parked then n else 0)
  else ((d.share i.first).elim 0 Share.bytes, 0)

/-- The projection of R366 in microseconds, rounded up: 20 ms and the longer of reading the stream at 93 GB/s and writing it at the
target's rate; the image of a PARKED session is first read at 57.6 GB/s. -/
def Dev.ckpProjection (d : Dev) (k : CkpJob) : Nat :=
  let s := k.items.map (d.itemSize k.part)
  let u := nsum (s.map Prod.fst)
  let parked := nsum (s.map Prod.snd)
  let w := nsum (k.items.map fun i => if k.keeps || i.group == 0 then (d.itemSize k.part i).1 else 0)
  let rate := if k.remote then (d.qp k.store).elim 1 fun q => max 1 (d.flowProf k.part (shDomain q.sub) (q.dscp / 8)).rate else 12000
  20000 + max ((u + 92999) / 93000 + (parked + 57599) / 57600) ((w + rate - 1) / rate)

/-- The checkpoints of a LOCAL job that the bulk region still holds: the objects of each slot, and the last sequence number. -/
def Dev.localSlots (d : Dev) (p j : Nat) : Tbl (List Nat) × Nat :=
  let objs (k : NandKind) : List (Nat × List Byte) := d.nand.objs.filterMap fun o =>
    if o.2.part = p ∧ o.2.kind = k then (d.readObj o.1).map fun b => (o.1, b) else none
  let one (c : Nat × List Byte) : Option (Nat × List Nat) :=
    if !recordOk j c.2 then none
    else
      match (objs .manifest).find? fun m => isDigest m.2 c.2 with
      | none => none
      | some m =>
        match rankEntry m.2 0 with
        | none => none
        | some (loc, _, _) => some (leAt c.2 8 8, [c.1, m.1, loc] ++ (shardEntries ((d.readObj loc).getD [])).map fun e => leAt e 16 16)
  let l := (objs .commit).filterMap one
  (l.foldl (fun (t : Tbl (List Nat)) (e : Nat × List Nat) => tset t (e.1 % 2) e.2) [], l.foldl (fun (n : Nat) (e : Nat × List Nat) => max n e.1) 0)

/-- The EWR that Sheaf keeps posted on a member's queue pair (R357). -/
def noticeId (j : Nat) : Nat := 0xFFFF0000 + j
def Dev.postNotices (d : Dev) (p j : Nat) : List Nat → Except Status Dev
  | [] => .ok d
  | n :: ns => if n = 0 then d.postNotices p j ns else
    match d.ewrPost p n (noticeId j) 0 16 true none with
    | .error _ => .error .noResource
    | .ok d => d.postNotices p j ns

/-- CKP_JOB_DEFINE (R355). -/
def jobDefine (_ : Ctx) (q : Req) (d : Dev) : Ans :=
  let p := q.part
  let j := q.f 2 15 0
  let rank := q.f 3 13 0
  let n := q.f 4 13 0
  let remote := bitAt (q.w 5).toNat 0
  let stage := q.f 5 14 8
  let items := q.f 8 12 0
  let bits : List (Nat × Nat) := [(2, 0xFFFF), (3, 0x3FFF), (4, 0x3FFF), (5, 0x7F01), (6, top32), (7, 0xFF), (8, 0x1FFF), (9, top32), (10, 0xFF),
    (11, 0xFFFFF), (12, top32), (13, top32), (14, top32), (15, top32)]
  if !q.clean bits ∨ j = 0 ∨ n = 0 ∨ n > 8192 ∨ rank ≥ n ∨ stage < 2 ∨ stage > 64 ∨ items > 4096 ∨ (!remote ∧ n > 1) ∨
      (remote ∧ (q.w 15).toNat < 2) then .refuse .badParam
  else if (d.job j).isSome then .refuse .notPermitted
  else
    match d.readItems p (bufOff (q.w 6).toNat (q.f 7 7 0)) items, d.readMembers p (bufOff (q.w 9).toNat (q.f 10 7 0)) n rank with
    | .error st, _ => .refuse st
    | _, .error st => .refuse st
    | .ok its, .ok ms =>
      if remote && (d.ownQp p (q.f 11 19 0)).isNone then .refuse .notPermitted
      else if (d.ckp.jobs.filter fun k => k.2.part == p).length ≥ 8 ∨ d.ckp.jobs.length ≥ 64 then .refuse .noResource
      else
        match d.postNotices p j ms, d.allotExts p (List.range 16) (32 * stage) with
        | .ok _, some (es, d) =>
          match d.postNotices p j ms with
          | .error st => .refuse st
          | .ok d =>
            let loc := if remote then ([], 0) else d.localSlots p j
            let k : CkpJob := ⟨p, rank, n, ms, remote, stage, its, if remote then q.f 11 19 0 else 0, q.d2 12, q.w 14, (q.w 15).toNat, [], es,
              loc.2, none, none, loc.1⟩
            .done .ok [wd (d.ckpProjection k)] (d.setJob j k)
        | _, _ => .refuse .noResource

/-- CKP_JOB_DROP: the shard buffers and the notices' EWRs go; what the target holds stays. -/
def jobDrop (x : Ctx) (q : Req) (d : Dev) : Ans :=
  match d.ckpOwn q with
  | none => .refuse .badParam
  | some (j, k) =>
    if !q.clean [(2, 0xFFFF)] then .refuse .badParam
    else if k.run.isSome ∨ k.restore.isSome then .refuse .notPermitted
    else
      let d := (k.members.filter (· != 0)).foldl (fun d n => d.withdrawEwr x n (noticeId j)) (d.freeExts k.bufs)
      .both [] .ok [] { d with ckp := { d.ckp with jobs := tdel d.ckp.jobs j } }

/-- CKP_QUERY. -/
def ckpQueryCmd (_ : Ctx) (q : Req) (d : Dev) : Ans :=
  match d.ckpOwn q with
  | none => .refuse .badParam
  | some (_, k) =>
    if !q.clean [(2, 0xFFFF)] then .refuse .badParam
    else .done .ok [loW k.committed, hiW k.committed, if k.run.isSome then 1 else if k.restore.isSome then 2 else 0, wd k.keeper] d

/-- The ranks of a bitmap that a job has. -/
def lostRanks (b : List Byte) (n : Nat) : List Nat := (List.range n).filter fun r => bitAt (leAt b (r / 8) 1) (r % 8)

/-- The live set of a job after a shrink, with what follows in that tick (R368). -/
def Dev.shrink (d : Dev) (x : Ctx) (j : Nat) (k : CkpJob) (gone : List Nat) : Dev :=
  let k' := { k with lost := addNums gone k.lost }
  match k.run with
  | none => d.setJob j k'
  | some r =>
    let lost := gone.filter k.alive
    let wait := (k.keeps && r.phase ≤ 2 && lost.any fun n => !thas r.reports n) || (lost.contains k.keeper && r.shards.any fun s => s.st == 1)
    let anns := r.anns.map fun a => if r.writerFor k a = r.writerFor k' a then a else { a with answered := false }
    let d := d.setJob j { k' with run := some { r with anns := anns } }
    if wait then d.ckpAbandon x j else d

/-- CKP_SHRINK. -/
def ckpShrinkCmd (x : Ctx) (q : Req) (d : Dev) : Ans :=
  match d.ckpOwn q with
  | none => .refuse .badParam
  | some (j, k) =>
    let off := bufOff (q.w 3).toNat (q.f 4 7 0)
    if !q.clean [(2, 0xFFFF), (3, top32), (4, 0xFF)] then .refuse .badParam
    else if d.bufSealed q.part off 1024 then .done .notPermitted [] (d.sealedRead q.part)
    else
      match d.bufRead q.part off 1024 with
      | none => .refuse .badParam
      | some (_, true) => .refuse .integrity
      | some (b, false) =>
        let d := d.shrink x j k (lostRanks b k.n)
        let k := (d.job j).getD k
        .done .ok [wd k.liveRanks.length, wd k.keeper] d

/-! ### Notices (R357, R358) -/

/-- A checkpoint starts at its notice tick; none where an item of the job is gone. -/
def Dev.ckpStart (d : Dev) (x : Ctx) (j : Nat) (k : CkpJob) (ops : List Nat) : Option Dev :=
  let recs := k.items.map fun i => if i.kind = 1 then d.sesRecord k.part (wd i.first) else some []
  let gone := k.items.any fun i => i.kind == 2 && (d.share i.first).elim true fun s => s.part != k.part || s.sealed
  if gone ∨ recs.any Option.isNone then none
  else
    let snap : Tbl (List Byte) := ((List.range k.items.length).filterMap fun n =>
      match k.items[n]? with
      | some i => if i.kind = 1 then some (n, ((recs[n]?).getD none).getD []) else none
      | none => none)
    let sizes := k.items.mapIdx fun n i => if i.kind = 1 then (tgetD snap n []).length else (d.itemSize k.part i).1
    let seq := k.committed + 1
    let r : CkpRun := ⟨d.ckpCfg k.part, ops, seq, x.now, sizes, [], snap, [], shardsOf k.rank (k.items.zip sizes), false, 0, [], 0, [], [],
      [], false, []⟩
    let r := { r with unreached := r.regions.map fun g => (g.2.2.1, g.2.2.2) }
    some (d.putJob x j { k with run := some r })

/-- CKP_NOTICE: a new checkpoint, or one that runs is joined. -/
def noticeCmd (x : Ctx) (q : Req) (d : Dev) : Ans :=
  match d.ckpOwn q with
  | none => .refuse .badParam
  | some (j, k) =>
    if !q.clean [(2, 0xFFFF)] then .refuse .badParam
    else if k.restore.isSome then .refuse .notPermitted
    else
      match k.run with
      | some r => .accept [loW r.tick] (.other 0x0802 j 0 0) (d.setJob j { k with run := some { r with ops := r.ops ++ [q.seq] } })
      | none =>
        match d.ckpStart x j k [q.seq] with
        | none => .both [loW x.now] .checkpointIncomplete [] (d.bumpPart k.part 0x0C0010 1)
        | some d => .accept [loW x.now] (.other 0x0802 j 0 0) d

/-- NETWORK_NOTICE: a message that fires Sheaf's EWR of a job. -/
def netNotice (j : Nat) (msg : List Byte) (x : Ctx) (d : Dev) : Dev :=
  match d.job j with
  | none => d
  | some k =>
    if msg.length < 16 ∨ leAt msg 0 4 ≠ 0x31454E43 ∨ leAt msg 4 2 ≠ j then d.bumpPart k.part 0x0C001C 1
    else if k.restore.isSome then d
    else if k.run.isSome then d.bumpPart k.part 0x0C0018 1
    else (d.ckpStart x j k []).getD (d.bumpPart k.part 0x0C0010 1)

/-- The abort of a CKP_NOTICE before the first shard write: every region counts as reached (R369). -/
def Dev.ckpAbort (d : Dev) (x : Ctx) (j op : Nat) : Option Dev :=
  match d.job j with
  | none => none
  | some k =>
    match k.run with
    | none => none
    | some r =>
      if r.started ∨ !r.ops.contains op then none
      else if r.ops = [op] then some (d.ckpStop x j .aborted)
      else some ((d.setJob j { k with run := some { r with ops := r.ops.filter (· != op) } }).endOp x op .aborted [])

/-- The abort of a CKP_RESTORE before its first item is written. -/
def Dev.restoreAbort (d : Dev) (x : Ctx) (j op : Nat) : Option Dev :=
  match d.job j with
  | none => none
  | some k =>
    match k.restore with
    | none => none
    | some r => if r.op = op ∧ r.maps.isEmpty then some (d.restoreStop x j .aborted) else none

/-! ### Copying, shards and their writes (R358-R361) -/

/-- The bytes of a region of an item as Sheaf reads them; none where they cannot be read. -/
def Dev.regionBytes (d : Dev) (k : CkpJob) (r : CkpRun) (i : CkpItem) (n off len : Nat) : Option (List Byte) :=
  if i.kind = 1 then some (((tgetD r.snap n []).drop off).take len)
  else if i.kind = 0 then
    if d.bufSealed k.part (i.first * 2097152 + off) len then none
    else
      match d.bufView k.part (i.first * 2097152 + off) len with
      | some (b, false) => some b
      | _ => none
  else
    match d.share i.first with
    | none => none
    | some s =>
      let hs := ((s.homes.drop (off / 32768)).take (unitsFor len)).map fun h => d.homeRead h 0 32768
      if hs.any Prod.snd then none else some (d.shareRead s off len)

/-- The reads of NAND that copying a region of an item makes (R129). -/
def Dev.regionUse (d : Dev) (x : Ctx) (k : CkpJob) (i : CkpItem) (off len : Nat) : Dev :=
  let hs := if i.kind = 0 then ((d.bufRun k.part false (runFuel len) (i.first * 2097152 + off) len).getD []).map Piece.home
    else if i.kind = 1 then []
    else (((d.share i.first).elim [] Share.homes).drop (off / 32768)).take (unitsFor len)
  hs.foldl (fun d h => d.homeUse x h) d

/-- COPY_REGION_DONE: a region is copied into its shards' buffers, and what waited for it goes on. Data that cannot be read ends the
checkpoint (R422). -/
def copyDone (j n region : Nat) (x : Ctx) (d : Dev) : Dev :=
  match (d.job j).elim none fun k => k.run.map fun r => (k, r) with
  | none => d
  | some (k, r) =>
    match k.items[n]?, (itemRegions ((r.sizes[n]?).getD 0) (r.head n))[region]? with
    | some i, some (off, len) =>
      let ranges := if i.kind = 0 then d.runAddrs k.part (i.first * 2097152 + off) len else []
      if !r.mayCopy k.items k.stage n region then d
      else d.once x .sheaf (11, j * 2 ^ 48 + n * 2 ^ 24 + region) ranges fun d =>
        match d.regionBytes k r i n off len with
        | none => d.ckpAbandon x j
        | some b =>
          let r := { r with unreached := r.unreached.filter (· != (n, region)), data := tset r.data (n * 2 ^ 24 + region) b }
          let d := d.regionUse x k i off len
          let d := (if i.kind = 1 then d else d.chargePart k.part 0 len).tapAdd k.part 7 len
          let d := d.putJob x j { k with run := some r }
          if i.kind = 1 ∧ !d.ckpHolds (wd i.first) then d.pfxAwake x (wd i.first) else d
    | _, _ => d

/-- The run of a job, with a shard of its stream. -/
def Dev.runShard (d : Dev) (j n : Nat) : Option (CkpJob × CkpRun × CkpShard) :=
  match (d.job j).elim none fun k => k.run.map fun r => (k, r) with
  | none => none
  | some (k, r) => (r.shards[n]?).map fun s => (k, r, s)

/-- A shard of a run replaced. -/
def Dev.putShard (d : Dev) (j : Nat) (k : CkpJob) (r : CkpRun) (n : Nat) (s : CkpShard) : Dev :=
  d.setJob j { k with run := some { r with shards := r.shards.set n s } }

/-- SHARD_COMPLETE: the digest, and where the shard goes (R360, R361). -/
def shardDone (j n : Nat) (x : Ctx) (d : Dev) : Dev :=
  match d.runShard j n with
  | none => d
  | some (k, r, s) =>
    match if s.st = 0 then r.shardBytes s else none with
    | none => d
    | some b =>
      let g := Config.sha512 b
      let d := d.tapAdd k.part 7 b.length
      if s.group = 0 then d.putShard j k r n { s with st := 5, digest := g }
      else
        let t := { s with st := 1, digest := g, annAt := x.now }
        if k.keeps then d.putShard j k { r with anns := r.anns ++ [⟨k.rank, s.group, s.index, g, false⟩] } n t
        else (d.putShard j k r n t).out (.member j k.keeper 0 [k.rank, s.group, s.index, g.toNat])

/-- SHARD_WRITE_CONFIRMED: the target confirms a shard, or its write fails. -/
def shardConfirmed (j n : Nat) (ok : Bool) (x : Ctx) (d : Dev) : Dev :=
  match d.runShard j n with
  | none => d
  | some (k, r, s) =>
    if s.st ≠ 2 ∨ !d.opsOver s.ops then d
    else if ok then d.putShard j k r n { s with st := 3 } else d.ckpAbandon x j

/-- VERDICT_TIMEOUT: no verdict 2 × DEDUP_MS after the announcement. -/
def verdictLate (j n : Nat) (x : Ctx) (d : Dev) : Dev :=
  match d.runShard j n with
  | none => d
  | some (k, r, s) =>
    if s.st = 1 ∧ s.annAt + 2 * r.dedupMs * ticksMs ≤ x.now then d.putShard j k r n { s with st := 5 } else d

/-! ### The keeper (R361, R363, R364) -/

/-- The run of a job that this module keeps changed, for a message from another live rank. -/
def Dev.keeperTake (d : Dev) (j rank : Nat) (f : CkpRun → CkpRun) : Dev :=
  match (d.job j).elim none fun k => k.run.map fun r => (k, r) with
  | none => d
  | some (k, r) => if k.keeps && k.alive rank && rank != k.rank then d.setJob j { k with run := some (f r) } else d

def announced (j rank group index : Nat) (g : BitVec 512) (_ : Ctx) (d : Dev) : Dev :=
  d.keeperTake j rank fun r =>
    if r.anns.any fun a => a.rank == rank && a.group == group && a.index == index then r
    else { r with anns := r.anns ++ [⟨rank, group, index, g, false⟩] }
def endMarked (j rank : Nat) (_ : Ctx) (d : Dev) : Dev := d.keeperTake j rank fun r => { r with ends := addNum rank r.ends }
def reported (j rank loc len : Nat) (g : BitVec 512) (_ : Ctx) (d : Dev) : Dev :=
  d.keeperTake j rank fun r => { r with reports := tset r.reports rank (loc, len, g) }

/-- Commit messages to the live members. -/
def Dev.sendCommits (d : Dev) (j seq : Nat) (l : List Nat) : Dev := l.foldl (fun d r => d.out (.member j r 4 [seq])) d

/-- COMMIT_RECORD_CONFIRMED: the checkpoint is committed. -/
def recordConfirmed (j : Nat) (x : Ctx) (d : Dev) : Dev :=
  match (d.job j).elim none fun k => k.run.map fun r => (k, r) with
  | none => d
  | some (k, r) =>
    if r.phase = 4 ∧ d.opsOver r.manOps then (d.sendCommits j r.seq (k.liveRanks.filter (· != k.rank))).ckpFinish x j else d

/-- COMMIT_MESSAGE_ARRIVAL at a member that has reported. -/
def commitMsg (j : Nat) (x : Ctx) (d : Dev) : Dev :=
  match (d.job j).elim none fun k => k.run.map fun r => (k, r) with
  | none => d
  | some (k, r) => if r.phase = 2 ∧ !k.keeps then d.ckpFinish x j else d

/-- COMMIT_TIMEOUT: COMMIT_MS after the notice tick (R365). -/
def commitLate (j : Nat) (x : Ctx) (d : Dev) : Dev :=
  match (d.job j).elim none CkpJob.run with
  | none => d
  | some r => if r.tick + r.commitMs * ticksMs ≤ x.now then d.ckpAbandon x j else d

/-- STALLED_WRITE: a write into a region that Sheaf has not reached (R359). -/
def stalledIn (a : Nat) (bs : List Byte) (x : Ctx) (d : Dev) : Dev := if (d.unreachedAt a bs.length).isSome then d.hbmPut x a bs else d

/-! ### CKP_RESTORE (R367) -/

/-- CKP_RESTORE: the item list has as many items as the job's. Its extents must be mapped and not frozen; where the rank is this
member's own, its items have the job's kinds and counts. -/
def ckpRestoreCmd (_ : Ctx) (q : Req) (d : Dev) : Ans :=
  match d.ckpOwn q with
  | none => .refuse .badParam
  | some (j, k) =>
    let rank := q.f 2 29 16
    if !q.clean [(2, 0x3FFFFFFF), (3, top32), (4, top32), (5, top32), (6, 0xFF), (7, top32), (8, top32)] ∨ rank ≥ k.n then .refuse .badParam
    else if k.run.isSome ∨ k.restore.isSome then .refuse .notPermitted
    else
      match d.readItems q.part (bufOff (q.w 5).toNat (q.f 6 7 0)) k.items.length with
      | .error st => .refuse st
      | .ok its =>
        let exts := (its.filter fun i => i.kind == 0).flatMap fun i => runExts i.first i.count
        let shape (l : List CkpItem) : List (Nat × Nat) := l.map fun i => (i.kind, i.count)
        if !d.allMapped q.part exts ∨ d.anyFrozen q.part exts ∨ (rank = k.rank ∧ shape its ≠ shape k.items) then .refuse .badParam
        else
          let r : CkpRestore := ⟨q.seq, rank, q.d2 3, its, q.d2 7, 0, [], [], 0, [], [], []⟩
          .accept [] (.other 0x0804 j 0 0) (d.setJob j { k with restore := some r })

/-! ### Rows: after each, Sheaf goes on as far as it can -/

def sheafRow (f : Ctx → Dev → Dev) (s : State) : Host.Outcome State Fault Refusal := onDev (fun x d => (f x d).reedSettle x) s

def effCkpJobDefine (c : Cmd) (s : State) : Host.Outcome State Fault Refusal := hostCmd 0x0800 c jobDefine s
def effCkpJobDrop (c : Cmd) (s : State) : Host.Outcome State Fault Refusal := hostCmd 0x0801 c jobDrop s
def effCkpNotice (c : Cmd) (s : State) : Host.Outcome State Fault Refusal := sheafRow (runCmd 0x0802 c noticeCmd) s
def effCkpQuery (c : Cmd) (s : State) : Host.Outcome State Fault Refusal := hostCmd 0x0803 c ckpQueryCmd s
def effCkpRestore (c : Cmd) (s : State) : Host.Outcome State Fault Refusal := sheafRow (runCmd 0x0804 c ckpRestoreCmd) s
def effCkpShrink (c : Cmd) (s : State) : Host.Outcome State Fault Refusal := sheafRow (runCmd 0x0805 c ckpShrinkCmd) s
def effNetworkNotice (j : Nat) (msg : List Byte) (s : State) : Host.Outcome State Fault Refusal := sheafRow (netNotice j msg) s
def effStalledWrite (a : Nat) (bs : List Byte) (s : State) : Host.Outcome State Fault Refusal := onDev (stalledIn a bs) s
def effCopyRegionDone (j i r : Nat) (s : State) : Host.Outcome State Fault Refusal := sheafRow (copyDone j i r) s
def effShardComplete (j n : Nat) (s : State) : Host.Outcome State Fault Refusal := sheafRow (shardDone j n) s
def effShardWriteConfirmed (j n : Nat) (ok : Bool) (s : State) : Host.Outcome State Fault Refusal := sheafRow (shardConfirmed j n ok) s
def effAnnouncementArrival (j r g i : Nat) (dg : BitVec 512) (s : State) : Host.Outcome State Fault Refusal := sheafRow (announced j r g i dg) s
def effVerdictArrival (j g i : Nat) (sk : Option Nat) (s : State) : Host.Outcome State Fault Refusal :=
  sheafRow (fun _ d => d.ckpVerdict j g i sk) s
def effEndMarkerArrival (j r : Nat) (s : State) : Host.Outcome State Fault Refusal := sheafRow (endMarked j r) s
def effDedupTimeout (j : Nat) (s : State) : Host.Outcome State Fault Refusal :=
  sheafRow (fun x d => d.ckpSteps x j ((d.job j).elim 0 fun k => k.run.elim 0 fun r => r.anns.length + 1)) s
def effVerdictTimeout (j n : Nat) (s : State) : Host.Outcome State Fault Refusal := sheafRow (verdictLate j n) s
def effManifestReportArrival (j r loc len : Nat) (g : BitVec 512) (s : State) : Host.Outcome State Fault Refusal :=
  sheafRow (reported j r loc len g) s
def effCommitRecordConfirmed (j : Nat) (s : State) : Host.Outcome State Fault Refusal := sheafRow (recordConfirmed j) s
def effCommitMessageArrival (j : Nat) (s : State) : Host.Outcome State Fault Refusal := sheafRow (commitMsg j) s
def effCommitTimeout (j : Nat) (s : State) : Host.Outcome State Fault Refusal := sheafRow (commitLate j) s

end Sys2Proof.Machine
end

