-- ==== Sys2Proof/Machine/Move.lean ====
section
/-! DEFINITION. The steps of every move in granules: extents, stores, loads, weights of a placement, prefixes (R113-R118, R177, R178,
R234). -/

namespace Sys2Proof.Machine

/-- Whether a home is a unit of NAND. -/
def Home.isNand : Home → Bool
  | .nand _ => true
  | .hbm _ => false

/-- A home of a frozen object replaced. -/
def Dev.setShareHome (d : Dev) (sh i : Nat) (h : Home) : Dev :=
  match d.share sh with
  | none => d
  | some s => d.setShare sh { s with homes := s.homes.set i h }

/-- The start of the next granule's copy of a weight move of a placement. -/
def copyStartShare (id : Nat) (o : Op) (d : Dev) : Option Dev :=
  match o.kind with
  | .shareUp model sh dst m =>
    if m.copying || !d.hasDesc id || !(d.share sh).elim false (fun s => s.homes.any Home.isNand) then none
    else some (d.setOp id (.shareUp model sh dst { m with copying := true }))
  | .shareDown model sh units m =>
    match (d.share sh).elim none fun s => s.homes.find? fun h => !h.isNand with
    | none => none
    | some h =>
      if m.copying || !d.hasDesc id then none
      else
        (d.startCopy id h).map fun d =>
          let w := d.granToNand o.part 1 h
          let d := w.2.shapeNand o.part 3 3 id [w.1]
          d.setOp id (.shareDown model sh (units ++ [w.1]) { m with copying := true, conf := false })
  | _ => none

/-- The end of a weight move: its model's load or eviction goes on, and with the last one the commands that waited for it (R177, R180). -/
def Dev.afterShare (d : Dev) (x : Ctx) (model n : Nat) (st : Status) : Dev :=
  let d := d.shareMoved x model st n
  (if (d.mdl model).elim true fun k => k.moveOps == 0 then d.mdlRelease x model else d).schedule x

/-- The end of a move of a share to HBM. -/
def Dev.endShareUp (d : Dev) (x : Ctx) (id p model sh : Nat) (dst : List Nat) (m : MoveProg) (st : Status) : Dev :=
  (d.endUp x id p sh dst m st).afterShare x model m.next st

/-- The end of a move of a share to NAND. -/
def Dev.endShareDown (d : Dev) (x : Ctx) (id p model sh n die : Nat) (st : Status) : Dev :=
  (((d.freeDesc id).traceMove x p sh n st die).endOp x id st [wd n]).afterShare x model n st

/-- The confirmed or failed write of the granule in copy of a weight move. -/
def switchShare (id : Nat) (confirmed : Bool) (o : Op) (x : Ctx) (d : Dev) : Dev :=
  match o.kind with
  | .shareUp model sh dst m =>
    match if m.copying then d.share sh else none with
    | none => d
    | some s =>
      let i := s.homes.findIdx Home.isNand
      match s.homes[i]? with
      | some (.nand u) =>
        let a := m.to dst m.next
        if confirmed then
          let d := ((d.copyTo x (.nand u) a).setShareHome sh i (.hbm a)).freeUnits [u]
          if s.onNand ≤ 1 then d.endShareUp x id o.part model sh dst m.step .ok
          else if o.aborted then d.endShareUp x id o.part model sh dst m.step .aborted
          else d.setOp id (.shareUp model sh dst m.step)
        else if m.tries + 1 ≥ 3 then d.endShareUp x id o.part model sh dst m .deviceFault
        else if o.aborted then d.endShareUp x id o.part model sh dst m .aborted
        else
          let r := d.retryAt o.part a m
          r.2.setOp id (.shareUp model sh dst r.1)
      | _ => d
  | .shareDown model sh units m =>
    match if m.copying then d.share sh else none with
    | none => d
    | some s =>
      let i := s.homes.findIdx fun h => !h.isNand
      let u := (units[m.next]?).getD 0
      match s.homes[i]? with
      | some (.hbm a) =>
        let die := stackDie (stackOf a)
        if confirmed then
          if !m.conf then d
          else
            let d := (d.setShareHome sh i (.nand u)).release x (.hbm a) (.nand u)
            let n := m.step.next
            if s.homes.length - s.onNand ≤ 1 then d.endShareDown x id o.part model sh n die .ok
            else if o.aborted then d.endShareDown x id o.part model sh n die .aborted
            else d.setOp id (.shareDown model sh units m.step)
        else
          let d := (d.dropCopy x (.hbm a)).freeUnits [u]
          if m.tries + 1 ≥ 3 then d.endShareDown x id o.part model sh m.next die .deviceFault
          else if o.aborted then d.endShareDown x id o.part model sh m.next die .aborted
          else d.setOp id (.shareDown model sh (units.take m.next) { m with tries := m.tries + 1, copying := false, conf := false })
      | _ => d
  | _ => d

/-- The range of HBM of a home. -/
def Home.range : Home → List (Nat × Nat)
  | .hbm a => [(a, 32768)]
  | .nand _ => []

/-- The ranges of HBM that the next copy of a move reads at its start, where its destination is in NAND; or reads and writes at its
switch, where it is in HBM. -/
def Dev.copyRanges (d : Dev) (o : Op) (start : Bool) : List (Nat × Nat) :=
  let src : List (Nat × Nat) × Bool := match o.kind with
    | .moveExt f dst m => ((d.nextHeld o.part f dst.length m.next).elim [] fun n => n.2.range ++ [(m.to dst n.1, 32768)], false)
    | .store f count _ _ m => ((d.nextHeld o.part f count m.next).elim [] fun n => n.2.range, true)
    | .load _ _ dst m => ([(m.to dst m.next, 32768)], false)
    | .shareUp _ _ dst m => ([(m.to dst m.next, 32768)], false)
    | .shareDown _ sh _ _ => (((d.share sh).elim none fun s => s.homes.find? fun h => !h.isNand).elim [] Home.range, true)
    | k =>
      match k.pfxMove.bind fun m => (d.share m.1).map fun s => (m.2, s) with
      | some (m, s) => (((d.pfxSrc o s.pages m.next).elim [] Home.range) ++ ((s.homes[m.next]?).elim [] Home.range), false)
      | none => ([], false)
  if src.2 == start then src.1 else []

/-- GRANULE_COPY_START: the next granule of a move is in copy, where nothing holds it (R114, R115). A PFX_FROM_SESSION that waited for a
checkpoint takes its places when the record is copied (R358). -/
def copyStart (id : Nat) (x : Ctx) (d : Dev) : Dev :=
  match tget d.ops id with
  | none => d
  | some o =>
    match o.kind with
    | .pfxSession h 0 _ => if d.ckpHolds h then d else d.pfxResume x id h
    | _ =>
      d.once x .culm (1, id) (d.copyRanges o true) fun d =>
        ((((copyStartMem id o d).or (copyStartShare id o d)).or (pfxCopyStart id o d)).getD d)

/-- GRANULE_SWITCH: the destination confirms the write of the granule in copy, or the write fails (R114, R117). -/
def copySwitch (id : Nat) (confirmed : Bool) (x : Ctx) (d : Dev) : Dev :=
  match tget d.ops id with
  | none => d
  | some o =>
   d.once x .culm (1, id) (if confirmed then d.copyRanges o false else []) fun d =>
    match o.kind with
    | .shareUp _ _ _ _ => switchShare id confirmed o x d
    | .shareDown _ _ _ _ => switchShare id confirmed o x d
    | .pfxCreate _ _ _ _ => pfxSwitch id confirmed o x d
    | .pfxSession _ _ _ => pfxSwitch id confirmed o x d
    | _ => switchMem id confirmed o x d

def effGranuleCopyStart (id : Nat) (s : State) : Host.Outcome State Fault Refusal := onDev (copyStart id) s
def effGranuleSwitch (id : Nat) (ok : Bool) (s : State) : Host.Outcome State Fault Refusal := onDev (copySwitch id ok) s

end Sys2Proof.Machine
end

