-- ==== Sys2Proof/Machine/Abort.lean ====
section
/-! DEFINITION. DEV_ABORT (R64) with the abort points that each chapter names (R107, R137, R182, R242, R260, R292, R325, R354, R368,
R399, R457). -/

namespace Sys2Proof.Machine

/-- The abort of a revive before its first NAND read (R107): where no other command asks for the revive, its pages and its staging entry
are released and the session is PARKED. -/
def Dev.reviveStop (d : Dev) (x : Ctx) (h : Word) (id : Nat) : Option Dev :=
  match d.sesOf h with
  | none => none
  | some s =>
    match s.move with
    | none => none
    | some m =>
      if m.readStarted ∨ s.evLatched ∨ m.byWake then none
      else
        let d := d.endOp x id .aborted []
        if d.ops.any fun o => o.2.kind == .reviveSes h then some d
        else
          let d := (d.setSes h { s with move := none }).dropKv h
          let d := match d.sesOf h with
            | some t => if t.state = SesStateName.moving then d.goto x h t .parked else d
            | none => d
          some (d.unlatch x s.die)

/-- A park that has written nothing to the FTL: WARM again (R107). -/
def Dev.parkStop (d : Dev) (x : Ctx) (h : Word) (id : Nat) : Option Dev :=
  match (d.sesOf h).elim none Ses.move with
  | none => none
  | some m => if m.obj = 0 then some ((d.endOp x id .aborted []).parkBack x h) else none

/-- A move out of which nothing has been sent, and a move in whose image is not complete (R107). -/
def Dev.moveStop (d : Dev) (x : Ctx) (h : Word) : Option Dev :=
  match (d.sesOf h).elim none Ses.move with
  | none => none
  | some m => if m.sent.isSome ∨ (m.recOp :: m.sends).any (d.sendLeft m.qpn) = true then none else some (d.moveBack x h .aborted)
def Dev.moveInStop (d : Dev) (x : Ctx) (h : Word) : Option Dev :=
  match (d.sesOf h).elim none Ses.move with
  | none => none
  | some m => if d.imageIn h m then none else some (d.moveInEnd x h .aborted)

/-- The units of an operation that wait at the shapers. -/
def Dev.unitsWaiting (d : Dev) (id : Nat) : Nat :=
  nsum (d.shp.flows.map fun f => (f.2.queue.filter fun u => match u.what with
    | .host _ _ _ o _ => o == id
    | _ => false).length)

/-- A load whose first share move has not begun: the reservation is released (R182). -/
def Dev.loadStop (d : Dev) (x : Ctx) (id m : Nat) : Option Dev :=
  let mine := d.ops.filter fun o => match o.2.kind with
    | .shareUp k _ _ _ => k == m
    | _ => false
  let begun := mine.any fun o => match o.2.kind with
    | .shareUp _ _ _ g => g.copying || g.next != 0
    | _ => false
  match d.mdl m with
  | none => none
  | some k =>
    if k.st ≠ .loading ∨ k.loadOp ≠ id ∨ k.moveOps = 0 ∨ k.moveOps ≠ mine.length ∨ begun then none
    else
      let d := ((d.freeCores k).setMdl m { k with st := .registered, loadOp := 0 }).endOp x id .aborted []
      some (((d.stopUps x m).dropEvicts x m).mdlRelease x m)

/-- An eviction before the end of the step in progress is taken back, as is one that waits for a load; after it, the weight moves stop as
a MEM_STORE would (R137, R182). -/
def Dev.evictStop (d : Dev) (x : Ctx) (id m : Nat) : Option Dev :=
  match d.mdl m with
  | none => none
  | some k =>
    let left := k.evictOps.filter (· != id)
    let back := k.st == .evicting && left.isEmpty
    let d := (d.setMdl m { k with
      evictOps := left
      st := if back then .resident else k.st
      evictAfter := if left.isEmpty then none else k.evictAfter }).endOp x id .aborted []
    if !left.isEmpty then some d
    else
      some (d.ops.foldl (fun (d : Dev) (o : Nat × Op) =>
        match o.2.kind with
        | .shareDown n sh _ g =>
          if n ≠ m then d
          else if g.copying then d.markAborted o.1
          else d.endShareDown x o.1 o.2.part m sh g.next 0 .aborted
        | _ => d) d)

/-- The tokens of a session's pending input that a running batch step takes. -/
def Dev.taking (d : Dev) (h : Word) : Nat :=
  nsum (d.sch.batches.map fun b => if b.2.running then nsum ((b.2.rows.filter fun r => r.h == h && r.kind != 0 && r.kind != 3).map Row.count) else 0)

/-- The marks of later submits of a session move down by the tokens removed. -/
def Dev.shiftMarks (d : Dev) (h : Word) (pos len : Nat) : Dev :=
  { d with ops := tmap d.ops fun _ o =>
      match o.kind with
      | .submit g n (some (p, l)) => if g = h ∧ p > pos then { o with kind := .submit g n (some (p - len, l)) } else o
      | _ => o }

/-- A decided batch that has not started drops the rows of a session. -/
def Dev.dropRows (d : Dev) (h : Word) : Dev :=
  { d with sch := { d.sch with batches := tmap d.sch.batches fun _ b => if b.running then b else { b with rows := b.rows.filter fun r => r.h != h } } }

/-- The text request of a command leaves Spelt. -/
def Dev.dropText (d : Dev) (src : TxtSrc) : Dev :=
  let ids := (d.txt.reqs.filter fun r => r.src == src).map TxtReq.id
  ids.foldl (fun (d : Dev) n => d.drainEnd (drainId 24 n)) { d with txt := { d.txt with reqs := d.txt.reqs.filter fun r => r.src != src } }

/-- A REQ_SUBMIT none of whose tokens a step has taken: they leave pending input (R260). -/
def Dev.submitStop (d : Dev) (x : Ctx) (h : Word) (id : Nat) : Option (Nat × Nat) → Option Dev
  | none => some ((d.dropText (.submit id)).submitFails x h id .aborted)
  | some (pos, len) =>
    match d.sesOf h with
    | none => none
    | some s =>
      let o := pos - s.nextPos
      if pos < s.nextPos ∨ (o < d.taking h ∧ len ≠ 0) then none
      else
        let d := ((d.setPend h s (s.pend.take o ++ s.pend.drop (o + len))).shiftMarks h pos len).dropRows h
        let d := d.submitFails x h id .aborted
        match d.sesOf h with
        | some t => if t.request = 0 ∧ t.state = .opened then some (d.afterReq x h) else some d
        | none => some d

/-- A NET_SEND whose first packet has not left (R325): it and what started after it give their numbers back. -/
def Dev.netStop (d : Dev) (x : Ctx) (id n : Nat) : Option Dev :=
  if thas d.net.deferred id then some (d.endDeferred x id .aborted)
  else
    match d.qp n with
    | none => none
    | some q =>
      match q.sends.find? fun s => s.op == id with
      | none => none
      | some s =>
        if s.onWire then none else some ((((d.unsend n id).endSend x n id .aborted)).pump x n)

/-- A Panicle command before its abort point: an update until it writes, a compaction until it removes, a query at any time (R354). -/
def Dev.panStop (d : Dev) (x : Ctx) (id : Nat) : Option Dev :=
  if d.pan.idx.any fun i => i.2.updates.any fun u => u.op == id && u.kind == 3 then none else some (d.panAbort x id)

/-- A started operation abandoned, if it is before its abort point. -/
def Dev.abortOp (d : Dev) (x : Ctx) (id : Nat) (o : Op) : Option Dev :=
  let end_ (d : Dev) : Option Dev := some (d.endOp x id .aborted [])
  match o.kind with
  | .closeSes _ => none
  | .parkSes h => d.parkStop x h id
  | .reviveSes h => d.reviveStop x h id
  | .moveSes h => d.moveStop x h
  | .moveIn h => d.moveInStop x h
  | .unmap _ _ => end_ d
  | .moveExt first dst m => some (if m.copying then d.markAborted id else d.endMoveExt x id o.part first dst m .aborted)
  | .store first count _ units m => some (if m.copying then d.markAborted id else d.endStore x id o.part first count units m.next .aborted)
  | .load tok first dst m => some (if m.copying then d.markAborted id else d.endLoad x id o.part tok first dst m .aborted)
  | .xfer _ _ len out =>
    if out ∧ d.hasDesc id ∧ d.unitsWaiting id < (len + 4095) / 4096 then none
    else some (((d.dropUnits id).freeDesc id).endOp x id .aborted [0])
  | .regionMode => some (d.modeAbort x id)
  | .progLoad _ _ => end_ d
  | .curveLoad _ _ => end_ d
  | .register _ _ => none
  | .mdlLoad m => d.loadStop x id m
  | .mdlEvict m _ => d.evictStop x id m
  | .mdlUnreg _ => none
  | .shareUp _ _ _ _ => none
  | .shareDown _ _ _ _ => none
  | .pfxSession _ sh m => if m.next ≠ 0 then none else some (d.pfxStop x id sh 0 .kv .aborted)
  | .pfxCreate sh _ _ m => if m.next ≠ 0 then none else some (d.pfxStop x id sh 0 .work .aborted)
  | .train j =>
    match tget d.sch.jobs j with
    | none => none
    | some t => some (if t.inStep then d.markAborted id else d.trainEnd x j t .aborted)
  | .spill _ _ _ _ _ => none
  | .fetchBack _ _ _ _ => none
  | .submit h _ mark => d.submitStop x h id mark
  | .tableLoad _ _ _ _ => end_ d
  | .tokenize _ _ => end_ (d.dropText (.tokenize id))
  | .detok _ _ => end_ (d.dropText (.detok id))
  | .weights _ _ => some (d.openAbort x id)
  | .held oc ws =>
    if oc = 0x0103 ∨ oc = 0x0306 then none
    else if oc / 256 = 3 then some ((d.endOp x id .aborted []).mdlRelease x (((ws[2]?).getD 0).toNat % 65536))
    else end_ d
  | .other 0x0610 n _ _ => d.netStop x id n
  | .other 0x0702 _ _ _ => d.panStop x id
  | .other 0x0703 _ _ _ => d.panStop x id
  | .other 0x0704 _ _ _ => d.panStop x id
  | .other 0x0705 _ _ _ => d.panStop x id
  | .other 0x0709 _ _ _ => d.panStop x id
  | .other 0x0802 j _ _ => d.ckpAbort x j id
  | .other 0x0804 j _ _ => d.restoreAbort x j id
  | .other 0x0900 _ _ _ => end_ d
  | .other 0x0903 _ _ _ => end_ d
  | .other 0x0905 _ _ _ => end_ (d.dropUnits id)
  | .other 0x0F31 _ _ _ => end_ d
  | .other _ _ _ _ => none

/-- The opcodes for which a chapter names an abort point (R107, R137, R182, R242, R260, R292, R325, R354, R368, R399, R457, and
chapters 6 and 19): a command of one that has not run yet is before it. -/
def abortable (op : Nat) : Bool :=
  ([0x0101, 0x0102, 0x0104, 0x0106, 0x0201, 0x0202, 0x0203, 0x0210, 0x0211, 0x0301, 0x0302, 0x0310, 0x0311, 0x0320, 0x0401, 0x0500, 0x0504,
    0x0505, 0x0610, 0x0702, 0x0703, 0x0704, 0x0705, 0x0709, 0x0802, 0x0804, 0x0900, 0x0902, 0x0903, 0x0905, 0x0B00, 0x0B01, 0x0B02,
    0x0F31, 0x0F32] : List Nat).contains op

/-- DEV_ABORT (R64): RESULT0 1 aborted, 0 no such outstanding command, 2 past its abort point. -/
def abortCmd (x : Ctx) (q : Req) (d : Dev) : Ans :=
  if !q.clean [(2, 0xFFFFF)] then .refuse .badParam
  else
    match d.cmds.find? fun c => some c.fn == q.fn && c.sq == q.f 2 19 16 && c.tag == q.f 2 15 0 && c.seq != q.seq with
    | none => .done .ok [0] d
    | some c =>
      match c.phase with
      | .held => .done .ok [1] (d.endCmd x c .aborted [])
      | .started => if abortable c.op then .done .ok [1] (d.endCmd x c .aborted []) else .done .ok [2] d
      | .accepted =>
        match tget d.ops c.seq with
        | none => .done .ok [2] d
        | some o =>
          match d.abortOp x c.seq o with
          | some d => .done .ok [1] d
          | none => .done .ok [2] d

/-- DEV_ABORT as a row: Tiller, the scheduler and Reed act on what the abort left. -/
def abortRow (c : Cmd) (x : Ctx) (d : Dev) : Dev := ((runCmd 0x0F02 c abortCmd x d).schedule x).reedSettle x

def effDevAbort (c : Cmd) (s : State) : Host.Outcome State Fault Refusal := onDev (abortRow c) s

end Sys2Proof.Machine
end

