-- ==== Sys2Proof/Machine/Commit.lean ====
section
/-! DEFINITION. Configuration commits, copies, cancels and swaps (R27-R37, R480, R481), with the commit check of every block. -/

namespace Sys2Proof.Machine

/-! ### The shadow set -/

/-- The shadow value of a register, of a device register, of partition p's, and of a scope's (16: device). -/
def Dev.shdV (d : Dev) (key off : Nat) : Nat := tgetD d.regs.shd key (resetOf off)
def Dev.shdDev (d : Dev) (off : Nat) : Nat := d.shdV (devKey off) off
def Dev.shdPart (d : Dev) (p off : Nat) : Nat := d.shdV (partKey p off) off
def scopeKey (scope off : Nat) : Nat := if scope = 16 then devKey off else partKey scope off
def Dev.shdIn (d : Dev) (scope off : Nat) : Nat := d.shdV (scopeKey scope off) off

/-- The register arrays of a block whose SH fields lie in a scope's slice (R27). -/
def sliceRegs (scope b : Nat) : List RegDesc :=
  (regsOfBlock b).filter fun r => r.scope == (if scope = 16 then RegScope.dev else RegScope.part) && r.fields.any fun f => f.acc == .sh

/-- Whether every SH field of a value lies in its stated range (R31). -/
def RegDesc.inRange (r : RegDesc) (v : Nat) : Bool :=
  r.fields.all fun f => f.acc != .sh || (f.min ≤ fld v f.hi f.lo && fld v f.hi f.lo ≤ f.max)

/-- The block offsets of the registers of a slice with a field out of range. SES_COMPRESSOR's RATIO is checked with its MODEL. -/
def Dev.rangeErrs (d : Dev) (scope b : Nat) : List Nat :=
  (sliceRegs scope b).flatMap fun r => (List.range r.count).filterMap fun i =>
    let off := r.off + i * r.stride
    if off = 0x030008 ∨ r.inRange (d.shdIn scope off) then none else some (off % 0x10000)

/-! ### Cross-field checks (R31): block offsets of the fields that break a rule -/

/-- The offset, where a check fails. -/
def errAt (bad : Bool) (off : Nat) : List Nat := if bad then [off] else []

/-- SES: slot ranges, quotas against indices in use, WINDOW, RATIO. -/
def Dev.sesErrs (d : Dev) (scope : Nat) : List Nat :=
  if scope = 16 then
    let base (p : Nat) : Nat := fld (d.shdDev (0x030100 + p * 8)) 24 0
    let quota (p : Nat) : Nat := fld (d.shdDev (0x030104 + p * 8)) 24 0
    (List.range 16).flatMap fun p =>
      let meets (q : Nat) : Bool := decide (base p < base q + quota q) && decide (base q < base p + quota p) && quota p != 0 && quota q != 0
      let used := d.ses.tbl.any fun s => s.1 / 2 ^ 24 == p && s.2.state != .free && decide (quota p ≤ s.1 % 2 ^ 24)
      errAt (decide (base p + quota p > 33554432) || (List.range p).any meets) (0x0100 + p * 8) ++ errAt used (0x0104 + p * 8)
  else
    let c := d.shdPart scope 0x030008
    errAt (fld (d.shdPart scope 0x030000) 14 0 % 64 != 0) 0 ++
      errAt (fld c 15 0 != 0 && (decide (fld c 31 24 < 2) || decide (fld c 31 24 > 64))) 8

/-- MEM: the HBM and NAND quotas, and the layout against what each region holds; LOW below HIGH. -/
def Dev.memErrs (d : Dev) (scope : Nat) : List Nat :=
  if scope = 16 then
    let sum (o : Nat) (hi : Nat) : Nat := nsum ((List.range 16).map fun p => fld (d.shdDev (0x040100 + o + p * 8)) hi 0)
    let pslc := fld (d.shdDev 0x040200) 8 0
    let units (bulk : Bool) : Nat := usableUnits pslc d.nand.failed.length bulk
    errAt (decide (sum 0 9 > 752)) 0x0100 ++ errAt (decide (sum 4 14 * 1000000000 > (units false + units true) * 32768)) 0x0104 ++
      errAt (decide (units false < d.regionInUse 0) || decide (units true < d.regionInUse 1)) 0x0200
  else
    let v := d.shdPart scope 0x040300
    errAt (decide (fld v 7 0 ≥ fld v 15 8)) 0x0300

/-- Whether a region holds an extent, page or frozen object of a partition other than `own`. -/
def Dev.regionForeign (d : Dev) (s r own : Nat) : Bool :=
  (d.mem.exts.any fun e => e.2 != own && isHbm (extentAddr e.1) && stackOf (extentAddr e.1) == s && regionOf (extentAddr e.1) == r) ||
    d.mem.gran.any fun g => g.2.part != own && inRegion s r g.1

/-- GLM: owner changes (R139): the new owner may find nothing that is not its own, and SHARED owns nothing. Owners are a partition, DEVICE or
SHARED, and RESERVED in the reserve alone. -/
def Dev.glmErrs (d : Dev) (scope : Nat) : List Nat :=
  if scope = 16 then
    (List.range 128).flatMap fun i =>
      let s := i / 8
      let v := d.shdDev (0x050100 + i * 4)
      errAt ((List.range 6).any fun k =>
        let r := i % 8 * 6 + k
        let o := fld v (5 * k + 4) (5 * k)
        let reserve := (s == 0 || s == 8) && decide (r ≥ 40)
        !reserve && (decide (17 ≤ o ∧ o ≤ 30) || (o != d.regionOwner s r && (d.isCompute s r || d.regionForeign s r o)))) (0x0100 + i * 4)
  else []

/-- A GRID_Pp_AREA value: x0, y0, width, height. -/
def areaOf (v : Nat) : Option (Nat × Nat × Nat × Nat) :=
  if bitAt v 16 then some (fld v 3 0, fld v 7 4, fld v 11 8 + 1, fld v 15 12 + 1) else none

/-- GRID: areas within the grid, apart from each other, and around every resident placement. -/
def Dev.gridErrs (d : Dev) (scope : Nat) : List Nat :=
  if scope = 16 then
    let area (p : Nat) := areaOf (d.shdDev (0x060100 + p * 4))
    (List.range 16).flatMap fun p =>
      let held := ((d.grid.mdls.filter fun m => m.2.part == p && m.2.st == .resident).map fun m => m.2.cores).flatten
      match area p with
      | none => errAt (!held.isEmpty) (0x0100 + p * 4)
      | some (x0, y0, w, h) =>
        let out := held.any fun n => !(decide (x0 ≤ n % 16) && decide (n % 16 < x0 + w) && decide (y0 ≤ n / 16) && decide (n / 16 < y0 + h))
        let meets := (List.range p).any fun q => match area q with
          | none => false
          | some (x1, y1, v, g) => decide (x0 < x1 + v) && decide (x1 < x0 + w) && decide (y0 < y1 + g) && decide (y1 < y0 + h)
        errAt (decide (x0 + w > 16) || decide (y0 + h > 16) || meets || out) (0x0100 + p * 4)
  else []

/-- SCH: CHUNK a multiple of 64 from 64 to 4,096, TOKENS 64 to 8,192. -/
def Dev.schErrs (d : Dev) (scope : Nat) : List Nat :=
  if scope = 16 then []
  else
    let c := fld (d.shdPart scope 0x070000) 12 0
    let b := fld (d.shdPart scope 0x070004) 13 0
    errAt (c % 64 != 0 || decide (c < 64) || decide (c > 4096)) 0 ++ errAt (decide (b < 64) || decide (b > 8192)) 4

/-- TXT: the bank quotas, and the vocabulary sizes of the slots in use. -/
def Dev.txtErrs (d : Dev) (scope : Nat) : List Nat :=
  if scope = 16 then errAt (decide (nsum ((List.range 16).map fun p => fld (d.shdDev (0x080100 + p * 4)) 15 0) > 32768)) 0x0100
  else
    (List.range 8).flatMap fun k =>
      let n := fld (d.shdPart scope (0x080000 + k * 4)) 18 0
      errAt (n != 0 && (decide (n < 256) || decide (n > 262144))) (k * 4)

/-- Whether a slot's merge table is invalid or names an id at or above the VOCAB_SIZE; whether its vocabulary table, which holds the byte
map, is invalid, has another VOCAB, or maps a byte to such an id. -/
def TokSlot.mergesBad (s : TokSlot) (n : Nat) : Bool :=
  !s.mergesOk || s.merges.any fun m => decide (n ≤ m.1) || decide (n ≤ m.2.1) || decide (n ≤ m.2.2)
def TokSlot.vocabBad (s : TokSlot) (n : Nat) : Bool := !s.vocabOk || s.vocab.length != n || s.byteMap.any fun i => decide (n ≤ i)

/-- The tables of a slice that fail (R480), lowest number first. Every profile is held to the smallest VOCAB_SIZE of the slots in the model
map, and every row of a refresh curve to its stated values (log entry 86). -/
def Dev.tableErrs (d : Dev) (scope b : Nat) : List Nat :=
  if b = 5 ∧ scope = 16 then
    let k := d.glm.bankShd
    let c := d.glm.curvesShd
    let rising (l : List Nat) : Bool := (l.zip (l.drop 1)).all fun e => decide (e.1 < e.2)
    let refreshOk := c.refreshValid && ((c.refresh.head?).elim false fun r => r.1 == -40) &&
      ((c.refresh.zip (c.refresh.drop 1)).all fun e => decide (e.1.2.1 ≤ e.2.2.1)) &&
      c.refresh.all fun r => (r.2.1 == 1 || r.2.1 == 2 || r.2.1 == 4) && decide (1024 ≤ r.2.2)
    let lim (i j : Nat) : Nat := (c.limits[i * 4 + j]?).getD 0
    let throttleOk := c.throttleValid && rising c.temps && rising c.acts && (List.range 4).all fun i => (List.range 4).all fun j =>
      (j == 0 || decide (lim i j ≤ lim i (j - 1))) && (i == 0 || decide (lim i j ≤ lim (i - 1) j))
    errAt (!k.valid && !k.raw.isEmpty) 0 ++ errAt (!refreshOk) 1 ++ errAt (!throttleOk) 2
  else if b = 8 ∧ scope ≠ 16 then
    let t := d.txtShd scope
    let size (k : Nat) : Nat := fld (d.shdPart scope (0x080000 + k * 4)) 18 0
    let use := (List.range 8).filter fun k => size k != 0
    let mapped := (t.mmap.map fun e => size e.2).filter (· != 0)
    let bound := mapped.foldl min 262144
    (use.filter fun k => !(t.slot k).machineOk) ++ ((use.filter fun k => (t.slot k).mergesBad (size k)).map (8 + ·)) ++
      ((use.filter fun k => (t.slot k).vocabBad (size k)).map (16 + ·)) ++
      errAt (!t.profilesOk || t.profiles.any fun f =>
        (f.gramEn && !thas t.grams f.grammar) || (f.pre ++ f.post).any fun i => decide (bound ≤ i)) 24 ++
      errAt (t.mmap.any fun e => size e.2 == 0) 32 ++
      ((t.grams.filter fun g => match d.share g.2.1 with
        | some s => (d.gramHead s).2.1 != size g.2.2
        | none => true).map fun g => 48 + g.1)
  else []

/-! ### NET and SHP look at each other (R293) -/

/-- Whether a block's device slice will have swapped by a tick: this commit names it, or a pending one that swaps no later. -/
def Dev.willSwap (d : Dev) (mask tick b : Nat) : Bool :=
  bitAt mask b || d.commits.any fun c => c.scope == 16 && bitAt c.mask b && decide (c.tick ≤ tick)
def Dev.willBe (d : Dev) (mask tick b off : Nat) : Nat := if d.willSwap mask tick b then d.shdDev off else d.devReg off

/-- Whether a port mode presents a sub-port, and its rate in MB/s (R293). -/
def presents (mode s : Nat) : Bool := if mode = 0 then s == 0 else if mode = 1 then decide (s < 2) else true
def subRate (mode : Nat) : Nat := if mode = 0 then 100000 else if mode = 1 then 50000 else 25000

/-- NET: quotas, UDP port, modes, and R293 against the PEAK that SHP will have. -/
def Dev.netErrs (d : Dev) (scope mask tick : Nat) : List Nat :=
  if scope = 16 then
    let sum (o : Nat) : Nat := nsum ((List.range 16).map fun p => fld (d.shdDev (0x090200 + o + p * 16)) 20 0)
    let mp := d.shdDev 0x090120
    let modes := (List.range 4).flatMap fun p =>
      let m := fld (d.shdDev (0x090100 + p * 4)) 1 0
      let lost := d.net.qps.any fun q => q.2.sub / 4 == p && !presents m (q.2.sub % 4)
      let slow := (List.range 4).any fun s => presents m s &&
        decide (subRate m < fld (d.willBe mask tick 10 (0x0A1004 + (4 * p + s) * 0x10)) 16 0)
      errAt (decide (m > 2) || lost || slow) (0x0100 + p * 4)
    modes ++ errAt (fld mp 15 0 == 0 || fld mp 15 0 == 4791) 0x0120 ++ errAt (decide (sum 0 > 1048574)) 0x0200 ++
      errAt (decide (sum 4 > 1048576)) 0x0204 ++ errAt (decide (sum 8 > 49152)) 0x0208
  else []

/-- A profile's rule: PEAK no less than RATE and 1, BURST no less than 16; offsets of RATE, PEAK and BURST. -/
def Dev.profErrs (d : Dev) (scope off : Nat) : List Nat :=
  let rate := fld (d.shdIn scope off) 16 0
  let peak := fld (d.shdIn scope (off + 4)) 16 0
  errAt (decide (peak < rate) || peak == 0) ((off + 4) % 0x10000) ++ errAt (decide (d.shdIn scope (off + 8) < 16)) ((off + 8) % 0x10000)

/-- SHP: every profile; port PEAK within the sub-port's rate; the NAND limits of R334. -/
def Dev.shpErrs (d : Dev) (scope mask tick : Nat) : List Nat :=
  if scope = 16 then
    (List.range 19).flatMap fun j =>
      let o := 0x0A1000 + j * 0x10
      let peak := fld (d.shdDev (o + 4)) 16 0
      let m := fld (d.willBe mask tick 9 (0x090100 + j / 4 * 4)) 1 0
      d.profErrs 16 o ++
        (if j < 16 then errAt (presents m (j % 4) && decide (subRate m < peak)) ((o + 4) % 0x10000)
         else if j = 16 then errAt (decide (fld (d.shdDev o) 16 0 > 4000)) (o % 0x10000) ++ errAt (decide (peak > 40000)) ((o + 4) % 0x10000)
         else [])
  else
    ((List.range 24).flatMap fun i => d.profErrs scope (0x0A0000 + i / 8 * 0x100 + i % 8 * 0x10)) ++ (List.range 3).flatMap fun i => d.profErrs scope (0x0A0300 + i * 0x10)

/-- PAN: the quotas' sum. -/
def Dev.panErrs (d : Dev) (scope : Nat) : List Nat :=
  if scope = 16 then errAt (decide (nsum ((List.range 16).map fun p => fld (d.shdDev (0x0B0100 + p * 4)) 30 0) > 1073741824)) 0x0100 else []

/-- The failing register fields of a slice, as block offsets. -/
def Dev.fieldErrs (d : Dev) (scope mask tick b : Nat) : List Nat :=
  d.rangeErrs scope b ++
    match b with
    | 3 => d.sesErrs scope
    | 4 => d.memErrs scope
    | 5 => d.glmErrs scope
    | 6 => d.gridErrs scope
    | 7 => d.schErrs scope
    | 8 => d.txtErrs scope
    | 9 => d.netErrs scope mask tick
    | 10 => d.shpErrs scope mask tick
    | 11 => d.panErrs scope
    | _ => []

/-- The first failing check of a commit (R31, R480): block, TABLE, offset; blocks in ascending order, in each its fields by offset and
then its tables by number. -/
def Dev.firstErr (d : Dev) (scope mask tick : Nat) : List Nat → Option (Nat × Bool × Nat)
  | [] => none
  | b :: bs =>
    if !bitAt mask b then d.firstErr scope mask tick bs
    else
      match d.fieldErrs scope mask tick b with
      | o :: os => some (b, false, os.foldl min o)
      | [] =>
        match d.tableErrs scope b with
        | o :: os => some (b, true, os.foldl min o)
        | [] => d.firstErr scope mask tick bs

/-! ### Commits (R30-R33, R481) -/

/-- The CFG registers of a function. -/
def Dev.cfgOf (d : Dev) (f : Fn) : CfgFn := tgetD d.cfg f.idx CfgFn.reset
def Dev.setCfg (d : Dev) (f : Fn) (c : CfgFn) : Dev := { d with cfg := tset d.cfg f.idx c }

/-- The mask bits that a commit may set: 1, 3 to 13 and 15 (R30). -/
def commitMask : Nat := 0xBFFA
def maskOk (mask : Nat) : Bool := mask != 0 && mask &&& (0x3FFFF - commitMask) == 0

/-- The scope that a function's commit names (R30): a VF's is its own partition's. -/
def commitScope (f : Fn) (device : Bool) (part : Nat) : Nat := if f.num ≠ 0 then f.num - 1 else if device then 16 else part

/-- Whether a function may use a scope (R30); a VF serves its partition only while that is bound to its port (R40; log entry 86). -/
def Dev.scopeOk (d : Dev) (f : Fn) (scope : Nat) : Bool := if scope = 16 then d.isCtrl f else d.boundTo scope f.port

/-- Whether a named slice is locked or draining. -/
def Dev.maskBusy (d : Dev) (scope mask : Nat) : Bool := (List.range 18).any fun b => bitAt mask b && d.sliceBusy scope b

/-- The status of the first check of R481 that fails, but for the slices' own. -/
def Dev.commitCheck (d : Dev) (now : Nat) (f : Fn) (mask scope tick : Nat) : Option Status :=
  if !maskOk mask then some .badParam
  else if !d.scopeOk f scope then some .notPermitted
  else if tick ≠ 0 ∧ (tick < now + 16 ∨ tick > now + 2 ^ 32) then some .badParam
  else if d.maskBusy scope mask then some .notPermitted
  else if (d.commits.filter fun c => c.scope == scope).length ≥ 4 then some .noResource
  else none

/-- The next commit identifier (R37). -/
def Dev.nextCommit (d : Dev) : Nat := nextId (fun n => d.commits.any fun c => c.id == n) 0xFFFF d.commits.length d.lastCommit

/-- CFG_COMMIT_STATUS after an operation of a function that concerns no later commit (R37). -/
def Dev.cfgStatus (d : Dev) (f : Fn) (state : Nat) (st : Status) : Dev :=
  d.setCfg f { d.cfgOf f with status := st.code, state := state, concerns := 0 }

/-- A commit: refused with a status, or accepted with its identifier and target tick (R481, R32, R37). -/
def Dev.commit (d : Dev) (x : Ctx) (f : Fn) (mask scope tick : Nat) : Except Status (Nat × Nat) × Dev :=
  match d.commitCheck x.now f mask scope tick with
  | some st => (.error st, d.cfgStatus f 3 st)
  | none =>
    let at_ := if tick = 0 then x.now + 16 else tick
    match d.firstErr scope mask at_ (List.range 18) with
    | some (b, table, off) =>
      (.error .badParam, (d.setCfg f { d.cfgOf f with errBlock := b, errTable := table, errOff := off }).cfgStatus f 3 .badParam)
    | none =>
      let id := d.nextCommit
      let d := { d with
        commits := d.commits ++ [(⟨id, f, scope, mask, at_⟩ : Commit)]
        lastCommit := id
        cfg := tmap d.cfg fun _ c => { c with issued := c.issued.filter (· != id) } }
      let c := d.cfgOf f
      (.ok (id, at_), d.setCfg f { c with
        status := Status.accepted.code, state := 1, id := id, swapTick := at_, issued := c.issued ++ [id], concerns := id })

/-- A pending commit cancelled: the functions that follow it show a state and a status. -/
def Dev.dropCommit (d : Dev) (id state : Nat) (st : Status) : Dev :=
  { d with
    commits := d.commits.filter fun c => c.id != id
    cfg := tmap d.cfg fun _ c => if c.concerns = id then { c with state := state, status := st.code, concerns := 0 } else c }

/-- A cancel by identifier (R36): in the swap tick or later it comes too late. -/
def Dev.cancel (d : Dev) (x : Ctx) (f : Fn) (id : Nat) : Status × Dev :=
  if d.commits.any fun c => c.id == id && c.fn == f && decide (x.now < c.tick) then (.ok, (d.dropCommit id 4 .ok).cfgStatus f 4 .ok)
  else
    let st : Status := if (d.cfgOf f).issued.contains id then .notPermitted else .badParam
    (st, d.cfgStatus f 0 st)

/-- A reset cancels the commits that name one of its blocks and have not swapped before its tick (R36, R440). -/
def Dev.resetCancels (d : Dev) (x : Ctx) (mask : Nat) : Dev :=
  (d.commits.filter fun c => c.mask &&& mask != 0 && decide (x.now ≤ c.tick)).foldl (fun (d : Dev) c => d.dropCommit c.id 4 .aborted) d

/-! ### Copies and swaps (R34, R35) -/

/-- The references of a set's grammar directory (R284). -/
def Dev.gramRefs (d : Dev) (t : TxtSet) (up : Bool) : Dev :=
  t.grams.foldl (fun (d : Dev) g => if up then d.shareRef g.2.1 else d.shareUnref g.2.1) d

/-- Active copied to shadow for the masked blocks of a scope, tables included (R34). -/
def Dev.copySets (d : Dev) (scope mask : Nat) : Dev :=
  let d := { d with regs := { d.regs with shd := sliceMix scope mask d.regs.shd d.regs.act } }
  let d := if scope = 16 ∧ bitAt mask 5 then { d with glm := { d.glm with bankShd := d.glm.bankAct, curvesShd := d.glm.curvesAct } } else d
  if scope < 16 ∧ bitAt mask 8 then ((d.gramRefs (d.txtSet scope) true).gramRefs (d.txtShd scope) false).setShd scope (d.txtSet scope) else d

/-- A copy, checked by steps 1, 2 and 4 of R481. -/
def Dev.copyCfg (d : Dev) (f : Fn) (mask scope : Nat) : Status × Dev :=
  let st : Status :=
    if !maskOk mask then .badParam
    else if !d.scopeOk f scope ∨ d.maskBusy scope mask then .notPermitted
    else .ok
  (st, (if st = .ok then d.copySets scope mask else d).cfgStatus f 0 st)

/-- The operations that a block's slice runs at a swap (R35), by `drainId`: transitions, granule transfers, program runs and the windows
of the stacks, intakes and requests, packets held for a context, the refill interval, queries and updates, checkpoints and restores, and
joins, opens, key loads and signatures. A matrix step, a batch decision and a packet that nothing holds are one row each. -/
def Dev.running (d : Dev) (scope b : Nat) : List Nat :=
  let mine (p : Nat) : Bool := scope == 16 || p == scope
  let ops (p : OpKind → Bool) : List Nat := ((d.ops.filter fun o => mine o.2.part && p o.2.kind).map fun o => drainId b o.1)
  match b with
  | 3 => (ops fun k => match k with
      | .parkSes _ | .reviveSes _ => true
      | _ => false) ++ (d.ses.tbl.filter fun s => mine (s.1 / 2 ^ 24) && s.2.state == .moving).map fun s =>
        drainId 3 (2 ^ 32 + (handleOf (s.1 / 2 ^ 24) s.2.gen (s.1 % 2 ^ 24)).toNat)
  | 4 => (d.mem.copying.filter fun g => (d.holder (granAddr g.1)).elim true mine).map fun g => drainId 4 g.1
  | 5 => if scope = 16 then (d.glm.units.flatMap fun u => (u.2.slots.filter fun s => s.2.st == 2).map fun s => drainId 5 (u.1 * 16 + s.1)) ++
      (List.range 16).map fun s => drainId 5 (2 ^ 20 + s)
      else []
  | 8 => ((d.txt.reqs.filter fun r => mine r.part && r.lane.isSome).map fun r => drainId 24 r.id) ++
      (d.sch.reqs.filter fun r => mine (hPart r.2.h)).map fun r => drainId 8 r.1
  | 9 => (d.net.qps.filter fun q => mine q.2.part).flatMap fun q => (List.range q.2.held.length).map fun i => drainId 9 (q.1 * 16 + i)
  | 10 => [drainId 10 0]
  | 11 => ((d.pan.queries.filter fun q => mine q.part && q.running).map fun q => drainId 11 (2 * q.id)) ++
      ((d.pan.shards.filter fun s => mine s.2.part).map fun s => drainId 11 (2 * s.2.op + 1)) ++
      d.pan.idx.filterMap fun i => if mine i.2.part then (i.2.updates.head?).map fun u => drainId 11 (2 * u.op + 1) else none
  | 12 => (d.ckp.jobs.filter fun k => mine k.2.part).flatMap fun k =>
      (if k.2.run.isSome then [drainId 12 (2 * k.1)] else []) ++ if k.2.restore.isSome then [drainId 12 (2 * k.1 + 1)] else []
  | 13 => (ops fun k => match k with
      | .weights _ _ => true
      | .other 0x0900 _ _ _ => true
      | .other 0x0903 _ _ _ => true
      | _ => false) ++ if d.sec.waiting.isEmpty then [] else [drainId 13 (2 ^ 40)]
  | _ => []

/-- The slices that drain from a swap on. -/
def Dev.startDrains (d : Dev) (scope mask : Nat) : Dev :=
  { d with drains := d.drains ++ (List.range 18).filterMap fun b =>
      if bitAt mask b then
        let l := d.running scope b
        if l.isEmpty then none else some ⟨scope, b, l⟩
      else none }

/-- A port bucket whose profile changed is set in the swap tick to its full BURST or to zero (R333). -/
def Dev.resetPorts (d old : Dev) (x : Ctx) : List Nat → Dev
  | [] => d
  | j :: js =>
    let f := d.portProf j
    let d := if f = old.portProf j then d
      else
        let n := old.shNode j
        let full := bitAt (d.devReg (0x0A1004 + j * 0x10)) 31
        d.setShNode j { n with b := { f.bucket (if full then f.cap else 0) with used := n.b.used } }
    d.resetPorts old x js

/-- The sub-ports of the ports whose mode changed go down (R293). -/
def Dev.retrain (d old : Dev) (x : Ctx) : Dev :=
  (List.range 16).foldl (fun (d : Dev) s =>
    let m (e : Dev) : Nat := fld (e.devReg (0x090100 + s / 4 * 4)) 1 0
    if m d = m old then d else linkChange s false x d) d

/-- The exchange of the named slices of a scope (R34). -/
def Dev.swapSets (d : Dev) (x : Ctx) (scope mask : Nat) : Dev :=
  let old := d
  let d := d.startDrains scope mask
  let d := { d with regs := { d.regs with
    act := sliceMix scope mask d.regs.act d.regs.shd
    shd := sliceMix scope mask d.regs.shd d.regs.act } }
  let d := if scope = 16 ∧ bitAt mask 5 then
      { d with glm := { d.glm with
        bankAct := d.glm.bankShd, bankShd := d.glm.bankAct, curvesAct := d.glm.curvesShd, curvesShd := d.glm.curvesAct } }
    else d
  let d := if scope < 16 ∧ bitAt mask 8 then
      { d with txt := { d.txt with act := tset d.txt.act scope (d.txtShd scope), shd := tset d.txt.shd scope (d.txtSet scope) } }
    else d
  let d := if scope = 16 ∧ bitAt mask 10 then { d with shp := { d.shp with committed := true } }.resetPorts old x (List.range 19) else d
  if scope = 16 ∧ bitAt mask 9 then d.retrain old x else d

/-- LOG CFG_SWAPPED (R37); a scope's number is its form in word 3 of CFG_COMMIT. -/
def Dev.swapLog (d : Dev) (x : Ctx) (id scope mask : Nat) : Dev :=
  if scope = 16 then d.recDev x .log 0x200 (source 2 0) (wd id) (wd scope) (wd mask)
  else d.recPart x scope .log 0x200 (source 2 0) (wd id) (wd scope) (wd mask)

/-- COMMIT_SWAP: at its target tick a pending commit swaps, and LOG CFG_SWAPPED says so (R34, R37). -/
def commitSwap (id : Nat) (x : Ctx) (d : Dev) : Dev :=
  match d.commits.find? fun c => c.id == id with
  | none => d
  | some c =>
    if x.now < c.tick then d
    else ((d.swapSets x c.scope c.mask).dropCommit id 2 .ok).swapLog x id c.scope c.mask

/-- The pending commits whose target tick has come swap. -/
def Dev.swapDue (d : Dev) (x : Ctx) : Dev :=
  (d.commits.filter fun c => decide (c.tick ≤ x.now)).foldl (fun (d : Dev) c => commitSwap c.id x d) d

/-! ### Opcodes and CFG_COMMIT_CTRL -/

/-- The function of a request; the firmware commits as the control host's PF. -/
def Dev.cfgFn (d : Dev) (q : Req) : Fn := q.fn.getD (pfOf d.ctrlPort)

/-- CFG_COMMIT (R37). -/
def cfgCommitCmd (x : Ctx) (q : Req) (d : Dev) : Ans :=
  if !q.clean [(2, 0x3FFFF), (3, 0x1F), (4, top32), (5, top32)] then .refuse .badParam
  else
    let f := d.cfgFn q
    match d.commit x f (q.f 2 17 0) (commitScope f (bitAt (q.w 3).toNat 4) (q.f 3 3 0)) (q.d2 4) with
    | (.error st, d) => .done st [] d
    | (.ok (id, t), d) => .done .accepted [wd id, loW t, hiW t] d

/-- CFG_CANCEL (R36). -/
def cfgCancelCmd (x : Ctx) (q : Req) (d : Dev) : Ans :=
  if !q.clean [(2, 0xFFFF)] then .refuse .badParam
  else
    let r := d.cancel x (d.cfgFn q) (q.f 2 15 0)
    .done r.1 [] r.2

/-- CFG_COPY (R34). -/
def cfgCopyCmd (_ : Ctx) (q : Req) (d : Dev) : Ans :=
  if !q.clean [(2, 0x3FFFF), (3, 0x1F)] then .refuse .badParam
  else
    let f := d.cfgFn q
    let r := d.copyCfg f (q.f 2 17 0) (commitScope f (bitAt (q.w 3).toNat 4) (q.f 3 3 0))
    .done r.1 [] r.2

/-- The RW fields of CFG_COMMIT_CTRL; DEVICE and PARTITION are the PF's alone. -/
def CfgFn.ctrl (c : CfgFn) (f : Fn) (w : Word) : CfgFn :=
  if f.num = 0 then { c with device := bitAt w.toNat 4, part := wfld w 3 0 } else c

/-- A write of CFG_COMMIT_CTRL whose action bit is set: `act` runs with the registers of the function and its scope. -/
def ctrlWrite (bit : Nat) (f : Fn) (w : Word) (act : CfgFn → Nat → Dev → Dev) (d : Dev) : Dev :=
  if !(d.fnLive f && d.writable && bitAt w.toNat bit) then d
  else
    let c := (d.cfgOf f).ctrl f w
    act c (commitScope f c.device c.part) (d.setCfg f c)

/-- CFG_COMMIT_CTRL.GO, CANCEL and COPY. -/
def ctrlGo (f : Fn) (w : Word) (x : Ctx) (d : Dev) : Dev :=
  ctrlWrite 5 f w (fun c scope d => (d.commit x f c.mask scope (dw c.tickLo c.tickHi)).2) d
def ctrlCancel (f : Fn) (w : Word) (x : Ctx) (d : Dev) : Dev :=
  ctrlWrite 6 f w (fun c _ d =>
    if d.commits.any fun k => k.id == c.id && k.fn == f then (d.cancel x f c.id).2 else d.cfgStatus f 0 .notPermitted) d
def ctrlCopy (f : Fn) (w : Word) (_ : Ctx) (d : Dev) : Dev :=
  ctrlWrite 7 f w (fun c scope d => (d.copyCfg f c.mask scope).2) d

def effCfgCommit (c : Cmd) (s : State) : Host.Outcome State Fault Refusal := hostCmd 0x0F10 c cfgCommitCmd s
def effCfgCancel (c : Cmd) (s : State) : Host.Outcome State Fault Refusal := hostCmd 0x0F11 c cfgCancelCmd s
def effCfgCopy (c : Cmd) (s : State) : Host.Outcome State Fault Refusal := hostCmd 0x0F12 c cfgCopyCmd s
def effCfgCommitCtrlGo (f : Fn) (w : Word) (s : State) : Host.Outcome State Fault Refusal := onDev (ctrlGo f w) s
def effCfgCommitCtrlCancel (f : Fn) (w : Word) (s : State) : Host.Outcome State Fault Refusal := onDev (ctrlCancel f w) s
def effCfgCommitCtrlCopy (f : Fn) (w : Word) (s : State) : Host.Outcome State Fault Refusal := onDev (ctrlCopy f w) s
def effCommitSwap (id : Nat) (s : State) : Host.Outcome State Fault Refusal := onDev (commitSwap id) s

end Sys2Proof.Machine
end

