-- ==== Sys2Proof/Machine/Units.lean ====
section
/-! DEFINITION. Host loss by link or heartbeat, the scrub of the SRAMs, and permanent failures of the NoC and of the bridge (R67,
R320, R419, R423, R426). -/

namespace Sys2Proof.Machine

/-! ### Host loss (R67, R68, R320) -/

/-- The contexts held in the lost port's area are lost (R320). -/
def Dev.ctxLost (d : Dev) (port : Nat) : Dev :=
  { d with net := { d.net with qps := tmap d.net.qps fun _ q => if q.place = .area port then { q with place := .lost } else q } }

/-- LINK_DOWN_TIMEOUT: the link has been down for 10 ms. -/
def linkTimeout (port : Nat) (x : Ctx) (d : Dev) : Dev :=
  if port < 2 && (d.port port).linkDue x.now then (d.hostLoss x port 1).ctxLost port else d

/-- HEARTBEAT_TIMEOUT: two periods have passed without a heartbeat. -/
def beatTimeout (port : Nat) (x : Ctx) (d : Dev) : Dev :=
  if port < 2 && (d.port port).hbDue x.now then (d.hostLoss x port 2).ctxLost port else d

/-! ### SRAM (R419, R421-R423, R426) -/

/-- A fault of a unit noted, and whether it is the second within 1 s (R423). -/
def Dev.noteFault (d : Dev) (x : Ctx) (src : Nat) : Bool × Dev :=
  ((tget d.faultAt src).elim false fun t => decide (x.now ≤ t + 1000 * ticksMs), { d with faultAt := tset d.faultAt src x.now })

/-- A session whose descriptor cannot be read is closed, with FAULT SES_LOST (R101, R422): at once, or when it stops running or
moving. -/
def Dev.sesLost (d : Dev) (x : Ctx) (h : Word) : Dev :=
  match d.sesOf h with
  | none => d
  | some s =>
    let d := (d.recPart x (hPart h) .fault 0x100 s.src h 0 0).bumpPart (hPart h) 0x03001C 1
    if s.state = .closing then d
    else if s.state = .running ∨ s.state = .moving then d.setSes h { s with closePending := true }
    else
      let d := s.move.elim d fun m => d.endOp x m.op .integrity []
      (d.setSes h { s with move := none }).enterClosing x h

/-- The session of a descriptor's index in the session SRAM: partition × 2^24 + directory index (log entry 31). -/
def Dev.sesIndexed (d : Dev) (i : Nat) : Option Word :=
  match tget d.ses.tbl i with
  | some s => if s.state = .free then none else some (handleOf (i / 2 ^ 24) s.gen (i % 2 ^ 24))
  | none => none

/-- Poison at a word of an SRAM: a local-store word, a scratch word, or a descriptor. The words of the other SRAMs hold engine state that
the model does not place (log entry 31). -/
def Dev.sramPoison (d : Dev) (x : Ctx) (block unit i : Nat) : Dev :=
  if block = 6 then
    if unit < 256 ∧ i < 0x60000 then
      { d with grid := { d.grid with lsPoison := addNums [lsAddr unit (8 * i) / 4, lsAddr unit (8 * i) / 4 + 1] d.grid.lsPoison } }
    else d
  else if block = 5 then
    let g := d.gunit unit
    if unit < 512 ∧ 8 * i < scratchTop then d.setGunit unit { g with smarks := addNums [8 * i / 32] g.smarks } else d
  else if block = 3 then (d.sesIndexed i).elim d (d.sesLost x)
  else d

/-- A source marked out of service, with FAULT UNIT_OFFLINE. -/
def Dev.markOffline (d : Dev) (x : Ctx) (src : Nat) : Dev := Dev.unitOffline { d with offline := tset d.offline src 1 } x src

/-- A core taken out of service; one that runs a placement has a core fault. -/
def Dev.coreOff (d : Dev) (x : Ctx) (n : Nat) : Dev :=
  if 255 < n ∨ (d.core n).offline = true then d
  else if (d.core n).model ≠ 0 then d.coreFault x n 8
  else Dev.unitOffline (d.setCore n { d.core n with offline := true }) x (source 6 n)

/-- A control core taken out of service: its outstanding commands end, and the loss of all eight halts the module (R423, R424). -/
def Dev.controlOff (d : Dev) (x : Ctx) (n : Nat) : Dev :=
  let d := (d.markOffline x (source 1 n)).endAll x .deviceFault (d.cmds.filter fun c => Config.controlCore c.seq % 8 == n)
  if d.coresDown = 8 then d.halt x 2 else d

/-- An engine instance taken out of service: the operations on its die's objects end with DEVICE_FAULT (log entry 32). -/
def Dev.engineOff (d : Dev) (x : Ctx) (src : Nat) : Dev :=
  let d := d.markOffline x src
  let ids := (d.cmds.filter fun c => c.phase == .accepted && d.engineDown c.op c.cmd.words (c.part.getD 0)).map CmdRec.seq
  ids.foldl (fun (d : Dev) i => d.endOp x i .deviceFault []) d

/-- A unit out of service after its second fault: a core goes offline with a core fault, a Glume unit refuses every START, and the
operations of an engine instance end with DEVICE_FAULT (R170, R423). -/
def Dev.sramOffline (d : Dev) (x : Ctx) (block unit : Nat) : Dev :=
  if block = 6 then d.coreOff x unit
  else if block = 5 then Dev.unitOffline (d.glmOffline x unit) x (source 5 unit)
  else if thas d.offline (source block unit) then d
  else if block = 1 then d.controlOff x unit
  else d.engineOff x (source block unit)

/-- SRAM_SCRUB: a word of a unit's SRAM is read and written back. -/
def sramRead (block unit i : Nat) (e : Ecc) (x : Ctx) (d : Dev) : Dev :=
  match e with
  | .clean => d
  | .corrected => d.bumpDev 0x0F0114 1
  | .uncorrectable =>
    let src := source block unit
    let at_ := if block = 6 then loW (lsAddr unit (8 * i)) else wd i
    let d := (d.bumpDev 0x0F0118 1).recDev x .fault 0x104 src at_ 1 0
    let d := d.sramPoison x block unit i
    let r := d.noteFault x src
    (if r.1 then r.2.sramOffline x block unit else r.2).schedule x

/-! ### NoC and bridge (R423) -/

/-- NOC_LINK_FAULT: a router (0x100 + router) or a bridge link (0x200 + column) fails for good. The cores whose routes use a router
or link are those the event names; a bridge link takes the two cores at its ends. -/
def linkFault (unit : Nat) (cores : List Nat) (x : Ctx) (d : Dev) : Dev :=
  let src := source 6 unit
  if thas d.offline src ∨ unit < 0x100 ∨ 0x20F < unit then d
  else
    let d := d.markOffline x src
    let col := unit - 0x200
    if unit < 0x200 then (cores.foldl (fun d n => d.coreOff x n) d).schedule x
    else
      let d := { d with grid := { d.grid with links := setBit d.grid.links col } }
      (([112 + col, 128 + col] : List Nat).foldl (fun d n => d.coreOff x n) d).schedule x

def effLinkDownTimeout (port : Nat) (s : State) : Host.Outcome State Fault Refusal := onDev (linkTimeout port) s
def effHeartbeatTimeout (port : Nat) (s : State) : Host.Outcome State Fault Refusal := onDev (beatTimeout port) s
def effSramScrub (block unit i : Nat) (e : Ecc) (s : State) : Host.Outcome State Fault Refusal := onDev (sramRead block unit i e) s
def effNocLinkFault (unit : Nat) (cores : List Nat) (s : State) : Host.Outcome State Fault Refusal := onDev (linkFault unit cores) s

end Sys2Proof.Machine
end

