-- ==== Sys2Proof/Machine/HostRead.lean ====
section
/-! DEFINITION. The data of a module read of host memory arrives: loads of tables, images, keys and tokens, MEM_XFER and DEV_FW_WRITE
(R29, R396, R397, R451). -/

namespace Sys2Proof.Machine

/-- The bytes that an operation reads from host memory; none where it reads none. -/
def readLen : OpKind → Option Nat
  | .register len _ => some len
  | .tableLoad _ _ len _ => some len
  | .xfer _ _ len false => some len
  | .progLoad len _ => some len
  | .curveLoad t _ => some (curveLen t)
  | .other 0x0903 0 _ _ => some 96
  | .other 0x0911 _ _ _ => some 512
  | .other 0x0912 _ _ _ => some 512
  | .other 0x0F31 _ _ len => some len
  | _ => none

/-- A read that ends without data: a load fails its check and its table is invalid, and every other operation ends with INTEGRITY (log
entry 34). -/
def Dev.readFailed (d : Dev) (x : Ctx) (op p : Nat) : OpKind → Dev
  | .tableLoad kind slot _ _ => d.textLoaded x op p kind slot (crc32c [] ^^^ 1) []
  | .progLoad _ _ => d.bankLoaded x op (crc32c [] ^^^ 1) []
  | .curveLoad t _ => d.curveLoaded x op t (crc32c [] ^^^ 1) []
  | .xfer _ _ _ _ => (d.freeDesc op).endOp x op .integrity [0]
  | _ => d.endOp x op .integrity []

/-- The data of an operation on the dies and in HBM. A transfer waits for its Culm descriptor (R59). -/
def Dev.readDone (d : Dev) (x : Ctx) (op p : Nat) (b : List Byte) : OpKind → Dev
  | .register _ shares => d.registered x op p shares b
  | .tableLoad kind slot _ crc => d.textLoaded x op p kind slot crc b
  | .xfer _ off _ false => if d.hasDesc op then d.xferIn x op p off b else d
  | .progLoad _ crc => d.bankLoaded x op crc b
  | .curveLoad t crc => d.curveLoaded x op t crc b
  | .other 0x0903 0 _ _ => d.connEnd x op p b
  | .other 0x0911 _ _ _ => d.unlockEnd x op b
  | .other 0x0912 _ _ _ => if tokenOk x d 0x31414D52 b then d.rmaEnd x op else d.endOp x op .integrity []
  | .other 0x0F31 t _ _ => d.fwStored x op t b
  | _ => d

/-- The fuses and the image store after the data of an operation: SEC_RMA burns LIFECYCLE, and DEV_FW_WRITE writes the store. -/
def readFuses (x : Ctx) (d : Dev) (b : List Byte) : OpKind → Fuses
  | .other 0x0912 _ _ _ => if tokenOk x d 0x31414D52 b then x.fuses.toRma else x.fuses
  | _ => x.fuses
def readStore (x : Ctx) (d : Dev) (b : List Byte) : OpKind → ImageStore
  | .other 0x0F31 t off _ => fwStore d x.store t off b
  | _ => x.store

/-- HOST_MEMORY_READ_COMPLETION: the whole data of an operation, or a failed completion. -/
def hostRead (op : Nat) (st : Completion) (b : List Byte) (s : State) : State :=
  match tget s.dev.ops op with
  | none => s
  | some o =>
    match readLen o.kind with
    | none => s
    | some n =>
      let x := s.ctx
      if st ≠ .ok then { s with dev := (s.dev.readFailed x op o.part o.kind).schedule x }
      else if b.length ≠ n then s
      else
        { s with
          fuses := readFuses x s.dev b o.kind
          store := readStore x s.dev b o.kind
          dev := ((s.dev.readDone x op o.part b o.kind).schedule x).reedSettle x }

def effHostMemoryReadCompletion (op : Nat) (st : Completion) (b : List Byte) (s : State) : Host.Outcome State Fault Refusal :=
  .next (if s.clock.power then hostRead op st b s else s)

end Sys2Proof.Machine
end

