-- ==== Sys2Proof/Machine/Startup.lean ====
section
/-! DEFINITION. Power, the start-up stages, and the resets of the module, of the grid and of the Glume units (R439-R450, R458-R463,
R467). -/

namespace Sys2Proof.Machine

/-! ### Power (R458-R463, R467) -/

/-- What a reset of the dies leaves: NAND, and what the model alone keeps: what has been sent, the counter of free values and the numbers of
commands. -/
def Dev.afterReset (d : Dev) : Dev := { Dev.reset with nand := d.nand, outs := d.outs, free := d.free, nextSeq := d.nextSeq }

/-- The inputs of the hot-swap controller, which outlast power-good. -/
def Dev.inputs (d old : Dev) : Dev :=
  { d with power := { d.power with
    pwrEn := old.power.pwrEn
    pathOpen := old.power.pathOpen
    latched := old.power.latched
    enLowSince := old.power.enLowSince } }

/-- Power-good is low: no logic runs, and everything on the dies and in HBM is lost (R462, R463). -/
def powerDown (s : State) : State :=
  { s with
    clock := { s.clock with power := false, tick := false }
    dev := s.dev.afterReset.inputs s.dev
    meter := Meter.reset s.meter.flash }

/-- The hot-swap controller opens the input path; `latch` holds power-up until it is re-armed (R467). -/
def pathOpens (latch : Bool) (s : State) : State :=
  { s with dev := { s.dev with power := { s.dev.power with pathOpen := true, latched := s.dev.power.latched || latch } } }

/-- POWER_GOOD_RISE: a power-on reset starts (R459, R439). -/
def powerUp (mv : Nat) (regulated : Bool) (s : State) : State :=
  let p := s.dev.power
  if s.clock.power ∨ mv < 44000 ∨ 60000 < mv ∨ !p.pwrEn ∨ p.latched ∨ !regulated then s
  else
    let d := s.dev.afterReset.inputs s.dev
    { s with
      clock := ⟨0, s.clock.wall, true, false, 0⟩
      dev := { d with power := { d.power with pathOpen := false }, boot := { Boot.reset with started := s.clock.wall } }
      meter := Meter.reset s.meter.flash }

/-- PWR_EN_CHANGE: low removes power-good; high after 100 ms of low re-arms a latched power-up. -/
def pwrEnSet (level : Bool) (s : State) : State :=
  let put (f : Power → Power) (s : State) : State := { s with dev := { s.dev with power := f s.dev.power } }
  if level = s.dev.power.pwrEn then s
  else if level then
    let long := s.dev.power.enLowSince.elim false fun t => decide (t + 100 * ticksMs ≤ s.clock.wall)
    put (fun p => { p with pwrEn := true, enLowSince := none, latched := p.latched && !long }) s
  else
    let s := put (fun p => { p with pwrEn := false, enLowSince := some s.clock.wall }) s
    if s.clock.power then powerDown s else s

/-- INPUT_VOLTAGE_SHUTDOWN: above 66 V the input path opens (R458); it is not latched (R467, bit 3). -/
def inputHigh (mv : Nat) (s : State) : State :=
  if mv ≤ 66000 then s
  else if s.clock.power then powerDown (pathOpens false s) else pathOpens false s

/-- BREAKER_TRIP: above 45 A for 1 ms, or above 60 A for 10 µs (R461). -/
def breaker (ma us : Nat) (s : State) : State :=
  if (45000 < ma ∧ 1000 ≤ us) ∨ (60000 < ma ∧ 10 ≤ us) then
    if s.clock.power then powerDown (pathOpens false s) else pathOpens false s
  else s

/-- SHUTDOWN: an active condition reaches its shutdown point; all but those of the input voltage are latched (R466, R467). -/
def shutDown (cond : Nat) (s : State) : State :=
  if s.clock.power ∧ cond ≤ 6 ∧ bitAt s.dev.power.active cond then powerDown (pathOpens (cond != 2 && cond != 3) s) else s

/-- INPUT_BELOW_20V: a latched power-up is re-armed, and power-good is low (R458, R467). -/
def inputGone (s : State) : State :=
  let s := { s with dev := { s.dev with power := { s.dev.power with latched := false } } }
  if s.clock.power then powerDown s else s

/-! ### The configuration image (R450) -/

/-- The registers of a scope that a configuration entry may name: those with SH fields. -/
def entryReg (b : Nat) (device : Bool) (off : Nat) : Option RegDesc :=
  match regAt (b * 0x10000 + off) with
  | some (r, _) => if r.mask .sh ≠ 0 ∧ r.scope = (if device then RegScope.dev else RegScope.part) then some r else none
  | none => none

/-- One entry: block, DEVICE, partition, offset and value. -/
structure CfgEntry where
  block : Nat
  device : Bool
  part : Nat
  off : Nat
  value : Nat
deriving DecidableEq, Repr

/-- The scope of an entry (16: the device). -/
def CfgEntry.scope (e : CfgEntry) : Nat := if e.device then 16 else e.part

/-- The entry that 8 bytes spell. -/
def cfgEntry (b : List Byte) : CfgEntry :=
  let w := leAt b 0 4
  ⟨fld w 4 0, bitAt w 8, fld w 15 12, fld w 30 16, leAt b 4 4⟩

/-- An entry written to its shadow slice; none where it names no SH field. -/
def Dev.cfgPut (d : Dev) (e : CfgEntry) : Option Dev :=
  let off := e.block * 0x10000 + e.off
  match entryReg e.block e.device e.off with
  | none => none
  | some r =>
    let key := if e.device then devKey off else partKey e.part off
    let old := d.shdV key off
    let m := r.shBits off
    some { d with regs := { d.regs with shd := tset d.regs.shd key ((old &&& (top32 - m)) ||| (e.value &&& m)) } }

/-- Entries in order; the first that names no SH field stops. -/
def Dev.cfgPutAll (d : Dev) : List CfgEntry → Except CfgEntry Dev
  | [] => .ok d
  | e :: es =>
    match d.cfgPut e with
    | none => .error e
    | some d => d.cfgPutAll es

/-- The blocks that entries of a scope name, as a mask. -/
def scopeMask (es : List CfgEntry) (scope : Nat) : Nat :=
  es.foldl (fun m e => if e.scope = scope then setBit m e.block else m) 0

/-- The first failing check of the commits that the image names (R31). -/
def Dev.cfgErr (d : Dev) (tick : Nat) (es : List CfgEntry) : Option (Nat × Bool × Nat) :=
  ((16 :: List.range 16).filter fun sc => scopeMask es sc != 0).findSome? fun sc => d.firstErr sc (scopeMask es sc) tick (List.range 18)

/-- The bindings that BIND names. -/
def bindOf (w p : Nat) : PartHost :=
  match fld w (2 * p + 1) (2 * p) with
  | 1 => .bound 0
  | 2 => .bound 1
  | _ => .unbound

/-- CFG_ERR after a refused image. -/
def Dev.cfgRefused (d : Dev) (b : Nat) (table : Bool) (off : Nat) : Dev :=
  let f := pfOf 0
  { d.setCfg f { d.cfgOf f with errBlock := b, errTable := table, errOff := off } with boot := { d.boot with cfg := 2 } }

/-- A commit of stage 7 swaps: it has an identifier and its CFG_SWAPPED as any (R37, R450). -/
def Dev.startCommit (d : Dev) (x : Ctx) (scope mask : Nat) : Dev :=
  let id := d.nextCommit
  ({ d with lastCommit := id }.swapSets x scope mask).swapLog x id scope mask

/-- Stage 7: the configuration image loaded, its slices committed, the control host and the bindings set. A BIND field or a CTRL_PORT that
names no port is refused with the rest (log entry 35). -/
def Dev.loadConfig (d : Dev) (x : Ctx) : Dev :=
  let h := x.store.bytes 0x3E00000 64
  let n := leAt h 4 4
  if leAt h 0 4 ≠ 0x31474643 then { d with boot := { d.boot with cfg := 0 } }
  else if n > 131064 then d.cfgRefused 0 false 0
  else
    let body := x.store.bytes 0x3E00040 (8 * n)
    let bind := leAt h 12 4
    if leAt h 60 4 ≠ (crc32c (h.take 60 ++ body)).toNat ∨ leAt h 8 1 > 1 ∨ (List.range 16).any (fun p => fld bind (2 * p + 1) (2 * p) == 3) then
      d.cfgRefused 0 false 0
    else
      let es := (List.range n).map fun i => cfgEntry ((body.drop (8 * i)).take 8)
      match d.cfgPutAll es with
      | .error e => d.cfgRefused e.block false e.off
      | .ok d' =>
        match d'.cfgErr (x.now + 16) es with
        | some (b, t, o) => d.cfgRefused b t o
        | none =>
          let d' := ((16 :: List.range 16).filter fun sc => scopeMask es sc != 0).foldl (fun (d : Dev) sc => d.startCommit x sc (scopeMask es sc)) d'
          { d' with
            ctrlPort := leAt h 8 1
            parts := (List.range 16).foldl (fun t p => if bindOf bind p = .unbound then t else tset t p (bindOf bind p)) []
            boot := { d'.boot with cfg := 1 } }

/-! ### The stages (R447-R449) -/

/-- Start-up stops in a failure state. -/
def Dev.bootFail (d : Dev) (state detail : Nat) : Dev := { d with boot := { d.boot with state := state, detail := detail % 256, stage := 0 } }

/-- The next stage, with the state it shows. -/
def Dev.bootNext (d : Dev) (stage state : Nat) : Dev := { d with boot := { d.boot with stage := stage, state := state } }

/-- Stage 3: the preferred bank, or the other one where it is invalid (R446). The DETAIL of a bank whose commit record or directory fails
is free (log entry 5). -/
def Dev.pickBank (d : Dev) (x : Ctx) : Dev :=
  let a := x.store.preferred
  let take (b : Nat) (fb : Bool) : Dev :=
    { d.bootNext 4 2 with boot := { (d.bootNext 4 2).boot with bank := b, fallback := fb, images := x.store.running b } }
  if x.store.valid x.fuses a then take a false
  else if x.store.valid x.fuses (1 - a) then take (1 - a) true
  else
    match if x.store.recordOk a then x.store.firstFault x.fuses a else none with
    | some (k, _) => d.bootFail 9 k
    | none =>
      let r := d.takeFree
      r.2.bootFail 9 r.1

/-- What a mount keeps (R441): stores, shards, manifests and commit records, with their units and the key store. -/
def NandState.mount (n : NandState) : NandState :=
  let objs := n.objs.filter fun o => o.2.kind != .park
  { n with objs := objs, units := n.units.filter fun u => objs.any fun o => o.2.units.contains u.1 }

/-- The end of a stage on the dies. -/
def Dev.stageEnd (d : Dev) (x : Ctx) (failure : Option Nat) : Dev :=
  match d.boot.stage with
  | 1 => d.bootNext 2 1
  | 2 =>
    match failure.or x.fuses.bad with
    | some n => d.bootFail 8 n
    | none => d.bootNext 3 2
  | 3 => d.pickBank x
  | 4 =>
    let v := (d.image 1).elim 0 RunImage.version
    let d := d.bootNext 5 3
    { d with boot := { d.boot with fwVersion := wd v } }
  | 5 =>
    match failure with
    | some n => d.bootFail 10 n
    | none => d.bootNext 6 4
  | 6 =>
    match failure with
    | some n => d.bootFail 11 n
    | none => { d.bootNext 7 5 with nand := d.nand.mount }
  | 7 =>
    let d := (d.loadConfig x).bootNext 8 6
    { d with boot := { d.boot with ms := min 65535 ((x.wall - d.boot.started) / ticksMs) } }
  | _ => d

/-- STARTUP_STAGE_END; at the end of stage 1 the tick starts with device time 0. -/
def stageDone (failure : Option Nat) (s : State) : State :=
  let clock := if s.dev.boot.stage = 1 then { s.clock with tick := true, now := 0, order := 0 } else s.clock
  { s with clock := clock, dev := s.dev.stageEnd { s.ctx with now := clock.now } failure }

/-! ### Requests (R440) -/

/-- A reset accepted: it falls due 12,500 ticks later. -/
def Dev.askReset (d : Dev) (x : Ctx) (scope source : Nat) : Dev :=
  { d with boot := { d.boot with resets := d.boot.resets ++ [(scope * 4 + (if d.halted then 3 else source), x.now + 12500)] } }

/-- DEV_RESET. -/
def resetCmd (x : Ctx) (q : Req) (d : Dev) : Ans :=
  let sc := q.f 2 2 0
  if !q.clean [(2, 7)] ∨ sc = 0 ∨ sc > 3 then .refuse .badParam
  else .done .ok [loW (x.now + 12500), hiW (x.now + 12500)] (d.askReset x sc 1)

/-- A write of DEV_RESET_CTRL by the control host's PF with its key. -/
def resetWrite (f : Fn) (w : Word) (x : Ctx) (d : Dev) : Dev :=
  let sc := wfld w 2 0
  if d.isCtrl f ∧ wfld w 31 24 = 0xA5 ∧ 1 ≤ sc ∧ sc ≤ 3 then d.askReset x sc 2 else d

/-- The request of a scope that is due: its source. Without the event tick a request is due at once (R424; log entry 36). -/
def Dev.resetDue (d : Dev) (now : Nat) (tick : Bool) (scope : Nat) : Option Nat :=
  (d.boot.resets.find? fun r => r.1 / 4 == scope && (decide (r.2 ≤ now) || !tick)).map fun r => r.1 % 4

/-- A reset done: its requests leave the list, and DEV_RESET_CAUSE shows it. -/
def Dev.resetMade (d : Dev) (scope source : Nat) : Dev :=
  { d with boot := { d.boot with resets := d.boot.resets.filter fun r => r.1 / 4 != scope, scope := scope, source := source } }

/-! ### Device reset (R439-R441) -/

/-- A port keeps its link and its configuration space. -/
def PciePort.kept (p : PciePort) : PciePort :=
  { PciePort.reset with training := p.training, linkUp := p.linkUp, downSince := p.downSince, vfEnable := p.vfEnable, numVfs := p.numVfs, ari := p.ari }

/-- The dies after a device reset. -/
def Dev.deviceReset (d : Dev) (x : Ctx) (source : Nat) : Dev :=
  let n := d.afterReset
  { n with
    boot := { Boot.reset with state := 1, stage := 2, started := x.wall, scope := 1, source := source }
    power := { d.power with capWatts := Power.reset.capWatts }
    ports := tmap d.ports fun _ p => p.kept
    sch := { n.sch with split := d.sch.split }
    tap := d.tap
    edge := d.edge
    sec := { n.sec with debug := d.sec.debug || d.sec.pend } }

/-- DEVICE_RESET, in its reset tick: device time and the meter go on; the tick runs again where its loss had halted the module. -/
def devReset (s : State) : State :=
  match s.dev.resetDue s.clock.now s.clock.tick 1 with
  | none => s
  | some src => { s with clock := { s.clock with tick := true }, dev := s.dev.deviceReset s.ctx src }

/-! ### Grid reset (R442) -/

/-- A placement becomes REGISTERED: its step is discarded and charged and loses its samples and counts (R207), the model's counters are kept,
and its commands end. -/
def Dev.mdlReset (d : Dev) (x : Ctx) (m : Nat) (k : Mdl) : Dev :=
  if k.st = .registered then d
  else
    let rows := (d.batch m).rows
    let d := if (d.batch m).running then (d.spentTime k).chargeStep m k rows else d
    let d := d.stepOver m
    let d := (d.unpinWeights m ((d.mdl m).getD k)).freeCores k
    let op := k.loadOp
    let d := d.setMdl m { (d.mdl m).getD k with
      st := .registered, loadOp := 0, faultCode := 0, repeated := false, reloading := false, preOpen := [], movedKb := 0 }
    let d := rows.foldl (fun d r =>
      match d.sesOf r.h with
      | some s => if s.state = .running then (d.goto x r.h s .opened).enqueue r.h else d
      | none => d) d
    let d := (d.sch.jobs.filter fun j => j.2.model == m && j.2.st != 2).foldl (fun d j => d.trainEnd x j.1 j.2 .aborted) d
    let d := if op = 0 then d else d.endOp x op .aborted []
    ((if k.st = .loading then d.dropEvicts x m else d.endEvicts x m).stopUps x m).mdlRelease x m

/-- The drains of a block end with its operations. -/
def Dev.undrain (d : Dev) (block : Nat) : Dev := { d with drains := d.drains.filter fun r => r.block != block }

/-- The grid at its reset tick. -/
def Dev.gridReset (d : Dev) (x : Ctx) : Dev :=
  let d := d.resetCancels x (2 ^ 6)
  let d := d.grid.mdls.foldl (fun d m => d.mdlReset x m.1 m.2) d
  let mark (k : Nat) : Bool := k / 1024 == 6
  { d.undrain 6 with
    grid := { d.grid with cores := [], ls := [], lsPoison := [], msgs := [], links := 0 }
    offline := d.offline.filter fun e => !mark e.1
    faultAt := d.faultAt.filter fun e => !mark e.1 }

/-- GRID_RESET. -/
def gridRst (s : State) : State :=
  match s.dev.resetDue s.clock.now s.clock.tick 2 with
  | none => s
  | some src =>
    let x := s.ctx
    { s with dev := (((s.dev.gridReset x).resetMade 2 src).schedule x).reedSettle x }

/-! ### Glume reset (R442) -/

/-- A unit after the reset: the counts of its channel and its issue limit are the base die's. -/
def GUnit.afterReset (g : GUnit) : GUnit :=
  { GUnit.reset with
    limit := g.limit
    issued := g.issued
    issuedAt := g.issuedAt
    ceTicks := g.ceTicks
    ceEnd := g.ceEnd
    ceDue := g.ceDue }

/-- A unit at the reset tick: its run and its queued slots end with FAULT code 6 and ABORTED, the accesses that wait are served, and its
slots are IDLE. -/
def Dev.unitReset (d : Dev) (x : Ctx) (u : Nat) : Dev :=
  let d := d.glmEnd x u 6
  let d := (List.range 16).foldl (fun d k =>
    let s := (d.gunit u).slot k
    if s.st = 1 then d.slotFault x u k { s with pc := 0 } .aborted 6 else d) d
  let d := d.serveUnit x u
  d.setGunit u (d.gunit u).afterReset

/-- All Glume units at their reset tick. -/
def Dev.glumeReset (d : Dev) (x : Ctx) : Dev :=
  let d := d.resetCancels x (2 ^ 5)
  let us := d.glm.units.map Prod.fst
  let d := us.foldl (fun d u => d.unitReset x u) d
  let mark (k : Nat) : Bool := k / 1024 == 5
  { d.undrain 5 with
    offline := d.offline.filter fun e => !mark e.1
    faultAt := d.faultAt.filter fun e => !mark e.1 }

/-- GLUME_RESET. -/
def glumeRst (s : State) : State :=
  match s.dev.resetDue s.clock.now s.clock.tick 3 with
  | none => s
  | some src =>
    let x := s.ctx
    { s with dev := (((s.dev.glumeReset x).resetMade 3 src).schedule x).reedSettle x }

/-- The rows that need power-good. -/
def whilePowered (f : State → State) (s : State) : Host.Outcome State Fault Refusal := .next (if s.clock.power then f s else s)

def effPowerGoodRise (mv : Nat) (r : Bool) (s : State) : Host.Outcome State Fault Refusal := .next (powerUp mv r s)
def effPowerGoodFall (s : State) : Host.Outcome State Fault Refusal := whilePowered powerDown s
def effPwrEnChange (l : Bool) (s : State) : Host.Outcome State Fault Refusal := .next (pwrEnSet l s)
def effInputVoltageShutdown (mv : Nat) (s : State) : Host.Outcome State Fault Refusal := .next (inputHigh mv s)
def effBreakerTrip (ma us : Nat) (s : State) : Host.Outcome State Fault Refusal := .next (breaker ma us s)
def effShutdown (c : Nat) (s : State) : Host.Outcome State Fault Refusal := .next (shutDown c s)
def effInputBelow20V (s : State) : Host.Outcome State Fault Refusal := .next (inputGone s)
def effStartupStageEnd (failure : Option Nat) (s : State) : Host.Outcome State Fault Refusal := whilePowered (stageDone failure) s
def effDevReset (c : Cmd) (s : State) : Host.Outcome State Fault Refusal := hostCmd 0x0F30 c resetCmd s
def effDevResetCtrlWrite (f : Fn) (w : Word) (s : State) : Host.Outcome State Fault Refusal := onDev (resetWrite f w) s
def effDeviceReset (s : State) : Host.Outcome State Fault Refusal := whilePowered devReset s
def effGridReset (s : State) : Host.Outcome State Fault Refusal := whilePowered gridRst s
def effGlumeReset (s : State) : Host.Outcome State Fault Refusal := whilePowered glumeRst s

end Sys2Proof.Machine
end

