-- ==== Sys2Proof/Machine/RegRead.lean ====
section
/-! DEFINITION. Reads of BAR0 registers (R4-R6, R27, R28, R43, R448 and each chapter's register tables): every register's value, and the
read that clears an RC field. -/

namespace Sys2Proof.Machine

/-! ### Values of the blocks -/

/-- A counter of a key. -/
def Dev.counter (d : Dev) (key : Nat) : Nat := tgetD d.regs.cnt key 0

/-- The sum of what `f` gives for the indices below `n`. -/
def sumOver (n : Nat) (f : Nat → Nat) : Nat := nsum ((List.range n).map f)

/-- Block 0, DEV (R449, R457, R464, R466). -/
def Dev.devVal (d : Dev) (x : Ctx) (rel : Nat) : Nat :=
  let b := d.boot
  let p := d.power
  let bit (c : Bool) (n : Nat) : Nat := if c then 2 ^ n else 0
  match rel with
  | 0x000 => 0x16120000 + Config.siliconRev.toNat
  | 0x004 => b.detail * 65536 + b.state
  | 0x008 => b.fwVersion.toNat
  | 0x00C => b.source * 16 + b.scope
  | 0x010 => b.ms * 65536 + b.cfg * 16 + bit b.fallback 1 + b.bank
  | 0x014 => sumOver 4 fun i => (x.fuses.floors[i]?).getD 0 * 256 ^ i
  | 0x100 => p.capWatts
  | 0x104 => (if p.emergency then 2 else if p.d > 0 then 1 else 0) * 2 ^ 30 + p.d * 2 ^ 24 + p.capEff * 2 ^ 12 + min 4095 p.watts
  | 0x108 => min 65535 p.volts * 65536 + min 65535 p.amps
  | 0x10C => min 255 p.inlet * 2 ^ 24 + min 255 p.outlet * 2 ^ 16 + min 255 p.tjB * 256 + min 255 p.tjA
  | 0x110 => min 255 p.nandT * 2 ^ 24 + min 255 (d.glm.therm.foldl (fun m t => max m t.2.1) 0) * 2 ^ 16 + min 65535 p.flow
  | 0x114 => p.emergCount * 65536 + p.active
  | _ => 0

/-- The blocks of a function's slice that are locked or draining (CFG_PENDING). -/
def Dev.cfgPending (d : Dev) (f : Fn) : Nat :=
  let c := d.cfgOf f
  let scope := if f.num ≠ 0 then some (f.num - 1) else if c.device then some 16 else d.viewPart f
  scope.elim 0 fun sc => sumOver 18 fun b => if d.sliceBusy sc b then 2 ^ b else 0

/-- Block 2, CFG (R31-R37). -/
def Dev.cfgVal (d : Dev) (f : Fn) (rel : Nat) : Nat :=
  let c := d.cfgOf f
  match rel with
  | 0x00 => c.tickLo.toNat
  | 0x04 => c.tickHi.toNat
  | 0x08 => c.mask
  | 0x0C => if f.num = 0 then (if c.device then 16 else 0) + c.part else 0
  | 0x10 => c.status * 65536 + c.state * 4096
  | 0x14 => c.id
  | 0x18 => c.swapTick % 2 ^ 32
  | 0x1C => c.swapTick / 2 ^ 32 % 2 ^ 32
  | 0x20 => c.errBlock * 65536 + (if c.errTable then 32768 else 0) + c.errOff
  | 0x24 => c.locked
  | 0x28 => d.cfgPending f
  | 0x2C => c.view
  | _ => 0

/-- The registers of submission ring and reply ring n of a function (R45-R53). -/
def Dev.sqVal (d : Dev) (f n : Nat) (rel : Nat) : Nat :=
  let q := d.sq f n
  match rel with
  | 0x00 => q.base % 2 ^ 32
  | 0x04 => q.base / 2 ^ 32
  | 0x08 => (if q.en then 2 ^ 31 else 0) + q.rq * 2 ^ 20 + q.size
  | 0x0C => q.tail
  | 0x10 => q.head
  | 0x14 => (if d.elsewhere (fnOf f) then 4 else q.state) * 2 ^ 28 + q.cause * 2 ^ 24 + d.outRing f n
  | _ => 0
def Dev.rqVal (d : Dev) (f n : Nat) (rel : Nat) : Nat :=
  let r := d.rq f n
  match rel with
  | 0x00 => r.base % 2 ^ 32
  | 0x04 => r.base / 2 ^ 32
  | 0x08 => (if r.en then 2 ^ 31 else 0) + r.vector * 2 ^ 16 + r.size
  | 0x0C => r.head
  | 0x10 => (if r.phase then 2 ^ 31 else 0) + r.tail
  | 0x14 => (if d.elsewhere (fnOf f) then 4 else r.state) * 2 ^ 28 + r.cause * 2 ^ 24 + r.held.length
  | 0x18 => r.coalTime * 2 ^ 16 + r.coalCount
  | _ => 0

/-- Block 1, CMD; `p` is the partition whose values the function addresses. -/
def Dev.cmdVal (d : Dev) (f : Fn) (p : Option Nat) (rel : Nat) : Nat :=
  if rel < 0x200 then d.sqVal f.idx (rel / 32) (rel % 32)
  else if 0x400 ≤ rel ∧ rel < 0x600 then d.rqVal f.idx ((rel - 0x400) / 32) (rel % 32)
  else
    match rel with
    | 0x800 => p.elim 0 d.outPart
    | 0x808 => (d.port f.port).hbPeriod
    | 0x80C => d.hostState
    | 0x810 => d.partBind f.port
    | _ => 0

/-- Block 17, TIME: timers, device time and the speed factors (R18, R22, R38). -/
def Dev.timeVal (d : Dev) (x : Ctx) (f : Fn) (rel : Nat) : Nat :=
  if 0x100 ≤ rel ∧ rel < 0x200 then
    let t := tgetD d.timers (f.port * 16 + (rel - 0x100) / 16) Timer.reset
    match rel % 16 with
    | 0 => t.cmp % 2 ^ 32
    | 4 => t.cmp / 2 ^ 32
    | 8 => t.period * 256 + (if t.fired then 2 else 0) + (if t.en then 1 else 0)
    | _ => 0
  else
    match rel with
    | 0 => x.now % 2 ^ 32
    | 4 => (tgetD d.nowHi f.idx 0).toNat
    | 8 => d.speed.2 * 65536 + d.speed.1
    | _ => 0

/-- Block 3, SES: the registers that show state. -/
def Dev.sesVal (d : Dev) (p : Option Nat) (rel : Nat) : Option Nat :=
  let count (f : Ses → Bool) : Nat := p.elim 0 fun p => (d.ses.tbl.filter fun s => s.1 / 2 ^ 24 == p && f s.2).length
  match rel with
  | 0x010 => some (count fun s => s.state != .free)
  | 0x014 => some (count fun s => s.state == .parked)
  | 0x204 => some (d.staged 0)
  | 0x208 => some (d.staged 1)
  | _ => none

/-- The unit that MEM_KEY's sweep still has to move, if the partition has one (R134). -/
def Dev.sweeping (d : Dev) (p : Nat) : Bool := d.nand.units.any fun u => u.2.part == p && u.2.state == 1 && u.2.key != (tgetD d.nand.keys p ([1], 1)).2

/-- Block 4, MEM. -/
def Dev.memVal (d : Dev) (p : Option Nat) (rel : Nat) : Option Nat :=
  let bit (c : Bool) (n : Nat) : Nat := if c then 2 ^ n else 0
  match rel with
  | 0x000 => some (p.elim 0 d.hbmUsed)
  | 0x004 => some (p.elim 0 d.nandUsed)
  | 0x008 => some (p.elim 0 fun p =>
      let k := tgetD d.nand.keys p ([1], 1)
      bit (d.sweeping p) 13 + k.1.length % 8 * 1024 + k.2 % 64)
  | 0x204 => some (bit (!d.nand.rebuilding.isEmpty) 31 + min 127 d.nand.failed.length * 2 ^ 24 + d.freeShare 0 * 2 ^ 16 + d.freeShare 1 * 256 +
      bit (decide (d.blocksUsed 0 > d.allotment 0 ∨ d.blocksUsed 1 > d.allotment 1)) 7)
  | 0x208 => some (min 65535 d.wearMax * 65536 + min 65535 d.wearMean)
  | 0x20C => some (nsum (d.mem.culm.map Prod.snd))
  | 0x210 => some d.hbmFree
  | 0x304 => some (p.elim 0 d.poolFreeAll)
  | 0x308 => some (p.elim 0 fun p => nsum (d.ses.tbl.map fun s => if s.1 / 2 ^ 24 = p then s.2.kv.elim 0 fun k =>
      nsum (k.pages.map fun l => (l.filter fun e => e.valid && e.spilled).length) else 0))
  | 0x314 => some d.stuUsed
  | _ => none

/-- Block 5, GLM; a VF sees the modes of its own regions only. -/
def Dev.glmVal (d : Dev) (f : Fn) (rel : Nat) : Option Nat :=
  let mode (s first n : Nat) : Nat := sumOver n fun i =>
    if d.isCompute s (first + i) && (f.num = 0 || d.regionOwner s (first + i) == f.num - 1) then 2 ^ i else 0
  if rel = 0x018 then
    some ((if d.glm.curvesAct.refreshValid && d.glm.curvesAct.throttleValid then 2 ^ 17 else 0) + (if d.glm.bankAct.valid then 2 ^ 16 else 0) +
      fld (d.devReg 0x050018) 15 0)
  else if 0x400 ≤ rel ∧ rel < 0x480 then
    let s := (rel - 0x400) / 8
    some (if rel % 8 = 0 then mode s 0 32 else mode s 32 16)
  else if 0x500 ≤ rel ∧ rel < 0x540 then
    some ((tget d.glm.therm ((rel - 0x500) / 4)).elim 0 fun t => t.2.1 * 2 ^ 16 + t.2.2.1 * 2 ^ 14 + t.2.2.2 * 2 ^ 11 + min 255 t.1)
  else none

/-- The model that GRID_NUM_SEL of a function selects, if it is of the partition (R200, R205); and the layer. -/
def Dev.numModel (d : Dev) (f : Fn) (p : Option Nat) : Option (Nat × Mdl) :=
  let m := d.rwReg (fnKey f 0x060404) 0x060404 % 65536
  match p, d.mdl m with
  | some p, some k => if k.part = p then some (m, k) else none
  | _, _ => none
def Dev.numLayer (d : Dev) (f : Fn) : Nat := d.rwReg (fnKey f 0x060404) 0x060404 / 65536

/-- A count of a layer, or of all. -/
def layerCount (t : Tbl Nat) (l : Nat) : Nat := min top32 (if l = 0xFFFF then nsum (t.map Prod.snd) else tgetD t l 0)

/-- Block 6, GRID. -/
def Dev.gridVal (d : Dev) (f : Fn) (p : Option Nat) (rel : Nat) : Option Nat :=
  let k := (d.numModel f p).map Prod.snd
  let l := d.numLayer f
  let res := d.grid.mdls.filter fun m => some m.2.part == p && m.2.st == .resident
  let cores (base : Nat) (f : Nat → Bool) : Nat := sumOver 32 fun i => if f (base * 32 + i) then 2 ^ i else 0
  if rel = 0x004 then some (nsum (res.map fun m => m.2.img.width * m.2.img.height) * 65536 + res.length)
  else if rel = 0x014 then
    some ((p.elim none (tget d.grid.lastFault)).getD 0)
  else if 0x300 ≤ rel ∧ rel < 0x320 then
    some (cores ((rel - 0x300) / 4) fun n => d.grid.mdls.any fun m => m.2.st.holds && m.2.cores.contains n)
  else if 0x320 ≤ rel ∧ rel < 0x340 then some (cores ((rel - 0x320) / 4) fun n => (d.core n).offline)
  else
    match rel with
    | 0x404 => some (d.rwReg (fnKey f 0x060404) 0x060404)
    | 0x408 => some (k.elim 0 Mdl.thresh)
    | 0x40C => some (k.elim 0 fun k => layerCount k.ovf l)
    | 0x410 => some (k.elim 0 fun k => layerCount k.unf l)
    | 0x414 => some (k.elim 0 fun k => layerCount k.nanc l)
    | 0x418 => some (k.elim 0 fun k => min top32 k.samples)
    | 0x41C => some (k.elim 0 fun k => min top32 k.exceed)
    | 0x420 => some (k.elim 0 fun k => min top32 k.skipped)
    | 0x424 => some (k.elim 0 fun k => k.errMax * 65536 + k.errLast)
    | _ => none

/-- The 64-bit counters of a partition in SCH (R257-R259): engine time, energy and unattributed energy in µJ, bytes of the counter selected. -/
def Dev.schWide (d : Dev) (f : Fn) (p : Nat) (rel : Nat) : Nat :=
  match rel / 8 with
  | 4 => tgetD d.sch.engineNs p 0
  | 5 => tgetD d.sch.energy p 0
  | 6 => tgetD d.sch.unattr p 0
  | _ => ((tgetD d.sch.bytes p [])[d.rwReg (fnKey f 0x070038) 0x070038 % 8]?).getD 0

/-- Keys of the high halves that a read of a low half latches for a function: 0 device time, 1 to 4 the SCH counters, 5 MTR_SEQ. -/
def hiKey (f : Fn) (n : Nat) : Nat := f.idx + 64 * n

/-- The low half at an offset of a counter that latches: its number in `hiKey`. -/
def latchOf (off : Nat) : Option Nat :=
  match off with
  | 0x110000 => some 0
  | 0x070020 => some 1
  | 0x070028 => some 2
  | 0x070030 => some 3
  | 0x07003C => some 4
  | 0x0E0010 => some 5
  | _ => none

/-- Block 7, SCH. -/
def Dev.schVal (d : Dev) (f : Fn) (p : Option Nat) (rel : Nat) : Option Nat :=
  match rel with
  | 0x008 => some (p.elim 0 fun p => (d.sch.reqs.filter fun r => hPart r.2.h == p).length)
  | 0x020 => some (p.elim 0 fun p => d.schWide f p 0x020 % 2 ^ 32)
  | 0x028 => some (p.elim 0 fun p => d.schWide f p 0x028 % 2 ^ 32)
  | 0x030 => some (p.elim 0 fun p => d.schWide f p 0x030 % 2 ^ 32)
  | 0x03C => some (p.elim 0 fun p => d.schWide f p 0x03C % 2 ^ 32)
  | 0x024 => some (tgetD d.nowHi (hiKey f 1) 0).toNat
  | 0x02C => some (tgetD d.nowHi (hiKey f 2) 0).toNat
  | 0x034 => some (tgetD d.nowHi (hiKey f 3) 0).toNat
  | 0x040 => some (tgetD d.nowHi (hiKey f 4) 0).toNat
  | 0x038 => some (d.rwReg (fnKey f 0x070038) 0x070038)
  | _ => none

/-- Block 8, TXT. -/
def Dev.txtVal (d : Dev) (p : Option Nat) (rel : Nat) : Option Nat :=
  match rel with
  | 0x020 => some (p.elim 0 fun p => (d.bankUse p + 1023) / 1024)
  | 0x040 => some (p.elim 0 fun p =>
      let t := d.txtSet p
      (if t.profilesOk && t.profilesLen != 0 then 2 ^ 24 else 0) + sumOver 8 fun k =>
        let s := t.slot k
        ((if s.machineOk then 1 else 0) + (if s.mergesOk then 2 else 0) + (if s.vocabOk then 4 else 0)) * 8 ^ k)
  | 0x200 => some (32768 - (d.bankAll + 1023) / 1024)
  | _ => none

/-- Block 9, NET. -/
def Dev.netVal (d : Dev) (p : Option Nat) (rel : Nat) : Option Nat :=
  let open_ (die : Nat) : Nat := nsum (d.net.qps.map fun q => if q.2.die = die then q.2.reasm.length else 0)
  match rel with
  | 0x004 => some (d.net.qps.filter fun q => some q.2.part == p).length
  | 0x008 => some (d.net.ewrs.filter fun e => some e.2.part == p).length
  | 0x110 => some (fld d.net.links 3 0)
  | 0x114 => some (fld d.net.links 7 4)
  | 0x118 => some (fld d.net.links 11 8)
  | 0x11C => some (fld d.net.links 15 12)
  | 0x124 => some (d.onChip 1 * 65536 + d.onChip 0)
  | 0x128 => some (open_ 1 * 65536 + open_ 0)
  | _ => none

/-- Block 10, SHP: a port bucket's credit in units of 4,096 bytes, and the domains in credit mode (R330). -/
def Dev.shpVal (d : Dev) (rel : Nat) : Option Nat :=
  if 0x1000 ≤ rel ∧ rel < 0x1130 ∧ rel % 16 = 12 then
    some ((Int.tdiv (d.shNode ((rel - 0x1000) / 16)).b.credit (125 * 4096)) % (2 ^ 32 : Int)).toNat
  else if rel = 0x1200 then
    some (fld (d.devReg 0x0A1200) 31 16 * 65536 + (d.rwReg (devKey 0x0A1200) 0x0A1200 &&& 0x770) + sumOver 3 fun k =>
      if (List.range 19).any fun j => shDomain j == k && (d.shNode j).mode then 2 ^ k else 0)
  else none

/-- Blocks 11 and 12, PAN and CKP. -/
def Dev.panVal (d : Dev) (p : Option Nat) (rel : Nat) : Option Nat :=
  match rel with
  | 0x004 => some (nsum (d.pan.idx.map fun i => if some i.2.part == p then i.2.live + i.2.tombs else 0))
  | 0x200 => some ((d.pan.queries.filter fun q => q.running && q.die == 1).length * 65536 + (d.pan.queries.filter fun q => q.running && q.die == 0).length)
  | _ => none
def Dev.ckpVal (d : Dev) (p : Option Nat) (rel : Nat) : Option Nat :=
  let jobs := (d.ckp.jobs.map Prod.snd).filter fun j => some j.part == p
  let bufs (die : Nat) : Nat := nsum (d.ckp.jobs.map fun j => (j.2.bufs.filter fun e => stackDie (stackOf (extentAddr e)) == die).length) / 32
  match rel with
  | 0x004 => some ((jobs.filter fun j => j.restore.isSome).length * 16 + (jobs.filter fun j => j.run.isSome).length)
  | 0x100 => some (bufs 1 * 65536 + bufs 0)
  | _ => none

/-- Block 13, SEC. -/
def Dev.secVal (d : Dev) (x : Ctx) (rel : Nat) : Option Nat :=
  match rel with
  | 0x000 => some (secState x d)
  | 0x004 => some d.sec.level
  | 0x008 => some (Config.serial.toNat % 2 ^ 32)
  | 0x00C => some (Config.serial.toNat / 2 ^ 32)
  | 0x104 => some (d.sec.sigs.filter fun s => s.ready.isNone).length
  | 0x108 => some (d.sec.sets.length * 65536 + d.sec.conn.length)
  | _ => none

/-- Block 14, MTR (R414); SEQ is that of the function's kind of record. -/
def mtrVal (x : Ctx) (d : Dev) (f : Fn) (rel : Nat) : Nat :=
  let m := x.meter
  match rel with
  | 0x000 => m.st * 2 ^ 28 + m.cause * 2 ^ 24 + m.refused * 65536 + (if m.lastOver then 2 else 0) + (if m.lastGap then 1 else 0)
  | 0x004 => m.swId.toNat
  | 0x008 => x.fuses.sealCount
  | 0x00C => m.flash.starts
  | 0x010 => m.newest (kindOf f) % 2 ^ 32
  | 0x014 => (tgetD d.nowHi (hiKey f 5) 0).toNat
  | 0x018 => m.coeff.id
  | 0x100 => m.power
  | 0x104 => m.volts
  | _ => 0

/-- The record path whose counters a function's FLT registers show. -/
def fltPath (f : Fn) : Nat := if f.num = 0 then pfPath f.port else f.num - 1

/-- Units out of service (FLT_OFFLINE). -/
def Dev.offlineVal (d : Dev) : Nat :=
  let keys := d.offline.map Prod.fst
  min 15 (keys.filter fun k => !([1, 6] : List Nat).contains (k / 1024)).length * 2 ^ 28 + d.coresDown * 2 ^ 24 +
    min 31 (keys.filter fun k => k / 1024 == 6).length * 2 ^ 19 + (d.glm.units.filter fun u => u.2.offline).length * 2 ^ 9 +
    (d.grid.cores.filter fun c => c.2.offline).length

/-- Block 15, FLT. -/
def Dev.fltVal (d : Dev) (f : Fn) (rel : Nat) : Option Nat :=
  let e := d.eq f.idx
  let p := tgetD d.paths (fltPath f) Path.reset
  match rel with
  | 0x000 => some (e.base % 2 ^ 32)
  | 0x004 => some (e.base / 2 ^ 32)
  | 0x008 => some ((if e.en then 2 ^ 31 else 0) + e.size)
  | 0x00C => some e.head
  | 0x010 => some ((if e.phase then 2 ^ 31 else 0) + e.tail)
  | 0x014 => some (e.coalTime * 65536 + e.coalCount)
  | 0x018 => some e.traceEn
  | 0x01C => some p.dropT
  | 0x020 => some p.dropL
  | 0x024 => some p.dropF
  | 0x028 => some ((p.staged.length - p.others) * 65536 + p.others)
  | 0x100 => some ((if d.halted then 2 ^ 31 else 0) + d.scrubPasses)
  | 0x11C => some d.offlineVal
  | _ => none

/-- Block 16, CRC (R454-R456). -/
def Dev.crcVal (d : Dev) (rel : Nat) : Nat :=
  let c := d.crc
  match rel with
  | 0x00 => (if c.meter then 4 else c.owner) * 2 ^ 29
  | 0x10 => (c.value ^^^ 0xFFFFFFFF#32).toNat
  | 0x14 => c.epoch
  | 0x18 => c.refused
  | _ => 0

/-! ### A read -/

/-- The key of a register of a scope, for the partition that the function addresses. -/
def regKeyOf (r : RegDesc) (p : Option Nat) (off : Nat) : Option Nat := if r.scope = .part then p.map fun p => partKey p off else some (devKey off)

/-- A register that holds only SH and RC fields: its active value and its counter. -/
def Dev.plainVal (d : Dev) (r : RegDesc) (p : Option Nat) (off : Nat) : Nat :=
  (regKeyOf r p off).elim 0 fun k =>
    (if r.mask .sh = 0 then 0 else tgetD d.regs.act k (resetOf off) &&& r.mask .sh) + (if r.mask .rc = 0 then 0 else d.counter k)

/-- The value of the register at a plain offset for a function, with the partition it addresses (R27). -/
def Dev.regVal (d : Dev) (x : Ctx) (f : Fn) (p : Option Nat) (r : RegDesc) (off : Nat) : Nat :=
  let rel := off % 0x10000
  let plain := d.plainVal r p off
  match off / 0x10000 with
  | 0 => d.devVal x rel
  | 1 => if rel < 0x900 then d.cmdVal f p rel else plain
  | 2 => d.cfgVal f rel
  | 3 => (d.sesVal p rel).getD plain
  | 4 => (d.memVal p rel).getD plain
  | 5 => (d.glmVal f rel).getD plain
  | 6 => (d.gridVal f p rel).getD plain
  | 7 => (d.schVal f p rel).getD plain
  | 8 => (d.txtVal p rel).getD plain
  | 9 => (d.netVal p rel).getD plain
  | 10 => (d.shpVal rel).getD plain
  | 11 => (d.panVal p rel).getD plain
  | 12 => (d.ckpVal p rel).getD plain
  | 13 => (d.secVal x rel).getD plain
  | 14 => mtrVal x d f rel
  | 15 => (d.fltVal f rel).getD plain
  | 16 => d.crcVal rel
  | 17 => d.timeVal x f rel
  | _ => 0

/-- The MSI-X table of a function (R44): 17 entries of 16 bytes. -/
def isMsix (off : Nat) : Bool := 0x017000 ≤ off && off < 0x017110

/-- Whether a block's registers can be reached now (R448, R449): before start-up has ended DEV and TIME alone, in a failure state DEV
alone. -/
def Dev.blockUp (d : Dev) (blk : Nat) : Bool :=
  if d.boot.state < 6 then blk == 0 || blk == 17 else blk == 0 || d.boot.state < 8 || 12 ≤ d.boot.state

/-- What a function reads at an aligned 32-bit offset (R4-R6, R28, R44, R448): a VF reads zero at a PF's register; shadow values are
0x8000 above. -/
def Dev.regRead (d : Dev) (x : Ctx) (f : Fn) (off : Nat) : Nat :=
  if !d.blockUp (off / 0x10000) then 0
  else if isMsix off then (d.msixWord f off).toNat
  else if off = 0x017800 then d.msixPend f
  else
    let shadow := off % 0x10000 ≥ 0x8000
    let base := if shadow then off - 0x8000 else off
    match regAt base with
    | none => 0
    | some (r, _) =>
      if f.num ≠ 0 ∧ !r.vf then 0
      else if shadow then
        if r.mask .sh = 0 then 0 else (regKeyOf r (d.viewPart f) base).elim 0 fun k => d.shdV k base &&& r.mask .sh
      else d.regVal x f (d.viewPart f) r base

/-! ### What a read changes (R6) -/

/-- A count of a layer cleared, or of every layer. -/
def layerClear (t : Tbl Nat) (l : Nat) : Tbl Nat := if l = 0xFFFF then [] else tdel t l

/-- The RC fields of GRID_NUM registers, which belong to the selected model. -/
def Dev.numClear (d : Dev) (f : Fn) (p : Option Nat) (rel : Nat) : Dev :=
  match d.numModel f p with
  | none => d
  | some (m, k) =>
    let l := d.numLayer f
    match rel with
    | 0x40C => d.setMdl m { k with ovf := layerClear k.ovf l }
    | 0x410 => d.setMdl m { k with unf := layerClear k.unf l }
    | 0x414 => d.setMdl m { k with nanc := layerClear k.nanc l }
    | 0x41C => d.setMdl m { k with exceed := 0, exceedSince := k.exceedSince }
    | 0x420 => d.setMdl m { k with skipped := 0 }
    | 0x424 => d.setMdl m { k with errMax := 0 }
    | _ => d

/-- The drop counters of a path. -/
def Dev.dropClear (d : Dev) (f : Fn) (rel : Nat) : Dev :=
  let p := tgetD d.paths (fltPath f) Path.reset
  let put (p : Path) : Dev := { d with paths := tset d.paths (fltPath f) p }
  match rel with
  | 0x01C => put { p with dropT := 0 }
  | 0x020 => put { p with dropL := 0 }
  | 0x024 => put { p with dropF := 0 }
  | _ => d

/-- The RC fields of a register cleared, of the values that the function addresses. -/
def Dev.clearRc (d : Dev) (f : Fn) (p : Option Nat) (r : RegDesc) (off : Nat) : Dev :=
  let rel := off % 0x10000
  if r.mask .rc = 0 then d
  else if off = 0x000114 then { d with power := { d.power with emergCount := 0 } }
  else if off = 0x020024 then d.setCfg f { d.cfgOf f with locked := 0 }
  else if off = 0x100018 then { d with crc := { d.crc with refused := 0 } }
  else if 0x06040C ≤ off ∧ off ≤ 0x060424 then d.numClear f p rel
  else if off / 0x10000 = 15 ∧ rel < 0x100 then d.dropClear f rel
  else (regKeyOf r p off).elim d fun k => d.withCnt (tdel d.regs.cnt k)

/-- The high half latched by a read of a low half (R22, and SCH's and MTR's tables). -/
def Dev.latchHi (d : Dev) (x : Ctx) (f : Fn) (off : Nat) : Dev :=
  match latchOf off with
  | none => d
  | some n =>
    let v := match n with
      | 0 => x.now
      | 5 => x.meter.newest (kindOf f)
      | _ => (d.viewPart f).elim 0 fun p => d.schWide f p (off % 0x10000)
    { d with nowHi := tset d.nowHi (hiKey f n) (hiW v) }

/-- One 32-bit register read: its value, and the state with its RC fields cleared and its high half latched. -/
def Dev.readReg (d : Dev) (x : Ctx) (f : Fn) (off : Nat) : Nat × Dev :=
  let e := match regAt off with
    | some (r, _) => if (f.num ≠ 0 ∧ !r.vf) ∨ !d.blockUp (off / 0x10000) then d else d.clearRc f (d.viewPart f) r off
    | none => d
  (d.regRead x f off, e.latchHi x f off)

/-- The offset in BAR0 that an access reaches: BAR4 mirrors the MTR window (R42). -/
def barOffset (b : Bar) (off : Nat) : Nat :=
  match b with
  | .bar0 => off
  | .bar4 => 0x0E0000 + off % 0x10000

/-- READ_CLEAR_COUNTER: a read of registers by a function; the value goes out, and RC fields are cleared. 64 bits are two registers, the
lower first; fewer than 32 bits are the addressed bytes of a register that is read; a read that is not aligned returns zero in every
byte and clears nothing (R4, R6; log entry 85). -/
def readClear (f : Fn) (b : Bar) (off size : Nat) (x : Ctx) (d : Dev) : Dev :=
  let o := barOffset b off
  if !d.fnLive f then d
  else if size = 8 ∧ o % 8 = 0 then
    let lo := d.readReg x f o
    let hi := lo.2.readReg x f (o + 4)
    hi.2.out (.readData f (leBytes 4 lo.1 ++ leBytes 4 hi.1) false)
  else if (size = 1 ∨ size = 2 ∨ size = 4) ∧ o % size = 0 then
    let r := d.readReg x f (o / 4 * 4)
    r.2.out (.readData f (((leBytes 4 r.1).drop (o % 4)).take size) false)
  else d.out (.readData f (List.replicate size 0) false)

def effReadClearCounter (f : Fn) (b : Bar) (off size : Nat) (s : State) : Host.Outcome State Fault Refusal := onDev (readClear f b off size) s

end Sys2Proof.Machine
end

