-- ==== Sys2Proof/Machine/RegWrite.lean ====
section
/-! DEFINITION. Writes to BAR0 registers (R4-R6, R27, R28, R33, R448): RW fields, shadow values, and the registers that act on a write. -/

namespace Sys2Proof.Machine

/-- Bits [hi:lo] of a 64-bit value replaced: the low or the high word. -/
def putLo (v : Nat) (w : Word) : Nat := v / 2 ^ 32 * 2 ^ 32 + w.toNat
def putHi (v : Nat) (w : Word) : Nat := w.toNat * 2 ^ 32 + v % 2 ^ 32

/-- Submission ring and reply ring registers: BASE is ignored while EN is 1 (R46). -/
def Dev.sqWrite (d : Dev) (x : Ctx) (f : Fn) (n rel : Nat) (w : Word) : Dev :=
  let q := d.sq f.idx n
  match rel with
  | 0x00 => if q.en then d else d.setSq f.idx n { q with base := putLo q.base w }
  | 0x04 => if q.en then d else d.setSq f.idx n { q with base := putHi q.base w }
  | 0x08 => sqCfgWrite x f n w d
  | 0x0C => doorbellWrite x f n w d
  | _ => d
def Dev.rqWrite (d : Dev) (x : Ctx) (f : Fn) (n rel : Nat) (w : Word) : Dev :=
  let r := d.rq f.idx n
  match rel with
  | 0x00 => if r.en then d else d.setRq f.idx n { r with base := putLo r.base w }
  | 0x04 => if r.en then d else d.setRq f.idx n { r with base := putHi r.base w }
  | 0x08 => rqCfgWrite x f n w d
  | 0x0C => rqHead x f n w d
  | 0x18 => d.setRq f.idx n { r with coalTime := wfld w 31 16, coalCount := wfld w 8 0 }
  | _ => d

/-- CFG registers. -/
def Dev.cfgRegWrite (d : Dev) (x : Ctx) (f : Fn) (rel : Nat) (w : Word) : Dev :=
  let c := d.cfgOf f
  match rel with
  | 0x00 => d.setCfg f { c with tickLo := w }
  | 0x04 => d.setCfg f { c with tickHi := w }
  | 0x08 => d.setCfg f { c with mask := wfld w 17 0 }
  | 0x0C => ctrlCopy f w x (ctrlCancel f w x (ctrlGo f w x (d.setCfg f (c.ctrl f w))))
  | 0x2C => if f.num = 0 then d.setCfg f { c with view := wfld w 3 0 } else d
  | _ => d

/-- A PF's timer registers (R38). -/
def Dev.timerWrite (d : Dev) (f : Fn) (n rel : Nat) (w : Word) : Dev :=
  let k := f.port * 16 + n
  let t := tgetD d.timers k Timer.reset
  let put (t : Timer) : Dev := { d with timers := tset d.timers k t }
  match rel with
  | 0 => put { t with cmp := putLo t.cmp w }
  | 4 => put { t with cmp := putHi t.cmp w }
  | 8 => put { t with period := wfld w 31 8, fired := t.fired && !bitAt w.toNat 1, en := bitAt w.toNat 0 }
  | _ => d

/-- Event ring registers: BASE is ignored while EN is 1. -/
def Dev.eqWrite (d : Dev) (x : Ctx) (f : Fn) (rel : Nat) (w : Word) : Dev :=
  let e := d.eq f.idx
  let put (e : Eq) : Dev := { d with eqs := tset d.eqs f.idx e }
  match rel with
  | 0x00 => if e.en then d else put { e with base := putLo e.base w }
  | 0x04 => if e.en then d else put { e with base := putHi e.base w }
  | 0x08 => eqCfgWrite f w x d
  | 0x0C => eqHeadWrite f w x d
  | 0x14 => put { e with coalTime := wfld w 31 16, coalCount := wfld w 8 0 }
  | 0x18 => put { e with traceEn := wfld w 4 0 }
  | _ => d

/-- CRC registers; the three actions of CRC_CTRL are one write. -/
def Dev.crcRegWrite (d : Dev) (x : Ctx) (f : Fn) (rel : Nat) (w : Word) : Dev :=
  match rel with
  | 0x00 => crcWrite f (.ctrl (bitAt w.toNat 2) (bitAt w.toNat 1) (bitAt w.toNat 0)) x d
  | 0x04 => crcWrite f (.data 1 w) x d
  | 0x08 => crcWrite f (.data 2 w) x d
  | 0x0C => crcWrite f (.data 4 w) x d
  | _ => d

/-- The slice of a register: the device's, or that of the partition addressed. -/
def regScopeKey (r : RegDesc) (p : Option Nat) : Option Nat := if r.scope = .part then p else some 16

/-- SH fields written to the shadow set; a locked or draining slice takes nothing, and counts (R27, R33, R35). -/
def Dev.shWrite (d : Dev) (f : Fn) (r : RegDesc) (off : Nat) (w : Word) : Dev :=
  let p := d.viewPart f
  match regScopeKey r p, regKeyOf r p off with
  | some sc, some k =>
    if d.sliceBusy sc (off / 0x10000) then d.setCfg f { d.cfgOf f with locked := satAdd top32 (d.cfgOf f).locked 1 }
    else
      let m := r.shBits off
      { d with regs := { d.regs with shd := tset d.regs.shd k ((d.shdV k off &&& (top32 - m)) ||| (w.toNat &&& m)) } }
  | _, _ => d

/-- RW registers that hold a value and nothing else: GRID_NUM_SEL and SCH_BYTES_SEL, of each function, SHP_MODE's modes, and the threshold
of the model that GRID_NUM_SEL selects. -/
def Dev.rwWrite (d : Dev) (f : Fn) (off : Nat) (w : Word) : Dev :=
  let put (k v : Nat) : Dev := { d with regs := { d.regs with rw := tset d.regs.rw k v } }
  match off with
  | 0x060404 => put (fnKey f off) w.toNat
  | 0x070038 => put (fnKey f off) (wfld w 2 0)
  | 0x0A1200 => put (devKey off) (w.toNat &&& 0x770)
  | 0x060408 => (d.numModel f (d.viewPart f)).elim d fun k => d.setMdl k.1 { k.2 with thresh := wfld w 15 0 }
  | _ => d

/-- A 32-bit write at an aligned offset, after start-up. -/
def Dev.regPut (d : Dev) (x : Ctx) (f : Fn) (r : RegDesc) (off : Nat) (w : Word) : Dev :=
  let rel := off % 0x10000
  let rest (d : Dev) : Dev := if r.mask .sh = 0 then d else d.shWrite f r off w
  match off / 0x10000 with
  | 1 =>
    if rel < 0x200 then d.sqWrite x f (rel / 32) (rel % 32) w
    else if 0x400 ≤ rel ∧ rel < 0x600 then d.rqWrite x f ((rel - 0x400) / 32) (rel % 32) w
    else if rel = 0x804 then hbWrite f w x d
    else if rel = 0x808 then hbCfg f w x d
    else rest d
  | 2 => d.cfgRegWrite x f rel w
  | 15 => if rel < 0x100 then d.eqWrite x f rel w else rest d
  | 16 => d.crcRegWrite x f rel w
  | 17 => if 0x100 ≤ rel ∧ rel < 0x200 then d.timerWrite f ((rel - 0x100) / 16) (rel % 16) w else d
  | _ => rest (d.rwWrite f off w)

/-- One 32-bit part of a write: DEV registers at any time (R448), every other block once start-up has ended; a VF reaches no register of a
PF; nothing at the shadow offsets (R28). -/
def regWrite (f : Fn) (off : Nat) (w : Word) (x : Ctx) (d : Dev) : Dev :=
  if off / 0x10000 = 0 then
    if off = 0x18 then resetWrite f w x d else if off = 0x100 then pwrCapWrite f w x d else d
  else if !d.writable then d
  else if isMsix off then d.msixWrite f off w
  else
    match regAt off with
    | none => d
    | some (r, _) => if f.num ≠ 0 ∧ !r.vf then d else d.regPut x f r off w

/-- REGISTER_WRITE: 32 bits, or 64 bits as two registers, lower first; any other size or an unaligned write has no effect (R4), and no
write to BAR4 has one (R42). -/
def registerWrite (f : Fn) (b : Bar) (off size : Nat) (v : BitVec 64) (x : Ctx) (d : Dev) : Dev :=
  let lo : Word := v.setWidth 32
  let hi : Word := (v >>> 32).setWidth 32
  if !d.fnLive f ∨ b ≠ .bar0 then d
  else if size = 4 ∧ off % 4 = 0 then regWrite f off lo x d
  else if size = 8 ∧ off % 8 = 0 then regWrite f (off + 4) hi x (regWrite f off lo x d)
  else d

def effRegisterWrite (f : Fn) (b : Bar) (off size : Nat) (v : BitVec 64) (s : State) : Host.Outcome State Fault Refusal :=
  onDev (registerWrite f b off size v) s

end Sys2Proof.Machine
end

