-- ==== Sys2Proof/Machine/Turn.lean ====
section
/-! DEFINITION. The order of the events of one tick (R23-R26): which class and place an event has, and the state that it meets. -/

namespace Sys2Proof.Machine

/-- The place of an event in its tick: its class, then for arrivals where they come from, then SOURCE (R24, R431). -/
def evKey (cls sub src : Nat) : Nat := (cls * 8 + sub) * 65536 + src

/-- Arrivals (class 7): at Ethernet port 0 to 3 (four sub-ports each), then at PCI Express port 0 and 1, then internal ones. -/
def netKey (sub : Nat) : Nat := evKey 7 (sub / 4 % 4) 0
def pcieKey (port : Nat) : Nat := evKey 7 (4 + port % 2) 0
def internalKey : Nat := evKey 7 6 0

/-- The arrival of a command: at its function's port, or from an engine. -/
def cmdKey (c : Cmd) : Nat :=
  match c.src with
  | .ring f _ _ => pcieKey f.port
  | .engine _ => internalKey

/-- The arrival of an SPDM request. -/
def spdmKey : SpdmPort → Nat
  | .doe f => pcieKey f.port
  | .mctp _ => internalKey

/-- The resets whose tick has come (R440), and the commits whose target tick has come (R34). -/
def State.dueResets (s : State) : State := glumeRst (gridRst (devReset s))
def State.dueSwaps (s : State) : State := { s with dev := s.dev.swapDue s.ctx }

/-- The end of a tick whose event tick runs: what is due in it and has not been done is done, and device time counts on. The activity tap is
noted where a meter record ends (R405). -/
def State.endTick (s : State) : State :=
  let s := s.dueResets.dueSwaps
  let n := (s.clock.now + 1) % 2 ^ 64
  { s with
    clock := { s.clock with now := n, wall := s.clock.wall + 1, order := 0 }
    dev := if n % ticksRecord = 0 then { s.dev with edge := s.dev.tap } else s.dev }

/-- The state in which an event of place k acts (R24, R26): an event whose place this tick has passed belongs to the next tick, and before it
come the resets (class 2) and the swaps (class 3) that are due. Without the event tick there is no order. -/
def State.reach (s : State) (k : Nat) : State :=
  if s.clock.power && s.clock.tick then
    let s := if k < s.clock.order then s.endTick else s
    let s := if evKey 3 0 0 ≤ k then s.dueResets else s
    let s := if evKey 4 0 0 ≤ k then s.dueSwaps else s
    { s with clock := { s.clock with order := k } }
  else s

/-- The state in which the start of an operation acts, or what an arrived message does, or what a completion lets go on: these are part of the
effect of an event before them and have no place of their own, and they come after the swaps that are due. -/
def State.follow (s : State) : State := s.reach (max s.clock.order (evKey 4 0 0))

/-- A tick of 8 ns passes with nothing left to do in it (R22, R463): device time advances while power-good is high and the event tick runs; the
model's own count of time outside the module always does (log entry 1). -/
def State.idle (s : State) : State :=
  if s.clock.power && s.clock.tick then s.endTick else { s with clock := { s.clock with wall := s.clock.wall + 1 } }

end Sys2Proof.Machine
end

