-- ==== Sys2Proof/Machine/Rows.lean ====
section
/-! DEFINITION. Every command and event at its turn: its own effect, in the state that the order of its tick leaves it (R24). The instructions of
cores and of Glume units, accesses to HBM and work in the background belong to no class, and act in the state as it is. -/

namespace Sys2Proof.Machine

def execPowerGoodRise (inputMv : Nat) (regulated : Bool) (s : State) : Host.Outcome State Fault Refusal := effPowerGoodRise inputMv regulated s
def execPowerGoodFall (s : State) : Host.Outcome State Fault Refusal := effPowerGoodFall (s.reach (evKey 0 0 0))
def execPwrEnChange (level : Bool) (s : State) : Host.Outcome State Fault Refusal := effPwrEnChange level s
def execInputVoltageShutdown (inputMv : Nat) (s : State) : Host.Outcome State Fault Refusal := effInputVoltageShutdown inputMv (s.reach (evKey 0 0 0))
def execBreakerTrip (ma : Nat) (us : Nat) (s : State) : Host.Outcome State Fault Refusal := effBreakerTrip ma us (s.reach (evKey 0 0 0))
def execPtcEvaluate (watts : Nat) (centiVolts : Nat) (centiAmps : Nat) (tjA : Nat) (tjB : Nat) (s : State) : Host.Outcome State Fault Refusal :=
  effPtcEvaluate watts centiVolts centiAmps tjA tjB s
def execEmergencyDetect (cond : Nat) (s : State) : Host.Outcome State Fault Refusal := effEmergencyDetect cond (s.reach (evKey 0 0 0))
def execEmergencyClear (s : State) : Host.Outcome State Fault Refusal := effEmergencyClear s
def execShutdown (cond : Nat) (s : State) : Host.Outcome State Fault Refusal := effShutdown cond (s.reach (evKey 0 0 0))
def execCoolantSample (inlet : Nat) (outlet : Nat) (flow : Nat) (nand : Nat) (s : State) : Host.Outcome State Fault Refusal :=
  effCoolantSample inlet outlet flow nand (s.reach (evKey 9 0 0))
def execSensorUpdate (sensor : Nat) (reading : Nat) (s : State) : Host.Outcome State Fault Refusal :=
  effSensorUpdate sensor reading (s.reach (evKey 9 0 0))
def execDevPwrCapWrite (fn : Fn) (w : Word) (s : State) : Host.Outcome State Fault Refusal := effDevPwrCapWrite fn w (s.reach (pcieKey fn.port))
def execStartupStageEnd (failure : Option Nat) (s : State) : Host.Outcome State Fault Refusal := effStartupStageEnd failure s
def execPcieLinkTrainingStart (port : Nat) (s : State) : Host.Outcome State Fault Refusal := effPcieLinkTrainingStart port (s.reach (pcieKey port))
def execPortReset (port : Nat) (kind : PortResetKind) (s : State) : Host.Outcome State Fault Refusal := effPortReset port kind (s.reach (evKey 2 0 0))
def execFunctionLevelReset (fn : Fn) (s : State) : Host.Outcome State Fault Refusal := effFunctionLevelReset fn (s.reach (evKey 2 0 0))
def execPcieDlInactive (port : Nat) (s : State) : Host.Outcome State Fault Refusal := effPcieDlInactive port (s.reach (pcieKey port))
def execLinkDownTimeout (port : Nat) (s : State) : Host.Outcome State Fault Refusal := effLinkDownTimeout port (s.reach (evKey 8 0 (source 1 0)))
def execPcieDlActive (port : Nat) (s : State) : Host.Outcome State Fault Refusal := effPcieDlActive port (s.reach (pcieKey port))
def execHeartbeat (fn : Fn) (w : Word) (s : State) : Host.Outcome State Fault Refusal := effHeartbeat fn w (s.reach (pcieKey fn.port))
def execHbCfgWrite (fn : Fn) (w : Word) (s : State) : Host.Outcome State Fault Refusal := effHbCfgWrite fn w (s.reach (pcieKey fn.port))
def execHeartbeatTimeout (port : Nat) (s : State) : Host.Outcome State Fault Refusal := effHeartbeatTimeout port (s.reach (evKey 8 0 (source 1 0)))
def execDoorbell (fn : Fn) (sq : Nat) (w : Word) (s : State) : Host.Outcome State Fault Refusal := effDoorbell fn sq w (s.reach (pcieKey fn.port))
def execSqEnable (fn : Fn) (sq : Nat) (w : Word) (s : State) : Host.Outcome State Fault Refusal := effSqEnable fn sq w (s.reach (pcieKey fn.port))
def execRqEnable (fn : Fn) (rq : Nat) (w : Word) (s : State) : Host.Outcome State Fault Refusal := effRqEnable fn rq w (s.reach (pcieKey fn.port))
def execRqHeadWrite (fn : Fn) (rq : Nat) (w : Word) (s : State) : Host.Outcome State Fault Refusal :=
  effRqHeadWrite fn rq w (s.reach (pcieKey fn.port))
def execCommandFetch (fn : Fn) (read : RingRead) (st : Completion) (words : List Word) (s : State) : Host.Outcome State Fault Refusal :=
  effCommandFetch fn read.sq read.addr st words (s.reach (pcieKey fn.port))
def execFetchResume (fn : Fn) (sq : Nat) (s : State) : Host.Outcome State Fault Refusal := effFetchResume fn sq s.follow
def execFencedCommandStart (c : Cmd) (s : State) : Host.Outcome State Fault Refusal := effFencedCommandStart c s.follow
def execDescriptorWaitResume (s : State) : Host.Outcome State Fault Refusal := effDescriptorWaitResume s.follow
def execReplyCoalesceTimeout (fn : Fn) (rq : Nat) (s : State) : Host.Outcome State Fault Refusal :=
  effReplyCoalesceTimeout fn rq (s.reach (evKey 8 0 (source 1 0)))
def execDevNop (c : Cmd) (s : State) : Host.Outcome State Fault Refusal := effDevNop c (s.reach (cmdKey c))
def execDevIdentify (c : Cmd) (s : State) : Host.Outcome State Fault Refusal := effDevIdentify c (s.reach (cmdKey c))
def execDevAbort (c : Cmd) (s : State) : Host.Outcome State Fault Refusal := effDevAbort c (s.reach (cmdKey c))
def execDevSetCtrlHost (c : Cmd) (s : State) : Host.Outcome State Fault Refusal := effDevSetCtrlHost c (s.reach (cmdKey c))
def execDevPartBind (c : Cmd) (s : State) : Host.Outcome State Fault Refusal := effDevPartBind c (s.reach (cmdKey c))
def execDevPartRelease (c : Cmd) (s : State) : Host.Outcome State Fault Refusal := effDevPartRelease c (s.reach (cmdKey c))
def execDevAdopt (c : Cmd) (s : State) : Host.Outcome State Fault Refusal := effDevAdopt c (s.reach (cmdKey c))
def execDevHostStatus (c : Cmd) (s : State) : Host.Outcome State Fault Refusal := effDevHostStatus c (s.reach (cmdKey c))
def execCfgCommit (c : Cmd) (s : State) : Host.Outcome State Fault Refusal := effCfgCommit c (s.reach (cmdKey c))
def execCfgCancel (c : Cmd) (s : State) : Host.Outcome State Fault Refusal := effCfgCancel c (s.reach (cmdKey c))
def execCfgCopy (c : Cmd) (s : State) : Host.Outcome State Fault Refusal := effCfgCopy c (s.reach (cmdKey c))
def execCfgCommitCtrlGo (fn : Fn) (w : Word) (s : State) : Host.Outcome State Fault Refusal := effCfgCommitCtrlGo fn w (s.reach (pcieKey fn.port))
def execCfgCommitCtrlCancel (fn : Fn) (w : Word) (s : State) : Host.Outcome State Fault Refusal :=
  effCfgCommitCtrlCancel fn w (s.reach (pcieKey fn.port))
def execCfgCommitCtrlCopy (fn : Fn) (w : Word) (s : State) : Host.Outcome State Fault Refusal := effCfgCommitCtrlCopy fn w (s.reach (pcieKey fn.port))
def execCommitSwap (id : Nat) (s : State) : Host.Outcome State Fault Refusal := effCommitSwap id (s.reach (evKey 3 0 0))
def execSpeedMeasure (die : Nat) (f : Nat) (s : State) : Host.Outcome State Fault Refusal := effSpeedMeasure die f (s.reach (evKey 9 0 0))
def execTimerFire (port : Nat) (n : Nat) (s : State) : Host.Outcome State Fault Refusal :=
  effTimerFire port n (s.reach (evKey 8 0 (source 17 (16 + n))))
def execTimeNowLoRead (fn : Fn) (s : State) : Host.Outcome State Fault Refusal := effTimeNowLoRead fn (s.reach (pcieKey fn.port))
def execReadClearCounter (win : Window) (span : Span) (s : State) : Host.Outcome State Fault Refusal :=
  effReadClearCounter win.fn win.bar span.off span.size (s.reach (pcieKey win.fn.port))
def execRegisterWrite (fn : Fn) (bar : Bar) (span : Span) (value : BitVec 64) (s : State) : Host.Outcome State Fault Refusal :=
  effRegisterWrite fn bar span.off span.size value (s.reach (pcieKey fn.port))
def execSesOpen (c : Cmd) (s : State) : Host.Outcome State Fault Refusal := effSesOpen c (s.reach (cmdKey c))
def execSesPark (c : Cmd) (s : State) : Host.Outcome State Fault Refusal := effSesPark c (s.reach (cmdKey c))
def execSesRevive (c : Cmd) (s : State) : Host.Outcome State Fault Refusal := effSesRevive c (s.reach (cmdKey c))
def execSesClose (c : Cmd) (s : State) : Host.Outcome State Fault Refusal := effSesClose c (s.reach (cmdKey c))
def execSesMove (c : Cmd) (s : State) : Host.Outcome State Fault Refusal := effSesMove c (s.reach (cmdKey c))
def execSesQuery (c : Cmd) (s : State) : Host.Outcome State Fault Refusal := effSesQuery c (s.reach (cmdKey c))
def execSesMoveIn (c : Cmd) (s : State) : Host.Outcome State Fault Refusal := effSesMoveIn c (s.reach (cmdKey c))
def execSesAwait (c : Cmd) (s : State) : Host.Outcome State Fault Refusal := effSesAwait c (s.reach (cmdKey c))
def execSesSignal (c : Cmd) (s : State) : Host.Outcome State Fault Refusal := effSesSignal c (s.reach (cmdKey c))
def execSlotFire (h : Word) (slot : Nat) (len : Nat) (s : State) : Host.Outcome State Fault Refusal := effSlotFire h slot len s.follow
def execTimerSlotFire (h : Word) (slot : Nat) (s : State) : Host.Outcome State Fault Refusal :=
  effTimerSlotFire h slot (s.reach (evKey 8 0 (source 3 0)))
def execWaitExpiry (h : Word) (s : State) : Host.Outcome State Fault Refusal := effWaitExpiry h (s.reach (evKey 6 0 (source 3 0)))
def execParkAfterExpiry (h : Word) (s : State) : Host.Outcome State Fault Refusal := effParkAfterExpiry h (s.reach internalKey)
def execStagingHighPark (die : Nat) (s : State) : Host.Outcome State Fault Refusal := effStagingHighPark die (s.reach internalKey)
def execParkWriteConfirmed (h : Word) (s : State) : Host.Outcome State Fault Refusal := effParkWriteConfirmed h (s.reach (evKey 5 0 (source 3 0)))
def execStagingEntryFreeRevive (h : Word) (s : State) : Host.Outcome State Fault Refusal := effStagingEntryFreeRevive h s.follow
def execReviveDecodeEnd (h : Word) (s : State) : Host.Outcome State Fault Refusal := effReviveDecodeEnd h (s.reach (evKey 5 0 (source 3 0)))
def execCloseReleaseDone (h : Word) (s : State) : Host.Outcome State Fault Refusal := effCloseReleaseDone h (s.reach (evKey 5 0 (source 3 0)))
def execMoveRecordArrival (qpn : Nat) (msg : List Byte) (s : State) : Host.Outcome State Fault Refusal := effMoveRecordArrival qpn msg s.follow
def execMoveConfirmationArrival (qpn : Nat) (msg : List Byte) (s : State) : Host.Outcome State Fault Refusal :=
  effMoveConfirmationArrival qpn msg s.follow
def execMoveConfirmSendComplete (h : Word) (status : Nat) (s : State) : Host.Outcome State Fault Refusal :=
  effMoveConfirmSendComplete h status (s.reach (evKey 5 0 (source 3 0)))
def execMoveAbortArrival (qpn : Nat) (msg : List Byte) (s : State) : Host.Outcome State Fault Refusal := effMoveAbortArrival qpn msg s.follow
def execMoveInTimeout (h : Word) (s : State) : Host.Outcome State Fault Refusal := effMoveInTimeout h (s.reach (evKey 8 0 (source 3 0)))
def execMoveConfirmTimeout (h : Word) (s : State) : Host.Outcome State Fault Refusal := effMoveConfirmTimeout h (s.reach (evKey 8 0 (source 3 0)))
def execMemBufMap (c : Cmd) (s : State) : Host.Outcome State Fault Refusal := effMemBufMap c (s.reach (cmdKey c))
def execMemBufUnmap (c : Cmd) (s : State) : Host.Outcome State Fault Refusal := effMemBufUnmap c (s.reach (cmdKey c))
def execBufUnmapResume (op : Nat) (s : State) : Host.Outcome State Fault Refusal := effBufUnmapResume op s.follow
def execMemMove (c : Cmd) (s : State) : Host.Outcome State Fault Refusal := effMemMove c (s.reach (cmdKey c))
def execMemXfer (c : Cmd) (s : State) : Host.Outcome State Fault Refusal := effMemXfer c (s.reach (cmdKey c))
def execMemFreeze (c : Cmd) (s : State) : Host.Outcome State Fault Refusal := effMemFreeze c (s.reach (cmdKey c))
def execMemShareDrop (c : Cmd) (s : State) : Host.Outcome State Fault Refusal := effMemShareDrop c (s.reach (cmdKey c))
def execMemWhere (c : Cmd) (s : State) : Host.Outcome State Fault Refusal := effMemWhere c (s.reach (cmdKey c))
def execMemStore (c : Cmd) (s : State) : Host.Outcome State Fault Refusal := effMemStore c (s.reach (cmdKey c))
def execMemLoad (c : Cmd) (s : State) : Host.Outcome State Fault Refusal := effMemLoad c (s.reach (cmdKey c))
def execMemNandFree (c : Cmd) (s : State) : Host.Outcome State Fault Refusal := effMemNandFree c (s.reach (cmdKey c))
def execMemKeyRotate (c : Cmd) (s : State) : Host.Outcome State Fault Refusal := effMemKeyRotate c (s.reach (evKey 4 0 0))
def execMemKeyRetire (c : Cmd) (s : State) : Host.Outcome State Fault Refusal := effMemKeyRetire c (s.reach (evKey 4 0 0))
def execMemKeyStatus (c : Cmd) (s : State) : Host.Outcome State Fault Refusal := effMemKeyStatus c (s.reach (cmdKey c))
def execGranuleCopyStart (op : Nat) (s : State) : Host.Outcome State Fault Refusal := effGranuleCopyStart op s.follow
def execGranuleSwitch (op : Nat) (confirmed : Bool) (s : State) : Host.Outcome State Fault Refusal :=
  effGranuleSwitch op confirmed (s.reach (evKey 5 0 (source 4 0)))
def execPrefetchEntryStart (model : Nat) (s : State) : Host.Outcome State Fault Refusal := effPrefetchEntryStart model s.follow
def execPrefetchEntryComplete (model : Nat) (entry : Nat) (s : State) : Host.Outcome State Fault Refusal :=
  effPrefetchEntryComplete model entry (s.reach (evKey 5 0 (source 4 0)))
def execFtlWriteConfirm (op : Nat) (programOk : Bool) (s : State) : Host.Outcome State Fault Refusal :=
  effFtlWriteConfirm op programOk (s.reach (evKey 5 0 (source 4 0)))
def execNandReadComplete (lu : Nat) (res : NandRead) (s : State) : Host.Outcome State Fault Refusal :=
  effNandReadComplete lu res (s.reach (evKey 5 0 (source 4 0)))
def execNandDieFailure (die : Nat) (s : State) : Host.Outcome State Fault Refusal :=
  effNandDieFailure die (s.reach (evKey 1 0 (source 4 (0x100 + die))))
def execDieRebuildComplete (die : Nat) (s : State) : Host.Outcome State Fault Refusal :=
  effDieRebuildComplete die (s.reach (evKey 5 0 (source 4 (0x100 + die))))
def execGarbageCollect (region : Nat) (s : State) : Host.Outcome State Fault Refusal := effGarbageCollect region s
def execReadDisturbRelocate (block : Nat) (worn : Bool) (s : State) : Host.Outcome State Fault Refusal := effReadDisturbRelocate block worn s
def execWearLevelMove (block : Nat) (s : State) : Host.Outcome State Fault Refusal := effWearLevelMove block s
def execSweepUnitSwitch (part : Nat) (lu : Nat) (s : State) : Host.Outcome State Fault Refusal :=
  effSweepUnitSwitch part lu (s.reach (evKey 5 0 (source 4 0)))
def execGlmRegionMode (c : Cmd) (s : State) : Host.Outcome State Fault Refusal := effGlmRegionMode c (s.reach (cmdKey c))
def execRegionSwitch (stack : Nat) (region : Nat) (s : State) : Host.Outcome State Fault Refusal :=
  effRegionSwitch stack region (s.reach (evKey 3 0 (source 5 0)))
def execGlmProgLoad (c : Cmd) (s : State) : Host.Outcome State Fault Refusal := effGlmProgLoad c (s.reach (cmdKey c))
def execGlmCurveLoad (c : Cmd) (s : State) : Host.Outcome State Fault Refusal := effGlmCurveLoad c (s.reach (cmdKey c))
def execGlmSubmit (c : Cmd) (s : State) : Host.Outcome State Fault Refusal := effGlmSubmit c (s.reach (cmdKey c))
def execGlmStatus (c : Cmd) (s : State) : Host.Outcome State Fault Refusal := effGlmStatus c (s.reach (cmdKey c))
def execGlmRegionQuery (c : Cmd) (s : State) : Host.Outcome State Fault Refusal := effGlmRegionQuery c (s.reach (cmdKey c))
def execGlumeStart (ag : Agent) (part : Nat) (addr : Nat) (words : List Word) (s : State) : Host.Outcome State Fault Refusal :=
  effGlumeStart ag part addr words s
def execGlumeStop (ag : Agent) (part : Nat) (addr : Nat) (words : List Word) (s : State) : Host.Outcome State Fault Refusal :=
  effGlumeStop ag part addr words s
def execGlumeClear (ag : Agent) (part : Nat) (addr : Nat) (words : List Word) (s : State) : Host.Outcome State Fault Refusal :=
  effGlumeClear ag part addr words s
def execGlAliasStatusRead (ag : Agent) (part : Nat) (addr : Nat) (len : Nat) (s : State) : Host.Outcome State Fault Refusal :=
  effGlAliasStatusRead ag part addr len s
def execGlAliasResultRead (ag : Agent) (part : Nat) (addr : Nat) (len : Nat) (s : State) : Host.Outcome State Fault Refusal :=
  effGlAliasResultRead ag part addr len s
def execProgramStart (u : Nat) (s : State) : Host.Outcome State Fault Refusal := effProgramStart u s.follow
def execGlmAlu (u : Nat) (op : AluOp) (rd : Nat) (rs : Nat) (src : GSrc) (s : State) : Host.Outcome State Fault Refusal := effGlmAlu u op rd rs src s
def execGlmMul (u : Nat) (high : Bool) (rd : Nat) (rs : Nat) (rt : Nat) (s : State) : Host.Outcome State Fault Refusal := effGlmMul u high rd rs rt s
def execGlmLi (u : Nat) (rd : Nat) (v : Word) (s : State) : Host.Outcome State Fault Refusal := effGlmLi u rd v s
def execGlmBranch (u : Nat) (c : Cond) (rs : Nat) (rt : Nat) (target : Nat) (s : State) : Host.Outcome State Fault Refusal :=
  effGlmBranch u c rs rt target s
def execGlmLdSt (u : Nat) (store : Bool) (bytes : Nat) (r : Nat) (base : Nat) (off : BitVec 12) (s : State) : Host.Outcome State Fault Refusal :=
  effGlmLdSt u store bytes r base off s
def execBrd (u : Nat) (dst : Nat) (addrLo : Nat) (addrHi : Nat) (len : Nat) (ecc : List (Nat × Ecc)) (s : State) : Host.Outcome State Fault Refusal :=
  effBrd u dst addrLo addrHi len ecc s
def execBwr (u : Nat) (src : Nat) (addrLo : Nat) (addrHi : Nat) (len : Nat) (ecc : List (Nat × Ecc)) (s : State) : Host.Outcome State Fault Refusal :=
  effBwr u src addrLo addrHi len ecc s
def execBwait (u : Nat) (s : State) : Host.Outcome State Fault Refusal := effBwait u s
def execPgnext (u : Nat) (rLo : Nat) (rHi : Nat) (rPos : Nat) (s : State) : Host.Outcome State Fault Refusal := effPgnext u rLo rHi rPos s
def execGlmVldVst (u : Nat) (store : Bool) (v : Nat) (base : Nat) (off : BitVec 12) (s : State) : Host.Outcome State Fault Refusal :=
  effGlmVldVst u store v base off s
def execGlmVcvt (u : Nat) (fmt : Nat) (v : Nat) (src : Nat) (scales : Nat) (s : State) : Host.Outcome State Fault Refusal :=
  effGlmVcvt u fmt v src scales s
def execGlmVectorArith (u : Nat) (op : VecOp) (vd : Nat) (va : Nat) (b : VSrc) (s : State) : Host.Outcome State Fault Refusal :=
  effGlmVectorArith u op vd va b s
def execGlmVexp2 (u : Nat) (vd : Nat) (va : Nat) (s : State) : Host.Outcome State Fault Refusal := effGlmVexp2 u vd va s
def execGlmVreduce (u : Nat) (max : Bool) (rd : Nat) (va : Nat) (s : State) : Host.Outcome State Fault Refusal := effGlmVreduce u max rd va s
def execRes (u : Nat) (src : Nat) (len : Nat) (s : State) : Host.Outcome State Fault Refusal := effRes u src len s
def execYield (u : Nat) (s : State) : Host.Outcome State Fault Refusal := effYield u s
def execGlmEnd (u : Nat) (s : State) : Host.Outcome State Fault Refusal := effGlmEnd u s
def execServiceWindowEnd (u : Nat) (s : State) : Host.Outcome State Fault Refusal := effServiceWindowEnd u s
def execYieldOverrun (u : Nat) (s : State) : Host.Outcome State Fault Refusal := effYieldOverrun u (s.reach (evKey 1 0 (source 5 u)))
def execBudgetExpiry (u : Nat) (s : State) : Host.Outcome State Fault Refusal := effBudgetExpiry u (s.reach (evKey 1 0 (source 5 u)))
def execOrdinaryRead (ag : Agent) (part : Nat) (addr : Nat) (len : Nat) (ecc : List (Nat × Ecc)) (s : State) : Host.Outcome State Fault Refusal :=
  effOrdinaryRead ag part addr len ecc s
def execOrdinaryWrite (ag : Agent) (part : Nat) (addr : Nat) (bytes : List Byte) (s : State) : Host.Outcome State Fault Refusal :=
  effOrdinaryWrite ag part addr bytes s
def execHeldReadTimeout (u : Nat) (s : State) : Host.Outcome State Fault Refusal := effHeldReadTimeout u (s.reach (evKey 8 0 (source 5 u)))
def execGlAliasPathAccess (who : Requester) (addr : Nat) (write : Bool) (len : Nat) (bytes : List Byte) (ecc : List (Nat × Ecc)) (s : State) : Host.Outcome State Fault Refusal :=
  effGlAliasPathAccess who.ag who.part addr write len bytes ecc s
def execBar2Read (fn : Fn) (off : Nat) (len : Nat) (ecc : List (Nat × Ecc)) (s : State) : Host.Outcome State Fault Refusal :=
  effBar2Read fn off len ecc (s.reach (pcieKey fn.port))
def execBar2Write (fn : Fn) (off : Nat) (bytes : List Byte) (s : State) : Host.Outcome State Fault Refusal :=
  effBar2Write fn off bytes (s.reach (pcieKey fn.port))
def execStackTempSample (die stack temp : Nat) (s : State) : Host.Outcome State Fault Refusal :=
  effStackTempSample (die * 8 + stack) temp (s.reach (evKey 9 0 0))
def execTargetedRefresh (u : Nat) (bank : Nat) (row : Nat) (s : State) : Host.Outcome State Fault Refusal := effTargetedRefresh u bank row s
def execRefreshWindowEnd (stack : Nat) (s : State) : Host.Outcome State Fault Refusal := effRefreshWindowEnd stack (s.reach (evKey 8 0 (source 5 0)))
def execScrubRead (addr : Nat) (ecc : Ecc) (s : State) : Host.Outcome State Fault Refusal :=
  effScrubRead addr ecc (s.reach (evKey 1 0 (source 5 (unitOf addr))))
def execSramScrub (block : Nat) (unit : Nat) (index : Nat) (ecc : Ecc) (s : State) : Host.Outcome State Fault Refusal :=
  effSramScrub block unit index ecc (s.reach (evKey 1 0 (source block unit)))
def execNandReadScan (lu : Nat) (res : NandRead) (s : State) : Host.Outcome State Fault Refusal := effNandReadScan lu res s
def execCeRate (u : Nat) (s : State) : Host.Outcome State Fault Refusal := effCeRate u s
def execMdlRegister (c : Cmd) (s : State) : Host.Outcome State Fault Refusal := effMdlRegister c (s.reach (cmdKey c))
def execMdlLoad (c : Cmd) (s : State) : Host.Outcome State Fault Refusal := effMdlLoad c (s.reach (cmdKey c))
def execMdlEvict (c : Cmd) (s : State) : Host.Outcome State Fault Refusal := effMdlEvict c (s.reach (cmdKey c))
def execMdlPin (c : Cmd) (s : State) : Host.Outcome State Fault Refusal := effMdlPin c (s.reach (cmdKey c))
def execMdlCheck (c : Cmd) (s : State) : Host.Outcome State Fault Refusal := effMdlCheck c (s.reach (cmdKey c))
def execMdlQuery (c : Cmd) (s : State) : Host.Outcome State Fault Refusal := effMdlQuery c (s.reach (cmdKey c))
def execMdlUnregister (c : Cmd) (s : State) : Host.Outcome State Fault Refusal := effMdlUnregister c (s.reach (cmdKey c))
def execLoadComplete (model : Nat) (s : State) : Host.Outcome State Fault Refusal := effLoadComplete model (s.reach (evKey 5 0 (source 6 0)))
def execCoreScalarAlu (n : Nat) (op : Option AluOp) (rd : Nat) (rs : Nat) (src : CSrc) (s : State) : Host.Outcome State Fault Refusal :=
  effCoreScalarAlu n op rd rs src s
def execCoreLdSt (n : Nat) (store : Bool) (bytes : Nat) (r : Nat) (base : Nat) (off : BitVec 16) (s : State) : Host.Outcome State Fault Refusal :=
  effCoreLdSt n store bytes r base off s
def execCoreBranch (n : Nat) (br : CoreBr) (s : State) : Host.Outcome State Fault Refusal := effCoreBranch n br s
def execCoreLoop (n : Nat) (rcount : Nat) (blockLen : Nat) (s : State) : Host.Outcome State Fault Refusal := effCoreLoop n rcount blockLen s
def execWload (n : Nat) (w : Nat) (base : Nat) (s : State) : Host.Outcome State Fault Refusal := effWload n w base s
def execMmul (n : Nat) (w : Nat) (acc : Nat) (actFmt : Nat) (base : Nat) (rows : Nat) (accRow : Nat) (residueOk : Bool) (adderOk : Bool) (s : State) : Host.Outcome State Fault Refusal :=
  effMmul n w acc actFmt base rows accRow residueOk adderOk s
def execAccout (n : Nat) (acc : Nat) (row : Nat) (rows : Nat) (fmt : Nat) (dst : Nat) (scale : Option Nat) (s : State) : Host.Outcome State Fault Refusal :=
  effAccout n acc row rows fmt dst scale s
def execAccz (n : Nat) (acc : Nat) (s : State) : Host.Outcome State Fault Refusal := effAccz n acc s
def execCoreVldVst (n : Nat) (store : Bool) (q : Nat) (fmt : Nat) (addr : Nat) (s : State) : Host.Outcome State Fault Refusal :=
  effCoreVldVst n store q fmt addr s
def execCoreVectorArith (n : Nat) (op : VecOp) (qd : Nat) (qa : Nat) (b : VSrc) (s : State) : Host.Outcome State Fault Refusal :=
  effCoreVectorArith n op qd qa b s
def execVred (n : Nat) (max : Bool) (rd : Nat) (qa : Nat) (s : State) : Host.Outcome State Fault Refusal := effVred n max rd qa s
def execVquant (n : Nat) (fmt : Nat) (src : Option Nat) (dst : Nat) (scales : Nat) (split : Option Nat) (stage : Nat) (group : Nat) (s : State) : Host.Outcome State Fault Refusal :=
  effVquant n fmt src dst scales split stage group s
def execCoreVcvt (n : Nat) (fmt : Nat) (q : Nat) (src : Nat) (scales : Nat) (s : State) : Host.Outcome State Fault Refusal :=
  effCoreVcvt n fmt q src scales s
def execCoreSend (n : Nat) (dst : Nat) (chan : Nat) (off : Nat) (len : Nat) (s : State) : Host.Outcome State Fault Refusal :=
  effCoreSend n dst chan off len s
def execMessageDelivery (src : Nat) (dst : Nat) (chan : Nat) (s : State) : Host.Outcome State Fault Refusal := effMessageDelivery src dst chan s
def execRecv (n : Nat) (chan : Nat) (rAddr : Nat) (rLen : Nat) (s : State) : Host.Outcome State Fault Refusal := effRecv n chan rAddr rLen s
def execMfree (n : Nat) (chan : Nat) (s : State) : Host.Outcome State Fault Refusal := effMfree n chan s
def execPoll (n : Nat) (rd : Nat) (buffer : Bool) (idx : Nat) (s : State) : Host.Outcome State Fault Refusal := effPoll n rd buffer idx s
def execWaitfull (n : Nat) (buf : Nat) (s : State) : Host.Outcome State Fault Refusal := effWaitfull n buf s
def execBrelease (n : Nat) (buf : Nat) (s : State) : Host.Outcome State Fault Refusal := effBrelease n buf s
def execXfer (n : Nat) (kind : XferKind) (off : Nat) (len : Nat) (s : State) : Host.Outcome State Fault Refusal := effXfer n kind off len s
def execXferComplete (n : Nat) (s : State) : Host.Outcome State Fault Refusal := effXferComplete n (s.reach (evKey 5 0 (source 6 n)))
def execStepwait (n : Nat) (rd : Nat) (s : State) : Host.Outcome State Fault Refusal := effStepwait n rd s
def execStepdone (n : Nat) (engineNs : Nat) (s : State) : Host.Outcome State Fault Refusal := effStepdone n engineNs s
def execCoreFence (n : Nat) (s : State) : Host.Outcome State Fault Refusal := effCoreFence n s
def execHalt (n : Nat) (s : State) : Host.Outcome State Fault Refusal := effHalt n s
def execHangTimeout (n : Nat) (s : State) : Host.Outcome State Fault Refusal := effHangTimeout n (s.reach (evKey 1 0 (source 6 n)))
def execFanOut (n : Nat) (descOff : Nat) (s : State) : Host.Outcome State Fault Refusal := effFanOut n descOff s
def execFanOutMemberDone (n : Nat) (s : State) : Host.Outcome State Fault Refusal := effFanOutMemberDone n (s.reach (evKey 5 0 (source 6 n)))
def execPfxFromSession (c : Cmd) (s : State) : Host.Outcome State Fault Refusal := effPfxFromSession c (s.reach (cmdKey c))
def execPfxCreate (c : Cmd) (s : State) : Host.Outcome State Fault Refusal := effPfxCreate c (s.reach (cmdKey c))
def execPfxQuery (c : Cmd) (s : State) : Host.Outcome State Fault Refusal := effPfxQuery c (s.reach (cmdKey c))
def execAdpCreate (c : Cmd) (s : State) : Host.Outcome State Fault Refusal := effAdpCreate c (s.reach (cmdKey c))
def execAdpReplace (c : Cmd) (s : State) : Host.Outcome State Fault Refusal := effAdpReplace c (s.reach (cmdKey c))
def execAdpQuery (c : Cmd) (s : State) : Host.Outcome State Fault Refusal := effAdpQuery c (s.reach (cmdKey c))
def execAdpRetire (c : Cmd) (s : State) : Host.Outcome State Fault Refusal := effAdpRetire c (s.reach (cmdKey c))
def execTrnStart (c : Cmd) (s : State) : Host.Outcome State Fault Refusal := effTrnStart c (s.reach (cmdKey c))
def execTrnStop (c : Cmd) (s : State) : Host.Outcome State Fault Refusal := effTrnStop c (s.reach (cmdKey c))
def execTrnQuery (c : Cmd) (s : State) : Host.Outcome State Fault Refusal := effTrnQuery c (s.reach (cmdKey c))
def execTrainingStepStart (job : Nat) (s : State) : Host.Outcome State Fault Refusal := effTrainingStepStart job s.follow
def execTrainingStepBoundary (job : Nat) (s : State) : Host.Outcome State Fault Refusal :=
  effTrainingStepBoundary job (s.reach (evKey 5 0 (source 7 0)))
def execSpillMoveStart (part : Nat) (s : State) : Host.Outcome State Fault Refusal := effSpillMoveStart part s.follow
def execSpillSwitch (op : Nat) (s : State) : Host.Outcome State Fault Refusal := effSpillSwitch op (s.reach (evKey 5 0 (source 4 0)))
def execFetchBackSwitch (op : Nat) (s : State) : Host.Outcome State Fault Refusal := effFetchBackSwitch op (s.reach (evKey 5 0 (source 4 0)))
def execFetchBackPagePlace (part : Nat) (s : State) : Host.Outcome State Fault Refusal := effFetchBackPagePlace part s.follow
def execBatchStepEnd (model : Nat) (tokens : List Nat) (s : State) : Host.Outcome State Fault Refusal :=
  effBatchStepEnd model tokens (s.reach (evKey 5 0 (source 7 0)))
def execBatchStepStart (model : Nat) (s : State) : Host.Outcome State Fault Refusal := effBatchStepStart model s.follow
def execMonitorPass (s : State) : Host.Outcome State Fault Refusal := effMonitorPass (s.reach (evKey 8 0 (source 7 0)))
def execDeadlineExpiry (h : Word) (s : State) : Host.Outcome State Fault Refusal := effDeadlineExpiry h (s.reach (evKey 6 0 (source 7 0)))
def execEnergySplit (part : Nat) (s : State) : Host.Outcome State Fault Refusal := effEnergySplit part s.follow
def execReqTemplate (c : Cmd) (s : State) : Host.Outcome State Fault Refusal := effReqTemplate c (s.reach (cmdKey c))
def execReqSubmit (c : Cmd) (s : State) : Host.Outcome State Fault Refusal := effReqSubmit c (s.reach (cmdKey c))
def execReqCancel (c : Cmd) (s : State) : Host.Outcome State Fault Refusal := effReqCancel c (s.reach (cmdKey c))
def execReqQuery (c : Cmd) (s : State) : Host.Outcome State Fault Refusal := effReqQuery c (s.reach (cmdKey c))
def execSchModelCfg (c : Cmd) (s : State) : Host.Outcome State Fault Refusal := effSchModelCfg c (s.reach (cmdKey c))
def execSchAcctRead (c : Cmd) (s : State) : Host.Outcome State Fault Refusal := effSchAcctRead c (s.reach (cmdKey c))
def execSpeltIntake (die : Nat) (s : State) : Host.Outcome State Fault Refusal := effSpeltIntake die s.follow
def execSpeltRequestEnd (die : Nat) (lane : Nat) (s : State) : Host.Outcome State Fault Refusal :=
  effSpeltRequestEnd die lane (s.reach (evKey 5 0 (source 8 die)))
def execTxtTableLoad (c : Cmd) (s : State) : Host.Outcome State Fault Refusal := effTxtTableLoad c (s.reach (cmdKey c))
def execTxtModelTok (c : Cmd) (s : State) : Host.Outcome State Fault Refusal := effTxtModelTok c (s.reach (cmdKey c))
def execTxtGrammarSet (c : Cmd) (s : State) : Host.Outcome State Fault Refusal := effTxtGrammarSet c (s.reach (cmdKey c))
def execTxtQuery (c : Cmd) (s : State) : Host.Outcome State Fault Refusal := effTxtQuery c (s.reach (cmdKey c))
def execTxtTokenize (c : Cmd) (s : State) : Host.Outcome State Fault Refusal := effTxtTokenize c (s.reach (cmdKey c))
def execTxtDetokenize (c : Cmd) (s : State) : Host.Outcome State Fault Refusal := effTxtDetokenize c (s.reach (cmdKey c))
def execFrameReceive (f : Frame) (s : State) : Host.Outcome State Fault Refusal := effFrameReceive f (s.reach (netKey f.sub))
def execPfcFrame (sub : Nat) (prio : Nat) (xoff : Bool) (s : State) : Host.Outcome State Fault Refusal :=
  effPfcFrame sub prio xoff (s.reach (netKey sub))
def execArpRequest (sub : Nat) (target : Nat) (s : State) : Host.Outcome State Fault Refusal := effArpRequest sub target (s.reach (netKey sub))
def execPacketArrivalExt (p : Packet) (s : State) : Host.Outcome State Fault Refusal := effPacketArrivalExt p (s.reach (netKey p.sub))
def execPacketArrivalRc (p : Packet) (s : State) : Host.Outcome State Fault Refusal := effPacketArrivalRc p (s.reach (netKey p.sub))
def execReadRequest (p : Packet) (s : State) : Host.Outcome State Fault Refusal := effReadRequest p (s.reach (netKey p.sub))
def execMessageComplete (qpn : Nat) (msn : Nat) (s : State) : Host.Outcome State Fault Refusal := effMessageComplete qpn msn s.follow
def execAckArrival (p : Packet) (s : State) : Host.Outcome State Fault Refusal := effAckArrival p (s.reach (netKey p.sub))
def execAckTimeout (qpn : Nat) (msn : Nat) (s : State) : Host.Outcome State Fault Refusal := effAckTimeout qpn msn (s.reach (evKey 8 0 (source 9 0)))
def execRnrTimerExpiry (qpn : Nat) (msn : Nat) (s : State) : Host.Outcome State Fault Refusal :=
  effRnrTimerExpiry qpn msn (s.reach (evKey 8 0 (source 9 0)))
def execCnpArrival (qpn : Nat) (s : State) : Host.Outcome State Fault Refusal := effCnpArrival qpn (s.reach (netKey ((s.dev.qp qpn).elim 0 Qp.sub)))
def execReassemblyTimeout (qpn : Nat) (msn : Nat) (s : State) : Host.Outcome State Fault Refusal :=
  effReassemblyTimeout qpn msn (s.reach (evKey 8 0 (source 9 0)))
def execContextFetchComplete (qpn : Nat) (s : State) : Host.Outcome State Fault Refusal :=
  effContextFetchComplete qpn (s.reach (evKey 5 0 (source 9 0)))
def execContextFetchExpiry (qpn : Nat) (s : State) : Host.Outcome State Fault Refusal := effContextFetchExpiry qpn (s.reach (evKey 8 0 (source 9 0)))
def execEthLinkChange (sub : Nat) (up : Bool) (s : State) : Host.Outcome State Fault Refusal := effEthLinkChange sub up (s.reach (netKey sub))
def execWaitEnRelease (qpn : Nat) (s : State) : Host.Outcome State Fault Refusal := effWaitEnRelease qpn s.follow
def execShapedUnitStart (node : Nat) (part : Nat) (flow : Nat) (bytes : Nat) (s : State) : Host.Outcome State Fault Refusal :=
  effShapedUnitStart node part flow bytes s.follow
def execNetQpCreate (c : Cmd) (s : State) : Host.Outcome State Fault Refusal := effNetQpCreate c (s.reach (cmdKey c))
def execNetQpConnect (c : Cmd) (s : State) : Host.Outcome State Fault Refusal := effNetQpConnect c (s.reach (cmdKey c))
def execNetQpDestroy (c : Cmd) (s : State) : Host.Outcome State Fault Refusal := effNetQpDestroy c (s.reach (cmdKey c))
def execNetQpQuery (c : Cmd) (s : State) : Host.Outcome State Fault Refusal := effNetQpQuery c (s.reach (cmdKey c))
def execNetSrqCreate (c : Cmd) (s : State) : Host.Outcome State Fault Refusal := effNetSrqCreate c (s.reach (cmdKey c))
def execNetSrqDestroy (c : Cmd) (s : State) : Host.Outcome State Fault Refusal := effNetSrqDestroy c (s.reach (cmdKey c))
def execNetCqCreate (c : Cmd) (s : State) : Host.Outcome State Fault Refusal := effNetCqCreate c (s.reach (cmdKey c))
def execNetCqDestroy (c : Cmd) (s : State) : Host.Outcome State Fault Refusal := effNetCqDestroy c (s.reach (cmdKey c))
def execNetSend (c : Cmd) (s : State) : Host.Outcome State Fault Refusal := effNetSend c (s.reach (cmdKey c))
def execNetEwrPost (c : Cmd) (s : State) : Host.Outcome State Fault Refusal := effNetEwrPost c (s.reach (cmdKey c))
def execNetEwrWithdraw (c : Cmd) (s : State) : Host.Outcome State Fault Refusal := effNetEwrWithdraw c (s.reach (cmdKey c))
def execNetGidSet (c : Cmd) (s : State) : Host.Outcome State Fault Refusal := effNetGidSet c (s.reach (cmdKey c))
def execNetCtxArea (c : Cmd) (s : State) : Host.Outcome State Fault Refusal := effNetCtxArea c (s.reach (cmdKey c))
def execNetPortQuery (c : Cmd) (s : State) : Host.Outcome State Fault Refusal := effNetPortQuery c (s.reach (cmdKey c))
def execShaperRefill (s : State) : Host.Outcome State Fault Refusal := effShaperRefill (s.reach (evKey 8 0 (source 10 0)))
def execCreditModeRecoverEnd (node : Nat) (s : State) : Host.Outcome State Fault Refusal :=
  effCreditModeRecoverEnd node (s.reach (evKey 8 0 (source 10 0)))
def execPanIndexCreate (c : Cmd) (s : State) : Host.Outcome State Fault Refusal := effPanIndexCreate c (s.reach (cmdKey c))
def execPanIndexDestroy (c : Cmd) (s : State) : Host.Outcome State Fault Refusal := effPanIndexDestroy c (s.reach (cmdKey c))
def execPanInsert (c : Cmd) (s : State) : Host.Outcome State Fault Refusal := effPanInsert c (s.reach (cmdKey c))
def execPanDelete (c : Cmd) (s : State) : Host.Outcome State Fault Refusal := effPanDelete c (s.reach (cmdKey c))
def execPanQuery (c : Cmd) (s : State) : Host.Outcome State Fault Refusal := effPanQuery c (s.reach (cmdKey c))
def execPanCompact (c : Cmd) (s : State) : Host.Outcome State Fault Refusal := effPanCompact c (s.reach (cmdKey c))
def execCompactResume (index : Nat) (s : State) : Host.Outcome State Fault Refusal := effCompactResume index s.follow
def execPanIndexQuery (c : Cmd) (s : State) : Host.Outcome State Fault Refusal := effPanIndexQuery c (s.reach (cmdKey c))
def execPanGroupSet (c : Cmd) (s : State) : Host.Outcome State Fault Refusal := effPanGroupSet c (s.reach (cmdKey c))
def execPanShardQuery (c : Cmd) (s : State) : Host.Outcome State Fault Refusal := effPanShardQuery c (s.reach (cmdKey c))
def execPanListen (c : Cmd) (s : State) : Host.Outcome State Fault Refusal := effPanListen c (s.reach (cmdKey c))
def execQueryAdmit (die : Nat) (s : State) : Host.Outcome State Fault Refusal := effQueryAdmit die s.follow
def execQueryMessageArrival (qpn : Nat) (srq : Nat) (msg : List Byte) (s : State) : Host.Outcome State Fault Refusal :=
  effQueryMessageArrival qpn srq msg s.follow
def execPartialListArrival (tag : Nat) (entry : Nat) (msg : List Byte) (s : State) : Host.Outcome State Fault Refusal :=
  effPartialListArrival tag entry msg s.follow
def execShardTimeout (tag : Nat) (s : State) : Host.Outcome State Fault Refusal := effShardTimeout tag (s.reach (evKey 8 0 (source 11 0)))
def execCkpJobDefine (c : Cmd) (s : State) : Host.Outcome State Fault Refusal := effCkpJobDefine c (s.reach (cmdKey c))
def execCkpJobDrop (c : Cmd) (s : State) : Host.Outcome State Fault Refusal := effCkpJobDrop c (s.reach (cmdKey c))
def execCkpNotice (c : Cmd) (s : State) : Host.Outcome State Fault Refusal := effCkpNotice c (s.reach (cmdKey c))
def execCkpQuery (c : Cmd) (s : State) : Host.Outcome State Fault Refusal := effCkpQuery c (s.reach (cmdKey c))
def execCkpRestore (c : Cmd) (s : State) : Host.Outcome State Fault Refusal := effCkpRestore c (s.reach (cmdKey c))
def execCkpShrink (c : Cmd) (s : State) : Host.Outcome State Fault Refusal := effCkpShrink c (s.reach (cmdKey c))
def execNetworkNotice (job : Nat) (msg : List Byte) (s : State) : Host.Outcome State Fault Refusal := effNetworkNotice job msg s.follow
def execStalledWrite (addr : Nat) (bytes : List Byte) (s : State) : Host.Outcome State Fault Refusal := effStalledWrite addr bytes s
def execShardComplete (job : Nat) (shard : Nat) (s : State) : Host.Outcome State Fault Refusal :=
  effShardComplete job shard (s.reach (evKey 5 0 (source 12 0)))
def execShardWriteConfirmed (job : Nat) (shard : Nat) (ok : Bool) (s : State) : Host.Outcome State Fault Refusal :=
  effShardWriteConfirmed job shard ok (s.reach (evKey 5 0 (source 12 0)))
def execAnnouncementArrival (job : Nat) (rank : Nat) (group : Nat) (index : Nat) (digest : BitVec 512) (s : State) : Host.Outcome State Fault Refusal :=
  effAnnouncementArrival job rank group index digest s.follow
def execVerdictArrival (job : Nat) (group : Nat) (index : Nat) (skip : Option Nat) (s : State) : Host.Outcome State Fault Refusal :=
  effVerdictArrival job group index skip s.follow
def execEndMarkerArrival (job : Nat) (rank : Nat) (s : State) : Host.Outcome State Fault Refusal := effEndMarkerArrival job rank s.follow
def execDedupTimeout (job : Nat) (s : State) : Host.Outcome State Fault Refusal := effDedupTimeout job (s.reach (evKey 8 0 (source 12 0)))
def execVerdictTimeout (job : Nat) (shard : Nat) (s : State) : Host.Outcome State Fault Refusal :=
  effVerdictTimeout job shard (s.reach (evKey 8 0 (source 12 0)))
def execManifestReportArrival (job : Nat) (rank : Nat) (loc : Nat) (len : Nat) (digest : BitVec 512) (s : State) : Host.Outcome State Fault Refusal :=
  effManifestReportArrival job rank loc len digest s.follow
def execCommitRecordConfirmed (job : Nat) (s : State) : Host.Outcome State Fault Refusal :=
  effCommitRecordConfirmed job (s.reach (evKey 5 0 (source 12 0)))
def execCommitMessageArrival (job : Nat) (s : State) : Host.Outcome State Fault Refusal := effCommitMessageArrival job s.follow
def execCommitTimeout (job : Nat) (s : State) : Host.Outcome State Fault Refusal := effCommitTimeout job (s.reach (evKey 8 0 (source 12 0)))
def execSecSetJoin (c : Cmd) (s : State) : Host.Outcome State Fault Refusal := effSecSetJoin c (s.reach (cmdKey c))
def execSecSetLeave (c : Cmd) (s : State) : Host.Outcome State Fault Refusal := effSecSetLeave c (s.reach (evKey 4 0 0))
def execSecWeightsOpen (c : Cmd) (s : State) : Host.Outcome State Fault Refusal := effSecWeightsOpen c (s.reach (cmdKey c))
def execSecConnKeyLoad (c : Cmd) (s : State) : Host.Outcome State Fault Refusal := effSecConnKeyLoad c (s.reach (cmdKey c))
def execSecConnKeyDestroy (c : Cmd) (s : State) : Host.Outcome State Fault Refusal := effSecConnKeyDestroy c (s.reach (evKey 4 0 0))
def execSecIdentityRead (c : Cmd) (s : State) : Host.Outcome State Fault Refusal := effSecIdentityRead c (s.reach (cmdKey c))
def execSecQuery (c : Cmd) (s : State) : Host.Outcome State Fault Refusal := effSecQuery c (s.reach (cmdKey c))
def execSecDebugChallenge (c : Cmd) (s : State) : Host.Outcome State Fault Refusal := effSecDebugChallenge c (s.reach (cmdKey c))
def execSecDebugUnlock (c : Cmd) (s : State) : Host.Outcome State Fault Refusal := effSecDebugUnlock c (s.reach (cmdKey c))
def execSecRma (c : Cmd) (s : State) : Host.Outcome State Fault Refusal := effSecRma c (s.reach (cmdKey c))
def execSecPartErase (c : Cmd) (s : State) : Host.Outcome State Fault Refusal := effSecPartErase c (s.reach (evKey 4 0 0))
def execSpdmRequest (at_ : SpdmPort) (r : SpdmReq) (s : State) : Host.Outcome State Fault Refusal := effSpdmRequest at_ r (s.reach (spdmKey at_))
def execSignatureDone (s : State) : Host.Outcome State Fault Refusal := effSignatureDone (s.reach (evKey 5 0 (source 13 0)))
def execThrottleLevel (s : State) : Host.Outcome State Fault Refusal := effThrottleLevel s
def execMeterStart (imageOk : Bool) (digest : BitVec 512) (swId : Word) (flashSeal : Nat) (s : State) : Host.Outcome State Fault Refusal :=
  effMeterStart imageOk digest swId flashSeal s
def execMeterAdcSample (mv : Nat) (ua : Nat) (clipped : Bool) (s : State) : Host.Outcome State Fault Refusal :=
  effMeterAdcSample mv ua clipped (s.reach (evKey 9 0 0))
def execMeterRecordEnd (s : State) : Host.Outcome State Fault Refusal := effMeterRecordEnd (s.reach (evKey 9 0 0))
def execMeterRecordPublish (s : State) : Host.Outcome State Fault Refusal := effMeterRecordPublish s
def execSwIdRecheck (swId : Word) (s : State) : Host.Outcome State Fault Refusal := effSwIdRecheck swId s
def execCoeffPackageStaged (s : State) : Host.Outcome State Fault Refusal := effCoeffPackageStaged (s.reach internalKey)
def execMeterCoeffSwap (s : State) : Host.Outcome State Fault Refusal := effMeterCoeffSwap (s.reach (evKey 3 0 (source 14 0)))
def execMtrRecordRead (c : Cmd) (s : State) : Host.Outcome State Fault Refusal := effMtrRecordRead c (s.reach (cmdKey c))
def execMtrIdentify (c : Cmd) (s : State) : Host.Outcome State Fault Refusal := effMtrIdentify c (s.reach (cmdKey c))
def execMtrCertRead (c : Cmd) (s : State) : Host.Outcome State Fault Refusal := effMtrCertRead c (s.reach (cmdKey c))
def execMtrCoeffRead (c : Cmd) (s : State) : Host.Outcome State Fault Refusal := effMtrCoeffRead c (s.reach (cmdKey c))
def execGetMeterRecord (bus : Nat) (seq : Nat) (s : State) : Host.Outcome State Fault Refusal := effGetMeterRecord bus seq (s.reach internalKey)
def execGetMeterCert (bus : Nat) (s : State) : Host.Outcome State Fault Refusal := effGetMeterCert bus (s.reach internalKey)
def execPldmRequest (bus : Nat) (r : PldmReq) (s : State) : Host.Outcome State Fault Refusal := effPldmRequest bus r (s.reach internalKey)
def execMctpControl (bus : Nat) (r : MctpReq) (s : State) : Host.Outcome State Fault Refusal := effMctpControl bus r (s.reach internalKey)
def execEventRecordDeliver (path : Nat) (s : State) : Host.Outcome State Fault Refusal := effEventRecordDeliver path s
def execFltEqEnable (fn : Fn) (w : Word) (s : State) : Host.Outcome State Fault Refusal := effFltEqEnable fn w (s.reach (pcieKey fn.port))
def execFltEqHeadWrite (fn : Fn) (w : Word) (s : State) : Host.Outcome State Fault Refusal := effFltEqHeadWrite fn w (s.reach (pcieKey fn.port))
def execTickLossHalt (cause : Nat) (s : State) : Host.Outcome State Fault Refusal := effTickLossHalt cause (s.reach (evKey 1 0 0))
def execDevReset (c : Cmd) (s : State) : Host.Outcome State Fault Refusal := effDevReset c (s.reach (cmdKey c))
def execDevResetCtrlWrite (fn : Fn) (w : Word) (s : State) : Host.Outcome State Fault Refusal := effDevResetCtrlWrite fn w (s.reach (pcieKey fn.port))
def execDeviceReset (s : State) : Host.Outcome State Fault Refusal := effDeviceReset (s.reach (evKey 2 0 0))
def execGridReset (s : State) : Host.Outcome State Fault Refusal := effGridReset (s.reach (evKey 2 0 0))
def execGlumeReset (s : State) : Host.Outcome State Fault Refusal := effGlumeReset (s.reach (evKey 2 0 0))
def execDevFwWrite (c : Cmd) (s : State) : Host.Outcome State Fault Refusal := effDevFwWrite c (s.reach (cmdKey c))
def execDevFwActivate (c : Cmd) (s : State) : Host.Outcome State Fault Refusal := effDevFwActivate c (s.reach (cmdKey c))
def execDevFwQuery (c : Cmd) (s : State) : Host.Outcome State Fault Refusal := effDevFwQuery c (s.reach (cmdKey c))
def execDevSvnCommit (c : Cmd) (s : State) : Host.Outcome State Fault Refusal := effDevSvnCommit c (s.reach (cmdKey c))
def execCrcInit (fn : Fn) (s : State) : Host.Outcome State Fault Refusal := effCrcInit fn (s.reach (pcieKey fn.port))
def execCrcClaim (fn : Fn) (s : State) : Host.Outcome State Fault Refusal := effCrcClaim fn (s.reach (pcieKey fn.port))
def execCrcRelease (fn : Fn) (s : State) : Host.Outcome State Fault Refusal := effCrcRelease fn (s.reach (pcieKey fn.port))
def execCrcIn8 (fn : Fn) (w : Word) (s : State) : Host.Outcome State Fault Refusal := effCrcIn8 fn w (s.reach (pcieKey fn.port))
def execCrcIn16 (fn : Fn) (w : Word) (s : State) : Host.Outcome State Fault Refusal := effCrcIn16 fn w (s.reach (pcieKey fn.port))
def execCrcIn32 (fn : Fn) (w : Word) (s : State) : Host.Outcome State Fault Refusal := effCrcIn32 fn w (s.reach (pcieKey fn.port))
def execMeterCrcTake (s : State) : Host.Outcome State Fault Refusal := effMeterCrcTake s
def execMeterCrcRelease (s : State) : Host.Outcome State Fault Refusal := effMeterCrcRelease s
def execCopyRegionDone (job : Nat) (item : Nat) (region : Nat) (s : State) : Host.Outcome State Fault Refusal :=
  effCopyRegionDone job item region (s.reach (evKey 5 0 (source 12 0)))
def execHostMemoryReadCompletion (op : Nat) (st : Completion) (bytes : List Byte) (s : State) : Host.Outcome State Fault Refusal :=
  effHostMemoryReadCompletion op st bytes (s.reach (evKey 5 0 (source 1 0)))
def execKeyEngineDone (op : Nat) (r : KeyResult) (s : State) : Host.Outcome State Fault Refusal := effKeyEngineDone op r (s.reach (evKey 4 0 0))
def execQueryComplete (die : Nat) (q : Nat) (s : State) : Host.Outcome State Fault Refusal :=
  effQueryComplete die q (s.reach (evKey 5 0 (source 11 die)))
def execUpdateComplete (index : Nat) (s : State) : Host.Outcome State Fault Refusal := effUpdateComplete index (s.reach (evKey 5 0 (source 11 0)))
def execControlCoreFault (core : Nat) (s : State) : Host.Outcome State Fault Refusal := effControlCoreFault core (s.reach (evKey 1 0 (source 1 core)))
def execNocLinkFault (unit : Nat) (cores : List Nat) (s : State) : Host.Outcome State Fault Refusal :=
  effNocLinkFault unit cores (s.reach (evKey 1 0 (source 6 unit)))
def execDieTempSensorSample (die : Nat) (t0 : Nat) (t1 : Nat) (s : State) : Host.Outcome State Fault Refusal :=
  effDieTempSensorSample die t0 t1 (s.reach (evKey 9 0 0))
def execInputBelow20V (s : State) : Host.Outcome State Fault Refusal := effInputBelow20V s
def execConfigurationWrite (port : Nat) (w : CfgWrite) (s : State) : Host.Outcome State Fault Refusal :=
  effConfigurationWrite port w (s.reach (pcieKey port))
def execSpdmResponseNotReady (token : Nat) (s : State) : Host.Outcome State Fault Refusal :=
  effSpdmResponseNotReady token (s.reach (evKey 8 0 (source 13 0)))

end Sys2Proof.Machine
end

