-- ==== Sys2Proof/Machine/Dispatch.lean ====
section
/-! DEFINITION. The effect of every command and event: one direct call of its meaning. -/

namespace Sys2Proof.Machine

/-- The effect of one command on everything but the queue. -/
def exec (i : Instr) (s : State) : Host.Outcome State Fault Refusal :=
  match i with
  | .powerGoodRise x1 x2 => Sys2Proof.Machine.execPowerGoodRise x1 x2 s
  | .powerGoodFall => Sys2Proof.Machine.execPowerGoodFall s
  | .pwrEnChange x1 => Sys2Proof.Machine.execPwrEnChange x1 s
  | .inputVoltageShutdown x1 => Sys2Proof.Machine.execInputVoltageShutdown x1 s
  | .breakerTrip x1 x2 => Sys2Proof.Machine.execBreakerTrip x1 x2 s
  | .ptcEvaluate x1 x2 x3 x4 x5 => Sys2Proof.Machine.execPtcEvaluate x1 x2 x3 x4 x5 s
  | .emergencyDetect x1 => Sys2Proof.Machine.execEmergencyDetect x1 s
  | .emergencyClear => Sys2Proof.Machine.execEmergencyClear s
  | .shutdown x1 => Sys2Proof.Machine.execShutdown x1 s
  | .coolantSample x1 x2 x3 x4 => Sys2Proof.Machine.execCoolantSample x1 x2 x3 x4 s
  | .sensorUpdate x1 x2 => Sys2Proof.Machine.execSensorUpdate x1 x2 s
  | .devPwrCapWrite x1 x2 => Sys2Proof.Machine.execDevPwrCapWrite x1 x2 s
  | .startupStageEnd x1 => Sys2Proof.Machine.execStartupStageEnd x1 s
  | .pcieLinkTrainingStart x1 => Sys2Proof.Machine.execPcieLinkTrainingStart x1 s
  | .portReset x1 x2 => Sys2Proof.Machine.execPortReset x1 x2 s
  | .functionLevelReset x1 => Sys2Proof.Machine.execFunctionLevelReset x1 s
  | .pcieDlInactive x1 => Sys2Proof.Machine.execPcieDlInactive x1 s
  | .linkDownTimeout x1 => Sys2Proof.Machine.execLinkDownTimeout x1 s
  | .pcieDlActive x1 => Sys2Proof.Machine.execPcieDlActive x1 s
  | .heartbeat x1 x2 => Sys2Proof.Machine.execHeartbeat x1 x2 s
  | .hbCfgWrite x1 x2 => Sys2Proof.Machine.execHbCfgWrite x1 x2 s
  | .heartbeatTimeout x1 => Sys2Proof.Machine.execHeartbeatTimeout x1 s
  | .doorbell x1 x2 x3 => Sys2Proof.Machine.execDoorbell x1 x2 x3 s
  | .sqEnable x1 x2 x3 => Sys2Proof.Machine.execSqEnable x1 x2 x3 s
  | .rqEnable x1 x2 x3 => Sys2Proof.Machine.execRqEnable x1 x2 x3 s
  | .rqHeadWrite x1 x2 x3 => Sys2Proof.Machine.execRqHeadWrite x1 x2 x3 s
  | .commandFetch x1 x2 x3 x4 => Sys2Proof.Machine.execCommandFetch x1 x2 x3 x4 s
  | .fetchResume x1 x2 => Sys2Proof.Machine.execFetchResume x1 x2 s
  | .fencedCommandStart x1 => Sys2Proof.Machine.execFencedCommandStart x1 s
  | .descriptorWaitResume => Sys2Proof.Machine.execDescriptorWaitResume s
  | .replyCoalesceTimeout x1 x2 => Sys2Proof.Machine.execReplyCoalesceTimeout x1 x2 s
  | .devNop x1 => Sys2Proof.Machine.execDevNop x1 s
  | .devIdentify x1 => Sys2Proof.Machine.execDevIdentify x1 s
  | .devAbort x1 => Sys2Proof.Machine.execDevAbort x1 s
  | .devSetCtrlHost x1 => Sys2Proof.Machine.execDevSetCtrlHost x1 s
  | .devPartBind x1 => Sys2Proof.Machine.execDevPartBind x1 s
  | .devPartRelease x1 => Sys2Proof.Machine.execDevPartRelease x1 s
  | .devAdopt x1 => Sys2Proof.Machine.execDevAdopt x1 s
  | .devHostStatus x1 => Sys2Proof.Machine.execDevHostStatus x1 s
  | .cfgCommit x1 => Sys2Proof.Machine.execCfgCommit x1 s
  | .cfgCancel x1 => Sys2Proof.Machine.execCfgCancel x1 s
  | .cfgCopy x1 => Sys2Proof.Machine.execCfgCopy x1 s
  | .cfgCommitCtrlGo x1 x2 => Sys2Proof.Machine.execCfgCommitCtrlGo x1 x2 s
  | .cfgCommitCtrlCancel x1 x2 => Sys2Proof.Machine.execCfgCommitCtrlCancel x1 x2 s
  | .cfgCommitCtrlCopy x1 x2 => Sys2Proof.Machine.execCfgCommitCtrlCopy x1 x2 s
  | .commitSwap x1 => Sys2Proof.Machine.execCommitSwap x1 s
  | .speedMeasure x1 x2 => Sys2Proof.Machine.execSpeedMeasure x1 x2 s
  | .timerFire x1 x2 => Sys2Proof.Machine.execTimerFire x1 x2 s
  | .timeNowLoRead x1 => Sys2Proof.Machine.execTimeNowLoRead x1 s
  | .readClearCounter x1 x2 => Sys2Proof.Machine.execReadClearCounter x1 x2 s
  | .registerWrite x1 x2 x3 x4 => Sys2Proof.Machine.execRegisterWrite x1 x2 x3 x4 s
  | .sesOpen x1 => Sys2Proof.Machine.execSesOpen x1 s
  | .sesPark x1 => Sys2Proof.Machine.execSesPark x1 s
  | .sesRevive x1 => Sys2Proof.Machine.execSesRevive x1 s
  | .sesClose x1 => Sys2Proof.Machine.execSesClose x1 s
  | .sesMove x1 => Sys2Proof.Machine.execSesMove x1 s
  | .sesQuery x1 => Sys2Proof.Machine.execSesQuery x1 s
  | .sesMoveIn x1 => Sys2Proof.Machine.execSesMoveIn x1 s
  | .sesAwait x1 => Sys2Proof.Machine.execSesAwait x1 s
  | .sesSignal x1 => Sys2Proof.Machine.execSesSignal x1 s
  | .slotFire x1 x2 x3 => Sys2Proof.Machine.execSlotFire x1 x2 x3 s
  | .timerSlotFire x1 x2 => Sys2Proof.Machine.execTimerSlotFire x1 x2 s
  | .waitExpiry x1 => Sys2Proof.Machine.execWaitExpiry x1 s
  | .parkAfterExpiry x1 => Sys2Proof.Machine.execParkAfterExpiry x1 s
  | .stagingHighPark x1 => Sys2Proof.Machine.execStagingHighPark x1 s
  | .parkWriteConfirmed x1 => Sys2Proof.Machine.execParkWriteConfirmed x1 s
  | .stagingEntryFreeRevive x1 => Sys2Proof.Machine.execStagingEntryFreeRevive x1 s
  | .reviveDecodeEnd x1 => Sys2Proof.Machine.execReviveDecodeEnd x1 s
  | .closeReleaseDone x1 => Sys2Proof.Machine.execCloseReleaseDone x1 s
  | .moveRecordArrival x1 x2 => Sys2Proof.Machine.execMoveRecordArrival x1 x2 s
  | .moveConfirmationArrival x1 x2 => Sys2Proof.Machine.execMoveConfirmationArrival x1 x2 s
  | .moveConfirmSendComplete x1 x2 => Sys2Proof.Machine.execMoveConfirmSendComplete x1 x2 s
  | .moveAbortArrival x1 x2 => Sys2Proof.Machine.execMoveAbortArrival x1 x2 s
  | .moveInTimeout x1 => Sys2Proof.Machine.execMoveInTimeout x1 s
  | .moveConfirmTimeout x1 => Sys2Proof.Machine.execMoveConfirmTimeout x1 s
  | .memBufMap x1 => Sys2Proof.Machine.execMemBufMap x1 s
  | .memBufUnmap x1 => Sys2Proof.Machine.execMemBufUnmap x1 s
  | .bufUnmapResume x1 => Sys2Proof.Machine.execBufUnmapResume x1 s
  | .memMove x1 => Sys2Proof.Machine.execMemMove x1 s
  | .memXfer x1 => Sys2Proof.Machine.execMemXfer x1 s
  | .memFreeze x1 => Sys2Proof.Machine.execMemFreeze x1 s
  | .memShareDrop x1 => Sys2Proof.Machine.execMemShareDrop x1 s
  | .memWhere x1 => Sys2Proof.Machine.execMemWhere x1 s
  | .memStore x1 => Sys2Proof.Machine.execMemStore x1 s
  | .memLoad x1 => Sys2Proof.Machine.execMemLoad x1 s
  | .memNandFree x1 => Sys2Proof.Machine.execMemNandFree x1 s
  | .memKeyRotate x1 => Sys2Proof.Machine.execMemKeyRotate x1 s
  | .memKeyRetire x1 => Sys2Proof.Machine.execMemKeyRetire x1 s
  | .memKeyStatus x1 => Sys2Proof.Machine.execMemKeyStatus x1 s
  | .granuleCopyStart x1 => Sys2Proof.Machine.execGranuleCopyStart x1 s
  | .granuleSwitch x1 x2 => Sys2Proof.Machine.execGranuleSwitch x1 x2 s
  | .prefetchEntryStart x1 => Sys2Proof.Machine.execPrefetchEntryStart x1 s
  | .prefetchEntryComplete x1 x2 => Sys2Proof.Machine.execPrefetchEntryComplete x1 x2 s
  | .ftlWriteConfirm x1 x2 => Sys2Proof.Machine.execFtlWriteConfirm x1 x2 s
  | .nandReadComplete x1 x2 => Sys2Proof.Machine.execNandReadComplete x1 x2 s
  | .nandDieFailure x1 => Sys2Proof.Machine.execNandDieFailure x1 s
  | .dieRebuildComplete x1 => Sys2Proof.Machine.execDieRebuildComplete x1 s
  | .garbageCollect x1 => Sys2Proof.Machine.execGarbageCollect x1 s
  | .readDisturbRelocate x1 x2 => Sys2Proof.Machine.execReadDisturbRelocate x1 x2 s
  | .wearLevelMove x1 => Sys2Proof.Machine.execWearLevelMove x1 s
  | .sweepUnitSwitch x1 x2 => Sys2Proof.Machine.execSweepUnitSwitch x1 x2 s
  | .glmRegionMode x1 => Sys2Proof.Machine.execGlmRegionMode x1 s
  | .regionSwitch x1 x2 => Sys2Proof.Machine.execRegionSwitch x1 x2 s
  | .glmProgLoad x1 => Sys2Proof.Machine.execGlmProgLoad x1 s
  | .glmCurveLoad x1 => Sys2Proof.Machine.execGlmCurveLoad x1 s
  | .glmSubmit x1 => Sys2Proof.Machine.execGlmSubmit x1 s
  | .glmStatus x1 => Sys2Proof.Machine.execGlmStatus x1 s
  | .glmRegionQuery x1 => Sys2Proof.Machine.execGlmRegionQuery x1 s
  | .glumeStart x1 x2 x3 x4 => Sys2Proof.Machine.execGlumeStart x1 x2 x3 x4 s
  | .glumeStop x1 x2 x3 x4 => Sys2Proof.Machine.execGlumeStop x1 x2 x3 x4 s
  | .glumeClear x1 x2 x3 x4 => Sys2Proof.Machine.execGlumeClear x1 x2 x3 x4 s
  | .glAliasStatusRead x1 x2 x3 x4 => Sys2Proof.Machine.execGlAliasStatusRead x1 x2 x3 x4 s
  | .glAliasResultRead x1 x2 x3 x4 => Sys2Proof.Machine.execGlAliasResultRead x1 x2 x3 x4 s
  | .programStart x1 => Sys2Proof.Machine.execProgramStart x1 s
  | .glmAlu x1 x2 x3 x4 x5 => Sys2Proof.Machine.execGlmAlu x1 x2 x3 x4 x5 s
  | .glmMul x1 x2 x3 x4 x5 => Sys2Proof.Machine.execGlmMul x1 x2 x3 x4 x5 s
  | .glmLi x1 x2 x3 => Sys2Proof.Machine.execGlmLi x1 x2 x3 s
  | .glmBranch x1 x2 x3 x4 x5 => Sys2Proof.Machine.execGlmBranch x1 x2 x3 x4 x5 s
  | .glmLdSt x1 x2 x3 x4 x5 x6 => Sys2Proof.Machine.execGlmLdSt x1 x2 x3 x4 x5 x6 s
  | .brd x1 x2 x3 x4 x5 x6 => Sys2Proof.Machine.execBrd x1 x2 x3 x4 x5 x6 s
  | .bwr x1 x2 x3 x4 x5 x6 => Sys2Proof.Machine.execBwr x1 x2 x3 x4 x5 x6 s
  | .bwait x1 => Sys2Proof.Machine.execBwait x1 s
  | .pgnext x1 x2 x3 x4 => Sys2Proof.Machine.execPgnext x1 x2 x3 x4 s
  | .glmVldVst x1 x2 x3 x4 x5 => Sys2Proof.Machine.execGlmVldVst x1 x2 x3 x4 x5 s
  | .glmVcvt x1 x2 x3 x4 x5 => Sys2Proof.Machine.execGlmVcvt x1 x2 x3 x4 x5 s
  | .glmVectorArith x1 x2 x3 x4 x5 => Sys2Proof.Machine.execGlmVectorArith x1 x2 x3 x4 x5 s
  | .glmVexp2 x1 x2 x3 => Sys2Proof.Machine.execGlmVexp2 x1 x2 x3 s
  | .glmVreduce x1 x2 x3 x4 => Sys2Proof.Machine.execGlmVreduce x1 x2 x3 x4 s
  | .res x1 x2 x3 => Sys2Proof.Machine.execRes x1 x2 x3 s
  | .yield x1 => Sys2Proof.Machine.execYield x1 s
  | .glmEnd x1 => Sys2Proof.Machine.execGlmEnd x1 s
  | .serviceWindowEnd x1 => Sys2Proof.Machine.execServiceWindowEnd x1 s
  | .yieldOverrun x1 => Sys2Proof.Machine.execYieldOverrun x1 s
  | .budgetExpiry x1 => Sys2Proof.Machine.execBudgetExpiry x1 s
  | .ordinaryRead x1 x2 x3 x4 x5 => Sys2Proof.Machine.execOrdinaryRead x1 x2 x3 x4 x5 s
  | .ordinaryWrite x1 x2 x3 x4 => Sys2Proof.Machine.execOrdinaryWrite x1 x2 x3 x4 s
  | .heldReadTimeout x1 => Sys2Proof.Machine.execHeldReadTimeout x1 s
  | .glAliasPathAccess x1 x2 x3 x4 x5 x6 => Sys2Proof.Machine.execGlAliasPathAccess x1 x2 x3 x4 x5 x6 s
  | .bar2Read x1 x2 x3 x4 => Sys2Proof.Machine.execBar2Read x1 x2 x3 x4 s
  | .bar2Write x1 x2 x3 => Sys2Proof.Machine.execBar2Write x1 x2 x3 s
  | .stackTempSample x1 x2 x3 => Sys2Proof.Machine.execStackTempSample x1 x2 x3 s
  | .targetedRefresh x1 x2 x3 => Sys2Proof.Machine.execTargetedRefresh x1 x2 x3 s
  | .refreshWindowEnd x1 => Sys2Proof.Machine.execRefreshWindowEnd x1 s
  | .scrubRead x1 x2 => Sys2Proof.Machine.execScrubRead x1 x2 s
  | .sramScrub x1 x2 x3 x4 => Sys2Proof.Machine.execSramScrub x1 x2 x3 x4 s
  | .nandReadScan x1 x2 => Sys2Proof.Machine.execNandReadScan x1 x2 s
  | .ceRate x1 => Sys2Proof.Machine.execCeRate x1 s
  | .mdlRegister x1 => Sys2Proof.Machine.execMdlRegister x1 s
  | .mdlLoad x1 => Sys2Proof.Machine.execMdlLoad x1 s
  | .mdlEvict x1 => Sys2Proof.Machine.execMdlEvict x1 s
  | .mdlPin x1 => Sys2Proof.Machine.execMdlPin x1 s
  | .mdlCheck x1 => Sys2Proof.Machine.execMdlCheck x1 s
  | .mdlQuery x1 => Sys2Proof.Machine.execMdlQuery x1 s
  | .mdlUnregister x1 => Sys2Proof.Machine.execMdlUnregister x1 s
  | .loadComplete x1 => Sys2Proof.Machine.execLoadComplete x1 s
  | .coreScalarAlu x1 x2 x3 x4 x5 => Sys2Proof.Machine.execCoreScalarAlu x1 x2 x3 x4 x5 s
  | .coreLdSt x1 x2 x3 x4 x5 x6 => Sys2Proof.Machine.execCoreLdSt x1 x2 x3 x4 x5 x6 s
  | .coreBranch x1 x2 => Sys2Proof.Machine.execCoreBranch x1 x2 s
  | .coreLoop x1 x2 x3 => Sys2Proof.Machine.execCoreLoop x1 x2 x3 s
  | .wload x1 x2 x3 => Sys2Proof.Machine.execWload x1 x2 x3 s
  | .mmul x1 x2 x3 x4 x5 x6 x7 x8 x9 => Sys2Proof.Machine.execMmul x1 x2 x3 x4 x5 x6 x7 x8 x9 s
  | .accout x1 x2 x3 x4 x5 x6 x7 => Sys2Proof.Machine.execAccout x1 x2 x3 x4 x5 x6 x7 s
  | .accz x1 x2 => Sys2Proof.Machine.execAccz x1 x2 s
  | .coreVldVst x1 x2 x3 x4 x5 => Sys2Proof.Machine.execCoreVldVst x1 x2 x3 x4 x5 s
  | .coreVectorArith x1 x2 x3 x4 x5 => Sys2Proof.Machine.execCoreVectorArith x1 x2 x3 x4 x5 s
  | .vred x1 x2 x3 x4 => Sys2Proof.Machine.execVred x1 x2 x3 x4 s
  | .vquant x1 x2 x3 x4 x5 x6 x7 x8 => Sys2Proof.Machine.execVquant x1 x2 x3 x4 x5 x6 x7 x8 s
  | .coreVcvt x1 x2 x3 x4 x5 => Sys2Proof.Machine.execCoreVcvt x1 x2 x3 x4 x5 s
  | .coreSend x1 x2 x3 x4 x5 => Sys2Proof.Machine.execCoreSend x1 x2 x3 x4 x5 s
  | .messageDelivery x1 x2 x3 => Sys2Proof.Machine.execMessageDelivery x1 x2 x3 s
  | .recv x1 x2 x3 x4 => Sys2Proof.Machine.execRecv x1 x2 x3 x4 s
  | .mfree x1 x2 => Sys2Proof.Machine.execMfree x1 x2 s
  | .poll x1 x2 x3 x4 => Sys2Proof.Machine.execPoll x1 x2 x3 x4 s
  | .waitfull x1 x2 => Sys2Proof.Machine.execWaitfull x1 x2 s
  | .brelease x1 x2 => Sys2Proof.Machine.execBrelease x1 x2 s
  | .xfer x1 x2 x3 x4 => Sys2Proof.Machine.execXfer x1 x2 x3 x4 s
  | .xferComplete x1 => Sys2Proof.Machine.execXferComplete x1 s
  | .stepwait x1 x2 => Sys2Proof.Machine.execStepwait x1 x2 s
  | .stepdone x1 x2 => Sys2Proof.Machine.execStepdone x1 x2 s
  | .coreFence x1 => Sys2Proof.Machine.execCoreFence x1 s
  | .halt x1 => Sys2Proof.Machine.execHalt x1 s
  | .hangTimeout x1 => Sys2Proof.Machine.execHangTimeout x1 s
  | .fanOut x1 x2 => Sys2Proof.Machine.execFanOut x1 x2 s
  | .fanOutMemberDone x1 => Sys2Proof.Machine.execFanOutMemberDone x1 s
  | .pfxFromSession x1 => Sys2Proof.Machine.execPfxFromSession x1 s
  | .pfxCreate x1 => Sys2Proof.Machine.execPfxCreate x1 s
  | .pfxQuery x1 => Sys2Proof.Machine.execPfxQuery x1 s
  | .adpCreate x1 => Sys2Proof.Machine.execAdpCreate x1 s
  | .adpReplace x1 => Sys2Proof.Machine.execAdpReplace x1 s
  | .adpQuery x1 => Sys2Proof.Machine.execAdpQuery x1 s
  | .adpRetire x1 => Sys2Proof.Machine.execAdpRetire x1 s
  | .trnStart x1 => Sys2Proof.Machine.execTrnStart x1 s
  | .trnStop x1 => Sys2Proof.Machine.execTrnStop x1 s
  | .trnQuery x1 => Sys2Proof.Machine.execTrnQuery x1 s
  | .trainingStepStart x1 => Sys2Proof.Machine.execTrainingStepStart x1 s
  | .trainingStepBoundary x1 => Sys2Proof.Machine.execTrainingStepBoundary x1 s
  | .spillMoveStart x1 => Sys2Proof.Machine.execSpillMoveStart x1 s
  | .spillSwitch x1 => Sys2Proof.Machine.execSpillSwitch x1 s
  | .fetchBackSwitch x1 => Sys2Proof.Machine.execFetchBackSwitch x1 s
  | .fetchBackPagePlace x1 => Sys2Proof.Machine.execFetchBackPagePlace x1 s
  | .batchStepEnd x1 x2 => Sys2Proof.Machine.execBatchStepEnd x1 x2 s
  | .batchStepStart x1 => Sys2Proof.Machine.execBatchStepStart x1 s
  | .monitorPass => Sys2Proof.Machine.execMonitorPass s
  | .deadlineExpiry x1 => Sys2Proof.Machine.execDeadlineExpiry x1 s
  | .energySplit x1 => Sys2Proof.Machine.execEnergySplit x1 s
  | .reqTemplate x1 => Sys2Proof.Machine.execReqTemplate x1 s
  | .reqSubmit x1 => Sys2Proof.Machine.execReqSubmit x1 s
  | .reqCancel x1 => Sys2Proof.Machine.execReqCancel x1 s
  | .reqQuery x1 => Sys2Proof.Machine.execReqQuery x1 s
  | .schModelCfg x1 => Sys2Proof.Machine.execSchModelCfg x1 s
  | .schAcctRead x1 => Sys2Proof.Machine.execSchAcctRead x1 s
  | .speltIntake x1 => Sys2Proof.Machine.execSpeltIntake x1 s
  | .speltRequestEnd x1 x2 => Sys2Proof.Machine.execSpeltRequestEnd x1 x2 s
  | .txtTableLoad x1 => Sys2Proof.Machine.execTxtTableLoad x1 s
  | .txtModelTok x1 => Sys2Proof.Machine.execTxtModelTok x1 s
  | .txtGrammarSet x1 => Sys2Proof.Machine.execTxtGrammarSet x1 s
  | .txtQuery x1 => Sys2Proof.Machine.execTxtQuery x1 s
  | .txtTokenize x1 => Sys2Proof.Machine.execTxtTokenize x1 s
  | .txtDetokenize x1 => Sys2Proof.Machine.execTxtDetokenize x1 s
  | .frameReceive x1 => Sys2Proof.Machine.execFrameReceive x1 s
  | .pfcFrame x1 x2 x3 => Sys2Proof.Machine.execPfcFrame x1 x2 x3 s
  | .arpRequest x1 x2 => Sys2Proof.Machine.execArpRequest x1 x2 s
  | .packetArrivalExt x1 => Sys2Proof.Machine.execPacketArrivalExt x1 s
  | .packetArrivalRc x1 => Sys2Proof.Machine.execPacketArrivalRc x1 s
  | .readRequest x1 => Sys2Proof.Machine.execReadRequest x1 s
  | .messageComplete x1 x2 => Sys2Proof.Machine.execMessageComplete x1 x2 s
  | .ackArrival x1 => Sys2Proof.Machine.execAckArrival x1 s
  | .ackTimeout x1 x2 => Sys2Proof.Machine.execAckTimeout x1 x2 s
  | .rnrTimerExpiry x1 x2 => Sys2Proof.Machine.execRnrTimerExpiry x1 x2 s
  | .cnpArrival x1 => Sys2Proof.Machine.execCnpArrival x1 s
  | .reassemblyTimeout x1 x2 => Sys2Proof.Machine.execReassemblyTimeout x1 x2 s
  | .contextFetchComplete x1 => Sys2Proof.Machine.execContextFetchComplete x1 s
  | .contextFetchExpiry x1 => Sys2Proof.Machine.execContextFetchExpiry x1 s
  | .ethLinkChange x1 x2 => Sys2Proof.Machine.execEthLinkChange x1 x2 s
  | .waitEnRelease x1 => Sys2Proof.Machine.execWaitEnRelease x1 s
  | .shapedUnitStart x1 x2 x3 x4 => Sys2Proof.Machine.execShapedUnitStart x1 x2 x3 x4 s
  | .netQpCreate x1 => Sys2Proof.Machine.execNetQpCreate x1 s
  | .netQpConnect x1 => Sys2Proof.Machine.execNetQpConnect x1 s
  | .netQpDestroy x1 => Sys2Proof.Machine.execNetQpDestroy x1 s
  | .netQpQuery x1 => Sys2Proof.Machine.execNetQpQuery x1 s
  | .netSrqCreate x1 => Sys2Proof.Machine.execNetSrqCreate x1 s
  | .netSrqDestroy x1 => Sys2Proof.Machine.execNetSrqDestroy x1 s
  | .netCqCreate x1 => Sys2Proof.Machine.execNetCqCreate x1 s
  | .netCqDestroy x1 => Sys2Proof.Machine.execNetCqDestroy x1 s
  | .netSend x1 => Sys2Proof.Machine.execNetSend x1 s
  | .netEwrPost x1 => Sys2Proof.Machine.execNetEwrPost x1 s
  | .netEwrWithdraw x1 => Sys2Proof.Machine.execNetEwrWithdraw x1 s
  | .netGidSet x1 => Sys2Proof.Machine.execNetGidSet x1 s
  | .netCtxArea x1 => Sys2Proof.Machine.execNetCtxArea x1 s
  | .netPortQuery x1 => Sys2Proof.Machine.execNetPortQuery x1 s
  | .shaperRefill => Sys2Proof.Machine.execShaperRefill s
  | .creditModeRecoverEnd x1 => Sys2Proof.Machine.execCreditModeRecoverEnd x1 s
  | .panIndexCreate x1 => Sys2Proof.Machine.execPanIndexCreate x1 s
  | .panIndexDestroy x1 => Sys2Proof.Machine.execPanIndexDestroy x1 s
  | .panInsert x1 => Sys2Proof.Machine.execPanInsert x1 s
  | .panDelete x1 => Sys2Proof.Machine.execPanDelete x1 s
  | .panQuery x1 => Sys2Proof.Machine.execPanQuery x1 s
  | .panCompact x1 => Sys2Proof.Machine.execPanCompact x1 s
  | .compactResume x1 => Sys2Proof.Machine.execCompactResume x1 s
  | .panIndexQuery x1 => Sys2Proof.Machine.execPanIndexQuery x1 s
  | .panGroupSet x1 => Sys2Proof.Machine.execPanGroupSet x1 s
  | .panShardQuery x1 => Sys2Proof.Machine.execPanShardQuery x1 s
  | .panListen x1 => Sys2Proof.Machine.execPanListen x1 s
  | .queryAdmit x1 => Sys2Proof.Machine.execQueryAdmit x1 s
  | .queryMessageArrival x1 x2 x3 => Sys2Proof.Machine.execQueryMessageArrival x1 x2 x3 s
  | .partialListArrival x1 x2 x3 => Sys2Proof.Machine.execPartialListArrival x1 x2 x3 s
  | .shardTimeout x1 => Sys2Proof.Machine.execShardTimeout x1 s
  | .ckpJobDefine x1 => Sys2Proof.Machine.execCkpJobDefine x1 s
  | .ckpJobDrop x1 => Sys2Proof.Machine.execCkpJobDrop x1 s
  | .ckpNotice x1 => Sys2Proof.Machine.execCkpNotice x1 s
  | .ckpQuery x1 => Sys2Proof.Machine.execCkpQuery x1 s
  | .ckpRestore x1 => Sys2Proof.Machine.execCkpRestore x1 s
  | .ckpShrink x1 => Sys2Proof.Machine.execCkpShrink x1 s
  | .networkNotice x1 x2 => Sys2Proof.Machine.execNetworkNotice x1 x2 s
  | .stalledWrite x1 x2 => Sys2Proof.Machine.execStalledWrite x1 x2 s
  | .shardComplete x1 x2 => Sys2Proof.Machine.execShardComplete x1 x2 s
  | .shardWriteConfirmed x1 x2 x3 => Sys2Proof.Machine.execShardWriteConfirmed x1 x2 x3 s
  | .announcementArrival x1 x2 x3 x4 x5 => Sys2Proof.Machine.execAnnouncementArrival x1 x2 x3 x4 x5 s
  | .verdictArrival x1 x2 x3 x4 => Sys2Proof.Machine.execVerdictArrival x1 x2 x3 x4 s
  | .endMarkerArrival x1 x2 => Sys2Proof.Machine.execEndMarkerArrival x1 x2 s
  | .dedupTimeout x1 => Sys2Proof.Machine.execDedupTimeout x1 s
  | .verdictTimeout x1 x2 => Sys2Proof.Machine.execVerdictTimeout x1 x2 s
  | .manifestReportArrival x1 x2 x3 x4 x5 => Sys2Proof.Machine.execManifestReportArrival x1 x2 x3 x4 x5 s
  | .commitRecordConfirmed x1 => Sys2Proof.Machine.execCommitRecordConfirmed x1 s
  | .commitMessageArrival x1 => Sys2Proof.Machine.execCommitMessageArrival x1 s
  | .commitTimeout x1 => Sys2Proof.Machine.execCommitTimeout x1 s
  | .secSetJoin x1 => Sys2Proof.Machine.execSecSetJoin x1 s
  | .secSetLeave x1 => Sys2Proof.Machine.execSecSetLeave x1 s
  | .secWeightsOpen x1 => Sys2Proof.Machine.execSecWeightsOpen x1 s
  | .secConnKeyLoad x1 => Sys2Proof.Machine.execSecConnKeyLoad x1 s
  | .secConnKeyDestroy x1 => Sys2Proof.Machine.execSecConnKeyDestroy x1 s
  | .secIdentityRead x1 => Sys2Proof.Machine.execSecIdentityRead x1 s
  | .secQuery x1 => Sys2Proof.Machine.execSecQuery x1 s
  | .secDebugChallenge x1 => Sys2Proof.Machine.execSecDebugChallenge x1 s
  | .secDebugUnlock x1 => Sys2Proof.Machine.execSecDebugUnlock x1 s
  | .secRma x1 => Sys2Proof.Machine.execSecRma x1 s
  | .secPartErase x1 => Sys2Proof.Machine.execSecPartErase x1 s
  | .spdmRequest x1 x2 => Sys2Proof.Machine.execSpdmRequest x1 x2 s
  | .signatureDone => Sys2Proof.Machine.execSignatureDone s
  | .throttleLevel => Sys2Proof.Machine.execThrottleLevel s
  | .meterStart x1 x2 x3 x4 => Sys2Proof.Machine.execMeterStart x1 x2 x3 x4 s
  | .meterAdcSample x1 x2 x3 => Sys2Proof.Machine.execMeterAdcSample x1 x2 x3 s
  | .meterRecordEnd => Sys2Proof.Machine.execMeterRecordEnd s
  | .meterRecordPublish => Sys2Proof.Machine.execMeterRecordPublish s
  | .swIdRecheck x1 => Sys2Proof.Machine.execSwIdRecheck x1 s
  | .coeffPackageStaged => Sys2Proof.Machine.execCoeffPackageStaged s
  | .meterCoeffSwap => Sys2Proof.Machine.execMeterCoeffSwap s
  | .mtrRecordRead x1 => Sys2Proof.Machine.execMtrRecordRead x1 s
  | .mtrIdentify x1 => Sys2Proof.Machine.execMtrIdentify x1 s
  | .mtrCertRead x1 => Sys2Proof.Machine.execMtrCertRead x1 s
  | .mtrCoeffRead x1 => Sys2Proof.Machine.execMtrCoeffRead x1 s
  | .getMeterRecord x1 x2 => Sys2Proof.Machine.execGetMeterRecord x1 x2 s
  | .getMeterCert x1 => Sys2Proof.Machine.execGetMeterCert x1 s
  | .pldmRequest x1 x2 => Sys2Proof.Machine.execPldmRequest x1 x2 s
  | .mctpControl x1 x2 => Sys2Proof.Machine.execMctpControl x1 x2 s
  | .eventRecordDeliver x1 => Sys2Proof.Machine.execEventRecordDeliver x1 s
  | .fltEqEnable x1 x2 => Sys2Proof.Machine.execFltEqEnable x1 x2 s
  | .fltEqHeadWrite x1 x2 => Sys2Proof.Machine.execFltEqHeadWrite x1 x2 s
  | .tickLossHalt x1 => Sys2Proof.Machine.execTickLossHalt x1 s
  | .devReset x1 => Sys2Proof.Machine.execDevReset x1 s
  | .devResetCtrlWrite x1 x2 => Sys2Proof.Machine.execDevResetCtrlWrite x1 x2 s
  | .deviceReset => Sys2Proof.Machine.execDeviceReset s
  | .gridReset => Sys2Proof.Machine.execGridReset s
  | .glumeReset => Sys2Proof.Machine.execGlumeReset s
  | .devFwWrite x1 => Sys2Proof.Machine.execDevFwWrite x1 s
  | .devFwActivate x1 => Sys2Proof.Machine.execDevFwActivate x1 s
  | .devFwQuery x1 => Sys2Proof.Machine.execDevFwQuery x1 s
  | .devSvnCommit x1 => Sys2Proof.Machine.execDevSvnCommit x1 s
  | .crcInit x1 => Sys2Proof.Machine.execCrcInit x1 s
  | .crcClaim x1 => Sys2Proof.Machine.execCrcClaim x1 s
  | .crcRelease x1 => Sys2Proof.Machine.execCrcRelease x1 s
  | .crcIn8 x1 x2 => Sys2Proof.Machine.execCrcIn8 x1 x2 s
  | .crcIn16 x1 x2 => Sys2Proof.Machine.execCrcIn16 x1 x2 s
  | .crcIn32 x1 x2 => Sys2Proof.Machine.execCrcIn32 x1 x2 s
  | .meterCrcTake => Sys2Proof.Machine.execMeterCrcTake s
  | .meterCrcRelease => Sys2Proof.Machine.execMeterCrcRelease s
  | .copyRegionDone x1 x2 x3 => Sys2Proof.Machine.execCopyRegionDone x1 x2 x3 s
  | .hostMemoryReadCompletion x1 x2 x3 => Sys2Proof.Machine.execHostMemoryReadCompletion x1 x2 x3 s
  | .keyEngineDone x1 x2 => Sys2Proof.Machine.execKeyEngineDone x1 x2 s
  | .queryComplete x1 x2 => Sys2Proof.Machine.execQueryComplete x1 x2 s
  | .updateComplete x1 => Sys2Proof.Machine.execUpdateComplete x1 s
  | .controlCoreFault x1 => Sys2Proof.Machine.execControlCoreFault x1 s
  | .nocLinkFault x1 x2 => Sys2Proof.Machine.execNocLinkFault x1 x2 s
  | .dieTempSensorSample x1 x2 x3 => Sys2Proof.Machine.execDieTempSensorSample x1 x2 x3 s
  | .inputBelow20V => Sys2Proof.Machine.execInputBelow20V s
  | .configurationWrite x1 x2 => Sys2Proof.Machine.execConfigurationWrite x1 x2 s
  | .spdmResponseNotReady x1 => Sys2Proof.Machine.execSpdmResponseNotReady x1 s

end Sys2Proof.Machine
end

