-- ==== Sys2Proof/Safety.lean ====
section
/-! DEFINITION. What the claims speak of: legal states, memories in their one canonical form, a command that is ready to run, and the
states in which a command has been answered or accepted. -/

namespace Sys2Proof.Machine

/-- The fuses within their fields (R370, R389, R402, R408, R445): a lifecycle of PRODUCTION or RMA, four roots, four SVN floors of at most 64, at
most 1,024 seals, and 16 erase counts of at most 64. -/
def Fuses.legal (f : Fuses) : Prop :=
  (f.lifecycle = 2 ∨ f.lifecycle = 3) ∧ f.roots.length = 4 ∧ f.floors.length = 4 ∧ (∀ n ∈ f.floors, n ≤ 64) ∧ f.sealCount ≤ 1024 ∧
    f.erases.length = 16 ∧ ∀ n ∈ f.erases, n ≤ 64

/-- The clock of a module with its tick running is powered (R463), and device time is a 64-bit number (R22). -/
def Clock.legal (c : Clock) : Prop := (c.tick = true → c.power = true) ∧ c.now < 2 ^ 64

/-- The image store in its one canonical form (R443): addresses strictly rising, and no erased byte listed. -/
def ImageStore.ok (s : ImageStore) : Bool := Tbl.wf s.flash && s.flash.all fun e => e.2 != 0xFF

/-- What every step keeps. -/
def State.legal (s : State) : Prop := s.fuses.legal ∧ s.clock.legal ∧ s.store.ok = true

/-- The addressed memories in canonical form: HBM, the local stores, and the image store. -/
def State.memoriesOk (s : State) : Bool := Memory.wf s.dev.mem.cells && Memory.wf s.dev.grid.ls && s.store.ok

/-- Fuses only burn: a bit that is set stays set (R370, R402, R445). -/
def Fuses.burnt (f g : Fuses) : Prop :=
  f.lifecycle ≤ g.lifecycle ∧ f.sealCount ≤ g.sealCount ∧ f.debugHash = g.debugHash ∧ f.meterHash = g.meterHash ∧
    (∀ i : Nat, (f.floors[i]?).getD 0 ≤ (g.floors[i]?).getD 0) ∧ ∀ i : Nat, (f.erases[i]?).getD 0 ≤ (g.erases[i]?).getD 0

/-- The events of the power input, which happen whether or not power-good is high (R458-R463, R467). -/
def isInputRow : Instr → Bool
  | .powerGoodRise .. | .pwrEnChange .. | .inputVoltageShutdown .. | .breakerTrip .. | .inputBelow20V => true
  | _ => false

/-- The events after which power-good can be another. -/
def isPowerRow (c : Instr) : Bool := isInputRow c || match c with
  | .powerGoodFall | .shutdown .. => true
  | _ => false

/-- The events of the meter itself (chapter 17). -/
def isMeterRow : Instr → Bool
  | .meterStart .. | .meterAdcSample .. | .meterRecordEnd | .meterRecordPublish | .swIdRecheck .. | .coeffPackageStaged | .meterCoeffSwap => true
  | _ => false

/-- The state with the dies, HBM and NAND in another state, and everything else unchanged. -/
def State.withDev (s : State) (d : Dev) : State := { s with dev := d }

/-- A further change of the dies in the same tick. -/
def State.andThen (s : State) (f : Ctx → Dev → Dev) : State := s.withDev (f s.ctx s.dev)

/-- Core n runs its placement's program, waits for nothing, and its next operation lies in its local store (R161, R170). -/
def CoreReady (n : Nat) (c : Core) (s : State) : Prop :=
  s.clock.power = true ∧ s.dev.coreAt n = some c ∧ c.blocked = none ∧ c.pc + 8 ≤ lsTop

/-- The program in slot k of unit u runs, and may execute its next operation now (R150-R152). -/
def GlumeReady (u k : Nat) (l : GSlot) (s : State) : Prop := s.clock.power = true ∧ s.dev.glmReady u = some (k, l)

/-- The state with unit u as `g`, and the program in its slot k at instruction `pc`. -/
def State.glumeAfter (s : State) (u k : Nat) (g : GUnit) (pc : Nat) : State := s.withDev ((s.dev.setGunit u g).glmPc u k pc)

/-- The state with core n as `c`, whose next operation is at `pc`. -/
def State.coreAfter (s : State) (n : Nat) (c : Core) (pc : Nat) : State := s.withDev (s.dev.setCore n (c.goto pc))

/-- The same over dies `d`. -/
def State.coreWith (s : State) (n : Nat) (d : Dev) (c : Core) (pc : Nat) : State := s.withDev (d.setCore n (c.goto pc))

/-- Whether a packet came from a submission ring. -/
def CmdSrc.isRing : CmdSrc → Bool
  | .ring _ _ _ => true
  | .engine _ => false

/-- The module is powered, and packet c has been fetched from a ring under record r, has started, is not yet accepted, its engine instance
is in service, and no earlier command on the same object waits (R56). -/
def Started (op : Nat) (c : Cmd) (r : CmdRec) (s : State) : Prop :=
  s.clock.power = true ∧ CmdSrc.isRing c.src = true ∧ s.dev.startedRec c op = some r ∧
    s.dev.engineDown op c.words (r.part.getD 0) = false ∧ s.dev.behind r = false

/-- The command of packet c under record r, as its meaning sees it. -/
def reqOf (c : Cmd) (r : CmdRec) : Req := ⟨r.seq, some r.fn, r.sq, r.part.getD 0, c.src, c.words, r.arrival⟩

/-- The dies without what replies and event records change: what has been sent, the reply rings, the pending bits of interrupts, the paths of
event records, the stores of adoptions and orphans, and the commands outstanding. -/
def Dev.rest (d : Dev) : Dev :=
  { d with outs := [], rqs := [], msix := [], paths := [], adopts := [], orphans := [], cmds := [], nextReply := 0 }

/-- The dies are `d`, and the command has had its one reply and is no longer outstanding. -/
def State.answered (s : State) (r : CmdRec) (st : Status) (res : List Word) (d : Dev) : State := s.withDev (d.endCmd s.ctx r st res)

/-- The dies are `d`, the command has had its ACCEPTED reply and stays outstanding, and its operation is kept. -/
def State.acceptedAs (s : State) (c : Cmd) (r : CmdRec) (res : List Word) (k : OpKind) (d : Dev) : State :=
  let d := d.reply s.ctx r .accepted res
  s.withDev { d with
    cmds := d.cmds.map fun e => if e.seq = r.seq then { e with phase := .accepted } else e
    ops := tset d.ops r.seq ⟨c.src, r.part.getD 0, k, false⟩ }

/-- The dies are `d`, and the command has had its ACCEPTED reply and its final one. -/
def State.acceptedDone (s : State) (r : CmdRec) (res : List Word) (st : Status) (fin : List Word) (d : Dev) : State :=
  s.withDev ((d.reply s.ctx r .accepted res).endCmd s.ctx r st fin)

end Sys2Proof.Machine
end

