-- ==== Sys2Proof/Certificates/Slice0/Obligations.lean ====
section
/-! DEFINITION. The statements for the provers. -/

open Sys2Proof Sys2Proof.Machine

/-- The input rows of power (R458-R463, R467): a rise of power-good starts a power-on reset; each of the others that applies drops
power-good, which loses everything on the dies and in HBM and keeps NAND, the fuses and the image store. -/
def Obligations.PowerRowsTakeEffect : Prop :=
  (∀ (s : State) (mv : Nat), s.clock.power = false → 44000 ≤ mv → mv ≤ 60000 → s.dev.power.pwrEn = true → s.dev.power.latched = false →
    ∃ t, exec (.powerGoodRise mv true) s = .next t ∧ t.clock = ⟨0, s.clock.wall, true, false, 0⟩ ∧ t.dev.boot.stage = 1 ∧
      t.dev.boot.state = 0 ∧ t.dev.mem = MemState.reset ∧ t.dev.ses = Dev.reset.ses ∧ t.dev.sec = SecState.reset ∧
      t.dev.nand = s.dev.nand ∧ t.meter = Meter.reset s.meter.flash ∧ t.fuses = s.fuses ∧ t.store = s.store ∧ t.pending = s.pending) ∧
  (∀ (s : State), s.clock.power = true →
    ∀ s₀ : State, s = s₀.reach (evKey 0 0 0) →
      ∃ t, exec .powerGoodFall s₀ = .next t ∧ t.clock = { s.clock with power := false, tick := false } ∧ t.dev.mem = MemState.reset ∧
      t.dev.cmds = [] ∧ t.dev.nand = s.dev.nand ∧ t.fuses = s.fuses ∧ t.store = s.store ∧ t.pending = s.pending) ∧
  (∀ (s : State), s.dev.power.pwrEn = true → s.clock.power = true →
    ∃ t, exec (.pwrEnChange false) s = .next t ∧ t.clock.power = false ∧ t.dev.power.pwrEn = false ∧
      t.dev.power.enLowSince = some s.clock.wall ∧ t.dev.mem = MemState.reset ∧ t.fuses = s.fuses ∧ t.store = s.store) ∧
  (∀ (s : State) (t0 : Nat), s.dev.power.pwrEn = false → s.dev.power.enLowSince = some t0 → t0 + 100 * ticksMs ≤ s.clock.wall →
    exec (.pwrEnChange true) s = .next (s.withDev { s.dev with power := { s.dev.power with pwrEn := true, enLowSince := none, latched := false } })) ∧
  (∀ (s : State) (mv : Nat), 66000 < mv → s.clock.power = true →
    ∀ s₀ : State, s = s₀.reach (evKey 0 0 0) →
      ∃ t, exec (.inputVoltageShutdown mv) s₀ = .next t ∧ t.clock.power = false ∧ t.dev.power.pathOpen = true ∧
      t.dev.power.latched = s.dev.power.latched ∧ t.dev.mem = MemState.reset ∧ t.fuses = s.fuses) ∧
  (∀ (s : State) (ma us : Nat), (45000 < ma ∧ 1000 ≤ us) ∨ (60000 < ma ∧ 10 ≤ us) → s.clock.power = true →
    ∀ s₀ : State, s = s₀.reach (evKey 0 0 0) →
      ∃ t, exec (.breakerTrip ma us) s₀ = .next t ∧ t.clock.power = false ∧ t.dev.power.pathOpen = true ∧ t.dev.mem = MemState.reset ∧
      t.fuses = s.fuses) ∧
  (∀ (s : State) (cond : Nat), s.clock.power = true → cond ≤ 6 → bitAt s.dev.power.active cond = true →
    ∀ s₀ : State, s = s₀.reach (evKey 0 0 0) → ∃ t, exec (.shutdown cond) s₀ = .next t ∧ t.clock.power = false ∧ t.dev.power.pathOpen = true ∧
      t.dev.power.latched = (s.dev.power.latched || (cond != 2 && cond != 3)) ∧ t.dev.mem = MemState.reset ∧ t.dev.nand = s.dev.nand ∧
      t.fuses = s.fuses ∧ t.store = s.store) ∧
  (∀ (s : State), s.clock.power = false →
    exec .inputBelow20V s = .next (s.withDev { s.dev with power := { s.dev.power with latched := false } }))

/-- The rows of the controller, the sensors and the speed factor (R20, R21, R416, R464-R470, R477), each as it acts on a powered
module. -/
def Obligations.ControlRowsTakeEffect : Prop :=
  ∀ (s : State), s.clock.power = true →
  (∀ w cv ca a b : Nat, s.clock.now % 12500 = 0 →
    (s.dev.power.emergency = false → s.dev.power.active = 0 → max a b < 110 →
      exec (.ptcEvaluate w cv ca a b) s = .next (s.withDev { s.dev with power := { s.dev.power with
        d := nextD s.dev.power.d w (min s.dev.power.capWatts s.dev.power.coolLimit) (max a b)
        capEff := min s.dev.power.capWatts s.dev.power.coolLimit, watts := w, volts := cv, amps := ca, tjA := a, tjB := b } })) ∧
    (s.dev.power.emergency = true → ∃ t, exec (.ptcEvaluate w cv ca a b) s = .next t ∧ s.dev.power.d ≤ t.dev.power.d ∧
      t.dev.power.emergency = true ∧ t.dev.power.watts = w ∧ t = s.withDev { s.dev with power := t.dev.power, outs := t.dev.outs }) ∧
    (110 ≤ max a b → bitAt s.dev.power.active 0 = false → ∃ t, exec (.ptcEvaluate w cv ca a b) s = .next t ∧ 48 ≤ t.dev.power.d ∧
      t.dev.power.emergency = true ∧ bitAt t.dev.power.active 0 = true)) ∧
  (∀ cond : Nat, cond ≤ 6 → bitAt s.dev.power.active cond = false →
    ∀ s₀ : State, s = s₀.reach (evKey 0 0 0) → ∃ t, exec (.emergencyDetect cond) s₀ = .next t ∧ 48 ≤ t.dev.power.d ∧ t.dev.power.emergency = true ∧
      bitAt t.dev.power.active cond = true ∧ t.dev.outs = .sensor (emergSensor s.dev cond) 3 true :: s.dev.outs ∧
      t = s.withDev { s.dev with power := t.dev.power, outs := t.dev.outs }) ∧
  (∀ t0 : Nat, s.dev.power.emergency = true → s.dev.power.active = 0 → s.dev.power.emergSince = some t0 → t0 + 100 * ticksMs ≤ s.clock.now →
    exec .emergencyClear s = .next (s.withDev { s.dev with power := { s.dev.power with
      emergency := false, d := 48, emergSince := none } })) ∧
  (∀ (i o f n : Nat) (s₀ : State), s = s₀.reach (evKey 9 0 0) →
    (s.dev.power.active = 0 → i ≤ 52 → 1200 ≤ f → n ≤ 85 →
      exec (.coolantSample i o f n) s₀ = .next (s.withDev { s.dev with power := { s.dev.power with
        inlet := i, outlet := o, flow := f, nandT := n, coolLimit := if i ≤ 45 then 1650 else 1650 - 100 * (i - 45) } })) ∧
    (52 < i ∨ f < 1200 ∨ 85 < n → s.dev.power.active = 0 → ∃ t, exec (.coolantSample i o f n) s₀ = .next t ∧ 48 ≤ t.dev.power.d ∧
      t.dev.power.emergency = true ∧ t.dev.power.inlet = i ∧ t.dev.power.flow = f ∧ t.dev.power.nandT = n ∧
      t = s.withDev { s.dev with power := t.dev.power, outs := t.dev.outs })) ∧
  (∀ n r : Nat, n ≤ 10 →
    ∀ s₀ : State, s = s₀.reach (evKey 9 0 0) →
      ∃ t, exec (.sensorUpdate n r) s₀ = .next t ∧ tget t.dev.power.sensors n = some r ∧ s.dev.outs <:+ t.dev.outs ∧
      t = s.withDev { s.dev with power := { s.dev.power with sensors := t.dev.power.sensors }, outs := t.dev.outs }) ∧
  (∀ (f : Fn) (w : Word), s.dev.isCtrl f = true → 600 ≤ wfld w 10 0 → wfld w 10 0 ≤ 1650 →
    ∀ s₀ : State, s = s₀.reach (pcieKey f.port) →
      exec (.devPwrCapWrite f w) s₀ = .next (s.withDev { s.dev with power := { s.dev.power with capWatts := wfld w 10 0 } })) ∧
  (∀ (t0 t1 : Nat) (s₀ : State), s = s₀.reach (evKey 9 0 0) → t0 ≤ t1 + 5 → t1 ≤ t0 + 5 → max t0 t1 < 110 → s.dev.power.active = 0 →
    (s.dev.power.tjB < 110 →
      exec (.dieTempSensorSample 0 t0 t1) s₀ = .next (s.withDev { s.dev with power := { s.dev.power with tjA := max t0 t1 } })) ∧
    (s.dev.power.tjA < 110 →
      exec (.dieTempSensorSample 1 t0 t1) s₀ = .next (s.withDev { s.dev with power := { s.dev.power with tjB := max t0 t1 } }))) ∧
  (∀ die f : Nat, die ≤ 1 → 952 ≤ f → f ≤ 0xFFFF → s.clock.now % 125000 = 0 →
    ∀ s₀ : State, s = s₀.reach (evKey 9 0 0) → exec (.speedMeasure die f) s₀ = .next (s.withDev { s.dev with
      speed := if die = 0 then (f, s.dev.speed.2) else (s.dev.speed.1, f) }))

/-- The rows of the rings (R46-R48, R52, R53, R55-R57) of a function that is present, outside start-up. -/
def Obligations.RingRowsTakeEffect : Prop :=
  ∀ (s : State) (f : Fn) (n : Nat), s.clock.power = true → s.dev.fnLive f = true → s.dev.writable = true → n < 16 →
  (∀ w : Word, ((s.dev.sq f.idx n).en = false ∨ wfld w 11 0 < 2 ^ (s.dev.sq f.idx n).size) →
    ∀ s₀ : State, s = s₀.reach (pcieKey f.port) →
      exec (.doorbell f n w) s₀ = .next (s.withDev (s.dev.setSq f.idx n { s.dev.sq f.idx n with tail := wfld w 11 0 }))) ∧
  (∀ w : Word, (s.dev.sq f.idx n).en = true → (s.dev.sq f.idx n).state = 1 → 2 ^ (s.dev.sq f.idx n).size ≤ wfld w 11 0 →
    ∀ s₀ : State, s = s₀.reach (pcieKey f.port) → exec (.doorbell f n w) s₀ =
      .next (s.withDev (s.dev.setSq f.idx n { s.dev.sq f.idx n with tail := wfld w 11 0, state := 2, cause := 1 }))) ∧
  (∀ w : Word, (s.dev.sq f.idx n).en = false → bitAt w.toNat 31 = true → (s.dev.sq f.idx n).base % 4096 = 0 → 4 ≤ wfld w 3 0 →
    wfld w 3 0 ≤ 12 → (s.dev.rq f.idx (wfld w 23 20)).en = true → s.dev.bindOk f = true →
    ∀ s₀ : State, s = s₀.reach (pcieKey f.port) → exec (.sqEnable f n w) s₀ = .next (s.withDev (s.dev.setSq f.idx n { s.dev.sq f.idx n with
      rq := wfld w 23 20, size := wfld w 3 0, en := true, state := 1, cause := 0, head := 0, tail := 0 }))) ∧
  (∀ w : Word, (s.dev.rq f.idx n).en = false → bitAt w.toNat 31 = true → (s.dev.rq f.idx n).base % 4096 = 0 → 4 ≤ wfld w 3 0 →
    wfld w 3 0 ≤ 13 → s.dev.bindOk f = true →
    ∀ s₀ : State, s = s₀.reach (pcieKey f.port) → exec (.rqEnable f n w) s₀ = .next (s.withDev ((s.dev.setRq f.idx n { s.dev.rq f.idx n with
      vector := wfld w 19 16, size := wfld w 3 0, en := true, state := 1, cause := 0, head := 0, tail := 0, phase := true
      held := [], unsig := 0, firstUnsig := none }).takeAdopted s.ctx f n))) ∧
  (∀ (w : Word) (s₀ : State), s = s₀.reach (pcieKey f.port) → (∀ a ∈ s.dev.adopts, a.2.ring ≠ some (f.idx, n)) →
    ((s.dev.rq f.idx n).held = [] →
      exec (.rqHeadWrite f n w) s₀ = .next (s.withDev (s.dev.setRq f.idx n { s.dev.rq f.idx n with head := wfld w 12 0 }))) ∧
    (∀ e : Reply, (s.dev.rq f.idx n).en = true → (s.dev.rq f.idx n).state = 1 → (s.dev.port f.port).lost = false → (s.dev.rq f.idx n).held = [e] →
      ({ s.dev.rq f.idx n with head := wfld w 12 0 } : Rq).full = false →
      exec (.rqHeadWrite f n w) s₀ =
        .next (s.withDev (((s.dev.setRq f.idx n { s.dev.rq f.idx n with head := wfld w 12 0 }).setRq f.idx n
          { s.dev.rq f.idx n with head := wfld w 12 0, held := [] }).writeEntry s.ctx f.idx n e)))) ∧
  (∀ (words : List Word) (part : Option Nat) (s₀ : State), s = s₀.reach (pcieKey f.port) → s.dev.fetchable f n = true →
    (s.dev.fetchStop.any fun e => e.1 == f.idx * 16 + n) = false → wfld (words.getD 0 0) 31 24 = 1 → words.length = 16 →
    1 ≤ ((s.dev.sq f.idx n).tail + 2 ^ (s.dev.sq f.idx n).size - (s.dev.sq f.idx n).head) % 2 ^ (s.dev.sq f.idx n).size →
    part = cmdPart f (words.getD 0 0) (words.getD 1 0) → s.dev.checkCmd f n (words.getD 0 0) (words.getD 1 0) = none →
    (s.dev.atLimit f n part = false →
      (s.dev.takeTurn (f.idx * 16 + n) (s.dev.fetchCost (f.idx * 16 + n) 1 part) 128).1 = true →
      ∃ t e, exec (.commandFetch f ⟨n, (s.dev.sq f.idx n).slotAddr⟩ .ok words) s₀ = .next t ∧ t.dev.cmds = s.dev.cmds ++ [e] ∧
        e.cmd = ⟨.ring f n (s.dev.sq f.idx n).head, words⟩ ∧ e.seq = s.dev.nextSeq ∧ e.op = wfld (words.getD 0 0) 15 0 ∧
        e.tag = wfld (words.getD 1 0) 15 0 ∧ e.rq = (s.dev.sq f.idx n).rq ∧ e.arrival = s.clock.now ∧ e.fate = .live ∧ e.phase ≠ .accepted ∧
        t = s.withDev { s.dev.setSq f.idx n { s.dev.sq f.idx n with
            head := ((s.dev.sq f.idx n).head + 1) % 2 ^ (s.dev.sq f.idx n).size, last := s.dev.nextSeq } with
          arb := t.dev.arb, cmds := s.dev.cmds ++ [e], nextSeq := s.dev.nextSeq + 1 }) ∧
    (s.dev.atLimit f n part = true →
      exec (.commandFetch f ⟨n, (s.dev.sq f.idx n).slotAddr⟩ .ok words) s₀ =
        .next (s.withDev { s.dev with fetchStop := s.dev.fetchStop ++ [(f.idx * 16 + n, part)] }))) ∧
  (∀ (st : Completion) (words : List Word), s.dev.fetchable f n = true → (s.dev.fetchStop.any fun e => e.1 == f.idx * 16 + n) = false → st ≠ .ok →
    ∀ s₀ : State, s = s₀.reach (pcieKey f.port) →
      exec (.commandFetch f ⟨n, (s.dev.sq f.idx n).slotAddr⟩ st words) s₀ =
        .next (s.withDev (s.dev.setSq f.idx n { s.dev.sq f.idx n with state := 2, cause := 2 }))) ∧
  (f.idx * 16 + n ∈ s.dev.resumable →
    (∀ j ∈ s.dev.resumable, (f.idx * 16 + n + 1024 - s.dev.arb.turn) % 1024 ≤ (j + 1024 - s.dev.arb.turn) % 1024) →
    ∀ s₀ : State, s = s₀.follow →
      exec (.fetchResume f n) s₀ = .next (s.withDev { s.dev with fetchStop := s.dev.fetchStop.filter fun e => e.1 != f.idx * 16 + n })) ∧
  (∀ t0 : Nat, (s.dev.rq f.idx n).en = true → (s.dev.port f.port).lost = false → (s.dev.rq f.idx n).coalTime ≠ 0 →
    (s.dev.rq f.idx n).coalCount ≠ 0 → (s.dev.rq f.idx n).firstUnsig = some t0 → t0 + (s.dev.rq f.idx n).coalTime * 128 ≤ s.clock.now →
    ∀ s₀ : State, s = s₀.reach (evKey 8 0 (source 1 0)) → exec (.replyCoalesceTimeout f n) s₀ = .next (s.withDev ((s.dev.setRq f.idx n
      { s.dev.rq f.idx n with unsig := 0, firstUnsig := none }).fire f (s.dev.rq f.idx n).vector)))

/-- A command held by FENCE or SERIAL starts once nothing earlier of its ring is outstanding (R56); every command of another ring keeps its
phase. -/
def Obligations.FencedCommandStarts : Prop :=
  ∀ (s : State) (c : Cmd) (r : CmdRec), s.clock.power = true →
    s.dev.cmds.find? (fun e => e.cmd == c && e.phase == .held) = some r →
    (∀ e ∈ s.dev.cmds, e.fn = r.fn → e.sq = r.sq → e = r) → (s.dev.cmds.map CmdRec.seq).Nodup →
    ∀ s₀ : State, s = s₀.follow → exec (.fencedCommandStart c) s₀ =
      .next (s.withDev { s.dev with cmds := s.dev.cmds.map fun e => if e.seq = r.seq then { e with phase := .started } else e })

/-- The rows of the PCI Express ports (R39, R67-R72, R439, R448). -/
def Obligations.PortRowsTakeEffect : Prop :=
  ∀ (s : State) (port : Nat), s.clock.power = true → port < 2 →
  (2 ≤ s.dev.boot.stage →
    ∀ s₀ : State, s = s₀.reach (pcieKey port) →
      exec (.pcieLinkTrainingStart port) s₀ = .next (s.withDev (s.dev.setPort port { s.dev.port port with training := true }))) ∧
  (∀ k : PortResetKind, ∀ s₀ : State, s = s₀.reach (evKey 2 0 0) →
    ∃ t, exec (.portReset port k) s₀ = .next t ∧ t.dev.port port = { s.dev.port port with
      training := false, linkUp := false, vfEnable := false, numVfs := 0, ari := false
      downSince := if (s.dev.port port).linkUp then some s.clock.now else (s.dev.port port).downSince } ∧
    (∀ c ∈ t.dev.cmds, c.fn.idx / 32 = port → c.fate ≠ .live) ∧ (∀ q ∈ t.dev.sqs, q.1 / 16 / 32 = port → q.2.en = false) ∧
    t.dev.mem = s.dev.mem ∧ t.dev.ses = s.dev.ses) ∧
  (∀ f : Fn, s.dev.fnLive f = true → ∀ s₀ : State, s = s₀.reach (evKey 2 0 0) → ∃ t, exec (.functionLevelReset f) s₀ = .next t ∧
    (∀ c ∈ t.dev.cmds, c.fn = f → c.fate ≠ .live) ∧ (∀ q ∈ t.dev.sqs, q.1 / 16 = f.idx → q.2.en = false) ∧
    (∀ q ∈ t.dev.rqs, q.1 / 16 = f.idx → q.2.en = false ∧ q.2.held = []) ∧ t.dev.ports = s.dev.ports ∧ t.dev.mem = s.dev.mem ∧
    t.dev.ops = s.dev.ops) ∧
  ((s.dev.port port).linkUp = true →
    ∀ s₀ : State, s = s₀.reach (pcieKey port) → exec (.pcieDlInactive port) s₀ =
      .next (s.withDev (s.dev.setPort port { s.dev.port port with linkUp := false, downSince := some s.clock.now }))) ∧
  ((s.dev.port port).linkDue s.clock.now = true →
    ∀ s₀ : State, s = s₀.reach (evKey 8 0 (source 1 0)) →
      exec (.linkDownTimeout port) s₀ = .next (s.withDev ((s.dev.hostLoss s.ctx port 1).ctxLost port))) ∧
  ((s.dev.port port).hbDue s.clock.now = true →
    ∀ s₀ : State, s = s₀.reach (evKey 8 0 (source 1 0)) →
      exec (.heartbeatTimeout port) s₀ = .next (s.withDev ((s.dev.hostLoss s.ctx port 2).ctxLost port))) ∧
  ((s.dev.port port).training = true → (s.dev.port port).lost = true → (s.dev.port port).hbPeriod = 0 →
    ∀ s₀ : State, s = s₀.reach (pcieKey port) →
      ∃ t, exec (.pcieDlActive port) s₀ = .next t ∧ t.dev.port port = { s.dev.port port with linkUp := true, downSince := none, lost := false } ∧
      t = s.withDev { s.dev with ports := t.dev.ports }) ∧
  (∀ w : Word, s.dev.writable = true → (s.dev.port port).lost = false →
    ∀ s₀ : State, s = s₀.reach (pcieKey port) → exec (.heartbeat ⟨port, 0⟩ w) s₀ =
      .next (s.withDev (s.dev.setPort port { s.dev.port port with hbLast := some s.clock.now, hbSinceLoss := true }))) ∧
  (∀ w : Word, s.dev.writable = true → (s.dev.port port).lost = false → wfld w 9 0 = 0 →
    ∀ s₀ : State, s = s₀.reach (pcieKey port) →
      exec (.hbCfgWrite ⟨port, 0⟩ w) s₀ = .next (s.withDev (s.dev.setPort port { s.dev.port port with hbPeriod := 0, hbLast := none }))) ∧
  (∀ w : Word, s.dev.writable = true → (s.dev.port port).lost = false → wfld w 9 0 ≠ 0 →
    ∀ s₀ : State, s = s₀.reach (pcieKey port) → ∃ t, exec (.hbCfgWrite ⟨port, 0⟩ w) s₀ = .next t ∧ t.dev.port port = { s.dev.port port with
      hbPeriod := wfld w 9 0, hbLast := some s.clock.now, hbSinceLoss := true } ∧ t = s.withDev { s.dev with ports := t.dev.ports }) ∧
  (s.dev.cfgSpace = true →
    ∀ s₀ : State, s = s₀.reach (pcieKey port) →
      exec (.configurationWrite port (.vfEnable true)) s₀ = .next (s.withDev (s.dev.setPort port { s.dev.port port with vfEnable := true }))) ∧
  (∀ n : Nat, s.dev.cfgSpace = true → (s.dev.port port).vfEnable = false → n ≤ 16 →
    ∀ s₀ : State, s = s₀.reach (pcieKey port) →
      exec (.configurationWrite port (.numVfs n)) s₀ = .next (s.withDev (s.dev.setPort port { s.dev.port port with numVfs := n })))

/-- Host loss of a port (R67, R68): in one step the port is lost, the partitions bound to it are orphaned and no other binding changes, the control
host role leaves it, its rings that were enabled show STATE orphaned, and the commands of its functions keep running without a live
destination for their replies. -/
def Obligations.HostLossTakesEffect : Prop :=
  ∀ (s : State) (port : Nat), s.clock.power = true → port < 2 → (s.dev.port port).linkDue s.clock.now = true →
    ∀ s₀ : State, s = s₀.reach (evKey 8 0 (source 1 0)) → ∃ t, exec (.linkDownTimeout port) s₀ = .next t ∧ (t.dev.port port).lost = true ∧
      (∀ p, s.dev.host p = .bound port → t.dev.host p = .orphaned port) ∧ (∀ p, s.dev.host p ≠ .bound port → t.dev.host p = s.dev.host p) ∧
      t.dev.ctrlPort ≠ port ∧ (∀ c ∈ t.dev.cmds, c.fn.port = port → c.fate ≠ .live) ∧
      (∀ k q, tget s.dev.sqs k = some q → k / 16 / 32 = port → q.en = true → ∃ q', tget t.dev.sqs k = some q' ∧ q'.state = 3) ∧
      t.dev.ses = s.dev.ses ∧ t.dev.grid = s.dev.grid ∧ t.dev.sec = s.dev.sec

/-- The device management commands of R63 to R71, each answered once with status OK. -/
def Obligations.DeviceCommandsComplete : Prop :=
  ∀ (s₀ s : State) (c : Cmd) (r : CmdRec), s = s₀.reach (cmdKey c) →
  (Started 0x0F00 c r s → (reqOf c r).clean [] = true →
    exec (.devNop c) s₀ = .next (s.answered r .ok [loW r.arrival, hiW r.arrival] s.dev)) ∧
  (Started 0x0F01 c r s → (reqOf c r).clean [] = true →
    exec (.devIdentify c) s₀ = .next (s.answered r .ok [0x1612#32, s.dev.boot.fwVersion, wd (r.fn.num + r.fn.port * 65536),
      wd (partMask fun p => s.dev.boundTo p r.fn.port)] s.dev)) ∧
  (Started 0x0F24 c r s → (reqOf c r).clean [] = true →
    exec (.devHostStatus c) s₀ = .next (s.answered r .ok [wd s.dev.hostState, wd (s.dev.partBind r.fn.port)] s.dev)) ∧
  (Started 0x0F02 c r s → (reqOf c r).clean [(2, 0xFFFFF)] = true → ∀ v : CmdRec,
    s.dev.cmds.find? (fun e => some e.fn == some r.fn && e.sq == (reqOf c r).f 2 19 16 && e.tag == (reqOf c r).f 2 15 0 && e.seq != r.seq) = some v →
    v.phase = .held →
    exec (.devAbort c) s₀ =
      .next (s.withDev (((((s.dev.endCmd s.ctx v .aborted []).endCmd s.ctx r .ok [1])).schedule s.ctx).reedSettle s.ctx))) ∧
  (Started 0x0F20 c r s → (reqOf c r).clean [(2, 1)] = true →
    exec (.devSetCtrlHost c) s₀ = .next (s.answered r .ok [] (({ s.dev with ctrlPort := (reqOf c r).f 2 0 0 }.deviceAdopt s.ctx).recDev s.ctx
      .log 0x202 (source 1 (Config.controlCore r.seq % 8)) 0 0 0))) ∧
  (Started 0x0F21 c r s → (reqOf c r).clean [(2, 0x10F)] = true → s.dev.host ((reqOf c r).f 2 3 0) = .unbound →
    ∃ d, exec (.devPartBind c) s₀ = .next (s.answered r .ok [] d) ∧ d.host ((reqOf c r).f 2 3 0) = .bound ((reqOf c r).f 2 8 8) ∧
      (∀ p, p ≠ (reqOf c r).f 2 3 0 → d.host p = s.dev.host p) ∧ d.cmds = s.dev.cmds ∧ d.ses = s.dev.ses ∧
      (∀ q ∈ d.sqs, q.1 / 16 = Fn.idx ⟨1 - (reqOf c r).f 2 8 8, (reqOf c r).f 2 3 0 + 1⟩ → q.2.en = false ∧ q.2.state = 4)) ∧
  (Started 0x0F22 c r s → (reqOf c r).clean [(2, 0xF)] = true → s.dev.boundTo ((reqOf c r).f 2 3 0) r.fn.port = true →
    ∃ d, exec (.devPartRelease c) s₀ = .next (s.answered r .ok [wd (d.outPart ((reqOf c r).f 2 3 0))] d) ∧
      d.host ((reqOf c r).f 2 3 0) = .released r.fn.port ∧ (∀ p, p ≠ (reqOf c r).f 2 3 0 → d.host p = s.dev.host p) ∧
      (∀ q ∈ d.sqs, q.1 / 16 = Fn.idx ⟨r.fn.port, (reqOf c r).f 2 3 0 + 1⟩ → q.2.en = false) ∧
      (∀ e ∈ d.cmds, e.fn.port = r.fn.port → e.part = some ((reqOf c r).f 2 3 0) → e.fate ≠ .live) ∧ d.ses = s.dev.ses) ∧
  (Started 0x0F23 c r s → (reqOf c r).clean [(2, 0xF)] = true →
    (s.dev.host ((reqOf c r).f 2 3 0) = .orphaned 0 ∨ s.dev.host ((reqOf c r).f 2 3 0) = .orphaned 1 ∨
      s.dev.host ((reqOf c r).f 2 3 0) = .released 0 ∨ s.dev.host ((reqOf c r).f 2 3 0) = .released 1) →
    (s.dev.port r.fn.port).vfEnable = true → (reqOf c r).f 2 3 0 + 1 ≤ (s.dev.port r.fn.port).numVfs →
    ∃ d, exec (.devAdopt c) s₀ = .next (s.answered r .ok [wd (s.dev.outPart ((reqOf c r).f 2 3 0)),
        wd (tgetD s.dev.orphans ((reqOf c r).f 2 3 0) []).length] d) ∧
      d.host ((reqOf c r).f 2 3 0) = .bound r.fn.port ∧ (∀ p, p ≠ (reqOf c r).f 2 3 0 → d.host p = s.dev.host p) ∧
      d.cmds = s.dev.cmds ∧ d.ses = s.dev.ses)

/-- Commits, cancels and copies of configuration (R30-R37, R480, R481): accepted commits wait with their identifier, a cancel takes its commit away, a
copy makes the shadow values of the named slices those that are active, and a swap exchanges the two sets of exactly the named slices. -/
def Obligations.ConfigCommandsComplete : Prop :=
  ∀ (s₀ s : State) (c : Cmd) (r : CmdRec), s = s₀.reach (cmdKey c) →
  (∀ sc at_ : Nat, Started 0x0F10 c r s → (reqOf c r).clean [(2, 0x3FFFF), (3, 0x1F), (4, top32), (5, top32)] = true →
    sc = commitScope r.fn (bitAt ((reqOf c r).w 3).toNat 4) ((reqOf c r).f 3 3 0) →
    at_ = (if (reqOf c r).d2 4 = 0 then s.clock.now + 16 else (reqOf c r).d2 4) →
    s.dev.commitCheck s.clock.now r.fn ((reqOf c r).f 2 17 0) sc ((reqOf c r).d2 4) = none →
    s.dev.firstErr sc ((reqOf c r).f 2 17 0) at_ (List.range 18) = none →
    ∃ d, exec (.cfgCommit c) s₀ = .next (s.answered r .accepted [wd s.dev.nextCommit, loW at_, hiW at_] d) ∧
      d.commits = s.dev.commits ++ [(⟨s.dev.nextCommit, r.fn, sc, (reqOf c r).f 2 17 0, at_⟩ : Commit)] ∧ d.regs = s.dev.regs ∧
      (d.cfgOf r.fn).state = 1 ∧ (d.cfgOf r.fn).id = s.dev.nextCommit ∧ (d.cfgOf r.fn).swapTick = at_) ∧
  (Started 0x0F11 c r s → (reqOf c r).clean [(2, 0xFFFF)] = true →
    (s.dev.commits.any fun k => k.id == (reqOf c r).f 2 15 0 && k.fn == r.fn) = true →
    ∃ d, exec (.cfgCancel c) s₀ = .next (s.answered r .ok [] d) ∧
      d.commits = s.dev.commits.filter (fun k => k.id != (reqOf c r).f 2 15 0) ∧ (d.cfgOf r.fn).state = 4 ∧ d.regs = s.dev.regs) ∧
  (∀ sc : Nat, Started 0x0F12 c r s → (reqOf c r).clean [(2, 0x3FFFF), (3, 0x1F)] = true →
    sc = commitScope r.fn (bitAt ((reqOf c r).w 3).toNat 4) ((reqOf c r).f 3 3 0) → maskOk ((reqOf c r).f 2 17 0) = true →
    s.dev.scopeOk r.fn sc = true → s.dev.maskBusy sc ((reqOf c r).f 2 17 0) = false →
    ∃ d, exec (.cfgCopy c) s₀ = .next (s.answered r .ok [] d) ∧
      d.regs = { s.dev.regs with shd := sliceMix sc ((reqOf c r).f 2 17 0) s.dev.regs.shd s.dev.regs.act } ∧ d.commits = s.dev.commits)

/-- The rows of CFG_COMMIT_CTRL and the swap (R34, R36, R37, R481). -/
def Obligations.ConfigRowsTakeEffect : Prop :=
  ∀ (s : State) (f : Fn) (w : Word), s.clock.power = true → s.dev.fnLive f = true → s.dev.writable = true →
  (∀ (k : CfgFn) (sc at_ : Nat), bitAt w.toNat 5 = true → k = (s.dev.cfgOf f).ctrl f w → sc = commitScope f k.device k.part →
    at_ = (if dw k.tickLo k.tickHi = 0 then s.clock.now + 16 else dw k.tickLo k.tickHi) →
    (s.dev.setCfg f k).commitCheck s.clock.now f k.mask sc (dw k.tickLo k.tickHi) = none →
    (s.dev.setCfg f k).firstErr sc k.mask at_ (List.range 18) = none →
    ∀ s₀ : State, s = s₀.reach (pcieKey f.port) → ∃ t, exec (.cfgCommitCtrlGo f w) s₀ = .next t ∧
      t.dev.commits = s.dev.commits ++ [(⟨s.dev.nextCommit, f, sc, k.mask, at_⟩ : Commit)] ∧ t.dev.regs = s.dev.regs ∧
      (t.dev.cfgOf f).state = 1 ∧ (t.dev.cfgOf f).id = s.dev.nextCommit) ∧
  (bitAt w.toNat 6 = true → (s.dev.commits.any fun e => e.id == (s.dev.cfgOf f).id && e.fn == f) = true →
    ∀ s₀ : State, s = s₀.reach (pcieKey f.port) →
      ∃ t, exec (.cfgCommitCtrlCancel f w) s₀ = .next t ∧ t.dev.commits = s.dev.commits.filter (fun e => e.id != (s.dev.cfgOf f).id) ∧
      (t.dev.cfgOf f).state = 4 ∧ t.dev.regs = s.dev.regs) ∧
  (∀ (k : CfgFn) (sc : Nat), bitAt w.toNat 7 = true → k = (s.dev.cfgOf f).ctrl f w → sc = commitScope f k.device k.part →
    maskOk k.mask = true → s.dev.scopeOk f sc = true → s.dev.maskBusy sc k.mask = false →
    ∀ s₀ : State, s = s₀.reach (pcieKey f.port) → ∃ t, exec (.cfgCommitCtrlCopy f w) s₀ = .next t ∧
      t.dev.regs = { s.dev.regs with shd := sliceMix sc k.mask s.dev.regs.shd s.dev.regs.act } ∧ t.dev.commits = s.dev.commits) ∧
  (∀ (id : Nat) (c : Commit), s.dev.commits.find? (fun e => e.id == id) = some c → c.tick ≤ s.clock.now →
    ∀ s₀ : State, s = s₀.reach (evKey 3 0 0) → ∃ t, exec (.commitSwap id) s₀ = .next t ∧ t.dev.commits = s.dev.commits.filter (fun e => e.id != id) ∧
      t.dev.regs.act = sliceMix c.scope c.mask s.dev.regs.act s.dev.regs.shd ∧
      t.dev.regs.shd = sliceMix c.scope c.mask s.dev.regs.shd s.dev.regs.act ∧ t.dev.ses = s.dev.ses ∧ t.dev.mem = s.dev.mem)

/-- Timers, device time and plain registers (R6, R22, R26, R27, R38). -/
def Obligations.TimeAndRegisterRowsTakeEffect : Prop :=
  ∀ (s : State), s.clock.power = true →
  (∀ (port n : Nat) (k : Timer), port < 2 → n < 16 → tget s.dev.timers (port * 16 + n) = some k → k.en = true →
    k.cmp = s.clock.now % 2 ^ 64 → k.last ≠ some s.clock.now →
    ∀ s₀ : State, s = s₀.reach (evKey 8 0 (source 17 (16 + n))) → exec (.timerFire port n) s₀ = .next (s.withDev ({ s.dev with
      timers := tset s.dev.timers (port * 16 + n)
        { k with fired := true, cmp := (k.cmp + k.period) % 2 ^ 64, last := some s.clock.now } }.recDevTo s.ctx port
        .log 0x201 (source 17 (16 + n)) (wd port) 0 0))) ∧
  (∀ f : Fn, s.dev.fnLive f = true →
    ∀ s₀ : State, s = s₀.reach (pcieKey f.port) →
      exec (.timeNowLoRead f) s₀ = .next (s.withDev ({ s.dev with nowHi := tset s.dev.nowHi f.idx (hiW s.clock.now) }.out
      (.readData f (leBytes 4 (s.clock.now % 2 ^ 32)) false)))) ∧
  (∀ (f : Fn) (off b k : Nat) (r : RegDesc × Nat), s.dev.fnLive f = true → s.dev.boot.state = 6 → off % 4 = 0 → regAt off = some r →
    b = off / 0x10000 → (b = 4 ∨ b = 8 ∨ b = 9 ∨ b = 11 ∨ b = 12 ∨ b = 13) → r.1.mask .rc ≠ 0 → (f.num = 0 ∨ r.1.vf = true) →
    regKeyOf r.1 (s.dev.viewPart f) off = some k → latchOf off = none →
    ∀ s₀ : State, s = s₀.reach (pcieKey f.port) →
      exec (.readClearCounter ⟨f, .bar0⟩ ⟨off, 4⟩) s₀ = .next (s.withDev ((s.dev.withCnt (tdel s.dev.regs.cnt k)).out
        (.readData f (leBytes 4 (s.dev.regRead s.ctx f off)) false)))) ∧
  (∀ f : Fn, s.dev.fnLive f = true → s.dev.boot.state = 6 → ∀ s₀ : State, s = s₀.reach (pcieKey f.port) →
    ∃ t, exec (.readClearCounter ⟨f, .bar0⟩ ⟨0x110000, 8⟩) s₀ = .next t ∧
      t.dev.outs = .readData f (leBytes 4 (s.clock.now % 2 ^ 32) ++ leBytes 4 (s.clock.now / 2 ^ 32 % 2 ^ 32)) false :: s.dev.outs) ∧
  (∀ (f : Fn) (off : Nat), s.dev.fnLive f = true → off % 4 ≠ 0 → ∀ s₀ : State, s = s₀.reach (pcieKey f.port) →
    exec (.readClearCounter ⟨f, .bar0⟩ ⟨off, 4⟩) s₀ = .next (s.withDev (s.dev.out (.readData f [0, 0, 0, 0] false)))) ∧
  (∀ (f : Fn) (off b k sc : Nat) (v : BitVec 64) (r : RegDesc × Nat), s.dev.fnLive f = true → s.dev.writable = true → off % 4 = 0 →
    regAt off = some r → b = off / 0x10000 → (b = 3 ∨ b = 4 ∨ b = 5 ∨ b = 8 ∨ b = 9 ∨ b = 11 ∨ b = 12 ∨ b = 13) → r.1.mask .sh ≠ 0 →
    (f.num = 0 ∨ r.1.vf = true) → regScopeKey r.1 (s.dev.viewPart f) = some sc → regKeyOf r.1 (s.dev.viewPart f) off = some k →
    s.dev.sliceBusy sc b = false →
    ∀ s₀ : State, s = s₀.reach (pcieKey f.port) →
      exec (.registerWrite f .bar0 ⟨off, 4⟩ v) s₀ = .next (s.withDev { s.dev with regs := { s.dev.regs with
        shd := tset s.dev.regs.shd k
          ((s.dev.shdV k off &&& (top32 - r.1.shBits off)) ||| ((v.setWidth 32 : Word).toNat &&& r.1.shBits off)) } })) ∧
  (∀ (f : Fn) (off size : Nat) (v : BitVec 64) (s₀ : State), s = s₀.reach (pcieKey f.port) → exec (.registerWrite f .bar4 ⟨off, size⟩ v) s₀ = .next s)

/-- The check-value unit (R454-R456) and the meter's use of it (R401): CLAIM makes a PF the owner of a free unit, the owner's data is fed byte
by byte, the meter's take and release clear the value and keep the owner, and what waited is applied in order. -/
def Obligations.CheckValueUnitRowsTakeEffect : Prop :=
  ∀ (s : State) (f : Fn), s.clock.power = true → f.num = 0 → s.dev.fnLive f = true → s.dev.writable = true →
  (s.dev.crc.meter = false →
    (s.dev.crc.owner = 0 →
      ∀ s₀ : State, s = s₀.reach (pcieKey f.port) →
        exec (.crcClaim f) s₀ = .next (s.withDev { s.dev with crc := { s.dev.crc with owner := 2 + f.port } })) ∧
    (s.dev.crc.owner = 2 + f.port →
      (∀ s₀ : State, s = s₀.reach (pcieKey f.port) →
        exec (.crcInit f) s₀ = .next (s.withDev { s.dev with crc := { s.dev.crc with value := 0xFFFFFFFF#32 } })) ∧
      (∀ s₀ : State, s = s₀.reach (pcieKey f.port) →
        exec (.crcRelease f) s₀ = .next (s.withDev { s.dev with crc := { s.dev.crc with owner := 0 } })) ∧
      (∀ w : Word, ∀ s₀ : State, s = s₀.reach (pcieKey f.port) → exec (.crcIn8 f w) s₀ = .next (s.withDev { s.dev with crc := { s.dev.crc with
        value := crcByte s.dev.crc.value (w.extractLsb' 0 8) } })) ∧
      (∀ w : Word, ∀ s₀ : State, s = s₀.reach (pcieKey f.port) → exec (.crcIn16 f w) s₀ = .next (s.withDev { s.dev with crc := { s.dev.crc with
        value := crcByte (crcByte s.dev.crc.value (w.extractLsb' 0 8)) (w.extractLsb' 8 8) } })) ∧
      (∀ w : Word, ∀ s₀ : State, s = s₀.reach (pcieKey f.port) → exec (.crcIn32 f w) s₀ = .next (s.withDev { s.dev with crc := { s.dev.crc with
        value := crcByte (crcByte (crcByte (crcByte s.dev.crc.value (w.extractLsb' 0 8)) (w.extractLsb' 8 8)) (w.extractLsb' 16 8))
          (w.extractLsb' 24 8) } }))) ∧
    (∀ w : Word, s.dev.crc.owner ≠ 2 + f.port →
      ∀ s₀ : State, s = s₀.reach (pcieKey f.port) →
        exec (.crcIn8 f w) s₀ = .next (s.withDev { s.dev with crc := { s.dev.crc with refused := min 0xFFFFFFFF (s.dev.crc.refused + 1) } })) ∧
    exec .meterCrcTake s = .next (s.withDev { s.dev with crc := { s.dev.crc with
      meter := true, value := 0xFFFFFFFF#32, epoch := (s.dev.crc.epoch + 1) % 2 ^ 16 } })) ∧
  (s.dev.crc.meter = true →
    (∀ w : Word, ∀ s₀ : State, s = s₀.reach (pcieKey f.port) → exec (.crcIn32 f w) s₀ =
      .next (s.withDev { s.dev with crc := { s.dev.crc with waiting := s.dev.crc.waiting ++ [(f.port, .data 4 w)] } })) ∧
    exec .meterCrcRelease s = .next (s.withDev { s.dev with crc :=
      { s.dev.crc with meter := false, value := 0xFFFFFFFF#32, waiting := [] }.applyAll s.dev.crc.waiting }))

/-- Start-up (R447-R449): the stages end in order, the tick starts with device time 0 at the end of stage 1, the module is READY when stage 7 ends,
  and
the stages that can fail stop in their failure states. -/
def Obligations.StartupStagesEnd : Prop :=
  ∀ (s : State), s.clock.power = true →
  (∀ f : Option Nat, s.dev.boot.stage = 1 →
    exec (.startupStageEnd f) s = .next { s with
      clock := { s.clock with tick := true, now := 0, order := 0 }, dev := { s.dev with boot := { s.dev.boot with stage := 2, state := 1 } } }) ∧
  (s.dev.boot.stage = 2 → s.fuses.bad = none →
    exec (.startupStageEnd none) s = .next (s.withDev { s.dev with boot := { s.dev.boot with stage := 3, state := 2 } })) ∧
  (∀ n : Nat, s.dev.boot.stage = 2 →
    exec (.startupStageEnd (some n)) s =
      .next (s.withDev { s.dev with boot := { s.dev.boot with state := 8, detail := n % 256, stage := 0 } })) ∧
  (s.dev.boot.stage = 3 → s.store.valid s.fuses s.store.preferred = true →
    exec (.startupStageEnd none) s = .next (s.withDev { s.dev with boot := { s.dev.boot with
      stage := 4, state := 2, bank := s.store.preferred, fallback := false, images := s.store.running s.store.preferred } })) ∧
  (s.dev.boot.stage = 5 →
    exec (.startupStageEnd none) s = .next (s.withDev { s.dev with boot := { s.dev.boot with stage := 6, state := 4 } })) ∧
  (∀ n : Nat, s.dev.boot.stage = 5 →
    exec (.startupStageEnd (some n)) s =
      .next (s.withDev { s.dev with boot := { s.dev.boot with state := 10, detail := n % 256, stage := 0 } })) ∧
  (s.dev.boot.stage = 6 →
    exec (.startupStageEnd none) s = .next (s.withDev { s.dev with
      nand := s.dev.nand.mount, boot := { s.dev.boot with stage := 7, state := 5 } })) ∧
  (∀ n : Nat, s.dev.boot.stage = 6 →
    exec (.startupStageEnd (some n)) s =
      .next (s.withDev { s.dev with boot := { s.dev.boot with state := 11, detail := n % 256, stage := 0 } })) ∧
  (∀ f : Option Nat, s.dev.boot.stage = 7 →
    ∃ t, exec (.startupStageEnd f) s = .next t ∧ t.dev.boot.state = 6 ∧ t.dev.boot.stage = 8 ∧ t.dev.ready = true ∧ t.clock = s.clock ∧
      t.fuses = s.fuses ∧ t.store = s.store)

/-- Resets (R439-R442): a request falls due 12,500 ticks after its acceptance, and each scope's reset takes effect in its tick. A device reset leaves
device time, the fuses, the image store, the meter and NAND. -/
def Obligations.ResetRowsTakeEffect : Prop :=
  (∀ (s₀ s : State) (c : Cmd) (r : CmdRec), s = s₀.reach (cmdKey c) →
    Started 0x0F30 c r s → (reqOf c r).clean [(2, 7)] = true → 1 ≤ (reqOf c r).f 2 2 0 →
    (reqOf c r).f 2 2 0 ≤ 3 → s.dev.halted = false →
    exec (.devReset c) s₀ = .next (s.answered r .ok [loW (s.clock.now + 12500), hiW (s.clock.now + 12500)]
      { s.dev with boot := { s.dev.boot with
        resets := s.dev.boot.resets ++ [((reqOf c r).f 2 2 0 * 4 + 1, s.clock.now + 12500)] } })) ∧
  (∀ (s : State) (f : Fn) (w : Word), s.clock.power = true → s.dev.isCtrl f = true → wfld w 31 24 = 0xA5 → 1 ≤ wfld w 2 0 → wfld w 2 0 ≤ 3 →
    s.dev.halted = false →
    ∀ s₀ : State, s = s₀.reach (pcieKey f.port) → exec (.devResetCtrlWrite f w) s₀ = .next (s.withDev { s.dev with boot := { s.dev.boot with
      resets := s.dev.boot.resets ++ [(wfld w 2 0 * 4 + 2, s.clock.now + 12500)] } })) ∧
  (∀ (s : State) (src : Nat), s.clock.power = true → s.dev.resetDue s.clock.now s.clock.tick 1 = some src →
    ∀ s₀ : State, s = s₀.reach (evKey 2 0 0) →
      ∃ t, exec .deviceReset s₀ = .next t ∧ t.clock = { s.clock with tick := true } ∧ t.dev.boot.stage = 2 ∧ t.dev.boot.source = src ∧
      t.dev.boot.scope = 1 ∧ t.dev.mem = MemState.reset ∧ t.dev.ses = Dev.reset.ses ∧ t.dev.cmds = [] ∧ t.dev.commits = [] ∧
      t.dev.nand = s.dev.nand ∧ t.dev.sec.debug = (s.dev.sec.debug || s.dev.sec.pend) ∧ t.meter = s.meter ∧ t.fuses = s.fuses ∧
      t.store = s.store) ∧
  (∀ (s : State) (src : Nat), s.clock.power = true → s.dev.resetDue s.clock.now s.clock.tick 2 = some src →
    (∀ s₀ : State, s = s₀.reach (evKey 2 0 0) →
      exec .gridReset s₀ = .next (s.withDev ((((s.dev.gridReset s.ctx).resetMade 2 src).schedule s.ctx).reedSettle s.ctx))) ∧
      (s.dev.gridReset s.ctx).grid.cores = [] ∧ (s.dev.gridReset s.ctx).grid.ls = [] ∧ (s.dev.gridReset s.ctx).grid.msgs = []) ∧
  (∀ (s : State) (src : Nat), s.clock.power = true → s.dev.resetDue s.clock.now s.clock.tick 3 = some src →
    ∀ s₀ : State, s = s₀.reach (evKey 2 0 0) →
      exec .glumeReset s₀ = .next (s.withDev ((((s.dev.glumeReset s.ctx).resetMade 3 src).schedule s.ctx).reedSettle s.ctx)))

/-- Loss of the tick or of the control cores, faults of control cores, and scrubs (R421-R427). -/
def Obligations.FaultRowsTakeEffect : Prop :=
  ∀ (s : State), s.clock.power = true →
  (∀ s₀ : State, s = s₀.reach (evKey 1 0 0) →
    ∃ t, exec (.tickLossHalt 1) s₀ = .next t ∧ t.dev.halted = true ∧ t.dev.boot.state = 12 ∧ t.clock = { s.clock with tick := false } ∧
    .aer 0 ∈ t.dev.outs ∧ .aer 1 ∈ t.dev.outs ∧ t.fuses = s.fuses ∧ t.meter = s.meter) ∧
  (∀ s₀ : State, s = s₀.reach (evKey 1 0 0) →
    ∃ t, exec (.tickLossHalt 2) s₀ = .next t ∧ t.dev.halted = true ∧ t.dev.boot.state = 12 ∧ t.clock = s.clock ∧ t.dev.cmds = [] ∧
    t.dev.ops = []) ∧
  (∀ core : Nat, core ≤ 7 → thas s.dev.offline (source 1 core) = false → tget s.dev.faultAt (source 1 core) = none →
    ∀ s₀ : State, s = s₀.reach (evKey 1 0 (source 1 core)) →
      ∃ t, exec (.controlCoreFault core) s₀ = .next t ∧ (∀ e ∈ t.dev.cmds, e ∈ s.dev.cmds ∧ Config.controlCore e.seq % 8 ≠ core) ∧
      tget t.dev.faultAt (source 1 core) = some s.clock.now ∧ t.dev.halted = s.dev.halted ∧ t.dev.mem = s.dev.mem) ∧
  (∀ (b u i : Nat), ∀ s₀ : State, s = s₀.reach (evKey 1 0 (source b u)) →
    exec (.sramScrub b u i .corrected) s₀ = .next (s.withDev (s.dev.bumpDev 0x0F0114 1))) ∧
  (∀ (u i : Nat), u < 256 → i < 0x60000 → tget s.dev.faultAt (source 6 u) = none →
    ∀ s₀ : State, s = s₀.reach (evKey 1 0 (source 6 u)) →
      ∃ d : Dev, exec (.sramScrub 6 u i .uncorrectable) s₀ = .next (s.withDev (d.schedule s.ctx)) ∧ d.lsBad u (8 * i) 8 = true ∧
      tget d.faultAt (source 6 u) = some s.clock.now ∧ d.grid.ls = s.dev.grid.ls ∧ d.mem = s.dev.mem) ∧
  (∀ (u : Nat) (l : List Nat), 0x100 ≤ u → u < 0x200 → thas s.dev.offline (source 6 u) = false →
    ∀ s₀ : State, s = s₀.reach (evKey 1 0 (source 6 u)) → exec (.nocLinkFault u l) s₀ =
      .next (s.withDev ((l.foldl (fun d n => d.coreOff s.ctx n) (s.dev.markOffline s.ctx (source 6 u))).schedule s.ctx))) ∧
  (∀ a : Nat, isHbm a = true → a / 32 ∉ s.dev.mem.poison → stackOff a / 32 ≠ stackBytes / 32 - 1 →
    (∀ s₀ : State, s = s₀.reach (evKey 1 0 (source 5 (unitOf a))) → exec (.scrubRead a .corrected) s₀ = .next (s.withDev (s.dev.hbmCe s.ctx a))) ∧
    ∀ s₀ : State, s = s₀.reach (evKey 1 0 (source 5 (unitOf a))) →
      ∃ t, exec (.scrubRead a .uncorrectable) s₀ = .next t ∧ t.dev.mem.poison = addNums [a / 32] s.dev.mem.poison ∧
      t.dev.mem.cells = s.dev.mem.cells ∧ t.dev.ses = s.dev.ses) ∧
  (∀ u : Nat, u < 512 → (s.dev.gunit u).ceDue = true →
    exec (.ceRate u) s = .next (s.withDev ((s.dev.setGunit u { s.dev.gunit u with ceDue := false }).recDev s.ctx .alarm 8 (source 5 u)
      (wd (ceRecent s.clock.now (s.dev.gunit u).ceTicks).length) 0 0)))

/-- Event rings (R433-R438): enabling, freeing entries, and the delivery of the oldest staged record to a free entry. -/
def Obligations.EventRingRowsTakeEffect : Prop :=
  ∀ (s : State) (f : Fn), s.clock.power = true →
  (∀ w : Word, s.dev.fnLive f = true → s.dev.writable = true → (s.dev.eq f.idx).en = false → bitAt w.toNat 31 = true →
    (s.dev.eq f.idx).base % 4096 = 0 → 8 ≤ wfld w 3 0 → wfld w 3 0 ≤ 14 → s.dev.bindOk f = true →
    ∀ s₀ : State, s = s₀.reach (pcieKey f.port) →
      exec (.fltEqEnable f w) s₀ = .next (s.withDev { s.dev with eqs := tset s.dev.eqs f.idx { s.dev.eq f.idx with
      size := wfld w 3 0, en := true, head := 0, tail := 0, phase := true, unsig := 0, firstUnsig := none } })) ∧
  (∀ w : Word, s.dev.fnLive f = true → s.dev.writable = true →
    ∀ s₀ : State, s = s₀.reach (pcieKey f.port) →
      exec (.fltEqHeadWrite f w) s₀ = .next (s.withDev { s.dev with eqs := tset s.dev.eqs f.idx { s.dev.eq f.idx with head := wfld w 13 0 } })) ∧
  (∀ (k : Nat) (p : Path) (a : Rec) (l : List Rec), s.dev.pathFn k = some f → tget s.dev.paths k = some p → p.staged = a :: l →
    p.sinceT + p.sinceL + p.sinceF = 0 → (s.dev.eq f.idx).en = true → (s.dev.port f.port).lost = false →
    ((s.dev.eq f.idx).tail + 1) % (s.dev.eq f.idx).cap ≠ (s.dev.eq f.idx).head →
    ∃ t, exec (.eventRecordDeliver k) s = .next t ∧
      .event f ((s.dev.eq f.idx).base + 32 * (s.dev.eq f.idx).tail) (a.bytes (s.dev.eq f.idx).phase) ∈ t.dev.outs ∧ tget t.dev.paths k = some { p with staged := l } ∧
      (t.dev.eq f.idx).tail = ((s.dev.eq f.idx).tail + 1) % (s.dev.eq f.idx).cap ∧ t.dev.rqs = s.dev.rqs ∧ t.dev.mem = s.dev.mem)

/-- The session commands (R73-R75, R80-R84, R95-R98, R102, R106), each answered or accepted on a session in a state that the command takes. -/
def Obligations.SessionCommandsComplete : Prop :=
  ∀ (s₀ s : State) (c : Cmd) (r : CmdRec) (q : Req), s = s₀.reach (cmdKey c) → q = reqOf c r →
  (∀ (m : Mdl) (v die comp win : Nat) (h : Word) (d : Dev), Started 0x0100 c r s →
    q.clean [(2, top32), (3, top32), (4, top32), (5, 3)] = true → s.dev.mdl (q.f 2 15 0) = some m → m.part = q.part → m.img.headDim % 32 = 0 →
    q.f 5 1 0 ≠ 3 → (q.f 4 15 0 = 0 ∨ (q.f 4 15 0 % 64 = 0 ∧ q.f 4 15 0 ≤ 16384)) →
    (q.f 4 31 16 = 0 ∨ q.f 4 31 16 = 0xFFFF ∨ ∃ k, s.dev.mdl (q.f 4 31 16) = some k ∧ k.part = q.part) →
    s.dev.bindAdapter q.part (q.f 2 15 0) (q.f 2 31 16) = some v → s.dev.prefixOk q.part (q.f 2 15 0) v (q.w 3).toNat = true →
    die = s.dev.chooseDie q.part (q.f 5 1 0) →
    comp = (if q.f 4 31 16 = 0xFFFF then 0 else if q.f 4 31 16 = 0 then fld (s.dev.partReg q.part 0x030008) 15 0 else q.f 4 31 16) →
    win = (if q.f 4 15 0 = 0 then fld (s.dev.partReg q.part 0x030000) 14 0 else q.f 4 15 0) →
    s.dev.newSes s.ctx q.part die (q.f 2 15 0) v (q.w 3).toNat comp win .opened none = some (h, d) →
    exec (.sesOpen c) s₀ = .next (s.answered r .ok [h, wd (v + die * 65536)] (d.sesXchg s.ctx h)) ∧
      ∃ e, tget d.ses.tbl (hKey h) = some e ∧ e.state = .opened ∧ e.model = q.f 2 15 0 ∧ e.adapter = v ∧ e.pfx = (q.w 3).toNat ∧
        e.window = win ∧ e.compressor = comp ∧ e.die = die ∧ 1 ≤ e.gen ∧ e.gen ≤ 15) ∧
  (∀ (e : Ses) (d : Dev), Started 0x0101 c r s → s.dev.lookup q.part (q.w 2) = .ok e → q.clean [(2, top32), (3, 3)] = true → e.state = .warm →
    (s.dev.ckpHolds (q.w 2) = true → exec (.sesPark c) s₀ = .next (s.acceptedAs c r [] (.held 0x0101 q.words) s.dev)) ∧
    (s.dev.ckpHolds (q.w 2) = false →
      s.dev.parkBegin s.ctx (q.w 2) q.seq (bitAt (q.w 3).toNat 1) (bitAt (q.w 3).toNat 0) = (true, d) →
      exec (.sesPark c) s₀ = .next (s.acceptedAs c r [] (.parkSes (q.w 2)) d)) ∧
    (s.dev.ckpHolds (q.w 2) = false →
      s.dev.parkBegin s.ctx (q.w 2) q.seq (bitAt (q.w 3).toNat 1) (bitAt (q.w 3).toNat 0) = (false, d) →
      exec (.sesPark c) s₀ = .next (s.acceptedDone r [] .doesNotFit [] (d.parkBack s.ctx (q.w 2))))) ∧
  (∀ e : Ses, Started 0x0102 c r s → s.dev.lookup q.part (q.w 2) = .ok e → q.clean [(2, top32), (3, 1)] = true →
    (e.state = .warm → bitAt (q.w 3).toNat 0 = true ∨ e.pend = [] →
      exec (.sesRevive c) s₀ = .next (s.acceptedDone r [] .ok [wd 4] s.dev)) ∧
    (e.state = .warm → bitAt (q.w 3).toNat 0 = false → e.pend ≠ [] →
      exec (.sesRevive c) s₀ = .next (s.acceptedDone r [] .ok [wd 1] ((s.dev.enterOpen s.ctx (q.w 2)).schedule s.ctx))) ∧
    (e.state = .parked → e.move = none →
      exec (.sesRevive c) s₀ = .next (s.acceptedAs c r [] (.reviveSes (q.w 2)) (s.dev.startRevive s.ctx (q.w 2)
        { Movement.new 2 q.seq false with restoreOnly := bitAt (q.w 3).toNat 0 }))) ∧
    (∀ m : Movement, e.state = .parked → e.move = some m →
      exec (.sesRevive c) s₀ = .next (s.acceptedAs c r [] (.reviveSes (q.w 2)) (s.dev.setSes (q.w 2)
        { e with move := some { m with restoreOnly := bitAt (q.w 3).toNat 0 && (m.restoreOnly || m.byWake) } })))) ∧
  (∀ e : Ses, Started 0x0103 c r s → s.dev.lookup q.part (q.w 2) = .ok e → q.clean [(2, top32)] = true →
    s.dev.ckpHolds (q.w 2) = false →
    (e.state = .running ∨ e.state = .moving →
      exec (.sesClose c) s₀ = .next (s.acceptedAs c r [] (.closeSes (q.w 2))
        (s.dev.setSes (q.w 2) { e with closePending := true, closeOp := q.seq }))) ∧
    (e.state = .opened ∨ e.state = .waiting ∨ e.state = .warm ∨ e.state = .parked →
      exec (.sesClose c) s₀ = .next (s.acceptedAs c r [] (.closeSes (q.w 2))
        (((s.dev.setSes (q.w 2) { e with closeOp := q.seq }).enterClosing s.ctx (q.w 2)).schedule s.ctx)))) ∧
  (∀ e : Ses, Started 0x0105 c r s → s.dev.lookup q.part (q.w 2) = .ok e → q.clean [(2, top32), (3, top32), (4, top32)] = true →
    q.d2 3 % 128 = 0 →
    exec (.sesQuery c) s₀ = .next (s.answered r .ok [wd (e.word0 (q.w 2)), wd e.ctx, wd e.pend.length, wd e.word34]
      (if q.d2 3 = 0 then s.dev else s.dev.out (.hostWrite r.fn.port (q.d2 3) (e.image (q.w 2)))))) ∧
  (∀ e t : Ses, Started 0x0107 c r s → s.dev.lookup q.part (q.w 2) = .ok e →
    q.clean [(2, top32), (3, 0x11F37), (4, top32), (5, top32), (6, top32), (7, 0x1FFF00FF), (8, top32), (9, top32)] = true →
    q.f 7 28 16 ≤ 4096 → e.state ≠ .free → e.state ≠ .closing → (e.state = .moving → ∀ m, e.move = some m → m.kind ≠ 3) →
    t = { e with wakeAll := bitAt (q.w 3).toNat 16, waitTicks := q.d2 8 } →
    (q.f 3 5 4 = 0 → 1 ≤ q.f 3 11 8 → q.f 3 11 8 ≤ 3 → e.state ≠ .warm →
      exec (.sesAwait c) s₀ = .next (s.answered r .ok [wd ({ t with slots := t.slots.set (q.f 3 2 0) (awaitSlot q false) } : Ses).word34]
        (s.dev.setSes (q.w 2) { t with slots := t.slots.set (q.f 3 2 0) (awaitSlot q false) }))) ∧
    (∀ u : Ses, q.f 3 5 4 = 0 → 1 ≤ q.f 3 11 8 → q.f 3 11 8 ≤ 3 → e.state = .warm →
      u = { t with slots := t.slots.set (q.f 3 2 0) (awaitSlot q true) } →
      exec (.sesAwait c) s₀ = .next (s.answered r .ok [wd ({ u with waitDeadline := u.deadlineAt s.clock.now } : Ses).word34]
        (s.dev.setSes (q.w 2) { u with waitDeadline := u.deadlineAt s.clock.now }))) ∧
    (q.f 3 5 4 = 1 →
      exec (.sesAwait c) s₀ = .next (s.answered r .ok [wd ({ e with slots := e.slots.set (q.f 3 2 0) Slot.empty } : Ses).word34]
        ((s.dev.withdrawAll s.ctx (s.dev.slotEwrs (q.w 2) (q.f 3 2 0))).setSes (q.w 2)
          { e with slots := e.slots.set (q.f 3 2 0) Slot.empty }))) ∧
    (q.f 3 5 4 = 2 → exec (.sesAwait c) s₀ = .next (s.answered r .ok [wd t.word34] (s.dev.setSes (q.w 2) t)))) ∧
  (∀ (e : Ses) (l : Slot), Started 0x0108 c r s → s.dev.lookup q.part (q.w 2) = .ok e → e.slots[q.f 3 2 0]? = some l →
    q.clean [(2, top32), (3, 7)] = true → e.state ≠ .free → e.state ≠ .closing → (e.state = .moving → ∀ m, e.move = some m → m.kind ≠ 3) →
    l.prepared = true → l.kind = 3 →
    exec (.sesSignal c) s₀ = .next (s.answered r .ok [if e.wouldWake (q.f 3 2 0) then 1 else 0]
      (s.dev.slotEvent (q.w 2) (q.f 3 2 0) l.textOff l.textLen none)))

/-- The events of sessions (R76, R82-R88, R95, R98-R101). -/
def Obligations.SessionEventsTakeEffect : Prop :=
  ∀ (s : State) (h : Word) (e : Ses), s.clock.power = true → s.dev.sesOf h = some e →
  (∀ (n : Nat) (l : Slot), e.slots[n]? = some l →
    (l.due = true →
      ∀ s₀ : State, s = s₀.follow →
        exec (.slotFire h n l.len) s₀ = .next (s.withDev (((s.dev.fireSlot s.ctx h n).schedule s.ctx).reedSettle s.ctx))) ∧
    (l.due = true → l.plain = true → e.state ≠ .closing →
      s.dev.fireSlot s.ctx h n = ({ s.dev with ses := { s.dev.ses with
        tbl := tset s.dev.ses.tbl (hKey h) { e with slots := e.slots.set n Slot.empty } } } : Dev).sesLog s.ctx h 0x204 n l.len) ∧
    (l.kind = 2 → l.prepared = true → l.cmp ≤ s.clock.now → l.due = false → s.dev.slotBusy h n = false →
      ∀ s₀ : State, s = s₀.reach (evKey 8 0 (source 3 0)) →
        exec (.timerSlotFire h n) s₀ = .next (s.withDev (s.dev.slotEvent h n l.textOff l.textLen none)))) ∧
  (e.waitDeadline ≠ 0 → e.waitDeadline ≤ s.clock.now → e.state ≠ .closing →
    ∀ s₀ : State, s = s₀.reach (evKey 6 0 (source 3 0)) →
      exec (.waitExpiry h) s₀ = .next (s.withDev (((s.dev.withdrawAll s.ctx (e.armedNet.flatMap fun n => s.dev.slotEwrs h n)).setSes h
      { e with slots := e.slots.map (fun l => { l with armed := false, fired := false }), waitExpired := true, waitDeadline := 0 }).sesLog
        s.ctx h 0x205 0 0))) ∧
  (e.state = .warm → fld (s.dev.parkCfg (hPart h)) 19 0 ≠ 0 → e.since + fld (s.dev.parkCfg (hPart h)) 19 0 * ticksMs ≤ s.clock.now →
    s.dev.ckpHolds h = false → ∀ s₀ : State, s = s₀.reach internalKey →
      exec (.parkAfterExpiry h) s₀ = .next (s.withDev (s.dev.firmwarePark s.ctx h))) ∧
  (∀ die k : Nat, 262144 * fld (s.dev.devReg 0x030200) 6 0 < (s.dev.staged die - s.dev.parking die) * 100 →
    oldestWarm die s.dev.ses.tbl = some (k, e) → h = handleOf (k / 2 ^ 24) e.gen (k % 2 ^ 24) → s.dev.ckpHolds h = false →
    ∀ s₀ : State, s = s₀.reach internalKey → exec (.stagingHighPark die) s₀ = .next (s.withDev (s.dev.firmwarePark s.ctx h))) ∧
  (∀ m : Movement, e.move = some m →
    (e.state = .moving → m.kind = 1 → m.written = true → m.compressing = false →
      ∀ s₀ : State, s = s₀.reach (evKey 5 0 (source 3 0)) →
        exec (.parkWriteConfirmed h) s₀ = .next (s.withDev ((s.dev.parkDone s.ctx h).schedule s.ctx))) ∧
    (∀ s₀ : State, s = s₀.follow → exec (.stagingEntryFreeRevive h) s₀ = .next (s.withDev (s.dev.startRevive s.ctx h m))) ∧
    (m.readStarted = true → s.dev.submitting h = false →
      ∀ s₀ : State, s = s₀.reach (evKey 5 0 (source 3 0)) →
        exec (.reviveDecodeEnd h) s₀ = .next (s.withDev ((s.dev.reviveDecode s.ctx h).schedule s.ctx)))) ∧
  (e.state = .closing →
    ∀ s₀ : State, s = s₀.reach (evKey 5 0 (source 3 0)) → exec (.closeReleaseDone h) s₀ =
      .next (s.withDev ((((s.dev.releaseSes s.ctx h).closeReply s.ctx h e).unlatch s.ctx e.die).schedule s.ctx))) ∧
  (∀ (u : Nat) (res : NandRead), (s.dev.nandDone s.ctx u res).revivingFrom u = [] →
    ∀ s₀ : State, s = s₀.reach (evKey 5 0 (source 4 0)) →
      exec (.nandReadComplete u res) s₀ = .next (s.withDev ((s.dev.nandDone s.ctx u res).schedule s.ctx)))

/-- Moves of sessions between modules (R102-R105): the source's command and the events of both sides. -/
def Obligations.MoveRowsTakeEffect : Prop :=
  (∀ (s₀ s : State) (c : Cmd) (r : CmdRec) (q : Req) (e : Ses) (qp : Qp) (d d1 d2 : Dev) (img : List Byte) (ops : List Nat) (mv : Movement),
    s = s₀.reach (cmdKey c) → q = reqOf c r → Started 0x0104 c r s → s.dev.lookup q.part (q.w 2) = .ok e →
    q.clean [(2, top32), (3, 0xFFFFF), (4, top32), (5, 1), (6, top32), (7, 0xFF), (8, top32)] = true → (q.w 4).toNat ≠ 0 →
    (q.w 4).toNat ≤ 0xFFFEFFFF → s.dev.ckpHolds (q.w 2) = false →
    s.dev.moveQp q.part (q.f 3 19 0) = .ok qp → s.dev.ewrPost q.part (q.f 3 19 0) (q.w 4).toNat 0 128 true none = .ok d →
    (e.state = .parked ∧ d.readObj e.parkLoc = some img ∨
      e.state = .warm ∧ d.kvBad (d.kvOr e) = false ∧ d.encode q.part e true false = img) →
    d1 = (if e.state = .warm then ({ d with free := d.free + img.length } : Dev).kvUse s.ctx (q.w 2)
      else ({ d with free := d.free + img.length } : Dev).objUse s.ctx e.parkLoc).endRevives s.ctx (q.w 2) .aborted [] →
    (d1.dropSpills s.ctx (q.w 2)).postAll s.ctx q.part (q.f 3 19 0) 2 (q.w 8).toNat 0
      (((chunks (1024 * qp.mtu) (img.length / (1024 * qp.mtu) + 1) img).mapIdx fun i b =>
        (bufOff (q.w 6).toNat (q.f 7 7 0) + 0x1000 + i * (1024 * qp.mtu), b)).filter fun b => !b.2.isEmpty) = (ops, d2) →
    mv = ({ Movement.new 3 q.seq (e.state == .warm) with
      img := moveMsg 1 0 (q.w 4).toNat 0 img.length (bitAt (q.w 5).toNat 0) (Config.sha512 img)
      obj := if e.state = .warm then 0 else e.parkLoc
      qpn := q.f 3 19 0
      ident := (q.w 4).toNat
      target := bufOff (q.w 6).toNat (q.f 7 7 0)
      key := (q.w 8).toNat
      targetWarm := bitAt (q.w 5).toNat 0
      digest := Config.sha512 img
      sends := ops } : Movement) →
    exec (.sesMove c) s₀ = .next ((s.acceptedAs c r [] (.moveSes (q.w 2)) (d2.goto s.ctx (q.w 2) { e with move := some mv } .moving)).andThen
      fun x d => d.reedSettle x)) ∧
  (∀ (s₀ s : State) (c : Cmd) (r : CmdRec) (q : Req) (m : Mdl) (v : Nat) (qp : Qp) (d d1 : Dev) (h : Word), s = s₀.reach (cmdKey c) → q = reqOf c r →
    Started 0x0106 c r s → s.dev.mdl (q.f 2 15 0) = some m →
    q.clean [(2, top32), (3, top32), (4, 0xFFFFF), (5, top32), (6, top32), (7, 0x7FFFF), (8, top32)] = true → m.part = q.part →
    (q.w 5).toNat ≠ 0 → (q.w 5).toNat ≤ 0xFFFEFFFF → 1 ≤ (q.w 6).toNat → (q.w 6).toNat ≤ 60000 →
    s.dev.moveBuf q.part (q.f 7 18 0) (q.w 8).toNat = true → s.dev.bindAdapter q.part (q.f 2 15 0) (q.f 2 31 16) = some v →
    s.dev.prefixOk q.part (q.f 2 15 0) v (q.w 3).toNat = true → s.dev.moveQp q.part (q.f 4 19 0) = .ok qp →
    s.dev.ewrPost q.part (q.f 4 19 0) (q.w 5).toNat (q.f 7 18 0 * 2097152) 128 false none = .ok d →
    d.newSes s.ctx q.part (d.chooseDie q.part 0) (q.f 2 15 0) v (q.w 3).toNat (fld (d.partReg q.part 0x030008) 15 0)
      (fld (d.partReg q.part 0x030000) 14 0) .moving (some { Movement.new 4 q.seq false with
        qpn := q.f 4 19 0
        ident := (q.w 5).toNat
        deadline := s.clock.now + (q.w 6).toNat * ticksMs
        firstExt := q.f 7 18 0
        extCount := (q.w 8).toNat }) = some (h, d1) →
    exec (.sesMoveIn c) s₀ = .next (s.acceptedAs c r [h] (.moveIn h) d1)) ∧
  (∀ (s : State) (h : Word) (e : Ses) (m : Movement), s.clock.power = true → s.dev.sesOf h = some e → e.move = some m → e.state = .moving →
    (∀ d : Dev, m.kind = 4 → m.recOp ≠ 0 → thas s.dev.ops m.recOp = false → s.dev.net.failed.contains m.recOp = false →
      d = (if m.targetWarm then (s.dev.setSes h { e with move := none }).enterWarm s.ctx h else s.dev.goto s.ctx h { e with move := none } .parked) →
      ∀ s₀ : State, s = s₀.reach (evKey 5 0 (source 3 0)) →
        exec (.moveConfirmSendComplete h 0) s₀ = .next (s.withDev ((((d.endOp s.ctx m.op .ok
          [h, wd (if m.targetWarm then SesStateName.warm else .parked).code]).settle s.ctx h).unlatch s.ctx e.die).schedule s.ctx))) ∧
    (m.kind = 4 → m.recordIn = false → m.deadline ≤ s.clock.now →
      ∀ s₀ : State, s = s₀.reach (evKey 8 0 (source 3 0)) → exec (.moveInTimeout h) s₀ = .next (s.withDev (s.dev.moveInEnd s.ctx h .aborted))) ∧
    (∀ t0 : Nat, m.kind = 3 → m.sent = some t0 → t0 + 125000000 ≤ s.clock.now →
      ∀ s₀ : State, s = s₀.reach (evKey 8 0 (source 3 0)) →
        exec (.moveConfirmTimeout h) s₀ = .next (s.withDev ((s.dev.moveBack s.ctx h .aborted).schedule s.ctx)))) ∧
  (∀ (s : State) (n : Nat) (msg : List Byte) (h : Word) (e : Ses) (m : Movement), s.clock.power = true →
    (s.dev.moverOf 3 3 n msg = some (h, e, m) → leAt msg 6 2 = 0 →
      ∀ s₀ : State, s = s₀.follow → ∃ d : Dev, exec (.moveConfirmationArrival n msg) s₀ = .next (s.withDev d) ∧
        d = (((((((s.dev.dropEwr n m.ident).withdrawAll s.ctx
          ((List.range 8).flatMap fun k => (s.dev.dropEwr n m.ident).slotEwrs h k)).setPend h e []).releaseSes s.ctx h).endOp s.ctx m.op .ok
            [wd (leAt msg 12 4)]).closeReply s.ctx h e).unlatch s.ctx e.die).schedule s.ctx) ∧
    (s.dev.moverOf 3 3 n msg = some (h, e, m) → leAt msg 6 2 ≠ 0 →
      ∀ s₀ : State, s = s₀.follow → exec (.moveConfirmationArrival n msg) s₀ =
        .next (s.withDev (((s.dev.dropEwr n m.ident).moveBack s.ctx h (moveStatus (leAt msg 6 2))).schedule s.ctx))) ∧
    (s.dev.moverOf 4 2 n msg = some (h, e, m) → m.recordIn = false →
      ∀ s₀ : State, s = s₀.follow → exec (.moveAbortArrival n msg) s₀ = .next (s.withDev (s.dev.moveInEnd s.ctx h .aborted))) ∧
    (∀ d0 : Dev, s.dev.moverOf 4 1 n msg = some (h, e, m) → m.recordIn = false →
      s.dev.reach s.ctx .tiller (3, h.toNat) (s.dev.runAddrs (hPart h) (m.firstExt * 2097152) (m.extCount * 2097152)) = (.go, d0) →
      (m.extCount * 2097152 < leAt msg 16 8 + 0x1000 →
        ∀ d : Dev, (d0.dropEwr n m.ident).netPost s.ctx .tiller (hPart h) n 1
            (moveMsg 3 Status.integrity.code m.ident 0 0 false 0) 0 0 (wd m.ident) = some d →
          ∀ s₀ : State, s = s₀.follow → exec (.moveRecordArrival n msg) s₀ = .next (s.withDev (d.moveInEnd s.ctx h .integrity))) ∧
      (∀ (img : List Byte) (d1 d2 : Dev) (e2 : Ses), leAt msg 16 8 + 0x1000 ≤ m.extCount * 2097152 →
        (d0.dropEwr n m.ident).bufRead (hPart h) (m.firstExt * 2097152 + 0x1000) (leAt msg 16 8) = some (img, false) →
        Config.sha512 img = BitVec.ofNat 512 (leAt msg 32 64) → hdrOk img ((d0.dropEwr n m.ident).geoOf e.model) = true → sectionsOk img = true →
        (d0.dropEwr n m.ident).moveKeep h e { m with recordIn := true, targetWarm := bitAt (leAt msg 24 1) 0 } img = some d1 →
        d1.netPost s.ctx .tiller (hPart h) n 1 (moveMsg 3 0 m.ident h.toNat 0 false 0) 0 0 (wd m.ident) = some d2 → d2.sesOf h = some e2 →
        ∀ s₀ : State, s = s₀.follow → exec (.moveRecordArrival n msg) s₀ = .next (s.withDev ((d2.setSes h
          { e2 with move := e2.move.map fun m => { m with recOp := d1.nextSeq } }).reedSettle s.ctx)))))

/-- The commands of the memory family (R111-R119, R133-R137): what a command takes is resolved before it acts, and each is answered, or accepted
with the operation that carries it out. -/
def Obligations.MemoryCommandsComplete : Prop :=
  ∀ (s : State) (c : Cmd) (r : CmdRec) (q : Req), q = reqOf c r →
  (∀ (sts es : List Nat) (d : Dev), Started 0x0200 c r s → q.clean [(2, 0x7FFFF), (3, 0xFFFFF), (4, 0x1F)] = true →
    mapStacks (q.f 4 4 0) = some sts → runOk q.first q.count = true → s.dev.anyMapped q.part (runExts q.first q.count) = false →
    s.dev.hbmUsed q.part + 64 * q.count ≤ s.dev.hbmQuota q.part → s.dev.takeExts q.part sts q.count = some (es, d) →
    ∀ s₀ : State, s = s₀.reach (cmdKey c) → exec (.memBufMap c) s₀ = .next (s.answered r .ok [wd q.count] (d.mapRun q.part [] q.first es))) ∧
  (Started 0x0201 c r s → q.clean [(2, 0x7FFFF), (3, 0xFFFFF)] = true → runOk q.first q.count = true →
    s.dev.anyFrozen q.part (runExts q.first q.count) = false → (runExts q.first q.count).any (s.dev.extIndexed q.part) = false →
    (s.dev.runPinned q.part q.first q.count = false → s.dev.runHeld q.seq q.part q.first q.count = false →
      ∀ s₀ : State, s = s₀.reach (cmdKey c) → exec (.memBufUnmap c) s₀ = .next (s.acceptedDone r [] .ok [wd (s.dev.unmapRun q.part q.first q.count).1]
        (s.dev.unmapRun q.part q.first q.count).2)) ∧
    (s.dev.runPinned q.part q.first q.count = true →
      ∀ s₀ : State, s = s₀.reach (cmdKey c) → exec (.memBufUnmap c) s₀ = .next (s.acceptedAs c r [] (.unmap q.first q.count) s.dev))) ∧
  (∀ (es : List Nat) (d : Dev), Started 0x0202 c r s → q.clean [(2, 0x7FFFF), (3, 0xFFFFF), (4, 0xF)] = true → runOk q.first q.count = true →
    s.dev.allMapped q.part (runExts q.first q.count) = true →
    (∀ i ∈ s.dev.pan.idx, i.2.part = q.part → i.2.die ≠ stackDie (q.f 4 3 0) →
      ∀ e ∈ runExts q.first q.count, e < i.2.first ∨ i.2.first + i.2.count ≤ e) →
    s.dev.hbmUsed q.part + 64 * q.count ≤ s.dev.hbmQuota q.part → s.dev.takeExts q.part [q.f 4 3 0] q.count = some (es, d) →
    ∀ s₀ : State, s = s₀.reach (cmdKey c) → exec (.memMove c) s₀ = .next (s.acceptedAs c r [] (.moveExt q.first es ⟨0, 0, false, false, 0⟩) (d.takeDesc q.seq))) ∧
  (∀ (off len : Nat) (l : List Piece), Started 0x0203 c r s →
    q.clean [(2, top32), (3, top32), (4, top32), (5, 0x800000FF), (6, top32)] = true →
    off = bufOff (q.w 4).toNat (q.f 5 7 0) → len = (q.w 6).toNat → 1 ≤ len → off + len ≤ 2 ^ 40 →
    s.dev.bufRun q.part true (runFuel len) off len = some l →
    (bitAt (q.w 5).toNat 31 = false →
      ∀ s₀ : State, s = s₀.reach (cmdKey c) → exec (.memXfer c) s₀ = .next (s.acceptedAs c r [] (.xfer (q.d2 2) off len false) (s.dev.takeDesc q.seq))) ∧
    (bitAt (q.w 5).toNat 31 = true →
      (runExts (off / 2097152) ((off + len - 1) / 2097152 + 1 - off / 2097152)).any (s.dev.extSealed q.part) = false →
      ∀ s₀ : State, s = s₀.reach (cmdKey c) → exec (.memXfer c) s₀ = .next ((s.acceptedAs c r [] (.xfer (q.d2 2) off len true) (s.dev.takeDesc q.seq)).andThen
        fun x d => d.xferOut x q.seq))) ∧
  (Started 0x0204 c r s → q.clean [(2, 0x7FFFF), (3, 0xFFFFF)] = true → runOk q.first q.count = true →
    s.dev.allWhole q.part (runExts q.first q.count) = true → s.dev.anyFrozen q.part (runExts q.first q.count) = false →
    (runExts q.first q.count).any (s.dev.extIndexed q.part) = false →
    ∀ s₀ : State, s = s₀.reach (cmdKey c) → exec (.memFreeze c) s₀ = .next (s.answered r .ok [wd (s.dev.freeze q.part q.first q.count false).1]
      (s.dev.freeze q.part q.first q.count false).2)) ∧
  (∀ o : Share, Started 0x0205 c r s → q.clean [(2, top32)] = true → s.dev.share (q.w 2).toNat = some o → o.part = q.part → o.own = true →
    ∀ s₀ : State, s = s₀.reach (cmdKey c) → exec (.memShareDrop c) s₀ = .next (s.answered r .ok [wd o.refs]
      ((s.dev.setShare (q.w 2).toNat { o with own := false }).shareCheck (q.w 2).toNat))) ∧
  (∀ off : Nat, Started 0x0206 c r s → q.clean [(2, top32), (3, 0xFF)] = true → off = bufOff (q.w 2).toNat (q.f 3 7 0) →
    (s.dev.bufHome q.part off = none → ∀ s₀ : State, s = s₀.reach (cmdKey c) → exec (.memWhere c) s₀ = .next (s.answered r .ok [0, 0, 0] s.dev)) ∧
    (∀ (u : Nat) (fr : Bool), s.dev.bufHome q.part off = some (.nand u, fr) →
      ∀ s₀ : State, s = s₀.reach (cmdKey c) → exec (.memWhere c) s₀ = .next (s.answered r .ok [wd ((if fr then 256 else 0) + 512), 0, 0] s.dev)) ∧
    (∀ (a : Nat) (fr : Bool), s.dev.bufHome q.part off = some (.hbm a, fr) →
      ∀ s₀ : State, s = s₀.reach (cmdKey c) → exec (.memWhere c) s₀ = .next (s.answered r .ok [wd (stackOf (a + off % 32768) + (if fr then 256 else 0) + 512),
        loW (a + off % 32768), hiW (a + off % 32768)] s.dev))) ∧
  (Started 0x0210 c r s → q.clean [(2, 0x7FFFF), (3, 0xFFFFF), (4, 1)] = true → runOk q.first q.count = true →
    s.dev.allMapped q.part (runExts q.first q.count) = true → s.dev.anyFrozen q.part (runExts q.first q.count) = false →
    (runExts q.first q.count).any (s.dev.extIndexed q.part) = false → s.dev.nandFits q.part (64 * q.count) = true →
    s.dev.regionInUse (q.f 4 0 0) + 64 * q.count ≤ s.dev.regionUnits (q.f 4 0 0 == 1) →
    ∀ s₀ : State, s = s₀.reach (cmdKey c) → exec (.memStore c) s₀ = .next (s.acceptedAs c r [] (.store q.first q.count (q.f 4 0 0) [] ⟨0, 0, false, false, 0⟩)
      (s.dev.takeDesc q.seq))) ∧
  (∀ (o : NandObj) (es : List Nat) (d : Dev), Started 0x0211 c r s → q.clean [(2, top32), (3, top32), (4, 0x7FFFF)] = true →
    s.dev.loading (q.d2 2) = false → s.dev.storeObj q.part (q.d2 2) = some o → runOk (q.f 4 18 0) ((o.units.length + 63) / 64) = true →
    s.dev.anyMapped q.part (runExts (q.f 4 18 0) ((o.units.length + 63) / 64)) = false →
    s.dev.allotExts q.part (List.range 16) ((o.units.length + 63) / 64) = some (es, d) →
    ∀ s₀ : State, s = s₀.reach (cmdKey c) → exec (.memLoad c) s₀ = .next (s.acceptedAs c r [] (.load (q.d2 2) (q.f 4 18 0) es ⟨0, 0, false, false, 0⟩)
      ((d.mapRun q.part (List.range 64) (q.f 4 18 0) es).takeDesc q.seq))) ∧
  (∀ o : NandObj, Started 0x0212 c r s → q.clean [(2, top32), (3, top32)] = true → s.dev.loading (q.d2 2) = false →
    s.dev.storeObj q.part (q.d2 2) = some o →
    ∀ s₀ : State, s = s₀.reach (cmdKey c) → exec (.memNandFree c) s₀ = .next (s.answered r .ok [] (s.dev.freeObj (q.d2 2)))) ∧
  (∀ v : Nat, Started 0x0220 c r s → q.clean [] = true → (s.dev.keysOf q.part).1.length < 4 →
    (List.range 63).find? (fun v => !(s.dev.keysOf q.part).1.contains (v + 1)) = some v →
    ∀ s₀ : State, s = s₀.reach (evKey 4 0 0) → exec (.memKeyRotate c) s₀ =
      .next (s.answered r .ok [wd (v + 1)] (s.dev.setKeys q.part (addNum (v + 1) (s.dev.keysOf q.part).1) (v + 1)))) ∧
  (Started 0x0221 c r s → q.clean [(2, 0x3F)] = true → q.f 2 5 0 ≠ (s.dev.keysOf q.part).2 →
    (s.dev.keysOf q.part).1.contains (q.f 2 5 0) = true → s.dev.unitsUnder q.part (q.f 2 5 0) = 0 →
    ∀ s₀ : State, s = s₀.reach (evKey 4 0 0) → exec (.memKeyRetire c) s₀ =
      .next (s.answered r .ok [] (s.dev.setKeys q.part ((s.dev.keysOf q.part).1.filter (· != q.f 2 5 0))
      (s.dev.keysOf q.part).2))) ∧
  (Started 0x0222 c r s → q.clean [] = true →
    ∀ s₀ : State, s = s₀.reach (cmdKey c) → exec (.memKeyStatus c) s₀ = .next (s.answered r .ok [wd (s.dev.keysOf q.part).2, loW (verMask (s.dev.keysOf q.part).1),
      hiW (verMask (s.dev.keysOf q.part).1), wd (s.dev.nandUsed q.part - s.dev.unitsUnder q.part (s.dev.keysOf q.part).2)] s.dev))

/-- Moves in granules (R112-R117, R137), waits for extents and descriptors (R59, R118), and the switch of a granule. -/
def Obligations.GranuleRowsTakeEffect : Prop :=
  ∀ (s : State) (id p : Nat) (src : CmdSrc) (ab : Bool), s.clock.power = true →
  (∀ first count : Nat, tget s.dev.ops id = some ⟨src, p, .unmap first count, ab⟩ → s.dev.runPinned p first count = false →
    s.dev.runHeld id p first count = false →
    ∀ s₀ : State, s = s₀.follow → exec (.bufUnmapResume id) s₀ =
      .next (s.withDev ((s.dev.unmapRun p first count).2.endOp s.ctx id .ok [wd (s.dev.unmapRun p first count).1]))) ∧
  (∀ (first a n : Nat) (dst : List Nat) (m : MoveProg), tget s.dev.ops id = some ⟨src, p, .moveExt first dst m, ab⟩ → m.copying = false →
    s.dev.hasDesc id = true → s.dev.runHeld id p first dst.length = false → s.dev.nextHeld p first dst.length m.next = some (n, .hbm a) →
    s.dev.pinned (gran a) = false → thas s.dev.mem.copying (gran a) = false →
    ∀ s₀ : State, s = s₀.follow → exec (.granuleCopyStart id) s₀ = .next (s.withDev
      (({ s.dev with mem := { s.dev.mem with copying := tset s.dev.mem.copying (gran a) id } } : Dev).setOp id
          (.moveExt first dst { m with copying := true })))) ∧
  (∀ (first n : Nat) (h : Home) (dst : List Nat) (m : MoveProg) (d : Dev),
    tget s.dev.ops id = some ⟨src, p, .moveExt first dst m, ab⟩ → m.copying = true →
    s.dev.reach s.ctx .culm (1, id) (s.dev.copyRanges ⟨src, p, .moveExt first dst m, ab⟩ false) = (.go, d) → d.nextHeld p first dst.length m.next = some (n, h) →
    (m.next + 1 < ((d.switchExt s.ctx p first (m.to dst n) n).heldRun p first dst.length).length → ab = false →
      ∀ s₀ : State, s = s₀.reach (evKey 5 0 (source 4 0)) →
        exec (.granuleSwitch id true) s₀ = .next (s.withDev ((d.switchExt s.ctx p first (m.to dst n) n).setOp id
        (.moveExt first dst ⟨m.next + 1, 0, false, false, 0⟩)))) ∧
    (((d.switchExt s.ctx p first (m.to dst n) n).heldRun p first dst.length).length ≤ m.next + 1 →
      ∀ s₀ : State, s = s₀.reach (evKey 5 0 (source 4 0)) → exec (.granuleSwitch id true) s₀ =
        .next (s.withDev ((d.switchExt s.ctx p first (m.to dst n) n).endMoveExt s.ctx id p first dst m.step .ok)))) ∧
  (∀ w : Nat, ∀ l : List Nat, s.dev.mem.culmWait = w :: l → nsum (s.dev.mem.culm.map Prod.snd) < 16384 →
    ∀ s₀ : State, s = s₀.follow → exec .descriptorWaitResume s₀ = .next (s.withDev (({ s.dev with mem := { s.dev.mem with
      culmWait := l, culm := tset s.dev.mem.culm w 1 } } : Dev).xferOut s.ctx w)))

/-- The parking tier's own work (R124-R134): confirmed and failed programs, failed dies, garbage collection, read disturb, wear levelling, the
re-encryption sweep and the reads of units. -/
def Obligations.ParkingTierRowsTakeEffect : Prop :=
  ∀ (s : State), s.clock.power = true →
  (∀ (id p a b n u : Nat) (src : CmdSrc) (us : List Nat) (m : MoveProg) (ab : Bool) (v : NUnit),
    tget s.dev.ops id = some ⟨src, p, .store a b n us m, ab⟩ → m.copying = true → (us.drop m.next).getLast? = some u →
    s.dev.nandWaits id = false → tget s.dev.nand.units u = some v →
    (∀ s₀ : State, s = s₀.reach (evKey 5 0 (source 4 0)) →
      exec (.ftlWriteConfirm id true) s₀ = .next (s.withDev (s.dev.setOp id (.store a b n us { m with conf := true })))) ∧
    ∀ s₀ : State, s = s₀.reach (evKey 5 0 (source 4 0)) → exec (.ftlWriteConfirm id false) s₀ = .next (s.withDev
      (({ s.dev with nand := { s.dev.nand with
        retired := addNum v.block s.dev.nand.retired
        blocks := tmod s.dev.nand.blocks v.block fun k => { k with region := 3 }
        open_ := s.dev.nand.open_.filter fun e => e.2.1 != v.block } } : Dev).relocateAll
        ((s.dev.nand.units.filter fun w => w.2.region == v.region && w.2.stripe == v.stripe).map Prod.fst)))) ∧
  (∀ die : Nat, die < 128 → s.dev.nand.failed.contains die = false → s.dev.nand.rebuilding = [] →
    ∀ s₀ : State, s = s₀.reach (evKey 1 0 (source 4 (0x100 + die))) →
      ∃ t, exec (.nandDieFailure die) s₀ = .next t ∧ t.dev.nand.units = s.dev.nand.units ∧ t.dev.nand.failed = addNum die s.dev.nand.failed ∧
      t.dev.nand.rebuilding = [die] ∧ t.dev.nand.objs = s.dev.nand.objs ∧ t.dev.mem = s.dev.mem ∧ t.dev.ses = s.dev.ses) ∧
  (∀ die : Nat, s.dev.nand.rebuilding.contains die = true →
    ∀ s₀ : State, s = s₀.reach (evKey 5 0 (source 4 (0x100 + die))) →
      exec (.dieRebuildComplete die) s₀ = .next (s.withDev { s.dev.relocateAll (s.dev.unitsOn die) with
        nand := { (s.dev.relocateAll (s.dev.unitsOn die)).nand with
          rebuilding := (s.dev.relocateAll (s.dev.unitsOn die)).nand.rebuilding.filter (· != die) } })) ∧
  (∀ region b : Nat, region < 2 → (s.dev.freeShare region < 3 ∨ s.dev.allotment region < s.dev.blocksUsed region) →
    s.dev.emptiest region s.dev.nand.blocks = some b →
    exec (.garbageCollect region) s = .next (s.withDev (s.dev.cleanBlock b))) ∧
  (∀ (b : Nat) (w : Bool) (k : NBlock), tget s.dev.nand.blocks b = some k → k.region < 2 →
    (w = true ∧ k.tired = true ∨ k.region = 0 ∧ 400000 ≤ k.reads ∨ k.region = 1 ∧ 60000 ≤ k.reads) →
    exec (.readDisturbRelocate b w) s = .next (s.withDev (s.dev.cleanBlock b))) ∧
  (∀ (b : Nat) (k : NBlock), tget s.dev.nand.blocks b = some k → k.region < 2 →
    (∀ o ∈ s.dev.nand.blocks, 2 ≤ o.2.region ∨ k.wear ≤ o.2.wear) →
    (∃ o ∈ s.dev.nand.blocks, s.dev.wearSum + 15000 * s.dev.goodBlocks < o.2.wear * s.dev.goodBlocks ∨
      o.2.wear * s.dev.goodBlocks + 15000 * s.dev.goodBlocks < s.dev.wearSum) →
    exec (.wearLevelMove b) s = .next (s.withDev (s.dev.cleanBlock b))) ∧
  (∀ (p u : Nat) (v : NUnit), tget s.dev.nand.units u = some v → v.part = p → v.key ≠ (s.dev.keysOf p).2 → v.state = 1 →
    fld (s.dev.partReg p 0x04000C) 11 0 ≠ 0 →
    ∀ s₀ : State, s = s₀.reach (evKey 5 0 (source 4 0)) → exec (.sweepUnitSwitch p u) s₀ = .next (s.withDev ((({ s.dev with nand := { s.dev.nand with
      units := tset s.dev.nand.units u { v with key := (s.dev.keysOf p).2 } } } : Dev).relocate u).shapeNand
        p 5 5 0 [u]))) ∧
  (∀ (u : Nat) (v : NUnit) (res : NandRead) (d : Dev), tget s.dev.nand.units u = some v →
    d = { s.dev with nand := { s.dev.nand with blocks := tmod s.dev.nand.blocks v.block fun k =>
      { k with reads := k.reads + 1, tired := k.tired || res == .worn } } } →
    (res ≠ .unreadable → res ≠ .rebuilt → s.dev.nand.failed.contains v.die = false ∨ v.state ≠ 1 →
      exec (.nandReadScan u res) s = .next (s.withDev d)) ∧
    (res ≠ .unreadable → res = .rebuilt ∨ s.dev.nand.failed.contains v.die = true ∧ v.state = 1 →
      exec (.nandReadScan u res) s = .next (s.withDev (d.recDev s.ctx .alarm 3 (source 4 (256 + v.die)) (wd u) 0 0))) ∧
    (res = .unreadable → exec (.nandReadScan u res) s = .next (s.withDev { d with nand := { d.nand with
      units := tset d.nand.units u { v with state := 2 } } })))

/-- The scalar operations of a core (R161-R163): results in the sequencer registers, of which s0 reads as zero, stores to the core's own local
store, branches, calls, and LOOP blocks. Whether an immediate and a load is sign-extended is open in the spec (immVal and loadVal
read it from Config, log entry 9). -/
def Obligations.CoreScalarOperationsTakeEffect : Prop :=
  (∀ (c : Core) (v : BitVec 64), c.wr 0 v = c ∧ c.rd 0 = 0) ∧
  (∀ (s : State) (n : Nat) (c : Core), CoreReady n c s →
    (∀ (o : AluOp) (rd rs rt : Nat), rd < 32 → rs < 32 → rt < 32 →
      exec (.coreScalarAlu n (some o) rd rs (.reg rt)) s = .next (s.coreAfter n (c.wr rd (aluVal 64 o (c.rd rs) (c.rd rt))) (c.pc + 8)) ∧
      exec (.coreScalarAlu n none rd rs (.reg rt)) s = .next (s.coreAfter n (c.wr rd (c.rd rs * c.rd rt)) (c.pc + 8))) ∧
    (∀ (rd rs : Nat) (v : BitVec 16), rd < 32 → rs < 32 →
      exec (.coreScalarAlu n (some .add) rd rs (.imm v)) s = .next (s.coreAfter n (c.wr rd (c.rd rs + immVal 16 64 v)) (c.pc + 8)) ∧
      exec (.coreScalarAlu n none rd rs (.imm v)) s = .next (s.coreAfter n (c.wr rd (c.rd rs * immVal 31 64 v)) (c.pc + 8))) ∧
    (∀ (rd rs : Nat) (v : BitVec 48) (o : Option AluOp), rd < 32 → rs < 32 →
      exec (.coreScalarAlu n o rd rs (.li v)) s = .next (s.coreAfter n (c.wr rd (immVal 14 64 v)) (c.pc + 8))) ∧
    (∀ (rd rs rt : Nat) (o : Option AluOp), 32 ≤ rd → exec (.coreScalarAlu n o rd rs (.reg rt)) s = .next (s.withDev (s.dev.faultRow s.ctx n 2))) ∧
    (∀ (bytes r base a : Nat) (off : BitVec 16), r < 32 → base < 32 → (bytes = 1 ∨ bytes = 2 ∨ bytes = 4 ∨ bytes = 8) →
      a = (c.rd base + immVal 13 64 off).toNat → a + bytes ≤ lsTop →
      exec (.coreLdSt n true bytes r base off) s =
        .next (s.coreWith n (s.dev.lsWrite n a (leBytes bytes (c.rd r).toNat)) c (c.pc + 8)) ∧
      (s.dev.lsBad n a bytes = false →
        exec (.coreLdSt n false bytes r base off) s =
          .next (s.coreAfter n (c.wr r (loadVal 1 (s.dev.lsRead n a bytes) 64)) (c.pc + 8))) ∧
      (s.dev.lsBad n a bytes = true → exec (.coreLdSt n false bytes r base off) s = .next (s.withDev (s.dev.faultRow s.ctx n 5)))) ∧
    (∀ t : Nat, codeAt t = true →
      exec (.coreBranch n (.b t)) s = .next (s.coreAfter n c t) ∧ exec (.coreBranch n (.j t)) s = .next (s.coreAfter n c t) ∧
      exec (.coreBranch n (.call t)) s = .next (s.coreAfter n { c with calls := (c.pc + 8) :: c.calls } t) ∧
      ∀ (k : Cond) (rs rt : Nat), rs < 32 → rt < 32 →
        exec (.coreBranch n (.bcc k rs rt t)) s =
          .next (s.coreAfter n c (if condVal k (c.rd rs) (c.rd rt) then t else c.pc + 8))) ∧
    (∀ (a : Nat) (l : List Nat), c.calls = a :: l →
      exec (.coreBranch n .ret) s = .next (s.coreAfter n { c with calls := l } a)) ∧
    (∀ r len : Nat, r < 32 → 1 ≤ len →
      ((c.rd r).toNat = 0 → exec (.coreLoop n r len) s = .next (s.coreAfter n c (c.pc + 8 + 8 * len))) ∧
      (1 ≤ (c.rd r).toNat → exec (.coreLoop n r len) s =
        .next (s.coreAfter n { c with loops := (c.pc + 8, c.pc + 8 + 8 * len, (c.rd r).toNat) :: c.loops } (c.pc + 8)))))

/-- The matrix and vector operations of a core (R189-R206): what each leaves in the tiles, the accumulators, the vector registers, the counts and
the core's own local store. -/
def Obligations.CoreMatrixAndVectorOperationsTakeEffect : Prop :=
  ∀ (s : State) (n : Nat) (c : Core), CoreReady n c s →
  (∀ (w base f layer k : Nat) (rf out due : Bool) (bs : List Byte) (m : Mdl) (t : Tile) (c1 : Core), w ≤ 1 → base % 64 = 0 →
    base + 64 ≤ lsTop → s.dev.lsBad n base 64 = false → tileHdr (s.dev.lsRead n base 64) = some (f, rf, out, layer) → depthOf f = some k →
    base + 64 + tileLen f k ≤ lsTop → s.dev.lsBad n (base + 64) (tileLen f k) = false → bs = s.dev.lsRead n (base + 64) (tileLen f k) →
    s.dev.mdl c.model = some m →
    due = ((s.dev.numCfg m.part).1 && narrowFmt f && decide (2 ^ (s.dev.numCfg m.part).2.1 ≤ c.samples)) →
    t = { Tile.empty with
      fmt := f
      layer := layer
      outlier := out
      codes := tileCodes f k (bs.take (64 * (k * fmtBits f / 8)))
      scales := tileScales f k (bs.drop (64 * (k * fmtBits f / 8))) } →
    c1 = { c with
      layer := layer
      errs := if (c.tile w).sampled = true then c.errs ++ [((c.tile w).error, (c.tile w).layer)] else c.errs } →
    (due = false ∨ rf = false → exec (.wload n w base) s = .next (s.coreAfter n (({ c1 with
        skips := if due = true then c.skips + 1 else c.skips
        samples := if narrowFmt f = true then c.samples + 1 else c.samples } : Core).setTile w t) (c.pc + 8))) ∧
    (∀ rs : List Byte, due = true → rf = true → base + 64 + tileLen f k + tileLen 1 k ≤ lsTop →
      s.dev.lsBad n (base + 64 + tileLen f k) (tileLen 1 k) = false → rs = s.dev.lsRead n (base + 64 + tileLen f k) (tileLen 1 k) →
      exec (.wload n w base) s = .next (s.coreAfter n (({ c1 with samples := 0 } : Core).setTile w { t with
        sampled := true
        refCodes := tileCodes 1 k (rs.take (64 * k))
        refScales := tileScales 1 k (rs.drop (64 * k)) }) (c.pc + 8)))) ∧
  (∀ w ac af base rows row k len : Nat, w ≤ 1 → ac ≤ 1 → 1 ≤ rows → row + rows ≤ 64 → depthOf (c.tile w).fmt = some k →
    actOk (c.tile w).fmt af = true → len = rows * (k * fmtBits af / 8) + rows * (k / 32) → base + len ≤ lsTop → s.dev.lsBad n base len = false →
    exec (.mmul n w ac af base rows row true true) s =
      .next (s.coreAfter n (mmulRows af w ac c row (actRows af k rows (s.dev.lsRead n base len))) (c.pc + 8)) ∧
    exec (.mmul n w ac af base rows row false true) s = .next (s.withDev ((s.dev.bumpDev 0x060500 1).faultRow s.ctx n 6)) ∧
    exec (.mmul n w ac af base rows row true false) s = .next (s.withDev (s.dev.faultRow s.ctx n 6))) ∧
  (∀ ac row rows fmt dst : Nat, ac ≤ 1 → 1 ≤ rows → row + rows ≤ 64 → (fmt = 0x20 ∨ fmt = 0x22) →
    dst + (((List.range rows).flatMap fun i => c.accRow ac (row + i)).flatMap (storeVal fmt)).length ≤ lsTop →
    exec (.accout n ac row rows fmt dst none) s = .next (s.coreWith n
      (s.dev.lsWrite n dst (((List.range rows).flatMap fun i => c.accRow ac (row + i)).flatMap (storeVal fmt))) (c.count 0 0 0) (c.pc + 8))) ∧
  (∀ ac : Nat, ac ≤ 1 → exec (.accz n ac) s = .next (s.coreAfter n (c.setAcc ac []) (c.pc + 8))) ∧
  (∀ q fmt a : Nat, q < 32 → (fmt = 0x20 ∨ fmt = 0x21 ∨ fmt = 0x22) →
    (a + 128 * fmtBits fmt / 8 ≤ lsTop → s.dev.lsBad n a (128 * fmtBits fmt / 8) = false →
      exec (.coreVldVst n false q fmt a) s =
        .next (s.coreAfter n (c.setVec q (cvtVals fmt 128 (s.dev.lsRead n a (128 * fmtBits fmt / 8)) [])) (c.pc + 8))) ∧
    (a + ((c.vec q).flatMap (storeVal fmt)).length ≤ lsTop →
      exec (.coreVldVst n true q fmt a) s = .next (s.coreWith n (s.dev.lsWrite n a ((c.vec q).flatMap (storeVal fmt))) c (c.pc + 8)))) ∧
  (∀ (o : VecOp) (qd qa r : Nat), qd < 32 → qa < 32 → r < 32 →
    exec (.coreVectorArith n o qd qa (.reg r)) s = .next (s.coreAfter n ((c.setVec qd (lanes o (c.vec qa) (c.vec r) (c.vec qd))).count
      (satLanes o (c.vec qa) (c.vec r) (c.vec qd)) 0 0) (c.pc + 8)) ∧
    exec (.coreVectorArith n o qd qa (.bcast r)) s = .next (s.coreAfter n
      ((c.setVec qd (lanes o (c.vec qa) (List.replicate 128 ((c.rd r).setWidth 32)) (c.vec qd))).count
        (satLanes o (c.vec qa) (List.replicate 128 ((c.rd r).setWidth 32)) (c.vec qd)) 0 0) (c.pc + 8))) ∧
  (∀ (mx : Bool) (rd qa : Nat), rd < 32 → qa < 32 →
    exec (.vred n mx rd qa) s = .next (s.coreAfter n ((c.wr rd ((reduceLanes mx 7 (c.vec qa)).setWidth 64)).count
      (if mx = true then 0 else satTree 7 (c.vec qa)) 0 0) (c.pc + 8))) ∧
  (∀ (f q o dst sc stage group : Nat) (src split : Option Nat) (l : List F32) (d : Dev) (bl : List QBlock) (cb sb : List Byte),
    blockFmt f = true →
    (src = some q ∧ q < 32 ∧ split = none ∧ l = c.vec q ∧ d = s.dev ∨
      src = some q ∧ q < 32 ∧ split = some o ∧ o + 128 ≤ lsTop ∧ s.dev.lsBad n o 128 = false ∧ stage + 256 ≤ lsTop ∧
        l = ((c.vec q).mapIdx fun i v =>
          if group * 128 + i ≠ 0xFFFF ∧ (outMap (s.dev.lsRead n o 128)).contains (group * 128 + i) = true then (0 : F32) else v) ∧
        d = stageOut n stage group (c.vec q) s.dev ((outMap (s.dev.lsRead n o 128)).mapIdx fun j i => (j, i)) ∨
      src = none ∧ f = 1 ∧ stage + 256 ≤ lsTop ∧ s.dev.lsBad n stage 256 = false ∧ l = bytesWords 64 (s.dev.lsRead n stage 256) ∧ d = s.dev) →
    bl = quantLanes f l → cb = leBytes (bl.length * fmtBlock f * fmtBits f / 8) (packBits (fmtBits f) (bl.flatMap QBlock.codes)) →
    sb = (bl.flatMap fun b => scaleStore f b.scale) → dst + cb.length ≤ lsTop → sc + sb.length ≤ lsTop →
    exec (.vquant n f src dst sc split stage group) s = .next (s.coreWith n ((d.lsWrite n dst cb).lsWrite n sc sb)
      (c.count (bl.filter QBlock.ovf).length (bl.filter QBlock.unf).length (bl.filter QBlock.nan).length) (c.pc + 8))) ∧
  (∀ (f q src sc : Nat) (cb sb : List Byte), q < 32 → blockFmt f = true → src + 128 * fmtBits f / 8 ≤ lsTop →
    sc + scaleBytes f 128 ≤ lsTop → s.dev.lsBad n src (128 * fmtBits f / 8) = false → s.dev.lsBad n sc (scaleBytes f 128) = false →
    cb = s.dev.lsRead n src (128 * fmtBits f / 8) → sb = s.dev.lsRead n sc (scaleBytes f 128) →
    exec (.coreVcvt n f q src sc) s = .next (s.coreAfter n ((c.setVec q (cvtVals f 128 cb sb)).count (cvtSat f 128 cb sb) 0 0) (c.pc + 8)))

/-- Messages, buffers, steps, transfers and waits of cores (R121, R163-R168). -/
def Obligations.CoreGridRowsTakeEffect : Prop :=
  (∀ (s : State) (n : Nat) (c : Core), CoreReady n c s →
    (∀ (dst t chan off len k : Nat) (h h' : Chan) (d : Dev), s.dev.peer c dst = some t → tget (s.dev.core t).chans chan = some h →
      tget h.credits n = some k → len ≤ h.size → off + len ≤ lsTop → s.dev.lsBad n off len = false →
      h' = { h with credits := tset h.credits n (k - 1) } → d = s.dev.setCore t ((s.dev.core t).setChan chan h') →
      (1 ≤ k → exec (.coreSend n dst chan off len) s = .next (s.coreWith n
        { d with grid := { d.grid with msgs := d.grid.msgs ++ [⟨n, t, chan, s.dev.lsRead n off len⟩] } }
        (if t = n then c.setChan chan h' else c) (c.pc + 8))) ∧
      (k = 0 → exec (.coreSend n dst chan off len) s =
        .next (s.withDev (s.dev.setCore n { c with blocked := some (.send dst chan, s.clock.now) })))) ∧
    (∀ (chan ra rl slot src len t : Nat) (h : Chan) (q : List (Nat × Nat × Nat × Nat)), ra < 32 → rl < 32 → chan ≠ 14 → chan ≠ 15 →
      tget c.chans chan = some h → h.queue = (src, slot, len, t) :: q →
      exec (.recv n chan ra rl) s = .next (s.coreAfter n (((c.setChan chan { h with queue := q, taken := h.taken ++ [(src, slot, len)] }).wr ra
        (w64 (h.ring + slot * h.size))).wr rl (w64 len)) (c.pc + 8))) ∧
    (∀ (chan src slot len : Nat) (h : Chan) (l : List (Nat × Nat × Nat)), chan ≠ 14 → chan ≠ 15 → tget c.chans chan = some h →
      h.taken = (src, slot, len) :: l →
      exec (.mfree n chan) s = .next (s.coreAfter n
        (c.setChan chan { h with taken := l, credits := tset h.credits src (tgetD h.credits src 0 + 1) }) (c.pc + 8))) ∧
    (∀ (rd chan : Nat) (h : Chan), rd < 32 → chan ≠ 14 → chan ≠ 15 → tget c.chans chan = some h →
      exec (.poll n rd false chan) s = .next (s.coreAfter n (c.wr rd (if h.queue = [] then 0 else 1)) (c.pc + 8))) ∧
    (∀ (b o l : Nat), l ≠ 0 →
      (c.bufs[b]? = some (o, l, true) →
        exec (.waitfull n b) s = .next (s.coreAfter n c (c.pc + 8)) ∧
        exec (.brelease n b) s = .next (s.coreAfter n { c with bufs := c.bufs.set b (o, l, false) } (c.pc + 8))) ∧
      (c.bufs[b]? = some (o, l, false) →
        exec (.waitfull n b) s = .next (s.withDev (s.dev.setCore n { c with blocked := some (.full b, s.clock.now) })) ∧
        exec (.brelease n b) s = .next (s.withDev (s.dev.faultRow s.ctx n 7)))) ∧
    (∀ (k : XferKind) (off len : Nat), off + len ≤ lsTop →
      exec (.xfer n k off len) s = .next (s.coreAfter n { c with xfers := c.xfers ++ [⟨k, off, len, none⟩] } (c.pc + 8))) ∧
    (∀ ns : Nat, c.inStep = true → c.fresh = false →
      exec (.stepdone n ns) s = .next (s.coreAfter n { c with done := true, engineNs := ns } (c.pc + 8))) ∧
    (c.xfers = [] → (∀ m ∈ s.dev.grid.msgs, m.src ≠ n) → exec (.coreFence n) s = .next (s.coreAfter n c (c.pc + 8))) ∧
    (c.xfers ≠ [] → exec (.coreFence n) s = .next (s.withDev (s.dev.setCore n { c with blocked := some (.fence, s.clock.now) }))) ∧
    exec (.halt n) s = .next (s.withDev (s.dev.setCore n { c with run := false })) ∧
    (∀ off : Nat, off + 64 ≤ lsTop → s.dev.lsBad n off 64 = false → c.xfers ≠ [] → c.model ≠ 0 →
      exec (.fanOut n off) s = .next (s.coreAfter n
        { c with xfers := c.xfers ++ [⟨.inp 0, off, 64, some (s.dev.lsRead n off 64, List.replicate 8 0)⟩] } (c.pc + 8)))) ∧
  (∀ (s : State) (n rd : Nat) (c : Core), s.clock.power = true → rd < 32 → c.blocked = none →
    ({ s.dev with grid := { s.dev.grid with cores := tset s.dev.grid.cores n { s.dev.core n with waiting := false } } } : Dev).coreAt n = some c →
    (c.fresh = true → exec (.stepwait n rd) s = .next (s.coreAfter n
      (({ c with fresh := false, waiting := false } : Core).wr rd (w64 ((c.bufs[15]?).getD (0, 0, false)).1)) (c.pc + 8))) ∧
    (c.fresh = false → exec (.stepwait n rd) s = .next (s.withDev (s.dev.setCore n { c with waiting := true })))) ∧
  (∀ (s : State) (n : Nat) (c : Core) (b : Block) (t : Nat), s.clock.power = true → s.dev.coreAt n = some c → c.blocked = some (b, t) →
    t + fld (s.dev.devReg 0x060200) 9 0 * ticksMs ≤ s.clock.now → s.dev.stillBlocked n c b = true →
    ∀ s₀ : State, s = s₀.reach (evKey 1 0 (source 6 n)) → exec (.hangTimeout n) s₀ = .next (s.withDev (s.dev.faultRow s.ctx n 4))) ∧
  (∀ (s : State) (src dst chan : Nat) (m : Msg) (l : List Msg) (h : Chan), s.clock.power = true →
    takeFirst (fun (m : Msg) => m.src == src && m.dst == dst && m.chan == chan) s.dev.grid.msgs = some (m, l) →
    tget (s.dev.core dst).chans chan = some h →
    exec (.messageDelivery src dst chan) s = .next (s.withDev
      ((({ s.dev with grid := { s.dev.grid with msgs := l } } : Dev).lsWrite dst (h.ring + h.next % max 1 h.slots * h.size) m.bytes).setCore dst
        ((s.dev.core dst).setChan chan { h with
          next := h.next + 1, queue := h.arrive src (h.next % max 1 h.slots) m.bytes.length s.clock.now }))) ∧
    (∀ a l0 : Nat, (∀ e ∈ h.queue, e.2.2.2 = s.clock.now → e.1 ≤ src) →
      h.arrive src a l0 s.clock.now = h.queue ++ [(src, a, l0, s.clock.now)])) ∧
  (∀ (s : State) (n p a len : Nat) (t : CoreXfer), s.clock.power = true → t.len = len →
    (t.kind = .out a → s.dev.peerStore p a len = none → s.dev.xferOk p a len true = false →
      s.dev.doXfer s.ctx n p t = (.badParam, s.dev)) ∧
    (t.kind = .out a → s.dev.peerStore p a len = none → s.dev.xferOk p a len true = true → s.dev.doXfer s.ctx n p t =
      (.ok, (s.dev.hbmPut s.ctx a (s.dev.lsRead n t.off len) (s.dev.lsBad n t.off len)).chargePart p 0 len)) ∧
    (t.kind = .inp a → addrKind a ≠ .glAlias → s.dev.peerStore p a len = none → s.dev.xferOk p a len false = true →
      s.dev.doXfer s.ctx n p t = (.ok, (s.dev.lsFill n t.off a len).chargePart p 0 len)) ∧
    (∀ c o : Nat, s.dev.peerStore p a len = some (c, o) →
      (t.kind = .out a → s.dev.doXfer s.ctx n p t = (.ok, s.dev.lsCopy n t.off c o len)) ∧
      (t.kind = .inp a → addrKind a ≠ .glAlias → s.dev.doXfer s.ctx n p t = (.ok, s.dev.lsCopy c o n t.off len)))) ∧
  (∀ (s : State) (n : Nat) (t : CoreXfer) (ts : List CoreXfer) (m : Mdl) (d d1 : Dev), s.clock.power = true → (s.dev.core n).xfers = t :: ts →
    t.fan = none → s.dev.mdl (s.dev.core n).model = some m → s.dev.reach s.ctx .culm (2, n) t.reads = (.go, d) →
    d1 = (((d.doXfer s.ctx n m.part t).2.popXfer n).notice n 16 (d.doXfer s.ctx n m.part t).1) →
    ∀ s₀ : State, s = s₀.reach (evKey 5 0 (source 6 n)) →
      exec (.xferComplete n) s₀ = .next (s.withDev (d1.fanHead s.ctx n (d1.core n).xfers.length))) ∧
  (∀ (s : State) (m i : Nat) (k : Mdl) (e : PreEntry), s.clock.power = true → s.dev.mdl m = some k → k.img.entries[i]? = some e →
    (i = k.preNext → k.preOpen = [] → k.preStop = false → k.wpins = true → (s.dev.core ((k.cores[e.core]?).getD 0)).run = true →
      (∃ o l, (s.dev.core ((k.cores[e.core]?).getD 0)).bufs[e.buf]? = some (o, l, false)) → e.stepEnd = false → i + 1 ≠ k.img.entries.length →
      ∀ s₀ : State, s = s₀.follow →
        exec (.prefetchEntryStart m) s₀ = .next (s.withDev (s.dev.setMdl m { k with preOpen := [i], preStop := false, preNext := i + 1 }))) ∧
    (∀ (o : Share) (d : Dev), k.preOpen.contains i = true → s.dev.share ((k.shares[e.share]?).getD 0) = some o →
      s.dev.reach s.ctx .culm (5, m * 2 ^ 32 + i) (o.ranges (e.len / 32768 + 2) e.src e.len) = (.go, d) →
      ∀ s₀ : State, s = s₀.reach (evKey 5 0 (source 4 0)) → exec (.prefetchEntryComplete m i) s₀ = .next (s.withDev
        (((d.setMdl m { k with preOpen := k.preOpen.filter (· != i), preBytes := k.preBytes + e.len }).preCopy o ((k.cores[e.core]?).getD 0)
          (e.len / 32768 + 2) e.src e.dst e.len).bufFull ((k.cores[e.core]?).getD 0) e.buf e.notify .ok)))) ∧
  (∀ (s : State) (m : Nat) (k : Mdl) (d d1 : Dev), s.clock.power = true → s.dev.mdl m = some k →
    (∀ n ∈ k.cores, (s.dev.core n).run = true ∧ (s.dev.core n).waiting = true ∧ (s.dev.core n).model = m) → k.st = .loading → k.moveOps = 0 →
    (s.dev.inArea k = false → ∀ s₀ : State, s = s₀.reach (evKey 5 0 (source 6 0)) → exec (.loadComplete m) s₀ =
      .next (s.withDev (((s.dev.loadFails s.ctx m k .doesNotFit).mdlRelease s.ctx m).schedule s.ctx))) ∧
    (s.dev.inArea k = true → d = (s.dev.setMdl m { k with
      st := .resident, since := s.clock.now, loadOp := 0, reloading := false, repeated := false }).bumpPart k.part 0x060008 1 →
    d1 = (if k.loadOp = 0 then d else d.endOp s.ctx k.loadOp .ok [wd k.origin, wd (s.clock.now - k.accepted)]).openWaiting s.ctx m →
    ∀ s₀ : State, s = s₀.reach (evKey 5 0 (source 6 0)) →
      exec (.loadComplete m) s₀ = .next (s.withDev ((((k.evictAfter.elim d1 fun nand => d1.startEvict s.ctx m nand).retryLoads
      s.ctx k.part).schedule s.ctx))))) ∧
  (∀ (s : State) (n o l v : Nat) (xk : XferKind) (ts : List CoreXfer) (b : List Byte) (e : Ses) (k : Kv) (d : Dev), s.clock.power = true →
    (s.dev.core n).xfers = ⟨xk, o, l, some (b, [1, 1, 1, 1, 1, 1, 1, v])⟩ :: ts → s.dev.sesOf (fanDesc b).ses = some e → e.kv = some k →
    12 ≤ v → v ≤ 15 → ((s.dev.gunit (k.unit 7)).slot v).st ≠ 1 → ((s.dev.gunit (k.unit 7)).slot v).st ≠ 2 →
    (s.dev.reach s.ctx .culm (8, n * 8 + 7) [((k.xchg[7]?).getD 0 + 0x2000, (fanDesc b).bytes k)]).1 = .go →
    d = ((s.dev.fanCopy s.ctx n (fanDesc b) k 7 v).bufFull n (fanDesc b).buf true .ok).popXfer n →
    ∀ s₀ : State, s = s₀.reach (evKey 5 0 (source 6 n)) →
      exec (.fanOutMemberDone n) s₀ = .next (s.withDev (d.fanHead s.ctx n (d.core n).xfers.length)))

/-- The operations of a Glume program (R151-R157): scalar and helper results with their poison marks, of which x0 reads as zero, scratch, pages,
the result buffer, and reads and writes of the bank. -/
def Obligations.GlumeOperationsTakeEffect : Prop :=
  (∀ (g : GUnit) (v : Word) (m : Bool), g.wr 0 v m = g ∧ g.rd 0 = (0, false)) ∧
  (∀ (s : State) (u k : Nat) (l : GSlot) (g : GUnit), GlumeReady u k l s → g = s.dev.gunit u →
    (∀ (o : AluOp) (rd rs rt : Nat), rd < 32 → rs < 32 → rt < 32 →
      exec (.glmAlu u o rd rs (.reg rt)) s =
        .next (s.glumeAfter u k (g.wr rd (aluVal 32 o (g.rd rs).1 (g.rd rt).1) ((g.rd rs).2 || (g.rd rt).2)) (l.pc + 1)) ∧
      exec (.glmMul u false rd rs rt) s =
        .next (s.glumeAfter u k (g.wr rd ((g.rd rs).1 * (g.rd rt).1) ((g.rd rs).2 || (g.rd rt).2)) (l.pc + 1)) ∧
      ∃ v, exec (.glmMul u true rd rs rt) s = .next (s.glumeAfter u k (g.wr rd v ((g.rd rs).2 || (g.rd rt).2)) (l.pc + 1))) ∧
    (∀ (o : AluOp) (rd rs : Nat) (v : BitVec 12), rd < 32 → rs < 32 →
      exec (.glmAlu u o rd rs (.imm v)) s =
        .next (s.glumeAfter u k (g.wr rd (aluVal 32 o (g.rd rs).1 (immVal (aluNo o) 32 v)) (g.rd rs).2) (l.pc + 1))) ∧
    (∀ (rd : Nat) (v : Word), rd < 32 → exec (.glmLi u rd v) s = .next (s.glumeAfter u k (g.wr rd v false) (l.pc + 2))) ∧
    (∀ (rd : Nat) (v : Word), 32 ≤ rd → exec (.glmLi u rd v) s = .next (s.withDev (s.dev.glmEnd s.ctx u 4))) ∧
    (∀ (c : Cond) (rs rt t : Nat), rs < 32 → rt < 32 → t < 4096 →
      exec (.glmBranch u c rs rt t) s = .next (s.glumeAfter u k g (if condVal c (g.rd rs).1 (g.rd rt).1 then t else l.pc + 1))) ∧
    (∀ (bytes r base a : Nat) (off : BitVec 12), r < 32 → base < 32 → (bytes = 1 ∨ bytes = 2 ∨ bytes = 4) → a = g.ea 11 base off →
      (a + bytes ≤ 0x8400 →
        exec (.glmLdSt u true bytes r base off) s =
          .next (s.glumeAfter u k (g.swrite a (leBytes bytes (g.rd r).1.toNat) ((g.rd r).2 || (g.rd base).2)) (l.pc + 1)) ∧
        exec (.glmLdSt u false bytes r base off) s =
          .next (s.glumeAfter u k (g.wr r (loadVal 0 (g.sread a bytes) 32) (g.smark a bytes || (g.rd base).2)) (l.pc + 1))) ∧
      (0x8400 < a + bytes → exec (.glmLdSt u true bytes r base off) s = .next (s.withDev (s.dev.glmEnd s.ctx u 5)))) ∧
    (∀ (v base a : Nat) (off : BitVec 12), v < 16 → base < 32 → a = g.ea 12 base off → a + 64 ≤ 0x8400 →
      exec (.glmVldVst u true v base off) s =
        .next (s.glumeAfter u k (g.swrite a (wordBytes ((g.vrd v).1.map fun w => f32OfFv (f32Val w))) ((g.vrd v).2 || (g.rd base).2)) (l.pc + 1)) ∧
      exec (.glmVldVst u false v base off) s =
        .next (s.glumeAfter u k (g.vwr v (bytesWords 16 (g.sread a 64)) (g.smark a 64 || (g.rd base).2)) (l.pc + 1))) ∧
    (∀ f v src sc a b : Nat, vcvtFmts.contains f = true → src < 32 → sc < 32 → v + vcvtCount f / 16 ≤ 16 → a = (g.rd src).1.toNat →
      b = (g.rd sc).1.toNat → a + 64 ≤ 0x8400 → b + scaleBytes f (vcvtCount f) ≤ 0x8400 → scaleBytes f (vcvtCount f) ≠ 0 →
      exec (.glmVcvt u f v src sc) s = .next (s.glumeAfter u k (g.vfill
        (g.smark a 64 || g.smark b (scaleBytes f (vcvtCount f)) || (g.rd src).2 || (g.rd sc).2) v
        (chunks 16 (vcvtCount f / 16) (cvtVals f (vcvtCount f) (g.sread a 64) (g.sread b (scaleBytes f (vcvtCount f)))))) (l.pc + 1))) ∧
    (∀ (o : VecOp) (vd va vb : Nat), vd < 16 → va < 16 → vb < 16 → (o = .add ∨ o = .mul ∨ o = .max) →
      exec (.glmVectorArith u o vd va (.reg vb)) s =
        .next (s.glumeAfter u k (g.vwr vd (lanes o (g.vrd va).1 (g.vrd vb).1 (g.vrd vd).1) ((g.vrd va).2 || (g.vrd vb).2)) (l.pc + 1))) ∧
    (∀ vd va vb : Nat, vd < 16 → va < 16 → vb < 16 →
      exec (.glmVectorArith u .fma vd va (.reg vb)) s = .next (s.glumeAfter u k
        (g.vwr vd (lanes .fma (g.vrd va).1 (g.vrd vb).1 (g.vrd vd).1) ((g.vrd va).2 || (g.vrd vb).2 || (g.vrd vd).2)) (l.pc + 1))) ∧
    (∀ vd va : Nat, vd < 16 → va < 16 →
      exec (.glmVexp2 u vd va) s = .next (s.glumeAfter u k (g.vwr vd ((g.vrd va).1.map f32Exp2) (g.vrd va).2) (l.pc + 1))) ∧
    (∀ (mx : Bool) (rd va : Nat), rd < 32 → va < 16 →
      exec (.glmVreduce u mx rd va) s = .next (s.glumeAfter u k (g.wr rd (reduceLanes mx 4 (g.vrd va).1) (g.vrd va).2) (l.pc + 1))) ∧
    (∀ (a b c pos : Nat) (addr : Nat) (ps : List (Nat × Nat)), a < 32 → b < 32 → c < 32 → g.pages = (addr, pos) :: ps →
      exec (.pgnext u a b c) s = .next (s.glumeAfter u k
        { (((g.wr a (loW addr) false).wr b (hiW addr) false).wr c (wd pos) false) with pages := ps } (l.pc + 1))) ∧
    (∀ src len a n : Nat, src < 32 → len < 32 → g.running = some k → a = (g.rd src).1.toNat → n = (g.rd len).1.toNat →
      (g.slot k).resBytes + n ≤ 1984 → a + n ≤ 0x8400 →
      exec (.res u src len) s = .next (s.glumeAfter u k (g.setSlot k { g.slot k with
        result := (g.slot k).result ++ g.sread a n
        resBytes := (g.slot k).resBytes + n
        marked := (g.slot k).marked || g.smark a n || (g.rd src).2 || (g.rd len).2 }) (l.pc + 1))) ∧
    exec (.yield u) s = .next (s.withDev ((s.dev.glmPc u k (l.pc + 1)).yieldPoint s.ctx u)) ∧
    exec (.bwait u) s = .next (s.withDev ((s.dev.glmPc u k (l.pc + 1)).yieldPoint s.ctx u)) ∧
    exec (.glmEnd u) s = .next (s.withDev (s.dev.glmEnd s.ctx u 0)) ∧
    (∀ (sc lo hi len a t : Nat) (m : Bool) (e : List (Nat × Ecc)) (d : Dev) (old : List Nat), g.bank sc lo hi len = .ok (a, t, m) →
      d = (s.dev.bankEccs s.ctx a len e).issue s.ctx u a len → old = (codewords a len).filter d.mem.poison.contains →
      (g.throttled s.clock.now (Config.rowsOf a len).length = true →
        exec (.brd u sc lo hi len e) s = .next (s.withDev (s.dev.throttle s.ctx u)) ∧
        exec (.bwr u sc lo hi len e) s = .next (s.withDev (s.dev.throttle s.ctx u))) ∧
      (g.throttled s.clock.now (Config.rowsOf a len).length = false →
        exec (.brd u sc lo hi len e) s = .next (s.withDev ((d.setGunit u { (d.gunit u).swrite t (d.hbmRead a len) m with
          smarks := addNums (old.flatMap fun c => codewords (t + max (c * 32) a - a) (min (c * 32 + 32) (a + len) - max (c * 32) a))
            ((d.gunit u).swrite t (d.hbmRead a len) m).smarks }).glmPc u k (l.pc + 1)))) ∧
      (∀ d1 : Dev, g.throttled s.clock.now (Config.rowsOf a len).length = false → s.dev.unreachedAt a len = none →
        d1 = { d with mem := { d.mem with cells := memWrite d.mem.cells a ((d.gunit u).sread t len) } } →
        ((gransOf a len).any d.granFrozen = false →
          exec (.bwr u sc lo hi len e) s = .next (s.withDev (((if old.isEmpty then d1 else d1.bumpDev 0x050014 old.length).hbmPoison
            (addNums old ((codewords a len).filter fun c =>
              m || (d.gunit u).smark (t + max (c * 32) a - a) (min (c * 32 + 32) (a + len) - max (c * 32) a)))).glmPc u k (l.pc + 1)))) ∧
        ((gransOf a len).any d.granFrozen = true →
          exec (.bwr u sc lo hi len e) s = .next (s.withDev (d.glmPc u k (l.pc + 1))))) ∧
      (∀ b : Nat, g.throttled s.clock.now (Config.rowsOf a len).length = false → s.dev.unreachedAt a len = some b →
        exec (.bwr u sc lo hi len e) s = .next (s.withDev ((s.dev.bumpPart (b / 524288) 0x0C0008 1).yieldPoint s.ctx u)))) ∧
    (∀ (sc lo hi len c : Nat) (e : List (Nat × Ecc)), g.bank sc lo hi len = .error c →
      exec (.brd u sc lo hi len e) s = .next (s.withDev (s.dev.glmEnd s.ctx u c)) ∧
      exec (.bwr u sc lo hi len e) s = .next (s.withDev (s.dev.glmEnd s.ctx u c))))

/-- The commands of the near-bank family (R140, R141, R154, R158-R160). -/
def Obligations.GlumeCommandsComplete : Prop :=
  (∀ (s₀ s : State) (c : Cmd) (r : CmdRec) (q : Req), s = s₀.reach (cmdKey c) → q = reqOf c r →
    (∀ (st rg : Nat) (cm : Bool), Started 0x0B00 c r s → q.clean [(2, 0x13F0F)] = true → st = q.f 2 3 0 → rg = q.f 2 13 8 → rg ≤ 47 →
      cm = bitAt (q.w 2).toNat 16 →
      (s.dev.regionOwner st rg = q.part ∧ q.part < 16 ∨ s.dev.regionOwner st rg = 16 ∧ s.dev.isCtrl r.fn = true) →
      s.dev.regionSealed st rg = false →
      (s.dev.modeOpsOf st rg = [] → cm = s.dev.isCompute st rg →
        exec (.glmRegionMode c) s₀ = .next (s.acceptedDone r [] .ok [loW r.arrival, hiW r.arrival] s.dev)) ∧
      (cm ≠ s.dev.isCompute st rg →
        exec (.glmRegionMode c) s₀ = .next (s.acceptedAs c r [] .regionMode { s.dev with glm := { s.dev.glm with
          modeOps := s.dev.glm.modeOps ++ [⟨q.seq, st, rg, cm, q.arrival⟩] } }))) ∧
    (Started 0x0B01 c r s → q.clean [(2, top32), (3, top32), (4, top32), (5, top32)] = true → (q.w 4).toNat ≤ 64 + 512 + 16384 →
      s.dev.sliceBusy 16 5 = false →
      exec (.glmProgLoad c) s₀ = .next (s.acceptedAs c r [] (.progLoad (q.w 4).toNat (q.w 5)) s.dev)) ∧
    (Started 0x0B02 c r s → q.clean [(2, top32), (3, top32), (4, 1), (5, top32)] = true → s.dev.sliceBusy 16 5 = false →
      exec (.glmCurveLoad c) s₀ = .next (s.acceptedAs c r [] (.curveLoad (q.f 4 0 0) (q.w 5)) s.dev)) ∧
    (∀ (a p u k grp an : Nat) (dv : Bool) (d : Dev), Started 0x0B03 c r s →
      q.clean ([(2, top32), (3, top32), (4, 0xF)] ++ (List.range 16).map fun i => (16 + i, top32)) = true → s.dev.anchor q = .ok (a, dv) →
      p = (if dv then 16 else q.part) → d = s.dev.aliasWrite s.ctx .ctl p (aliasOf a (q.f 4 3 0) 0) ((q.words.drop 16).take 16) →
      d.aliasAt .ctl p (aliasOf a (q.f 4 3 0) 0) 64 = some (u, k, grp, an) →
      exec (.glmSubmit c) s₀ = .next (s.answered r .ok ((((d.gunit u).slot k).seen p).words_.take 2) d)) ∧
    (∀ (a p u k grp an : Nat) (dv : Bool) (l : GSlot), Started 0x0B04 c r s →
      q.clean [(2, top32), (3, top32), (4, 0xF), (5, top32), (6, top32)] = true → s.dev.anchor q = .ok (a, dv) → p = (if dv then 16 else q.part) →
      s.dev.aliasAt .ctl p (aliasOf a (q.f 4 3 0) 0) 64 = some (u, k, grp, an) → l = ((s.dev.gunit u).slot k).seen p →
      exec (.glmStatus c) s₀ = .next (s.answered r .ok
        [(l.words_[0]?).getD 0, (l.words_[1]?).getD 0, (l.words_[4]?).getD 0, (l.words_[6]?).getD 0]
        (if q.d2 5 = 0 then s.dev else s.dev.out (.hostWrite r.fn.port (q.d2 5) ((l.result ++ List.replicate 1984 0).take 1984))))) ∧
    (Started 0x0B05 c r s → q.clean [(2, 0x3F0F)] = true → q.f 2 13 8 ≤ 47 →
      exec (.glmRegionQuery c) s₀ = .next (s.answered r .ok [wd (s.dev.regionOwner (q.f 2 3 0) (q.f 2 13 8) +
        if s.dev.isCompute (q.f 2 3 0) (q.f 2 13 8) then 256 else 0), wd (s.dev.regionPins (q.f 2 3 0) (q.f 2 13 8))] s.dev))) ∧
  (∀ (s : State) (st rg : Nat) (o : ModeOp) (l : List ModeOp) (d : Dev), s.clock.power = true → s.dev.modeOpsOf st rg = o :: l →
    d = { s.dev with glm := { s.dev.glm with
      compute := if o.compute = true then addNum (st * 64 + rg) s.dev.glm.compute else s.dev.glm.compute.filter (· != st * 64 + rg)
      lastSwitch := tset s.dev.glm.lastSwitch (st * 64 + rg) s.clock.now
      modeOps := s.dev.glm.modeOps.filter fun m => m.op != o.op } } →
    (o.compute = true ∧ s.dev.mem.stalled.any (fun w => inRegion st rg (gran w.addr)) = false ∨
      o.compute = false ∧ s.dev.regionPins st rg = 0 ∧ s.dev.regionQueued st rg = false) →
    ∀ s₀ : State, s = s₀.reach (evKey 3 0 (source 5 0)) →
      exec (.regionSwitch st rg) s₀ = .next (s.withDev ((d.endOp s.ctx o.op .ok [loW s.clock.now, hiW s.clock.now]).modeSettle s.ctx st rg
        d.glm.modeOps.length)))

/-- The events of the near-bank block that follow a start or come with time (R143, R150-R153, R158, R159): a start, the end of a service window,
the limits of a run, a read held too long, the samples of a stack's temperature, and refresh. -/
def Obligations.GlumeEventsTakeEffect : Prop :=
  ∀ (s : State), s.clock.power = true →
  (∀ (u k : Nat) (l : GSlot), u < 512 → (s.dev.gunit u).running = none →
    (s.dev.gunit u).nextSlot = some k → l = (s.dev.gunit u).slot k → s.dev.startCheck u l.part l.device l.anchor l.words = none →
    (∀ g ∈ (s.dev.runRange u l.anchor l.words).1, thas s.dev.mem.copying g = false) →
    ∀ s₀ : State, s = s₀.follow → ∃ t, exec (.programStart u) s₀ = .next t ∧ (t.dev.gunit u).running = some k ∧ ((t.dev.gunit u).slot k).st = 2 ∧
      (t.dev.gunit u).range = (s.dev.runRange u l.anchor l.words).1 ∧ (t.dev.gunit u).startAt = s.clock.now ∧
      (t.dev.gunit u).regs[1]? = some (wd l.anchor) ∧ t.dev.mem.cells = s.dev.mem.cells ∧ t.dev.ses = s.dev.ses) ∧
  (∀ (u : Nat) (g : GUnit), g = s.dev.gunit u →
    (∀ t0 : Nat, g.windowAt = some t0 → t0 + 63 ≤ s.clock.now →
      exec (.serviceWindowEnd u) s = .next (s.withDev (s.dev.setGunit u { g with windowAt := none, lastYield := s.clock.now }))) ∧
    (∀ k : Nat, g.running = some k → g.windowAt = none → g.lastYield + 250 ≤ s.clock.now → ∀ s₀ : State, s = s₀.reach (evKey 1 0 (source 5 u)) →
      exec (.yieldOverrun u) s₀ = .next (s.withDev (s.dev.glmEnd s.ctx u 2))) ∧
    (∀ k : Nat, g.running = some k → g.startAt + 125 * s.dev.budget u k < s.clock.now → ∀ s₀ : State, s = s₀.reach (evKey 1 0 (source 5 u)) →
      exec (.budgetExpiry u) s₀ = .next (s.withDev (s.dev.glmEnd s.ctx u 3))) ∧
    (∀ h : HeldAcc, g.held = [h] → h.since + 500 ≤ s.clock.now → h.key = (0, 0) →
      (h.ag = .ctl → ∀ s₀ : State, s = s₀.reach (evKey 8 0 (source 5 u)) →
        exec (.heldReadTimeout u) s₀ = .next (s.withDev ((s.dev.setGunit u { g with held := [] }).out
          (.agentData .ctl .regionBusy (List.replicate h.len 0) true)))) ∧
      (∀ f : Fn, h.ag = .host f → ∀ s₀ : State, s = s₀.reach (evKey 8 0 (source 5 u)) →
        exec (.heldReadTimeout u) s₀ = .next (s.withDev (((s.dev.setGunit u { g with held := [] }).glmCount h.part 0x050004).out
          (.readData f (List.replicate h.len 0) true)))))) ∧
  (∀ (die k st t0 tb : Nat), die < 2 → k < 8 → st = die * 8 + k → tb = band s.dev.glm.curvesAct.temps t0 →
    (s.dev.glm.therm.all fun e => e.1 == st || decide (e.2.1 < 105)) = true → t0 < 105 →
    ∀ s₀ : State, s = s₀.reach (evKey 9 0 0) → ∃ t, exec (.stackTempSample die k t0) s₀ = .next t ∧
      (tget t.dev.glm.therm st).map Prod.fst = some t0 ∧ (tget t.dev.glm.therm st).map (fun e => e.2.1) = some tb ∧
      tget t.dev.glm.thresh st = some ((s.dev.glm.curvesAct.refresh[s.dev.glm.curvesAct.row t0]?).getD (0, 1, 16384)).2.2 ∧
      t.dev.mem = s.dev.mem ∧ t.dev.ses = s.dev.ses) ∧
  (∀ u b row : Nat, tgetD s.dev.glm.thresh (u / 32) 16384 ≤ tgetD s.dev.glm.rowActs (rowKey u b row) 0 →
    exec (.targetedRefresh u b row) s = .next (s.withDev { s.dev with glm := { s.dev.glm with
      rowActs := tdel s.dev.glm.rowActs (rowKey u b row) } })) ∧
  (∀ (st : Nat) (s₀ : State), s = s₀.reach (evKey 8 0 (source 5 0)) →
    exec (.refreshWindowEnd st) s₀ = .next (s.withDev { s.dev with glm := { s.dev.glm with
      rowActs := s.dev.glm.rowActs.filter fun r => r.1 / 2 ^ 48 / 32 != st } }))

/-- Accesses to HBM beside running programs, through BAR2 and through the alias window (R42, R111, R142-R150). -/
def Obligations.HbmAccessRowsTakeEffect : Prop :=
  ∀ (s : State), s.clock.power = true →
  (∀ (ag : Agent) (p a u k an op : Nat) (ws : List Word) (l : GSlot), s.dev.aliasAt ag p a (4 * ws.length) = some (u, k, 0, an) →
    Machine.cmdOk ws = true → op = wfld (cw ws 0) 31 24 → l = (s.dev.gunit u).slot k →
    (∀ (pp n f : Nat) (dv : Bool) (t : GSlot), op = 1 → l.st ≠ 1 → l.st ≠ 2 → dv = (s.dev.regionOwner (stackOf an) (regionOf an) == 16) →
      pp = (match ag with
        | .core _ => p
        | _ => if dv then 16 else p) →
      n = wfld (cw ws 1) 20 16 → f = ((s.dev.glm.bankAct.progs[n]?).getD (0, 0, 0, false)).1 →
      t = { GSlot.reset with
        st := 1
        seq := wfld (cw ws 0) 15 0
        prog := n
        part := pp
        words := ws
        anchor := an
        order := (s.dev.gunit u).order
        first := f
        pc := f
        device := dv } →
      (s.dev.startCheck u pp dv an ws = none → exec (.glumeStart ag p a ws) s = .next (s.withDev (s.dev.setGunit u
        (({ s.dev.gunit u with order := (s.dev.gunit u).order + 1 } : GUnit).setSlot k t)))) ∧
      (∀ (st : Status) (code : Nat), s.dev.startCheck u pp dv an ws = some (st, code) → exec (.glumeStart ag p a ws) s =
        .next (s.withDev ((s.dev.stuRun pp ws st).slotFault s.ctx u k { t with pc := 0 } st code)))) ∧
    (op = 1 → l.st = 1 ∨ l.st = 2 → exec (.glumeStart ag p a ws) s = .next (s.withDev (s.dev.glmCount p 0x050000))) ∧
    (op = 2 → l.st = 2 → exec (.glumeStop ag p a ws) s = .next (s.withDev (s.dev.setGunit u ((s.dev.gunit u).setSlot k
      { l with seq := wfld (cw ws 0) 15 0, stop := true })))) ∧
    (op = 2 → l.st = 1 → exec (.glumeStop ag p a ws) s =
      .next (s.withDev (s.dev.slotFault s.ctx u k { l with seq := wfld (cw ws 0) 15 0, pc := 0 } .aborted 6))) ∧
    (op = 3 → l.st = 3 ∨ l.st = 4 → exec (.glumeClear ag p a ws) s = .next (s.withDev (s.dev.setGunit u ((s.dev.gunit u).setSlot k
      { GSlot.reset with seq := wfld (cw ws 0) 15 0 }))))) ∧
  (∀ (ag : Agent) (p a u k grp an : Nat) (l : GSlot), s.dev.aliasAt ag p a 64 = some (u, k, grp, an) → l = ((s.dev.gunit u).slot k).seen p →
    (grp = 0 → exec (.glAliasStatusRead ag p a 64) s = .next (s.withDev (s.dev.out (.agentData ag .ok (wordBytes l.words_) false)))) ∧
    (grp ≠ 0 → exec (.glAliasResultRead ag p a 64) s = .next (s.withDev (s.dev.out (.agentData ag .ok
      (((l.result ++ List.replicate 1984 0).drop ((grp - 1) * 64)).take 64) l.marked))))) ∧
  (∀ (ag : Agent) (p a len : Nat), s.dev.aliasAt ag p a len = none →
    exec (.glAliasStatusRead ag p a len) s = .next (s.withDev ((s.dev.glmCount p 0x050000).out (.agentData ag .ok (List.replicate 64 0) false))) ∧
    exec (.glAliasResultRead ag p a len) s = .next (s.withDev ((s.dev.glmCount p 0x050000).out (.agentData ag .ok (List.replicate 64 0) false)))) ∧
  (∀ (ag : Agent) (p a len : Nat) (e : List (Nat × Ecc)) (d : Dev), onAliasPath ag = false → oneGran a len = true →
    (s.dev.computeAt a = true → (s.dev.gunit (unitOf a)).running ≠ none →
      exec (.ordinaryRead ag p a len e) s = .next (s.withDev (s.dev.setGunit (unitOf a) { s.dev.gunit (unitOf a) with
        held := (s.dev.gunit (unitOf a)).held ++ [⟨ag, p, a, len, false, [], e, s.clock.now, (0, 0), false⟩] }))) ∧
    (s.dev.computeAt a = false ∨ (s.dev.gunit (unitOf a)).running = none → d = (s.dev.acted a len).hbmEccs s.ctx a len e →
      exec (.ordinaryRead ag p a len e) s = .next (s.withDev (d.readAnswer ag .ok (d.hbmRead a len) (d.poisoned a len))))) ∧
  (∀ (ag : Agent) (p a : Nat) (bs : List Byte), onAliasPath ag = false → oneGran a bs.length = true →
    (s.dev.computeAt a = false → exec (.ordinaryWrite ag p a bs) s = .next (s.withDev (s.dev.putGran s.ctx a bs false))) ∧
    (s.dev.computeAt a = true → (∀ f : Fn, ag ≠ .host f) →
      exec (.ordinaryWrite ag p a bs) s = .next (s.withDev ((s.dev.glmCount p 0x050008).out (.agentData ag .regionBusy [] false))))) ∧
  (∀ (ag : Agent) (p a len : Nat) (w : Bool) (bs : List Byte) (e : List (Nat × Ecc)) (h : HeldAcc), onAliasPath ag = true →
    oneGran a (if w = true then bs.length else len) = true → s.dev.computeAt a = true →
    h = ⟨ag, p, a, len, w, bs, e, s.clock.now, (0, 0), false⟩ →
    ((s.dev.gunit (unitOf a)).running = none → exec (.glAliasPathAccess ⟨ag, p⟩ a w len bs e) s = .next (s.withDev (s.dev.serveAcc s.ctx h))) ∧
    ((s.dev.gunit (unitOf a)).running ≠ none →
      exec (.glAliasPathAccess ⟨ag, p⟩ a w len bs e) s = .next (s.withDev (s.dev.setGunit (unitOf a) { s.dev.gunit (unitOf a) with
        queue := (s.dev.gunit (unitOf a)).queue ++ [h] })))) ∧
  (∀ (f : Fn) (off len p : Nat) (e : List (Nat × Ecc)), bar2Ok s.dev f off len = true → s.dev.viewPart f = some p →
    s.dev.boundTo p f.port = true → s.dev.extSealed p (off / 2097152) = false →
    (s.dev.bufHome p off = none → ∀ s₀ : State, s = s₀.reach (pcieKey f.port) → exec (.bar2Read f off len e) s₀ =
      .next (s.withDev ((s.dev.out (.readData f (List.replicate len 0) false)).bumpPart p 0x040010 1))) ∧
    (∀ (a : Nat) (k : Bool), s.dev.bufHome p off = some (.hbm a, k) →
      ∀ s₀ : State, s = s₀.reach (pcieKey f.port) →
        exec (.bar2Read f off len e) s₀ = .next (s.withDev (s.dev.ordRead s.ctx (.host f) p (a + off % 32768) len e)))) ∧
  (∀ (f : Fn) (off p : Nat) (bs : List Byte), bar2Ok s.dev f off bs.length = true → s.dev.viewPart f = some p → s.dev.boundTo p f.port = true →
    s.dev.mem.sealed.contains (bufKey p (off / 2097152)) = false → s.dev.extIndexed p (off / 2097152) = false →
    (∀ a : Nat, s.dev.bufHome p off = some (.hbm a, false) → s.dev.computeAt (a + off % 32768) = false →
      ∀ s₀ : State, s = s₀.reach (pcieKey f.port) →
        exec (.bar2Write f off bs) s₀ = .next (s.withDev (s.dev.putGran s.ctx (a + off % 32768) bs false))) ∧
    (∀ a : Nat, s.dev.bufHome p off = some (.hbm a, true) →
      ∀ s₀ : State, s = s₀.reach (pcieKey f.port) → exec (.bar2Write f off bs) s₀ = .next (s.withDev (s.dev.bumpPart p 0x040010 1))))

/-- The model commands (R173-R182). -/
def Obligations.ModelCommandsComplete : Prop :=
  ∀ (s₀ s : State) (c : Cmd) (r : CmdRec) (q : Req), s = s₀.reach (cmdKey c) → q = reqOf c r →
  (Started 0x0300 c r s → q.clean ((List.range 7).map fun i => (i + 2, top32)) = true → 128 ≤ (q.w 4).toNat → (q.w 4).toNat ≤ 67108864 →
    exec (.mdlRegister c) s₀ =
      .next (s.acceptedAs c r [] (.register (q.w 4).toNat ((List.range 4).map fun i => (q.w (5 + i)).toNat)) s.dev)) ∧
  (∀ (m : Nat) (k : Mdl), s.dev.ownMdl q = some (m, k) → s.dev.mdlHeld q.seq m = false →
    (Started 0x0301 c r s → q.clean [(2, 0xFFFF), (3, 0x1FF)] = true → (k.shares.any fun h => !s.dev.bindOkSealed q.part h none) = false →
      (k.st = .resident → exec (.mdlLoad c) s₀ = .next (s.acceptedDone r [] .ok [wd k.origin, 0] s.dev)) ∧
      (∀ o : Nat, (k.st = .registered ∨ k.st = .faulted) → k.moveOps = 0 →
        s.dev.fit k (if bitAt (q.w 3).toNat 8 then some (q.f 3 7 0) else none) = .ok o →
        exec (.mdlLoad c) s₀ = .next (s.acceptedAs c r [] (.mdlLoad m) (s.dev.startLoad s.clock.now m k o q.seq)))) ∧
    (∀ nand : Bool, Started 0x0302 c r s → q.clean [(2, 0xFFFF), (3, 1)] = true → k.pinned = false → nand = bitAt (q.w 3).toNat 0 →
      (k.st = .loading →
        exec (.mdlEvict c) s₀ = .next ((s.acceptedAs c r [] (.mdlEvict m nand) (s.dev.setMdl m { k with
          evictOps := k.evictOps ++ [q.seq], evictAfter := some nand })).andThen fun x d => (d.evictReplies x).retryLoads x c.part)) ∧
      (k.st = .resident →
        exec (.mdlEvict c) s₀ = .next ((s.acceptedAs c r [] (.mdlEvict m nand) ((s.dev.setMdl m { k with
          evictOps := k.evictOps ++ [q.seq], evictAfter := some nand }).startEvict s.ctx m nand)).andThen
            fun x d => (d.evictReplies x).retryLoads x c.part))) ∧
    (Started 0x0303 c r s → q.clean [(2, 0xFFFF), (3, 1)] = true →
      exec (.mdlPin c) s₀ =
        .next (s.answered r .ok [] ((s.dev.setMdl m { k with pinned := bitAt (q.w 3).toNat 0 }).retryLoads s.ctx k.part))) ∧
    (Started 0x0304 c r s → q.clean [(2, 0xFFFF)] = true →
      (k.st = .resident → exec (.mdlCheck c) s₀ = .next (s.answered r .ok [wd Status.ok.code, wd k.origin] s.dev)) ∧
      (∀ o : Nat, (k.st = .registered ∨ k.st = .faulted) → s.dev.fit k none = .ok o →
        exec (.mdlCheck c) s₀ = .next (s.answered r .ok [wd Status.ok.code, wd o] s.dev)) ∧
      (∀ e : Nat × Status, (k.st = .registered ∨ k.st = .faulted) → s.dev.fit k none = .error e →
        exec (.mdlCheck c) s₀ = .next (s.answered r .ok [wd e.2.code, 0] s.dev))) ∧
    (Started 0x0305 c r s → q.clean [(2, 0xFFFF)] = true →
      exec (.mdlQuery c) s₀ = .next (s.answered r .ok [wd (k.st.code + (if k.pinned then 256 else 0) + (if k.st.holds then k.origin * 4096 else 0)),
        wd (if k.st.holds then k.cores.length else 0), wd (s.dev.hbmBytes k / 4096), wd k.faultCode] s.dev)) ∧
    (Started 0x0306 c r s → q.clean [(2, 0xFFFF)] = true → (k.st = .registered ∨ k.st = .faulted) → k.moveOps = 0 →
      (∀ e ∈ s.dev.ses.tbl, e.2.state = .free ∨ (e.2.model ≠ m ∧ e.2.compressor ≠ m)) →
      ∃ d : Dev, exec (.mdlUnregister c) s₀ = .next (s.acceptedDone r [] .ok [] d) ∧ d.grid.mdls = tdel s.dev.grid.mdls m ∧ d.ses = s.dev.ses))

/-- Prefixes, adapter lines and training jobs (R234-R242, R249). -/
def Obligations.PrefixAdapterAndTrainingCommandsComplete : Prop :=
  ∀ (s₀ s : State) (c : Cmd) (r : CmdRec) (q : Req), s = s₀.reach (cmdKey c) → q = reqOf c r →
  (∀ (e : Ses) (id : Nat) (d : Dev), Started 0x0310 c r s → s.dev.lookup q.part (q.w 2) = .ok e → q.clean [(2, top32)] = true →
    e.state = .warm → (∀ o ∈ s.dev.ops, ∀ (n : Nat) (m : MoveProg), o.2.kind ≠ .pfxSession (q.w 2) n m) → e.pfx = 0 → 1 ≤ e.ctx →
    e.ctx ≤ 1048576 →
    (s.dev.ckpHolds (q.w 2) = true →
      exec (.pfxFromSession c) s₀ = .next (s.acceptedAs c r [] (.pfxSession (q.w 2) 0 ⟨0, 0, false, false, 0⟩) s.dev)) ∧
    (s.dev.ckpHolds (q.w 2) = false → (s.dev.dropSpills s.ctx (q.w 2)).pfxOfSes q.part e = some (id, d) →
      exec (.pfxFromSession c) s₀ = .next (s.acceptedAs c r [] (.pfxSession (q.w 2) id ⟨0, 0, false, false, 0⟩) (d.takeDesc q.seq)))) ∧
  (∀ (k : Mdl) (v first count n t per id : Nat) (set : List (Nat × Nat)) (d : Dev), Started 0x0311 c r s →
    q.clean [(2, top32), (3, 0x7FFFF), (4, top32), (5, top32)] = true → s.dev.mdl (q.f 2 15 0) = some k → k.part = q.part →
    s.dev.bindAdapter q.part (q.f 2 15 0) (q.f 2 31 16) = some v → first = q.f 3 18 0 → count = (q.w 4).toNat → n = (q.w 5).toNat → 1 ≤ n →
    n ≤ 1048576 → t = pageT k.img.kvHeads k.img.headDim k.img.kvFmt → per = (n + t - 1) / t → runOk first count = true →
    k.img.layers * per ≤ 64 * count → s.dev.allWhole q.part (runExts first count) = true → s.dev.anyFrozen q.part (runExts first count) = false →
    s.dev.newSet q.part = some set →
    s.dev.newPfx q.part ⟨q.part, [], 0, false, 0, false, q.f 2 15 0, v, n, t, k.img.kvFmt, k.img.layers, per, set,
      List.replicate k.img.layers ((List.range per).map fun j => min t (n - j * t)), false, []⟩ = some (id, d) →
    exec (.pfxCreate c) s₀ = .next (s.acceptedAs c r [] (.pfxCreate id first count ⟨0, 0, false, false, 0⟩) (d.takeDesc q.seq))) ∧
  (∀ o : Share, Started 0x0312 c r s → q.clean [(2, top32)] = true → s.dev.share (q.w 2).toNat = some o → o.part = q.part → o.pfx = true →
    exec (.pfxQuery c) s₀ = .next (s.answered r .ok
      [wd (o.model + o.adapter * 65536), wd o.positions, wd (o.refs + if o.own then 1 else 0), wd (o.layers * o.pages)] s.dev)) ∧
  (∀ (m : Nat) (k : Mdl) (o : Share), s.dev.ownMdl q = some (m, k) → s.dev.adpShare q.part (q.w 3).toNat = .ok o →
    s.dev.liveVers q.part < 4096 →
    (∀ n : Nat, Started 0x0318 c r s → q.clean [(2, 0x1FFFF), (3, top32)] = true →
      (List.range 256).find? (fun n => !((s.dev.linesOf q.part (q.f 2 15 0)).any fun l => l.line == n)) = some n →
      ∃ d : Dev, exec (.adpCreate c) s₀ = .next (s.answered r .ok [wd (n + s.dev.nextVer q.part * 65536)] d) ∧
        tget d.sch.adapters (q.part * 65536 + s.dev.nextVer q.part) = some ⟨q.part, q.f 2 15 0, n, (q.w 3).toNat, true⟩ ∧
        (∃ l ∈ d.sch.lines, l.model = q.f 2 15 0 ∧ l.line = n ∧ l.bytes = o.bytes ∧ l.retired = false) ∧ d.ses = s.dev.ses) ∧
    (∀ l : AdpLine, Started 0x0319 c r s → q.clean [(2, 0xFFFFFF), (3, top32)] = true →
      s.dev.sch.lines.find? (fun l => l.model == q.f 2 15 0 && l.line == q.f 2 23 16 && !l.retired) = some l → o.bytes = l.bytes →
      exec (.adpReplace c) s₀ = .next (s.answered r .ok
        [wd (s.dev.addVer q.part (q.f 2 15 0) (q.f 2 23 16) (q.w 3).toNat).1, wd ((s.dev.curVer q.part (q.f 2 15 0) (q.f 2 23 16)).getD 0)]
        ((s.dev.addVer q.part (q.f 2 15 0) (q.f 2 23 16) (q.w 3).toNat).2.uncur q.part
          ((s.dev.curVer q.part (q.f 2 15 0) (q.f 2 23 16)).getD 0))))) ∧
  (∀ a : Adapter, Started 0x031A c r s → q.clean [(2, 0xFFFF)] = true → tget s.dev.sch.adapters (q.part * 65536 + q.f 2 15 0) = some a →
    exec (.adpQuery c) s₀ = .next (s.answered r .ok
      [wd (a.model + a.line * 65536 + if a.current then 2 ^ 24 else 0), wd (s.dev.adpCount q.part (q.f 2 15 0)), wd a.share] s.dev)) ∧
  (∀ (m : Nat) (k : Mdl) (l : AdpLine), Started 0x031B c r s → q.clean [(2, 0xFFFFFF)] = true → s.dev.ownMdl q = some (m, k) →
    s.dev.sch.lines.find? (fun l => l.model == q.f 2 15 0 && l.line == q.f 2 23 16 && !l.retired) = some l →
    ∃ (n : Word) (d : Dev), exec (.adpRetire c) s₀ = .next (s.answered r .ok [n] d) ∧
      (∀ a ∈ d.sch.lines, a.model = q.f 2 15 0 → a.line = q.f 2 23 16 → a.retired = true) ∧ d.ses = s.dev.ses) ∧
  (∀ (k : Mdl) (id : Nat), Started 0x0320 c r s → s.dev.mdl (q.f 2 15 0) = some k → k.part = q.part →
    q.clean [(2, 0x1FFFF), (3, top32), (4, top32), (5, top32), (6, top32), (7, top32), (8, top32), (9, top32)] = true → 1 ≤ (q.w 9).toNat →
    s.dev.mutableRun q.part (q.w 3).toNat (q.w 4).toNat = true → runOk (q.w 5).toNat (q.w 6).toNat = true →
    s.dev.allMapped q.part (runExts (q.w 5).toNat (q.w 6).toNat) = true → s.dev.mutableRun q.part (q.w 7).toNat (q.w 8).toNat = true →
    s.dev.liveJobs q.part < 4 → id = nextId (fun n => thas s.dev.sch.jobs n) top32 s.dev.sch.jobs.length s.dev.sch.lastJob →
    exec (.trnStart c) s₀ = .next (s.acceptedAs c r [wd id] (.train id) { s.dev with sch := { s.dev.sch with
      jobs := tset s.dev.sch.jobs id ⟨q.part, q.seq, q.f 2 15 0, bitAt (q.w 2).toNat 16, ((q.w 3).toNat, (q.w 4).toNat),
        ((q.w 5).toNat, (q.w 6).toNat), ((q.w 7).toNat, (q.w 8).toNat), (q.w 9).toNat, 0, 0, false, false⟩
      lastJob := id } })) ∧
  (∀ j : TrainJob, Started 0x0322 c r s → q.clean [(2, top32)] = true → s.dev.ownJob q = some j →
    exec (.trnQuery c) s₀ = .next (s.answered r .ok [wd j.donesteps, wd j.st] s.dev)) ∧
  (∀ j : TrainJob, Started 0x0321 c r s → q.clean [(2, top32)] = true → s.dev.ownJob q = some j → j.inStep = true →
    exec (.trnStop c) s₀ = .next (s.answered r .ok [] { s.dev with sch := { s.dev.sch with
      jobs := tset s.dev.sch.jobs (q.w 2).toNat { j with stop := true } } }))

/-- Spill, fetch-back, training steps and the split of energy (R223-R225, R249, R258, R259). -/
def Obligations.AttentionEventsTakeEffect : Prop :=
  ∀ (s : State), s.clock.power = true →
  (∀ p : Nat,
    (s.dev.poolBelow p (s.dev.spillHigh p) = false →
      ∀ s₀ : State, s = s₀.follow →
        exec (.spillMoveStart p) s₀ = .next (s.withDev { s.dev with mem := { s.dev.mem with spilling := s.dev.mem.spilling.filter (· != p) } })) ∧
    (s.dev.poolBelow p (s.dev.spillHigh p) = true → s.dev.poolBelow p (s.dev.spillLow p) = true ∨ s.dev.mem.spilling.contains p = true →
      ∀ s₀ : State, s = s₀.follow → exec (.spillMoveStart p) s₀ = .next (s.withDev
        (({ s.dev with mem := { s.dev.mem with spilling := addNum p s.dev.mem.spilling } } : Dev).spillMany s.ctx p 64)))) ∧
  (∀ (id p l j u a : Nat) (h : Word) (src : CmdSrc) (woken : Bool) (d d1 : Dev),
    tget s.dev.ops id = some ⟨src, p, .spill h l j u true, woken⟩ → s.dev.hasDesc id = true → s.dev.pageHome h l j = some (.hbm a) →
    d = ((((s.dev.setPage h l j fun pg => { pg with spilled := true, home := .nand u }).release s.ctx (.hbm a) (.nand u)).bumpPart p
      0x04030C 1).charge h 3 32768) → d1 = { d.freeDesc id with ops := tdel d.ops id } →
    ∀ s₀ : State, s = s₀.reach (evKey 5 0 (source 4 0)) → exec (.spillSwitch id) s₀ = .next (s.withDev ((if (woken ||
      !(s.dev.fetchesOf h).isEmpty || (s.dev.sesOf h).elim false fun e => e.state == .waiting) then d1.fetchBack s.ctx h else d1).schedule s.ctx))) ∧
  (∀ (id p l j g u : Nat) (h : Word) (src : CmdSrc) (ab : Bool) (d d1 : Dev),
    tget s.dev.ops id = some ⟨src, p, .fetchBack h l j (some g), ab⟩ → s.dev.reach s.ctx .culm (1, id) [(granAddr g, 32768)] = (.go, d) →
    d.pageHome h l j = some (.nand u) →
    d1 = ((({ d with ops := tdel d.ops id } : Dev).copyTo s.ctx (.nand u) (granAddr g)).setPage h l j
      fun pg => { pg with spilled := false, home := .hbm (granAddr g) }) →
    ∀ s₀ : State, s = s₀.reach (evKey 5 0 (source 4 0)) → exec (.fetchBackSwitch id) s₀ = .next (s.withDev
      ((((d1.freeUnits [u]).charge h 2 32768).fetchDone s.ctx h).schedule s.ctx))) ∧
  (∀ (id p l j g : Nat) (h : Word) (src : CmdSrc) (ab : Bool) (e : Ses) (k : Kv) (d : Dev) (l1 l2 : List (Nat × Op)),
    s.dev.ops = l1 ++ (id, ⟨src, p, .fetchBack h l j none, ab⟩) :: l2 →
    (∀ o ∈ l1, o.2.part = p → ∀ (h : Word) (l j : Nat), o.2.kind ≠ .fetchBack h l j none) → s.dev.sesOf h = some e → e.kv = some k →
    (s.dev.pageHome h l j).elim false Home.isNand = true → s.dev.takeMember p k.set .kv 8 ((l + k.pfxPages + j) % 8) = some (g, d) →
    ∀ s₀ : State, s = s₀.follow → exec (.fetchBackPagePlace p) s₀ = .next (s.withDev (d.setOp id (.fetchBack h l j (some g))))) ∧
  (∀ (id : Nat) (j : TrainJob) (k : Mdl), tget s.dev.sch.jobs id = some j → s.dev.mdl j.model = some k →
    (j.st ≠ 2 → j.inStep = false → s.dev.resident j.model = true → s.dev.idleFor j.part = true →
      ∀ s₀ : State, s = s₀.follow →
        ∃ t, exec (.trainingStepStart id) s₀ = .next t ∧ tget t.dev.sch.jobs id = some { j with st := 1, inStep := true } ∧
        (∀ n ∈ k.cores, (t.dev.core n).inStep = true ∧ (t.dev.core n).fresh = true ∧ (t.dev.core n).done = false) ∧ t.dev.mem = s.dev.mem ∧
        t.dev.ses = s.dev.ses) ∧
    (j.inStep = true → (∀ n ∈ k.cores, (s.dev.core n).done = true) → (tget s.dev.ops j.op).elim false Op.aborted = false → j.stop = false →
      j.donesteps + 1 < j.steps →
      ∀ s₀ : State, s = s₀.reach (evKey 5 0 (source 7 0)) → ∃ t, exec (.trainingStepBoundary id) s₀ = .next t ∧
        tget t.dev.sch.jobs id = some { j with donesteps := j.donesteps + 1, inStep := false, st := 0 } ∧ t.dev.mem = s.dev.mem ∧
        t.dev.ses = s.dev.ses)) ∧
  (∀ p e : Nat, p < 16 → tgetD s.dev.sch.split p 0 < s.meter.made → e = (s.meter.energy[p]?).getD 0 →
    nsum ((s.dev.sch.nsThisSec.filter fun n => n.1 / 2 ^ 24 == p).map Prod.snd) = 0 →
    ∀ s₀ : State, s = s₀.follow → exec (.energySplit p) s₀ = .next (s.withDev { s.dev with sch := { s.dev.sch with
      energy := addTo s.dev.sch.energy p e
      unattr := addTo s.dev.sch.unattr p e
      nsThisSec := s.dev.sch.nsThisSec.filter fun n => n.1 / 2 ^ 24 != p
      split := tset s.dev.sch.split p s.meter.made } }))

/-- Requests, batch steps and the deadline monitor (R243-R260). -/
def Obligations.ServingRowsTakeEffect : Prop :=
  (∀ (s₀ s : State) (c : Cmd) (r : CmdRec) (q : Req) (e : Ses), s = s₀.reach (cmdKey c) → q = reqOf c r → s.dev.lookup q.part (q.w 2) = .ok e →
    (Started 0x0400 c r s →
      q.clean [(2, top32), (3, 0xFFFFF), (4, 0xFFFFF), (5, 0xFFFFFF), (6, 0xFF33), (7, top32), (8, 0xFFFF), (9, top32)] = true → q.f 3 19 0 ≠ 0 →
      q.f 6 1 0 ≠ 3 → q.f 6 15 8 ≤ 63 → e.state ≠ .free →
      exec (.reqTemplate c) s₀ = .next (s.answered r .ok [] { s.dev with sch := { s.dev.sch with
        tmpls := tset s.dev.sch.tmpls (hKey (q.w 2)) ⟨q.f 3 19 0, q.f 4 19 0, q.f 5 23 0, q.f 6 1 0, bitAt (q.w 6).toNat 4, bitAt (q.w 6).toNat 5,
          q.f 6 15 8, q.w 7, q.f 8 15 0, q.w 9⟩ } })) ∧
    (∀ t : Request, Started 0x0402 c r s → q.clean [(2, top32)] = true → s.dev.req e.request = some t →
      (s.dev.rowRunning (q.w 2) = true →
        exec (.reqCancel c) s₀ = .next (s.answered r .ok [wd t.num] (s.dev.setReq t.num { t with endNow := some .aborted }))) ∧
      (s.dev.rowRunning (q.w 2) = false →
        exec (.reqCancel c) s₀ = .next (s.answered r .ok [wd t.num]
          (((s.dev.finishReq s.ctx (q.w 2) true []).afterReq s.ctx (q.w 2)).schedule s.ctx)))) ∧
    (∀ t : Request, Started 0x0403 c r s → q.clean [(2, top32)] = true → s.dev.req e.request = some t →
      exec (.reqQuery c) s₀ = .next (s.answered r .ok [wd t.num, wd t.generated, loW t.projection, hiW t.projection] s.dev)) ∧
    (Started 0x0403 c r s → q.clean [(2, top32)] = true → s.dev.req e.request = none →
      exec (.reqQuery c) s₀ = .next (s.answered r .ok [0, 0, 0, 0] s.dev)) ∧
    (Started 0x0411 c r s → q.clean [(2, top32), (3, top32), (4, top32)] = true → q.d2 3 % 64 = 0 →
      exec (.schAcctRead c) s₀ = .next (s.answered r .ok [loW e.engineNs, hiW e.engineNs, wd (e.energy / 1000), wd (nsum e.bytes / 4096)]
        (s.dev.out (.hostWrite r.fn.port (q.d2 3) e.acctRecord))))) ∧
  (∀ (s₀ s : State) (c : Cmd) (r : CmdRec) (q : Req) (k : Mdl), s = s₀.reach (cmdKey c) →
    q = reqOf c r → Started 0x0410 c r s → s.dev.mdl (q.f 2 15 0) = some k →
    k.part = q.part → q.clean [(2, top32), (3, 0x1FFF), (4, 0x3FFF)] = true → q.f 3 12 0 % 64 = 0 → q.f 3 12 0 ≤ 4096 →
    (q.f 4 13 0 = 0 ∨ (64 ≤ q.f 4 13 0 ∧ q.f 4 13 0 ≤ 8192)) →
    (q.f 2 31 16 = 0 ∨ (q.f 2 31 16 ≠ q.f 2 15 0 ∧ ∃ g, s.dev.mdl (q.f 2 31 16) = some g ∧ g.part = k.part ∧ g.img.layers = k.img.layers ∧
      g.img.kvHeads = k.img.kvHeads ∧ g.img.headDim = k.img.headDim ∧ g.img.kvFmt = k.img.kvFmt)) →
    exec (.schModelCfg c) s₀ = .next (s.answered r .ok [] { s.dev with sch := { s.dev.sch with
      mcfg := tset s.dev.sch.mcfg (q.f 2 15 0) (q.f 2 31 16, q.f 3 12 0, q.f 4 13 0) } })) ∧
  (∀ (s : State) (m : Nat) (k : Mdl), s.clock.power = true → s.dev.mdl m = some k →
    (∀ (row : Row) (e : Ses), (s.dev.batch m).decided = true → (s.dev.batch m).running = false → k.st = .resident → k.reloading = false →
      (s.dev.batch m).rows = [row] → row.kind ≠ 3 → s.dev.sesOf row.h = some e → (e.state = .opened ∨ e.state = .running) →
      e.request = row.req → (∀ g ∈ s.dev.rowGrans row, thas s.dev.mem.copying g = false) →
      ∀ s₀ : State, s = s₀.follow → ∃ t, exec (.batchStepStart m) s₀ = .next t ∧ (t.dev.batch m).running = true ∧ (t.dev.batch m).decided = false ∧
        (t.dev.batch m).step = (s.dev.batch m).step + 1 ∧ (t.dev.batch m).startAt = s.clock.now ∧
        ∀ n ∈ k.cores, (t.dev.core n).inStep = true ∧ (t.dev.core n).fresh = true ∧ (t.dev.core n).done = false) ∧
    (∀ ts : List Nat, (s.dev.batch m).running = true → (∀ n ∈ k.cores, (s.dev.core n).done = true) → (s.dev.batch m).rows = [] → k.st ≠ .evicting →
      ∀ s₀ : State, s = s₀.reach (evKey 5 0 (source 7 0)) →
        ∃ d : Dev, exec (.batchStepEnd m ts) s₀ = .next (s.withDev (((d.decide_ s.ctx m).idleRows s.ctx m []).schedule s.ctx)) ∧
        (d.batch m).running = false ∧ d.ses = s.dev.ses ∧ d.mem = s.dev.mem)) ∧
  (∀ (s : State) (d : Dev), s.clock.power = true → s.dev.sch.monLast < s.clock.now / 12500 →
    d = { s.dev with sch := { s.dev.sch with monLast := s.clock.now / 12500 } } →
    ∀ s₀ : State, s = s₀.reach (evKey 8 0 (source 7 0)) →
      exec .monitorPass s₀ = .next (s.withDev (((tkeys s.dev.sch.reqs).foldl (fun d n => d.monitorOne s.ctx n)
        (if s.clock.now % 12500 = 0 then d else d.bumpDev 0x070100 1)).schedule s.ctx))) ∧
  (∀ (s : State) (h : Word) (e : Ses) (t : Request) (d : Dev), s.clock.power = true → s.dev.sesOf h = some e → s.dev.req e.request = some t →
    t.deadline ≠ 0 → t.deadline ≤ s.clock.now → t.expired = false → d = s.dev.setReq t.num { t with expired := true } →
    (t.tmpl.late ≠ 1 → t.tmpl.late ≠ 2 ∨ s.dev.rowRunning h = true → ∀ s₀ : State, s = s₀.reach (evKey 6 0 (source 7 0)) →
      exec (.deadlineExpiry h) s₀ = .next (s.withDev d)) ∧
    (t.tmpl.late = 1 → ∀ s₀ : State, s = s₀.reach (evKey 6 0 (source 7 0)) →
      exec (.deadlineExpiry h) s₀ = .next (s.withDev ((if t.switched = true ∨ d.resident t.fallback = false ∨ t.fallback = 0 then d
        else d.tryFallback s.ctx e { t with expired := true }).schedule s.ctx))) ∧
    (t.tmpl.late = 2 → s.dev.rowRunning h = false → ∀ s₀ : State, s = s₀.reach (evKey 6 0 (source 7 0)) →
      exec (.deadlineExpiry h) s₀ = .next (s.withDev ((((d.setReq t.num { t with expired := true, endNow := some .deadlineLate }).finishReq s.ctx h
        false []).afterReq s.ctx h).schedule s.ctx))))

/-- The text commands and Spelt's lanes (R261-R276, R284, R290, R291). -/
def Obligations.TextRowsTakeEffect : Prop :=
  (∀ (s₀ s : State) (c : Cmd) (r : CmdRec) (q : Req), s = s₀.reach (cmdKey c) → q = reqOf c r →
    (∀ (e : Ses) (text : List Byte) (bad : Bool) (tr : TxtReq) (d1 d2 d3 : Dev) (off num : Nat), Started 0x0401 c r s →
      s.dev.lookup q.part (q.w 2) = .ok e → q.clean [(2, top32), (3, top32), (4, 0xFF), (5, top32), (6, top32), (7, top32)] = true →
      1 ≤ (q.w 5).toNat → (q.w 5).toNat ≤ 16777216 → e.state ≠ .free → e.state ≠ .moving → e.state ≠ .closing →
      off = bufOff (q.w 3).toNat (q.f 4 7 0) → s.dev.bufSealed q.part off (q.w 5).toNat = false →
      s.dev.bufRead q.part off (q.w 5).toNat = some (text, bad) → s.dev.sesText (q.w 2) e (.submit q.seq) off text bad false = some tr →
      d1 = (if e.request = 0 then s.dev.startReq s.ctx (q.w 2) (q.d2 6) true else s.dev) → num = (d1.sesOf (q.w 2)).elim 0 Ses.request →
      d2 = (match d1.req num with
        | some t => d1.setReq num { t with ops := t.ops ++ [q.seq] }
        | none => d1) →
      d3 = d2.addText tr →
      exec (.reqSubmit c) s₀ = .next (s.acceptedAs c r [wd num] (.submit (q.w 2) num none) (d3.submitRevive s.ctx (q.w 2)))) ∧
    (Started 0x0500 c r s → q.clean [(2, top32), (3, top32), (4, top32), (5, 0x703), (6, top32)] = true → s.dev.sliceBusy q.part 8 = false →
      exec (.txtTableLoad c) s₀ = .next (s.acceptedAs c r [] (.tableLoad (q.f 5 1 0) (q.f 5 10 8) (q.w 4).toNat (q.w 6)) s.dev)) ∧
    (Started 0x0501 c r s → q.clean [(2, 0xFFFF), (3, 0x107)] = true → q.f 2 15 0 ≤ 4095 → s.dev.sliceBusy q.part 8 = false →
      ∃ w : List Word, exec (.txtModelTok c) s₀ = .next (s.answered r .ok w (s.dev.setShd q.part { s.dev.txtShd q.part with
        mmap := if bitAt (q.w 3).toNat 8 then tdel (s.dev.txtShd q.part).mmap (q.f 2 15 0)
          else tset (s.dev.txtShd q.part).mmap (q.f 2 15 0) (q.f 3 2 0) }))) ∧
    (Started 0x0502 c r s → q.clean [(2, 0x1070F), (3, top32)] = true → s.dev.sliceBusy q.part 8 = false →
      (bitAt (q.w 2).toNat 16 = true → tget (s.dev.txtShd q.part).grams (q.f 2 3 0) = none →
        exec (.txtGrammarSet c) s₀ = .next (s.answered r .ok [] (s.dev.setShd q.part { s.dev.txtShd q.part with
          grams := tdel (s.dev.txtShd q.part).grams (q.f 2 3 0) }))) ∧
      (∀ o : Share, bitAt (q.w 2).toNat 16 = false → tget (s.dev.txtShd q.part).grams (q.f 2 3 0) = none →
        s.dev.share (q.w 3).toNat = some o → o.part = q.part → o.own = true → o.sealed = false → s.dev.grammarOk o = true →
        exec (.txtGrammarSet c) s₀ = .next (s.answered r .ok [wd (leAt (s.dev.shareRead o 0 64) 4 4), wd (leAt (s.dev.shareRead o 0 64) 8 4)]
          ((s.dev.shareRef (q.w 3).toNat).setShd q.part { s.dev.txtShd q.part with
            grams := tset (s.dev.txtShd q.part).grams (q.f 2 3 0) ((q.w 3).toNat, q.f 2 10 8) })))) ∧
    (∀ e : Ses, Started 0x0503 c r s → s.dev.lookup q.part (q.w 2) = .ok e → q.clean [(2, top32)] = true → s.dev.req e.request = none →
      exec (.txtQuery c) s₀ = .next (s.answered r .ok [0, 0, 0] s.dev)) ∧
    (∀ (e : Ses) (t : Request) (g : GramSt), Started 0x0503 c r s → s.dev.lookup q.part (q.w 2) = .ok e → q.clean [(2, top32)] = true →
      s.dev.req e.request = some t → t.gram = some g →
      exec (.txtQuery c) s₀ = .next (s.answered r .ok [wd g.state, wd (g.stack.length + t.hold.length * 65536), wd t.generated] s.dev)) ∧
    (∀ (k off : Nat) (sl : TokSlot) (text : List Byte) (bad : Bool), s.dev.tokSlot q.part (q.f 2 15 0) = some (k, sl) →
      off = bufOff (q.w 3).toNat (q.f 4 7 0) →
      (Started 0x0504 c r s → q.clean [(2, 0x1FFFF), (3, top32), (4, 0xFF), (5, top32), (6, top32), (7, 0xFF), (8, top32)] = true →
        (q.w 5).toNat ≠ 0 → s.dev.bufSealed q.part off (q.w 5).toNat = false →
        s.dev.bufRead q.part off (q.w 5).toNat = some (text, bad) →
        exec (.txtTokenize c) s₀ = .next (s.acceptedAs c r [] (.tokenize (bufOff (q.w 6).toNat (q.f 7 7 0)) (q.w 8).toNat)
          (s.dev.addText ⟨0, 2, q.part, 0, .tokenize q.seq, text, bad, bitAt (q.w 2).toNat 16, some k, sl, s.dev.vocabSize q.part k, none, none,
            false, (q.w 8).toNat, q.f 2 15 0, off, false⟩))) ∧
      (Started 0x0505 c r s → q.clean [(2, 0xFFFF), (3, top32), (4, 0xFF), (5, top32), (6, top32), (7, 0xFF), (8, top32)] = true →
        (q.w 5).toNat ≠ 0 → (q.w 5).toNat ≤ tokCap → s.dev.bufSealed q.part off (4 * (q.w 5).toNat) = false →
        s.dev.bufRead q.part off (4 * (q.w 5).toNat) = some (text, bad) →
        exec (.txtDetokenize c) s₀ = .next (s.acceptedAs c r [] (.detok (bufOff (q.w 6).toNat (q.f 7 7 0)) (q.w 8).toNat)
          (s.dev.addText ⟨0, 2, q.part, 0, .detok q.seq, text, bad, false, some k, sl, s.dev.vocabSize q.part k, none, none, false,
            (q.w 8).toNat, q.f 2 15 0, off, false⟩))))) ∧
  (∀ (s : State) (die l : Nat) (tr : TxtReq) (d : Dev), s.clock.power = true → die < 2 → s.dev.freeLane die = some l →
    s.dev.nextText die = some tr →
    (s.dev.reach s.ctx .spelt (9, tr.id) (s.dev.runAddrs tr.part tr.off tr.text.length) = (.go, d) → ∀ s₀ : State, s = s₀.follow →
      exec (.speltIntake die) s₀ = .next (s.withDev (d.setText { d.bindText tr with die := die, lane := some l }))) ∧
    (s.dev.reach s.ctx .spelt (9, tr.id) (s.dev.runAddrs tr.part tr.off tr.text.length) = (.busy, d) → ∀ s₀ : State, s = s₀.follow →
      exec (.speltIntake die) s₀ = .next (s.withDev (d.setText
        { d.bindText tr with die := die, lane := some l, poisoned := true, busy := true })))) ∧
  (∀ (s : State) (die lane : Nat) (tr : TxtReq) (d : Dev), s.clock.power = true →
    s.dev.txt.reqs.find? (fun t => t.die == die && t.lane == some lane) = some tr →
    d = (({ s.dev with txt := { s.dev.txt with reqs := s.dev.txt.reqs.filter fun t => t.id != tr.id } } : Dev).drainEnd (drainId 24 tr.id)).tapAdd
      tr.part 7 tr.text.length →
    (∀ n : Nat, tr.src = .slot n → ∀ s₀ : State, s = s₀.reach (evKey 5 0 (source 8 die)) →
      exec (.speltRequestEnd die lane) s₀ = .next (s.withDev (d.sesTextEnd s.ctx tr))) ∧
    (∀ op : Nat, tr.src = .submit op → ∀ s₀ : State, s = s₀.reach (evKey 5 0 (source 8 die)) →
      exec (.speltRequestEnd die lane) s₀ = .next (s.withDev (d.sesTextEnd s.ctx tr))) ∧
    (∀ op : Nat, tr.src = .tokenize op → ∀ s₀ : State, s = s₀.reach (evKey 5 0 (source 8 die)) →
      exec (.speltRequestEnd die lane) s₀ = .next (s.withDev (d.tokenizeEnd s.ctx tr op))) ∧
    (∀ op : Nat, tr.src = .detok op → ∀ s₀ : State, s = s₀.reach (evKey 5 0 (source 8 die)) →
      exec (.speltRequestEnd die lane) s₀ = .next (s.withDev (d.detokEnd s.ctx tr op))))

/-- The network commands (R297, R306-R316, R324). -/
def Obligations.NetworkCommandsComplete : Prop :=
  ∀ (s₀ s : State) (c : Cmd) (r : CmdRec) (q : Req), s = s₀.reach (cmdKey c) → q = reqOf c r →
  (∀ (g : Gid) (d : Dev), Started 0x0600 c r s → q.clean [(2, 0x71F0F0F), (3, 0x1FF), (4, 0x1FF), (5, 0x1F)] = true → 3 ≤ q.f 2 26 24 →
    q.f 2 26 24 ≤ 5 → 1 ≤ q.f 5 4 0 → q.f 5 4 0 ≤ 16 → (bitAt (q.w 2).toNat 17 = true → bitAt (q.w 2).toNat 16 = true) →
    (bitAt (q.w 2).toNat 19 = true → bitAt (q.w 2).toNat 16 = true) → bitAt (q.w 3).toNat 8 = false → bitAt (q.w 4).toNat 8 = false →
    s.dev.subUp (q.f 2 3 0) = true → tget s.dev.net.gids (q.f 2 3 0 * 16 + q.f 2 11 8) = some g → g.valid = true → g.owner = q.part →
    (s.dev.net.qps.filter fun e => e.2.part == q.part).length < fld (s.dev.devReg (0x090200 + q.part * 0x10)) 20 0 →
    bitAt (q.w 2).toNat 20 = false → s.dev.makePlace (q.f 2 3 0 / 8) = some d →
    ∃ t : Qp, exec (.netQpCreate c) s₀ = .next (s.answered r .ok [wd s.dev.freeQpn] (d.setQp s.dev.freeQpn t)) ∧ t.part = q.part ∧
      t.sub = q.f 2 3 0 ∧ t.st = 0 ∧ t.mtu = (if q.f 2 26 24 = 3 then 1024 else if q.f 2 26 24 = 4 then 2048 else 4096) ∧ t.paths = q.f 5 4 0 ∧
      t.ext = bitAt (q.w 2).toNat 16 ∧ t.sends = [] ∧ t.reasm = []) ∧
  (∀ t : Qp, s.dev.ownQp q.part (q.w 2).toNat = some t →
    (Started 0x0601 c r s → q.clean [(2, 0xFFFFF), (3, 0xFFFFFF), (4, top32), (5, top32), (6, top32), (7, top32), (8, top32), (9, 0xFFFF),
        (10, 0xFFFFFF), (11, 0xFFFFFF), (12, 0x3F771F), (13, 0xFFFF)] = true →
      (t.enc = true → thas s.dev.sec.conn (q.part * 65536 + q.f 13 15 0) = true) → t.st = 0 →
      exec (.netQpConnect c) s₀ = .next (s.answered r .ok [] (s.dev.setQp (q.w 2).toNat { t with
        st := 1
        rqpn := q.f 3 23 0
        raddr := q.d2 4 + q.d2 6 * 2 ^ 64
        dmac := (q.w 8).toNat + q.f 9 15 0 * 2 ^ 32
        sendPsn := q.f 10 23 0
        expPsn := q.f 11 23 0
        ackCode := q.f 12 4 0
        retry := q.f 12 10 8
        rnrRetry := q.f 12 14 12
        dscp := q.f 12 21 16
        key := q.f 13 15 0 }))) ∧
    (Started 0x0602 c r s → q.clean [(2, 0xFFFFF)] = true →
      ∃ d : Dev, exec (.netQpDestroy c) s₀ = .next (s.acceptedDone r [] .ok [wd (t.sends.length +
          (s.dev.net.deferred.filter fun e => e.2.2.1 == (q.w 2).toNat).length)] ((d.pumpPart s.ctx q.part).reedSettle s.ctx)) ∧
        d.qp (q.w 2).toNat = none) ∧
    (Started 0x0603 c r s → q.clean [(2, 0xFFFFF)] = true →
      exec (.netQpQuery c) s₀ = .next (s.answered r .ok [wd (t.st + if t.place = .chip then 256 else 0), wd t.count, wd t.reasm.length,
        wd (s.dev.net.ewrs.filter fun e => e.1 / 2 ^ 32 == (q.w 2).toNat).length] s.dev))) ∧
  (∀ off i : Nat, off = bufOff (q.w 2).toNat (q.f 3 7 0) → 4 ≤ q.f 4 4 0 → q.f 4 4 0 ≤ 16 →
    (Started 0x0608 c r s → q.clean [(2, top32), (3, 0xFF), (4, 0x1F), (5, 0x1FF)] = true → bitAt (q.w 5).toNat 8 = false →
      (s.dev.bufRun q.part true (runFuel (64 + 16 * 2 ^ q.f 4 4 0)) off (64 + 16 * 2 ^ q.f 4 4 0)).isSome = true →
      freeNum s.dev.net.srqs q.part = some i →
      exec (.netSrqCreate c) s₀ = .next (s.answered r .ok [wd i] { s.dev with net := { s.dev.net with
        srqs := tset s.dev.net.srqs (q.part * 256 + i) ⟨q.part, off, q.f 4 4 0, none, 0⟩ } })) ∧
    (Started 0x060A c r s → q.clean [(2, top32), (3, 0xFF), (4, 0x11F)] = true →
      (s.dev.bufRun q.part true (runFuel (64 + 32 * 2 ^ q.f 4 4 0)) off (64 + 32 * 2 ^ q.f 4 4 0)).isSome = true →
      freeNum s.dev.net.cqs q.part = some i →
      exec (.netCqCreate c) s₀ = .next (s.answered r .ok [wd i] { s.dev with net := { s.dev.net with
        cqs := tset s.dev.net.cqs (q.part * 256 + i) ⟨q.part, off, q.f 4 4 0, bitAt (q.w 4).toNat 8, 0, 0, none⟩ } }))) ∧
  (Started 0x0609 c r s → q.clean [(2, 0xFF)] = true → thas s.dev.net.srqs (q.part * 256 + q.f 2 7 0) = true →
    (∀ e ∈ s.dev.net.qps, e.2.part = q.part → e.2.srq ≠ some (q.f 2 7 0)) →
    exec (.netSrqDestroy c) s₀ = .next (s.answered r .ok [] { s.dev with net := { s.dev.net with
      srqs := tdel s.dev.net.srqs (q.part * 256 + q.f 2 7 0) } })) ∧
  (Started 0x060B c r s → q.clean [(2, 0xFF)] = true → thas s.dev.net.cqs (q.part * 256 + q.f 2 7 0) = true →
    (∀ e ∈ s.dev.net.qps, e.2.part = q.part → s.dev.msgCq e.2 ≠ some (q.f 2 7 0)) →
    exec (.netCqDestroy c) s₀ = .next (s.answered r .ok [] { s.dev with net := { s.dev.net with
      cqs := tdel s.dev.net.cqs (q.part * 256 + q.f 2 7 0) } })) ∧
  (∀ (t : Qp) (k off len : Nat) (w : Word), Started 0x0610 c r s → s.dev.ownQp q.part (q.f 2 19 0) = some t →
    q.clean [(2, 0xFFFFF), (3, 0x707), (4, top32), (5, 0xFF), (6, top32), (7, top32), (8, top32), (9, top32), (10, top32), (11, 0xFFFFF),
      (12, top32), (13, 0xFFFFF), (14, top32)] = true → k = q.f 3 2 0 → k ≤ 4 → off = bufOff (q.w 4).toNat (q.f 5 7 0) → len = (q.w 6).toNat →
    (t.ext = true → len ≤ 1024 * t.mtu) → len ≤ 2 ^ 31 → (s.dev.bufRun q.part (k == 4) (runFuel len) off len).isSome = true →
    bitAt (q.w 3).toNat 8 = false → bitAt (q.w 3).toNat 9 = false → bitAt (q.w 3).toNat 10 = false → t.st = 1 → t.sends.length < 4096 →
    w = wd s.dev.takeFree.1 → c.w 2 = q.w 2 →
    exec (.netSend c) s₀ = .next ((s.acceptedAs c r [] (.other 0x0610 (q.f 2 19 0) 0 0) (s.dev.takeFree.2.setQp (q.f 2 19 0) { t with
      sends := t.sends ++ [Send.new q.seq k off len none (q.d2 7) w (q.w 9) none none] })).andThen fun x d => d.afterSends x (q.f 2 19 0))) ∧
  (∀ (t : Qp) (off len : Nat) (d : Dev), s.dev.ownQp q.part (q.f 2 19 0) = some t → off = bufOff (q.w 4).toNat (q.f 5 7 0) →
    len = (q.w 6).toNat → Started 0x0618 c r s →
    q.clean [(2, 0xFFFFF), (3, top32), (4, top32), (5, 0xFF), (6, top32), (7, top32), (8, 7)] = true → t.event = true → (q.w 3).toNat ≠ 0 →
    1 ≤ len → len ≤ 4194304 → off + len ≤ 2 ^ 39 → (s.dev.bufRun q.part true (runFuel len) off len).isSome = true → t.st ≠ 2 → q.w 7 = 0 →
    s.dev.ewrPost q.part (q.f 2 19 0) (q.w 3).toNat off len false none = .ok d →
    exec (.netEwrPost c) s₀ = .next (s.answered r .ok [wd (ewrEnts off len)] d)) ∧
  (∀ t : Qp, s.dev.ownQp q.part (q.f 2 19 0) = some t → Started 0x0619 c r s → q.clean [(2, 0xFFFFF), (3, top32)] = true →
    exec (.netEwrWithdraw c) s₀ = .next (s.answered r .ok [if (s.dev.ewr (q.f 2 19 0) (q.w 3).toNat).isSome then 1 else 0]
      (s.dev.withdrawEwr s.ctx (q.f 2 19 0) (q.w 3).toNat))) ∧
  (Started 0x0620 c r s → q.clean [(2, 0x710F0F0F), (3, 0xFFF), (4, top32), (5, top32), (6, top32), (7, top32)] = true →
    (∀ e ∈ s.dev.net.qps, e.2.sub ≠ q.f 2 3 0 ∨ e.2.gid ≠ q.f 2 11 8) →
    exec (.netGidSet c) s₀ = .next (s.answered r .ok [] { s.dev with net := { s.dev.net with
      gids := tset s.dev.net.gids (q.f 2 3 0 * 16 + q.f 2 11 8)
        ⟨q.d2 4 + q.d2 6 * 2 ^ 64, q.f 3 11 0, q.f 2 30 28, q.f 2 19 16, bitAt (q.w 2).toNat 24⟩ } })) ∧
  (Started 0x0621 c r s → q.clean [(2, top32), (3, top32)] = true → q.d2 2 % 4096 = 0 →
    exec (.netCtxArea c) s₀ =
      .next (s.answered r .ok [] { s.dev with net := { s.dev.net with areas := tset s.dev.net.areas r.fn.port (q.d2 2) } })) ∧
  (Started 0x0622 c r s → q.clean [(2, 0xF)] = true →
    ∃ a b : Word, exec (.netPortQuery c) s₀ = .next (s.answered r .ok [wd ((if bitAt s.dev.net.links (q.f 2 3 0) then 1 else 0) +
      if (s.dev.net.gids.any fun g => g.1 / 16 == q.f 2 3 0 && g.2.valid && g.2.owner == q.part) then 2 else 0), a, b,
      wd (tgetD s.dev.net.drops (q.f 2 3 0) 0)] { s.dev with free := s.dev.free + 2 }))

/-- The events of Ethernet ports and of queue pairs (R293-R322). -/
def Obligations.NetworkEventsTakeEffect : Prop :=
  (∀ (s : State), s.clock.power = true →
    (∀ f : Frame, f.sub < 16 →
      (frameOk f = true → ∀ s₀ : State, s = s₀.reach (netKey f.sub) → exec (.frameReceive f) s₀ = .next s) ∧
      (frameOk f = false → ∀ s₀ : State, s = s₀.reach (netKey f.sub) →
        exec (.frameReceive f) s₀ = .next (s.withDev { s.dev with net := { s.dev.net with
        drops := tset s.dev.net.drops f.sub (satAdd top32 (tgetD s.dev.net.drops f.sub 0) 1) } }))) ∧
    (∀ sub prio : Nat, sub < 16 → prio < 8 → bitAt (fld (s.dev.devReg (0x090100 + sub / 4 * 4)) 23 16) prio = true →
      (∀ s₀ : State, s = s₀.reach (netKey sub) → exec (.pfcFrame sub prio true) s₀ = .next (s.withDev { s.dev with net := { s.dev.net with
        paused := tset s.dev.net.paused sub (setBit (tgetD s.dev.net.paused sub 0) prio) } })) ∧
      ∀ s₀ : State, s = s₀.reach (netKey sub) → exec (.pfcFrame sub prio false) s₀ = .next (s.withDev { s.dev with net := { s.dev.net with
        paused := tset s.dev.net.paused sub (clrBit (tgetD s.dev.net.paused sub 0) prio) } })) ∧
    (∀ sub t : Nat, (∃ g ∈ s.dev.net.gids, g.1 / 16 = sub ∧ g.2.valid = true ∧ g.2.addr = t) →
      ∀ s₀ : State, s = s₀.reach (netKey sub) → exec (.arpRequest sub t) s₀ = .next (s.withDev (s.dev.out (.arp sub t)))) ∧
    (∀ sub : Nat, sub < 16 →
      (bitAt s.dev.net.links sub = true → ∀ s₀ : State, s = s₀.reach (netKey sub) → exec (.ethLinkChange sub false) s₀ = .next (s.withDev
        (({ s.dev with net := { s.dev.net with links := clrBit s.dev.net.links sub } } : Dev).recDev s.ctx .alarm 5 (netSource sub) 0 0 0))) ∧
      (bitAt s.dev.net.links sub = false → ∀ s₀ : State, s = s₀.reach (netKey sub) → exec (.ethLinkChange sub true) s₀ = .next (s.withDev
        ((({ s.dev with net := { s.dev.net with links := setBit s.dev.net.links sub } } : Dev).startRecover s.ctx sub).recDev s.ctx .alarm 5
          (netSource sub) 1 0 0))))) ∧
  (∀ (s : State) (p : Packet) (q : Qp) (g : Gid), s.clock.power = true → s.dev.qp p.qpn = some q → s.dev.gidOf q = some g → q.sub = p.sub →
    g.valid = true → g.addr = p.dst → g.vlan = p.vlan → g.owner = q.part → p.icrcOk = true → p.pkey = 0xFFFF →
    p.dport = (if p.mp.isSome = true then s.dev.mpPort else rocePort) → q.st = 1 → q.place = .chip →
    (p.mp.isSome = true → p.bth = .sendOnly → ∀ s₀ : State, s = s₀.reach (netKey p.sub) →
      exec (.packetArrivalExt p) s₀ = .next (s.withDev (s.dev.rxQp s.ctx p.qpn p))) ∧
    (p.mp = none → p.bth = .sendOnly → ∀ s₀ : State, s = s₀.reach (netKey p.sub) →
      exec (.packetArrivalRc p) s₀ = .next (s.withDev (s.dev.rxQp s.ctx p.qpn p))) ∧
    (p.bth = .readReq → ∀ s₀ : State, s = s₀.reach (netKey p.sub) → exec (.readRequest p) s₀ = .next (s.withDev (s.dev.rxQp s.ctx p.qpn p))) ∧
    (p.bth = .ack → ∀ s₀ : State, s = s₀.reach (netKey p.sub) → exec (.ackArrival p) s₀ = .next (s.withDev (s.dev.rxQp s.ctx p.qpn p)))) ∧
  (∀ (s : State) (n : Nat) (q : Qp), s.clock.power = true → s.dev.qp n = some q →
    (∀ (msn : Nat) (m : Reasm) (d : Dev), tget q.reasm msn = some m → m.whole = true → q.ext = true → m.ewr = none →
      d = ((s.dev.setQp n { q with reasm := tdel q.reasm msn }).unpinMsg q m).answer n msn .ok →
      ∀ s₀ : State, s = s₀.follow → exec (.messageComplete n msn) s₀ = .next (s.withDev
        (((if m.write = true then d.countPlaced n m.base m.len else d).complete s.ctx n q m .ok).reedSettle s.ctx))) ∧
    (∀ (msn : Nat) (w : Send), q.sends.find? (fun w => w.started && w.msn == msn) = some w → q.ext = true →
      (w.onWire = true → w.rnrUntil = none → w.sentAt + q.rto ≤ s.clock.now → q.st = 1 →
        ∀ s₀ : State, s = s₀.reach (evKey 8 0 (source 9 0)) →
          exec (.ackTimeout n msn) s₀ = .next (s.withDev ((s.dev.retry s.ctx n w.op 0).afterSends s.ctx n))) ∧
      (∀ t0 : Nat, w.rnrUntil = some t0 → t0 ≤ s.clock.now →
        ∀ s₀ : State, s = s₀.reach (evKey 8 0 (source 9 0)) → exec (.rnrTimerExpiry n msn) s₀ = .next (s.withDev (s.dev.resend s.ctx n w.op 0)))) ∧
    (∀ (pr : ShProf) (fl : ShFlow), pr = s.dev.flowProf q.part (shDomain q.sub) (q.dscp / 8) → fl = s.dev.shFlow q.sub q.part n (q.dscp / 8) →
      q.st = 1 → ∀ s₀ : State, s = s₀.reach (netKey ((s₀.dev.qp n).elim 0 Qp.sub)) →
        exec (.cnpArrival n) s₀ = .next (s.withDev (s.dev.setShFlow (flowBKey q.sub q.part n) { fl with
        cc := some (min (max (fl.cc.getD pr.rate * 7 / 8) (fld (s.dev.partReg q.part 0x090024) 9 0 * 125)) pr.rate), quiet := 0 }))) ∧
    (∀ (msn : Nat) (m : Reasm), tget q.reasm msn = some m → m.whole = false → m.last + 4 * q.rto ≤ s.clock.now → m.srq = none → m.ewr = none →
      ∀ s₀ : State, s = s₀.reach (evKey 8 0 (source 9 0)) → exec (.reassemblyTimeout n msn) s₀ = .next (s.withDev (s.dev.closeMsg n msn))) ∧
    (q.fetching = true → ∀ d e : Dev, (s.dev.modQp n fun q => { q with fetching := false }).makePlace q.die = some d →
      e = ((q.held.mapIdx fun i p => (i, p)).foldl (fun d e => d.underOld 9 (drainId 9 (n * 16 + e.1)) fun d => d.rxQp s.ctx n e.2)
        (d.setQp n { q with place := .chip, fetching := false, fetchAt := none, held := [], used := s.clock.now })).heldDrain n →
      ∀ s₀ : State, s = s₀.reach (evKey 5 0 (source 9 0)) →
        exec (.contextFetchComplete n) s₀ = .next (s.withDev ((e.modQp n fun q =>
          { q with reasm := q.reasm.map fun m => (m.1, { m.2 with waited := m.2.waited || m.2.last == s.clock.now }) }).afterSends s.ctx n))) ∧
    (∀ t0 : Nat, q.place ≠ .chip → q.held ≠ [] → q.fetchAt = some t0 → t0 + 2500 ≤ s.clock.now →
      ∀ s₀ : State, s = s₀.reach (evKey 8 0 (source 9 0)) → exec (.contextFetchExpiry n) s₀ = .next (s.withDev ((rnrHeads q.ext q.held).foldl
        (fun d p => d.sendRnr n (p.mp.elim 0 MpHdr.msn) p.psn)
        (((s.dev.heldDrain n).setQp n { q with held := [], fetchAt := none, fetching := false }).bumpPart q.part 0x090010 q.held.length)))) ∧
    ∀ s₀ : State, s = s₀.follow → exec (.waitEnRelease n) s₀ = .next (s.withDev ((s.dev.pump s.ctx n).reedSettle s.ctx)))

/-- The rows of the shaper (R326-R335): a refill of every bucket once in 1,024 ticks, the end of a recovery window, and the start of the
unit that the arbiter chooses, its size taken from its three buckets. -/
def Obligations.ShaperRowsTakeEffect : Prop :=
  ∀ s : State, s.clock.power = true →
  (∀ d : Dev, s.clock.now % 1024 = 0 → s.dev.shp.lastRefill ≠ some s.clock.now →
    d = s.dev.countHeld ((List.range 16).flatMap fun p => (List.range 3).map fun m => (p, m)) →
    ∀ s₀ : State, s = s₀.reach (evKey 8 0 (source 10 0)) → exec .shaperRefill s₀ = .next (s.withDev (({ d with shp := { d.shp with
      flows := tmap d.shp.flows (d.refillFlow s.ctx)
      parts := (List.range 304).map fun k => (k, d.refillPart s.ctx k (d.shPart (k / 16) (k % 16)))
      nodes := (List.range 19).map fun j => (j, d.refillNode s.ctx j (d.shNode j))
      lastRefill := some s.clock.now } } : Dev).drainEnd (drainId 10 0)))) ∧
  (∀ j t0 : Nat, j < 19 → (s.dev.shNode j).until_ = some t0 → t0 ≤ s.clock.now →
    ∀ s₀ : State, s = s₀.reach (evKey 8 0 (source 10 0)) →
      exec (.creditModeRecoverEnd j) s₀ = .next (s.withDev (s.dev.setShNode j { s.dev.shNode j with until_ := none }))) ∧
  (∀ (j p flow : Nat) (u : ShUnit) (ds : Tbl Nat) (f : ShFlow) (d : Dev), j < 19 →
    s.dev.shNext j = some (p, flowBKey j p flow, u, ds) →
    d = (List.range 16).foldl (fun d q => d.setShPart j q { d.shPart j q with deficit := tgetD ds q 0 }) s.dev →
    tget d.shp.flows (flowBKey j p flow) = some f →
    ∃ (e : Dev) (left : Nat), e = (d.setShNode j { d.shNode j with b := (d.shNode j).b.spend u.bytes, turn := p }).setShFlow (flowBKey j p flow)
        { f with b := f.b.spend u.bytes, queue := f.queue.tail } ∧
      left = (if (e.partFlows j p).any (fun f => !f.2.queue.isEmpty) then (e.shPart j p).deficit - u.bytes else 0) ∧
      ∀ s₀ : State, s = s₀.follow → exec (.shapedUnitStart j p flow u.bytes) s₀ = .next (s.withDev ((e.setShPart j p { e.shPart j p with
        b := (e.shPart j p).b.spend u.bytes, deficit := left, lastFlow := flowBKey j p flow }).startUnit s.ctx u.what)))

/-- The Panicle commands (R337-R339, R341, R342, R346, R351, R352, R354). -/
def Obligations.IndexCommandsComplete : Prop :=
  ∀ (s₀ s : State) (c : Cmd) (r : CmdRec) (q : Req), s = s₀.reach (cmdKey c) → q = reqOf c r →
  (∀ (i : PanIndex) (h : Nat), Started 0x0700 c r s →
    q.clean [(2, 0x7FFFF), (3, top32), (4, 0x3FF1FFF), (5, 0x7FF007F), (6, top32), (7, 0x7FF)] = true →
    i = ⟨q.part, (s.dev.buf q.part q.first).elim 0 fun b => stackDie (stackOf b.base), q.first, (q.w 3).toNat, q.f 4 12 0, q.f 4 23 16,
      q.f 4 25 24, q.f 5 6 0, if q.f 5 26 16 = 0 then 128 else q.f 5 26 16, (q.w 6).toNat, if q.f 7 10 0 = 0 then 64 else q.f 7 10 0,
      0xFFFFFFFF, 1, 0, 0, 0, none, [], none⟩ →
    runOk q.first i.count = true → 1 ≤ i.dims → i.dims ≤ 4096 →
    i.fmt ∈ ([0x21, 0x20, 0x01, 0x02, 0x06, 0x05] : List Nat) → (i.fmt < 0x10 → i.dims % 32 = 0) → i.metric < 3 → 4 ≤ i.degree →
    i.degree ≤ 64 → 16 ≤ i.efBuild → i.efBuild ≤ 1024 → i.ef ≤ 1024 → 0 < i.cap → i.cap ≤ 1073741824 → i.bytes ≤ i.count * 2097152 →
    (∀ e ∈ runExts q.first i.count, s.dev.allMapped q.part [e] = true ∧ s.dev.extIndexed q.part e = false ∧
      (s.dev.extGrans q.part e).length = 64 ∧
      ∀ g ∈ s.dev.extGrans q.part e, stackDie (stackOf (granAddr g)) = i.die ∧ s.dev.computeAt (granAddr g) = false) →
    s.dev.allMapped q.part (runExts q.first i.count) = true → s.dev.anyFrozen q.part (runExts q.first i.count) = false →
    (s.dev.pan.idx.filter fun j => j.2.part == q.part).length < 64 → s.dev.pan.idx.length < 256 →
    nsum ((s.dev.pan.idx.filter fun j => j.2.part == q.part).map fun j => j.2.cap) + i.cap ≤ fld (s.dev.devReg (0x0B0100 + q.part * 4)) 30 0 →
    (List.range 65535).find? (fun h => !thas s.dev.pan.idx (h + 1)) = some h →
    exec (.panIndexCreate c) s₀ = .next (s.answered r .ok [wd (h + 1), wd i.rb] (((runExts q.first i.count).foldl (fun d e =>
      (d.extGrans q.part e).foldl (fun d g => d.hbmZero (granAddr g) 32768) d) s.dev).setIdx s.ctx (h + 1) i))) ∧
  (∀ (h : Nat) (i : PanIndex), s.dev.ownIdx q = some (h, i) →
    (Started 0x0701 c r s → q.clean [(2, 0xFFFF)] = true →
      exec (.panIndexDestroy c) s₀ = .next ((s.acceptedAs c r [] (.other 0x0701 h 0 0) (s.dev.modIdx h fun i => { i with
        destroy := some q.seq, listen := none })).andThen fun x d => d.destroySettle x)) ∧
    (∀ n len : Nat, n = q.f 5 16 0 → 0 < n → n ≤ 65536 → len = n * (16 + 4 * i.dims) →
      (Started 0x0702 c r s → q.clean [(2, 0xFFFF), (3, top32), (4, 0xFF), (5, 0x1FFFF), (6, top32), (7, 0xFF)] = true →
        s.dev.bufSealed q.part (q.boff 3) len = false → (s.dev.bufRead q.part (q.boff 3) len).isSome = true →
        (s.dev.bufRun q.part true (runFuel (4 * n)) (q.boff 6) (4 * n)).isSome = true →
        exec (.panInsert c) s₀ = .next (s.acceptedAs c r [] (.other 0x0702 h 0 0)
          (s.dev.addUpdate h ⟨q.seq, 0, q.boff 3, n, q.boff 6, none⟩))) ∧
      (Started 0x0703 c r s → q.clean [(2, 0xFFFF), (3, top32), (4, 0xFF), (5, 0x1FFFF)] = true →
        s.dev.bufSealed q.part (q.boff 3) (4 * n) = false → (s.dev.bufRead q.part (q.boff 3) (4 * n)).isSome = true →
        exec (.panDelete c) s₀ = .next (s.acceptedAs c r [] (.other 0x0703 h 0 0)
          (s.dev.addUpdate h ⟨q.seq, 1, q.boff 3, n, 0, none⟩)))) ∧
    (∀ e : PanQuery, Started 0x0704 c r s → q.clean ((2, 0xFFFF) :: queryBits top32) = true →
      s.dev.bufSealed q.part (q.boff 5) (4 * i.dims) = false → (q.d2 9 = 0 ∨ i.floor ≤ q.d2 9 ∧ q.d2 9 ≤ i.epoch) →
      (s.dev.bufRun q.part true (runFuel (16 * q.f 3 10 0)) (q.boff 7) (16 * q.f 3 10 0)).isSome = true →
      s.dev.queryOf q h i (q.boff 7) (q.d2 9) (.cmd q.seq) = .ok e →
      exec (.panQuery c) s₀ = .next (s.acceptedAs c r [] (.other 0x0704 h 0 0) (s.dev.addQuery e))) ∧
    (Started 0x0705 c r s → q.clean [(2, 0xFFFF)] = true →
      exec (.panCompact c) s₀ = .next ((s.acceptedAs c r [] (.other 0x0705 h 0 0) (s.dev.addUpdate h ⟨q.seq, 2, 0, 0, 0, none⟩)).andThen
        fun x d => d.startCompacts x)) ∧
    (Started 0x0706 c r s → q.clean [(2, 0xFFFF)] = true →
      exec (.panIndexQuery c) s₀ = .next (s.answered r .ok [wd i.live, wd i.tombs, loW i.epoch, hiW i.epoch] s.dev)) ∧
    (Started 0x070A c r s → q.clean [(2, 0xFFFF), (3, 0x100FF)] = true →
      (bitAt (q.w 3).toNat 16 = true →
        exec (.panListen c) s₀ = .next (s.answered r .ok [] (s.dev.modIdx h fun i => { i with listen := none }))) ∧
      (bitAt (q.w 3).toNat 16 = false → thas s.dev.net.srqs (q.part * 256 + q.f 3 7 0) = true →
        (∀ j ∈ s.dev.pan.idx, j.1 = h ∨ j.2.part ≠ q.part ∨ j.2.listen ≠ some (q.f 3 7 0)) →
        exec (.panListen c) s₀ = .next (s.answered r .ok [] (s.dev.modIdx h fun i => { i with listen := some (q.f 3 7 0) }))))) ∧
  (Started 0x0708 c r s → q.clean [(2, 0x1000F), (3, top32), (4, 0xFF), (5, 0x3FFF)] = true →
    (bitAt (q.w 2).toNat 16 = true → exec (.panGroupSet c) s₀ = .next (s.answered r .ok []
      { s.dev with pan := { s.dev.pan with groups := tdel s.dev.pan.groups (q.part * 16 + q.f 2 3 0) } })) ∧
    (∀ (n : Nat) (b : List Byte) (t : List (Nat × Nat)), bitAt (q.w 2).toNat 16 = false → n = q.f 5 13 0 → 0 < n → n ≤ 8192 →
      s.dev.bufSealed q.part (q.boff 3) (8 * n) = false → s.dev.bufShut q.part (q.boff 3) (8 * n) = false →
      s.dev.panRead q.part (q.boff 3) (8 * n) = .ok b →
      t = (List.range n).map (fun k => (fld (leAt b (8 * k) 8) 19 0, fld (leAt b (8 * k) 8) 47 32)) →
      (∀ e ∈ t, e.1 = 0 ∨ ∃ p : Qp, s.dev.ownQp q.part e.1 = some p ∧ p.ext = true ∧ p.event = true) →
      exec (.panGroupSet c) s₀ = .next (s.answered r .ok []
        { s.dev with pan := { s.dev.pan with groups := tset s.dev.pan.groups (q.part * 16 + q.f 2 3 0) t } }))) ∧
  (∀ (t : List (Nat × Nat)) (h tag k : Nat) (i : PanIndex) (e : PanQuery) (p : PanShard) (d : Dev),
    Started 0x0709 c r s → tget s.dev.pan.groups (q.part * 16 + q.f 2 3 0) = some t →
    t.filter (fun e => e.1 == 0) = [(0, h)] → tget s.dev.pan.idx h = some i → k = q.f 3 10 0 →
    q.clean ((2, 0xF) :: queryBits 0) = true → i.part = q.part → i.destroy = none →
    s.dev.bufSealed q.part (q.boff 5) (4 * i.dims) = false →
    (s.dev.bufRun q.part true (runFuel (16 * k)) (q.boff 7) (16 * k)).isSome = true →
    tag = nextId (fun n => thas s.dev.pan.shards n) 0xFFFEFFFF s.dev.pan.shards.length s.dev.pan.lastTag →
    s.dev.queryOf q h i 0 0 (.shard tag) = .ok e →
    p = ⟨q.seq, q.part, t, k, q.boff 7, i.dims, i.fmt, i.metric, List.range t.length, [], 0, 0, 0, 0, 0,
      s.clock.now + fld (s.dev.partReg q.part 0x0B0000) 31 16 * ticksMs⟩ →
    d = ({ s.dev with pan := { s.dev.pan with shards := tset s.dev.pan.shards tag p, lastTag := tag } } : Dev).addQuery e →
    exec (.panShardQuery c) s₀ = .next (s.acceptedAs c r [] (.other 0x0709 tag 0 0) (d.shardPost s.ctx q.part tag e p.open_)))

/-- The events of Panicle (R341-R353). -/
def Obligations.IndexEventsTakeEffect : Prop :=
  ∀ s : State, s.clock.power = true →
  (∀ (die : Nat) (q : PanQuery) (i : PanIndex), s.dev.panRunning die < 256 →
    s.dev.pan.queries.find? (fun q => q.die == die && !q.running) = some q → tget s.dev.pan.idx q.index = some i →
    (q.snap = 0 → i.floor ≤ i.epoch) → (q.snap ≠ 0 → i.floor ≤ q.snap ∧ q.snap ≤ i.epoch) →
    ∀ s₀ : State, s = s₀.follow →
      exec (.queryAdmit die) s₀ = .next (s.withDev { s.dev with pan := { s.dev.pan with queries := s.dev.pan.queries.map fun e =>
      if e.id = q.id then { q with snap := if q.snap = 0 then i.epoch else q.snap, live := i.live, running := true } else e } })) ∧
  (∀ (qpn srq h k ef w : Nat) (q : Qp) (i : PanIndex) (msg : List Byte), s.dev.qp qpn = some q →
    s.dev.pan.idx.find? (fun i => i.2.part == q.part && i.2.listen == some srq && i.2.destroy.isNone) = some (h, i) →
    q.srq = some srq → leAt msg 0 4 = 0x31514E50 → msg.length = 64 + 4 * i.dims → k = leAt msg 8 2 → ef = leAt msg 10 2 → w = leAt msg 12 2 →
    0 < k → k ≤ 1024 → ef ≤ 1024 → w ≤ 1024 →
    ∀ s₀ : State, s = s₀.follow →
      exec (.queryMessageArrival qpn srq msg) s₀ = .next (s.withDev (s.dev.addQuery ⟨0, i.die, i.part, h, k, if ef = 0 then i.ef else ef,
      if w = 0 then min (4 * k) 1024 else w, f32List i.dims (msg.drop 64), 0, 0, leAt msg 16 8, leAt msg 24 8, leAt msg 32 8, 0,
      .remote qpn (leAt msg 4 4), false, none⟩))) ∧
  (∀ (tag entry n h : Nat) (p : PanShard) (msg : List Byte), tget s.dev.pan.shards tag = some p → p.table[entry]? = some (n, h) → n ≠ 0 →
    (s.dev.ewr n tag).isSome = true → entry ∈ p.waiting → leAt msg 0 4 = 0x31524E50 → leAt msg 4 4 = tag → leAt msg 20 2 = p.dims →
    leAt msg 22 1 = p.fmt → leAt msg 23 1 = p.metric →
    ∀ s₀ : State, s = s₀.follow → exec (.partialListArrival tag entry msg) s₀ = .next (s.withDev ((s.dev.dropEwr n tag).shardTake s.ctx tag entry
      (some ((List.range (min (leAt msg 8 2) p.k)).map (fun k =>
          (⟨wd (leAt ((msg.drop (64 + 16 * k)).take 16) 12 4), 0, leAt ((msg.drop (64 + 16 * k)).take 16) 8 4,
            leAt ((msg.drop (64 + 16 * k)).take 16) 0 8⟩ : PanHit)), leAt msg 12 4, leAt msg 16 4,
        leAt msg 10 2 == Status.shortResult.code))))) ∧
  (∀ (tag : Nat) (p : PanShard), tget s.dev.pan.shards tag = some p → p.until_ ≤ s.clock.now →
    ∀ s₀ : State, s = s₀.reach (evKey 8 0 (source 11 0)) → exec (.shardTimeout tag) s₀ = .next (s.withDev (s.dev.shardGiveUp s.ctx tag p.open_))) ∧
  (∀ (die id : Nat) (q : PanQuery) (i : PanIndex) (t : PanSearch) (d0 d : Dev),
    s.dev.pan.queries.find? (fun q => q.id == id && q.die == die && q.running) = some q → tget s.dev.pan.idx q.index = some i →
    t = s.dev.search i q.vec q.k (max q.ef q.k) q.w (fun t => t.seen q.snap && t.passes q.all_ q.none_ q.any_) →
    (s.dev.reach s.ctx .panicle (12, q.id) (s.dev.queryRanges q i t) = (.go, d0) →
      d = (d0.bumpPart q.part 0x0B0014 t.poison).bumpPart q.part 0x0B000C (if t.visited.length ≥ 32768 then 1 else 0) →
      ∀ s₀ : State, s = s₀.reach (evKey 5 0 (source 11 die)) →
        exec (.queryComplete die id) s₀ = .next (s.withDev (((d.chargePart q.part 0 (t.scored * i.rb)).tapAdd q.part 7 (t.scored * i.rb)).queryOut
        s.ctx q i (if t.hits.length = q.k then .ok else .shortResult) t.hits t.scored))) ∧
    (s.dev.reach s.ctx .panicle (12, q.id) (s.dev.queryRanges q i t) = (.busy, d0) →
      ∀ s₀ : State, s = s₀.reach (evKey 5 0 (source 11 die)) →
        exec (.queryComplete die id) s₀ = .next (s.withDev (d0.queryOut s.ctx q i .regionBusy [] 0)))) ∧
  (∀ (h : Nat) (i : PanIndex) (u : PanUpdate) (us : List PanUpdate), tget s.dev.pan.idx h = some i → i.updates = u :: us →
    (∀ ec : Nat, u.kind = 2 → u.ec = some ec → (∀ q ∈ s.dev.pan.queries, q.index = h → q.running = true → ec ≤ q.snap) →
      ∀ s₀ : State, s = s₀.follow →
        exec (.compactResume h) s₀ = .next (s.withDev (s.dev.modIdx h fun i => { i with updates := { u with kind := 3 } :: us }))) ∧
    (∀ d0 : Dev, s.dev.idxHeld i = false → s.dev.idxBusy i = false → s.dev.reach s.ctx .panicle (13, h) (s.dev.updateRanges i u) = (.go, d0) →
      (∀ (inp : List Byte) (ns : List Nat) (d : Dev), u.kind = 0 → d0.panRead i.part u.off (u.count * (16 + 4 * i.dims)) = .ok inp →
        ns = d0.freeItems i i.cap 0 u.count → u.count ≤ ns.length → d0.bufWrite s.ctx i.part u.out (ns.flatMap (leBytes 4)) = some d →
        ∀ s₀ : State, s = s₀.reach (evKey 5 0 (source 11 0)) →
          exec (.updateComplete h) s₀ = .next (s.withDev (((((d.insertAll s.ctx i ns inp).2.tapAdd i.part 7 inp.length).setIdx s.ctx h
          { (d.insertAll s.ctx i ns inp).1 with epoch := i.epoch + 1, live := i.live + u.count })).updateEnd s.ctx h .ok
          [wd u.count, loW (i.epoch + 1), hiW (i.epoch + 1)]))) ∧
      (∀ (b : List Byte) (n : Nat) (d : Dev), u.kind = 1 → d0.panRead i.part u.off (4 * u.count) = .ok b →
        d0.deleteAll s.ctx i ((List.range u.count).map fun k => leAt b (4 * k) 4) = (n, d) →
        ∀ s₀ : State, s = s₀.reach (evKey 5 0 (source 11 0)) →
          exec (.updateComplete h) s₀ = .next (s.withDev (((d.tapAdd i.part 7 b.length).setIdx s.ctx h
          { i with epoch := i.epoch + 1, live := i.live - n, tombs := i.tombs + n }).updateEnd s.ctx h .ok
          [wd n, wd (u.count - n), loW (i.epoch + 1), hiW (i.epoch + 1)]))) ∧
      (∀ (n ec : Nat) (j : PanIndex) (d : Dev), u.kind = 3 → u.ec = some ec → d0.compactAll s.ctx i ec = (n, j, d) →
        ∀ s₀ : State, s = s₀.reach (evKey 5 0 (source 11 0)) →
          exec (.updateComplete h) s₀ = .next (s.withDev ((d.setIdx s.ctx h { j with epoch := i.epoch + 1, tombs := i.tombs - n }).updateEnd
          s.ctx h .ok [wd n, loW j.floor, hiW j.floor])))))

/-- The Sheaf commands (R355-R358, R366-R369). -/
def Obligations.CheckpointCommandsComplete : Prop :=
  ∀ (s₀ s : State) (c : Cmd) (r : CmdRec) (q : Req), s = s₀.reach (cmdKey c) → q = reqOf c r →
  (∀ (j rank n stage m : Nat) (remote : Bool) (its : List CkpItem) (ms es : List Nat) (d e : Dev) (loc : Tbl (List Nat) × Nat) (k : CkpJob),
    Started 0x0800 c r s → q.clean [(2, 0xFFFF), (3, 0x3FFF), (4, 0x3FFF), (5, 0x7F01), (6, top32), (7, 0xFF), (8, 0x1FFF), (9, top32),
      (10, 0xFF), (11, 0xFFFFF), (12, top32), (13, top32), (14, top32), (15, top32)] = true →
    j = q.f 2 15 0 → rank = q.f 3 13 0 → n = q.f 4 13 0 → stage = q.f 5 14 8 → m = q.f 8 12 0 → remote = bitAt (q.w 5).toNat 0 →
    0 < j → 0 < n → n ≤ 8192 → rank < n → 2 ≤ stage → stage ≤ 64 → m ≤ 4096 → (remote = false → n = 1) →
    (remote = true → 2 ≤ (q.w 15).toNat ∧ (s.dev.ownQp q.part (q.f 11 19 0)).isSome = true) → s.dev.job j = none →
    s.dev.readItems q.part (bufOff (q.w 6).toNat (q.f 7 7 0)) m = .ok its →
    s.dev.readMembers q.part (bufOff (q.w 9).toNat (q.f 10 7 0)) n rank = .ok ms →
    (s.dev.ckp.jobs.filter fun k => k.2.part == q.part).length < 8 → s.dev.ckp.jobs.length < 64 →
    (∃ f : Dev, s.dev.postNotices q.part j ms = .ok f) → s.dev.allotExts q.part (List.range 16) (32 * stage) = some (es, d) →
    d.postNotices q.part j ms = .ok e → loc = (if remote then ([], 0) else e.localSlots q.part j) →
    k = ⟨q.part, rank, n, ms, remote, stage, its, if remote then q.f 11 19 0 else 0, q.d2 12, q.w 14, (q.w 15).toNat, [], es, loc.2, none,
      none, loc.1⟩ →
    exec (.ckpJobDefine c) s₀ = .next (s.answered r .ok [wd (e.ckpProjection k)] (e.setJob j k))) ∧
  (∀ (j : Nat) (k : CkpJob), s.dev.ckpOwn q = some (j, k) →
    (∀ d : Dev, Started 0x0801 c r s → q.clean [(2, 0xFFFF)] = true → k.run = none → k.restore = none →
      d = (k.members.filter (· != 0)).foldl (fun d n => d.withdrawEwr s.ctx n (noticeId j)) (s.dev.freeExts k.bufs) →
      exec (.ckpJobDrop c) s₀ = .next (s.acceptedDone r [] .ok [] { d with ckp := { d.ckp with jobs := tdel d.ckp.jobs j } })) ∧
    (Started 0x0802 c r s → q.clean [(2, 0xFFFF)] = true → k.restore = none →
      (∀ d : Dev, k.run = none → s.dev.ckpStart s.ctx j k [q.seq] = some d →
        exec (.ckpNotice c) s₀ = .next ((s.acceptedAs c r [loW s.clock.now] (.other 0x0802 j 0 0) d).andThen fun x d => d.reedSettle x)) ∧
      (∀ t : CkpRun, k.run = some t →
        exec (.ckpNotice c) s₀ = .next ((s.acceptedAs c r [loW t.tick] (.other 0x0802 j 0 0)
          (s.dev.setJob j { k with run := some { t with ops := t.ops ++ [q.seq] } })).andThen fun x d => d.reedSettle x))) ∧
    (Started 0x0803 c r s → q.clean [(2, 0xFFFF)] = true →
      exec (.ckpQuery c) s₀ = .next (s.answered r .ok [loW k.committed, hiW k.committed,
        if k.run.isSome then 1 else if k.restore.isSome then 2 else 0, wd k.keeper] s.dev)) ∧
    (∀ its : List CkpItem, Started 0x0804 c r s →
      q.clean [(2, 0x3FFFFFFF), (3, top32), (4, top32), (5, top32), (6, 0xFF), (7, top32), (8, top32)] = true → q.f 2 29 16 < k.n →
      k.run = none → k.restore = none →
      s.dev.readItems q.part (bufOff (q.w 5).toNat (q.f 6 7 0)) k.items.length = .ok its →
      s.dev.allMapped q.part ((its.filter fun i => i.kind == 0).flatMap fun i => runExts i.first i.count) = true →
      s.dev.anyFrozen q.part ((its.filter fun i => i.kind == 0).flatMap fun i => runExts i.first i.count) = false →
      (q.f 2 29 16 = k.rank → its.map (fun i => (i.kind, i.count)) = k.items.map fun i => (i.kind, i.count)) →
      exec (.ckpRestore c) s₀ = .next ((s.acceptedAs c r [] (.other 0x0804 j 0 0) (s.dev.setJob j { k with
        restore := some ⟨q.seq, q.f 2 29 16, q.d2 3, its, q.d2 7, 0, [], [], 0, [], [], []⟩ })).andThen fun x d => d.reedSettle x)) ∧
    (∀ (b : List Byte) (off : Nat), Started 0x0805 c r s → q.clean [(2, 0xFFFF), (3, top32), (4, 0xFF)] = true →
      off = bufOff (q.w 3).toNat (q.f 4 7 0) → s.dev.bufSealed q.part off 1024 = false → s.dev.bufRead q.part off 1024 = some (b, false) →
      ∃ (d : Dev) (k' : CkpJob), d = s.dev.shrink s.ctx j k (lostRanks b k.n) ∧ k' = (d.job j).getD k ∧
        exec (.ckpShrink c) s₀ = .next ((s.answered r .ok [wd k'.liveRanks.length, wd k'.keeper] d).andThen fun x d => d.reedSettle x)))

/-- The events of Sheaf (R357-R365): after each of them Sheaf goes on as far as it can. -/
def Obligations.CheckpointEventsTakeEffect : Prop :=
  ∀ s : State, s.clock.power = true →
  (∀ (a : Nat) (bs : List Byte), (s.dev.unreachedAt a bs.length).isSome = true →
    exec (.stalledWrite a bs) s = .next (s.withDev (s.dev.hbmPut s.ctx a bs))) ∧
  (∀ (j : Nat) (k : CkpJob), s.dev.job j = some k →
    (∀ (msg : List Byte) (d : Dev), 16 ≤ msg.length → leAt msg 0 4 = 0x31454E43 → leAt msg 4 2 = j → k.restore = none → k.run = none →
      s.dev.ckpStart s.ctx j k [] = some d → ∀ s₀ : State, s = s₀.follow → exec (.networkNotice j msg) s₀ = .next (s.withDev (d.reedSettle s.ctx))) ∧
    (∀ r : CkpRun, k.run = some r →
      (∀ (n reg off len : Nat) (i : CkpItem) (b : List Byte) (d0 d1 d : Dev), k.items[n]? = some i →
        (itemRegions ((r.sizes[n]?).getD 0) (r.head n))[reg]? = some (off, len) → r.mayCopy k.items k.stage n reg = true →
        s.dev.reach s.ctx .sheaf (11, j * 2 ^ 48 + n * 2 ^ 24 + reg)
          (if i.kind = 0 then s.dev.runAddrs k.part (i.first * 2097152 + off) len else []) = (.go, d0) →
        d0.regionBytes k r i n off len = some b → d1 = d0.regionUse s.ctx k i off len →
        d = (((if i.kind = 1 then d1 else d1.chargePart k.part 0 len).tapAdd k.part 7 len).putJob s.ctx j { k with run := some { r with
          unreached := r.unreached.filter (· != (n, reg)), data := tset r.data (n * 2 ^ 24 + reg) b } }) →
        ∀ s₀ : State, s = s₀.reach (evKey 5 0 (source 12 0)) → exec (.copyRegionDone j n reg) s₀ = .next (s.withDev
          ((if i.kind = 1 ∧ d.ckpHolds (wd i.first) = false then d.pfxAwake s.ctx (wd i.first) else d).reedSettle s.ctx))) ∧
      (∀ (n : Nat) (t : CkpShard), r.shards[n]? = some t →
        (∀ (b : List Byte) (d : Dev), t.st = 0 → r.shardBytes t = some b → d = s.dev.tapAdd k.part 7 b.length →
          (t.group = 0 → ∀ s₀ : State, s = s₀.reach (evKey 5 0 (source 12 0)) → exec (.shardComplete j n) s₀ =
            .next (s.withDev ((d.putShard j k r n { t with st := 5, digest := Config.sha512 b }).reedSettle s.ctx))) ∧
          (t.group ≠ 0 → k.keeps = true → ∀ s₀ : State, s = s₀.reach (evKey 5 0 (source 12 0)) →
            exec (.shardComplete j n) s₀ = .next (s.withDev ((d.putShard j k { r with
            anns := r.anns ++ [⟨k.rank, t.group, t.index, Config.sha512 b, false⟩] } n
            { t with st := 1, digest := Config.sha512 b, annAt := s.clock.now }).reedSettle s.ctx))) ∧
          (t.group ≠ 0 → k.keeps = false → ∀ s₀ : State, s = s₀.reach (evKey 5 0 (source 12 0)) →
            exec (.shardComplete j n) s₀ = .next (s.withDev (((d.putShard j k r n
            { t with st := 1, digest := Config.sha512 b, annAt := s.clock.now }).out
            (.member j k.keeper 0 [k.rank, t.group, t.index, (Config.sha512 b).toNat])).reedSettle s.ctx)))) ∧
        (t.st = 2 → s.dev.opsOver t.ops = true →
          (∀ s₀ : State, s = s₀.reach (evKey 5 0 (source 12 0)) →
            exec (.shardWriteConfirmed j n true) s₀ = .next (s.withDev ((s.dev.putShard j k r n { t with st := 3 }).reedSettle s.ctx))) ∧
          ∀ s₀ : State, s = s₀.reach (evKey 5 0 (source 12 0)) →
            exec (.shardWriteConfirmed j n false) s₀ = .next (s.withDev ((s.dev.ckpAbandon s.ctx j).reedSettle s.ctx))) ∧
        (t.st = 1 → t.annAt + 2 * r.dedupMs * ticksMs ≤ s.clock.now →
          ∀ s₀ : State, s = s₀.reach (evKey 8 0 (source 12 0)) →
            exec (.verdictTimeout j n) s₀ = .next (s.withDev ((s.dev.putShard j k r n { t with st := 5 }).reedSettle s.ctx)))) ∧
      (∀ (g i : Nat) (t : CkpShard), r.shards.find? (fun s => s.group == g && s.index == i) = some t →
        (r.phase = 0 → t.st = 1 ∨ t.st = 4 → ∀ s₀ : State, s = s₀.follow →
          exec (.verdictArrival j g i none) s₀ = .next (s.withDev ((s.dev.setJob j { k with
          run := some (r.modShard g i fun t => { t with st := 5, writer := k.rank }) }).reedSettle s.ctx))) ∧
        (∀ w : Nat, t.st = 1 → ∀ s₀ : State, s = s₀.follow → exec (.verdictArrival j g i (some w)) s₀ = .next (s.withDev (((s.dev.setJob j { k with
          run := some (r.modShard g i fun u => { u with st := 4, writer := w, loc := 0x4000000 * (1 + r.shards.findIdx fun v => v == t) })
          }).bumpPart k.part 0x0C0014 1).reedSettle s.ctx)))) ∧
      (∀ rank : Nat, k.keeps = true → k.alive rank = true → rank ≠ k.rank →
        (∀ (g i : Nat) (dg : BitVec 512), (∀ a ∈ r.anns, a.rank = rank → a.group = g → a.index ≠ i) →
          ∀ s₀ : State, s = s₀.follow → exec (.announcementArrival j rank g i dg) s₀ = .next (s.withDev ((s.dev.setJob j { k with run := some { r with
            anns := r.anns ++ [⟨rank, g, i, dg, false⟩] } }).reedSettle s.ctx))) ∧
        (∀ s₀ : State, s = s₀.follow → exec (.endMarkerArrival j rank) s₀ = .next (s.withDev ((s.dev.setJob j { k with run := some { r with
          ends := addNum rank r.ends } }).reedSettle s.ctx))) ∧
        (∀ (loc len : Nat) (g : BitVec 512), ∀ s₀ : State, s = s₀.follow →
          exec (.manifestReportArrival j rank loc len g) s₀ = .next (s.withDev ((s.dev.setJob j { k with
          run := some { r with reports := tset r.reports rank (loc, len, g) } }).reedSettle s.ctx)))) ∧
      (∀ a : CkpAnn, k.keeps = true → r.allOps.any s.dev.net.failed.contains = false → r.shards.all (fun t => t.st != 5) = true →
        (k.n = 1 ∨ r.endSent = true) → r.anns.find? (r.mayAnswer k s.clock.now) = some a →
        ∀ s₀ : State, s = s₀.reach (evKey 8 0 (source 12 0)) → exec (.dedupTimeout j) s₀ =
          .next (s.withDev (((s.dev.ckpAnswer j k r a).ckpSteps s.ctx j r.anns.length).reedSettle s.ctx))) ∧
      (r.phase = 4 → s.dev.opsOver r.manOps = true → ∀ s₀ : State, s = s₀.reach (evKey 5 0 (source 12 0)) →
        exec (.commitRecordConfirmed j) s₀ = .next (s.withDev
        (((s.dev.sendCommits j r.seq (k.liveRanks.filter (· != k.rank))).ckpFinish s.ctx j).reedSettle s.ctx))) ∧
      (r.phase = 2 → k.keeps = false →
        ∀ s₀ : State, s = s₀.follow → exec (.commitMessageArrival j) s₀ = .next (s.withDev ((s.dev.ckpFinish s.ctx j).reedSettle s.ctx))) ∧
      (r.tick + r.commitMs * ticksMs ≤ s.clock.now →
        ∀ s₀ : State, s = s₀.reach (evKey 8 0 (source 12 0)) →
          exec (.commitTimeout j) s₀ = .next (s.withDev ((s.dev.ckpAbandon s.ctx j).reedSettle s.ctx)))))

/-- The security commands (R376, R379-R383, R387-R389, R396, R397). -/
def Obligations.SecurityCommandsComplete : Prop :=
  ∀ (s : State) (c : Cmd) (r : CmdRec) (q : Req), q = reqOf c r →
  (∀ off : Nat, Started 0x0900 c r s → q.clean [(2, top32), (3, 0xFF)] = true → off = bufOff (q.w 2).toNat (q.f 3 7 0) →
    s.dev.bufSealed q.part off 512 = false → (s.dev.bufRead q.part off 512).isSome = true →
    ∀ s₀ : State, s = s₀.reach (cmdKey c) → exec (.secSetJoin c) s₀ = .next (s.acceptedAs c r [] (.other 0x0900 off 0 0) s.dev)) ∧
  (Started 0x0901 c r s → q.clean [(2, top32), (3, top32)] = true → s.dev.holdsSet q.part (q.d2 2) = true →
    ∀ s₁ : State, s = s₁.reach (evKey 4 0 0) → exec (.secSetLeave c) s₁ = .next (s.answered r .ok [wd (s.dev.mem.shares.filter fun e =>
        e.2.part == q.part && e.2.sealed && (tget s.dev.sec.packs e.1).elim false fun k => k.1 == q.d2 2).length]
      { s.dev with sec := { s.dev.sec with sets := s.dev.sec.sets.filter fun e => !(e.part == q.part && e.id == q.d2 2) } })) ∧
  (∀ (es : List Nat) (h : List Byte) (d : Dev), Started 0x0902 c r s → q.clean [(2, 0x7FFFF), (3, top32)] = true →
    runOk q.first (q.w 3).toNat = true → es = runExts q.first q.count → s.dev.allMapped q.part es = true →
    s.dev.anyFrozen q.part es = false → es.any (s.dev.extSealed q.part) = false → es.any (s.dev.extIndexed q.part) = false →
    s.dev.bufRead q.part (q.first * 2097152) 4096 = some (h, false) →
    es.any (fun e => (s.dev.extGrans q.part e).any fun g => s.dev.computeAt (granAddr g)) = false → pkgOk h q.count = true →
    s.dev.holdsSet q.part (leAt h 8 8) = true → d = s.dev.sealRun q.part q.first q.count →
    ∀ s₀ : State, s = s₀.reach (cmdKey c) → exec (.secWeightsOpen c) s₀ = .next (s.acceptedAs c r [] (.weights q.first q.count)
      { d with sec := { d.sec with opens := tset d.sec.opens q.seq ⟨q.part, q.first, q.count, h, 0⟩ } })) ∧
  (Started 0x0903 c r s → q.clean [(2, 1), (3, top32), (4, top32), (5, top32), (6, top32)] = true → s.dev.sec.debug = false →
    s.dev.connRoom q.part = true →
    (bitAt (q.w 2).toNat 0 = false → bitAt (s.dev.secPcfg q.part) 1 = true →
      ∀ s₀ : State, s = s₀.reach (cmdKey c) → exec (.secConnKeyLoad c) s₀ = .next (s.acceptedAs c r [] (.other 0x0903 0 (q.d2 3) 0) s.dev)) ∧
    (bitAt (q.w 2).toNat 0 = true → s.dev.bufSealed q.part (q.d2 3) 104 = false → (s.dev.bufRead q.part (q.d2 3) 104).isSome = true →
      s.dev.holdsSet q.part (q.d2 5) = true →
      ∀ s₀ : State, s = s₀.reach (cmdKey c) → exec (.secConnKeyLoad c) s₀ = .next (s.acceptedAs c r [] (.other 0x0903 1 (q.d2 3) (q.d2 5)) s.dev))) ∧
  (Started 0x0904 c r s → q.clean [(2, 0x1FFF)] = true → thas s.dev.sec.conn (q.part * 65536 + q.f 2 12 0) = true →
    s.dev.net.qps.any (fun e => e.2.part == q.part && e.2.enc && e.2.st != 0 && e.2.key == q.f 2 12 0) = false →
    ∀ s₁ : State, s = s₁.reach (evKey 4 0 0) → exec (.secConnKeyDestroy c) s₁ = .next (s.answered r .ok []
      { s.dev with sec := { s.dev.sec with conn := tdel s.dev.sec.conn (q.part * 65536 + q.f 2 12 0) } })) ∧
  (Started 0x0905 c r s → q.clean [(2, top32), (3, top32)] = true → q.d2 2 % 4096 = 0 →
    ∀ s₀ : State, s = s₀.reach (cmdKey c) → exec (.secIdentityRead c) s₀ = .next ((s.acceptedAs c r [] (.other 0x0905 (q.d2 2) 0 0) s.dev).andThen fun _ d =>
      d.shapeHost r.fn r.sq q.part r.seq (q.d2 2) identBytes .ok [])) ∧
  (Started 0x0906 c r s → q.clean [] = true →
    ∀ s₀ : State, s = s₀.reach (cmdKey c) → exec (.secQuery c) s₀ =
      .next (s.answered r .ok [wd (secState s.ctx s.dev), wd (s.dev.setsOf q.part).length, wd (s.dev.connOf q.part).length] s.dev)) ∧
  (∀ n : List Byte, Started 0x0910 c r s → q.clean [] = true → n = (List.range 16).map (fun i => Config.randomByte (s.dev.free + i)) →
    ∀ s₀ : State, s = s₀.reach (cmdKey c) → exec (.secDebugChallenge c) s₀ = .next (s.answered r .ok (bytesWords 4 n)
      { s.dev with free := s.dev.free + 16, sec := { s.dev.sec with nonce := some n } })) ∧
  (q.clean [(2, top32), (3, top32)] = true →
    (Started 0x0911 c r s → ∀ s₀ : State, s = s₀.reach (cmdKey c) → exec (.secDebugUnlock c) s₀ = .next (s.acceptedAs c r [] (.other 0x0911 (q.d2 2) 0 0) s.dev)) ∧
    (Started 0x0912 c r s → ∀ s₀ : State, s = s₀.reach (cmdKey c) → exec (.secRma c) s₀ = .next (s.acceptedAs c r [] (.other 0x0912 (q.d2 2) 0 0) s.dev))) ∧
  (∀ p : Nat, Started 0x0913 c r s → q.clean [(2, 0xF)] = true → p = q.f 2 3 0 →
    (∀ e ∈ s.dev.ses.tbl, e.1 / 2 ^ 24 = p → e.2.state = .free) →
    (∀ m ∈ s.dev.grid.mdls, m.2.part = p → m.2.st = .registered) → (s.fuses.erases[p]?).getD 0 < 64 →
    ∀ s₁ : State, s = s₁.reach (evKey 4 0 0) → exec (.secPartErase c) s₁ = .next { (s.acceptedDone r [] .ok [wd (s.dev.nandUsed p)] (({ s.dev with
        nand := { s.dev.nand with
          units := s.dev.nand.units.filter fun u => u.2.part != p
          objs := s.dev.nand.objs.filter fun o => o.2.part != p }
        sec := { s.dev.sec with
          sets := s.dev.sec.sets.filter fun e => e.part != p
          conn := s.dev.sec.conn.filter fun e => e.1 / 65536 != p } } : Dev).setKeys p [1] 1)) with fuses := s.fuses.erase p })

/-- The events of the security block (R371, R373-R375, R379, R383, R387, R393). -/
def Obligations.SecurityEventsTakeEffect : Prop :=
  ∀ s : State, s.clock.power = true →
  (∀ f : Fn, s.dev.fnLive f = true → 4 < s.dev.boot.stage → (f.num = 0 ∨ bitAt s.dev.secCfg 1 = true) →
    (∀ s₀ : State, s = s₀.reach (spdmKey (.doe f)) →
      exec (.spdmRequest (.doe f) .getVersion) s₀ = .next (s.withDev (s.dev.out (.spdm (.doe f) 0x04 [0x13])))) ∧
    (∀ s₀ : State, s = s₀.reach (spdmKey (.doe f)) →
      exec (.spdmRequest (.doe f) .getCertificate) s₀ = .next (s.withDev (s.dev.out (.spdm (.doe f) 0x02 certChain)))) ∧
    (∀ s₀ : State, s = s₀.reach (spdmKey (.doe f)) → exec (.spdmRequest (.doe f) (.getMeasurements false)) s₀ =
      .next (s.withDev (s.dev.out (.spdm (.doe f) 0x60 (measureBlocks s.ctx s.dev (if f.num = 0 then none else some (f.num - 1))))))) ∧
    (s.fuses.rma = false → s.dev.sec.waiting.length < 64 → ∀ s₀ : State, s = s₀.reach (spdmKey (.doe f)) →
      exec (.spdmRequest (.doe f) .challenge) s₀ = .next (s.withDev { s.dev with
      sec := { s.dev.sec with
        sigs := s.dev.sec.sigs ++ [⟨.doe f, 0, s.clock.now, s.dev.sec.lastToken % 255 + 1, false, none⟩]
        lastToken := s.dev.sec.lastToken % 255 + 1 } }))) ∧
  (∀ (d : Dev) (t : SigReq) (ts : List SigReq) (body : List Byte), d = s.dev.drainEnd (drainId 13 (2 ^ 40)) → d.sec.waiting = t :: ts →
    s.fuses.rma = false →
    body = (if t.kind = 0 then digestBytes (Config.sha512 certChain) ++ digestBytes (measureDigest s.ctx d)
      else measureBlocks s.ctx d (spdmView t.at_)) →
    (t.deferred = true → ∀ s₀ : State, s = s₀.reach (evKey 5 0 (source 13 0)) →
      exec .signatureDone s₀ = .next (s.withDev { d with sec := { d.sec with
      sigs := d.sec.sigs.map fun u => if u = t then { u with ready := some (body ++ Config.rsaSign 0 body) } else u } })) ∧
    (t.deferred = false → ∀ s₀ : State, s = s₀.reach (evKey 5 0 (source 13 0)) →
      exec .signatureDone s₀ = .next (s.withDev (({ d with sec := { d.sec with
      sigs := d.sec.sigs.filter (· != t) } } : Dev).out
        (.spdm t.at_ (if t.kind = 0 then 0x03 else 0x60) (body ++ Config.rsaSign 0 body)))))) ∧
  (∀ (n : Nat) (t : SigReq),
    s.dev.sec.sigs.find? (fun u => u.token == n && u.ready.isNone && !u.deferred && decide (u.since + 12500 ≤ s.clock.now)) = some t →
    ∀ s₀ : State, s = s₀.reach (evKey 8 0 (source 13 0)) → exec (.spdmResponseNotReady n) s₀ = .next (s.withDev (({ s.dev with sec := { s.dev.sec with
      sigs := s.dev.sec.sigs.map fun u => if u = t then { u with deferred := true } else u } } : Dev).spdmErr t.at_ 0x42
        [14, BitVec.ofNat 8 t.token]))) ∧
  (∀ n : Nat, n = min 15 ((s.dev.power.d + 3) / 4) → n ≠ s.dev.sec.level → s.dev.sec.levelAt ≤ s.clock.now →
    exec .throttleLevel s = .next (s.withDev (({ s.dev with sec := { s.dev.sec with level := n, levelAt := s.clock.now + 1250000 } } : Dev).levelLogs
      s.ctx (List.range 16)))) ∧
  (∀ (op p : Nat) (src : CmdSrc) (ab : Bool) (b : List Byte),
    (∀ off y z : Nat, tget s.dev.ops op = some ⟨src, p, .other 0x0900 off y z, ab⟩ → s.dev.bufRead p off 512 = some (b, false) →
      s.fuses.rma = false →
      (∀ k : List Byte, s.dev.joinCheck s.ctx p k = none → s.dev.holdsSet p (leAt k 8 8) = false →
        ∀ s₀ : State, s = s₀.reach (evKey 4 0 0) → exec (.keyEngineDone op (.ok k)) s₀ = .next (s.withDev (({ s.dev with sec := { s.dev.sec with
          sets := s.dev.sec.sets ++ [⟨p, leAt k 8 8, (k.drop 0x10).take 32⟩] } } : Dev).endOp s.ctx op .ok [loW (leAt k 8 8), hiW (leAt k 8 8)]))) ∧
      ∀ s₀ : State, s = s₀.reach (evKey 4 0 0) →
        exec (.keyEngineDone op .fail) s₀ = .next (s.withDev ((s.dev.secErr p).endOp s.ctx op .integrity []))) ∧
    (∀ (off y i : Nat) (k : List Byte), tget s.dev.ops op = some ⟨src, p, .other 0x0903 1 off y, ab⟩ →
      s.dev.bufRead p off 104 = some (b, false) → s.dev.connRoom p = true →
      (List.range 4096).find? (fun i => !thas s.dev.sec.conn (p * 65536 + i + 1)) = some i →
      ∀ s₀ : State, s = s₀.reach (evKey 4 0 0) → exec (.keyEngineDone op (.ok k)) s₀ = .next (s.withDev (({ s.dev with sec := { s.dev.sec with
        conn := tset s.dev.sec.conn (p * 65536 + i + 1) (k.take 96) } } : Dev).endOp s.ctx op .ok [wd (i + 1)]))) ∧
    (∀ (first count : Nat) (o : Opening) (k : List Byte), tget s.dev.ops op = some ⟨src, p, .weights first count, ab⟩ →
      tget s.dev.sec.opens op = some o → s.dev.runHeld op p first count = false →
      (o.stage = 0 → ∀ s₀ : State, s = s₀.reach (evKey 4 0 0) →
        exec (.keyEngineDone op (.ok k)) s₀ = .next (s.withDev { s.dev with sec := { s.dev.sec with
        opens := tset s.dev.sec.opens op { o with stage := 1 } } })) ∧
      (∀ d : Dev, 0 < o.stage →
        s.dev.bufWrite s.ctx o.part ((o.first + o.stage) * 2097152)
          ((k ++ List.replicate (chunkLen o.hdr (o.stage - 1)) 0).take (chunkLen o.hdr (o.stage - 1))) = some d →
        (o.stage < pkgChunks o.hdr →
          ∀ s₀ : State, s = s₀.reach (evKey 4 0 0) → exec (.keyEngineDone op (.ok k)) s₀ = .next (s.withDev { d with sec := { d.sec with
            opens := tset d.sec.opens op { o with stage := o.stage + 1 } } })) ∧
        (o.stage = pkgChunks o.hdr →
          ∀ s₀ : State, s = s₀.reach (evKey 4 0 0) →
            exec (.keyEngineDone op (.ok k)) s₀ = .next (s.withDev (d.openDone s.ctx op { o with stage := o.stage + 1 }))))))

/-- The meter's rows, the commands that read it, and the sideband (R401-R414, R475-R478). -/
def Obligations.MeterRowsTakeEffect : Prop :=
  ∀ s : State, s.clock.power = true →
  (∀ (dg : BitVec 512) (w : Word) (n : Nat) (fl : MeterFlash), s.meter.st = 0 → n = s.fuses.sealCount → (dg = s.meter.flash.digest ∨ n < 1024) →
    fl = { s.meter.flash with
      starts := (s.meter.flash.starts + 1) % 2 ^ 32, digest := dg, sealCount := n + if dg = s.meter.flash.digest then 0 else 1 } →
    exec (.meterStart true dg w n) s = .next { s with
      fuses := { s.fuses with sealCount := fl.sealCount }
      meter := { s.meter with
        st := 1, readyAt := s.clock.now, checkAt := s.clock.now + ticksHour, swId := w, gap := true, coeff := coeffOf fl.pkg, pkg := fl.pkg,
        flash := fl } }) ∧
  (s.meter.st = 0 → ∀ (dg : BitVec 512) (w : Word) (n : Nat),
    exec (.meterStart false dg w n) s = .next { s with
      meter := { s.meter with st := 2, cause := 1 }, dev := s.dev.recDev s.ctx .alarm 6 (source 14 0) 1 0 0 }) ∧
  (s.meter.st = 1 →
    (∀ (w : Word) (t : State), s.meter.checkAt ≤ s.clock.now → t = { s with meter := { s.meter with checkAt := s.clock.now + ticksHour } } →
      (w = s.meter.swId → exec (.swIdRecheck w) s = .next t) ∧
      (w ≠ s.meter.swId → exec (.swIdRecheck w) s = .next { t with
        meter := { t.meter with st := 2, cause := 5 }, dev := t.dev.recDev t.ctx .alarm 6 (source 14 0) 5 0 0 })) ∧
    (∀ (mv ua : Nat) (cl : Bool), s.clock.now % 1000 = 0 → s.clock.now % 125000 ≠ 0 → 50000 ≤ ua → s.meter.ms.2.1 < 124 →
      ∀ s₀ : State, s = s₀.reach (evKey 9 0 0) → exec (.meterAdcSample mv ua cl) s₀ = .next { s with meter := { s.meter with
        acc := s.meter.acc + mv * ua * 8 / 1000000
        ms := (s.meter.ms.1 + mv * ua * 8 / 1000000, s.meter.ms.2.1 + 1, s.meter.ms.2.2 + mv)
        vMin := min s.meter.vMin mv
        vMax := max s.meter.vMax mv
        over_ := s.meter.over_ || cl
        dbg := s.meter.dbg || s.dev.sec.debug } }) ∧
    (∀ (e : Nat) (es : List Nat) (m : Meter), 0 < s.clock.now → s.clock.now % 125000000 = 0 → s.meter.endAt ≠ s.clock.now →
      s.meter.readyAt < s.clock.now - 125000000 → e = s.meter.acc / 1000 → es = apportion e s.meter.coeff s.meter.tap s.dev.edge →
      m = { s.meter with
        vMin := 0xFFFFFFFF, vMax := 0, pMax := 0, over_ := false, dbg := false, tap := s.dev.edge, endAt := s.clock.now
        acc := s.meter.acc % 1000
        seq := s.meter.seq + 1
        made := s.meter.made + 1
        cum := (s.meter.cum + e) % 2 ^ 64
        lastOver := s.meter.over_
        lastGap := s.meter.gap
        gap := false
        newCoeff := false
        due := s.meter.due ++ (16 :: s.dev.metered).map fun kind => (kind, s.meter.seq + 1,
          recordBody s s.meter kind (s.meter.seq + 1) (s.clock.now / 125000000 - 1) e es ((s.meter.cum + e) % 2 ^ 64))
        energy := es } →
      ∀ s₀ : State, s = s₀.reach (evKey 9 0 0) → exec .meterRecordEnd s₀ = .next { s with meter := m.coeffDue s.clock.now }) ∧
    (∀ (kind n : Nat) (body : List Byte) (l : List (Nat × Nat × List Byte)), s.meter.due = (kind, n, body) :: l →
      exec .meterRecordPublish s = .next { s with meter := { s.meter with
        due := l, window := tset s.meter.window (kind * 64 + n % 64) (n, body ++ Config.rsaSign 2 body) } }) ∧
    (∀ b : List Byte, b = s.store.bytes 0x3F00000 576 →
      (packageOk s b = true → s.fuses.sealCount < 1024 → ∀ s₀ : State, s = s₀.reach internalKey → exec .coeffPackageStaged s₀ = .next { s with
        fuses := { s.fuses with sealCount := s.fuses.sealCount + 1 }
        meter := { s.meter with
          staged := some (coeffOf b, b, (s.clock.now + 2 * ticksRecord - 1) / ticksRecord * ticksRecord)
          flash := { s.meter.flash with pkg := b, sealCount := s.fuses.sealCount + 1 } } }) ∧
      (packageOk s b = false → ∀ s₀ : State, s = s₀.reach internalKey → exec .coeffPackageStaged s₀ = .next { s with
        meter := { s.meter with refused := satAdd 255 s.meter.refused 1 } })) ∧
    (∀ (co : Coeff) (b : List Byte) (t0 : Nat), s.meter.staged = some (co, b, t0) → t0 ≤ s.clock.now → s.clock.now % 125000000 = 0 →
      (s.meter.endAt = s.clock.now → ∀ s₀ : State, s = s₀.reach (evKey 3 0 (source 14 0)) → exec .meterCoeffSwap s₀ = .next { s with
        meter := { s.meter with coeff := co, pkg := b, staged := none, newCoeff := true } }) ∧
      (s.meter.endAt ≠ s.clock.now → 0 < s.clock.now → ∀ s₀ : State, s = s₀.reach (evKey 3 0 (source 14 0)) →
        ∃ m : Meter, exec .meterCoeffSwap s₀ = .next { s with meter := m } ∧ m.endAt = s.clock.now ∧ m.coeff = co ∧ m.pkg = b ∧
          m.staged = none ∧ m.newCoeff = true))) ∧
  (∀ (s₀ : State) (c : Cmd) (r : CmdRec) (q : Req), s = s₀.reach (cmdKey c) → q = reqOf c r →
    (∀ (n : Nat) (b : List Byte) (k : Nat), Started 0x0A00 c r s → q.clean [(2, top32), (3, top32), (4, top32), (5, top32)] = true →
      q.d2 4 % 64 = 0 → s.meter.st ≠ 2 → k = kindOf r.fn → s.meter.record k (q.d2 2) = some (n, b) →
      exec (.mtrRecordRead c) s₀ = .next (s.answered r .ok [loW n, hiW n, wd (if k = 16 then 255 else k)]
        (s.dev.out (.hostWrite r.fn.port (q.d2 4) b)))) ∧
    (Started 0x0A01 c r s → q.clean [] = true →
      exec (.mtrIdentify c) s₀ =
        .next (s.answered r .ok [s.meter.swId, wd s.fuses.sealCount, wd s.meter.flash.starts, wd s.meter.coeff.id] s.dev)) ∧
    (q.clean [(2, top32), (3, top32)] = true →
      (Started 0x0A02 c r s → q.d2 2 % 4096 = 0 →
        exec (.mtrCertRead c) s₀ = .next (s.answered r .ok [] (s.dev.out (.hostWrite r.fn.port (q.d2 2) mtrCertBlock)))) ∧
      (Started 0x0A03 c r s → q.d2 2 % 64 = 0 → s.meter.st ≠ 2 →
        exec (.mtrCoeffRead c) s₀ =
          .next (s.answered r .ok [wd s.meter.coeff.id] (s.dev.out (.hostWrite r.fn.port (q.d2 2) s.meter.pkg)))))) ∧
  (∀ b : Nat, b < 2 → s.dev.sidebandUp = true →
    (∀ (n m : Nat) (t : List Byte), s.meter.st ≠ 2 → s.meter.record 16 n = some (m, t) →
      ∀ s₀ : State, s = s₀.reach internalKey → exec (.getMeterRecord b n) s₀ = .next (s.withDev (s.dev.out (.answer b 7 (0 :: t))))) ∧
    (∀ s₀ : State, s = s₀.reach internalKey →
      exec (.getMeterCert b) s₀ = .next (s.withDev (s.dev.out (.answer b 7 (0 :: (Config.meterCert ++ Config.mrkPub)))))) ∧
    (∀ n : Nat, n ≤ 10 → ∀ s₀ : State, s = s₀.reach internalKey → exec (.pldmRequest b (.getSensorReading n)) s₀ =
      .next (s.withDev (s.dev.out (.answer b 2 (0 :: leBytes 4 (tgetD s.dev.power.sensors n 0)))))) ∧
    (∀ e : Nat, ∀ s₀ : State, s = s₀.reach internalKey → exec (.mctpControl b (.setEid e)) s₀ = .next (s.withDev (({ s.dev with
      buses := tset s.dev.buses b { s.dev.bus b with eid := e } } : Dev).out (.answer b 0 [0, BitVec.ofNat 8 e])))))

/-- The firmware commands (R443-R446, R451, R457) and the data of host memory reads (R29, R396, R397, R451). -/
def Obligations.FirmwareAndHostReadRowsTakeEffect : Prop :=
  (∀ (s₀ s : State) (c : Cmd) (r : CmdRec) (q : Req), s = s₀.reach (cmdKey c) → q = reqOf c r →
    (Started 0x0F31 c r s → q.clean [(2, top32), (3, top32), (4, top32), (5, top32), (6, 3)] = true → 4 ≤ (q.w 4).toNat →
      (q.w 4).toNat ≤ 1048576 → (q.w 4).toNat % 4 = 0 → q.f 6 1 0 ≤ 2 →
      (q.w 5).toNat + (q.w 4).toNat ≤ (fwTarget s.dev.boot.bank (q.f 6 1 0)).2 →
      exec (.devFwWrite c) s₀ = .next (s.acceptedAs c r [] (.other 0x0F31 (q.f 6 1 0) (q.w 5).toNat (q.w 4).toNat) s.dev)) ∧
    (∀ n : Nat, Started 0x0F32 c r s → q.clean [] = true → fwCheck s.ctx s.dev = .ok n →
      exec (.devFwActivate c) s₀ = .next { (s.acceptedDone r [] .ok [wd n] { s.dev with boot := { s.dev.boot with erased := false } }) with
        store := s.store.write (bankBase (1 - s.dev.boot.bank) + 0x1000) (commitRecord n (s.store.dir (1 - s.dev.boot.bank))) }) ∧
    (∀ (b n off len : Nat), Started 0x0F33 c r s → q.clean [(2, 1)] = true → b = q.f 2 0 0 → s.store.seq b = some n → s.store.dirOk b = true →
      s.store.imageAt b 1 = some (off, len) →
      exec (.devFwQuery c) s₀ = .next (s.answered r .ok [wd n, if s.store.valid s.fuses b then 1 else 0, wd (leAt (s.store.header b off) 8 4),
        wd (leAt (s.store.header b off) 0x10 4)] s.dev)) ∧
    (Started 0x0F34 c r s → q.clean [] = true → s.dev.boot.fallback = false →
      ∃ up rev : Word, exec (.devSvnCommit c) s₀ = .next { (s.answered r .ok [up, rev] s.dev) with fuses := s.fuses.svn s.dev })) ∧
  (∀ (s : State) (op p : Nat) (src : CmdSrc) (ab : Bool) (b : List Byte), s.clock.power = true →
    (∀ off len : Nat, tget s.dev.ops op = some ⟨src, p, .other 0x0F31 1 off len, ab⟩ → b.length = len →
      ∀ s₀ : State, s = s₀.reach (evKey 5 0 (source 1 0)) → exec (.hostMemoryReadCompletion op .ok b) s₀ = .next { s with
        store := s.store.write (0x3E00000 + off) b
        dev := ((s.dev.endOp s.ctx op .ok [wd b.length]).schedule s.ctx).reedSettle s.ctx }) ∧
    (∀ y z : Nat, tget s.dev.ops op = some ⟨src, p, .other 0x0912 y z 0, ab⟩ → b.length = 512 → tokenOk s.ctx s.dev 0x31414D52 b = true →
      ∀ s₀ : State, s = s₀.reach (evKey 5 0 (source 1 0)) → exec (.hostMemoryReadCompletion op .ok b) s₀ = .next { s with
        fuses := s.fuses.toRma
        dev := ((s.dev.rmaEnd s.ctx op).schedule s.ctx).reedSettle s.ctx }) ∧
    (∀ (k : OpKind) (n : Nat), tget s.dev.ops op = some ⟨src, p, k, ab⟩ → readLen k = some n →
      (∀ st : Completion, st ≠ .ok →
        ∀ s₀ : State, s = s₀.reach (evKey 5 0 (source 1 0)) →
          exec (.hostMemoryReadCompletion op st b) s₀ = .next (s.withDev ((s.dev.readFailed s.ctx op p k).schedule s.ctx)))))

/-! ### The whole block -/

/-- A step takes the command at the front of the queue and runs it on the state with the rest of the queue; on an empty queue a tick passes, which
advances device time while power-good is high and the event tick runs (R22, R463; the tick is the model's choice, log entry 1) and changes nothing
of the fuses, the image store and the meter. -/
def Obligations.StepRunsTheFrontCommand : Prop :=
  (∀ (c : Instr) (cs : List Instr) (s : State), step { s with pending := c :: cs } = exec c { s with pending := cs }) ∧
  (∀ s : State, s.pending = [] → step s = .next s.idle) ∧
  (∀ s : State, s.idle.pending = s.pending ∧ s.idle.fuses = s.fuses ∧ s.idle.store = s.store ∧ s.idle.meter = s.meter ∧
    s.idle.clock.power = s.clock.power ∧ s.idle.clock.wall = s.clock.wall + 1 ∧
    (s.clock.power = true → s.clock.tick = true → s.idle.clock.now = (s.clock.now + 1) % 2 ^ 64 ∧ s.idle.clock.order = 0 ∧ s.idle.clock.tick = true) ∧
    (s.clock.power = false ∨ s.clock.tick = false → s.idle.clock.now = s.clock.now ∧ s.idle.dev = s.dev))

/-- Every command and event of the table has an effect in every state: no step stops (the model has no fault and no refusal of its own: what
the spec turns away gets a reply with a status). -/
def Obligations.NoCommandStops : Prop := ∀ (c : Instr) (s : State), ∃ t, exec c s = .next t

/-- No meaning touches the queue of waiting commands. -/
def Obligations.QueueIsKept : Prop := ∀ (c : Instr) (s t : State), exec c s = .next t → t.pending = s.pending

/-- The state after power-on (R22, R439, R447, R454, R459, R395): device time 0, start-up in stage 1 with the tick not yet running, debug LOCKED, no
session, no queue pair, no index, no checkpoint job, nothing listed in HBM, and every invariant of this file. Fuses, NAND and the image store of
State.reset are the model's choice (log entry 3). -/
def Obligations.ResetState : Prop :=
  State.reset.pending = [] ∧ State.reset.clock = ⟨0, 0, true, false, 0⟩ ∧ State.reset.dev.boot.stage = 1 ∧ State.reset.dev.sec.debug = false ∧
    State.reset.dev.cmds = [] ∧ State.reset.dev.ses.tbl = [] ∧ State.reset.dev.net.qps = [] ∧ State.reset.dev.pan.idx = [] ∧
    State.reset.dev.ckp.jobs = [] ∧ State.reset.dev.mem.cells = [] ∧ State.reset.dev.crc.value = 0xFFFFFFFF#32 ∧ State.reset.meter.st = 0 ∧
    State.reset.legal ∧ State.reset.memoriesOk = true

/-- Every step keeps the state legal: the fuse fields within their ranges (R370, R389, R402, R445), no event tick without power (R463), device time
of 64 bits (R22), and the image store in its canonical form with no erased byte listed (R443). -/
def Obligations.StepKeepsStateLegal : Prop := ∀ s t : State, s.legal → step s = .next t → t.legal

/-- No command and no event takes back a fuse (R370, R389, R397, R402, R445): the lifecycle, the seal count, the SVN floors and the erase counts never
fall, and the key hashes never change. -/
def Obligations.FusesOnlyBurn : Prop := ∀ (c : Instr) (s t : State), s.legal → exec c s = .next t → s.fuses.burnt t.fuses

/-- While power-good is low no logic runs (R463): no row but those of the power input has any effect, and no tick advances device time. -/
def Obligations.NothingRunsWithoutPower : Prop :=
  (∀ (c : Instr) (s : State), s.clock.power = false → isInputRow c = false → exec c s = .next s) ∧
  (∀ s : State, s.clock.power = false → s.pending = [] → ∃ t, step s = .next t ∧ t.clock.now = s.clock.now ∧ t.dev = s.dev ∧ t.meter = s.meter)

/-- No command and no register write sets device time (R22): it changes only with a power-on reset, whose first stage starts it at zero, and by a
tick where an event comes whose place in the order of R24 has passed, which belongs to the next tick. The places: classes in order; arrivals from the
network before those of the PCI Express ports, and internal ones last; completions by SOURCE. -/
def Obligations.OnlyPowerOnSetsDeviceTime : Prop :=
  (∀ (c : Instr) (s t : State), exec c s = .next t →
    t.clock.now = s.clock.now ∨ (s.clock.power = true ∧ s.clock.tick = true ∧ t.clock.now = (s.clock.now + 1) % 2 ^ 64) ∨
    (t.clock.now = 0 ∧ ((∃ mv r, c = .powerGoodRise mv r) ∨ ∃ f, c = .startupStageEnd f ∧ s.dev.boot.stage = 1))) ∧
  (∀ (s : State) (k : Nat), s.clock.power = true → s.clock.tick = true →
    (s.reach k).clock.order = k ∧ (s.clock.order ≤ k → (s.reach k).clock.now = s.clock.now) ∧
      (k < s.clock.order → (s.reach k).clock.now = (s.clock.now + 1) % 2 ^ 64)) ∧
  (∀ (s : State) (k : Nat), s.clock.power = false ∨ s.clock.tick = false → s.reach k = s) ∧
  (∀ c c' m m' n n' : Nat, m < 8 → n < 65536 → (c < c' ∨ c = c' ∧ (m < m' ∨ m = m' ∧ n < n')) → evKey c m n < evKey c' m' n') ∧
  (∀ sub port : Nat, sub < 16 → port < 2 → netKey sub < pcieKey port ∧ pcieKey port < internalKey ∧ (sub + 4 < 16 → netKey sub < netKey (sub + 4))) ∧
  pcieKey 0 < pcieKey 1

/-- Only DEV_FW_ACTIVATE and the data of a host memory read change the image store (R443, R451): no reset, no loss of power and no other command
does. -/
def Obligations.OnlyFirmwareRowsWriteTheImageStore : Prop :=
  ∀ (c : Instr) (s t : State), exec c s = .next t →
    t.store = s.store ∨ (∃ k, c = .devFwActivate k) ∨ ∃ op st b, c = .hostMemoryReadCompletion op st b

/-- Only the meter's own rows and a change of power change the meter (R400, R401, R414): no command of a host does. -/
def Obligations.OnlyMeterRowsChangeTheMeter : Prop :=
  ∀ (c : Instr) (s t : State), exec c s = .next t → isMeterRow c = false → isPowerRow c = false → t.meter = s.meter

/-- A reply, an acceptance and a final reply change rings, records and the list of outstanding commands, and nothing else: HBM, NAND, sessions,
models, queue pairs, indexes, jobs, keys and registers are what they were, and so are the queue, the clock, the fuses, the image store and the
meter. -/
def Obligations.RepliesChangeNothingElse : Prop :=
  ∀ (s : State) (c : Cmd) (r : CmdRec) (st : Status) (res fin : List Word) (k : OpKind) (d : Dev),
    (s.answered r st res d).dev.rest = d.rest ∧
    (s.acceptedDone r res st fin d).dev.rest = d.rest ∧
    ({ (s.acceptedAs c r res k d).dev.rest with ops := d.ops } : Dev) = d.rest ∧
    (∀ a n : Nat, (s.answered r st res d).dev.hbmRead a n = d.hbmRead a n ∧ (s.acceptedAs c r res k d).dev.hbmRead a n = d.hbmRead a n) ∧
    s.answered r st res d = s.withDev (s.answered r st res d).dev ∧
    s.acceptedDone r res st fin d = s.withDev (s.acceptedDone r res st fin d).dev ∧
    s.acceptedAs c r res k d = s.withDev (s.acceptedAs c r res k d).dev

/-- Writes to HBM keep its one canonical form, and change no byte outside the bytes written: ordinary writes of any agent, and writes into a region
that a checkpoint has not reached. -/
def Obligations.HbmWritesKeepTheForm : Prop :=
  ∀ (s t : State) (ag : Agent) (p a : Nat) (bs : List Byte) (c : Instr), Memory.wf s.dev.mem.cells = true →
    c = .stalledWrite a bs ∨ c = .ordinaryWrite ag p a bs → exec c s = .next t →
    Memory.wf t.dev.mem.cells = true ∧
    ∀ b n : Nat, b + n ≤ a ∨ a + bs.length ≤ b → t.dev.hbmRead b n = s.dev.hbmRead b n

/-! ### Rules stated whole -/

/-- R446: the boot ROM's choice of a bank at the end of start-up stage 3, for banks that both carry a SEQ. -/
def Obligations.BootBankIsTheNewerValidOne : Prop :=
  ∀ (s : State) (a b p : Nat) (f : Option Nat), s.clock.power = true → s.dev.boot.stage = 3 → a < 2 ^ 32 → b < 2 ^ 32 →
    s.store.seq 0 = some a → s.store.seq 1 = some b → ((a + 2 ^ 32 - b) % 2 ^ 32 < 2 ^ 31 ∧ p = 0 ∨ (b + 2 ^ 32 - a) % 2 ^ 32 < 2 ^ 31 ∧ p = 1 ∧
      a ≠ b) →
    (s.store.valid s.fuses p = true → ∃ t, exec (.startupStageEnd f) s = .next t ∧ t.dev.boot.bank = p ∧ t.dev.boot.fallback = false ∧
      t.dev.boot.stage = 4) ∧
    (s.store.valid s.fuses p = false → s.store.valid s.fuses (1 - p) = true →
      ∃ t, exec (.startupStageEnd f) s = .next t ∧ t.dev.boot.bank = 1 - p ∧ t.dev.boot.fallback = true ∧ t.dev.boot.stage = 4) ∧
    (s.store.valid s.fuses p = false → s.store.valid s.fuses (1 - p) = false →
      ∃ t, exec (.startupStageEnd f) s = .next t ∧ t.dev.boot.state = 9 ∧ t.dev.boot.stage = 0)

/-- R454: the check-value unit. -/
def Obligations.CheckValueUnitComputesCrc32c : Prop :=
  (0x82F63B78#32).reverse = 0x1EDC6F41#32 ∧ State.reset.dev.crc.value = 0xFFFFFFFF#32 ∧
  (∀ (s : State) (f : Fn) (w : Word), s.clock.power = true → f.num = 0 → s.dev.fnLive f = true → s.dev.boot.state = 6 → s.dev.crc.meter = false →
    (s.dev.crc.owner = 2 + f.port → s.dev.writable = true →
      (∀ s₀ : State, s = s₀.reach (pcieKey f.port) → exec (.crcIn8 f w) s₀ = .next (s.withDev { s.dev with crc := { s.dev.crc with
        value := (List.range 8).foldl (fun v _ => if v.getLsbD 0 then (v >>> 1) ^^^ 0x82F63B78#32 else v >>> 1)
          (s.dev.crc.value ^^^ (w.setWidth 8).setWidth 32) } })) ∧
      ∀ s₀ : State, s = s₀.reach (pcieKey f.port) →
        exec (.crcInit f) s₀ = .next (s.withDev { s.dev with crc := { s.dev.crc with value := 0xFFFFFFFF#32 } })) ∧
    ∀ s₀ : State, s = s₀.reach (pcieKey f.port) → exec (.readClearCounter ⟨f, .bar0⟩ ⟨0x100010, 4⟩) s₀ =
      .next (s.withDev (s.dev.out (.readData f (leBytes 4 (s.dev.crc.value ^^^ 0xFFFFFFFF#32).toNat) false))))

/-- R331: a refill in credit mode, credit counted in 1/125 byte; `before` says whether credit mode was in force before it. -/
def Obligations.CreditModeRefill : Prop :=
  ∀ (b : Bucket) (f : ShProf) (before waits : Bool) (c0 cap : Int), cap = f.burst * 4096 * 125 → c0 = (if before then b.credit else min b.credit 0) →
    (waits = true → (b.refill f before true waits).credit = min cap (c0 + f.rate * 1024)) ∧
    (waits = false → 0 < c0 → (b.refill f before true waits).credit = 0) ∧
    (waits = false → c0 ≤ 0 → (b.refill f before true waits).credit = min 0 (c0 + f.rate * 1024)) ∧
    (b.refill f before true waits).credit ≤ cap ∧
    (b.refill f true false waits).credit = min cap ((if b.credit ≤ 0 then b.credit else 0) + f.rate * 1024) ∧
    ∀ bytes : Nat, (b.spend bytes).credit = b.credit - bytes * 125

/-- R380: the current measurement digest. -/
def Obligations.MeasurementDigestCoversBlocksOneToTen : Prop :=
  (∀ (x : Ctx) (d : Dev), measureDigest x d = Config.sha512 (measurement x d 1 ++ (measurement x d 2 ++ (measurement x d 3 ++ (measurement x d 4 ++
    (measurement x d 5 ++ (measurement x d 6 ++ (measurement x d 7 ++ (measurement x d 8 ++ (measurement x d 9 ++ measurement x d 10)))))))))) ∧
  (∀ (x : Ctx) (d e : Dev), e.boot = d.boot → e.sec = d.sec → e.glm = d.glm → measureDigest x e = measureDigest x d)
end

