-- ==== Sys2Proof/Laws/Tables.lean ====
section
/-! SUPPORT. Laws of tables keyed by a number, of the byte memories, and of single bits. -/

namespace Sys2Proof.Machine

/-! ### Tables -/

@[simp] theorem tget_nil {α : Type} (k : Nat) : tget ([] : Tbl α) k = none := rfl

/-- What was put under a key is what is read there. -/
@[simp] theorem tget_tset_same {α : Type} (t : Tbl α) (k : Nat) (v : α) : tget (tset t k v) k = some v := by
  induction t with
  | nil => simp [tset, tget]
  | cons e t ih =>
    obtain ⟨j, u⟩ := e
    unfold tset
    split
    · simp [tget]
    · split
      · simp [tget]
      · rename_i h
        have hj : ¬ j = k := fun e => h e.symm
        simp [tget, hj, ih]

/-- A put leaves every other key alone. -/
theorem tget_tset_other {α : Type} (t : Tbl α) {k l : Nat} (v : α) (h : l ≠ k) : tget (tset t k v) l = tget t l := by
  induction t with
  | nil => simp [tset, tget, Ne.symm h]
  | cons e t ih =>
    obtain ⟨j, u⟩ := e
    unfold tset
    split
    · simp [tget, Ne.symm h]
    · split
      · rename_i h2; subst h2; simp [tget, Ne.symm h]
      · simp only [tget]; split <;> simp_all

@[simp] theorem tgetD_tset_same {α : Type} (t : Tbl α) (k : Nat) (v w : α) : tgetD (tset t k v) k w = v := by simp [tgetD]

theorem tgetD_tset_other {α : Type} (t : Tbl α) {k l : Nat} (v w : α) (h : l ≠ k) : tgetD (tset t k v) l w = tgetD t l w := by
  simp [tgetD, tget_tset_other t v h]

/-- Every key of a table is above `b`. -/
def Tbl.above {α : Type} (b : Nat) (t : Tbl α) : Prop := ∀ e ∈ t, b < e.1

theorem wf_cons {α : Type} (k : Nat) (v : α) (t : Tbl α) : Tbl.wf ((k, v) :: t) = true ↔ Tbl.above k t ∧ Tbl.wf t = true := by
  induction t generalizing k v with
  | nil => simp [Tbl.wf, Tbl.above]
  | cons e t ih =>
    obtain ⟨j, u⟩ := e
    simp only [Tbl.wf, Bool.and_eq_true, decide_eq_true_eq]
    constructor
    · rintro ⟨h1, h2⟩
      refine ⟨?_, h2⟩
      intro x hx
      rcases List.mem_cons.1 hx with rfl | hx
      · exact h1
      · exact lt_trans h1 (((ih j u).1 h2).1 x hx)
    · rintro ⟨h1, h2⟩
      exact ⟨h1 (j, u) (List.mem_cons_self ..), h2⟩

theorem above_tset {α : Type} {b k : Nat} (v : α) {t : Tbl α} (hb : b < k) (h : Tbl.above b t) : Tbl.above b (tset t k v) := by
  induction t with
  | nil => intro e he; simp [tset] at he; simp [he, hb]
  | cons e t ih =>
    obtain ⟨j, u⟩ := e
    have ht : Tbl.above b t := fun x hx => h x (List.mem_cons_of_mem _ hx)
    have hj : b < j := h (j, u) (List.mem_cons_self ..)
    intro x hx
    unfold tset at hx
    split at hx
    · rcases List.mem_cons.1 hx with rfl | hx
      · exact hb
      · exact h x hx
    · split at hx
      · rcases List.mem_cons.1 hx with rfl | hx
        · exact hb
        · exact ht x hx
      · rcases List.mem_cons.1 hx with rfl | hx
        · exact hj
        · exact ih ht x hx

/-- A put keeps the keys rising. -/
theorem wf_tset {α : Type} (t : Tbl α) (k : Nat) (v : α) (h : Tbl.wf t = true) : Tbl.wf (tset t k v) = true := by
  induction t with
  | nil => rfl
  | cons e t ih =>
    obtain ⟨j, u⟩ := e
    have h2 := (wf_cons j u t).1 h
    unfold tset
    split
    · rename_i hk
      refine (wf_cons _ _ _).2 ⟨?_, h⟩
      intro x hx
      rcases List.mem_cons.1 hx with rfl | hx
      · exact hk
      · exact lt_trans hk (h2.1 x hx)
    · split
      · rename_i hk; subst hk; exact (wf_cons _ _ _).2 h2
      · exact (wf_cons _ _ _).2 ⟨above_tset v (by omega) h2.1, ih h2.2⟩

theorem mem_tdel {α : Type} {t : Tbl α} {k : Nat} {e : Nat × α} (h : e ∈ tdel t k) : e ∈ t := by
  induction t with
  | nil => simp [tdel] at h
  | cons x t ih =>
    obtain ⟨j, u⟩ := x
    unfold tdel at h
    split at h
    · exact List.mem_cons_of_mem _ h
    · rcases List.mem_cons.1 h with rfl | h
      · exact List.mem_cons_self ..
      · exact List.mem_cons_of_mem _ (ih h)

/-- A removal keeps the keys rising. -/
theorem wf_tdel {α : Type} (t : Tbl α) (k : Nat) (h : Tbl.wf t = true) : Tbl.wf (tdel t k) = true := by
  induction t with
  | nil => rfl
  | cons e t ih =>
    obtain ⟨j, u⟩ := e
    have h2 := (wf_cons j u t).1 h
    unfold tdel
    split
    · exact h2.2
    · exact (wf_cons _ _ _).2 ⟨fun x hx => h2.1 x (mem_tdel hx), ih h2.2⟩

theorem tget_above {α : Type} {t : Tbl α} {b k : Nat} (h : Tbl.above b t) (hk : k ≤ b) : tget t k = none := by
  induction t with
  | nil => rfl
  | cons e t ih =>
    obtain ⟨j, u⟩ := e
    have hj : b < j := h (j, u) (List.mem_cons_self ..)
    have hne : ¬ j = k := by omega
    simp [tget, hne, ih fun x hx => h x (List.mem_cons_of_mem _ hx)]

theorem tget_tdel_same {α : Type} (t : Tbl α) (k : Nat) (h : Tbl.wf t = true) : tget (tdel t k) k = none := by
  induction t with
  | nil => rfl
  | cons e t ih =>
    obtain ⟨j, u⟩ := e
    have h2 := (wf_cons j u t).1 h
    unfold tdel
    split
    · rename_i hj; subst hj; exact tget_above h2.1 (le_refl _)
    · rename_i hj; simp [tget, hj, ih h2.2]

theorem tget_tdel_other {α : Type} (t : Tbl α) {k l : Nat} (h : l ≠ k) : tget (tdel t k) l = tget t l := by
  induction t with
  | nil => rfl
  | cons e t ih =>
    obtain ⟨j, u⟩ := e
    unfold tdel
    split
    · rename_i hj; subst hj; simp [tget, Ne.symm h]
    · simp only [tget]; split <;> simp_all

theorem wf_filter {α : Type} (t : Tbl α) (p : Nat × α → Bool) (h : Tbl.wf t = true) : Tbl.wf (t.filter p) = true := by
  induction t with
  | nil => rfl
  | cons e t ih =>
    obtain ⟨j, u⟩ := e
    have h2 := (wf_cons j u t).1 h
    rw [List.filter_cons]
    split
    · exact (wf_cons _ _ _).2 ⟨fun x hx => h2.1 x (List.mem_filter.1 hx).1, ih h2.2⟩
    · exact ih h2.2

/-! ### Byte memories -/

/-- A byte reads as it was written. -/
theorem memGet_memSet_same (m : List Host.Cell) (a : Nat) (b : Byte) (h : Tbl.wf m = true) : memGet (memSet m a b) a = b := by
  unfold memGet memSet tgetD
  split
  · rename_i hb; simp [tget_tdel_same m a h, hb]
  · simp

/-- A written byte leaves every other byte alone. -/
theorem memGet_memSet_other (m : List Host.Cell) {a c : Nat} (b : Byte) (h : c ≠ a) : memGet (memSet m a b) c = memGet m c := by
  unfold memGet memSet tgetD
  split
  · rw [tget_tdel_other m h]
  · rw [tget_tset_other m b h]

theorem all_tset {α : Type} {p : Nat × α → Bool} {t : Tbl α} {k : Nat} {v : α} (hp : p (k, v) = true) (h : t.all p = true) :
    (tset t k v).all p = true := by
  induction t with
  | nil => simp [tset, hp]
  | cons e t ih =>
    obtain ⟨j, u⟩ := e
    simp only [List.all_cons, Bool.and_eq_true] at h
    unfold tset
    split
    · simp [hp, h.1, h.2]
    · split
      · simp [hp, h.2]
      · simp [h.1, ih h.2]

/-- A written byte keeps the canonical form. -/
theorem wf_memSet (m : List Host.Cell) (a : Nat) (b : Byte) (h : Memory.wf m = true) : Memory.wf (memSet m a b) = true := by
  simp only [Memory.wf, Bool.and_eq_true] at h ⊢
  unfold memSet
  split
  · exact ⟨wf_tdel m a h.1, List.all_eq_true.2 fun e he => List.all_eq_true.1 h.2 e (mem_tdel he)⟩
  · rename_i hb; exact ⟨wf_tset m a b h.1, all_tset (by simpa using hb) h.2⟩

/-- Written bytes keep the canonical form. -/
theorem wf_memWrite (m : List Host.Cell) (a : Nat) (bs : List Byte) (h : Memory.wf m = true) : Memory.wf (memWrite m a bs) = true := by
  induction bs generalizing m a with
  | nil => exact h
  | cons b bs ih => exact ih _ _ (wf_memSet m a b h)

/-- Written bytes leave every byte outside them alone. -/
theorem memGet_memWrite_other (m : List Host.Cell) (a c : Nat) (bs : List Byte) (h : c < a ∨ a + bs.length ≤ c) :
    memGet (memWrite m a bs) c = memGet m c := by
  induction bs generalizing m a with
  | nil => rfl
  | cons b bs ih =>
    simp only [List.length_cons] at h
    simp only [memWrite]
    rw [ih _ _ (by omega), memGet_memSet_other _ _ (by omega)]

/-- Bytes read as they were written. -/
theorem memRead_memWrite_same (m : List Host.Cell) (a : Nat) (bs : List Byte) (h : Memory.wf m = true) :
    memRead (memWrite m a bs) a bs.length = bs := by
  induction bs generalizing m a with
  | nil => rfl
  | cons b bs ih =>
    have hw : Tbl.wf m = true := by simp only [Memory.wf, Bool.and_eq_true] at h; exact h.1
    simp only [List.length_cons, memRead, memWrite]
    rw [ih _ _ (wf_memSet m a b h), memGet_memWrite_other _ _ _ _ (Or.inl (Nat.lt_succ_self a)), memGet_memSet_same m a b hw]

/-- A filter keeps the canonical form. -/
theorem wf_memFilter (m : List Host.Cell) (p : Host.Cell → Bool) (h : Memory.wf m = true) : Memory.wf (m.filter p) = true := by
  simp only [Memory.wf, Bool.and_eq_true] at h ⊢
  exact ⟨wf_filter m p h.1, List.all_eq_true.2 fun e he => List.all_eq_true.1 h.2 e (List.mem_filter.1 he).1⟩

/-- A write to HBM keeps the canonical form. -/
theorem Dev.wf_hbmWrite (d : Dev) (a : Nat) (bs : List Byte) (h : Memory.wf d.mem.cells = true) :
    Memory.wf (d.hbmWrite a bs).mem.cells = true := wf_memWrite _ _ _ h

/-- Zeroing a range keeps the canonical form. -/
theorem Dev.wf_hbmZero (d : Dev) (a len : Nat) (h : Memory.wf d.mem.cells = true) : Memory.wf (d.hbmZero a len).mem.cells = true :=
  wf_memFilter _ _ h

/-- Poison changes no byte. -/
theorem Dev.wf_hbmPoison (d : Dev) (l : List Nat) (h : Memory.wf d.mem.cells = true) : Memory.wf (d.hbmPoison l).mem.cells = true := h

/-- A granule's copy keeps the canonical form. -/
theorem Dev.wf_granCopy (d : Dev) (src dst : Nat) (h : Memory.wf d.mem.cells = true) : Memory.wf (d.granCopy src dst).mem.cells = true := by
  unfold Dev.granCopy
  exact Dev.wf_hbmPoison _ _ (Dev.wf_hbmWrite _ _ _ h)

/-- A byte of the image store keeps the keys rising. -/
theorem wf_flashPut (t : Tbl Byte) (a : Nat) (b : Byte) (h : Tbl.wf t = true) : Tbl.wf (flashPut t a b) = true := by
  unfold flashPut
  split
  · exact wf_tdel t a h
  · exact wf_tset t a b h

/-- A write to the image store keeps the keys rising. -/
theorem ImageStore.wf_write (s : ImageStore) (a : Nat) (bs : List Byte) (h : Tbl.wf s.flash = true) : Tbl.wf (s.write a bs).flash = true := by
  induction bs generalizing s a with
  | nil => exact h
  | cons b bs ih => exact ih ⟨flashPut s.flash a b⟩ _ (wf_flashPut _ _ _ h)

/-! ### Bits -/

/-- A bit that has been set is set. -/
@[simp] theorem bitAt_setBit (n i : Nat) : bitAt (setBit n i) i = true := by
  unfold setBit
  split
  · assumption
  · rename_i h
    have h2 : n / 2 ^ i % 2 = 0 := by
      have := Nat.mod_two_eq_zero_or_one (n / 2 ^ i)
      simp only [bitAt, beq_iff_eq] at h
      omega
    have h3 : (n + 2 ^ i) / 2 ^ i = n / 2 ^ i + 1 := Nat.add_div_right n (Nat.two_pow_pos i)
    simp only [bitAt, h3, beq_iff_eq]
    omega

end Sys2Proof.Machine
end

