-- ==== Sys2Proof/Laws/Frame.lean ====
section
/-! SUPPORT. What the shared frames of the meanings can do (onDev, hostCmd, onMeter, whilePowered), what replies and event records leave
alone, and the memory operations of engines. -/

namespace Sys2Proof.Machine

/-! ### The frames of the meanings -/

/-- While power-good is high, `onDev` changes the dies, HBM and NAND as its function says, and nothing else. -/
theorem onDev_powered (f : Ctx → Dev → Dev) (s : State) (h : s.clock.power = true) : onDev f s = .next (s.withDev (f s.ctx s.dev)) := by
  simp [onDev, h, State.withDev]

/-- While power-good is low, it changes nothing (R463). -/
theorem onDev_unpowered (f : Ctx → Dev → Dev) (s : State) (h : s.clock.power = false) : onDev f s = .next s := by
  simp [onDev, h]

/-- Everything that `onDev` can do. -/
theorem onDev_next {f : Ctx → Dev → Dev} {s t : State} (h : onDev f s = .next t) :
    t.pending = s.pending ∧ t.clock = s.clock ∧ t.fuses = s.fuses ∧ t.store = s.store ∧ t.meter = s.meter := by
  unfold onDev at h
  injection h with h
  subst h
  split <;> exact ⟨rfl, rfl, rfl, rfl, rfl⟩

/-- A host command changes the dies, HBM and NAND only. -/
theorem hostCmd_next {op : Nat} {c : Cmd} {body : Ctx → Req → Dev → Ans} {s t : State} (h : hostCmd op c body s = .next t) :
    t.pending = s.pending ∧ t.clock = s.clock ∧ t.fuses = s.fuses ∧ t.store = s.store ∧ t.meter = s.meter := onDev_next h

theorem whilePowered_next {f : State → State} {s t : State} (h : whilePowered f s = .next t) : t = f s ∨ t = s := by
  unfold whilePowered at h
  injection h with h
  subst h
  split
  · exact .inl rfl
  · exact .inr rfl

theorem onMeter_next {f : State → State} {s t : State} (h : onMeter f s = .next t) : t = f s ∨ t = s := by
  unfold onMeter at h
  injection h with h
  subst h
  split
  · exact .inl rfl
  · exact .inr rfl

theorem ring_of_isRing {c : CmdSrc} (h : CmdSrc.isRing c = true) : ∃ f n k, c = .ring f n k := by
  cases c with
  | ring f n k => exact ⟨f, n, k, rfl⟩
  | engine e => cases h

theorem runCmd_started {op : Nat} {c : Cmd} {r : CmdRec} {s : State} (h : Started op c r s) (body : Ctx → Req → Dev → Ans) :
    runCmd op c body s.ctx s.dev =
      match body s.ctx (reqOf c r) s.dev with
      | .refuse st => s.dev.endCmd s.ctx r st []
      | .done st res d' => d'.endCmd s.ctx r st res
      | .accept res k d' =>
        let d' := d'.reply s.ctx r .accepted res
        { d' with
          cmds := d'.cmds.map fun e => if e.seq = r.seq then { e with phase := .accepted } else e
          ops := tset d'.ops r.seq ⟨c.src, r.part.getD 0, k, false⟩ }
      | .both res st fin d' => (d'.reply s.ctx r .accepted res).endCmd s.ctx r st fin := by
  obtain ⟨h1, h2, h3, h4, h5⟩ := h
  obtain ⟨f, n, k, hc⟩ := ring_of_isRing h2
  unfold runCmd
  rw [hc]
  simp only [h3, h4, h5, reqOf, Bool.false_eq_true, if_false, hc]
  all_goals
    generalize body s.ctx _ s.dev = a
    cases a <;> rfl

/-- A command that is answered at once. -/
theorem hostCmd_done {op : Nat} {c : Cmd} {r : CmdRec} {s : State} {body : Ctx → Req → Dev → Ans} {st : Status} {res : List Word} {d : Dev}
    (h : Started op c r s) (hb : body s.ctx (reqOf c r) s.dev = .done st res d) :
    hostCmd op c body s = .next (s.answered r st res d) := by
  unfold hostCmd
  rw [onDev_powered _ _ h.1, runCmd_started h, hb]
  rfl

/-- A command that is refused: one reply, and no other effect. -/
theorem hostCmd_refuse {op : Nat} {c : Cmd} {r : CmdRec} {s : State} {body : Ctx → Req → Dev → Ans} {st : Status}
    (h : Started op c r s) (hb : body s.ctx (reqOf c r) s.dev = .refuse st) :
    hostCmd op c body s = .next (s.answered r st [] s.dev) := by
  unfold hostCmd
  rw [onDev_powered _ _ h.1, runCmd_started h, hb]
  rfl

/-- A command that is accepted. -/
theorem hostCmd_accept {op : Nat} {c : Cmd} {r : CmdRec} {s : State} {body : Ctx → Req → Dev → Ans} {res : List Word} {k : OpKind} {d : Dev}
    (h : Started op c r s) (hb : body s.ctx (reqOf c r) s.dev = .accept res k d) :
    hostCmd op c body s = .next (s.acceptedAs c r res k d) := by
  unfold hostCmd
  rw [onDev_powered _ _ h.1, runCmd_started h, hb]
  rfl

/-- A command that is accepted and ends at once. -/
theorem hostCmd_both {op : Nat} {c : Cmd} {r : CmdRec} {s : State} {body : Ctx → Req → Dev → Ans} {st : Status} {res fin : List Word} {d : Dev}
    (h : Started op c r s) (hb : body s.ctx (reqOf c r) s.dev = .both res st fin d) :
    hostCmd op c body s = .next (s.acceptedDone r res st fin d) := by
  unfold hostCmd
  rw [onDev_powered _ _ h.1, runCmd_started h, hb]
  rfl

/-! ### Replies and event records -/

@[simp] theorem Dev.rest_out (d : Dev) (o : Out) : (d.out o).rest = d.rest := rfl
@[simp] theorem Dev.rest_setRq (d : Dev) (f n : Nat) (r : Rq) : (d.setRq f n r).rest = d.rest := rfl

@[simp] theorem Dev.rest_place (d : Dev) (k : Nat) (r : Rec) : (d.place k r).rest = d.rest := by
  unfold Dev.place
  split <;> rfl

@[simp] theorem Dev.rest_recPart (d : Dev) (x : Ctx) (p : Nat) (cls : RecClass) (code src : Nat) (a b c : Word) :
    (d.recPart x p cls code src a b c).rest = d.rest := Dev.rest_place ..

@[simp] theorem Dev.rest_recAnon (x : Ctx) (code : Nat) (a b c : Word) (l : List Nat) : ∀ d : Dev, (d.recAnon x code a b c l).rest = d.rest := by
  induction l with
  | nil => intro d; rfl
  | cons p ps ih =>
    intro d
    simp only [Dev.recAnon]
    rw [ih]
    split
    · exact Dev.rest_place ..
    · rfl

@[simp] theorem Dev.rest_recDevTo (d : Dev) (x : Ctx) (port : Nat) (cls : RecClass) (code src : Nat) (a b c : Word) :
    (d.recDevTo x port cls code src a b c).rest = d.rest := by
  unfold Dev.recDevTo
  cases cls <;> simp

@[simp] theorem Dev.rest_recDev (d : Dev) (x : Ctx) (cls : RecClass) (code src : Nat) (a b c : Word) :
    (d.recDev x cls code src a b c).rest = d.rest := Dev.rest_recDevTo ..

@[simp] theorem Dev.rest_fire (d : Dev) (f : Fn) (n : Nat) : (d.fire f n).rest = d.rest := by
  unfold Dev.fire
  split <;> rfl

@[simp] theorem Dev.rest_writeEntry (d : Dev) (x : Ctx) (f n : Nat) (e : Reply) : (d.writeEntry x f n e).rest = d.rest := by
  unfold Dev.writeEntry
  dsimp only
  split <;> simp

@[simp] theorem Dev.rest_pushReply (d : Dev) (x : Ctx) (f n : Nat) (e : Reply) : (d.pushReply x f n e).rest = d.rest := by
  unfold Dev.pushReply
  simp only []
  split
  · rfl
  · split <;> simp

@[simp] theorem Dev.rest_pushAll (x : Ctx) (l : List (Nat × Nat × Reply)) : ∀ d : Dev, (d.pushAll x l).rest = d.rest := by
  induction l with
  | nil => intro d; rfl
  | cons e l ih => intro d; obtain ⟨f, n, e⟩ := e; simp [Dev.pushAll, ih]

@[simp] theorem Dev.rest_adoptDone (d : Dev) (x : Ctx) (k : Nat) : (d.adoptDone x k).rest = d.rest := by
  unfold Dev.adoptDone
  split
  · split
    · rw [Dev.rest_pushAll]; rfl
    · rfl
  · rfl

@[simp] theorem Dev.rest_reply (d : Dev) (x : Ctx) (c : CmdRec) (st : Status) (res : List Word) : (d.reply x c st res).rest = d.rest := by
  have h : ({ d with nextReply := d.nextReply + 1 } : Dev).rest = d.rest := rfl
  unfold Dev.reply
  dsimp only
  split
  · exact h
  · split
    · exact (Dev.rest_pushReply ..).trans h
    · rfl
  · generalize hb : (c.part.isSome && _) = b1
    cases b1
    · generalize hc : (_ && c.sq == 0 && _) = b2
      cases b2
      · exact (Dev.rest_pushReply ..).trans h
      · rfl
    · rfl

/-- A final reply leaves everything else of the dies alone. -/
@[simp] theorem Dev.rest_endCmd (d : Dev) (x : Ctx) (c : CmdRec) (st : Status) (res : List Word) : (d.endCmd x c st res).rest = d.rest := by
  unfold Dev.endCmd
  have h : ∀ e : Dev, ({ e with cmds := e.cmds.filter fun k => k.seq != c.seq } : Dev).rest = e.rest := fun _ => rfl
  cases c.part with
  | none =>
    simp only []
    split <;> simp [h]
  | some p =>
    simp only []
    split <;> simp [h]

/-- The fields that the frame of replies keeps. -/
theorem Dev.rest_eq {d e : Dev} (h : d.rest = e.rest) :
    d.boot = e.boot ∧ d.power = e.power ∧ d.ports = e.ports ∧ d.ctrlPort = e.ctrlPort ∧ d.parts = e.parts ∧ d.sqs = e.sqs ∧ d.ops = e.ops ∧
    d.cfg = e.cfg ∧ d.commits = e.commits ∧ d.drains = e.drains ∧ d.timers = e.timers ∧ d.regs = e.regs ∧ d.mem = e.mem ∧ d.nand = e.nand ∧
    d.ses = e.ses ∧ d.glm = e.glm ∧ d.grid = e.grid ∧ d.sch = e.sch ∧ d.txt = e.txt ∧ d.net = e.net ∧ d.shp = e.shp ∧ d.pan = e.pan ∧
    d.ckp = e.ckp ∧ d.sec = e.sec ∧ d.crc = e.crc := by
  unfold Dev.rest at h
  injection h
  simp_all

/-- An event record, and an entry of a reply ring, leave the outstanding commands alone. -/
theorem Dev.place_cmds (d : Dev) (k : Nat) (r : Rec) : (d.place k r).cmds = d.cmds := by
  unfold Dev.place
  split <;> rfl

theorem Dev.pushReply_cmds (d : Dev) (x : Ctx) (f n : Nat) (e : Reply) : (d.pushReply x f n e).cmds = d.cmds := by
  unfold Dev.pushReply
  simp only []
  split
  · rfl
  · split
    · rfl
    · have h (d : Dev) (f : Fn) (n : Nat) : (d.fire f n).cmds = d.cmds := by
        unfold Dev.fire
        split <;> rfl
      unfold Dev.writeEntry
      dsimp only
      generalize (if _ = 0 then !_ else _ : Bool) = phase
      split
      · exact h ..
      · rfl

/-! ### Memory operations of engines -/

/-- Bytes written to a local store keep the canonical form. -/
theorem Dev.wf_lsWrite (d : Dev) (n off : Nat) (bs : List Byte) (h : Memory.wf d.grid.ls = true) :
    Memory.wf (d.lsWrite n off bs).grid.ls = true := by
  unfold Dev.lsWrite
  exact wf_memWrite _ _ _ h

/-- A cleared local store keeps the canonical form. -/
theorem Dev.wf_lsClear (d : Dev) (n : Nat) (h : Memory.wf d.grid.ls = true) : Memory.wf (d.lsClear n).grid.ls = true := by
  unfold Dev.lsClear
  exact wf_memFilter _ _ h

/-- An engine's write of HBM, which may stall, keeps the canonical form. -/
theorem Dev.wf_putGran (d : Dev) (x : Ctx) (a : Nat) (bs : List Byte) (bad : Bool) (h : Memory.wf d.mem.cells = true) :
    Memory.wf (d.putGran x a bs bad).mem.cells = true := by
  unfold Dev.putGran
  cases d.unreachedAt a bs.length with
  | some k => exact h
  | none =>
    simp only []
    split
    · exact h
    · have hw : Memory.wf ((d.acted a bs.length).hbmWrite a bs).mem.cells = true := Dev.wf_hbmWrite _ a bs h
      cases bad
      · exact hw
      · exact Dev.wf_hbmPoison _ _ hw

theorem Dev.wf_pathPut (d : Dev) (x : Ctx) (a : Nat) (bs : List Byte) (bad : Bool) (h : Memory.wf d.mem.cells = true) :
    Memory.wf (d.pathPut x a bs bad).mem.cells = true := by
  unfold Dev.pathPut
  split
  · exact h
  · exact Dev.wf_putGran d x a bs bad h

theorem Dev.wf_hbmPut (d : Dev) (x : Ctx) (a : Nat) (bs : List Byte) (bad : Bool) (h : Memory.wf d.mem.cells = true) :
    Memory.wf (d.hbmPut x a bs bad).mem.cells = true := by
  unfold Dev.hbmPut
  generalize splitGran _ a bs = l
  induction l generalizing d with
  | nil => exact h
  | cons e l ih => exact ih _ (Dev.wf_pathPut d x e.1 e.2 bad h)

/-- The places of NAND are kept apart from HBM (R126). -/
theorem Dev.freshBlock_mem (d : Dev) (die : Nat) : (d.freshBlock die).2.mem = d.mem := by
  unfold Dev.freshBlock
  dsimp only
  split
  · rfl
  · split <;> rfl

theorem Dev.takeRoom_mem (d : Dev) (region die : Nat) : (d.takeRoom region die).2.mem = d.mem := by
  unfold Dev.takeRoom
  dsimp only
  split
  · rfl
  · exact d.freshBlock_mem die

theorem Dev.nextUnitPlace_mem (d : Dev) (region : Nat) : (d.nextUnitPlace region).2.mem = d.mem := by
  unfold Dev.nextUnitPlace
  dsimp only
  generalize d.nextPlace 128 _ = n
  split
  · exact d.takeRoom_mem ..
  · cases d.parityDie _ with
    | none => exact d.takeRoom_mem ..
    | some k => exact (Dev.takeRoom_mem ..).trans (d.takeRoom_mem ..)

theorem Dev.relocate_mem (d : Dev) (u : Nat) : (d.relocate u).mem = d.mem := by
  unfold Dev.relocate
  split
  · rfl
  · exact d.nextUnitPlace_mem _

/-- A write to a granule's home keeps the canonical form, be it in HBM or in NAND. -/
theorem Dev.wf_homePut (d : Dev) (x : Ctx) (h : Home) (o : Nat) (bs : List Byte) (bad : Bool) (hm : Memory.wf d.mem.cells = true) :
    Memory.wf (d.homePut x h o bs bad).mem.cells = true := by
  unfold Dev.homePut
  cases h with
  | hbm a => exact Dev.wf_hbmPut d x _ bs bad hm
  | nand u =>
    have hn : (d.nandPut u o bs).mem = d.mem := Dev.relocate_mem ..
    cases bad
    · exact hn ▸ hm
    · exact hn ▸ hm

theorem Dev.wf_putRun (x : Ctx) (l : List Piece) : ∀ (d : Dev) (bs : List Byte), Memory.wf d.mem.cells = true →
    Memory.wf (d.putRun x l bs).mem.cells = true := by
  induction l with
  | nil => intro d bs h; exact h
  | cons e l ih => intro d bs h; exact ih _ _ (Dev.wf_homePut d x e.home e.off _ _ h)

/-- An engine's write to the buffer space keeps the canonical form. -/
theorem Dev.wf_bufWrite {d e : Dev} (x : Ctx) (p off : Nat) (bs : List Byte) (h : Memory.wf d.mem.cells = true)
    (hw : d.bufWrite x p off bs = some e) : Memory.wf e.mem.cells = true := by
  unfold Dev.bufWrite at hw
  obtain ⟨l, _, rfl⟩ := Option.map_eq_some_iff.1 hw
  exact Dev.wf_putRun x l d bs h

/-- The memories right after reset are in canonical form. -/
theorem State.reset_memoriesOk : State.reset.memoriesOk = true := rfl

end Sys2Proof.Machine
end

