-- ==== Sys2Proof/Laws/Dispatch.lean ====
section
/-! SUPPORT. What a row can change beyond the dies: every row but a few is a change of the dies, HBM and NAND (`onDev`) in the state that its
turn leaves it. -/

namespace Sys2Proof.Machine

/-- The rows that are a change of the dies, HBM and NAND only, once their turn has come. -/
def isDevRow : Instr → Bool
  | .powerGoodRise .. | .powerGoodFall | .pwrEnChange .. | .inputVoltageShutdown .. | .breakerTrip .. | .shutdown .. | .inputBelow20V => false
  | .startupStageEnd .. | .deviceReset | .gridReset | .glumeReset | .tickLossHalt .. => false
  | .hostMemoryReadCompletion .. | .devFwActivate .. | .devSvnCommit .. | .secPartErase .. => false
  | .meterStart .. | .meterAdcSample .. | .meterRecordEnd | .meterRecordPublish | .swIdRecheck .. | .coeffPackageStaged | .meterCoeffSwap => false
  | _ => true

/-! ### The turn of an event -/

/-- A reset that is due leaves the queue, the fuses, the image store and the meter alone. -/
theorem State.dueResets_frame (s : State) :
    s.dueResets.pending = s.pending ∧ s.dueResets.fuses = s.fuses ∧ s.dueResets.store = s.store ∧ s.dueResets.meter = s.meter ∧
      s.dueResets.clock.now = s.clock.now ∧ s.dueResets.clock.power = s.clock.power := by
  have h1 : (devReset s).pending = s.pending ∧ (devReset s).fuses = s.fuses ∧ (devReset s).store = s.store ∧ (devReset s).meter = s.meter ∧
      (devReset s).clock.now = s.clock.now ∧ (devReset s).clock.power = s.clock.power := by
    unfold devReset
    split <;> exact ⟨rfl, rfl, rfl, rfl, rfl, rfl⟩
  have h2 (t : State) : (gridRst t).pending = t.pending ∧ (gridRst t).fuses = t.fuses ∧ (gridRst t).store = t.store ∧
      (gridRst t).meter = t.meter ∧ (gridRst t).clock = t.clock := by
    unfold gridRst
    split <;> exact ⟨rfl, rfl, rfl, rfl, rfl⟩
  have h3 (t : State) : (glumeRst t).pending = t.pending ∧ (glumeRst t).fuses = t.fuses ∧ (glumeRst t).store = t.store ∧
      (glumeRst t).meter = t.meter ∧ (glumeRst t).clock = t.clock := by
    unfold glumeRst
    split <;> exact ⟨rfl, rfl, rfl, rfl, rfl⟩
  obtain ⟨a1, a2, a3, a4, a5, a6⟩ := h1
  obtain ⟨b1, b2, b3, b4, b5⟩ := h2 (devReset s)
  obtain ⟨c1, c2, c3, c4, c5⟩ := h3 (gridRst (devReset s))
  unfold State.dueResets
  refine ⟨?_, ?_, ?_, ?_, ?_, ?_⟩
  · rw [c1, b1, a1]
  · rw [c2, b2, a2]
  · rw [c3, b3, a3]
  · rw [c4, b4, a4]
  · rw [c5, b5, a5]
  · rw [c5, b5, a6]

/-- What the end of a tick leaves alone, and what it makes of device time. -/
theorem State.endTick_frame (s : State) :
    s.endTick.pending = s.pending ∧ s.endTick.fuses = s.fuses ∧ s.endTick.store = s.store ∧ s.endTick.meter = s.meter ∧
      s.endTick.clock.now = (s.clock.now + 1) % 2 ^ 64 ∧ s.endTick.clock.power = s.clock.power := by
  obtain ⟨a1, a2, a3, a4, a5, a6⟩ := s.dueResets_frame
  refine ⟨a1, a2, a3, a4, ?_, a6⟩
  show (s.dueResets.clock.now + 1) % 2 ^ 64 = _
  rw [a5]

/-- What the turn of an event leaves alone: the queue, the fuses, the image store, the meter and power. Device time stays, or counts on by one
tick. -/
theorem State.reach_frame (s : State) (k : Nat) :
    (s.reach k).pending = s.pending ∧ (s.reach k).fuses = s.fuses ∧ (s.reach k).store = s.store ∧ (s.reach k).meter = s.meter ∧
      ((s.reach k).clock.now = s.clock.now ∨ (s.reach k).clock.now = (s.clock.now + 1) % 2 ^ 64) ∧ (s.reach k).clock.power = s.clock.power := by
  unfold State.reach
  split
  · have step1 : ∀ u : State, (u = s ∨ u = s.endTick) → u.pending = s.pending ∧ u.fuses = s.fuses ∧ u.store = s.store ∧ u.meter = s.meter ∧
        (u.clock.now = s.clock.now ∨ u.clock.now = (s.clock.now + 1) % 2 ^ 64) ∧ u.clock.power = s.clock.power := by
      rintro u (rfl | rfl)
      · exact ⟨rfl, rfl, rfl, rfl, .inl rfl, rfl⟩
      · obtain ⟨a1, a2, a3, a4, a5, a6⟩ := s.endTick_frame
        exact ⟨a1, a2, a3, a4, .inr a5, a6⟩
    generalize hu : (if k < s.clock.order then s.endTick else s) = u
    have hu' : u = s ∨ u = s.endTick := by
      subst hu
      split
      · exact .inr rfl
      · exact .inl rfl
    obtain ⟨a1, a2, a3, a4, a5, a6⟩ := step1 u hu'
    generalize hv : (if evKey 3 0 0 ≤ k then u.dueResets else u) = v
    have hv' : v.pending = u.pending ∧ v.fuses = u.fuses ∧ v.store = u.store ∧ v.meter = u.meter ∧ v.clock.now = u.clock.now ∧
        v.clock.power = u.clock.power := by
      subst hv
      split
      · exact u.dueResets_frame
      · exact ⟨rfl, rfl, rfl, rfl, rfl, rfl⟩
    obtain ⟨b1, b2, b3, b4, b5, b6⟩ := hv'
    simp only [hv]
    generalize hw : (if evKey 4 0 0 ≤ k then v.dueSwaps else v) = w
    have hw' : w.pending = v.pending ∧ w.fuses = v.fuses ∧ w.store = v.store ∧ w.meter = v.meter ∧ w.clock = v.clock := by
      subst hw
      split <;> exact ⟨rfl, rfl, rfl, rfl, rfl⟩
    obtain ⟨c1, c2, c3, c4, c5⟩ := hw'
    refine ⟨?_, ?_, ?_, ?_, ?_, ?_⟩
    · rw [c1, b1, a1]
    · rw [c2, b2, a2]
    · rw [c3, b3, a3]
    · rw [c4, b4, a4]
    · show w.clock.now = _ ∨ w.clock.now = _
      rw [c5, b5]
      exact a5
    · show w.clock.power = _
      rw [c5, b6, a6]
  · exact ⟨rfl, rfl, rfl, rfl, .inl rfl, rfl⟩

/-- Without power there is no order (R463). -/
theorem State.reach_unpowered (s : State) (k : Nat) (h : s.clock.power = false) : s.reach k = s := by
  unfold State.reach
  rw [h]
  rfl

/-- A state whose tick has reached place k, and in which nothing is due, is as an event of place k meets it. -/
theorem State.reach_here (s : State) (k : Nat) (h : s.clock.power = true ∧ s.clock.tick = true) (hk : s.clock.order = k)
    (hr : evKey 3 0 0 ≤ k → s.dueResets = s) (hs : evKey 4 0 0 ≤ k → s.dueSwaps = s) : s.reach k = s := by
  subst hk
  unfold State.reach
  rw [h.1, h.2]
  simp only [Bool.and_self, if_true, Nat.lt_irrefl, if_false]
  by_cases h3 : evKey 3 0 0 ≤ s.clock.order
  · rw [if_pos h3, hr h3]
    by_cases h4 : evKey 4 0 0 ≤ s.clock.order
    · rw [if_pos h4, hs h4]
    · rw [if_neg h4]
  · rw [if_neg h3]
    by_cases h4 : evKey 4 0 0 ≤ s.clock.order
    · rw [if_pos h4, hs h4]
    · rw [if_neg h4]

/-! ### Rows -/

/-- A row that acts in the state as it is. -/
theorem dev_plain {c : Instr} {f : Ctx → Dev → Dev} (h : ∀ s, exec c s = onDev f s) :
    ∃ f : Ctx → Dev → Dev, ∃ g : State → State, (∀ s, g s = s ∨ ∃ k, g s = s.reach k) ∧ ∀ s, exec c s = onDev f (g s) :=
  ⟨f, fun s => s, fun _ => .inl rfl, h⟩

/-- A row with a place of its own in its tick. -/
theorem dev_reach {c : Instr} {f : Ctx → Dev → Dev} {k : State → Nat} (h : ∀ s, exec c s = onDev f (s.reach (k s))) :
    ∃ f : Ctx → Dev → Dev, ∃ g : State → State, (∀ s, g s = s ∨ ∃ k, g s = s.reach k) ∧ ∀ s, exec c s = onDev f (g s) :=
  ⟨f, fun s => s.reach (k s), fun _ => .inr ⟨_, rfl⟩, h⟩

/-- A row that is part of the effect of an event before it. -/
theorem dev_follow {c : Instr} {f : Ctx → Dev → Dev} (h : ∀ s, exec c s = onDev f s.follow) :
    ∃ f : Ctx → Dev → Dev, ∃ g : State → State, (∀ s, g s = s ∨ ∃ k, g s = s.reach k) ∧ ∀ s, exec c s = onDev f (g s) :=
  dev_reach (k := fun s => max s.clock.order (evKey 4 0 0)) h

seal onDev in
/-- Every row but those of power, start-up, resets, fuses, the image store and the meter changes the dies, HBM and NAND only, in the state at its
turn: the state as it is, or what `reach` makes of it. -/
theorem exec_dev (c : Instr) (h : isDevRow c = true) :
    ∃ f : Ctx → Dev → Dev, ∃ g : State → State, (∀ s, g s = s ∨ ∃ k, g s = s.reach k) ∧ ∀ s, exec c s = onDev f (g s) := by
  cases c
  case powerGoodRise | powerGoodFall | pwrEnChange | inputVoltageShutdown | breakerTrip | shutdown | inputBelow20V | startupStageEnd |
      deviceReset | gridReset | glumeReset | tickLossHalt | hostMemoryReadCompletion | devFwActivate | devSvnCommit | secPartErase |
      meterStart | meterAdcSample | meterRecordEnd | meterRecordPublish | swIdRecheck | coeffPackageStaged | meterCoeffSwap =>
    exact Bool.noConfusion h
  case ptcEvaluate | emergencyClear | garbageCollect | readDisturbRelocate | wearLevelMove | glumeStart | glumeStop | glumeClear |
      glAliasStatusRead | glAliasResultRead | glmAlu | glmMul | glmLi | glmBranch | glmLdSt | brd | bwr | bwait | pgnext | glmVldVst |
      glmVcvt | glmVectorArith | glmVexp2 | glmVreduce | res | yield | glmEnd | serviceWindowEnd | ordinaryRead | ordinaryWrite |
      glAliasPathAccess | targetedRefresh | nandReadScan | ceRate | coreScalarAlu | coreLdSt | coreBranch | coreLoop | wload | mmul |
      accout | accz | coreVldVst | coreVectorArith | vred | vquant | coreVcvt | coreSend | messageDelivery | recv | mfree | poll |
      waitfull | brelease | xfer | stepwait | stepdone | coreFence | halt | fanOut | stalledWrite | throttleLevel | eventRecordDeliver |
      meterCrcTake | meterCrcRelease =>
    exact dev_plain fun _ => rfl
  case fetchResume | fencedCommandStart | descriptorWaitResume | slotFire | stagingEntryFreeRevive | moveRecordArrival |
      moveConfirmationArrival | moveAbortArrival | bufUnmapResume | granuleCopyStart | prefetchEntryStart | programStart |
      trainingStepStart | spillMoveStart | fetchBackPagePlace | batchStepStart | energySplit | speltIntake | messageComplete |
      waitEnRelease | shapedUnitStart | compactResume | queryAdmit | queryMessageArrival | partialListArrival | networkNotice |
      announcementArrival | verdictArrival | endMarkerArrival | manifestReportArrival | commitMessageArrival =>
    exact dev_follow fun _ => rfl
  case cnpArrival =>
    exact dev_reach (k := fun s => netKey ((s.dev.qp _).elim 0 Qp.sub)) fun _ => rfl
  case emergencyDetect | coolantSample | sensorUpdate | devPwrCapWrite | pcieLinkTrainingStart | portReset | functionLevelReset |
      pcieDlInactive | linkDownTimeout | pcieDlActive | heartbeat | hbCfgWrite | heartbeatTimeout | doorbell | sqEnable | rqEnable |
      rqHeadWrite | commandFetch | replyCoalesceTimeout | devNop | devIdentify | devAbort | devSetCtrlHost | devPartBind | devPartRelease |
      devAdopt | devHostStatus | cfgCommit | cfgCancel | cfgCopy | cfgCommitCtrlGo | cfgCommitCtrlCancel | cfgCommitCtrlCopy | commitSwap |
      speedMeasure | timerFire | timeNowLoRead | readClearCounter | registerWrite | sesOpen | sesPark | sesRevive | sesClose | sesMove |
      sesQuery | sesMoveIn | sesAwait | sesSignal | timerSlotFire | waitExpiry | parkAfterExpiry | stagingHighPark | parkWriteConfirmed |
      reviveDecodeEnd | closeReleaseDone | moveConfirmSendComplete | moveInTimeout | moveConfirmTimeout | memBufMap | memBufUnmap |
      memMove | memXfer | memFreeze | memShareDrop | memWhere | memStore | memLoad | memNandFree | memKeyRotate | memKeyRetire |
      memKeyStatus | granuleSwitch | prefetchEntryComplete | ftlWriteConfirm | nandReadComplete | nandDieFailure | dieRebuildComplete |
      sweepUnitSwitch | glmRegionMode | regionSwitch | glmProgLoad | glmCurveLoad | glmSubmit | glmStatus | glmRegionQuery | yieldOverrun |
      budgetExpiry | heldReadTimeout | bar2Read | bar2Write | stackTempSample | refreshWindowEnd | scrubRead | sramScrub | mdlRegister |
      mdlLoad | mdlEvict | mdlPin | mdlCheck | mdlQuery | mdlUnregister | loadComplete | xferComplete | hangTimeout | fanOutMemberDone |
      pfxFromSession | pfxCreate | pfxQuery | adpCreate | adpReplace | adpQuery | adpRetire | trnStart | trnStop | trnQuery |
      trainingStepBoundary | spillSwitch | fetchBackSwitch | batchStepEnd | monitorPass | deadlineExpiry | reqTemplate | reqSubmit |
      reqCancel | reqQuery | schModelCfg | schAcctRead | speltRequestEnd | txtTableLoad | txtModelTok | txtGrammarSet | txtQuery |
      txtTokenize | txtDetokenize | frameReceive | pfcFrame | arpRequest | packetArrivalExt | packetArrivalRc | readRequest | ackArrival |
      ackTimeout | rnrTimerExpiry | reassemblyTimeout | contextFetchComplete | contextFetchExpiry | ethLinkChange | netQpCreate |
      netQpConnect | netQpDestroy | netQpQuery | netSrqCreate | netSrqDestroy | netCqCreate | netCqDestroy | netSend | netEwrPost |
      netEwrWithdraw | netGidSet | netCtxArea | netPortQuery | shaperRefill | creditModeRecoverEnd | panIndexCreate | panIndexDestroy |
      panInsert | panDelete | panQuery | panCompact | panIndexQuery | panGroupSet | panShardQuery | panListen | shardTimeout |
      ckpJobDefine | ckpJobDrop | ckpNotice | ckpQuery | ckpRestore | ckpShrink | shardComplete | shardWriteConfirmed | dedupTimeout |
      verdictTimeout | commitRecordConfirmed | commitTimeout | secSetJoin | secSetLeave | secWeightsOpen | secConnKeyLoad |
      secConnKeyDestroy | secIdentityRead | secQuery | secDebugChallenge | secDebugUnlock | secRma | spdmRequest | signatureDone |
      mtrRecordRead | mtrIdentify | mtrCertRead | mtrCoeffRead | getMeterRecord | getMeterCert | pldmRequest | mctpControl | fltEqEnable |
      fltEqHeadWrite | devReset | devResetCtrlWrite | devFwWrite | devFwQuery | crcInit | crcClaim | crcRelease | crcIn8 | crcIn16 |
      crcIn32 | copyRegionDone | keyEngineDone | queryComplete | updateComplete | controlCoreFault | nocLinkFault | dieTempSensorSample |
      configurationWrite | spdmResponseNotReady =>
    exact dev_reach (k := fun _ => _) fun _ => rfl

end Sys2Proof.Machine
end

