-- ==== Sys2Proof/Laws/State.lean ====
section
/-! SUPPORT. What the named updates of the state leave alone: one lemma for each field and update, and what each update puts. -/

namespace Sys2Proof.Machine

@[simp] theorem State.dev_update_pending (s : State) (d : Dev) : ({ s with dev := d } : State).pending = s.pending := rfl
@[simp] theorem State.dev_update_clock (s : State) (d : Dev) : ({ s with dev := d } : State).clock = s.clock := rfl
@[simp] theorem State.dev_update_fuses (s : State) (d : Dev) : ({ s with dev := d } : State).fuses = s.fuses := rfl
@[simp] theorem State.dev_update_store (s : State) (d : Dev) : ({ s with dev := d } : State).store = s.store := rfl
@[simp] theorem State.dev_update_meter (s : State) (d : Dev) : ({ s with dev := d } : State).meter = s.meter := rfl
@[simp] theorem State.dev_update_dev (s : State) (d : Dev) : ({ s with dev := d } : State).dev = d := rfl
@[simp] theorem State.pending_update_clock (s : State) (l : List Instr) : ({ s with pending := l } : State).clock = s.clock := rfl
@[simp] theorem State.pending_update_fuses (s : State) (l : List Instr) : ({ s with pending := l } : State).fuses = s.fuses := rfl
@[simp] theorem State.pending_update_store (s : State) (l : List Instr) : ({ s with pending := l } : State).store = s.store := rfl
@[simp] theorem State.pending_update_meter (s : State) (l : List Instr) : ({ s with pending := l } : State).meter = s.meter := rfl
@[simp] theorem State.pending_update_dev (s : State) (l : List Instr) : ({ s with pending := l } : State).dev = s.dev := rfl
@[simp] theorem State.pending_update_pending (s : State) (l : List Instr) : ({ s with pending := l } : State).pending = l := rfl
@[simp] theorem State.pending_update_ctx (s : State) (l : List Instr) : ({ s with pending := l } : State).ctx = s.ctx := rfl

/-! ### Dev.out -/

@[simp] theorem Dev.out_boot (d : Dev) (o : Out) : (d.out o).boot = d.boot := rfl
@[simp] theorem Dev.out_power (d : Dev) (o : Out) : (d.out o).power = d.power := rfl
@[simp] theorem Dev.out_ports (d : Dev) (o : Out) : (d.out o).ports = d.ports := rfl
@[simp] theorem Dev.out_ctrlPort (d : Dev) (o : Out) : (d.out o).ctrlPort = d.ctrlPort := rfl
@[simp] theorem Dev.out_parts (d : Dev) (o : Out) : (d.out o).parts = d.parts := rfl
@[simp] theorem Dev.out_sqs (d : Dev) (o : Out) : (d.out o).sqs = d.sqs := rfl
@[simp] theorem Dev.out_rqs (d : Dev) (o : Out) : (d.out o).rqs = d.rqs := rfl
@[simp] theorem Dev.out_cmds (d : Dev) (o : Out) : (d.out o).cmds = d.cmds := rfl
@[simp] theorem Dev.out_nextSeq (d : Dev) (o : Out) : (d.out o).nextSeq = d.nextSeq := rfl
@[simp] theorem Dev.out_nextReply (d : Dev) (o : Out) : (d.out o).nextReply = d.nextReply := rfl
@[simp] theorem Dev.out_arb (d : Dev) (o : Out) : (d.out o).arb = d.arb := rfl
@[simp] theorem Dev.out_fetchStop (d : Dev) (o : Out) : (d.out o).fetchStop = d.fetchStop := rfl
@[simp] theorem Dev.out_orphans (d : Dev) (o : Out) : (d.out o).orphans = d.orphans := rfl
@[simp] theorem Dev.out_adopts (d : Dev) (o : Out) : (d.out o).adopts = d.adopts := rfl
@[simp] theorem Dev.out_ops (d : Dev) (o : Out) : (d.out o).ops = d.ops := rfl
@[simp] theorem Dev.out_msix (d : Dev) (o : Out) : (d.out o).msix = d.msix := rfl
@[simp] theorem Dev.out_cfg (d : Dev) (o : Out) : (d.out o).cfg = d.cfg := rfl
@[simp] theorem Dev.out_commits (d : Dev) (o : Out) : (d.out o).commits = d.commits := rfl
@[simp] theorem Dev.out_lastCommit (d : Dev) (o : Out) : (d.out o).lastCommit = d.lastCommit := rfl
@[simp] theorem Dev.out_drains (d : Dev) (o : Out) : (d.out o).drains = d.drains := rfl
@[simp] theorem Dev.out_timers (d : Dev) (o : Out) : (d.out o).timers = d.timers := rfl
@[simp] theorem Dev.out_nowHi (d : Dev) (o : Out) : (d.out o).nowHi = d.nowHi := rfl
@[simp] theorem Dev.out_speed (d : Dev) (o : Out) : (d.out o).speed = d.speed := rfl
@[simp] theorem Dev.out_speedLow (d : Dev) (o : Out) : (d.out o).speedLow = d.speedLow := rfl
@[simp] theorem Dev.out_regs (d : Dev) (o : Out) : (d.out o).regs = d.regs := rfl
@[simp] theorem Dev.out_eqs (d : Dev) (o : Out) : (d.out o).eqs = d.eqs := rfl
@[simp] theorem Dev.out_paths (d : Dev) (o : Out) : (d.out o).paths = d.paths := rfl
@[simp] theorem Dev.out_scrubPass (d : Dev) (o : Out) : (d.out o).scrubPass = d.scrubPass := rfl
@[simp] theorem Dev.out_ueAt (d : Dev) (o : Out) : (d.out o).ueAt = d.ueAt := rfl
@[simp] theorem Dev.out_offline (d : Dev) (o : Out) : (d.out o).offline = d.offline := rfl
@[simp] theorem Dev.out_faultAt (d : Dev) (o : Out) : (d.out o).faultAt = d.faultAt := rfl
@[simp] theorem Dev.out_halted (d : Dev) (o : Out) : (d.out o).halted = d.halted := rfl
@[simp] theorem Dev.out_crc (d : Dev) (o : Out) : (d.out o).crc = d.crc := rfl
@[simp] theorem Dev.out_mem (d : Dev) (o : Out) : (d.out o).mem = d.mem := rfl
@[simp] theorem Dev.out_nand (d : Dev) (o : Out) : (d.out o).nand = d.nand := rfl
@[simp] theorem Dev.out_ses (d : Dev) (o : Out) : (d.out o).ses = d.ses := rfl
@[simp] theorem Dev.out_glm (d : Dev) (o : Out) : (d.out o).glm = d.glm := rfl
@[simp] theorem Dev.out_grid (d : Dev) (o : Out) : (d.out o).grid = d.grid := rfl
@[simp] theorem Dev.out_sch (d : Dev) (o : Out) : (d.out o).sch = d.sch := rfl
@[simp] theorem Dev.out_txt (d : Dev) (o : Out) : (d.out o).txt = d.txt := rfl
@[simp] theorem Dev.out_net (d : Dev) (o : Out) : (d.out o).net = d.net := rfl
@[simp] theorem Dev.out_shp (d : Dev) (o : Out) : (d.out o).shp = d.shp := rfl
@[simp] theorem Dev.out_pan (d : Dev) (o : Out) : (d.out o).pan = d.pan := rfl
@[simp] theorem Dev.out_ckp (d : Dev) (o : Out) : (d.out o).ckp = d.ckp := rfl
@[simp] theorem Dev.out_sec (d : Dev) (o : Out) : (d.out o).sec = d.sec := rfl
@[simp] theorem Dev.out_buses (d : Dev) (o : Out) : (d.out o).buses = d.buses := rfl
@[simp] theorem Dev.out_tap (d : Dev) (o : Out) : (d.out o).tap = d.tap := rfl
@[simp] theorem Dev.out_edge (d : Dev) (o : Out) : (d.out o).edge = d.edge := rfl
@[simp] theorem Dev.out_free (d : Dev) (o : Out) : (d.out o).free = d.free := rfl

/-! ### Dev.withCnt -/

@[simp] theorem Dev.withCnt_boot (d : Dev) (c : Tbl Nat) : (d.withCnt c).boot = d.boot := rfl
@[simp] theorem Dev.withCnt_power (d : Dev) (c : Tbl Nat) : (d.withCnt c).power = d.power := rfl
@[simp] theorem Dev.withCnt_ports (d : Dev) (c : Tbl Nat) : (d.withCnt c).ports = d.ports := rfl
@[simp] theorem Dev.withCnt_ctrlPort (d : Dev) (c : Tbl Nat) : (d.withCnt c).ctrlPort = d.ctrlPort := rfl
@[simp] theorem Dev.withCnt_parts (d : Dev) (c : Tbl Nat) : (d.withCnt c).parts = d.parts := rfl
@[simp] theorem Dev.withCnt_sqs (d : Dev) (c : Tbl Nat) : (d.withCnt c).sqs = d.sqs := rfl
@[simp] theorem Dev.withCnt_rqs (d : Dev) (c : Tbl Nat) : (d.withCnt c).rqs = d.rqs := rfl
@[simp] theorem Dev.withCnt_cmds (d : Dev) (c : Tbl Nat) : (d.withCnt c).cmds = d.cmds := rfl
@[simp] theorem Dev.withCnt_nextSeq (d : Dev) (c : Tbl Nat) : (d.withCnt c).nextSeq = d.nextSeq := rfl
@[simp] theorem Dev.withCnt_nextReply (d : Dev) (c : Tbl Nat) : (d.withCnt c).nextReply = d.nextReply := rfl
@[simp] theorem Dev.withCnt_arb (d : Dev) (c : Tbl Nat) : (d.withCnt c).arb = d.arb := rfl
@[simp] theorem Dev.withCnt_fetchStop (d : Dev) (c : Tbl Nat) : (d.withCnt c).fetchStop = d.fetchStop := rfl
@[simp] theorem Dev.withCnt_orphans (d : Dev) (c : Tbl Nat) : (d.withCnt c).orphans = d.orphans := rfl
@[simp] theorem Dev.withCnt_adopts (d : Dev) (c : Tbl Nat) : (d.withCnt c).adopts = d.adopts := rfl
@[simp] theorem Dev.withCnt_ops (d : Dev) (c : Tbl Nat) : (d.withCnt c).ops = d.ops := rfl
@[simp] theorem Dev.withCnt_msix (d : Dev) (c : Tbl Nat) : (d.withCnt c).msix = d.msix := rfl
@[simp] theorem Dev.withCnt_cfg (d : Dev) (c : Tbl Nat) : (d.withCnt c).cfg = d.cfg := rfl
@[simp] theorem Dev.withCnt_commits (d : Dev) (c : Tbl Nat) : (d.withCnt c).commits = d.commits := rfl
@[simp] theorem Dev.withCnt_lastCommit (d : Dev) (c : Tbl Nat) : (d.withCnt c).lastCommit = d.lastCommit := rfl
@[simp] theorem Dev.withCnt_drains (d : Dev) (c : Tbl Nat) : (d.withCnt c).drains = d.drains := rfl
@[simp] theorem Dev.withCnt_timers (d : Dev) (c : Tbl Nat) : (d.withCnt c).timers = d.timers := rfl
@[simp] theorem Dev.withCnt_nowHi (d : Dev) (c : Tbl Nat) : (d.withCnt c).nowHi = d.nowHi := rfl
@[simp] theorem Dev.withCnt_speed (d : Dev) (c : Tbl Nat) : (d.withCnt c).speed = d.speed := rfl
@[simp] theorem Dev.withCnt_speedLow (d : Dev) (c : Tbl Nat) : (d.withCnt c).speedLow = d.speedLow := rfl
@[simp] theorem Dev.withCnt_eqs (d : Dev) (c : Tbl Nat) : (d.withCnt c).eqs = d.eqs := rfl
@[simp] theorem Dev.withCnt_paths (d : Dev) (c : Tbl Nat) : (d.withCnt c).paths = d.paths := rfl
@[simp] theorem Dev.withCnt_scrubPass (d : Dev) (c : Tbl Nat) : (d.withCnt c).scrubPass = d.scrubPass := rfl
@[simp] theorem Dev.withCnt_ueAt (d : Dev) (c : Tbl Nat) : (d.withCnt c).ueAt = d.ueAt := rfl
@[simp] theorem Dev.withCnt_offline (d : Dev) (c : Tbl Nat) : (d.withCnt c).offline = d.offline := rfl
@[simp] theorem Dev.withCnt_faultAt (d : Dev) (c : Tbl Nat) : (d.withCnt c).faultAt = d.faultAt := rfl
@[simp] theorem Dev.withCnt_halted (d : Dev) (c : Tbl Nat) : (d.withCnt c).halted = d.halted := rfl
@[simp] theorem Dev.withCnt_crc (d : Dev) (c : Tbl Nat) : (d.withCnt c).crc = d.crc := rfl
@[simp] theorem Dev.withCnt_mem (d : Dev) (c : Tbl Nat) : (d.withCnt c).mem = d.mem := rfl
@[simp] theorem Dev.withCnt_nand (d : Dev) (c : Tbl Nat) : (d.withCnt c).nand = d.nand := rfl
@[simp] theorem Dev.withCnt_ses (d : Dev) (c : Tbl Nat) : (d.withCnt c).ses = d.ses := rfl
@[simp] theorem Dev.withCnt_glm (d : Dev) (c : Tbl Nat) : (d.withCnt c).glm = d.glm := rfl
@[simp] theorem Dev.withCnt_grid (d : Dev) (c : Tbl Nat) : (d.withCnt c).grid = d.grid := rfl
@[simp] theorem Dev.withCnt_sch (d : Dev) (c : Tbl Nat) : (d.withCnt c).sch = d.sch := rfl
@[simp] theorem Dev.withCnt_txt (d : Dev) (c : Tbl Nat) : (d.withCnt c).txt = d.txt := rfl
@[simp] theorem Dev.withCnt_net (d : Dev) (c : Tbl Nat) : (d.withCnt c).net = d.net := rfl
@[simp] theorem Dev.withCnt_shp (d : Dev) (c : Tbl Nat) : (d.withCnt c).shp = d.shp := rfl
@[simp] theorem Dev.withCnt_pan (d : Dev) (c : Tbl Nat) : (d.withCnt c).pan = d.pan := rfl
@[simp] theorem Dev.withCnt_ckp (d : Dev) (c : Tbl Nat) : (d.withCnt c).ckp = d.ckp := rfl
@[simp] theorem Dev.withCnt_sec (d : Dev) (c : Tbl Nat) : (d.withCnt c).sec = d.sec := rfl
@[simp] theorem Dev.withCnt_buses (d : Dev) (c : Tbl Nat) : (d.withCnt c).buses = d.buses := rfl
@[simp] theorem Dev.withCnt_tap (d : Dev) (c : Tbl Nat) : (d.withCnt c).tap = d.tap := rfl
@[simp] theorem Dev.withCnt_edge (d : Dev) (c : Tbl Nat) : (d.withCnt c).edge = d.edge := rfl
@[simp] theorem Dev.withCnt_outs (d : Dev) (c : Tbl Nat) : (d.withCnt c).outs = d.outs := rfl
@[simp] theorem Dev.withCnt_free (d : Dev) (c : Tbl Nat) : (d.withCnt c).free = d.free := rfl

/-! ### Dev.bump -/

@[simp] theorem Dev.bump_boot (d : Dev) (k n : Nat) : (d.bump k n).boot = d.boot := rfl
@[simp] theorem Dev.bump_power (d : Dev) (k n : Nat) : (d.bump k n).power = d.power := rfl
@[simp] theorem Dev.bump_ports (d : Dev) (k n : Nat) : (d.bump k n).ports = d.ports := rfl
@[simp] theorem Dev.bump_ctrlPort (d : Dev) (k n : Nat) : (d.bump k n).ctrlPort = d.ctrlPort := rfl
@[simp] theorem Dev.bump_parts (d : Dev) (k n : Nat) : (d.bump k n).parts = d.parts := rfl
@[simp] theorem Dev.bump_sqs (d : Dev) (k n : Nat) : (d.bump k n).sqs = d.sqs := rfl
@[simp] theorem Dev.bump_rqs (d : Dev) (k n : Nat) : (d.bump k n).rqs = d.rqs := rfl
@[simp] theorem Dev.bump_cmds (d : Dev) (k n : Nat) : (d.bump k n).cmds = d.cmds := rfl
@[simp] theorem Dev.bump_nextSeq (d : Dev) (k n : Nat) : (d.bump k n).nextSeq = d.nextSeq := rfl
@[simp] theorem Dev.bump_nextReply (d : Dev) (k n : Nat) : (d.bump k n).nextReply = d.nextReply := rfl
@[simp] theorem Dev.bump_arb (d : Dev) (k n : Nat) : (d.bump k n).arb = d.arb := rfl
@[simp] theorem Dev.bump_fetchStop (d : Dev) (k n : Nat) : (d.bump k n).fetchStop = d.fetchStop := rfl
@[simp] theorem Dev.bump_orphans (d : Dev) (k n : Nat) : (d.bump k n).orphans = d.orphans := rfl
@[simp] theorem Dev.bump_adopts (d : Dev) (k n : Nat) : (d.bump k n).adopts = d.adopts := rfl
@[simp] theorem Dev.bump_ops (d : Dev) (k n : Nat) : (d.bump k n).ops = d.ops := rfl
@[simp] theorem Dev.bump_msix (d : Dev) (k n : Nat) : (d.bump k n).msix = d.msix := rfl
@[simp] theorem Dev.bump_cfg (d : Dev) (k n : Nat) : (d.bump k n).cfg = d.cfg := rfl
@[simp] theorem Dev.bump_commits (d : Dev) (k n : Nat) : (d.bump k n).commits = d.commits := rfl
@[simp] theorem Dev.bump_lastCommit (d : Dev) (k n : Nat) : (d.bump k n).lastCommit = d.lastCommit := rfl
@[simp] theorem Dev.bump_drains (d : Dev) (k n : Nat) : (d.bump k n).drains = d.drains := rfl
@[simp] theorem Dev.bump_timers (d : Dev) (k n : Nat) : (d.bump k n).timers = d.timers := rfl
@[simp] theorem Dev.bump_nowHi (d : Dev) (k n : Nat) : (d.bump k n).nowHi = d.nowHi := rfl
@[simp] theorem Dev.bump_speed (d : Dev) (k n : Nat) : (d.bump k n).speed = d.speed := rfl
@[simp] theorem Dev.bump_speedLow (d : Dev) (k n : Nat) : (d.bump k n).speedLow = d.speedLow := rfl
@[simp] theorem Dev.bump_eqs (d : Dev) (k n : Nat) : (d.bump k n).eqs = d.eqs := rfl
@[simp] theorem Dev.bump_paths (d : Dev) (k n : Nat) : (d.bump k n).paths = d.paths := rfl
@[simp] theorem Dev.bump_scrubPass (d : Dev) (k n : Nat) : (d.bump k n).scrubPass = d.scrubPass := rfl
@[simp] theorem Dev.bump_ueAt (d : Dev) (k n : Nat) : (d.bump k n).ueAt = d.ueAt := rfl
@[simp] theorem Dev.bump_offline (d : Dev) (k n : Nat) : (d.bump k n).offline = d.offline := rfl
@[simp] theorem Dev.bump_faultAt (d : Dev) (k n : Nat) : (d.bump k n).faultAt = d.faultAt := rfl
@[simp] theorem Dev.bump_halted (d : Dev) (k n : Nat) : (d.bump k n).halted = d.halted := rfl
@[simp] theorem Dev.bump_crc (d : Dev) (k n : Nat) : (d.bump k n).crc = d.crc := rfl
@[simp] theorem Dev.bump_mem (d : Dev) (k n : Nat) : (d.bump k n).mem = d.mem := rfl
@[simp] theorem Dev.bump_nand (d : Dev) (k n : Nat) : (d.bump k n).nand = d.nand := rfl
@[simp] theorem Dev.bump_ses (d : Dev) (k n : Nat) : (d.bump k n).ses = d.ses := rfl
@[simp] theorem Dev.bump_glm (d : Dev) (k n : Nat) : (d.bump k n).glm = d.glm := rfl
@[simp] theorem Dev.bump_grid (d : Dev) (k n : Nat) : (d.bump k n).grid = d.grid := rfl
@[simp] theorem Dev.bump_sch (d : Dev) (k n : Nat) : (d.bump k n).sch = d.sch := rfl
@[simp] theorem Dev.bump_txt (d : Dev) (k n : Nat) : (d.bump k n).txt = d.txt := rfl
@[simp] theorem Dev.bump_net (d : Dev) (k n : Nat) : (d.bump k n).net = d.net := rfl
@[simp] theorem Dev.bump_shp (d : Dev) (k n : Nat) : (d.bump k n).shp = d.shp := rfl
@[simp] theorem Dev.bump_pan (d : Dev) (k n : Nat) : (d.bump k n).pan = d.pan := rfl
@[simp] theorem Dev.bump_ckp (d : Dev) (k n : Nat) : (d.bump k n).ckp = d.ckp := rfl
@[simp] theorem Dev.bump_sec (d : Dev) (k n : Nat) : (d.bump k n).sec = d.sec := rfl
@[simp] theorem Dev.bump_buses (d : Dev) (k n : Nat) : (d.bump k n).buses = d.buses := rfl
@[simp] theorem Dev.bump_tap (d : Dev) (k n : Nat) : (d.bump k n).tap = d.tap := rfl
@[simp] theorem Dev.bump_edge (d : Dev) (k n : Nat) : (d.bump k n).edge = d.edge := rfl
@[simp] theorem Dev.bump_outs (d : Dev) (k n : Nat) : (d.bump k n).outs = d.outs := rfl
@[simp] theorem Dev.bump_free (d : Dev) (k n : Nat) : (d.bump k n).free = d.free := rfl

/-! ### Dev.bumpPart -/

@[simp] theorem Dev.bumpPart_boot (d : Dev) (p o n : Nat) : (d.bumpPart p o n).boot = d.boot := rfl
@[simp] theorem Dev.bumpPart_power (d : Dev) (p o n : Nat) : (d.bumpPart p o n).power = d.power := rfl
@[simp] theorem Dev.bumpPart_ports (d : Dev) (p o n : Nat) : (d.bumpPart p o n).ports = d.ports := rfl
@[simp] theorem Dev.bumpPart_ctrlPort (d : Dev) (p o n : Nat) : (d.bumpPart p o n).ctrlPort = d.ctrlPort := rfl
@[simp] theorem Dev.bumpPart_parts (d : Dev) (p o n : Nat) : (d.bumpPart p o n).parts = d.parts := rfl
@[simp] theorem Dev.bumpPart_sqs (d : Dev) (p o n : Nat) : (d.bumpPart p o n).sqs = d.sqs := rfl
@[simp] theorem Dev.bumpPart_rqs (d : Dev) (p o n : Nat) : (d.bumpPart p o n).rqs = d.rqs := rfl
@[simp] theorem Dev.bumpPart_cmds (d : Dev) (p o n : Nat) : (d.bumpPart p o n).cmds = d.cmds := rfl
@[simp] theorem Dev.bumpPart_nextSeq (d : Dev) (p o n : Nat) : (d.bumpPart p o n).nextSeq = d.nextSeq := rfl
@[simp] theorem Dev.bumpPart_nextReply (d : Dev) (p o n : Nat) : (d.bumpPart p o n).nextReply = d.nextReply := rfl
@[simp] theorem Dev.bumpPart_arb (d : Dev) (p o n : Nat) : (d.bumpPart p o n).arb = d.arb := rfl
@[simp] theorem Dev.bumpPart_fetchStop (d : Dev) (p o n : Nat) : (d.bumpPart p o n).fetchStop = d.fetchStop := rfl
@[simp] theorem Dev.bumpPart_orphans (d : Dev) (p o n : Nat) : (d.bumpPart p o n).orphans = d.orphans := rfl
@[simp] theorem Dev.bumpPart_adopts (d : Dev) (p o n : Nat) : (d.bumpPart p o n).adopts = d.adopts := rfl
@[simp] theorem Dev.bumpPart_ops (d : Dev) (p o n : Nat) : (d.bumpPart p o n).ops = d.ops := rfl
@[simp] theorem Dev.bumpPart_msix (d : Dev) (p o n : Nat) : (d.bumpPart p o n).msix = d.msix := rfl
@[simp] theorem Dev.bumpPart_cfg (d : Dev) (p o n : Nat) : (d.bumpPart p o n).cfg = d.cfg := rfl
@[simp] theorem Dev.bumpPart_commits (d : Dev) (p o n : Nat) : (d.bumpPart p o n).commits = d.commits := rfl
@[simp] theorem Dev.bumpPart_lastCommit (d : Dev) (p o n : Nat) : (d.bumpPart p o n).lastCommit = d.lastCommit := rfl
@[simp] theorem Dev.bumpPart_drains (d : Dev) (p o n : Nat) : (d.bumpPart p o n).drains = d.drains := rfl
@[simp] theorem Dev.bumpPart_timers (d : Dev) (p o n : Nat) : (d.bumpPart p o n).timers = d.timers := rfl
@[simp] theorem Dev.bumpPart_nowHi (d : Dev) (p o n : Nat) : (d.bumpPart p o n).nowHi = d.nowHi := rfl
@[simp] theorem Dev.bumpPart_speed (d : Dev) (p o n : Nat) : (d.bumpPart p o n).speed = d.speed := rfl
@[simp] theorem Dev.bumpPart_speedLow (d : Dev) (p o n : Nat) : (d.bumpPart p o n).speedLow = d.speedLow := rfl
@[simp] theorem Dev.bumpPart_eqs (d : Dev) (p o n : Nat) : (d.bumpPart p o n).eqs = d.eqs := rfl
@[simp] theorem Dev.bumpPart_paths (d : Dev) (p o n : Nat) : (d.bumpPart p o n).paths = d.paths := rfl
@[simp] theorem Dev.bumpPart_scrubPass (d : Dev) (p o n : Nat) : (d.bumpPart p o n).scrubPass = d.scrubPass := rfl
@[simp] theorem Dev.bumpPart_ueAt (d : Dev) (p o n : Nat) : (d.bumpPart p o n).ueAt = d.ueAt := rfl
@[simp] theorem Dev.bumpPart_offline (d : Dev) (p o n : Nat) : (d.bumpPart p o n).offline = d.offline := rfl
@[simp] theorem Dev.bumpPart_faultAt (d : Dev) (p o n : Nat) : (d.bumpPart p o n).faultAt = d.faultAt := rfl
@[simp] theorem Dev.bumpPart_halted (d : Dev) (p o n : Nat) : (d.bumpPart p o n).halted = d.halted := rfl
@[simp] theorem Dev.bumpPart_crc (d : Dev) (p o n : Nat) : (d.bumpPart p o n).crc = d.crc := rfl
@[simp] theorem Dev.bumpPart_mem (d : Dev) (p o n : Nat) : (d.bumpPart p o n).mem = d.mem := rfl
@[simp] theorem Dev.bumpPart_nand (d : Dev) (p o n : Nat) : (d.bumpPart p o n).nand = d.nand := rfl
@[simp] theorem Dev.bumpPart_ses (d : Dev) (p o n : Nat) : (d.bumpPart p o n).ses = d.ses := rfl
@[simp] theorem Dev.bumpPart_glm (d : Dev) (p o n : Nat) : (d.bumpPart p o n).glm = d.glm := rfl
@[simp] theorem Dev.bumpPart_grid (d : Dev) (p o n : Nat) : (d.bumpPart p o n).grid = d.grid := rfl
@[simp] theorem Dev.bumpPart_sch (d : Dev) (p o n : Nat) : (d.bumpPart p o n).sch = d.sch := rfl
@[simp] theorem Dev.bumpPart_txt (d : Dev) (p o n : Nat) : (d.bumpPart p o n).txt = d.txt := rfl
@[simp] theorem Dev.bumpPart_net (d : Dev) (p o n : Nat) : (d.bumpPart p o n).net = d.net := rfl
@[simp] theorem Dev.bumpPart_shp (d : Dev) (p o n : Nat) : (d.bumpPart p o n).shp = d.shp := rfl
@[simp] theorem Dev.bumpPart_pan (d : Dev) (p o n : Nat) : (d.bumpPart p o n).pan = d.pan := rfl
@[simp] theorem Dev.bumpPart_ckp (d : Dev) (p o n : Nat) : (d.bumpPart p o n).ckp = d.ckp := rfl
@[simp] theorem Dev.bumpPart_sec (d : Dev) (p o n : Nat) : (d.bumpPart p o n).sec = d.sec := rfl
@[simp] theorem Dev.bumpPart_buses (d : Dev) (p o n : Nat) : (d.bumpPart p o n).buses = d.buses := rfl
@[simp] theorem Dev.bumpPart_tap (d : Dev) (p o n : Nat) : (d.bumpPart p o n).tap = d.tap := rfl
@[simp] theorem Dev.bumpPart_edge (d : Dev) (p o n : Nat) : (d.bumpPart p o n).edge = d.edge := rfl
@[simp] theorem Dev.bumpPart_outs (d : Dev) (p o n : Nat) : (d.bumpPart p o n).outs = d.outs := rfl
@[simp] theorem Dev.bumpPart_free (d : Dev) (p o n : Nat) : (d.bumpPart p o n).free = d.free := rfl

/-! ### Dev.bumpDev -/

@[simp] theorem Dev.bumpDev_boot (d : Dev) (o n : Nat) : (d.bumpDev o n).boot = d.boot := rfl
@[simp] theorem Dev.bumpDev_power (d : Dev) (o n : Nat) : (d.bumpDev o n).power = d.power := rfl
@[simp] theorem Dev.bumpDev_ports (d : Dev) (o n : Nat) : (d.bumpDev o n).ports = d.ports := rfl
@[simp] theorem Dev.bumpDev_ctrlPort (d : Dev) (o n : Nat) : (d.bumpDev o n).ctrlPort = d.ctrlPort := rfl
@[simp] theorem Dev.bumpDev_parts (d : Dev) (o n : Nat) : (d.bumpDev o n).parts = d.parts := rfl
@[simp] theorem Dev.bumpDev_sqs (d : Dev) (o n : Nat) : (d.bumpDev o n).sqs = d.sqs := rfl
@[simp] theorem Dev.bumpDev_rqs (d : Dev) (o n : Nat) : (d.bumpDev o n).rqs = d.rqs := rfl
@[simp] theorem Dev.bumpDev_cmds (d : Dev) (o n : Nat) : (d.bumpDev o n).cmds = d.cmds := rfl
@[simp] theorem Dev.bumpDev_nextSeq (d : Dev) (o n : Nat) : (d.bumpDev o n).nextSeq = d.nextSeq := rfl
@[simp] theorem Dev.bumpDev_nextReply (d : Dev) (o n : Nat) : (d.bumpDev o n).nextReply = d.nextReply := rfl
@[simp] theorem Dev.bumpDev_arb (d : Dev) (o n : Nat) : (d.bumpDev o n).arb = d.arb := rfl
@[simp] theorem Dev.bumpDev_fetchStop (d : Dev) (o n : Nat) : (d.bumpDev o n).fetchStop = d.fetchStop := rfl
@[simp] theorem Dev.bumpDev_orphans (d : Dev) (o n : Nat) : (d.bumpDev o n).orphans = d.orphans := rfl
@[simp] theorem Dev.bumpDev_adopts (d : Dev) (o n : Nat) : (d.bumpDev o n).adopts = d.adopts := rfl
@[simp] theorem Dev.bumpDev_ops (d : Dev) (o n : Nat) : (d.bumpDev o n).ops = d.ops := rfl
@[simp] theorem Dev.bumpDev_msix (d : Dev) (o n : Nat) : (d.bumpDev o n).msix = d.msix := rfl
@[simp] theorem Dev.bumpDev_cfg (d : Dev) (o n : Nat) : (d.bumpDev o n).cfg = d.cfg := rfl
@[simp] theorem Dev.bumpDev_commits (d : Dev) (o n : Nat) : (d.bumpDev o n).commits = d.commits := rfl
@[simp] theorem Dev.bumpDev_lastCommit (d : Dev) (o n : Nat) : (d.bumpDev o n).lastCommit = d.lastCommit := rfl
@[simp] theorem Dev.bumpDev_drains (d : Dev) (o n : Nat) : (d.bumpDev o n).drains = d.drains := rfl
@[simp] theorem Dev.bumpDev_timers (d : Dev) (o n : Nat) : (d.bumpDev o n).timers = d.timers := rfl
@[simp] theorem Dev.bumpDev_nowHi (d : Dev) (o n : Nat) : (d.bumpDev o n).nowHi = d.nowHi := rfl
@[simp] theorem Dev.bumpDev_speed (d : Dev) (o n : Nat) : (d.bumpDev o n).speed = d.speed := rfl
@[simp] theorem Dev.bumpDev_speedLow (d : Dev) (o n : Nat) : (d.bumpDev o n).speedLow = d.speedLow := rfl
@[simp] theorem Dev.bumpDev_eqs (d : Dev) (o n : Nat) : (d.bumpDev o n).eqs = d.eqs := rfl
@[simp] theorem Dev.bumpDev_paths (d : Dev) (o n : Nat) : (d.bumpDev o n).paths = d.paths := rfl
@[simp] theorem Dev.bumpDev_scrubPass (d : Dev) (o n : Nat) : (d.bumpDev o n).scrubPass = d.scrubPass := rfl
@[simp] theorem Dev.bumpDev_ueAt (d : Dev) (o n : Nat) : (d.bumpDev o n).ueAt = d.ueAt := rfl
@[simp] theorem Dev.bumpDev_offline (d : Dev) (o n : Nat) : (d.bumpDev o n).offline = d.offline := rfl
@[simp] theorem Dev.bumpDev_faultAt (d : Dev) (o n : Nat) : (d.bumpDev o n).faultAt = d.faultAt := rfl
@[simp] theorem Dev.bumpDev_halted (d : Dev) (o n : Nat) : (d.bumpDev o n).halted = d.halted := rfl
@[simp] theorem Dev.bumpDev_crc (d : Dev) (o n : Nat) : (d.bumpDev o n).crc = d.crc := rfl
@[simp] theorem Dev.bumpDev_mem (d : Dev) (o n : Nat) : (d.bumpDev o n).mem = d.mem := rfl
@[simp] theorem Dev.bumpDev_nand (d : Dev) (o n : Nat) : (d.bumpDev o n).nand = d.nand := rfl
@[simp] theorem Dev.bumpDev_ses (d : Dev) (o n : Nat) : (d.bumpDev o n).ses = d.ses := rfl
@[simp] theorem Dev.bumpDev_glm (d : Dev) (o n : Nat) : (d.bumpDev o n).glm = d.glm := rfl
@[simp] theorem Dev.bumpDev_grid (d : Dev) (o n : Nat) : (d.bumpDev o n).grid = d.grid := rfl
@[simp] theorem Dev.bumpDev_sch (d : Dev) (o n : Nat) : (d.bumpDev o n).sch = d.sch := rfl
@[simp] theorem Dev.bumpDev_txt (d : Dev) (o n : Nat) : (d.bumpDev o n).txt = d.txt := rfl
@[simp] theorem Dev.bumpDev_net (d : Dev) (o n : Nat) : (d.bumpDev o n).net = d.net := rfl
@[simp] theorem Dev.bumpDev_shp (d : Dev) (o n : Nat) : (d.bumpDev o n).shp = d.shp := rfl
@[simp] theorem Dev.bumpDev_pan (d : Dev) (o n : Nat) : (d.bumpDev o n).pan = d.pan := rfl
@[simp] theorem Dev.bumpDev_ckp (d : Dev) (o n : Nat) : (d.bumpDev o n).ckp = d.ckp := rfl
@[simp] theorem Dev.bumpDev_sec (d : Dev) (o n : Nat) : (d.bumpDev o n).sec = d.sec := rfl
@[simp] theorem Dev.bumpDev_buses (d : Dev) (o n : Nat) : (d.bumpDev o n).buses = d.buses := rfl
@[simp] theorem Dev.bumpDev_tap (d : Dev) (o n : Nat) : (d.bumpDev o n).tap = d.tap := rfl
@[simp] theorem Dev.bumpDev_edge (d : Dev) (o n : Nat) : (d.bumpDev o n).edge = d.edge := rfl
@[simp] theorem Dev.bumpDev_outs (d : Dev) (o n : Nat) : (d.bumpDev o n).outs = d.outs := rfl
@[simp] theorem Dev.bumpDev_free (d : Dev) (o n : Nat) : (d.bumpDev o n).free = d.free := rfl

/-! ### Dev.tapAdd -/

@[simp] theorem Dev.tapAdd_boot (d : Dev) (p k n : Nat) : (d.tapAdd p k n).boot = d.boot := rfl
@[simp] theorem Dev.tapAdd_power (d : Dev) (p k n : Nat) : (d.tapAdd p k n).power = d.power := rfl
@[simp] theorem Dev.tapAdd_ports (d : Dev) (p k n : Nat) : (d.tapAdd p k n).ports = d.ports := rfl
@[simp] theorem Dev.tapAdd_ctrlPort (d : Dev) (p k n : Nat) : (d.tapAdd p k n).ctrlPort = d.ctrlPort := rfl
@[simp] theorem Dev.tapAdd_parts (d : Dev) (p k n : Nat) : (d.tapAdd p k n).parts = d.parts := rfl
@[simp] theorem Dev.tapAdd_sqs (d : Dev) (p k n : Nat) : (d.tapAdd p k n).sqs = d.sqs := rfl
@[simp] theorem Dev.tapAdd_rqs (d : Dev) (p k n : Nat) : (d.tapAdd p k n).rqs = d.rqs := rfl
@[simp] theorem Dev.tapAdd_cmds (d : Dev) (p k n : Nat) : (d.tapAdd p k n).cmds = d.cmds := rfl
@[simp] theorem Dev.tapAdd_nextSeq (d : Dev) (p k n : Nat) : (d.tapAdd p k n).nextSeq = d.nextSeq := rfl
@[simp] theorem Dev.tapAdd_nextReply (d : Dev) (p k n : Nat) : (d.tapAdd p k n).nextReply = d.nextReply := rfl
@[simp] theorem Dev.tapAdd_arb (d : Dev) (p k n : Nat) : (d.tapAdd p k n).arb = d.arb := rfl
@[simp] theorem Dev.tapAdd_fetchStop (d : Dev) (p k n : Nat) : (d.tapAdd p k n).fetchStop = d.fetchStop := rfl
@[simp] theorem Dev.tapAdd_orphans (d : Dev) (p k n : Nat) : (d.tapAdd p k n).orphans = d.orphans := rfl
@[simp] theorem Dev.tapAdd_adopts (d : Dev) (p k n : Nat) : (d.tapAdd p k n).adopts = d.adopts := rfl
@[simp] theorem Dev.tapAdd_ops (d : Dev) (p k n : Nat) : (d.tapAdd p k n).ops = d.ops := rfl
@[simp] theorem Dev.tapAdd_msix (d : Dev) (p k n : Nat) : (d.tapAdd p k n).msix = d.msix := rfl
@[simp] theorem Dev.tapAdd_cfg (d : Dev) (p k n : Nat) : (d.tapAdd p k n).cfg = d.cfg := rfl
@[simp] theorem Dev.tapAdd_commits (d : Dev) (p k n : Nat) : (d.tapAdd p k n).commits = d.commits := rfl
@[simp] theorem Dev.tapAdd_lastCommit (d : Dev) (p k n : Nat) : (d.tapAdd p k n).lastCommit = d.lastCommit := rfl
@[simp] theorem Dev.tapAdd_drains (d : Dev) (p k n : Nat) : (d.tapAdd p k n).drains = d.drains := rfl
@[simp] theorem Dev.tapAdd_timers (d : Dev) (p k n : Nat) : (d.tapAdd p k n).timers = d.timers := rfl
@[simp] theorem Dev.tapAdd_nowHi (d : Dev) (p k n : Nat) : (d.tapAdd p k n).nowHi = d.nowHi := rfl
@[simp] theorem Dev.tapAdd_speed (d : Dev) (p k n : Nat) : (d.tapAdd p k n).speed = d.speed := rfl
@[simp] theorem Dev.tapAdd_speedLow (d : Dev) (p k n : Nat) : (d.tapAdd p k n).speedLow = d.speedLow := rfl
@[simp] theorem Dev.tapAdd_regs (d : Dev) (p k n : Nat) : (d.tapAdd p k n).regs = d.regs := rfl
@[simp] theorem Dev.tapAdd_eqs (d : Dev) (p k n : Nat) : (d.tapAdd p k n).eqs = d.eqs := rfl
@[simp] theorem Dev.tapAdd_paths (d : Dev) (p k n : Nat) : (d.tapAdd p k n).paths = d.paths := rfl
@[simp] theorem Dev.tapAdd_scrubPass (d : Dev) (p k n : Nat) : (d.tapAdd p k n).scrubPass = d.scrubPass := rfl
@[simp] theorem Dev.tapAdd_ueAt (d : Dev) (p k n : Nat) : (d.tapAdd p k n).ueAt = d.ueAt := rfl
@[simp] theorem Dev.tapAdd_offline (d : Dev) (p k n : Nat) : (d.tapAdd p k n).offline = d.offline := rfl
@[simp] theorem Dev.tapAdd_faultAt (d : Dev) (p k n : Nat) : (d.tapAdd p k n).faultAt = d.faultAt := rfl
@[simp] theorem Dev.tapAdd_halted (d : Dev) (p k n : Nat) : (d.tapAdd p k n).halted = d.halted := rfl
@[simp] theorem Dev.tapAdd_crc (d : Dev) (p k n : Nat) : (d.tapAdd p k n).crc = d.crc := rfl
@[simp] theorem Dev.tapAdd_mem (d : Dev) (p k n : Nat) : (d.tapAdd p k n).mem = d.mem := rfl
@[simp] theorem Dev.tapAdd_nand (d : Dev) (p k n : Nat) : (d.tapAdd p k n).nand = d.nand := rfl
@[simp] theorem Dev.tapAdd_ses (d : Dev) (p k n : Nat) : (d.tapAdd p k n).ses = d.ses := rfl
@[simp] theorem Dev.tapAdd_glm (d : Dev) (p k n : Nat) : (d.tapAdd p k n).glm = d.glm := rfl
@[simp] theorem Dev.tapAdd_grid (d : Dev) (p k n : Nat) : (d.tapAdd p k n).grid = d.grid := rfl
@[simp] theorem Dev.tapAdd_sch (d : Dev) (p k n : Nat) : (d.tapAdd p k n).sch = d.sch := rfl
@[simp] theorem Dev.tapAdd_txt (d : Dev) (p k n : Nat) : (d.tapAdd p k n).txt = d.txt := rfl
@[simp] theorem Dev.tapAdd_net (d : Dev) (p k n : Nat) : (d.tapAdd p k n).net = d.net := rfl
@[simp] theorem Dev.tapAdd_shp (d : Dev) (p k n : Nat) : (d.tapAdd p k n).shp = d.shp := rfl
@[simp] theorem Dev.tapAdd_pan (d : Dev) (p k n : Nat) : (d.tapAdd p k n).pan = d.pan := rfl
@[simp] theorem Dev.tapAdd_ckp (d : Dev) (p k n : Nat) : (d.tapAdd p k n).ckp = d.ckp := rfl
@[simp] theorem Dev.tapAdd_sec (d : Dev) (p k n : Nat) : (d.tapAdd p k n).sec = d.sec := rfl
@[simp] theorem Dev.tapAdd_buses (d : Dev) (p k n : Nat) : (d.tapAdd p k n).buses = d.buses := rfl
@[simp] theorem Dev.tapAdd_edge (d : Dev) (p k n : Nat) : (d.tapAdd p k n).edge = d.edge := rfl
@[simp] theorem Dev.tapAdd_outs (d : Dev) (p k n : Nat) : (d.tapAdd p k n).outs = d.outs := rfl
@[simp] theorem Dev.tapAdd_free (d : Dev) (p k n : Nat) : (d.tapAdd p k n).free = d.free := rfl

/-! ### Dev.setRq -/

@[simp] theorem Dev.setRq_boot (d : Dev) (f n : Nat) (r : Rq) : (d.setRq f n r).boot = d.boot := rfl
@[simp] theorem Dev.setRq_power (d : Dev) (f n : Nat) (r : Rq) : (d.setRq f n r).power = d.power := rfl
@[simp] theorem Dev.setRq_ports (d : Dev) (f n : Nat) (r : Rq) : (d.setRq f n r).ports = d.ports := rfl
@[simp] theorem Dev.setRq_ctrlPort (d : Dev) (f n : Nat) (r : Rq) : (d.setRq f n r).ctrlPort = d.ctrlPort := rfl
@[simp] theorem Dev.setRq_parts (d : Dev) (f n : Nat) (r : Rq) : (d.setRq f n r).parts = d.parts := rfl
@[simp] theorem Dev.setRq_sqs (d : Dev) (f n : Nat) (r : Rq) : (d.setRq f n r).sqs = d.sqs := rfl
@[simp] theorem Dev.setRq_cmds (d : Dev) (f n : Nat) (r : Rq) : (d.setRq f n r).cmds = d.cmds := rfl
@[simp] theorem Dev.setRq_nextSeq (d : Dev) (f n : Nat) (r : Rq) : (d.setRq f n r).nextSeq = d.nextSeq := rfl
@[simp] theorem Dev.setRq_nextReply (d : Dev) (f n : Nat) (r : Rq) : (d.setRq f n r).nextReply = d.nextReply := rfl
@[simp] theorem Dev.setRq_arb (d : Dev) (f n : Nat) (r : Rq) : (d.setRq f n r).arb = d.arb := rfl
@[simp] theorem Dev.setRq_fetchStop (d : Dev) (f n : Nat) (r : Rq) : (d.setRq f n r).fetchStop = d.fetchStop := rfl
@[simp] theorem Dev.setRq_orphans (d : Dev) (f n : Nat) (r : Rq) : (d.setRq f n r).orphans = d.orphans := rfl
@[simp] theorem Dev.setRq_adopts (d : Dev) (f n : Nat) (r : Rq) : (d.setRq f n r).adopts = d.adopts := rfl
@[simp] theorem Dev.setRq_ops (d : Dev) (f n : Nat) (r : Rq) : (d.setRq f n r).ops = d.ops := rfl
@[simp] theorem Dev.setRq_msix (d : Dev) (f n : Nat) (r : Rq) : (d.setRq f n r).msix = d.msix := rfl
@[simp] theorem Dev.setRq_cfg (d : Dev) (f n : Nat) (r : Rq) : (d.setRq f n r).cfg = d.cfg := rfl
@[simp] theorem Dev.setRq_commits (d : Dev) (f n : Nat) (r : Rq) : (d.setRq f n r).commits = d.commits := rfl
@[simp] theorem Dev.setRq_lastCommit (d : Dev) (f n : Nat) (r : Rq) : (d.setRq f n r).lastCommit = d.lastCommit := rfl
@[simp] theorem Dev.setRq_drains (d : Dev) (f n : Nat) (r : Rq) : (d.setRq f n r).drains = d.drains := rfl
@[simp] theorem Dev.setRq_timers (d : Dev) (f n : Nat) (r : Rq) : (d.setRq f n r).timers = d.timers := rfl
@[simp] theorem Dev.setRq_nowHi (d : Dev) (f n : Nat) (r : Rq) : (d.setRq f n r).nowHi = d.nowHi := rfl
@[simp] theorem Dev.setRq_speed (d : Dev) (f n : Nat) (r : Rq) : (d.setRq f n r).speed = d.speed := rfl
@[simp] theorem Dev.setRq_speedLow (d : Dev) (f n : Nat) (r : Rq) : (d.setRq f n r).speedLow = d.speedLow := rfl
@[simp] theorem Dev.setRq_regs (d : Dev) (f n : Nat) (r : Rq) : (d.setRq f n r).regs = d.regs := rfl
@[simp] theorem Dev.setRq_eqs (d : Dev) (f n : Nat) (r : Rq) : (d.setRq f n r).eqs = d.eqs := rfl
@[simp] theorem Dev.setRq_paths (d : Dev) (f n : Nat) (r : Rq) : (d.setRq f n r).paths = d.paths := rfl
@[simp] theorem Dev.setRq_scrubPass (d : Dev) (f n : Nat) (r : Rq) : (d.setRq f n r).scrubPass = d.scrubPass := rfl
@[simp] theorem Dev.setRq_ueAt (d : Dev) (f n : Nat) (r : Rq) : (d.setRq f n r).ueAt = d.ueAt := rfl
@[simp] theorem Dev.setRq_offline (d : Dev) (f n : Nat) (r : Rq) : (d.setRq f n r).offline = d.offline := rfl
@[simp] theorem Dev.setRq_faultAt (d : Dev) (f n : Nat) (r : Rq) : (d.setRq f n r).faultAt = d.faultAt := rfl
@[simp] theorem Dev.setRq_halted (d : Dev) (f n : Nat) (r : Rq) : (d.setRq f n r).halted = d.halted := rfl
@[simp] theorem Dev.setRq_crc (d : Dev) (f n : Nat) (r : Rq) : (d.setRq f n r).crc = d.crc := rfl
@[simp] theorem Dev.setRq_mem (d : Dev) (f n : Nat) (r : Rq) : (d.setRq f n r).mem = d.mem := rfl
@[simp] theorem Dev.setRq_nand (d : Dev) (f n : Nat) (r : Rq) : (d.setRq f n r).nand = d.nand := rfl
@[simp] theorem Dev.setRq_ses (d : Dev) (f n : Nat) (r : Rq) : (d.setRq f n r).ses = d.ses := rfl
@[simp] theorem Dev.setRq_glm (d : Dev) (f n : Nat) (r : Rq) : (d.setRq f n r).glm = d.glm := rfl
@[simp] theorem Dev.setRq_grid (d : Dev) (f n : Nat) (r : Rq) : (d.setRq f n r).grid = d.grid := rfl
@[simp] theorem Dev.setRq_sch (d : Dev) (f n : Nat) (r : Rq) : (d.setRq f n r).sch = d.sch := rfl
@[simp] theorem Dev.setRq_txt (d : Dev) (f n : Nat) (r : Rq) : (d.setRq f n r).txt = d.txt := rfl
@[simp] theorem Dev.setRq_net (d : Dev) (f n : Nat) (r : Rq) : (d.setRq f n r).net = d.net := rfl
@[simp] theorem Dev.setRq_shp (d : Dev) (f n : Nat) (r : Rq) : (d.setRq f n r).shp = d.shp := rfl
@[simp] theorem Dev.setRq_pan (d : Dev) (f n : Nat) (r : Rq) : (d.setRq f n r).pan = d.pan := rfl
@[simp] theorem Dev.setRq_ckp (d : Dev) (f n : Nat) (r : Rq) : (d.setRq f n r).ckp = d.ckp := rfl
@[simp] theorem Dev.setRq_sec (d : Dev) (f n : Nat) (r : Rq) : (d.setRq f n r).sec = d.sec := rfl
@[simp] theorem Dev.setRq_buses (d : Dev) (f n : Nat) (r : Rq) : (d.setRq f n r).buses = d.buses := rfl
@[simp] theorem Dev.setRq_tap (d : Dev) (f n : Nat) (r : Rq) : (d.setRq f n r).tap = d.tap := rfl
@[simp] theorem Dev.setRq_edge (d : Dev) (f n : Nat) (r : Rq) : (d.setRq f n r).edge = d.edge := rfl
@[simp] theorem Dev.setRq_outs (d : Dev) (f n : Nat) (r : Rq) : (d.setRq f n r).outs = d.outs := rfl
@[simp] theorem Dev.setRq_free (d : Dev) (f n : Nat) (r : Rq) : (d.setRq f n r).free = d.free := rfl

/-! ### Dev.setSq -/

@[simp] theorem Dev.setSq_boot (d : Dev) (f n : Nat) (q : Sq) : (d.setSq f n q).boot = d.boot := rfl
@[simp] theorem Dev.setSq_power (d : Dev) (f n : Nat) (q : Sq) : (d.setSq f n q).power = d.power := rfl
@[simp] theorem Dev.setSq_ports (d : Dev) (f n : Nat) (q : Sq) : (d.setSq f n q).ports = d.ports := rfl
@[simp] theorem Dev.setSq_ctrlPort (d : Dev) (f n : Nat) (q : Sq) : (d.setSq f n q).ctrlPort = d.ctrlPort := rfl
@[simp] theorem Dev.setSq_parts (d : Dev) (f n : Nat) (q : Sq) : (d.setSq f n q).parts = d.parts := rfl
@[simp] theorem Dev.setSq_rqs (d : Dev) (f n : Nat) (q : Sq) : (d.setSq f n q).rqs = d.rqs := rfl
@[simp] theorem Dev.setSq_cmds (d : Dev) (f n : Nat) (q : Sq) : (d.setSq f n q).cmds = d.cmds := rfl
@[simp] theorem Dev.setSq_nextSeq (d : Dev) (f n : Nat) (q : Sq) : (d.setSq f n q).nextSeq = d.nextSeq := rfl
@[simp] theorem Dev.setSq_nextReply (d : Dev) (f n : Nat) (q : Sq) : (d.setSq f n q).nextReply = d.nextReply := rfl
@[simp] theorem Dev.setSq_arb (d : Dev) (f n : Nat) (q : Sq) : (d.setSq f n q).arb = d.arb := rfl
@[simp] theorem Dev.setSq_fetchStop (d : Dev) (f n : Nat) (q : Sq) : (d.setSq f n q).fetchStop = d.fetchStop := rfl
@[simp] theorem Dev.setSq_orphans (d : Dev) (f n : Nat) (q : Sq) : (d.setSq f n q).orphans = d.orphans := rfl
@[simp] theorem Dev.setSq_adopts (d : Dev) (f n : Nat) (q : Sq) : (d.setSq f n q).adopts = d.adopts := rfl
@[simp] theorem Dev.setSq_ops (d : Dev) (f n : Nat) (q : Sq) : (d.setSq f n q).ops = d.ops := rfl
@[simp] theorem Dev.setSq_msix (d : Dev) (f n : Nat) (q : Sq) : (d.setSq f n q).msix = d.msix := rfl
@[simp] theorem Dev.setSq_cfg (d : Dev) (f n : Nat) (q : Sq) : (d.setSq f n q).cfg = d.cfg := rfl
@[simp] theorem Dev.setSq_commits (d : Dev) (f n : Nat) (q : Sq) : (d.setSq f n q).commits = d.commits := rfl
@[simp] theorem Dev.setSq_lastCommit (d : Dev) (f n : Nat) (q : Sq) : (d.setSq f n q).lastCommit = d.lastCommit := rfl
@[simp] theorem Dev.setSq_drains (d : Dev) (f n : Nat) (q : Sq) : (d.setSq f n q).drains = d.drains := rfl
@[simp] theorem Dev.setSq_timers (d : Dev) (f n : Nat) (q : Sq) : (d.setSq f n q).timers = d.timers := rfl
@[simp] theorem Dev.setSq_nowHi (d : Dev) (f n : Nat) (q : Sq) : (d.setSq f n q).nowHi = d.nowHi := rfl
@[simp] theorem Dev.setSq_speed (d : Dev) (f n : Nat) (q : Sq) : (d.setSq f n q).speed = d.speed := rfl
@[simp] theorem Dev.setSq_speedLow (d : Dev) (f n : Nat) (q : Sq) : (d.setSq f n q).speedLow = d.speedLow := rfl
@[simp] theorem Dev.setSq_regs (d : Dev) (f n : Nat) (q : Sq) : (d.setSq f n q).regs = d.regs := rfl
@[simp] theorem Dev.setSq_eqs (d : Dev) (f n : Nat) (q : Sq) : (d.setSq f n q).eqs = d.eqs := rfl
@[simp] theorem Dev.setSq_paths (d : Dev) (f n : Nat) (q : Sq) : (d.setSq f n q).paths = d.paths := rfl
@[simp] theorem Dev.setSq_scrubPass (d : Dev) (f n : Nat) (q : Sq) : (d.setSq f n q).scrubPass = d.scrubPass := rfl
@[simp] theorem Dev.setSq_ueAt (d : Dev) (f n : Nat) (q : Sq) : (d.setSq f n q).ueAt = d.ueAt := rfl
@[simp] theorem Dev.setSq_offline (d : Dev) (f n : Nat) (q : Sq) : (d.setSq f n q).offline = d.offline := rfl
@[simp] theorem Dev.setSq_faultAt (d : Dev) (f n : Nat) (q : Sq) : (d.setSq f n q).faultAt = d.faultAt := rfl
@[simp] theorem Dev.setSq_halted (d : Dev) (f n : Nat) (q : Sq) : (d.setSq f n q).halted = d.halted := rfl
@[simp] theorem Dev.setSq_crc (d : Dev) (f n : Nat) (q : Sq) : (d.setSq f n q).crc = d.crc := rfl
@[simp] theorem Dev.setSq_mem (d : Dev) (f n : Nat) (q : Sq) : (d.setSq f n q).mem = d.mem := rfl
@[simp] theorem Dev.setSq_nand (d : Dev) (f n : Nat) (q : Sq) : (d.setSq f n q).nand = d.nand := rfl
@[simp] theorem Dev.setSq_ses (d : Dev) (f n : Nat) (q : Sq) : (d.setSq f n q).ses = d.ses := rfl
@[simp] theorem Dev.setSq_glm (d : Dev) (f n : Nat) (q : Sq) : (d.setSq f n q).glm = d.glm := rfl
@[simp] theorem Dev.setSq_grid (d : Dev) (f n : Nat) (q : Sq) : (d.setSq f n q).grid = d.grid := rfl
@[simp] theorem Dev.setSq_sch (d : Dev) (f n : Nat) (q : Sq) : (d.setSq f n q).sch = d.sch := rfl
@[simp] theorem Dev.setSq_txt (d : Dev) (f n : Nat) (q : Sq) : (d.setSq f n q).txt = d.txt := rfl
@[simp] theorem Dev.setSq_net (d : Dev) (f n : Nat) (q : Sq) : (d.setSq f n q).net = d.net := rfl
@[simp] theorem Dev.setSq_shp (d : Dev) (f n : Nat) (q : Sq) : (d.setSq f n q).shp = d.shp := rfl
@[simp] theorem Dev.setSq_pan (d : Dev) (f n : Nat) (q : Sq) : (d.setSq f n q).pan = d.pan := rfl
@[simp] theorem Dev.setSq_ckp (d : Dev) (f n : Nat) (q : Sq) : (d.setSq f n q).ckp = d.ckp := rfl
@[simp] theorem Dev.setSq_sec (d : Dev) (f n : Nat) (q : Sq) : (d.setSq f n q).sec = d.sec := rfl
@[simp] theorem Dev.setSq_buses (d : Dev) (f n : Nat) (q : Sq) : (d.setSq f n q).buses = d.buses := rfl
@[simp] theorem Dev.setSq_tap (d : Dev) (f n : Nat) (q : Sq) : (d.setSq f n q).tap = d.tap := rfl
@[simp] theorem Dev.setSq_edge (d : Dev) (f n : Nat) (q : Sq) : (d.setSq f n q).edge = d.edge := rfl
@[simp] theorem Dev.setSq_outs (d : Dev) (f n : Nat) (q : Sq) : (d.setSq f n q).outs = d.outs := rfl
@[simp] theorem Dev.setSq_free (d : Dev) (f n : Nat) (q : Sq) : (d.setSq f n q).free = d.free := rfl

/-! ### Dev.setOp -/

@[simp] theorem Dev.setOp_boot (d : Dev) (i : Nat) (k : OpKind) : (d.setOp i k).boot = d.boot := rfl
@[simp] theorem Dev.setOp_power (d : Dev) (i : Nat) (k : OpKind) : (d.setOp i k).power = d.power := rfl
@[simp] theorem Dev.setOp_ports (d : Dev) (i : Nat) (k : OpKind) : (d.setOp i k).ports = d.ports := rfl
@[simp] theorem Dev.setOp_ctrlPort (d : Dev) (i : Nat) (k : OpKind) : (d.setOp i k).ctrlPort = d.ctrlPort := rfl
@[simp] theorem Dev.setOp_parts (d : Dev) (i : Nat) (k : OpKind) : (d.setOp i k).parts = d.parts := rfl
@[simp] theorem Dev.setOp_sqs (d : Dev) (i : Nat) (k : OpKind) : (d.setOp i k).sqs = d.sqs := rfl
@[simp] theorem Dev.setOp_rqs (d : Dev) (i : Nat) (k : OpKind) : (d.setOp i k).rqs = d.rqs := rfl
@[simp] theorem Dev.setOp_cmds (d : Dev) (i : Nat) (k : OpKind) : (d.setOp i k).cmds = d.cmds := rfl
@[simp] theorem Dev.setOp_nextSeq (d : Dev) (i : Nat) (k : OpKind) : (d.setOp i k).nextSeq = d.nextSeq := rfl
@[simp] theorem Dev.setOp_nextReply (d : Dev) (i : Nat) (k : OpKind) : (d.setOp i k).nextReply = d.nextReply := rfl
@[simp] theorem Dev.setOp_arb (d : Dev) (i : Nat) (k : OpKind) : (d.setOp i k).arb = d.arb := rfl
@[simp] theorem Dev.setOp_fetchStop (d : Dev) (i : Nat) (k : OpKind) : (d.setOp i k).fetchStop = d.fetchStop := rfl
@[simp] theorem Dev.setOp_orphans (d : Dev) (i : Nat) (k : OpKind) : (d.setOp i k).orphans = d.orphans := rfl
@[simp] theorem Dev.setOp_adopts (d : Dev) (i : Nat) (k : OpKind) : (d.setOp i k).adopts = d.adopts := rfl
@[simp] theorem Dev.setOp_msix (d : Dev) (i : Nat) (k : OpKind) : (d.setOp i k).msix = d.msix := rfl
@[simp] theorem Dev.setOp_cfg (d : Dev) (i : Nat) (k : OpKind) : (d.setOp i k).cfg = d.cfg := rfl
@[simp] theorem Dev.setOp_commits (d : Dev) (i : Nat) (k : OpKind) : (d.setOp i k).commits = d.commits := rfl
@[simp] theorem Dev.setOp_lastCommit (d : Dev) (i : Nat) (k : OpKind) : (d.setOp i k).lastCommit = d.lastCommit := rfl
@[simp] theorem Dev.setOp_drains (d : Dev) (i : Nat) (k : OpKind) : (d.setOp i k).drains = d.drains := rfl
@[simp] theorem Dev.setOp_timers (d : Dev) (i : Nat) (k : OpKind) : (d.setOp i k).timers = d.timers := rfl
@[simp] theorem Dev.setOp_nowHi (d : Dev) (i : Nat) (k : OpKind) : (d.setOp i k).nowHi = d.nowHi := rfl
@[simp] theorem Dev.setOp_speed (d : Dev) (i : Nat) (k : OpKind) : (d.setOp i k).speed = d.speed := rfl
@[simp] theorem Dev.setOp_speedLow (d : Dev) (i : Nat) (k : OpKind) : (d.setOp i k).speedLow = d.speedLow := rfl
@[simp] theorem Dev.setOp_regs (d : Dev) (i : Nat) (k : OpKind) : (d.setOp i k).regs = d.regs := rfl
@[simp] theorem Dev.setOp_eqs (d : Dev) (i : Nat) (k : OpKind) : (d.setOp i k).eqs = d.eqs := rfl
@[simp] theorem Dev.setOp_paths (d : Dev) (i : Nat) (k : OpKind) : (d.setOp i k).paths = d.paths := rfl
@[simp] theorem Dev.setOp_scrubPass (d : Dev) (i : Nat) (k : OpKind) : (d.setOp i k).scrubPass = d.scrubPass := rfl
@[simp] theorem Dev.setOp_ueAt (d : Dev) (i : Nat) (k : OpKind) : (d.setOp i k).ueAt = d.ueAt := rfl
@[simp] theorem Dev.setOp_offline (d : Dev) (i : Nat) (k : OpKind) : (d.setOp i k).offline = d.offline := rfl
@[simp] theorem Dev.setOp_faultAt (d : Dev) (i : Nat) (k : OpKind) : (d.setOp i k).faultAt = d.faultAt := rfl
@[simp] theorem Dev.setOp_halted (d : Dev) (i : Nat) (k : OpKind) : (d.setOp i k).halted = d.halted := rfl
@[simp] theorem Dev.setOp_crc (d : Dev) (i : Nat) (k : OpKind) : (d.setOp i k).crc = d.crc := rfl
@[simp] theorem Dev.setOp_mem (d : Dev) (i : Nat) (k : OpKind) : (d.setOp i k).mem = d.mem := rfl
@[simp] theorem Dev.setOp_nand (d : Dev) (i : Nat) (k : OpKind) : (d.setOp i k).nand = d.nand := rfl
@[simp] theorem Dev.setOp_ses (d : Dev) (i : Nat) (k : OpKind) : (d.setOp i k).ses = d.ses := rfl
@[simp] theorem Dev.setOp_glm (d : Dev) (i : Nat) (k : OpKind) : (d.setOp i k).glm = d.glm := rfl
@[simp] theorem Dev.setOp_grid (d : Dev) (i : Nat) (k : OpKind) : (d.setOp i k).grid = d.grid := rfl
@[simp] theorem Dev.setOp_sch (d : Dev) (i : Nat) (k : OpKind) : (d.setOp i k).sch = d.sch := rfl
@[simp] theorem Dev.setOp_txt (d : Dev) (i : Nat) (k : OpKind) : (d.setOp i k).txt = d.txt := rfl
@[simp] theorem Dev.setOp_net (d : Dev) (i : Nat) (k : OpKind) : (d.setOp i k).net = d.net := rfl
@[simp] theorem Dev.setOp_shp (d : Dev) (i : Nat) (k : OpKind) : (d.setOp i k).shp = d.shp := rfl
@[simp] theorem Dev.setOp_pan (d : Dev) (i : Nat) (k : OpKind) : (d.setOp i k).pan = d.pan := rfl
@[simp] theorem Dev.setOp_ckp (d : Dev) (i : Nat) (k : OpKind) : (d.setOp i k).ckp = d.ckp := rfl
@[simp] theorem Dev.setOp_sec (d : Dev) (i : Nat) (k : OpKind) : (d.setOp i k).sec = d.sec := rfl
@[simp] theorem Dev.setOp_buses (d : Dev) (i : Nat) (k : OpKind) : (d.setOp i k).buses = d.buses := rfl
@[simp] theorem Dev.setOp_tap (d : Dev) (i : Nat) (k : OpKind) : (d.setOp i k).tap = d.tap := rfl
@[simp] theorem Dev.setOp_edge (d : Dev) (i : Nat) (k : OpKind) : (d.setOp i k).edge = d.edge := rfl
@[simp] theorem Dev.setOp_outs (d : Dev) (i : Nat) (k : OpKind) : (d.setOp i k).outs = d.outs := rfl
@[simp] theorem Dev.setOp_free (d : Dev) (i : Nat) (k : OpKind) : (d.setOp i k).free = d.free := rfl

/-! ### Dev.setPort -/

@[simp] theorem Dev.setPort_boot (d : Dev) (n : Nat) (p : PciePort) : (d.setPort n p).boot = d.boot := rfl
@[simp] theorem Dev.setPort_power (d : Dev) (n : Nat) (p : PciePort) : (d.setPort n p).power = d.power := rfl
@[simp] theorem Dev.setPort_ctrlPort (d : Dev) (n : Nat) (p : PciePort) : (d.setPort n p).ctrlPort = d.ctrlPort := rfl
@[simp] theorem Dev.setPort_parts (d : Dev) (n : Nat) (p : PciePort) : (d.setPort n p).parts = d.parts := rfl
@[simp] theorem Dev.setPort_sqs (d : Dev) (n : Nat) (p : PciePort) : (d.setPort n p).sqs = d.sqs := rfl
@[simp] theorem Dev.setPort_rqs (d : Dev) (n : Nat) (p : PciePort) : (d.setPort n p).rqs = d.rqs := rfl
@[simp] theorem Dev.setPort_cmds (d : Dev) (n : Nat) (p : PciePort) : (d.setPort n p).cmds = d.cmds := rfl
@[simp] theorem Dev.setPort_nextSeq (d : Dev) (n : Nat) (p : PciePort) : (d.setPort n p).nextSeq = d.nextSeq := rfl
@[simp] theorem Dev.setPort_nextReply (d : Dev) (n : Nat) (p : PciePort) : (d.setPort n p).nextReply = d.nextReply := rfl
@[simp] theorem Dev.setPort_arb (d : Dev) (n : Nat) (p : PciePort) : (d.setPort n p).arb = d.arb := rfl
@[simp] theorem Dev.setPort_fetchStop (d : Dev) (n : Nat) (p : PciePort) : (d.setPort n p).fetchStop = d.fetchStop := rfl
@[simp] theorem Dev.setPort_orphans (d : Dev) (n : Nat) (p : PciePort) : (d.setPort n p).orphans = d.orphans := rfl
@[simp] theorem Dev.setPort_adopts (d : Dev) (n : Nat) (p : PciePort) : (d.setPort n p).adopts = d.adopts := rfl
@[simp] theorem Dev.setPort_ops (d : Dev) (n : Nat) (p : PciePort) : (d.setPort n p).ops = d.ops := rfl
@[simp] theorem Dev.setPort_msix (d : Dev) (n : Nat) (p : PciePort) : (d.setPort n p).msix = d.msix := rfl
@[simp] theorem Dev.setPort_cfg (d : Dev) (n : Nat) (p : PciePort) : (d.setPort n p).cfg = d.cfg := rfl
@[simp] theorem Dev.setPort_commits (d : Dev) (n : Nat) (p : PciePort) : (d.setPort n p).commits = d.commits := rfl
@[simp] theorem Dev.setPort_lastCommit (d : Dev) (n : Nat) (p : PciePort) : (d.setPort n p).lastCommit = d.lastCommit := rfl
@[simp] theorem Dev.setPort_drains (d : Dev) (n : Nat) (p : PciePort) : (d.setPort n p).drains = d.drains := rfl
@[simp] theorem Dev.setPort_timers (d : Dev) (n : Nat) (p : PciePort) : (d.setPort n p).timers = d.timers := rfl
@[simp] theorem Dev.setPort_nowHi (d : Dev) (n : Nat) (p : PciePort) : (d.setPort n p).nowHi = d.nowHi := rfl
@[simp] theorem Dev.setPort_speed (d : Dev) (n : Nat) (p : PciePort) : (d.setPort n p).speed = d.speed := rfl
@[simp] theorem Dev.setPort_speedLow (d : Dev) (n : Nat) (p : PciePort) : (d.setPort n p).speedLow = d.speedLow := rfl
@[simp] theorem Dev.setPort_regs (d : Dev) (n : Nat) (p : PciePort) : (d.setPort n p).regs = d.regs := rfl
@[simp] theorem Dev.setPort_eqs (d : Dev) (n : Nat) (p : PciePort) : (d.setPort n p).eqs = d.eqs := rfl
@[simp] theorem Dev.setPort_paths (d : Dev) (n : Nat) (p : PciePort) : (d.setPort n p).paths = d.paths := rfl
@[simp] theorem Dev.setPort_scrubPass (d : Dev) (n : Nat) (p : PciePort) : (d.setPort n p).scrubPass = d.scrubPass := rfl
@[simp] theorem Dev.setPort_ueAt (d : Dev) (n : Nat) (p : PciePort) : (d.setPort n p).ueAt = d.ueAt := rfl
@[simp] theorem Dev.setPort_offline (d : Dev) (n : Nat) (p : PciePort) : (d.setPort n p).offline = d.offline := rfl
@[simp] theorem Dev.setPort_faultAt (d : Dev) (n : Nat) (p : PciePort) : (d.setPort n p).faultAt = d.faultAt := rfl
@[simp] theorem Dev.setPort_halted (d : Dev) (n : Nat) (p : PciePort) : (d.setPort n p).halted = d.halted := rfl
@[simp] theorem Dev.setPort_crc (d : Dev) (n : Nat) (p : PciePort) : (d.setPort n p).crc = d.crc := rfl
@[simp] theorem Dev.setPort_mem (d : Dev) (n : Nat) (p : PciePort) : (d.setPort n p).mem = d.mem := rfl
@[simp] theorem Dev.setPort_nand (d : Dev) (n : Nat) (p : PciePort) : (d.setPort n p).nand = d.nand := rfl
@[simp] theorem Dev.setPort_ses (d : Dev) (n : Nat) (p : PciePort) : (d.setPort n p).ses = d.ses := rfl
@[simp] theorem Dev.setPort_glm (d : Dev) (n : Nat) (p : PciePort) : (d.setPort n p).glm = d.glm := rfl
@[simp] theorem Dev.setPort_grid (d : Dev) (n : Nat) (p : PciePort) : (d.setPort n p).grid = d.grid := rfl
@[simp] theorem Dev.setPort_sch (d : Dev) (n : Nat) (p : PciePort) : (d.setPort n p).sch = d.sch := rfl
@[simp] theorem Dev.setPort_txt (d : Dev) (n : Nat) (p : PciePort) : (d.setPort n p).txt = d.txt := rfl
@[simp] theorem Dev.setPort_net (d : Dev) (n : Nat) (p : PciePort) : (d.setPort n p).net = d.net := rfl
@[simp] theorem Dev.setPort_shp (d : Dev) (n : Nat) (p : PciePort) : (d.setPort n p).shp = d.shp := rfl
@[simp] theorem Dev.setPort_pan (d : Dev) (n : Nat) (p : PciePort) : (d.setPort n p).pan = d.pan := rfl
@[simp] theorem Dev.setPort_ckp (d : Dev) (n : Nat) (p : PciePort) : (d.setPort n p).ckp = d.ckp := rfl
@[simp] theorem Dev.setPort_sec (d : Dev) (n : Nat) (p : PciePort) : (d.setPort n p).sec = d.sec := rfl
@[simp] theorem Dev.setPort_buses (d : Dev) (n : Nat) (p : PciePort) : (d.setPort n p).buses = d.buses := rfl
@[simp] theorem Dev.setPort_tap (d : Dev) (n : Nat) (p : PciePort) : (d.setPort n p).tap = d.tap := rfl
@[simp] theorem Dev.setPort_edge (d : Dev) (n : Nat) (p : PciePort) : (d.setPort n p).edge = d.edge := rfl
@[simp] theorem Dev.setPort_outs (d : Dev) (n : Nat) (p : PciePort) : (d.setPort n p).outs = d.outs := rfl
@[simp] theorem Dev.setPort_free (d : Dev) (n : Nat) (p : PciePort) : (d.setPort n p).free = d.free := rfl

/-! ### Dev.hbmWrite -/

@[simp] theorem Dev.hbmWrite_boot (d : Dev) (a : Nat) (bs : List Byte) : (d.hbmWrite a bs).boot = d.boot := rfl
@[simp] theorem Dev.hbmWrite_power (d : Dev) (a : Nat) (bs : List Byte) : (d.hbmWrite a bs).power = d.power := rfl
@[simp] theorem Dev.hbmWrite_ports (d : Dev) (a : Nat) (bs : List Byte) : (d.hbmWrite a bs).ports = d.ports := rfl
@[simp] theorem Dev.hbmWrite_ctrlPort (d : Dev) (a : Nat) (bs : List Byte) : (d.hbmWrite a bs).ctrlPort = d.ctrlPort := rfl
@[simp] theorem Dev.hbmWrite_parts (d : Dev) (a : Nat) (bs : List Byte) : (d.hbmWrite a bs).parts = d.parts := rfl
@[simp] theorem Dev.hbmWrite_sqs (d : Dev) (a : Nat) (bs : List Byte) : (d.hbmWrite a bs).sqs = d.sqs := rfl
@[simp] theorem Dev.hbmWrite_rqs (d : Dev) (a : Nat) (bs : List Byte) : (d.hbmWrite a bs).rqs = d.rqs := rfl
@[simp] theorem Dev.hbmWrite_cmds (d : Dev) (a : Nat) (bs : List Byte) : (d.hbmWrite a bs).cmds = d.cmds := rfl
@[simp] theorem Dev.hbmWrite_nextSeq (d : Dev) (a : Nat) (bs : List Byte) : (d.hbmWrite a bs).nextSeq = d.nextSeq := rfl
@[simp] theorem Dev.hbmWrite_nextReply (d : Dev) (a : Nat) (bs : List Byte) : (d.hbmWrite a bs).nextReply = d.nextReply := rfl
@[simp] theorem Dev.hbmWrite_arb (d : Dev) (a : Nat) (bs : List Byte) : (d.hbmWrite a bs).arb = d.arb := rfl
@[simp] theorem Dev.hbmWrite_fetchStop (d : Dev) (a : Nat) (bs : List Byte) : (d.hbmWrite a bs).fetchStop = d.fetchStop := rfl
@[simp] theorem Dev.hbmWrite_orphans (d : Dev) (a : Nat) (bs : List Byte) : (d.hbmWrite a bs).orphans = d.orphans := rfl
@[simp] theorem Dev.hbmWrite_adopts (d : Dev) (a : Nat) (bs : List Byte) : (d.hbmWrite a bs).adopts = d.adopts := rfl
@[simp] theorem Dev.hbmWrite_ops (d : Dev) (a : Nat) (bs : List Byte) : (d.hbmWrite a bs).ops = d.ops := rfl
@[simp] theorem Dev.hbmWrite_msix (d : Dev) (a : Nat) (bs : List Byte) : (d.hbmWrite a bs).msix = d.msix := rfl
@[simp] theorem Dev.hbmWrite_cfg (d : Dev) (a : Nat) (bs : List Byte) : (d.hbmWrite a bs).cfg = d.cfg := rfl
@[simp] theorem Dev.hbmWrite_commits (d : Dev) (a : Nat) (bs : List Byte) : (d.hbmWrite a bs).commits = d.commits := rfl
@[simp] theorem Dev.hbmWrite_lastCommit (d : Dev) (a : Nat) (bs : List Byte) : (d.hbmWrite a bs).lastCommit = d.lastCommit := rfl
@[simp] theorem Dev.hbmWrite_drains (d : Dev) (a : Nat) (bs : List Byte) : (d.hbmWrite a bs).drains = d.drains := rfl
@[simp] theorem Dev.hbmWrite_timers (d : Dev) (a : Nat) (bs : List Byte) : (d.hbmWrite a bs).timers = d.timers := rfl
@[simp] theorem Dev.hbmWrite_nowHi (d : Dev) (a : Nat) (bs : List Byte) : (d.hbmWrite a bs).nowHi = d.nowHi := rfl
@[simp] theorem Dev.hbmWrite_speed (d : Dev) (a : Nat) (bs : List Byte) : (d.hbmWrite a bs).speed = d.speed := rfl
@[simp] theorem Dev.hbmWrite_speedLow (d : Dev) (a : Nat) (bs : List Byte) : (d.hbmWrite a bs).speedLow = d.speedLow := rfl
@[simp] theorem Dev.hbmWrite_regs (d : Dev) (a : Nat) (bs : List Byte) : (d.hbmWrite a bs).regs = d.regs := rfl
@[simp] theorem Dev.hbmWrite_eqs (d : Dev) (a : Nat) (bs : List Byte) : (d.hbmWrite a bs).eqs = d.eqs := rfl
@[simp] theorem Dev.hbmWrite_paths (d : Dev) (a : Nat) (bs : List Byte) : (d.hbmWrite a bs).paths = d.paths := rfl
@[simp] theorem Dev.hbmWrite_scrubPass (d : Dev) (a : Nat) (bs : List Byte) : (d.hbmWrite a bs).scrubPass = d.scrubPass := rfl
@[simp] theorem Dev.hbmWrite_ueAt (d : Dev) (a : Nat) (bs : List Byte) : (d.hbmWrite a bs).ueAt = d.ueAt := rfl
@[simp] theorem Dev.hbmWrite_offline (d : Dev) (a : Nat) (bs : List Byte) : (d.hbmWrite a bs).offline = d.offline := rfl
@[simp] theorem Dev.hbmWrite_faultAt (d : Dev) (a : Nat) (bs : List Byte) : (d.hbmWrite a bs).faultAt = d.faultAt := rfl
@[simp] theorem Dev.hbmWrite_halted (d : Dev) (a : Nat) (bs : List Byte) : (d.hbmWrite a bs).halted = d.halted := rfl
@[simp] theorem Dev.hbmWrite_crc (d : Dev) (a : Nat) (bs : List Byte) : (d.hbmWrite a bs).crc = d.crc := rfl
@[simp] theorem Dev.hbmWrite_nand (d : Dev) (a : Nat) (bs : List Byte) : (d.hbmWrite a bs).nand = d.nand := rfl
@[simp] theorem Dev.hbmWrite_ses (d : Dev) (a : Nat) (bs : List Byte) : (d.hbmWrite a bs).ses = d.ses := rfl
@[simp] theorem Dev.hbmWrite_glm (d : Dev) (a : Nat) (bs : List Byte) : (d.hbmWrite a bs).glm = d.glm := rfl
@[simp] theorem Dev.hbmWrite_grid (d : Dev) (a : Nat) (bs : List Byte) : (d.hbmWrite a bs).grid = d.grid := rfl
@[simp] theorem Dev.hbmWrite_sch (d : Dev) (a : Nat) (bs : List Byte) : (d.hbmWrite a bs).sch = d.sch := rfl
@[simp] theorem Dev.hbmWrite_txt (d : Dev) (a : Nat) (bs : List Byte) : (d.hbmWrite a bs).txt = d.txt := rfl
@[simp] theorem Dev.hbmWrite_net (d : Dev) (a : Nat) (bs : List Byte) : (d.hbmWrite a bs).net = d.net := rfl
@[simp] theorem Dev.hbmWrite_shp (d : Dev) (a : Nat) (bs : List Byte) : (d.hbmWrite a bs).shp = d.shp := rfl
@[simp] theorem Dev.hbmWrite_pan (d : Dev) (a : Nat) (bs : List Byte) : (d.hbmWrite a bs).pan = d.pan := rfl
@[simp] theorem Dev.hbmWrite_ckp (d : Dev) (a : Nat) (bs : List Byte) : (d.hbmWrite a bs).ckp = d.ckp := rfl
@[simp] theorem Dev.hbmWrite_sec (d : Dev) (a : Nat) (bs : List Byte) : (d.hbmWrite a bs).sec = d.sec := rfl
@[simp] theorem Dev.hbmWrite_buses (d : Dev) (a : Nat) (bs : List Byte) : (d.hbmWrite a bs).buses = d.buses := rfl
@[simp] theorem Dev.hbmWrite_tap (d : Dev) (a : Nat) (bs : List Byte) : (d.hbmWrite a bs).tap = d.tap := rfl
@[simp] theorem Dev.hbmWrite_edge (d : Dev) (a : Nat) (bs : List Byte) : (d.hbmWrite a bs).edge = d.edge := rfl
@[simp] theorem Dev.hbmWrite_outs (d : Dev) (a : Nat) (bs : List Byte) : (d.hbmWrite a bs).outs = d.outs := rfl
@[simp] theorem Dev.hbmWrite_free (d : Dev) (a : Nat) (bs : List Byte) : (d.hbmWrite a bs).free = d.free := rfl

/-! ### Dev.setSes -/

@[simp] theorem Dev.setSes_boot (d : Dev) (h : Word) (e : Ses) : (d.setSes h e).boot = d.boot := rfl
@[simp] theorem Dev.setSes_power (d : Dev) (h : Word) (e : Ses) : (d.setSes h e).power = d.power := rfl
@[simp] theorem Dev.setSes_ports (d : Dev) (h : Word) (e : Ses) : (d.setSes h e).ports = d.ports := rfl
@[simp] theorem Dev.setSes_ctrlPort (d : Dev) (h : Word) (e : Ses) : (d.setSes h e).ctrlPort = d.ctrlPort := rfl
@[simp] theorem Dev.setSes_parts (d : Dev) (h : Word) (e : Ses) : (d.setSes h e).parts = d.parts := rfl
@[simp] theorem Dev.setSes_sqs (d : Dev) (h : Word) (e : Ses) : (d.setSes h e).sqs = d.sqs := rfl
@[simp] theorem Dev.setSes_rqs (d : Dev) (h : Word) (e : Ses) : (d.setSes h e).rqs = d.rqs := rfl
@[simp] theorem Dev.setSes_cmds (d : Dev) (h : Word) (e : Ses) : (d.setSes h e).cmds = d.cmds := rfl
@[simp] theorem Dev.setSes_nextSeq (d : Dev) (h : Word) (e : Ses) : (d.setSes h e).nextSeq = d.nextSeq := rfl
@[simp] theorem Dev.setSes_nextReply (d : Dev) (h : Word) (e : Ses) : (d.setSes h e).nextReply = d.nextReply := rfl
@[simp] theorem Dev.setSes_arb (d : Dev) (h : Word) (e : Ses) : (d.setSes h e).arb = d.arb := rfl
@[simp] theorem Dev.setSes_fetchStop (d : Dev) (h : Word) (e : Ses) : (d.setSes h e).fetchStop = d.fetchStop := rfl
@[simp] theorem Dev.setSes_orphans (d : Dev) (h : Word) (e : Ses) : (d.setSes h e).orphans = d.orphans := rfl
@[simp] theorem Dev.setSes_adopts (d : Dev) (h : Word) (e : Ses) : (d.setSes h e).adopts = d.adopts := rfl
@[simp] theorem Dev.setSes_ops (d : Dev) (h : Word) (e : Ses) : (d.setSes h e).ops = d.ops := rfl
@[simp] theorem Dev.setSes_msix (d : Dev) (h : Word) (e : Ses) : (d.setSes h e).msix = d.msix := rfl
@[simp] theorem Dev.setSes_cfg (d : Dev) (h : Word) (e : Ses) : (d.setSes h e).cfg = d.cfg := rfl
@[simp] theorem Dev.setSes_commits (d : Dev) (h : Word) (e : Ses) : (d.setSes h e).commits = d.commits := rfl
@[simp] theorem Dev.setSes_lastCommit (d : Dev) (h : Word) (e : Ses) : (d.setSes h e).lastCommit = d.lastCommit := rfl
@[simp] theorem Dev.setSes_drains (d : Dev) (h : Word) (e : Ses) : (d.setSes h e).drains = d.drains := rfl
@[simp] theorem Dev.setSes_timers (d : Dev) (h : Word) (e : Ses) : (d.setSes h e).timers = d.timers := rfl
@[simp] theorem Dev.setSes_nowHi (d : Dev) (h : Word) (e : Ses) : (d.setSes h e).nowHi = d.nowHi := rfl
@[simp] theorem Dev.setSes_speed (d : Dev) (h : Word) (e : Ses) : (d.setSes h e).speed = d.speed := rfl
@[simp] theorem Dev.setSes_speedLow (d : Dev) (h : Word) (e : Ses) : (d.setSes h e).speedLow = d.speedLow := rfl
@[simp] theorem Dev.setSes_regs (d : Dev) (h : Word) (e : Ses) : (d.setSes h e).regs = d.regs := rfl
@[simp] theorem Dev.setSes_eqs (d : Dev) (h : Word) (e : Ses) : (d.setSes h e).eqs = d.eqs := rfl
@[simp] theorem Dev.setSes_paths (d : Dev) (h : Word) (e : Ses) : (d.setSes h e).paths = d.paths := rfl
@[simp] theorem Dev.setSes_scrubPass (d : Dev) (h : Word) (e : Ses) : (d.setSes h e).scrubPass = d.scrubPass := rfl
@[simp] theorem Dev.setSes_ueAt (d : Dev) (h : Word) (e : Ses) : (d.setSes h e).ueAt = d.ueAt := rfl
@[simp] theorem Dev.setSes_offline (d : Dev) (h : Word) (e : Ses) : (d.setSes h e).offline = d.offline := rfl
@[simp] theorem Dev.setSes_faultAt (d : Dev) (h : Word) (e : Ses) : (d.setSes h e).faultAt = d.faultAt := rfl
@[simp] theorem Dev.setSes_halted (d : Dev) (h : Word) (e : Ses) : (d.setSes h e).halted = d.halted := rfl
@[simp] theorem Dev.setSes_crc (d : Dev) (h : Word) (e : Ses) : (d.setSes h e).crc = d.crc := rfl
@[simp] theorem Dev.setSes_mem (d : Dev) (h : Word) (e : Ses) : (d.setSes h e).mem = d.mem := rfl
@[simp] theorem Dev.setSes_nand (d : Dev) (h : Word) (e : Ses) : (d.setSes h e).nand = d.nand := rfl
@[simp] theorem Dev.setSes_glm (d : Dev) (h : Word) (e : Ses) : (d.setSes h e).glm = d.glm := rfl
@[simp] theorem Dev.setSes_grid (d : Dev) (h : Word) (e : Ses) : (d.setSes h e).grid = d.grid := rfl
@[simp] theorem Dev.setSes_sch (d : Dev) (h : Word) (e : Ses) : (d.setSes h e).sch = d.sch := rfl
@[simp] theorem Dev.setSes_txt (d : Dev) (h : Word) (e : Ses) : (d.setSes h e).txt = d.txt := rfl
@[simp] theorem Dev.setSes_net (d : Dev) (h : Word) (e : Ses) : (d.setSes h e).net = d.net := rfl
@[simp] theorem Dev.setSes_shp (d : Dev) (h : Word) (e : Ses) : (d.setSes h e).shp = d.shp := rfl
@[simp] theorem Dev.setSes_pan (d : Dev) (h : Word) (e : Ses) : (d.setSes h e).pan = d.pan := rfl
@[simp] theorem Dev.setSes_ckp (d : Dev) (h : Word) (e : Ses) : (d.setSes h e).ckp = d.ckp := rfl
@[simp] theorem Dev.setSes_sec (d : Dev) (h : Word) (e : Ses) : (d.setSes h e).sec = d.sec := rfl
@[simp] theorem Dev.setSes_buses (d : Dev) (h : Word) (e : Ses) : (d.setSes h e).buses = d.buses := rfl
@[simp] theorem Dev.setSes_tap (d : Dev) (h : Word) (e : Ses) : (d.setSes h e).tap = d.tap := rfl
@[simp] theorem Dev.setSes_edge (d : Dev) (h : Word) (e : Ses) : (d.setSes h e).edge = d.edge := rfl
@[simp] theorem Dev.setSes_outs (d : Dev) (h : Word) (e : Ses) : (d.setSes h e).outs = d.outs := rfl
@[simp] theorem Dev.setSes_free (d : Dev) (h : Word) (e : Ses) : (d.setSes h e).free = d.free := rfl

/-! ### Dev.setMdl -/

@[simp] theorem Dev.setMdl_boot (d : Dev) (m : Nat) (k : Mdl) : (d.setMdl m k).boot = d.boot := rfl
@[simp] theorem Dev.setMdl_power (d : Dev) (m : Nat) (k : Mdl) : (d.setMdl m k).power = d.power := rfl
@[simp] theorem Dev.setMdl_ports (d : Dev) (m : Nat) (k : Mdl) : (d.setMdl m k).ports = d.ports := rfl
@[simp] theorem Dev.setMdl_ctrlPort (d : Dev) (m : Nat) (k : Mdl) : (d.setMdl m k).ctrlPort = d.ctrlPort := rfl
@[simp] theorem Dev.setMdl_parts (d : Dev) (m : Nat) (k : Mdl) : (d.setMdl m k).parts = d.parts := rfl
@[simp] theorem Dev.setMdl_sqs (d : Dev) (m : Nat) (k : Mdl) : (d.setMdl m k).sqs = d.sqs := rfl
@[simp] theorem Dev.setMdl_rqs (d : Dev) (m : Nat) (k : Mdl) : (d.setMdl m k).rqs = d.rqs := rfl
@[simp] theorem Dev.setMdl_cmds (d : Dev) (m : Nat) (k : Mdl) : (d.setMdl m k).cmds = d.cmds := rfl
@[simp] theorem Dev.setMdl_nextSeq (d : Dev) (m : Nat) (k : Mdl) : (d.setMdl m k).nextSeq = d.nextSeq := rfl
@[simp] theorem Dev.setMdl_nextReply (d : Dev) (m : Nat) (k : Mdl) : (d.setMdl m k).nextReply = d.nextReply := rfl
@[simp] theorem Dev.setMdl_arb (d : Dev) (m : Nat) (k : Mdl) : (d.setMdl m k).arb = d.arb := rfl
@[simp] theorem Dev.setMdl_fetchStop (d : Dev) (m : Nat) (k : Mdl) : (d.setMdl m k).fetchStop = d.fetchStop := rfl
@[simp] theorem Dev.setMdl_orphans (d : Dev) (m : Nat) (k : Mdl) : (d.setMdl m k).orphans = d.orphans := rfl
@[simp] theorem Dev.setMdl_adopts (d : Dev) (m : Nat) (k : Mdl) : (d.setMdl m k).adopts = d.adopts := rfl
@[simp] theorem Dev.setMdl_ops (d : Dev) (m : Nat) (k : Mdl) : (d.setMdl m k).ops = d.ops := rfl
@[simp] theorem Dev.setMdl_msix (d : Dev) (m : Nat) (k : Mdl) : (d.setMdl m k).msix = d.msix := rfl
@[simp] theorem Dev.setMdl_cfg (d : Dev) (m : Nat) (k : Mdl) : (d.setMdl m k).cfg = d.cfg := rfl
@[simp] theorem Dev.setMdl_commits (d : Dev) (m : Nat) (k : Mdl) : (d.setMdl m k).commits = d.commits := rfl
@[simp] theorem Dev.setMdl_lastCommit (d : Dev) (m : Nat) (k : Mdl) : (d.setMdl m k).lastCommit = d.lastCommit := rfl
@[simp] theorem Dev.setMdl_drains (d : Dev) (m : Nat) (k : Mdl) : (d.setMdl m k).drains = d.drains := rfl
@[simp] theorem Dev.setMdl_timers (d : Dev) (m : Nat) (k : Mdl) : (d.setMdl m k).timers = d.timers := rfl
@[simp] theorem Dev.setMdl_nowHi (d : Dev) (m : Nat) (k : Mdl) : (d.setMdl m k).nowHi = d.nowHi := rfl
@[simp] theorem Dev.setMdl_speed (d : Dev) (m : Nat) (k : Mdl) : (d.setMdl m k).speed = d.speed := rfl
@[simp] theorem Dev.setMdl_speedLow (d : Dev) (m : Nat) (k : Mdl) : (d.setMdl m k).speedLow = d.speedLow := rfl
@[simp] theorem Dev.setMdl_regs (d : Dev) (m : Nat) (k : Mdl) : (d.setMdl m k).regs = d.regs := rfl
@[simp] theorem Dev.setMdl_eqs (d : Dev) (m : Nat) (k : Mdl) : (d.setMdl m k).eqs = d.eqs := rfl
@[simp] theorem Dev.setMdl_paths (d : Dev) (m : Nat) (k : Mdl) : (d.setMdl m k).paths = d.paths := rfl
@[simp] theorem Dev.setMdl_scrubPass (d : Dev) (m : Nat) (k : Mdl) : (d.setMdl m k).scrubPass = d.scrubPass := rfl
@[simp] theorem Dev.setMdl_ueAt (d : Dev) (m : Nat) (k : Mdl) : (d.setMdl m k).ueAt = d.ueAt := rfl
@[simp] theorem Dev.setMdl_offline (d : Dev) (m : Nat) (k : Mdl) : (d.setMdl m k).offline = d.offline := rfl
@[simp] theorem Dev.setMdl_faultAt (d : Dev) (m : Nat) (k : Mdl) : (d.setMdl m k).faultAt = d.faultAt := rfl
@[simp] theorem Dev.setMdl_halted (d : Dev) (m : Nat) (k : Mdl) : (d.setMdl m k).halted = d.halted := rfl
@[simp] theorem Dev.setMdl_crc (d : Dev) (m : Nat) (k : Mdl) : (d.setMdl m k).crc = d.crc := rfl
@[simp] theorem Dev.setMdl_mem (d : Dev) (m : Nat) (k : Mdl) : (d.setMdl m k).mem = d.mem := rfl
@[simp] theorem Dev.setMdl_nand (d : Dev) (m : Nat) (k : Mdl) : (d.setMdl m k).nand = d.nand := rfl
@[simp] theorem Dev.setMdl_ses (d : Dev) (m : Nat) (k : Mdl) : (d.setMdl m k).ses = d.ses := rfl
@[simp] theorem Dev.setMdl_glm (d : Dev) (m : Nat) (k : Mdl) : (d.setMdl m k).glm = d.glm := rfl
@[simp] theorem Dev.setMdl_sch (d : Dev) (m : Nat) (k : Mdl) : (d.setMdl m k).sch = d.sch := rfl
@[simp] theorem Dev.setMdl_txt (d : Dev) (m : Nat) (k : Mdl) : (d.setMdl m k).txt = d.txt := rfl
@[simp] theorem Dev.setMdl_net (d : Dev) (m : Nat) (k : Mdl) : (d.setMdl m k).net = d.net := rfl
@[simp] theorem Dev.setMdl_shp (d : Dev) (m : Nat) (k : Mdl) : (d.setMdl m k).shp = d.shp := rfl
@[simp] theorem Dev.setMdl_pan (d : Dev) (m : Nat) (k : Mdl) : (d.setMdl m k).pan = d.pan := rfl
@[simp] theorem Dev.setMdl_ckp (d : Dev) (m : Nat) (k : Mdl) : (d.setMdl m k).ckp = d.ckp := rfl
@[simp] theorem Dev.setMdl_sec (d : Dev) (m : Nat) (k : Mdl) : (d.setMdl m k).sec = d.sec := rfl
@[simp] theorem Dev.setMdl_buses (d : Dev) (m : Nat) (k : Mdl) : (d.setMdl m k).buses = d.buses := rfl
@[simp] theorem Dev.setMdl_tap (d : Dev) (m : Nat) (k : Mdl) : (d.setMdl m k).tap = d.tap := rfl
@[simp] theorem Dev.setMdl_edge (d : Dev) (m : Nat) (k : Mdl) : (d.setMdl m k).edge = d.edge := rfl
@[simp] theorem Dev.setMdl_outs (d : Dev) (m : Nat) (k : Mdl) : (d.setMdl m k).outs = d.outs := rfl
@[simp] theorem Dev.setMdl_free (d : Dev) (m : Nat) (k : Mdl) : (d.setMdl m k).free = d.free := rfl

/-! ### Dev.setCore -/

@[simp] theorem Dev.setCore_boot (d : Dev) (n : Nat) (c : Core) : (d.setCore n c).boot = d.boot := rfl
@[simp] theorem Dev.setCore_power (d : Dev) (n : Nat) (c : Core) : (d.setCore n c).power = d.power := rfl
@[simp] theorem Dev.setCore_ports (d : Dev) (n : Nat) (c : Core) : (d.setCore n c).ports = d.ports := rfl
@[simp] theorem Dev.setCore_ctrlPort (d : Dev) (n : Nat) (c : Core) : (d.setCore n c).ctrlPort = d.ctrlPort := rfl
@[simp] theorem Dev.setCore_parts (d : Dev) (n : Nat) (c : Core) : (d.setCore n c).parts = d.parts := rfl
@[simp] theorem Dev.setCore_sqs (d : Dev) (n : Nat) (c : Core) : (d.setCore n c).sqs = d.sqs := rfl
@[simp] theorem Dev.setCore_rqs (d : Dev) (n : Nat) (c : Core) : (d.setCore n c).rqs = d.rqs := rfl
@[simp] theorem Dev.setCore_cmds (d : Dev) (n : Nat) (c : Core) : (d.setCore n c).cmds = d.cmds := rfl
@[simp] theorem Dev.setCore_nextSeq (d : Dev) (n : Nat) (c : Core) : (d.setCore n c).nextSeq = d.nextSeq := rfl
@[simp] theorem Dev.setCore_nextReply (d : Dev) (n : Nat) (c : Core) : (d.setCore n c).nextReply = d.nextReply := rfl
@[simp] theorem Dev.setCore_arb (d : Dev) (n : Nat) (c : Core) : (d.setCore n c).arb = d.arb := rfl
@[simp] theorem Dev.setCore_fetchStop (d : Dev) (n : Nat) (c : Core) : (d.setCore n c).fetchStop = d.fetchStop := rfl
@[simp] theorem Dev.setCore_orphans (d : Dev) (n : Nat) (c : Core) : (d.setCore n c).orphans = d.orphans := rfl
@[simp] theorem Dev.setCore_adopts (d : Dev) (n : Nat) (c : Core) : (d.setCore n c).adopts = d.adopts := rfl
@[simp] theorem Dev.setCore_ops (d : Dev) (n : Nat) (c : Core) : (d.setCore n c).ops = d.ops := rfl
@[simp] theorem Dev.setCore_msix (d : Dev) (n : Nat) (c : Core) : (d.setCore n c).msix = d.msix := rfl
@[simp] theorem Dev.setCore_cfg (d : Dev) (n : Nat) (c : Core) : (d.setCore n c).cfg = d.cfg := rfl
@[simp] theorem Dev.setCore_commits (d : Dev) (n : Nat) (c : Core) : (d.setCore n c).commits = d.commits := rfl
@[simp] theorem Dev.setCore_lastCommit (d : Dev) (n : Nat) (c : Core) : (d.setCore n c).lastCommit = d.lastCommit := rfl
@[simp] theorem Dev.setCore_drains (d : Dev) (n : Nat) (c : Core) : (d.setCore n c).drains = d.drains := rfl
@[simp] theorem Dev.setCore_timers (d : Dev) (n : Nat) (c : Core) : (d.setCore n c).timers = d.timers := rfl
@[simp] theorem Dev.setCore_nowHi (d : Dev) (n : Nat) (c : Core) : (d.setCore n c).nowHi = d.nowHi := rfl
@[simp] theorem Dev.setCore_speed (d : Dev) (n : Nat) (c : Core) : (d.setCore n c).speed = d.speed := rfl
@[simp] theorem Dev.setCore_speedLow (d : Dev) (n : Nat) (c : Core) : (d.setCore n c).speedLow = d.speedLow := rfl
@[simp] theorem Dev.setCore_regs (d : Dev) (n : Nat) (c : Core) : (d.setCore n c).regs = d.regs := rfl
@[simp] theorem Dev.setCore_eqs (d : Dev) (n : Nat) (c : Core) : (d.setCore n c).eqs = d.eqs := rfl
@[simp] theorem Dev.setCore_paths (d : Dev) (n : Nat) (c : Core) : (d.setCore n c).paths = d.paths := rfl
@[simp] theorem Dev.setCore_scrubPass (d : Dev) (n : Nat) (c : Core) : (d.setCore n c).scrubPass = d.scrubPass := rfl
@[simp] theorem Dev.setCore_ueAt (d : Dev) (n : Nat) (c : Core) : (d.setCore n c).ueAt = d.ueAt := rfl
@[simp] theorem Dev.setCore_offline (d : Dev) (n : Nat) (c : Core) : (d.setCore n c).offline = d.offline := rfl
@[simp] theorem Dev.setCore_faultAt (d : Dev) (n : Nat) (c : Core) : (d.setCore n c).faultAt = d.faultAt := rfl
@[simp] theorem Dev.setCore_halted (d : Dev) (n : Nat) (c : Core) : (d.setCore n c).halted = d.halted := rfl
@[simp] theorem Dev.setCore_crc (d : Dev) (n : Nat) (c : Core) : (d.setCore n c).crc = d.crc := rfl
@[simp] theorem Dev.setCore_mem (d : Dev) (n : Nat) (c : Core) : (d.setCore n c).mem = d.mem := rfl
@[simp] theorem Dev.setCore_nand (d : Dev) (n : Nat) (c : Core) : (d.setCore n c).nand = d.nand := rfl
@[simp] theorem Dev.setCore_ses (d : Dev) (n : Nat) (c : Core) : (d.setCore n c).ses = d.ses := rfl
@[simp] theorem Dev.setCore_glm (d : Dev) (n : Nat) (c : Core) : (d.setCore n c).glm = d.glm := rfl
@[simp] theorem Dev.setCore_sch (d : Dev) (n : Nat) (c : Core) : (d.setCore n c).sch = d.sch := rfl
@[simp] theorem Dev.setCore_txt (d : Dev) (n : Nat) (c : Core) : (d.setCore n c).txt = d.txt := rfl
@[simp] theorem Dev.setCore_net (d : Dev) (n : Nat) (c : Core) : (d.setCore n c).net = d.net := rfl
@[simp] theorem Dev.setCore_shp (d : Dev) (n : Nat) (c : Core) : (d.setCore n c).shp = d.shp := rfl
@[simp] theorem Dev.setCore_pan (d : Dev) (n : Nat) (c : Core) : (d.setCore n c).pan = d.pan := rfl
@[simp] theorem Dev.setCore_ckp (d : Dev) (n : Nat) (c : Core) : (d.setCore n c).ckp = d.ckp := rfl
@[simp] theorem Dev.setCore_sec (d : Dev) (n : Nat) (c : Core) : (d.setCore n c).sec = d.sec := rfl
@[simp] theorem Dev.setCore_buses (d : Dev) (n : Nat) (c : Core) : (d.setCore n c).buses = d.buses := rfl
@[simp] theorem Dev.setCore_tap (d : Dev) (n : Nat) (c : Core) : (d.setCore n c).tap = d.tap := rfl
@[simp] theorem Dev.setCore_edge (d : Dev) (n : Nat) (c : Core) : (d.setCore n c).edge = d.edge := rfl
@[simp] theorem Dev.setCore_outs (d : Dev) (n : Nat) (c : Core) : (d.setCore n c).outs = d.outs := rfl
@[simp] theorem Dev.setCore_free (d : Dev) (n : Nat) (c : Core) : (d.setCore n c).free = d.free := rfl

/-! ### Dev.setGunit -/

@[simp] theorem Dev.setGunit_boot (d : Dev) (u : Nat) (g : GUnit) : (d.setGunit u g).boot = d.boot := rfl
@[simp] theorem Dev.setGunit_power (d : Dev) (u : Nat) (g : GUnit) : (d.setGunit u g).power = d.power := rfl
@[simp] theorem Dev.setGunit_ports (d : Dev) (u : Nat) (g : GUnit) : (d.setGunit u g).ports = d.ports := rfl
@[simp] theorem Dev.setGunit_ctrlPort (d : Dev) (u : Nat) (g : GUnit) : (d.setGunit u g).ctrlPort = d.ctrlPort := rfl
@[simp] theorem Dev.setGunit_parts (d : Dev) (u : Nat) (g : GUnit) : (d.setGunit u g).parts = d.parts := rfl
@[simp] theorem Dev.setGunit_sqs (d : Dev) (u : Nat) (g : GUnit) : (d.setGunit u g).sqs = d.sqs := rfl
@[simp] theorem Dev.setGunit_rqs (d : Dev) (u : Nat) (g : GUnit) : (d.setGunit u g).rqs = d.rqs := rfl
@[simp] theorem Dev.setGunit_cmds (d : Dev) (u : Nat) (g : GUnit) : (d.setGunit u g).cmds = d.cmds := rfl
@[simp] theorem Dev.setGunit_nextSeq (d : Dev) (u : Nat) (g : GUnit) : (d.setGunit u g).nextSeq = d.nextSeq := rfl
@[simp] theorem Dev.setGunit_nextReply (d : Dev) (u : Nat) (g : GUnit) : (d.setGunit u g).nextReply = d.nextReply := rfl
@[simp] theorem Dev.setGunit_arb (d : Dev) (u : Nat) (g : GUnit) : (d.setGunit u g).arb = d.arb := rfl
@[simp] theorem Dev.setGunit_fetchStop (d : Dev) (u : Nat) (g : GUnit) : (d.setGunit u g).fetchStop = d.fetchStop := rfl
@[simp] theorem Dev.setGunit_orphans (d : Dev) (u : Nat) (g : GUnit) : (d.setGunit u g).orphans = d.orphans := rfl
@[simp] theorem Dev.setGunit_adopts (d : Dev) (u : Nat) (g : GUnit) : (d.setGunit u g).adopts = d.adopts := rfl
@[simp] theorem Dev.setGunit_ops (d : Dev) (u : Nat) (g : GUnit) : (d.setGunit u g).ops = d.ops := rfl
@[simp] theorem Dev.setGunit_msix (d : Dev) (u : Nat) (g : GUnit) : (d.setGunit u g).msix = d.msix := rfl
@[simp] theorem Dev.setGunit_cfg (d : Dev) (u : Nat) (g : GUnit) : (d.setGunit u g).cfg = d.cfg := rfl
@[simp] theorem Dev.setGunit_commits (d : Dev) (u : Nat) (g : GUnit) : (d.setGunit u g).commits = d.commits := rfl
@[simp] theorem Dev.setGunit_lastCommit (d : Dev) (u : Nat) (g : GUnit) : (d.setGunit u g).lastCommit = d.lastCommit := rfl
@[simp] theorem Dev.setGunit_drains (d : Dev) (u : Nat) (g : GUnit) : (d.setGunit u g).drains = d.drains := rfl
@[simp] theorem Dev.setGunit_timers (d : Dev) (u : Nat) (g : GUnit) : (d.setGunit u g).timers = d.timers := rfl
@[simp] theorem Dev.setGunit_nowHi (d : Dev) (u : Nat) (g : GUnit) : (d.setGunit u g).nowHi = d.nowHi := rfl
@[simp] theorem Dev.setGunit_speed (d : Dev) (u : Nat) (g : GUnit) : (d.setGunit u g).speed = d.speed := rfl
@[simp] theorem Dev.setGunit_speedLow (d : Dev) (u : Nat) (g : GUnit) : (d.setGunit u g).speedLow = d.speedLow := rfl
@[simp] theorem Dev.setGunit_regs (d : Dev) (u : Nat) (g : GUnit) : (d.setGunit u g).regs = d.regs := rfl
@[simp] theorem Dev.setGunit_eqs (d : Dev) (u : Nat) (g : GUnit) : (d.setGunit u g).eqs = d.eqs := rfl
@[simp] theorem Dev.setGunit_paths (d : Dev) (u : Nat) (g : GUnit) : (d.setGunit u g).paths = d.paths := rfl
@[simp] theorem Dev.setGunit_scrubPass (d : Dev) (u : Nat) (g : GUnit) : (d.setGunit u g).scrubPass = d.scrubPass := rfl
@[simp] theorem Dev.setGunit_ueAt (d : Dev) (u : Nat) (g : GUnit) : (d.setGunit u g).ueAt = d.ueAt := rfl
@[simp] theorem Dev.setGunit_offline (d : Dev) (u : Nat) (g : GUnit) : (d.setGunit u g).offline = d.offline := rfl
@[simp] theorem Dev.setGunit_faultAt (d : Dev) (u : Nat) (g : GUnit) : (d.setGunit u g).faultAt = d.faultAt := rfl
@[simp] theorem Dev.setGunit_halted (d : Dev) (u : Nat) (g : GUnit) : (d.setGunit u g).halted = d.halted := rfl
@[simp] theorem Dev.setGunit_crc (d : Dev) (u : Nat) (g : GUnit) : (d.setGunit u g).crc = d.crc := rfl
@[simp] theorem Dev.setGunit_mem (d : Dev) (u : Nat) (g : GUnit) : (d.setGunit u g).mem = d.mem := rfl
@[simp] theorem Dev.setGunit_nand (d : Dev) (u : Nat) (g : GUnit) : (d.setGunit u g).nand = d.nand := rfl
@[simp] theorem Dev.setGunit_ses (d : Dev) (u : Nat) (g : GUnit) : (d.setGunit u g).ses = d.ses := rfl
@[simp] theorem Dev.setGunit_grid (d : Dev) (u : Nat) (g : GUnit) : (d.setGunit u g).grid = d.grid := rfl
@[simp] theorem Dev.setGunit_sch (d : Dev) (u : Nat) (g : GUnit) : (d.setGunit u g).sch = d.sch := rfl
@[simp] theorem Dev.setGunit_txt (d : Dev) (u : Nat) (g : GUnit) : (d.setGunit u g).txt = d.txt := rfl
@[simp] theorem Dev.setGunit_net (d : Dev) (u : Nat) (g : GUnit) : (d.setGunit u g).net = d.net := rfl
@[simp] theorem Dev.setGunit_shp (d : Dev) (u : Nat) (g : GUnit) : (d.setGunit u g).shp = d.shp := rfl
@[simp] theorem Dev.setGunit_pan (d : Dev) (u : Nat) (g : GUnit) : (d.setGunit u g).pan = d.pan := rfl
@[simp] theorem Dev.setGunit_ckp (d : Dev) (u : Nat) (g : GUnit) : (d.setGunit u g).ckp = d.ckp := rfl
@[simp] theorem Dev.setGunit_sec (d : Dev) (u : Nat) (g : GUnit) : (d.setGunit u g).sec = d.sec := rfl
@[simp] theorem Dev.setGunit_buses (d : Dev) (u : Nat) (g : GUnit) : (d.setGunit u g).buses = d.buses := rfl
@[simp] theorem Dev.setGunit_tap (d : Dev) (u : Nat) (g : GUnit) : (d.setGunit u g).tap = d.tap := rfl
@[simp] theorem Dev.setGunit_edge (d : Dev) (u : Nat) (g : GUnit) : (d.setGunit u g).edge = d.edge := rfl
@[simp] theorem Dev.setGunit_outs (d : Dev) (u : Nat) (g : GUnit) : (d.setGunit u g).outs = d.outs := rfl
@[simp] theorem Dev.setGunit_free (d : Dev) (u : Nat) (g : GUnit) : (d.setGunit u g).free = d.free := rfl

end Sys2Proof.Machine
end

