-- ==== Sys2Proof/WellFormed.lean ====
section
/-! DEFINITION. Which commands and events are well formed: their operands name things the module has (functions, rings, dies, units,
cores, registers), and a packet has the length of one to four slots (R39, R45, R49). A meaning takes any operands; an event that names
nothing the module has leaves the state as it is (log entry 2). -/

namespace Sys2Proof

/-- A function of the module (R39). -/
def fnOk (f : Fn) : Bool := decide (f.port < 2) && decide (f.num ≤ 16)

/-- A packet of one to four 64-byte slots (R49), from a ring of a function or from an engine. -/
def cmdOk (c : Cmd) : Bool :=
  (c.words.length == 16 || c.words.length == 32 || c.words.length == 48 || c.words.length == 64) &&
  match c.src with
  | .ring fn sq slot => fnOk fn && decide (sq < 16) && decide (slot < 4096)
  | .engine _ => true

/-- Whether the operands of a command or event are in range. -/
def Instr.wf : Instr → Bool
  | .emergencyDetect cond | .shutdown cond => decide (cond ≤ 6)
  | .sensorUpdate sensor _ => decide (sensor ≤ 10)
  | .devPwrCapWrite fn _ | .functionLevelReset fn | .heartbeat fn _ | .hbCfgWrite fn _ | .cfgCommitCtrlGo fn _
  | .cfgCommitCtrlCancel fn _ | .cfgCommitCtrlCopy fn _ | .timeNowLoRead fn | .readClearCounter ⟨fn, _⟩ _
  | .registerWrite fn _ _ _ | .bar2Read fn _ _ _ | .bar2Write fn _ _ | .fltEqEnable fn _ | .fltEqHeadWrite fn _
  | .devResetCtrlWrite fn _ | .crcInit fn | .crcClaim fn | .crcRelease fn | .crcIn8 fn _ | .crcIn16 fn _ | .crcIn32 fn _ => fnOk fn
  | .pcieLinkTrainingStart port | .portReset port _ | .pcieDlInactive port | .linkDownTimeout port | .pcieDlActive port
  | .heartbeatTimeout port | .configurationWrite port _ => decide (port < 2)
  | .doorbell fn sq _ | .sqEnable fn sq _ | .commandFetch fn ⟨sq, _⟩ _ _ | .fetchResume fn sq => fnOk fn && decide (sq < 16)
  | .rqEnable fn rq _ | .rqHeadWrite fn rq _ => fnOk fn && decide (rq < 16)
  | .fencedCommandStart c | .devNop c | .devIdentify c | .devAbort c | .devSetCtrlHost c | .devPartBind c | .devPartRelease c
  | .devAdopt c | .devHostStatus c | .cfgCommit c | .cfgCancel c | .cfgCopy c | .sesOpen c | .sesPark c | .sesRevive c
  | .sesClose c | .sesMove c | .sesQuery c | .sesMoveIn c | .sesAwait c | .sesSignal c | .memBufMap c | .memBufUnmap c
  | .memMove c | .memXfer c | .memFreeze c | .memShareDrop c | .memWhere c | .memStore c | .memLoad c | .memNandFree c
  | .memKeyRotate c | .memKeyRetire c | .memKeyStatus c | .glmRegionMode c | .glmProgLoad c | .glmCurveLoad c | .glmSubmit c
  | .glmStatus c | .glmRegionQuery c | .mdlRegister c | .mdlLoad c | .mdlEvict c | .mdlPin c | .mdlCheck c | .mdlQuery c
  | .mdlUnregister c | .pfxFromSession c | .pfxCreate c | .pfxQuery c | .adpCreate c | .adpReplace c | .adpQuery c | .adpRetire c
  | .trnStart c | .trnStop c | .trnQuery c | .reqTemplate c | .reqSubmit c | .reqCancel c | .reqQuery c | .schModelCfg c
  | .schAcctRead c | .txtTableLoad c | .txtModelTok c | .txtGrammarSet c | .txtQuery c | .txtTokenize c | .txtDetokenize c
  | .netQpCreate c | .netQpConnect c | .netQpDestroy c | .netQpQuery c | .netSrqCreate c | .netSrqDestroy c | .netCqCreate c
  | .netCqDestroy c | .netSend c | .netEwrPost c | .netEwrWithdraw c | .netGidSet c | .netCtxArea c | .netPortQuery c
  | .panIndexCreate c | .panIndexDestroy c | .panInsert c | .panDelete c | .panQuery c | .panCompact c | .panIndexQuery c
  | .panGroupSet c | .panShardQuery c | .panListen c | .ckpJobDefine c | .ckpJobDrop c | .ckpNotice c | .ckpQuery c
  | .ckpRestore c | .ckpShrink c | .secSetJoin c | .secSetLeave c | .secWeightsOpen c | .secConnKeyLoad c | .secConnKeyDestroy c
  | .secIdentityRead c | .secQuery c | .secDebugChallenge c | .secDebugUnlock c | .secRma c | .secPartErase c | .mtrRecordRead c
  | .mtrIdentify c | .mtrCertRead c | .mtrCoeffRead c | .devReset c | .devFwWrite c | .devFwActivate c | .devFwQuery c
  | .devSvnCommit c => cmdOk c
  | .replyCoalesceTimeout fn rq => fnOk fn && decide (rq ≤ 16)
  | .speedMeasure die _ | .stagingHighPark die | .speltIntake die | .speltRequestEnd die _ | .queryAdmit die
  | .queryComplete die _ | .dieTempSensorSample die _ _ => decide (die < 2)
  | .timerFire port n => decide (port < 2) && decide (n < 16)
  | .nandDieFailure die | .dieRebuildComplete die => decide (die < 128)
  | .garbageCollect region => decide (region < 2)
  | .sweepUnitSwitch part _ | .glumeStart _ part _ _ | .glumeStop _ part _ _ | .glumeClear _ part _ _
  | .glAliasStatusRead _ part _ _ | .glAliasResultRead _ part _ _ | .ordinaryRead _ part _ _ _ | .ordinaryWrite _ part _ _
  | .glAliasPathAccess ⟨_, part⟩ _ _ _ _ _ | .spillMoveStart part | .fetchBackPagePlace part | .energySplit part => decide (part ≤ 16)
  | .regionSwitch stack region => decide (stack < 16) && decide (region < 48)
  | .programStart u | .brd u _ _ _ _ _ | .bwr u _ _ _ _ _ | .bwait u | .pgnext u _ _ _ | .res u _ _ | .yield u | .glmEnd u
  | .serviceWindowEnd u | .yieldOverrun u | .budgetExpiry u | .heldReadTimeout u | .targetedRefresh u _ _ | .ceRate u => decide (u < 512)
  | .glmAlu u _ rd rs _ => decide (u < 512) && decide (rd < 32) && decide (rs < 32)
  | .glmMul u _ rd rs rt => decide (u < 512) && decide (rd < 32) && decide (rs < 32) && decide (rt < 32)
  | .glmLi u rd _ => decide (u < 512) && decide (rd < 32)
  | .glmBranch u _ rs rt _ => decide (u < 512) && decide (rs < 32) && decide (rt < 32)
  | .glmLdSt u _ _ r base _ => decide (u < 512) && decide (r < 32) && decide (base < 32)
  | .glmVldVst u _ v _ _ | .glmVcvt u _ v _ _ => decide (u < 512) && decide (v < 16)
  | .glmVectorArith u _ vd va _ | .glmVexp2 u vd va => decide (u < 512) && decide (vd < 16) && decide (va < 16)
  | .glmVreduce u _ rd va => decide (u < 512) && decide (rd < 32) && decide (va < 16)
  | .stackTempSample die stack _ => decide (die < 2) && decide (stack < 8)
  | .refreshWindowEnd stack => decide (stack < 16)
  | .coreScalarAlu n _ rd rs _ => decide (n < 256) && decide (rd < 32) && decide (rs < 32)
  | .coreLdSt n _ _ r base _ => decide (n < 256) && decide (r < 32) && decide (base < 32)
  | .coreBranch n _ | .coreLoop n _ _ | .waitfull n _ | .brelease n _ | .xfer n _ _ _ | .xferComplete n
  | .stepdone n _ | .coreFence n | .halt n | .hangTimeout n | .fanOut n _ | .fanOutMemberDone n => decide (n < 256)
  | .wload n w _ => decide (n < 256) && decide (w < 2)
  | .mmul n w acc _ _ _ _ _ _ => decide (n < 256) && decide (w < 2) && decide (acc < 2)
  | .accout n acc _ _ _ _ _ | .accz n acc => decide (n < 256) && decide (acc < 2)
  | .vquant n _ q _ _ _ _ _ => decide (n < 256) && q.elim true fun r => decide (r < 32)
  | .coreVldVst n _ q _ _ | .coreVcvt n _ q _ _ => decide (n < 256) && decide (q < 32)
  | .coreVectorArith n _ qd qa _ => decide (n < 256) && decide (qd < 32) && decide (qa < 32)
  | .vred n _ rd qa => decide (n < 256) && decide (rd < 32) && decide (qa < 32)
  | .coreSend n _ chan _ _ | .recv n chan _ _ | .mfree n chan => decide (n < 256) && decide (chan < 16)
  | .messageDelivery _ _ chan => decide (chan < 16)
  | .poll n rd _ _ | .stepwait n rd => decide (n < 256) && decide (rd < 32)
  | .pfcFrame sub prio _ => decide (sub < 16) && decide (prio < 8)
  | .arpRequest sub _ | .ethLinkChange sub _ => decide (sub < 16)
  | .shapedUnitStart node part _ _ => decide (node < 19) && decide (part ≤ 16)
  | .creditModeRecoverEnd node => decide (node < 19)
  | .getMeterRecord bus _ | .getMeterCert bus | .pldmRequest bus _ | .mctpControl bus _ => decide (bus < 2)
  | .eventRecordDeliver path => decide (path < 19)
  | .controlCoreFault core => decide (core < 8)
  | .powerGoodRise _ _ | .powerGoodFall | .pwrEnChange _ | .inputVoltageShutdown _ | .breakerTrip _ _ | .ptcEvaluate _ _ _ _ _
  | .emergencyClear | .coolantSample _ _ _ _ | .startupStageEnd _ | .descriptorWaitResume | .commitSwap _ | .slotFire _ _ _
  | .timerSlotFire _ _ | .waitExpiry _ | .parkAfterExpiry _ | .parkWriteConfirmed _ | .stagingEntryFreeRevive _
  | .reviveDecodeEnd _ | .closeReleaseDone _ | .moveRecordArrival _ _ | .moveConfirmationArrival _ _
  | .moveConfirmSendComplete _ _ | .moveAbortArrival _ _ | .moveInTimeout _ | .moveConfirmTimeout _ | .bufUnmapResume _
  | .granuleCopyStart _ | .granuleSwitch _ _ | .prefetchEntryStart _ | .prefetchEntryComplete _ _ | .ftlWriteConfirm _ _
  | .nandReadComplete _ _ | .readDisturbRelocate _ _ | .wearLevelMove _ | .scrubRead _ _ | .sramScrub _ _ _ _ | .nandReadScan _ _
  | .loadComplete _ | .trainingStepStart _ | .trainingStepBoundary _ | .spillSwitch _ | .fetchBackSwitch _ | .batchStepEnd _ _
  | .batchStepStart _ | .monitorPass | .deadlineExpiry _ | .frameReceive _ | .packetArrivalExt _ | .packetArrivalRc _
  | .readRequest _ | .messageComplete _ _ | .ackArrival _ | .ackTimeout _ _ | .rnrTimerExpiry _ _ | .cnpArrival _
  | .reassemblyTimeout _ _ | .contextFetchComplete _ | .contextFetchExpiry _ | .waitEnRelease _ | .shaperRefill
  | .compactResume _ | .queryMessageArrival _ _ _ | .partialListArrival _ _ _ | .shardTimeout _ | .networkNotice _ _
  | .stalledWrite _ _ | .shardComplete _ _ | .shardWriteConfirmed _ _ _ | .announcementArrival _ _ _ _ _
  | .verdictArrival _ _ _ _ | .endMarkerArrival _ _ | .dedupTimeout _ | .verdictTimeout _ _ | .manifestReportArrival _ _ _ _ _
  | .commitRecordConfirmed _ | .commitMessageArrival _ | .commitTimeout _ | .spdmRequest _ _ | .signatureDone | .throttleLevel
  | .meterStart _ _ _ _ | .meterAdcSample _ _ _ | .meterRecordEnd | .meterRecordPublish | .swIdRecheck _ | .coeffPackageStaged
  | .meterCoeffSwap | .tickLossHalt _ | .deviceReset | .gridReset | .glumeReset | .meterCrcTake | .meterCrcRelease
  | .copyRegionDone _ _ _ | .hostMemoryReadCompletion _ _ _ | .keyEngineDone _ _ | .updateComplete _ | .nocLinkFault _ _
  | .inputBelow20V | .spdmResponseNotReady _ => true

end Sys2Proof
end

