-- ==== Sys2Proof/Tests/Slice0.lean ====
section
/-! SUPPORT. Tests: the spec's worked examples, what well-formed refuses, and for each obligation that has hypotheses a theorem wit_... that
shows a state and operands which meet the hypotheses of each of its clauses, at the ends of the operands' ranges where they have one. -/

open Sys2Proof Sys2Proof.Machine
namespace Sys2Proof.Tests

set_option Elab.async false

/-- A powered module at tick 1,250,000,000 whose device is `d`. -/
def st (d : Dev) : State := { State.reset with clock := ⟨1250000000, 2000000000, true, true, 0⟩, dev := d }

/-- A module without power whose device is `d`. -/
def off (d : Dev) : State := { State.reset with clock := ⟨0, 100000000, false, false, 0⟩, dev := d }

/-- A device whose start-up has ended, with port 0 up and partition 0 bound to it. -/
def dv : Dev := { Dev.reset with
  boot := { Boot.reset with state := 6, stage := 8 }
  ports := [(0, { PciePort.reset with linkUp := true, vfEnable := true, numVfs := 16 })]
  parts := [(0, .bound 0)] }

/-- A command of physical function 0, with the command words from word 2 on. -/
def rq (op : Nat) (ws : List Word) : Cmd := ⟨.ring ⟨0, 0⟩ 0 0, wd op :: 0 :: ws⟩

/-- The record of that command, started. -/
def rc (op : Nat) (ws : List Word) : CmdRec :=
  ⟨1, rq op ws, ⟨0, 0⟩, 0, 0, 0, op, 0, some 0, .started, false, false, false, .live, 0, 0⟩

/-- A powered module with that command started. -/
def sc (op : Nat) (ws : List Word) (d : Dev) : State := st { d with cmds := [rc op ws] }

/-- A session of die 0 in a given state: generation 1, model 1. -/
def se (x : SesStateName) : Ses := { Ses.free 1 0 with state := x, model := 1 }

/-- Its handle where its index is 0. -/
def h0 : Word := 0x01000000

/-- A device that has that session. -/
def dses (e : Ses) : Dev := { dv with ses := ⟨[(0, e)], [], []⟩ }

/-- A model image of one layer, one KV head of 64 elements, and no core. -/
def im : Image := ⟨false, false, 1, 1, 0, 0, 64, 64, 0, 1, 1, 64, 0, 0, 0, 0, 1, 0, [], [], []⟩

/-- A resident model of partition 0. -/
def md : Mdl :=
  ⟨0, im, [], .resident, false, 0, 0, 0, 0, 0, 0, [], none, 0, 0, [], false, false, 0, [], [], [], none, 0, 0, 0, none, 0, 0, 0, false, false, 0,
    false, .ok, 0⟩

/-- A device with that model as model 1. -/
def withMdl (m : Mdl) (d : Dev) : Dev := { d with grid := { d.grid with mdls := [(1, m)] } }

/-- What an `ok` result holds. -/
theorem ok_get {ε α : Type} {x : Except ε α} (h : x.toOption.isSome = true) : x = .ok (x.toOption.get h) := by
  cases x with
  | ok a => rfl
  | error e => simp [Except.toOption] at h

/-- What a `some` result holds. -/
theorem some_get1 {α : Type} {o : Option α} (h : o.isSome = true) : o = some (o.get h) := (Option.some_get h).symm
theorem some_get2 {α β : Type} {o : Option (α × β)} (h : o.isSome = true) : o = some ((o.get h).1, (o.get h).2) := (Option.some_get h).symm
theorem some_get3 {α β γ : Type} {o : Option (α × β × γ)} (h : o.isSome = true) :
    o = some ((o.get h).1, (o.get h).2.1, (o.get h).2.2) := (Option.some_get h).symm
theorem fst_get {α β : Type} {x : α × β} {a : α} (h : x.1 = a) : x = (a, x.2) := by cases h; rfl
theorem pair_get {α β : Type} {x : α × β} : x = (x.1, x.2) := rfl
theorem trip_get {α β γ : Type} {x : α × β × γ} : x = (x.1, x.2.1, x.2.2) := rfl

/-- A queue pair of partition 0 that is ready: extended, with events and encrypted, with an MTU of 4,096. -/
def qp0 : Qp :=
  ⟨0, 0, 0, true, false, true, true, false, 4, none, none, 1, 1, 5, 0, 0, 0, 0, 14, 7, 7, 0, 1, 0, 0, .chip, 0, [], none, false, [], [], 0, [],
    [], 0, 0, [], none⟩

/-- A device with that queue pair as number 3. -/
def withQp (q : Qp) (d : Dev) : Dev := { d with net := { d.net with qps := [(3, q)] } }

/-- A core that runs a program of model 1, and a device whose core 255 it is. -/
def co : Core := { Core.reset with model := 1, run := true }
def dco (c : Core) : Dev := { dv with grid := { GridState.reset with cores := [(255, c)], mdls := [(1, md)] } }

/-- An immediate of zero is zero at every width, whichever way it extends. -/
theorem imm0 (n w k : Nat) : immVal n w (0 : BitVec k) = 0 := by unfold immVal; split <;> simp [BitVec.signExtend]

/-- A Glume unit whose slot 15 runs, and a device whose unit 511 it is, with its region in COMPUTE mode and owned by partition 0. -/
def gu : GUnit := { GUnit.reset with running := some 15, slots := [(15, { GSlot.reset with st := 2 })] }
def dgl (g : GUnit) : Dev := { dv with
  glm := { GlmState.reset with compute := [15 * 64], units := [(511, g)], bankAct := ⟨true, [(0, 1, 1, true)], []⟩ }
  regs := ⟨[], [(devKey 0x0502E0, 0)], [], []⟩ }

/-- An address in that region, of unit 511's channel. -/
def ga : Nat := hbmBase + 15 * stackBytes + 0x1F0000

/-- A request of that session, which no command submitted. -/
def rqst : Request :=
  ⟨h0, 5, 0, Template.reset, 0, false, 0, false, none, 0, 0, false, false, false, 0, [], TokSlot.reset, 0, none, none, false, [], 0, none, [], true⟩

/-- A device with that request. -/
def withReq (r : Request) (d : Dev) : Dev := { d with sch := { d.sch with reqs := [(5, r)] } }

/-- A device whose extent 7 of partition 0's buffer space is mapped, and frozen or not. -/
def dmap (frozen : Bool) : Dev :=
  { dv with mem := { MemState.reset with bufs := [(bufKey 0 7, ⟨extentAddr 524288, [], frozen, 0, 0, []⟩)], exts := [(524288, 0)] } }

/-- A text request of a lane. -/
def txr (src : TxtSrc) (lane : Option Nat) : TxtReq :=
  ⟨1, 1, 0, h0, src, [65], false, false, none, TokSlot.reset, 0, none, lane, false, 16, 1, 0, false⟩

/-- The stacks of a channel set, and a device in which partition 0 owns region 0 of each of them, in COMPUTE mode. -/
def eight : List Nat := [0, 1, 2, 3, 8, 9, 10, 11]
def dpool (d : Dev) : Dev := { d with
  glm := { GlmState.reset with compute := eight.map (· * 64) }
  regs := ⟨[], eight.map fun s => (devKey (0x050100 + s * 0x20), 0), [], []⟩ }

/-- The entries of the bytes `bs` from address `a` on, without those that read as `un` when they are not listed. -/
def cells (un : Byte) (a : Nat) (bs : List Byte) : List (Nat × Byte) := (bs.mapIdx fun i b => (a + i, b)).filter fun e => e.2 != un

/-- The flash entries of bank 0's directory of five images of no body each (R446). A byte that is not listed reads as FFH. -/
def dirCells : List (Nat × Byte) :=
  [(0, 68), (1, 73), (2, 82), (3, 49), (4, 5), (5, 0), (6, 0), (7, 0), (64, 1), (68, 0), (69, 32), (70, 0), (71, 0), (72, 0), (73, 6), (74, 0),
    (75, 0), (80, 2), (84, 0), (85, 48), (86, 0), (87, 0), (88, 0), (89, 6), (90, 0), (91, 0)] ++
  [(96, 3), (100, 0), (101, 64), (102, 0), (103, 0), (104, 0), (105, 6), (106, 0), (107, 0), (112, 4), (116, 0), (117, 80), (118, 0), (119, 0),
    (120, 0), (121, 6), (122, 0), (123, 0), (128, 5), (132, 0), (133, 96), (134, 0), (135, 0), (136, 0), (137, 6), (138, 0), (139, 0)]

/-- The flash entries of that bank's image headers. -/
def imgCells : List (Nat × Byte) :=
  [(8192, 73), (8193, 77), (8194, 71), (8195, 49), (8196, 1), (8197, 0), (8204, 0), (8205, 0), (8206, 0), (8207, 0), (8208, 0), (8209, 0),
    (8210, 0), (8211, 0), (8212, 0), (8213, 0), (8214, 0), (8215, 0), (12288, 73), (12289, 77), (12290, 71), (12291, 49), (12292, 2), (12293,
    0), (12300, 0), (12301, 0), (12302, 0), (12303, 0), (12304, 0), (12305, 0), (12306, 0), (12307, 0), (12308, 0), (12309, 0), (12310, 0),
    (12311, 0)] ++
  [(16384, 73), (16385, 77), (16386, 71), (16387, 49), (16388, 3), (16389, 0), (16396, 0), (16397, 0), (16398, 0), (16399, 0), (16400, 0),
    (16401, 0), (16402, 0), (16403, 0), (16404, 0), (16405, 0), (16406, 0), (16407, 0), (20480, 73), (20481, 77), (20482, 71), (20483, 49),
    (20484, 4), (20485, 0), (20492, 0), (20493, 0), (20494, 0), (20495, 0), (20496, 0), (20497, 0), (20498, 0), (20499, 0), (20500, 0), (20501,
    0), (20502, 0), (20503, 0)]

/-- The flash entries of a bank's commit record of sequence number 0, and of FFFFFFFFH. -/
def recLow : Nat → List (Nat × Byte)
  | 0 => [(4096, 67), (4097, 77), (4098, 84), (4099, 49), (4100, 0), (4101, 0), (4102, 0), (4103, 0), (4104, 150), (4105, 79), (4106, 160), (4107,
    118), (4108, 196), (4109, 228), (4110, 106), (4111, 221)]
  | _ => [(33558528, 67), (33558529, 77), (33558530, 84), (33558531, 49), (33558532, 0), (33558533, 0), (33558534, 0), (33558535, 0), (33558536, 150),
    (33558537, 79), (33558538, 160), (33558539, 118), (33558540, 196), (33558541, 228), (33558542, 106), (33558543, 221)]
def recHigh : Nat → List (Nat × Byte)
  | 0 => [(4096, 67), (4097, 77), (4098, 84), (4099, 49), (4104, 150), (4105, 79), (4106, 160), (4107, 118), (4108, 177), (4109, 169), (4110, 189),
    (4111, 174)]
  | _ => [(33558528, 67), (33558529, 77), (33558530, 84), (33558531, 49), (33558536, 150), (33558537, 79), (33558538, 160), (33558539, 118),
    (33558540, 177), (33558541, 169), (33558542, 189), (33558543, 174)]

/-- Fuses whose hashes are all ones. -/
def fz : Fuses :=
  ⟨2, [(BitVec.allOnes 512, true, false)], [0, 0, 0, 0], 0, List.replicate 16 0, BitVec.allOnes 512, BitVec.allOnes 512, none⟩

/-- Stores whose bank 0 is whole and the newer one, and whole and the older one. -/
def flA : ImageStore := ⟨dirCells ++ recLow 0 ++ imgCells ++ recHigh 1⟩
def flB : ImageStore := ⟨dirCells ++ recHigh 0 ++ imgCells ++ recLow 1⟩

/-- A store of two commit records without directories. -/
def flC : ImageStore := ⟨recLow 0 ++ recHigh 1⟩

/-- A powered module with those fuses, that store and device `d`. -/
def sfl (s : ImageStore) (d : Dev) : State := { st d with fuses := fz, store := s }

/-- A device at start-up stage 3. -/
def dv3 : Dev := { dv with boot := { dv.boot with stage := 3 } }

/-- Whether an image is trusted when every digest is all ones and every signature verifies. The functions of Config that hash and
verify have no body, so that a witness that needs a digest or a signature that checks takes one equation for each of them. -/
def trusted (f : Fuses) (h : List Byte) (k : Nat) : Bool :=
  ((f.roots[leAt h 5 1]?).elim false fun r => r.1 == BitVec.allOnes 512 && r.2.1 && !r.2.2) &&
    (BitVec.allOnes 512 == BitVec.ofNat 512 (leAt h 0x18 64)) && decide ((f.floors[k - 1]?).getD 0 ≤ leAt h 0x10 8)

/-- A bank's fault of image k under those equations. -/
def faultUnder (s : ImageStore) (f : Fuses) (b k : Nat) : Option ImageFault :=
  match s.imageAt b k with
  | none => some .form
  | some (off, len) =>
    if k = 5 then none
    else if !imageForm (s.header b off) k off len then some .form
    else if trusted f (s.header b off) k then none else some .trust

theorem imageFault_under (hd : ∀ b, Config.sha512 b = BitVec.allOnes 512) (hv : ∀ k m s, Config.rsaVerify k m s = true)
    (s : ImageStore) (f : Fuses) (b k : Nat) : s.imageFault f b k = faultUnder s f b k := by
  unfold ImageStore.imageFault faultUnder imageTrusted trusted
  rcases s.imageAt b k with _ | ⟨o, n⟩
  · rfl
  · simp only [hd, hv, Bool.and_true]

theorem firstFault_under (hd : ∀ b, Config.sha512 b = BitVec.allOnes 512) (hv : ∀ k m s, Config.rsaVerify k m s = true)
    {s : ImageStore} {f : Fuses} {b : Nat} (h : ∀ k ∈ ([1, 2, 3, 4, 5] : List Nat), faultUnder s f b k = none) :
    (s.firstFault f b).isNone = true := by
  simp only [List.mem_cons, List.not_mem_nil, or_false, forall_eq_or_imp, forall_eq] at h
  simp only [ImageStore.firstFault, List.findSome?, imageFault_under hd hv, h, Option.map_none, Option.isNone_none]

theorem valid_under (hd : ∀ b, Config.sha512 b = BitVec.allOnes 512) (hv : ∀ k m s, Config.rsaVerify k m s = true)
    {s : ImageStore} {f : Fuses} {b : Nat} (h : s.recordOk b = true)
    (g : ∀ k ∈ ([1, 2, 3, 4, 5] : List Nat), faultUnder s f b k = none) : s.valid f b = true := by
  rw [ImageStore.valid, h, firstFault_under hd hv g]; rfl

/-- A bank whose commit record does not check is not valid. -/
theorem not_valid {s : ImageStore} {f : Fuses} {b : Nat} (h : s.recordOk b = false) : s.valid f b = false := by
  rw [ImageStore.valid, h]; rfl

/-- `f` of a number that is first worked out, so that the kernel does so once. -/
def forced {α : Type} (n : Nat) (f : Nat → α) : α :=
  match n with
  | 0 => f 0
  | m + 1 => f (m + 1)

theorem forced_eq {α : Type} (n : Nat) (f : Nat → α) : forced n f = f n := by cases n <;> rfl

/-- The check value's step over one bit and over bytes, on numbers, each worked out before the next. -/
def bitStep (n : Nat) : Nat := bif Nat.beq (n % 2) 1 then Nat.xor (n / 2) 0x82F63B78 else n / 2

def crcForced (n : Nat) : List Byte → Nat
  | [] => n
  | b :: bs => forced (Nat.xor n b.toNat) fun x => forced (bitStep x) fun x => forced (bitStep x) fun x => forced (bitStep x) fun x =>
      forced (bitStep x) fun x => forced (bitStep x) fun x => forced (bitStep x) fun x => forced (bitStep x) fun x => forced (bitStep x) fun x =>
      crcForced x bs

theorem bitStep_eq (r : Word) : bitStep r.toNat = (crcBit r).toNat := by
  have h : r.getLsbD 0 = Nat.beq (r.toNat % 2) 1 := by
    rw [BitVec.getLsbD, Nat.testBit_zero]; rcases Nat.mod_two_eq_zero_or_one r.toNat with e | e <;> rw [e] <;> rfl
  unfold bitStep crcBit
  rw [h]
  cases Nat.beq (r.toNat % 2) 1
  · simp [Nat.shiftRight_succ]
  · simp only [cond_true, if_true, BitVec.toNat_xor, BitVec.toNat_ushiftRight, Nat.shiftRight_succ, Nat.shiftRight_zero]; rfl

theorem crcForced_eq (r : Word) (bs : List Byte) : crcForced r.toNat bs = (crcRun r bs).toNat := by
  induction bs generalizing r with
  | nil => rfl
  | cons b bs ih =>
    have e : Nat.xor r.toNat b.toNat = (r ^^^ b.setWidth 32).toNat := by
      rw [BitVec.toNat_xor, BitVec.toNat_setWidth, Nat.mod_eq_of_lt (Nat.lt_trans b.isLt (by decide))]; rfl
    simp only [crcForced, forced_eq, e, bitStep_eq, ih, crcRun, crcByte]

/-- The check values of 64-byte parts of erased flash: `vs` are they, from value `n`. -/
def ffParts (n : Nat) : List Nat → Bool
  | [] => true
  | v :: vs => Nat.beq (crcForced n (List.replicate 64 0xFF)) v && ffParts v vs

theorem crcRun_append (r : Word) (a b : List Byte) : crcRun r (a ++ b) = crcRun (crcRun r a) b := by
  induction a generalizing r with
  | nil => rfl
  | cons x a ih => exact ih _

theorem bytes_add (s : ImageStore) (o m n : Nat) : s.bytes o (m + n) = s.bytes o m ++ s.bytes (o + m) n := by
  simp only [ImageStore.bytes, List.range_add, List.map_append, List.map_map, Function.comp_def, Nat.add_assoc]

theorem crcRun_ff {r : Word} {vs : List Nat} (h : ffParts r.toNat vs = true) :
    (crcRun r (List.replicate (64 * vs.length) 0xFF)).toNat = vs.getLastD r.toNat := by
  induction vs generalizing r with
  | nil => rfl
  | cons v vs ih =>
    simp only [ffParts, Bool.and_eq_true, crcForced_eq] at h
    obtain ⟨g, h⟩ := h
    cases Nat.eq_of_beq_eq_true g
    rw [List.length_cons, Nat.mul_succ, Nat.add_comm, List.replicate_add, crcRun_append, ih h, List.getLastD_cons]

theorem tget_quiet (t : Tbl Byte) (k : Nat) (h : (t.all fun e => e.1 != k) = true) : tget t k = none := by
  induction t with
  | nil => rfl
  | cons e t ih =>
    simp only [List.all_cons, Bool.and_eq_true, bne_iff_ne] at h
    rw [tget, if_neg h.1, ih h.2]

/-- Flash with no entry in a range is erased there. -/
theorem bytes_quiet {s : ImageStore} {o n : Nat} (h : (s.flash.all fun e => decide (e.1 < o) || decide (o + n ≤ e.1)) = true) :
    s.bytes o n = List.replicate n 0xFF := by
  refine List.eq_replicate_iff.2 ⟨by simp [ImageStore.bytes], fun b hb => ?_⟩
  obtain ⟨i, hi, rfl⟩ := List.mem_map.1 hb
  have hi := List.mem_range.1 hi
  rw [tgetD, tget_quiet]
  · rfl
  · refine List.all_eq_true.2 fun e he => ?_
    have := List.all_eq_true.1 h e he
    simp only [Bool.or_eq_true, decide_eq_true_eq] at this
    simp only [bne_iff_ne]; omega

/-- The check values of the directory's erased part, from its byte 192 on. -/
def dirParts : List Nat :=
  [4197151783, 1995840057, 3575625371, 2397440473, 126999584, 2263222409, 3774423033, 474329486, 2435932703, 1085307186, 1467277033,
    1768382048, 2522054667, 1147328349, 788735854, 1855737863, 672646254, 787469621, 474092009, 3906690354, 3683894829, 1765968156, 3034231192,
    2454822123, 722399849, 681838844, 3589865817, 340582793, 165740921, 2859032409, 1420465424, 1235508568, 2001751705, 1119119135, 138983863,
    1357476938, 4259381352, 2454591784, 55970394, 3829907273, 2741347102, 3078366032, 2124608009, 3755423665, 131317260, 730532120, 283349546,
    3728022650, 4086990232, 3020516146, 4027174762, 1224348375, 165043921, 1149741728, 395697636, 4053686614, 4003827146, 1248295606,
    3147003900, 1962291803, 2304749673]

/-- The first 192 bytes of that directory. -/
def dirHead : List Byte :=
  [68, 73, 82, 49, 5, 0, 0, 0] ++ List.replicate 56 255 ++ ([(1, 32), (2, 48), (3, 64), (4, 80), (5, 96)] : List (Byte × Byte)).flatMap
    (fun e => [e.1, 255, 255, 255, 0, e.2, 0, 0, 0, 6, 0, 0] ++ List.replicate 4 255) ++ List.replicate 48 255

theorem crc_dir : crc32c (dirHead ++ List.replicate 3904 0xFF) = 1990217622#32 := by
  have h1 : (crcRun 0xFFFFFFFF#32 dirHead).toNat = 1110625762 := (crcForced_eq _ _).symm.trans (by decide +kernel)
  have h2 : ffParts 1110625762 dirParts = true := by decide +kernel
  have h3 := crcRun_ff (vs := dirParts) (r := crcRun 0xFFFFFFFF#32 dirHead) (by rw [h1]; exact h2)
  rw [crc32c, crcRun_append, show 3904 = 64 * dirParts.length from rfl, BitVec.eq_of_toNat_eq (y := 0x895FB069#32) h3]; rfl

theorem record_ok {s : ImageStore} {b : Nat} (h : ((s.seq b).isSome && s.dirOk b && leAt (s.record b) 8 4 == 1990217622) = true)
    (g : s.bytes (bankBase b) 192 = dirHead)
    (q : (s.flash.all fun e => decide (e.1 < bankBase b + 192) || decide (bankBase b + 192 + 3904 ≤ e.1)) = true) : s.recordOk b = true := by
  rw [ImageStore.recordOk, ImageStore.dir, show 4096 = 192 + 3904 from rfl, bytes_add, g, bytes_quiet q, crc_dir]; exact h

theorem flA_record : flA.recordOk 0 = true := record_ok (by decide +kernel) (by decide +kernel) (by decide +kernel)
theorem flA_faults : ∀ k ∈ ([1, 2, 3, 4, 5] : List Nat), faultUnder flA fz 0 k = none := by decide +kernel
theorem flA_valid (hd : ∀ b, Config.sha512 b = BitVec.allOnes 512) (hv : ∀ k m s, Config.rsaVerify k m s = true) :
    flA.valid fz 0 = true := valid_under hd hv flA_record flA_faults
theorem flB_record : flB.recordOk 0 = true := record_ok (by decide +kernel) (by decide +kernel) (by decide +kernel)
theorem flB_faults : ∀ k ∈ ([1, 2, 3, 4, 5] : List Nat), faultUnder flB fz 0 k = none := by decide +kernel
theorem flB_valid (hd : ∀ b, Config.sha512 b = BitVec.allOnes 512) (hv : ∀ k m s, Config.rsaVerify k m s = true) :
    flB.valid fz 0 = true := valid_under hd hv flB_record flB_faults
theorem flA_preferred : flA.preferred = 0 := by decide +kernel
theorem flB_fault : flB.recordOk 1 = false := by decide +kernel

theorem fwCheck_of {x : Ctx} {d : Dev} (h : x.store.dirOk (1 - d.boot.bank) = true)
    (g : (x.store.firstFault x.fuses (1 - d.boot.bank)).isNone = true) :
    fwCheck x d = .ok (((x.store.seq d.boot.bank).getD 0 + 1) % 2 ^ 32) := by
  cases e : x.store.firstFault x.fuses (1 - d.boot.bank) with
  | some _ => simp [e] at g
  | none => simp [fwCheck, h, e]

/-- Bytes written least significant first read back as the number they spell. -/
theorem leNat_leBytes (k v : Nat) : leNat (leBytes k v) = v % 256 ^ k := by
  induction k generalizing v with
  | zero => simp [leBytes, leNat, Nat.mod_one]
  | succ k ih =>
    simp only [leBytes, leNat, ih, BitVec.toNat_ofNat]
    rw [show 256 ^ (k + 1) = 256 * 256 ^ k from Nat.pow_succ', Nat.mod_mul]

/-- A key set record (R371) for this module, whose measurement is zero. -/
def keyRec : List Byte := (leBytes 4 0x31544553 ++ leBytes 2 1 ++ [0, 0] ++ leBytes 8 5 ++ List.replicate 32 0) ++
  (leBytes 8 Config.serial.toNat ++ List.replicate 64 0)

/-- A weights package header of one chunk. -/
def hpk : List Byte := leBytes 4 0x31505757 ++ leBytes 2 1 ++ leBytes 2 8 ++ leBytes 8 5 ++ leBytes 8 0 ++ leBytes 8 1 ++ leBytes 4 1

/-- Two mapped extents of partition 0, 7 and 8, with bytes `l` in memory. -/
def dmap2 (l : List (Nat × Byte)) : Dev :=
  { dv with mem := { MemState.reset with cells := l, bufs := [(bufKey 0 7, ⟨extentAddr 524288, [], false, 0, 0, []⟩), (bufKey 0 8, ⟨extentAddr 524289, [], false, 0, 0, []⟩)], exts := [(524288, 0), (524289, 0)] } }

/-- The device of the key set witness. -/
def djoin : Dev := { dmap2 [] with
  regs := ⟨[], [(partKey 0 0x0D0018, 1)], [], []⟩
  ops := [(9, ⟨.ring ⟨0, 0⟩ 0 0, 0, .other 0x0900 0xE00000 0 0, false⟩)] }

theorem keyRec_serial : leAt keyRec 0x30 8 = Config.serial.toNat := by
  have h : (keyRec.drop 0x30).take 8 = leBytes 8 Config.serial.toNat := by rfl
  rw [leAt, h, leNat_leBytes]
  exact Nat.mod_eq_of_lt Config.serial.isLt

theorem joinCheck_keyRec (x : Ctx) : djoin.joinCheck x 0 keyRec = none := by
  have h1 : ¬(keyRec.length < 0x78 ∨ leAt keyRec 0 4 ≠ 0x31544553 ∨ leAt keyRec 4 2 ≠ 1 ∨ leAt keyRec 8 8 = 0) := by decide +kernel
  have h2 : djoin.sec.debug = false := by rfl
  have h3 : bitAt (djoin.secPcfg 0) 0 = true := by decide +kernel
  have h4 : (keyRec.drop 0x38).take 64 = List.replicate 64 0 := by rfl
  have h5 : ((djoin.setsOf 0).any fun s => s.id == leAt keyRec 8 8 && s.key != (keyRec.drop 0x10).take 32) = false := by decide +kernel
  have h6 : (!djoin.holdsSet 0 (leAt keyRec 8 8) && (decide ((djoin.setsOf 0).length ≥ 4) || decide (djoin.sec.sets.length ≥ 32))) = false := by
    decide +kernel
  unfold Dev.joinCheck
  simp only [if_neg h1, keyRec_serial, h2, h3, h4, h5]
  simp [h6]

theorem joinCheck_of {d : Dev} {x : Ctx} (h : d = djoin) : d.joinCheck x 0 keyRec = none := h ▸ joinCheck_keyRec x

/-- A module that runs from bank 1, with DEV_FW_ACTIVATE started. -/
def fwS : State := { sc 0x0F32 [] { dv with boot := { dv.boot with bank := 1 } } with fuses := fz, store := flA }

theorem fwS_check (hd : ∀ b, Config.sha512 b = BitVec.allOnes 512) (hv : ∀ k m s, Config.rsaVerify k m s = true) {x : Ctx} {d : Dev}
    (hs : x.store = flA) (hf : x.fuses = fz) (hb : d.boot.bank = 1) : fwCheck x d = .ok (((x.store.seq d.boot.bank).getD 0 + 1) % 2 ^ 32) :=
  fwCheck_of (by rw [hs, hb]; decide +kernel) (by rw [hs, hf, hb]; exact firstFault_under hd hv flA_faults)

/-- A parked image's header for that model, of no entries. -/
def parkHead : List Byte := leBytes 4 0x3146505A ++ leBytes 2 1 ++ List.replicate 18 0 ++ leBytes 2 1 ++ leBytes 2 1 ++ leBytes 2 64 ++
  List.replicate 222 0 ++ leBytes 4 2362435718

/-- A device that receives that image into extent 7, with a NAND quota and a ready queue pair. -/
def dmove : Dev := withQp qp0 (withMdl md { dses { se .moving with move := some { Movement.new 4 0 false with qpn := 3, ident := 9, firstExt := 7, extCount := 1 } } with
  mem := { MemState.reset with cells := cells 0 (extentAddr 524288 + 0x1000) parkHead, bufs := [(bufKey 0 7, ⟨extentAddr 524288, [], false, 0, 0, []⟩)], exts := [(524288, 0)] }
  regs := ⟨[], [(devKey 0x040104, 0x7FFF), (devKey 0x040200, 0x100)], [], []⟩ })

theorem parkHead_ok : hdrOk parkHead (dmove.geoOf 1) = true := by
  have e : crc32c (parkHead.take 0xFC) = 2362435718#32 := by
    have h : (crcRun 0xFFFFFFFF#32 (parkHead.take 0xFC)).toNat = 0x73301779 := (crcForced_eq _ _).symm.trans (by decide +kernel)
    rw [crc32c, BitVec.eq_of_toNat_eq (y := 0x73301779#32) h]; rfl
  rw [hdrOk, e]
  decide +kernel

/-! Tests of the model against the spec's worked examples, and of what well-formed means. -/

/-- The check value of "123456789" that the example after R456 gives. -/
theorem test_crc32c_example : crc32c [0x31, 0x32, 0x33, 0x34, 0x35, 0x36, 0x37, 0x38, 0x39] = 0xE3069283#32 := by decide +kernel

/-- The same example through the unit's registers: PF 1 claims, writes INIT, CRC_IN32 twice and CRC_IN8 once. -/
theorem test_crc_unit_example :
    (({ CrcUnit.reset with value := 0 }).applyAll
      [(1, .ctrl false true false), (1, .ctrl false false true), (1, .data 4 0x34333231), (1, .data 4 0x38373635), (1, .data 1 0x39)]).value ^^^
        0xFFFFFFFF#32 = 0xE3069283#32 := by decide +kernel

/-- The 32 weights of the worked MXFP4 block of chapter 8, as FP32. -/
def exWeights : List Fv := ([0x3F4F5C29, 0xBECCCCCD, 0x3D4CCCCD, 0x3E428F5C, 0xBE851EB8, 0x3EA8F5C3, 0xBD8F5C29, 0x3F051EB8, 0x00000000, 0x3DF5C28F, 0xBF1C28F6,
    0x3E8F5C29, 0x3EE147AE, 0xBE19999A, 0x3DB851EC, 0xBEB851EC, 0x3E6B851F, 0xBD4CCCCD, 0x3F333333, 0xBEF5C28F, 0x3E0F5C29, 0x3E9EB852,
    0xBE6147AE, 0x3CA3D70A, 0xBF3D70A4, 0x3E2E147B, 0x3EC7AE14, 0xBDCCCCCD, 0x3F147AE1, 0xBE99999A, 0x3D75C28F, 0x3E800000] : List Word).map f32Val

/-- Its scale code and element codes. -/
theorem test_mxfp4_block_scale : (quantBlock 0x05 exWeights).scale = 0x7C := by decide +kernel
theorem test_mxfp4_block_codes : (quantBlock 0x05 exWeights).codes =
    [0x7, 0xD, 0x1, 0x3, 0xC, 0x5, 0x9, 0x6, 0x0, 0x2, 0xE, 0x4, 0x6, 0xA, 0x1, 0xD, 0x4, 0x9, 0x7, 0xE, 0x2, 0x4, 0xC, 0x0, 0xF, 0x3, 0x5, 0xA,
      0x6, 0xC, 0x1, 0x4] := by decide +kernel

/-- The activation block of that example, in MXFP8 E4M3. -/
def exActs : List Fv := (List.replicate 4 ([0x3E800000, 0xBE000000, 0x3EC00000, 0x3D800000, 0x3E000000, 0xBE800000, 0x3EA00000, 0x3DC00000] : List Word)).flatten.map f32Val
theorem test_mxfp8_block_scale : (quantBlock 0x01 exActs).scale = 0x75 := by decide +kernel
theorem test_mxfp8_block_codes :
    (quantBlock 0x01 exActs).codes.take 8 = [0x78, 0xF0, 0x7C, 0x68, 0x70, 0xF8, 0x7A, 0x6C] := by decide +kernel

/-- The PK3 example after R189: amax 0.91 has scale 0.26171875, -0.40 has code 2 and amax code 7. -/
def exPk3 : List Fv := ([0x3F68F5C3, 0xBECCCCCD] ++ List.replicate 30 0 : List Word).map f32Val
theorem test_pk3_scale : bf16Val (quantBlock 0x12 exPk3).scale = f32Val 0x3E860000 := by decide +kernel
theorem test_pk3_codes : (quantBlock 0x12 exPk3).codes.take 3 = [7, 2, 4] := by decide +kernel

/-- The stop string example after R282: string 1 is found at byte 0. -/
theorem test_stop_example :
    findStop [[0x3C, 0x2F, 0x74, 0x6F, 0x6F, 0x6C, 0x3E], [0xC2, 0xA7, 0xC2, 0xA7]] 0 [0xC2, 0xA7, 0xC2, 0xA7, 0x20, 0x6F, 0x6B] =
      some (0, 1) := by decide +kernel

/-- The index size example after R339: records of 1,024 bytes, 2,048,004,096 bytes in all. -/
def exIndex : PanIndex := ⟨0, 0, 0, 977, 768, 0x01, 0, 32, 64, 2000000, 64, 0, 0, 0, 0, 0, none, [], none⟩
theorem test_index_example : vecBytes exIndex.fmt exIndex.dims = 792 ∧ exIndex.rb = 1024 ∧ exIndex.bytes = 2048004096 := by decide +kernel

/-- No word spells a command, and on an empty queue a tick passes. -/
theorem test_no_word : decodeTableWord 64 0x1234 = none := rfl
theorem test_tick : step (st dv) = .next { st dv with clock := ⟨1250000001, 2000000001, true, true, 0⟩ } := rfl

/-! Each check of what well-formed means refuses a term. -/

/-- Functions are two ports with a PF and 16 VFs each. -/
theorem test_wf_function : fnOk ⟨1, 16⟩ = true ∧ fnOk ⟨2, 0⟩ = false ∧ fnOk ⟨0, 17⟩ = false ∧ (Instr.crcInit ⟨2, 0⟩).wf = false ∧
    (Instr.heartbeat ⟨0, 17⟩ 0).wf = false := by decide

/-- Packets are one to four slots long and come from a slot of a ring that exists. -/
theorem test_wf_packet : cmdOk ⟨.engine .culm, List.replicate 16 0⟩ = true ∧ cmdOk ⟨.engine .culm, List.replicate 17 0⟩ = false ∧
    cmdOk ⟨.engine .culm, []⟩ = false ∧ cmdOk ⟨.ring ⟨0, 0⟩ 16 0, List.replicate 16 0⟩ = false ∧
    cmdOk ⟨.ring ⟨0, 0⟩ 15 4096, List.replicate 16 0⟩ = false ∧ cmdOk ⟨.ring ⟨2, 0⟩ 0 0, List.replicate 16 0⟩ = false ∧
    (Instr.devNop ⟨.engine .culm, [0]⟩).wf = false := by decide

/-- Rings, ports and timers. -/
theorem test_wf_rings : (Instr.doorbell ⟨0, 0⟩ 16 0).wf = false ∧ (Instr.rqEnable ⟨0, 0⟩ 16 0).wf = false ∧
    (Instr.replyCoalesceTimeout ⟨0, 0⟩ 16).wf = true ∧ (Instr.replyCoalesceTimeout ⟨0, 0⟩ 17).wf = false ∧
    (Instr.pcieDlInactive 2).wf = false ∧ (Instr.timerFire 0 16).wf = false ∧ (Instr.timerFire 2 0).wf = false ∧
    (Instr.eventRecordDeliver 19).wf = false := by decide

/-- Causes, sensors, dies, stacks, regions, partitions, NAND dies, Ethernet ports, shaper nodes, buses and control cores. -/
theorem test_wf_units : (Instr.emergencyDetect 7).wf = false ∧ (Instr.sensorUpdate 11 0).wf = false ∧ (Instr.speedMeasure 2 0).wf = false ∧
    (Instr.stackTempSample 1 8 0).wf = false ∧ (Instr.regionSwitch 16 0).wf = false ∧ (Instr.regionSwitch 15 48).wf = false ∧
    (Instr.energySplit 17).wf = false ∧ (Instr.nandDieFailure 128).wf = false ∧ (Instr.garbageCollect 2).wf = false ∧
    (Instr.ethLinkChange 16 true).wf = false ∧ (Instr.pfcFrame 0 8 true).wf = false ∧ (Instr.shapedUnitStart 19 0 0 1).wf = false ∧
    (Instr.shapedUnitStart 0 17 0 1).wf = false ∧ (Instr.creditModeRecoverEnd 19).wf = false ∧ (Instr.getMeterCert 2).wf = false ∧
    (Instr.controlCoreFault 8).wf = false := by decide

/-- Near-bank units and their registers. -/
theorem test_wf_glume : (Instr.programStart 512).wf = false ∧ (Instr.glmAlu 0 .add 32 0 (.reg 0)).wf = false ∧
    (Instr.glmAlu 0 .add 0 32 (.reg 0)).wf = false ∧ (Instr.glmMul 0 true 0 0 32).wf = false ∧ (Instr.glmLi 0 32 0).wf = false ∧
    (Instr.glmBranch 0 .always 32 0 0).wf = false ∧ (Instr.glmLdSt 0 true 4 32 0 0).wf = false ∧
    (Instr.glmVldVst 0 true 16 0 0).wf = false ∧ (Instr.glmVectorArith 0 .add 0 16 (.reg 0)).wf = false ∧
    (Instr.glmVexp2 0 16 0).wf = false ∧ (Instr.glmVreduce 0 true 32 0).wf = false := by decide

/-- Cores and their registers. -/
theorem test_wf_core : (Instr.halt 256).wf = false ∧ (Instr.coreScalarAlu 0 none 32 0 (.reg 0)).wf = false ∧
    (Instr.coreLdSt 0 true 4 0 32 0).wf = false ∧ (Instr.wload 0 2 0).wf = false ∧ (Instr.mmul 0 0 2 0 0 0 0 true true).wf = false ∧
    (Instr.accout 0 2 0 0 0 0 none).wf = false ∧ (Instr.accz 0 2).wf = false ∧ (Instr.coreVldVst 0 true 32 0 0).wf = false ∧
    (Instr.vquant 0 0 (some 32) 0 0 none 0 0).wf = false ∧ (Instr.coreVectorArith 0 .add 32 0 (.reg 0)).wf = false ∧
    (Instr.vred 0 true 0 32).wf = false ∧ (Instr.coreSend 0 0 16 0 0).wf = false ∧ (Instr.messageDelivery 0 0 16).wf = false ∧
    (Instr.poll 0 32 true 0).wf = false := by decide

/-- The SHP table: flow profile 7 of domain 2 at 0x0270, with its reset values, and no register between the domains. -/
theorem test_shaper_profiles : (regAt 0x0A0270).isSome = true ∧ resetOf 0x0A0274 = 112000 ∧ resetOf 0x0A0278 = 256 ∧ (regAt 0x0A0080).isNone = true ∧
    (regAt 0x0A0280).isNone = true := by decide +kernel

/-- A state and operands that meet the hypotheses of each clause of PowerRowsTakeEffect. -/
theorem wit_powerRowsTakeEffect :
    (∃ (s : State) (mv : Nat), s.clock.power = false ∧ 44000 ≤ mv ∧ mv ≤ 60000 ∧ s.dev.power.pwrEn = true ∧ s.dev.power.latched = false) ∧
    (∃ (s : State), s.dev.power.pwrEn = true ∧ s.clock.power = true) ∧
    (∃ (s : State) (t0 : Nat), s.dev.power.pwrEn = false ∧ s.dev.power.enLowSince = some t0 ∧ t0 + 100 * ticksMs ≤ s.clock.wall) ∧
    (∃ (s : State) (mv : Nat) (s₀ : State), 66000 < mv ∧ s.clock.power = true ∧ s = s₀.reach (evKey 0 0 0)) ∧
    (∃ (s : State) (ma us : Nat) (s₀ : State), ((45000 < ma ∧ 1000 ≤ us) ∨ (60000 < ma ∧ 10 ≤ us)) ∧ s.clock.power = true ∧ s = s₀.reach (evKey 0 0
    0)) ∧
    (∃ (s : State) (cond : Nat) (s₀ : State), s.clock.power = true ∧ cond ≤ 6 ∧ bitAt s.dev.power.active cond = true ∧ s = s₀.reach (evKey 0 0 0)) :=
  ⟨⟨(off dv), 44000, by decide +kernel⟩,
   ⟨(st dv), by decide +kernel⟩,
   ⟨(off { dv with power := { dv.power with pwrEn := false, enLowSince := some 87500000 } }), 87500000, by decide +kernel⟩,
   ⟨_, 66001, (st dv), by decide +kernel, (by decide +kernel), rfl⟩,
   ⟨_, 45001, 1000, (st dv), by decide +kernel, (by decide +kernel), rfl⟩,
   ⟨_, 6, (st { dv with power := { dv.power with active := 64 } }), by decide +kernel, (by decide +kernel), by decide +kernel, rfl⟩⟩

/-- A state and operands that meet the hypotheses of each clause of ControlRowsTakeEffect. -/
theorem wit_controlRowsTakeEffect :
    (∃ (s : State) (a b : Nat), s.clock.power = true ∧ s.clock.now % 12500 = 0 ∧ s.dev.power.emergency = false ∧ s.dev.power.active = 0 ∧ max a b <
    110) ∧
    (∃ (s : State), s.clock.power = true ∧ s.clock.now % 12500 = 0 ∧ s.dev.power.emergency = true) ∧
    (∃ (s : State) (a b : Nat), s.clock.power = true ∧ s.clock.now % 12500 = 0 ∧ 110 ≤ max a b ∧ bitAt s.dev.power.active 0 = false) ∧
    (∃ (s : State) (cond : Nat) (s₀ : State), s.clock.power = true ∧ cond ≤ 6 ∧ bitAt s.dev.power.active cond = false ∧ s = s₀.reach (evKey 0 0 0)) ∧
    (∃ (s : State) (t0 : Nat), s.clock.power = true ∧ s.dev.power.emergency = true ∧ s.dev.power.active = 0 ∧ s.dev.power.emergSince = some t0 ∧ t0 +
    100 * ticksMs ≤ s.clock.now) ∧
    (∃ (s : State) (i f n : Nat) (s₀ : State), s.clock.power = true ∧ s = s₀.reach (evKey 9 0 0) ∧ s.dev.power.active = 0 ∧ i ≤ 52 ∧ 1200 ≤ f ∧ n ≤
    85) ∧
    (∃ (s : State) (i f n : Nat) (s₀ : State), s.clock.power = true ∧ s = s₀.reach (evKey 9 0 0) ∧ (52 < i ∨ f < 1200 ∨ 85 < n) ∧
    s.dev.power.active = 0) ∧
    (∃ (s : State) (n : Nat) (s₀ : State), s.clock.power = true ∧ n ≤ 10 ∧ s = s₀.reach (evKey 9 0 0)) ∧
    (∃ (s : State) (f : Fn) (w : Word) (s₀ : State), s.clock.power = true ∧ s.dev.isCtrl f = true ∧ 600 ≤ wfld w 10 0 ∧ wfld w 10 0 ≤ 1650 ∧ s =
    s₀.reach (pcieKey f.port)) ∧
    (∃ (s : State) (t0 t1 : Nat) (s₀ : State), s.clock.power = true ∧ s = s₀.reach (evKey 9 0 0) ∧ t0 ≤ t1 + 5 ∧ t1 ≤ t0 + 5 ∧ max t0 t1 < 110 ∧
    s.dev.power.active = 0 ∧ s.dev.power.tjB < 110) ∧
    (∃ (s : State) (t0 t1 : Nat) (s₀ : State), s.clock.power = true ∧ s = s₀.reach (evKey 9 0 0) ∧ t0 ≤ t1 + 5 ∧ t1 ≤ t0 + 5 ∧ max t0 t1 < 110 ∧
    s.dev.power.active = 0 ∧ s.dev.power.tjA < 110) ∧
    (∃ (s : State) (die f : Nat) (s₀ : State), s.clock.power = true ∧ die ≤ 1 ∧ 952 ≤ f ∧ f ≤ 0xFFFF ∧ s.clock.now % 125000 = 0 ∧ s = s₀.reach (evKey
    9 0 0)) :=
  ⟨⟨(st dv), 0, 109, by decide +kernel⟩,
   ⟨({ st { dv with power := { dv.power with emergency := true, emergSince := some 0 } } with clock := ⟨12500000, 0, true, true, 0⟩ }),
     by decide +kernel⟩,
   ⟨(st dv), 110, 0, by decide +kernel⟩,
   ⟨_, 6, (st dv), by decide +kernel, (by decide +kernel), by decide +kernel, rfl⟩,
   ⟨({ st { dv with power := { dv.power with emergency := true, emergSince := some 0 } } with clock := ⟨12500000, 0, true, true, 0⟩ }), 0,
     by decide +kernel⟩,
   ⟨_, 52, 1200, 85, (st dv), by decide +kernel, rfl, by decide +kernel⟩,
   ⟨_, 53, 1200, 85, (st dv), by decide +kernel, rfl, by decide +kernel⟩,
   ⟨_, 10, (st dv), by decide +kernel, (by decide +kernel), rfl⟩,
   ⟨_, ⟨0, 0⟩, 1650, (st dv), by decide +kernel, (by decide +kernel), by decide +kernel, (by decide +kernel), rfl⟩,
   ⟨_, 104, 109, (st dv), by decide +kernel, rfl, by decide +kernel⟩,
   ⟨_, 104, 109, (st dv), by decide +kernel, rfl, by decide +kernel⟩,
   ⟨_, 1, 952, (st dv), by decide +kernel, (by decide +kernel), by decide +kernel, (by decide +kernel), by decide +kernel, rfl⟩⟩

/-- A state and operands that meet the hypotheses of each clause of RingRowsTakeEffect. -/
theorem wit_ringRowsTakeEffect :
    (∃ (s : State) (f : Fn) (n : Nat) (w : Word) (s₀ : State), s.clock.power = true ∧ s.dev.fnLive f = true ∧ s.dev.writable = true ∧ n < 16 ∧
    (((s.dev.sq f.idx n).en = false ∨ wfld w 11 0 < 2 ^ (s.dev.sq f.idx n).size)) ∧ s = s₀.reach (pcieKey f.port)) ∧
    (∃ (s : State) (f : Fn) (n : Nat) (w : Word) (s₀ : State), s.clock.power = true ∧ s.dev.fnLive f = true ∧ s.dev.writable = true ∧ n < 16 ∧
    (s.dev.sq f.idx n).en = true ∧ (s.dev.sq f.idx n).state = 1 ∧ 2 ^ (s.dev.sq f.idx n).size ≤ wfld w 11 0 ∧ s = s₀.reach (pcieKey f.port)) ∧
    (∃ (s : State) (f : Fn) (n : Nat) (w : Word) (s₀ : State), s.clock.power = true ∧ s.dev.fnLive f = true ∧ s.dev.writable = true ∧ n < 16 ∧
    (s.dev.sq f.idx n).en = false ∧ bitAt w.toNat 31 = true ∧ (s.dev.sq f.idx n).base % 4096 = 0 ∧ 4 ≤ wfld w 3 0 ∧ wfld w 3 0 ≤ 12 ∧ (s.dev.rq f.idx
    (wfld w 23 20)).en = true ∧ s.dev.bindOk f = true ∧ s = s₀.reach (pcieKey f.port)) ∧
    (∃ (s : State) (f : Fn) (n : Nat) (w : Word) (s₀ : State), s.clock.power = true ∧ s.dev.fnLive f = true ∧ s.dev.writable = true ∧ n < 16 ∧
    (s.dev.rq f.idx n).en = false ∧ bitAt w.toNat 31 = true ∧ (s.dev.rq f.idx n).base % 4096 = 0 ∧ 4 ≤ wfld w 3 0 ∧ wfld w 3 0 ≤ 13 ∧ s.dev.bindOk
    f = true ∧ s = s₀.reach (pcieKey f.port)) ∧
    (∃ (s : State) (f : Fn) (n : Nat) (s₀ : State), s.clock.power = true ∧ s.dev.fnLive f = true ∧ s.dev.writable = true ∧ n < 16 ∧ s = s₀.reach
    (pcieKey f.port) ∧ ((∀ a ∈ s.dev.adopts, a.2.ring ≠ some (f.idx, n))) ∧ (s.dev.rq f.idx n).held = []) ∧
    (∃ (s : State) (f : Fn) (n : Nat) (w : Word) (s₀ : State) (e : Reply), s.clock.power = true ∧ s.dev.fnLive f = true ∧ s.dev.writable = true ∧ n <
    16 ∧ s = s₀.reach (pcieKey f.port) ∧ ((∀ a ∈ s.dev.adopts, a.2.ring ≠ some (f.idx, n))) ∧ (s.dev.rq f.idx n).en = true ∧ (s.dev.rq f.idx
    n).state = 1 ∧ (s.dev.port f.port).lost = false ∧ (s.dev.rq f.idx n).held = [e] ∧ ({ s.dev.rq f.idx n with head := wfld w 12 0 } : Rq).full =
    false) ∧
    (∃ (s : State) (f : Fn) (n : Nat) (words : List Word) (part : Option Nat) (s₀ : State), s.clock.power = true ∧ s.dev.fnLive f = true ∧
    s.dev.writable = true ∧ n < 16 ∧ s = s₀.reach (pcieKey f.port) ∧ s.dev.fetchable f n = true ∧ (s.dev.fetchStop.any fun e => e.1 == f.idx * 16 +
    n) = false ∧ wfld (words.getD 0 0) 31 24 = 1 ∧ words.length = 16 ∧ 1 ≤ ((s.dev.sq f.idx n).tail + 2 ^ (s.dev.sq f.idx n).size - (s.dev.sq f.idx
    n).head) % 2 ^ (s.dev.sq f.idx n).size ∧ part = cmdPart f (words.getD 0 0) (words.getD 1 0) ∧ s.dev.checkCmd f n (words.getD 0 0) (words.getD 1
    0) = none ∧ s.dev.atLimit f n part = false ∧ (s.dev.takeTurn (f.idx * 16 + n) (s.dev.fetchCost (f.idx * 16 + n) 1 part) 128).1 = true) ∧
    (∃ (s : State) (f : Fn) (n : Nat) (words : List Word) (part : Option Nat) (s₀ : State), s.clock.power = true ∧ s.dev.fnLive f = true ∧
    s.dev.writable = true ∧ n < 16 ∧ s = s₀.reach (pcieKey f.port) ∧ s.dev.fetchable f n = true ∧ (s.dev.fetchStop.any fun e => e.1 == f.idx * 16 +
    n) = false ∧ wfld (words.getD 0 0) 31 24 = 1 ∧ words.length = 16 ∧ 1 ≤ ((s.dev.sq f.idx n).tail + 2 ^ (s.dev.sq f.idx n).size - (s.dev.sq f.idx
    n).head) % 2 ^ (s.dev.sq f.idx n).size ∧ part = cmdPart f (words.getD 0 0) (words.getD 1 0) ∧ s.dev.checkCmd f n (words.getD 0 0) (words.getD 1
    0) = none ∧ s.dev.atLimit f n part = true) ∧
    (∃ (s : State) (f : Fn) (n : Nat) (st : Completion) (s₀ : State), s.clock.power = true ∧ s.dev.fnLive f = true ∧ s.dev.writable = true ∧ n < 16 ∧
    s.dev.fetchable f n = true ∧ (s.dev.fetchStop.any fun e => e.1 == f.idx * 16 + n) = false ∧ st ≠ .ok ∧ s = s₀.reach (pcieKey f.port)) ∧
    (∃ (s : State) (f : Fn) (n : Nat) (s₀ : State), s.clock.power = true ∧ s.dev.fnLive f = true ∧ s.dev.writable = true ∧ n < 16 ∧ f.idx * 16 + n ∈
    s.dev.resumable ∧ ((∀ j ∈ s.dev.resumable, (f.idx * 16 + n + 1024 - s.dev.arb.turn) % 1024 ≤ (j + 1024 - s.dev.arb.turn) % 1024)) ∧ s =
    s₀.follow) ∧
    (∃ (s : State) (f : Fn) (n : Nat) (t0 : Nat) (s₀ : State), s.clock.power = true ∧ s.dev.fnLive f = true ∧ s.dev.writable = true ∧ n < 16 ∧
    (s.dev.rq f.idx n).en = true ∧ (s.dev.port f.port).lost = false ∧ (s.dev.rq f.idx n).coalTime ≠ 0 ∧ (s.dev.rq f.idx n).coalCount ≠ 0 ∧ (s.dev.rq
    f.idx n).firstUnsig = some t0 ∧ t0 + (s.dev.rq f.idx n).coalTime * 128 ≤ s.clock.now ∧ s = s₀.reach (evKey 8 0 (source 1 0))) :=
  ⟨⟨_, ⟨0, 0⟩, 15, 0, (st dv), by decide +kernel, (by decide +kernel), by decide +kernel, (by decide +kernel), by decide +kernel, rfl⟩,
   ⟨_, ⟨0, 0⟩, 0, 16, (st { dv with sqs := [(0, ⟨0, true, 0, 4, 0, 0, 1, 0, 0⟩)] }), by decide +kernel, (by decide +kernel), by decide +kernel,
     (by decide +kernel), by decide +kernel, (by decide +kernel), by decide +kernel, rfl⟩,
   ⟨_, ⟨0, 0⟩, 15, 0x8000000C, (st { dv with rqs := [(0, { Rq.reset with en := true, size := 13 })] }), by decide +kernel, (by decide +kernel),
     by decide +kernel, (by decide +kernel), by decide +kernel, (by decide +kernel), by decide +kernel, (by decide +kernel), by decide +kernel,
     (by decide +kernel), by decide +kernel, rfl⟩,
   ⟨_, ⟨0, 0⟩, 15, 0x8000000D, (st dv), by decide +kernel, (by decide +kernel), by decide +kernel, (by decide +kernel), by decide +kernel,
     (by decide +kernel), by decide +kernel, (by decide +kernel), by decide +kernel, (by decide +kernel), rfl⟩,
   ⟨_, ⟨0, 0⟩, 0, (st { dv with rqs := [(0, { Rq.reset with en := true, size := 4, state := 1 })] }), by decide +kernel, (by decide +kernel),
     by decide +kernel, (by decide +kernel), rfl, by decide +kernel⟩,
   ⟨_, ⟨0, 0⟩, 0, 15, (st
     { dv with rqs := [(0, { Rq.reset with en := true, size := 4, state := 1, head := 1, held := [⟨.ok, 0, false, 0, 0, 0, [0, 0, 0, 0], false, 0, 0⟩] })] }),
     ⟨.ok, 0, false, 0, 0, 0, [0, 0, 0, 0], false, 0, 0⟩, by decide +kernel, (by decide +kernel), by decide +kernel, (by decide +kernel), rfl,
     by decide +kernel⟩,
   ⟨_, ⟨0, 0⟩, 0, (0x01000F00 :: List.replicate 15 0), _, (st
     { dv with sqs := [(0, ⟨0, true, 0, 4, 1, 0, 1, 0, 0⟩)], rqs := [(0, { Rq.reset with en := true, size := 4, state := 1 })] }), by decide +kernel,
     (by decide +kernel), by decide +kernel, (by decide +kernel), rfl, (by decide +kernel), by decide +kernel, (by decide +kernel),
     by decide +kernel, (by decide +kernel), rfl, by decide +kernel⟩,
   ⟨_, ⟨0, 0⟩, 0, (0x01000F00 :: 1 :: List.replicate 14 0), _, (st
     { dv with sqs := [(0, ⟨0, true, 0, 4, 1, 0, 1, 0, 0⟩)], rqs := [(0, { Rq.reset with en := true, size := 4, state := 1 })], cmds := List.replicate 4096 (rc 0x0F00 []) }),
     by decide +kernel, (by decide +kernel), by decide +kernel, (by decide +kernel), rfl, (by decide +kernel), by decide +kernel,
     (by decide +kernel), by decide +kernel, (by decide +kernel), rfl, by decide +kernel⟩,
   ⟨_, ⟨0, 0⟩, 0, .unsupported, (st
     { dv with sqs := [(0, ⟨0, true, 0, 4, 1, 0, 1, 0, 0⟩)], rqs := [(0, { Rq.reset with en := true, size := 4, state := 1 })] }), by decide +kernel,
     (by decide +kernel), by decide +kernel, (by decide +kernel), by decide +kernel, (by decide +kernel), by decide +kernel, rfl⟩,
   ⟨_, ⟨0, 0⟩, 0, (st { dv with fetchStop := [(0, none)] }), by decide +kernel, (by decide +kernel), by decide +kernel, (by decide +kernel),
     by decide +kernel, (by decide +kernel), rfl⟩,
   ⟨_, ⟨0, 0⟩, 0, 1249999872, (st
     { dv with rqs := [(0, { Rq.reset with en := true, size := 4, coalTime := 1, coalCount := 2, firstUnsig := some 1249999872 })] }),
     by decide +kernel, (by decide +kernel), by decide +kernel, (by decide +kernel), by decide +kernel, (by decide +kernel), by decide +kernel,
     (by decide +kernel), by decide +kernel, (by decide +kernel), rfl⟩⟩

/-- A state and operands that meet the hypotheses of each clause of FencedCommandStarts. -/
theorem wit_fencedCommandStarts :
    (∃ (s : State) (c : Cmd) (r : CmdRec) (s₀ : State), s.clock.power = true ∧ s.dev.cmds.find? (fun e => e.cmd == c && e.phase == .held) = some r ∧
    ((∀ e ∈ s.dev.cmds, e.fn = r.fn → e.sq = r.sq → e = r)) ∧ (s.dev.cmds.map CmdRec.seq).Nodup ∧ s = s₀.follow) :=
  ⟨_, (rq 0x0F00 []), ({ rc 0x0F00 [] with phase := .held, fence := true }), (st
     { dv with cmds := [{ rc 0x0F00 [] with phase := .held, fence := true }] }), by decide +kernel, (by decide +kernel), by decide +kernel,
     (by decide +kernel), rfl⟩

/-- A state and operands that meet the hypotheses of each clause of PortRowsTakeEffect. -/
theorem wit_portRowsTakeEffect :
    (∃ (s : State) (port : Nat) (s₀ : State), s.clock.power = true ∧ port < 2 ∧ 2 ≤ s.dev.boot.stage ∧ s = s₀.reach (pcieKey port)) ∧
    (∃ (s : State) (port : Nat) (f : Fn) (s₀ : State), s.clock.power = true ∧ port < 2 ∧ s.dev.fnLive f = true ∧ s = s₀.reach (evKey 2 0 0)) ∧
    (∃ (s : State) (port : Nat) (s₀ : State), s.clock.power = true ∧ port < 2 ∧ (s.dev.port port).linkUp = true ∧ s = s₀.reach (pcieKey port)) ∧
    (∃ (s : State) (port : Nat) (s₀ : State), s.clock.power = true ∧ port < 2 ∧ (s.dev.port port).linkDue s.clock.now = true ∧ s = s₀.reach (evKey 8
    0 (source 1 0))) ∧
    (∃ (s : State) (port : Nat) (s₀ : State), s.clock.power = true ∧ port < 2 ∧ (s.dev.port port).hbDue s.clock.now = true ∧ s = s₀.reach (evKey 8 0
    (source 1 0))) ∧
    (∃ (s : State) (port : Nat) (s₀ : State), s.clock.power = true ∧ port < 2 ∧ (s.dev.port port).training = true ∧ (s.dev.port port).lost = true ∧
    (s.dev.port port).hbPeriod = 0 ∧ s = s₀.reach (pcieKey port)) ∧
    (∃ (s : State) (port : Nat) (w : Word) (s₀ : State), s.clock.power = true ∧ port < 2 ∧ s.dev.writable = true ∧ (s.dev.port port).lost = false ∧
    wfld w 9 0 = 0 ∧ s = s₀.reach (pcieKey port)) ∧
    (∃ (s : State) (port : Nat) (w : Word) (s₀ : State), s.clock.power = true ∧ port < 2 ∧ s.dev.writable = true ∧ (s.dev.port port).lost = false ∧
    wfld w 9 0 ≠ 0 ∧ s = s₀.reach (pcieKey port)) ∧
    (∃ (s : State) (port : Nat) (n : Nat) (s₀ : State), s.clock.power = true ∧ port < 2 ∧ s.dev.cfgSpace = true ∧ (s.dev.port port).vfEnable =
    false ∧ n ≤ 16 ∧ s = s₀.reach (pcieKey port)) :=
  ⟨⟨_, 1, (st dv), by decide +kernel, (by decide +kernel), by decide +kernel, rfl⟩,
   ⟨_, 1, ⟨0, 0⟩, (st dv), by decide +kernel, (by decide +kernel), by decide +kernel, rfl⟩,
   ⟨_, 0, (st dv), by decide +kernel, (by decide +kernel), by decide +kernel, rfl⟩,
   ⟨_, 1, (st { dv with ports := [(1, { PciePort.reset with downSince := some 1248750000, hbPeriod := 1, hbLast := some 1249750000 })] }),
     by decide +kernel, (by decide +kernel), by decide +kernel, rfl⟩,
   ⟨_, 1, (st { dv with ports := [(1, { PciePort.reset with downSince := some 1248750000, hbPeriod := 1, hbLast := some 1249750000 })] }),
     by decide +kernel, (by decide +kernel), by decide +kernel, rfl⟩,
   ⟨_, 1, (st { dv with ports := [(1, { PciePort.reset with training := true, lost := true })] }), by decide +kernel, (by decide +kernel),
     by decide +kernel, (by decide +kernel), by decide +kernel, rfl⟩,
   ⟨_, 1, 0, (st dv), by decide +kernel, (by decide +kernel), by decide +kernel, (by decide +kernel), by decide +kernel, rfl⟩,
   ⟨_, 1, 1, (st dv), by decide +kernel, (by decide +kernel), by decide +kernel, (by decide +kernel), by decide +kernel, rfl⟩,
   ⟨_, 1, 16, (st dv), by decide +kernel, (by decide +kernel), by decide +kernel, (by decide +kernel), by decide +kernel, rfl⟩⟩

/-- A state and operands that meet the hypotheses of each clause of HostLossTakesEffect. -/
theorem wit_hostLossTakesEffect :
    (∃ (s : State) (port : Nat) (s₀ : State), s.clock.power = true ∧ port < 2 ∧ (s.dev.port port).linkDue s.clock.now = true ∧ s = s₀.reach (evKey 8
    0 (source 1 0))) :=
  ⟨_, 1, (st { dv with ports := [(1, { PciePort.reset with downSince := some 1248750000, hbPeriod := 1, hbLast := some 1249750000 })] }),
     by decide +kernel, (by decide +kernel), by decide +kernel, rfl⟩

/-- A state and operands that meet the hypotheses of each clause of DeviceCommandsComplete. -/
theorem wit_deviceCommandsComplete :
    (∃ (s₀ s : State) (c : Cmd) (r : CmdRec), s = s₀.reach (cmdKey c) ∧ Started 0x0F00 c r s ∧ (reqOf c r).clean [] = true) ∧
    (∃ (s₀ s : State) (c : Cmd) (r : CmdRec), s = s₀.reach (cmdKey c) ∧ Started 0x0F01 c r s ∧ (reqOf c r).clean [] = true) ∧
    (∃ (s₀ s : State) (c : Cmd) (r : CmdRec), s = s₀.reach (cmdKey c) ∧ Started 0x0F24 c r s ∧ (reqOf c r).clean [] = true) ∧
    (∃ (s₀ s : State) (c : Cmd) (r : CmdRec) (v : CmdRec), s = s₀.reach (cmdKey c) ∧ Started 0x0F02 c r s ∧ (reqOf c r).clean [(2, 0xFFFFF)] = true ∧
    s.dev.cmds.find? (fun e => some e.fn == some r.fn && e.sq == (reqOf c r).f 2 19 16 && e.tag == (reqOf c r).f 2 15 0 && e.seq != r.seq) = some v ∧
    v.phase = .held) ∧
    (∃ (s₀ s : State) (c : Cmd) (r : CmdRec), s = s₀.reach (cmdKey c) ∧ Started 0x0F20 c r s ∧ (reqOf c r).clean [(2, 1)] = true) ∧
    (∃ (s₀ s : State) (c : Cmd) (r : CmdRec), s = s₀.reach (cmdKey c) ∧ Started 0x0F21 c r s ∧ (reqOf c r).clean [(2, 0x10F)] = true ∧ s.dev.host
    ((reqOf c r).f 2 3 0) = .unbound) ∧
    (∃ (s₀ s : State) (c : Cmd) (r : CmdRec), s = s₀.reach (cmdKey c) ∧ Started 0x0F22 c r s ∧ (reqOf c r).clean [(2, 0xF)] = true ∧ s.dev.boundTo
    ((reqOf c r).f 2 3 0) r.fn.port = true) ∧
    (∃ (s₀ s : State) (c : Cmd) (r : CmdRec), s = s₀.reach (cmdKey c) ∧ Started 0x0F23 c r s ∧ (reqOf c r).clean [(2, 0xF)] = true ∧ ((s.dev.host
    ((reqOf c r).f 2 3 0) = .orphaned 0 ∨ s.dev.host ((reqOf c r).f 2 3 0) = .orphaned 1 ∨ s.dev.host ((reqOf c r).f 2 3 0) = .released 0 ∨
    s.dev.host ((reqOf c r).f 2 3 0) = .released 1)) ∧ (s.dev.port r.fn.port).vfEnable = true ∧ (reqOf c r).f 2 3 0 + 1 ≤ (s.dev.port
    r.fn.port).numVfs) :=
  ⟨⟨(sc 0x0F00 [] dv), _, (rq 0x0F00 []), (rc 0x0F00 []), rfl, by unfold Started; decide +kernel⟩,
   ⟨(sc 0x0F01 [] dv), _, (rq 0x0F01 []), (rc 0x0F01 []), rfl, by unfold Started; decide +kernel⟩,
   ⟨(sc 0x0F24 [] dv), _, (rq 0x0F24 []), (rc 0x0F24 []), rfl, by unfold Started; decide +kernel⟩,
   ⟨(st { dv with cmds := [rc 0x0F02 [0xFFFFF], { rc 0x0F00 [] with seq := 2, tag := 65535, sq := 15, phase := .held }] }), _, (rq 0x0F02
     [0xFFFFF]), (rc 0x0F02 [0xFFFFF]), ({ rc 0x0F00 [] with seq := 2, tag := 65535, sq := 15, phase := .held }), rfl,
     by unfold Started; decide +kernel⟩,
   ⟨(sc 0x0F20 [1] dv), _, (rq 0x0F20 [1]), (rc 0x0F20 [1]), rfl, by unfold Started; decide +kernel⟩,
   ⟨(sc 0x0F21 [0x10F] dv), _, (rq 0x0F21 [0x10F]), (rc 0x0F21 [0x10F]), rfl, by unfold Started; decide +kernel⟩,
   ⟨(sc 0x0F22 [0] dv), _, (rq 0x0F22 [0]), (rc 0x0F22 [0]), rfl, by unfold Started; decide +kernel⟩,
   ⟨(sc 0x0F23 [0xF] ({ dv with parts := [(15, .orphaned 1)] })), _, (rq 0x0F23 [0xF]), (rc 0x0F23 [0xF]), rfl, by unfold Started; decide +kernel⟩⟩

/-- A state and operands that meet the hypotheses of each clause of ConfigCommandsComplete. -/
theorem wit_configCommandsComplete :
    (∃ (s₀ s : State) (c : Cmd) (r : CmdRec) (sc at_ : Nat), s = s₀.reach (cmdKey c) ∧ Started 0x0F10 c r s ∧ (reqOf c r).clean [(2, 0x3FFFF), (3,
    0x1F), (4, top32), (5, top32)] = true ∧ sc = commitScope r.fn (bitAt ((reqOf c r).w 3).toNat 4) ((reqOf c r).f 3 3 0) ∧ at_ = (if (reqOf c r).d2
    4 = 0 then s.clock.now + 16 else (reqOf c r).d2 4) ∧ s.dev.commitCheck s.clock.now r.fn ((reqOf c r).f 2 17 0) sc ((reqOf c r).d2 4) = none ∧
    s.dev.firstErr sc ((reqOf c r).f 2 17 0) at_ (List.range 18) = none) ∧
    (∃ (s₀ s : State) (c : Cmd) (r : CmdRec), s = s₀.reach (cmdKey c) ∧ Started 0x0F11 c r s ∧ (reqOf c r).clean [(2, 0xFFFF)] = true ∧
    (s.dev.commits.any fun k => k.id == (reqOf c r).f 2 15 0 && k.fn == r.fn) = true) ∧
    (∃ (s₀ s : State) (c : Cmd) (r : CmdRec) (sc : Nat), s = s₀.reach (cmdKey c) ∧ Started 0x0F12 c r s ∧ (reqOf c r).clean [(2, 0x3FFFF), (3,
    0x1F)] = true ∧ sc = commitScope r.fn (bitAt ((reqOf c r).w 3).toNat 4) ((reqOf c r).f 3 3 0) ∧ maskOk ((reqOf c r).f 2 17 0) = true ∧
    s.dev.scopeOk r.fn sc = true ∧ s.dev.maskBusy sc ((reqOf c r).f 2 17 0) = false) :=
  ⟨⟨(sc 0x0F10 [0x80, 0x10, 0, 0] dv), _, (rq 0x0F10 [0x80, 0x10, 0, 0]), (rc 0x0F10 [0x80, 0x10, 0, 0]), 16, 1250000016, rfl,
     by unfold Started; decide +kernel⟩,
   ⟨(sc 0x0F11 [1] ({ dv with commits := [⟨1, ⟨0, 0⟩, 16, 2, 1250000016⟩] })), _, (rq 0x0F11 [1]), (rc 0x0F11 [1]), rfl,
     by unfold Started; decide +kernel⟩,
   ⟨(sc 0x0F12 [0x80, 0] dv), _, (rq 0x0F12 [0x80, 0]), (rc 0x0F12 [0x80, 0]), 0, rfl, by unfold Started; decide +kernel⟩⟩

/-- A state and operands that meet the hypotheses of each clause of ConfigRowsTakeEffect. -/
theorem wit_configRowsTakeEffect :
    (∃ (s : State) (f : Fn) (w : Word) (k : CfgFn) (sc at_ : Nat) (s₀ : State), s.clock.power = true ∧ s.dev.fnLive f = true ∧ s.dev.writable =
    true ∧ bitAt w.toNat 5 = true ∧ k = (s.dev.cfgOf f).ctrl f w ∧ sc = commitScope f k.device k.part ∧ at_ = (if dw k.tickLo k.tickHi = 0 then
    s.clock.now + 16 else dw k.tickLo k.tickHi) ∧ (s.dev.setCfg f k).commitCheck s.clock.now f k.mask sc (dw k.tickLo k.tickHi) = none ∧
    (s.dev.setCfg f k).firstErr sc k.mask at_ (List.range 18) = none ∧ s = s₀.reach (pcieKey f.port)) ∧
    (∃ (s : State) (f : Fn) (w : Word) (s₀ : State), s.clock.power = true ∧ s.dev.fnLive f = true ∧ s.dev.writable = true ∧ bitAt w.toNat 6 = true ∧
    (s.dev.commits.any fun e => e.id == (s.dev.cfgOf f).id && e.fn == f) = true ∧ s = s₀.reach (pcieKey f.port)) ∧
    (∃ (s : State) (f : Fn) (w : Word) (k : CfgFn) (sc : Nat) (s₀ : State), s.clock.power = true ∧ s.dev.fnLive f = true ∧ s.dev.writable = true ∧
    bitAt w.toNat 7 = true ∧ k = (s.dev.cfgOf f).ctrl f w ∧ sc = commitScope f k.device k.part ∧ maskOk k.mask = true ∧ s.dev.scopeOk f sc = true ∧
    s.dev.maskBusy sc k.mask = false ∧ s = s₀.reach (pcieKey f.port)) ∧
    (∃ (s : State) (f : Fn) (id : Nat) (c : Commit) (s₀ : State), s.clock.power = true ∧ s.dev.fnLive f = true ∧ s.dev.writable = true ∧
    s.dev.commits.find? (fun e => e.id == id) = some c ∧ c.tick ≤ s.clock.now ∧ s = s₀.reach (evKey 3 0 0)) :=
  ⟨⟨_, ⟨0, 0⟩, 0x30, ((({ dv with cfg := [(0, { CfgFn.reset with mask := 0x80, id := 1 })] }).cfgOf ⟨0, 0⟩).ctrl ⟨0, 0⟩ 0x30), 16, 1250000016, (st
     { dv with cfg := [(0, { CfgFn.reset with mask := 0x80, id := 1 })] }), by decide +kernel, (by decide +kernel), by decide +kernel,
     (by decide +kernel), by decide +kernel, (by decide +kernel), by decide +kernel, (by decide +kernel), by decide +kernel, rfl⟩,
   ⟨_, ⟨0, 0⟩, 0x40, (st { dv with cfg := [(0, { CfgFn.reset with mask := 0x80, id := 1 })], commits := [⟨1, ⟨0, 0⟩, 16, 2, 1250000016⟩] }),
     by decide +kernel, (by decide +kernel), by decide +kernel, (by decide +kernel), by decide +kernel, rfl⟩,
   ⟨_, ⟨0, 0⟩, 0x80, ((({ dv with cfg := [(0, { CfgFn.reset with mask := 0x80, id := 1 })] }).cfgOf ⟨0, 0⟩).ctrl ⟨0, 0⟩ 0x80), 0, (st
     { dv with cfg := [(0, { CfgFn.reset with mask := 0x80, id := 1 })] }), by decide +kernel, (by decide +kernel), by decide +kernel,
     (by decide +kernel), by decide +kernel, (by decide +kernel), by decide +kernel, (by decide +kernel), by decide +kernel, rfl⟩,
   ⟨_, ⟨0, 0⟩, 1, ⟨1, ⟨0, 0⟩, 16, 2, 1250000000⟩, (st { dv with commits := [⟨1, ⟨0, 0⟩, 16, 2, 1250000000⟩] }), by decide +kernel,
     (by decide +kernel), by decide +kernel, (by decide +kernel), by decide +kernel, rfl⟩⟩

/-- A state and operands that meet the hypotheses of each clause of TimeAndRegisterRowsTakeEffect. -/
theorem wit_timeAndRegisterRowsTakeEffect :
    (∃ (s : State) (port n : Nat) (k : Timer) (s₀ : State), s.clock.power = true ∧ port < 2 ∧ n < 16 ∧ tget s.dev.timers (port * 16 + n) = some k ∧
    k.en = true ∧ k.cmp = s.clock.now % 2 ^ 64 ∧ k.last ≠ some s.clock.now ∧ s = s₀.reach (evKey 8 0 (source 17 (16 + n)))) ∧
    (∃ (s : State) (f : Fn) (off b k : Nat) (r : RegDesc × Nat) (s₀ : State), s.clock.power = true ∧ s.dev.fnLive f = true ∧ s.dev.boot.state = 6 ∧
    off % 4 = 0 ∧ regAt off = some r ∧ b = off / 0x10000 ∧ ((b = 4 ∨ b = 8 ∨ b = 9 ∨ b = 11 ∨ b = 12 ∨ b = 13)) ∧ r.1.mask .rc ≠ 0 ∧ ((f.num = 0 ∨
    r.1.vf = true)) ∧ regKeyOf r.1 (s.dev.viewPart f) off = some k ∧ latchOf off = none ∧ s = s₀.reach (pcieKey f.port)) ∧
    (∃ (s : State) (f : Fn) (off : Nat) (s₀ : State), s.clock.power = true ∧ s.dev.fnLive f = true ∧ off % 4 ≠ 0 ∧ s = s₀.reach (pcieKey f.port)) ∧
    (∃ (s : State) (f : Fn) (off b k sc : Nat) (r : RegDesc × Nat) (s₀ : State), s.clock.power = true ∧ s.dev.fnLive f = true ∧ s.dev.writable =
    true ∧ off % 4 = 0 ∧ regAt off = some r ∧ b = off / 0x10000 ∧ ((b = 3 ∨ b = 4 ∨ b = 5 ∨ b = 8 ∨ b = 9 ∨ b = 11 ∨ b = 12 ∨ b = 13)) ∧ r.1.mask
    .sh ≠ 0 ∧ ((f.num = 0 ∨ r.1.vf = true)) ∧ regScopeKey r.1 (s.dev.viewPart f) = some sc ∧ regKeyOf r.1 (s.dev.viewPart f) off = some k ∧
    s.dev.sliceBusy sc b = false ∧ s = s₀.reach (pcieKey f.port)) :=
  ⟨⟨_, 1, 15, ⟨1250000000, 0, false, true, none⟩, (st { dv with timers := [(31, ⟨1250000000, 0, false, true, none⟩)] }), by decide +kernel,
     (by decide +kernel), by decide +kernel, (by decide +kernel), by decide +kernel, (by decide +kernel), by decide +kernel, rfl⟩,
   ⟨_, ⟨0, 0⟩, 0x09012C, 9, (devKey 0x09012C), ((regAt 0x09012C).getD (⟨"", 0, 0, 0, false, .dev, []⟩, 0)), (st dv), by decide +kernel,
     (by decide +kernel), by decide +kernel, (by decide +kernel), by decide +kernel, (by decide +kernel), by decide +kernel, (by decide +kernel),
     by decide +kernel, (by decide +kernel), by decide +kernel, rfl⟩,
   ⟨_, ⟨0, 0⟩, 2, (st dv), by decide +kernel, (by decide +kernel), by decide +kernel, rfl⟩,
   ⟨_, ⟨0, 0⟩, 0x030000, 3, (partKey 0 0x030000), 0, ((regAt 0x030000).getD (⟨"", 0, 0, 0, false, .dev, []⟩, 0)), (st dv), by decide +kernel,
     (by decide +kernel), by decide +kernel, (by decide +kernel), by decide +kernel, (by decide +kernel), by decide +kernel, (by decide +kernel),
     by decide +kernel, (by decide +kernel), by decide +kernel, (by decide +kernel), rfl⟩⟩

/-- A state and operands that meet the hypotheses of each clause of CheckValueUnitRowsTakeEffect. -/
theorem wit_checkValueUnitRowsTakeEffect :
    (∃ (s : State) (f : Fn) (s₀ : State), s.clock.power = true ∧ f.num = 0 ∧ s.dev.fnLive f = true ∧ s.dev.writable = true ∧ s.dev.crc.meter =
    false ∧ s.dev.crc.owner = 0 ∧ s = s₀.reach (pcieKey f.port)) ∧
    (∃ (s : State) (f : Fn) (s₀ : State), s.clock.power = true ∧ f.num = 0 ∧ s.dev.fnLive f = true ∧ s.dev.writable = true ∧ s.dev.crc.meter =
    false ∧ s.dev.crc.owner = 2 + f.port ∧ s = s₀.reach (pcieKey f.port)) ∧
    (∃ (s : State) (f : Fn) (s₀ : State), s.clock.power = true ∧ f.num = 0 ∧ s.dev.fnLive f = true ∧ s.dev.writable = true ∧ s.dev.crc.meter =
    false ∧ s.dev.crc.owner ≠ 2 + f.port ∧ s = s₀.reach (pcieKey f.port)) ∧
    (∃ (s : State) (f : Fn) (s₀ : State), s.clock.power = true ∧ f.num = 0 ∧ s.dev.fnLive f = true ∧ s.dev.writable = true ∧ s.dev.crc.meter = true ∧
    s = s₀.reach (pcieKey f.port)) :=
  ⟨⟨_, ⟨0, 0⟩, (st dv), by decide +kernel, (by decide +kernel), by decide +kernel, (by decide +kernel), by decide +kernel, (by decide +kernel),
     rfl⟩,
   ⟨_, ⟨0, 0⟩, (st { dv with crc := { dv.crc with owner := 2 } }), by decide +kernel, (by decide +kernel), by decide +kernel, (by decide +kernel),
     by decide +kernel, (by decide +kernel), rfl⟩,
   ⟨_, ⟨0, 0⟩, (st dv), by decide +kernel, (by decide +kernel), by decide +kernel, (by decide +kernel), by decide +kernel, (by decide +kernel),
     rfl⟩,
   ⟨_, ⟨0, 0⟩, (st { dv with crc := { dv.crc with meter := true } }), by decide +kernel, (by decide +kernel), by decide +kernel,
     (by decide +kernel), by decide +kernel, rfl⟩⟩

/-- A state and operands that meet the hypotheses of each clause of StartupStagesEnd.
The hash and the signature check of Config have no body (log entry 6), so that the witness takes an equation for what it uses of them. -/
theorem wit_startupStagesEnd (hd : ∀ b, Config.sha512 b = BitVec.allOnes 512) (hv : ∀ k m s, Config.rsaVerify k m s = true) :
    (∃ (s : State), s.clock.power = true ∧ s.dev.boot.stage = 1) ∧
    (∃ (s : State), s.clock.power = true ∧ s.dev.boot.stage = 2 ∧ s.fuses.bad = none) ∧
    (∃ (s : State), s.clock.power = true ∧ s.dev.boot.stage = 3 ∧ s.store.valid s.fuses s.store.preferred = true) ∧
    (∃ (s : State), s.clock.power = true ∧ s.dev.boot.stage = 5) ∧
    (∃ (s : State), s.clock.power = true ∧ s.dev.boot.stage = 6) ∧
    (∃ (s : State), s.clock.power = true ∧ s.dev.boot.stage = 7) :=
  ⟨⟨(st { dv with boot := { Boot.reset with stage := 1 } }), by decide +kernel⟩,
   ⟨(st { dv with boot := { Boot.reset with stage := 2 } }), by decide +kernel⟩,
   ⟨(sfl flA dv3), by decide +kernel, (by decide +kernel),
     (by rw [show (sfl flA dv3).store.preferred = 0 from flA_preferred]; exact flA_valid hd hv)⟩,
   ⟨(st { dv with boot := { Boot.reset with stage := 5 } }), by decide +kernel⟩,
   ⟨(st { dv with boot := { Boot.reset with stage := 6 } }), by decide +kernel⟩,
   ⟨(st { dv with boot := { Boot.reset with stage := 7 } }), by decide +kernel⟩⟩

/-- A state and operands that meet the hypotheses of each clause of ResetRowsTakeEffect. -/
theorem wit_resetRowsTakeEffect :
    (∃ (s₀ s : State) (c : Cmd) (r : CmdRec), s = s₀.reach (cmdKey c) ∧ Started 0x0F30 c r s ∧ (reqOf c r).clean [(2, 7)] = true ∧ 1 ≤ (reqOf c r).f
    2 2 0 ∧ (reqOf c r).f 2 2 0 ≤ 3 ∧ s.dev.halted = false) ∧
    (∃ (s : State) (f : Fn) (w : Word) (s₀ : State), s.clock.power = true ∧ s.dev.isCtrl f = true ∧ wfld w 31 24 = 0xA5 ∧ 1 ≤ wfld w 2 0 ∧ wfld w 2 0
    ≤ 3 ∧ s.dev.halted = false ∧ s = s₀.reach (pcieKey f.port)) ∧
    (∃ (s : State) (src : Nat) (s₀ : State), s.clock.power = true ∧ s.dev.resetDue s.clock.now s.clock.tick 1 = some src ∧ s = s₀.reach (evKey 2 0
    0)) ∧
    (∃ (s : State) (src : Nat) (s₀ : State), s.clock.power = true ∧ s.dev.resetDue s.clock.now s.clock.tick 2 = some src ∧ s = s₀.reach (evKey 2 0
    0)) ∧
    (∃ (s : State) (src : Nat) (s₀ : State), s.clock.power = true ∧ s.dev.resetDue s.clock.now s.clock.tick 3 = some src ∧ s = s₀.reach (evKey 2 0
    0)) :=
  ⟨⟨(sc 0x0F30 [3] dv), _, (rq 0x0F30 [3]), (rc 0x0F30 [3]), rfl, by unfold Started; decide +kernel⟩,
   ⟨_, ⟨0, 0⟩, 0xA5000003, (st dv), by decide +kernel, (by decide +kernel), by decide +kernel, (by decide +kernel), by decide +kernel,
     (by decide +kernel), rfl⟩,
   ⟨_, 2, (st { dv with boot := { dv.boot with resets := [(6, 1250000000)] } }), by decide +kernel, (by decide +kernel), rfl⟩,
   ⟨_, 2, (st { dv with boot := { dv.boot with resets := [(10, 1250000000)] } }), by decide +kernel, (by decide +kernel), rfl⟩,
   ⟨_, 2, (st { dv with boot := { dv.boot with resets := [(14, 1250000000)] } }), by decide +kernel, (by decide +kernel), rfl⟩⟩

/-- A state and operands that meet the hypotheses of each clause of FaultRowsTakeEffect. -/
theorem wit_faultRowsTakeEffect :
    (∃ (s : State) (s₀ : State), s.clock.power = true ∧ s = s₀.reach (evKey 1 0 0)) ∧
    (∃ (s : State) (core : Nat) (s₀ : State), s.clock.power = true ∧ core ≤ 7 ∧ thas s.dev.offline (source 1 core) = false ∧ tget s.dev.faultAt
    (source 1 core) = none ∧ s = s₀.reach (evKey 1 0 (source 1 core))) ∧
    (∃ (s : State) (b u : Nat) (s₀ : State), s.clock.power = true ∧ s = s₀.reach (evKey 1 0 (source b u))) ∧
    (∃ (s : State) (u i : Nat) (s₀ : State), s.clock.power = true ∧ u < 256 ∧ i < 0x60000 ∧ tget s.dev.faultAt (source 6 u) = none ∧ s = s₀.reach
    (evKey 1 0 (source 6 u))) ∧
    (∃ (s : State) (u : Nat) (s₀ : State), s.clock.power = true ∧ 0x100 ≤ u ∧ u < 0x200 ∧ thas s.dev.offline (source 6 u) = false ∧ s = s₀.reach
    (evKey 1 0 (source 6 u))) ∧
    (∃ (s : State) (a : Nat) (s₀ : State), s.clock.power = true ∧ isHbm a = true ∧ a / 32 ∉ s.dev.mem.poison ∧ stackOff a / 32 ≠ stackBytes / 32 -
    1 ∧ s = s₀.reach (evKey 1 0 (source 5 (unitOf a)))) ∧
    (∃ (s : State) (u : Nat), s.clock.power = true ∧ u < 512 ∧ (s.dev.gunit u).ceDue = true) :=
  ⟨⟨_, (st dv), by decide +kernel, rfl⟩,
   ⟨_, 7, (st dv), by decide +kernel, (by decide +kernel), by decide +kernel, (by decide +kernel), rfl⟩,
   ⟨_, 6, 255, (st dv), by decide +kernel, rfl⟩,
   ⟨_, 255, 0x5FFFF, (st dv), by decide +kernel, (by decide +kernel), by decide +kernel, (by decide +kernel), rfl⟩,
   ⟨_, 0x1FF, (st dv), by decide +kernel, (by decide +kernel), by decide +kernel, (by decide +kernel), rfl⟩,
   ⟨_, hbmBase, (st dv), by decide +kernel, (by decide +kernel), by decide +kernel, (by decide +kernel), rfl⟩,
   ⟨(st (dgl { gu with ceDue := true })), 511, by decide +kernel⟩⟩

/-- A state and operands that meet the hypotheses of each clause of EventRingRowsTakeEffect. -/
theorem wit_eventRingRowsTakeEffect :
    (∃ (s : State) (f : Fn) (w : Word) (s₀ : State), s.clock.power = true ∧ s.dev.fnLive f = true ∧ s.dev.writable = true ∧ (s.dev.eq f.idx).en =
    false ∧ bitAt w.toNat 31 = true ∧ (s.dev.eq f.idx).base % 4096 = 0 ∧ 8 ≤ wfld w 3 0 ∧ wfld w 3 0 ≤ 14 ∧ s.dev.bindOk f = true ∧ s = s₀.reach
    (pcieKey f.port)) ∧
    (∃ (s : State) (f : Fn) (k : Nat) (p : Path) (a : Rec) (l : List Rec), s.clock.power = true ∧ s.dev.pathFn k = some f ∧ tget s.dev.paths k = some
    p ∧ p.staged = a :: l ∧ p.sinceT + p.sinceL + p.sinceF = 0 ∧ (s.dev.eq f.idx).en = true ∧ (s.dev.port f.port).lost = false ∧ ((s.dev.eq
    f.idx).tail + 1) % (s.dev.eq f.idx).cap ≠ (s.dev.eq f.idx).head) :=
  ⟨⟨_, ⟨1, 0⟩, 0x8000000E, (st dv), by decide +kernel, (by decide +kernel), by decide +kernel, (by decide +kernel), by decide +kernel,
     (by decide +kernel), by decide +kernel, (by decide +kernel), by decide +kernel, rfl⟩,
   ⟨(st
     { dv with eqs := [(0, { Eq.reset with en := true, size := 14, tail := 16382 })], paths := [(16, (⟨[(⟨.alarm, 0x100, 0, false, 1, 0, 0, 0, 0, true, 0, (0, 0)⟩ : Rec)], 0, 0, 0, 0, 0, 0⟩ : Path))] }),
     ⟨0, 0⟩, 16, (⟨[(⟨.alarm, 0x100, 0, false, 1, 0, 0, 0, 0, true, 0, (0, 0)⟩ : Rec)], 0, 0, 0, 0, 0, 0⟩ : Path), (⟨.alarm, 0x100, 0, false, 1, 0,
     0, 0, 0, true, 0, (0, 0)⟩ : Rec), [], by decide +kernel⟩⟩

/-- A state and operands that meet the hypotheses of each clause of SessionCommandsComplete. -/
theorem wit_sessionCommandsComplete :
    (∃ (s₀ s : State) (c : Cmd) (r : CmdRec) (q : Req) (m : Mdl) (v die comp win : Nat) (h : Word) (d : Dev), s = s₀.reach (cmdKey c) ∧ q = reqOf c
    r ∧ Started 0x0100 c r s ∧ q.clean [(2, top32), (3, top32), (4, top32), (5, 3)] = true ∧ s.dev.mdl (q.f 2 15 0) = some m ∧ m.part = q.part ∧
    m.img.headDim % 32 = 0 ∧ q.f 5 1 0 ≠ 3 ∧ ((q.f 4 15 0 = 0 ∨ (q.f 4 15 0 % 64 = 0 ∧ q.f 4 15 0 ≤ 16384))) ∧ ((q.f 4 31 16 = 0 ∨ q.f 4 31 16 =
    0xFFFF ∨ ∃ k, s.dev.mdl (q.f 4 31 16) = some k ∧ k.part = q.part)) ∧ s.dev.bindAdapter q.part (q.f 2 15 0) (q.f 2 31 16) = some v ∧
    s.dev.prefixOk q.part (q.f 2 15 0) v (q.w 3).toNat = true ∧ die = s.dev.chooseDie q.part (q.f 5 1 0) ∧ comp = (if q.f 4 31 16 = 0xFFFF then 0
    else if q.f 4 31 16 = 0 then fld (s.dev.partReg q.part 0x030008) 15 0 else q.f 4 31 16) ∧ win = (if q.f 4 15 0 = 0 then fld (s.dev.partReg q.part
    0x030000) 14 0 else q.f 4 15 0) ∧ s.dev.newSes s.ctx q.part die (q.f 2 15 0) v (q.w 3).toNat comp win .opened none = some (h, d)) ∧
    (∃ (s₀ s : State) (c : Cmd) (r : CmdRec) (q : Req) (e : Ses), s = s₀.reach (cmdKey c) ∧ q = reqOf c r ∧ Started 0x0101 c r s ∧ s.dev.lookup
    q.part (q.w 2) = .ok e ∧ q.clean [(2, top32), (3, 3)] = true ∧ e.state = .warm ∧ s.dev.ckpHolds (q.w 2) = true) ∧
    (∃ (s₀ s : State) (c : Cmd) (r : CmdRec) (q : Req) (e : Ses) (d : Dev), s = s₀.reach (cmdKey c) ∧ q = reqOf c r ∧ Started 0x0101 c r s ∧
    s.dev.lookup q.part (q.w 2) = .ok e ∧ q.clean [(2, top32), (3, 3)] = true ∧ e.state = .warm ∧ s.dev.ckpHolds (q.w 2) = false ∧ s.dev.parkBegin
    s.ctx (q.w 2) q.seq (bitAt (q.w 3).toNat 1) (bitAt (q.w 3).toNat 0) = (true, d)) ∧
    (∃ (s₀ s : State) (c : Cmd) (r : CmdRec) (q : Req) (e : Ses) (d : Dev), s = s₀.reach (cmdKey c) ∧ q = reqOf c r ∧ Started 0x0101 c r s ∧
    s.dev.lookup q.part (q.w 2) = .ok e ∧ q.clean [(2, top32), (3, 3)] = true ∧ e.state = .warm ∧ s.dev.ckpHolds (q.w 2) = false ∧ s.dev.parkBegin
    s.ctx (q.w 2) q.seq (bitAt (q.w 3).toNat 1) (bitAt (q.w 3).toNat 0) = (false, d)) ∧
    (∃ (s₀ s : State) (c : Cmd) (r : CmdRec) (q : Req) (e : Ses), s = s₀.reach (cmdKey c) ∧ q = reqOf c r ∧ Started 0x0102 c r s ∧ s.dev.lookup
    q.part (q.w 2) = .ok e ∧ q.clean [(2, top32), (3, 1)] = true ∧ e.state = .warm ∧ (bitAt (q.w 3).toNat 0 = true ∨ e.pend = [])) ∧
    (∃ (s₀ s : State) (c : Cmd) (r : CmdRec) (q : Req) (e : Ses), s = s₀.reach (cmdKey c) ∧ q = reqOf c r ∧ Started 0x0102 c r s ∧ s.dev.lookup
    q.part (q.w 2) = .ok e ∧ q.clean [(2, top32), (3, 1)] = true ∧ e.state = .warm ∧ bitAt (q.w 3).toNat 0 = false ∧ e.pend ≠ []) ∧
    (∃ (s₀ s : State) (c : Cmd) (r : CmdRec) (q : Req) (e : Ses), s = s₀.reach (cmdKey c) ∧ q = reqOf c r ∧ Started 0x0102 c r s ∧ s.dev.lookup
    q.part (q.w 2) = .ok e ∧ q.clean [(2, top32), (3, 1)] = true ∧ e.state = .parked ∧ e.move = none) ∧
    (∃ (s₀ s : State) (c : Cmd) (r : CmdRec) (q : Req) (e : Ses) (m : Movement), s = s₀.reach (cmdKey c) ∧ q = reqOf c r ∧ Started 0x0102 c r s ∧
    s.dev.lookup q.part (q.w 2) = .ok e ∧ q.clean [(2, top32), (3, 1)] = true ∧ e.state = .parked ∧ e.move = some m) ∧
    (∃ (s₀ s : State) (c : Cmd) (r : CmdRec) (q : Req) (e : Ses), s = s₀.reach (cmdKey c) ∧ q = reqOf c r ∧ Started 0x0103 c r s ∧ s.dev.lookup
    q.part (q.w 2) = .ok e ∧ q.clean [(2, top32)] = true ∧ s.dev.ckpHolds (q.w 2) = false ∧ (e.state = .running ∨ e.state = .moving)) ∧
    (∃ (s₀ s : State) (c : Cmd) (r : CmdRec) (q : Req) (e : Ses), s = s₀.reach (cmdKey c) ∧ q = reqOf c r ∧ Started 0x0103 c r s ∧ s.dev.lookup
    q.part (q.w 2) = .ok e ∧ q.clean [(2, top32)] = true ∧ s.dev.ckpHolds (q.w 2) = false ∧ (e.state = .opened ∨ e.state = .waiting ∨ e.state =
    .warm ∨ e.state = .parked)) ∧
    (∃ (s₀ s : State) (c : Cmd) (r : CmdRec) (q : Req) (e : Ses), s = s₀.reach (cmdKey c) ∧ q = reqOf c r ∧ Started 0x0105 c r s ∧ s.dev.lookup
    q.part (q.w 2) = .ok e ∧ q.clean [(2, top32), (3, top32), (4, top32)] = true ∧ q.d2 3 % 128 = 0) ∧
    (∃ (s₀ s : State) (c : Cmd) (r : CmdRec) (q : Req) (e t : Ses), s = s₀.reach (cmdKey c) ∧ q = reqOf c r ∧ Started 0x0107 c r s ∧ s.dev.lookup
    q.part (q.w 2) = .ok e ∧ q.clean [(2, top32), (3, 0x11F37), (4, top32), (5, top32), (6, top32), (7, 0x1FFF00FF), (8, top32), (9, top32)] = true ∧
    q.f 7 28 16 ≤ 4096 ∧ e.state ≠ .free ∧ e.state ≠ .closing ∧ ((e.state = .moving → ∀ m, e.move = some m → m.kind ≠ 3)) ∧ t =
    { e with wakeAll := bitAt (q.w 3).toNat 16, waitTicks := q.d2 8 } ∧ q.f 3 5 4 = 0 ∧ 1 ≤ q.f 3 11 8 ∧ q.f 3 11 8 ≤ 3 ∧ e.state ≠ .warm) ∧
    (∃ (s₀ s : State) (c : Cmd) (r : CmdRec) (q : Req) (e t : Ses) (u : Ses), s = s₀.reach (cmdKey c) ∧ q = reqOf c r ∧ Started 0x0107 c r s ∧
    s.dev.lookup q.part (q.w 2) = .ok e ∧ q.clean [(2, top32), (3, 0x11F37), (4, top32), (5, top32), (6, top32), (7, 0x1FFF00FF), (8, top32), (9,
    top32)] = true ∧ q.f 7 28 16 ≤ 4096 ∧ e.state ≠ .free ∧ e.state ≠ .closing ∧ ((e.state = .moving → ∀ m, e.move = some m → m.kind ≠ 3)) ∧ t =
    { e with wakeAll := bitAt (q.w 3).toNat 16, waitTicks := q.d2 8 } ∧ q.f 3 5 4 = 0 ∧ 1 ≤ q.f 3 11 8 ∧ q.f 3 11 8 ≤ 3 ∧ e.state = .warm ∧ u =
    { t with slots := t.slots.set (q.f 3 2 0) (awaitSlot q true) }) ∧
    (∃ (s₀ s : State) (c : Cmd) (r : CmdRec) (q : Req) (e t : Ses), s = s₀.reach (cmdKey c) ∧ q = reqOf c r ∧ Started 0x0107 c r s ∧ s.dev.lookup
    q.part (q.w 2) = .ok e ∧ q.clean [(2, top32), (3, 0x11F37), (4, top32), (5, top32), (6, top32), (7, 0x1FFF00FF), (8, top32), (9, top32)] = true ∧
    q.f 7 28 16 ≤ 4096 ∧ e.state ≠ .free ∧ e.state ≠ .closing ∧ ((e.state = .moving → ∀ m, e.move = some m → m.kind ≠ 3)) ∧ t =
    { e with wakeAll := bitAt (q.w 3).toNat 16, waitTicks := q.d2 8 } ∧ q.f 3 5 4 = 1) ∧
    (∃ (s₀ s : State) (c : Cmd) (r : CmdRec) (q : Req) (e t : Ses), s = s₀.reach (cmdKey c) ∧ q = reqOf c r ∧ Started 0x0107 c r s ∧ s.dev.lookup
    q.part (q.w 2) = .ok e ∧ q.clean [(2, top32), (3, 0x11F37), (4, top32), (5, top32), (6, top32), (7, 0x1FFF00FF), (8, top32), (9, top32)] = true ∧
    q.f 7 28 16 ≤ 4096 ∧ e.state ≠ .free ∧ e.state ≠ .closing ∧ ((e.state = .moving → ∀ m, e.move = some m → m.kind ≠ 3)) ∧ t =
    { e with wakeAll := bitAt (q.w 3).toNat 16, waitTicks := q.d2 8 } ∧ q.f 3 5 4 = 2) ∧
    (∃ (s₀ s : State) (c : Cmd) (r : CmdRec) (q : Req) (e : Ses) (l : Slot), s = s₀.reach (cmdKey c) ∧ q = reqOf c r ∧ Started 0x0108 c r s ∧
    s.dev.lookup q.part (q.w 2) = .ok e ∧ e.slots[q.f 3 2 0]? = some l ∧ q.clean [(2, top32), (3, 7)] = true ∧ e.state ≠ .free ∧ e.state ≠ .closing ∧
    ((e.state = .moving → ∀ m, e.move = some m → m.kind ≠ 3)) ∧ l.prepared = true ∧ l.kind = 3) :=
  ⟨⟨(sc 0x0100 [1, 0, 0x40, 0] (withMdl md dv)), _, (rq 0x0100 [1, 0, 0x40, 0]), (rc 0x0100 [1, 0, 0x40, 0]), _, md, _, _, _, _, _, _, rfl, rfl,
     by unfold Started; decide +kernel, (by decide +kernel), by decide +kernel, (by decide +kernel), by decide +kernel, (by decide +kernel),
     by decide +kernel, (by decide +kernel), some_get1 (by decide +kernel), (by decide +kernel), rfl, rfl, rfl, some_get2 (by decide +kernel)⟩,
   ⟨(sc 0x0101 [h0, 0]
     ({ withMdl md (dses (se .warm)) with ckp := ⟨[(0, ⟨0, 0, 1, [0], false, 64, [⟨1, 0, 0x01000000, 0⟩], 0, 0, 0, 0, [], [], 0, some ⟨0, [], 1, 0, [], [(0, 0)], [], [], [], false, 0, [], 0, [], [], [], false, []⟩, none, []⟩)]⟩ })),
     _, (rq 0x0101 [h0, 0]), (rc 0x0101 [h0, 0]), _, (se .warm), rfl, rfl, by unfold Started; decide +kernel⟩,
   ⟨(sc 0x0101 [h0, 0] (withMdl md (dses (se .warm)))), _, (rq 0x0101 [h0, 0]), (rc 0x0101 [h0, 0]), _, (se .warm), _, rfl, rfl,
     by unfold Started; decide +kernel, (by decide +kernel), by decide +kernel, (by decide +kernel), by decide +kernel, fst_get (by decide +kernel)⟩,
   ⟨(sc 0x0101 [h0, 0] ({ withMdl md (dses (se .warm)) with regs := ⟨[], [(devKey 0x040104, 0)], [], []⟩ })), _, (rq 0x0101 [h0, 0]), (rc 0x0101
     [h0, 0]), _, (se .warm), _, rfl, rfl, by unfold Started; decide +kernel, (by decide +kernel), by decide +kernel, (by decide +kernel),
     by decide +kernel, fst_get (by decide +kernel)⟩,
   ⟨(sc 0x0102 [h0, 1] (withMdl md (dses { se .warm with pend := [7] }))), _, (rq 0x0102 [h0, 1]), (rc 0x0102 [h0, 1]), _,
     ({ se .warm with pend := [7] }), rfl, rfl, by unfold Started; decide +kernel⟩,
   ⟨(sc 0x0102 [h0, 0] (withMdl md (dses { se .warm with pend := [7] }))), _, (rq 0x0102 [h0, 0]), (rc 0x0102 [h0, 0]), _,
     ({ se .warm with pend := [7] }), rfl, rfl, by unfold Started; decide +kernel⟩,
   ⟨(sc 0x0102 [h0, 1] (withMdl md (dses (se .parked)))), _, (rq 0x0102 [h0, 1]), (rc 0x0102 [h0, 1]), _, (se .parked), rfl, rfl,
     by unfold Started; decide +kernel⟩,
   ⟨(sc 0x0102 [h0, 1] (withMdl md (dses { se .parked with move := some (Movement.new 2 9 false) }))), _, (rq 0x0102 [h0, 1]), (rc 0x0102 [h0, 1]),
     _, ({ se .parked with move := some (Movement.new 2 9 false) }), (Movement.new 2 9 false), rfl, rfl, by unfold Started; decide +kernel⟩,
   ⟨(sc 0x0103 [h0] (withMdl md (dses (se .moving)))), _, (rq 0x0103 [h0]), (rc 0x0103 [h0]), _, (se .moving), rfl, rfl,
     by unfold Started; decide +kernel⟩,
   ⟨(sc 0x0103 [h0] (withMdl md (dses (se .parked)))), _, (rq 0x0103 [h0]), (rc 0x0103 [h0]), _, (se .parked), rfl, rfl,
     by unfold Started; decide +kernel⟩,
   ⟨(sc 0x0105 [h0, 0x80, 0] (withMdl md (dses (se .opened)))), _, (rq 0x0105 [h0, 0x80, 0]), (rc 0x0105 [h0, 0x80, 0]), _, (se .opened), rfl, rfl,
     by unfold Started; decide +kernel⟩,
   ⟨(sc 0x0107 [h0, 0x300, 0, 0, 0, 0x10000000, 0, 0] (withMdl md (dses (se .opened)))), _, (rq 0x0107 [h0, 0x300, 0, 0, 0, 0x10000000, 0, 0]), (rc
     0x0107 [h0, 0x300, 0, 0, 0, 0x10000000, 0, 0]), _, (se .opened), _, rfl, rfl, by unfold Started; decide +kernel, (by decide +kernel),
     by decide +kernel, (by decide +kernel), by decide +kernel, (by decide +kernel), by decide +kernel, rfl, by decide +kernel⟩,
   ⟨(sc 0x0107 [h0, 0x100, 0, 0, 0, 0x10000000, 0, 0] (withMdl md (dses (se .warm)))), _, (rq 0x0107 [h0, 0x100, 0, 0, 0, 0x10000000, 0, 0]), (rc
     0x0107 [h0, 0x100, 0, 0, 0, 0x10000000, 0, 0]), _, (se .warm), _, _, rfl, rfl, by unfold Started; decide +kernel, (by decide +kernel),
     by decide +kernel, (by decide +kernel), by decide +kernel, (by decide +kernel), by decide +kernel, rfl, by decide +kernel, (by decide +kernel),
     by decide +kernel, (by decide +kernel), rfl⟩,
   ⟨(sc 0x0107 [h0, 0x10, 0, 0, 0, 0x10000000, 0, 0] (withMdl md (dses (se .opened)))), _, (rq 0x0107 [h0, 0x10, 0, 0, 0, 0x10000000, 0, 0]), (rc
     0x0107 [h0, 0x10, 0, 0, 0, 0x10000000, 0, 0]), _, (se .opened), _, rfl, rfl, by unfold Started; decide +kernel, (by decide +kernel),
     by decide +kernel, (by decide +kernel), by decide +kernel, (by decide +kernel), by decide +kernel, rfl, by decide +kernel⟩,
   ⟨(sc 0x0107 [h0, 0x20, 0, 0, 0, 0x10000000, 0, 0] (withMdl md (dses (se .opened)))), _, (rq 0x0107 [h0, 0x20, 0, 0, 0, 0x10000000, 0, 0]), (rc
     0x0107 [h0, 0x20, 0, 0, 0, 0x10000000, 0, 0]), _, (se .opened), _, rfl, rfl, by unfold Started; decide +kernel, (by decide +kernel),
     by decide +kernel, (by decide +kernel), by decide +kernel, (by decide +kernel), by decide +kernel, rfl, by decide +kernel⟩,
   ⟨(sc 0x0108 [h0, 0] (withMdl md (dses { se .waiting with slots := [{ Slot.empty with kind := 3, prepared := true }] }))), _, (rq 0x0108 [h0,
     0]), (rc 0x0108 [h0, 0]), _, ({ se .waiting with slots := [{ Slot.empty with kind := 3, prepared := true }] }),
     ({ Slot.empty with kind := 3, prepared := true }), rfl, rfl, by unfold Started; decide +kernel⟩⟩

/-- A state and operands that meet the hypotheses of each clause of SessionEventsTakeEffect. -/
theorem wit_sessionEventsTakeEffect :
    (∃ (s : State) (h : Word) (e : Ses) (n : Nat) (l : Slot) (s₀ : State), s.clock.power = true ∧ s.dev.sesOf h = some e ∧ e.slots[n]? = some l ∧
    l.due = true ∧ s = s₀.follow) ∧
    (∃ (s : State) (h : Word) (e : Ses) (n : Nat) (l : Slot), s.clock.power = true ∧ s.dev.sesOf h = some e ∧ e.slots[n]? = some l ∧ l.due = true ∧
    l.plain = true ∧ e.state ≠ .closing) ∧
    (∃ (s : State) (h : Word) (e : Ses) (n : Nat) (l : Slot) (s₀ : State), s.clock.power = true ∧ s.dev.sesOf h = some e ∧ e.slots[n]? = some l ∧
    l.kind = 2 ∧ l.prepared = true ∧ l.cmp ≤ s.clock.now ∧ l.due = false ∧ s.dev.slotBusy h n = false ∧ s = s₀.reach (evKey 8 0 (source 3 0))) ∧
    (∃ (s : State) (h : Word) (e : Ses) (s₀ : State), s.clock.power = true ∧ s.dev.sesOf h = some e ∧ e.waitDeadline ≠ 0 ∧ e.waitDeadline ≤
    s.clock.now ∧ e.state ≠ .closing ∧ s = s₀.reach (evKey 6 0 (source 3 0))) ∧
    (∃ (s : State) (h : Word) (e : Ses) (s₀ : State), s.clock.power = true ∧ s.dev.sesOf h = some e ∧ e.state = .warm ∧ fld (s.dev.parkCfg (hPart h))
    19 0 ≠ 0 ∧ e.since + fld (s.dev.parkCfg (hPart h)) 19 0 * ticksMs ≤ s.clock.now ∧ s.dev.ckpHolds h = false ∧ s = s₀.reach internalKey) ∧
    (∃ (s : State) (h : Word) (e : Ses) (die k : Nat) (s₀ : State), s.clock.power = true ∧ s.dev.sesOf h = some e ∧ 262144 * fld (s.dev.devReg
    0x030200) 6 0 < (s.dev.staged die - s.dev.parking die) * 100 ∧ oldestWarm die s.dev.ses.tbl = some (k, e) ∧ h = handleOf (k / 2 ^ 24) e.gen (k %
    2 ^ 24) ∧ s.dev.ckpHolds h = false ∧ s = s₀.reach internalKey) ∧
    (∃ (s : State) (h : Word) (e : Ses) (m : Movement) (s₀ : State), s.clock.power = true ∧ s.dev.sesOf h = some e ∧ e.move = some m ∧ e.state =
    .moving ∧ m.kind = 1 ∧ m.written = true ∧ m.compressing = false ∧ s = s₀.reach (evKey 5 0 (source 3 0))) ∧
    (∃ (s : State) (h : Word) (e : Ses) (m : Movement) (s₀ : State), s.clock.power = true ∧ s.dev.sesOf h = some e ∧ e.move = some m ∧ s = s₀.follow) ∧
    (∃ (s : State) (h : Word) (e : Ses) (m : Movement) (s₀ : State), s.clock.power = true ∧ s.dev.sesOf h = some e ∧ e.move = some m ∧
    m.readStarted = true ∧ s.dev.submitting h = false ∧ s = s₀.reach (evKey 5 0 (source 3 0))) ∧
    (∃ (s : State) (h : Word) (e : Ses) (s₀ : State), s.clock.power = true ∧ s.dev.sesOf h = some e ∧ e.state = .closing ∧ s = s₀.reach (evKey 5 0
    (source 3 0))) ∧
    (∃ (s : State) (h : Word) (e : Ses) (u : Nat) (res : NandRead) (s₀ : State), s.clock.power = true ∧ s.dev.sesOf h = some e ∧ (s.dev.nandDone
    s.ctx u res).revivingFrom u = [] ∧ s = s₀.reach (evKey 5 0 (source 4 0))) :=
  ⟨⟨_, h0, ({ se .waiting with slots := [{ Slot.empty with kind := 3, prepared := true, due := true, plain := false }] }), 0,
     ({ Slot.empty with kind := 3, prepared := true, due := true, plain := false }), (st (dses
     { se .waiting with slots := [{ Slot.empty with kind := 3, prepared := true, due := true, plain := false }] })), by decide +kernel,
     (by decide +kernel), by decide +kernel, (by decide +kernel), rfl⟩,
   ⟨(st (dses { se .waiting with slots := [{ Slot.empty with kind := 3, prepared := true, due := true, plain := true }] })), h0,
     ({ se .waiting with slots := [{ Slot.empty with kind := 3, prepared := true, due := true, plain := true }] }), 0,
     ({ Slot.empty with kind := 3, prepared := true, due := true, plain := true }), by decide +kernel⟩,
   ⟨_, h0, ({ se .waiting with slots := [{ Slot.empty with kind := 2, prepared := true, cmp := 1250000000 }] }), 0,
     ({ Slot.empty with kind := 2, prepared := true, cmp := 1250000000 }), (st (dses
     { se .waiting with slots := [{ Slot.empty with kind := 2, prepared := true, cmp := 1250000000 }] })), by decide +kernel, (by decide +kernel),
     by decide +kernel, (by decide +kernel), by decide +kernel, (by decide +kernel), by decide +kernel, (by decide +kernel), rfl⟩,
   ⟨_, h0, ({ se .waiting with waitDeadline := 1250000000 }), (st (dses { se .waiting with waitDeadline := 1250000000 })), by decide +kernel,
     (by decide +kernel), by decide +kernel, (by decide +kernel), by decide +kernel, rfl⟩,
   ⟨_, h0, ({ se .warm with since := 1249875000 }), (st
     ({ dses { se .warm with since := 1249875000 } with regs := ⟨[], [(partKey 0 0x030004, 1)], [], []⟩ })), by decide +kernel, (by decide +kernel),
     by decide +kernel, (by decide +kernel), by decide +kernel, (by decide +kernel), rfl⟩,
   ⟨_, h0, (se .warm), 0, 0, (st ({ dses (se .warm) with regs := ⟨[], [(devKey 0x030200, 0)], [], []⟩ })), by decide +kernel, (by decide +kernel),
     by decide +kernel, (by decide +kernel), by decide +kernel, (by decide +kernel), rfl⟩,
   ⟨_, h0, ({ se .moving with move := some { Movement.new 1 0 true with written := true } }), ({ Movement.new 1 0 true with written := true }), (st
     (dses { se .moving with move := some { Movement.new 1 0 true with written := true } })), by decide +kernel, (by decide +kernel),
     by decide +kernel, (by decide +kernel), by decide +kernel, (by decide +kernel), by decide +kernel, rfl⟩,
   ⟨_, h0, ({ se .parked with move := some (Movement.new 2 0 false) }), (Movement.new 2 0 false), (st (dses
     { se .parked with move := some (Movement.new 2 0 false) })), by decide +kernel, (by decide +kernel), by decide +kernel, rfl⟩,
   ⟨_, h0, ({ se .moving with move := some { Movement.new 2 0 false with readStarted := true } }),
     ({ Movement.new 2 0 false with readStarted := true }), (st (dses
     { se .moving with move := some { Movement.new 2 0 false with readStarted := true } })), by decide +kernel, (by decide +kernel),
     by decide +kernel, (by decide +kernel), by decide +kernel, rfl⟩,
   ⟨_, h0, (se .closing), (st (dses (se .closing))), by decide +kernel, (by decide +kernel), by decide +kernel, rfl⟩,
   ⟨_, h0, (se .opened), 0, .ok, (st (dses (se .opened))), by decide +kernel, (by decide +kernel), by decide +kernel, rfl⟩⟩

/-- A state and operands that meet the hypotheses of each clause of MoveRowsTakeEffect.
The hash and the signature check of Config have no body (log entry 6), so that the witness takes an equation for what it uses of them. -/
theorem wit_moveRowsTakeEffect (hd : ∀ b, Config.sha512 b = BitVec.allOnes 512) :
    (∃ (s₀ s : State) (c : Cmd) (r : CmdRec) (q : Req) (e : Ses) (qp : Qp) (d d1 d2 : Dev) (img : List Byte) (ops : List Nat) (mv : Movement), s =
    s₀.reach (cmdKey c) ∧ q = reqOf c r ∧ Started 0x0104 c r s ∧ s.dev.lookup q.part (q.w 2) = .ok e ∧ q.clean [(2, top32), (3, 0xFFFFF), (4, top32),
    (5, 1), (6, top32), (7, 0xFF), (8, top32)] = true ∧ (q.w 4).toNat ≠ 0 ∧ (q.w 4).toNat ≤ 0xFFFEFFFF ∧ s.dev.ckpHolds (q.w 2) = false ∧
    s.dev.moveQp q.part (q.f 3 19 0) = .ok qp ∧ s.dev.ewrPost q.part (q.f 3 19 0) (q.w 4).toNat 0 128 true none = .ok d ∧ ((e.state = .parked ∧
    d.readObj e.parkLoc = some img ∨ e.state = .warm ∧ d.kvBad (d.kvOr e) = false ∧ d.encode q.part e true false = img)) ∧ d1 = (if e.state = .warm
    then ({ d with free := d.free + img.length } : Dev).kvUse s.ctx (q.w 2) else ({ d with free := d.free + img.length } : Dev).objUse s.ctx
    e.parkLoc).endRevives s.ctx (q.w 2) .aborted [] ∧ (d1.dropSpills s.ctx (q.w 2)).postAll s.ctx q.part (q.f 3 19 0) 2 (q.w 8).toNat 0 (((chunks
    (1024 * qp.mtu) (img.length / (1024 * qp.mtu) + 1) img).mapIdx fun i b => (bufOff (q.w 6).toNat (q.f 7 7 0) + 0x1000 + i * (1024 * qp.mtu),
    b)).filter fun b => !b.2.isEmpty) = (ops, d2) ∧ mv =
    ({ Movement.new 3 q.seq (e.state == .warm) with img := moveMsg 1 0 (q.w 4).toNat 0 img.length (bitAt (q.w 5).toNat 0) (Config.sha512 img), obj := if e.state = .warm then 0 else e.parkLoc, qpn := q.f 3 19 0, ident := (q.w 4).toNat, target := bufOff (q.w 6).toNat (q.f 7 7 0), key := (q.w 8).toNat, targetWarm := bitAt (q.w 5).toNat 0, digest := Config.sha512 img, sends := ops }
    : Movement)) ∧
    (∃ (s₀ s : State) (c : Cmd) (r : CmdRec) (q : Req) (m : Mdl) (v : Nat) (qp : Qp) (d d1 : Dev) (h : Word), s = s₀.reach (cmdKey c) ∧ q = reqOf c
    r ∧ Started 0x0106 c r s ∧ s.dev.mdl (q.f 2 15 0) = some m ∧ q.clean [(2, top32), (3, top32), (4, 0xFFFFF), (5, top32), (6, top32), (7, 0x7FFFF),
    (8, top32)] = true ∧ m.part = q.part ∧ (q.w 5).toNat ≠ 0 ∧ (q.w 5).toNat ≤ 0xFFFEFFFF ∧ 1 ≤ (q.w 6).toNat ∧ (q.w 6).toNat ≤ 60000 ∧ s.dev.moveBuf
    q.part (q.f 7 18 0) (q.w 8).toNat = true ∧ s.dev.bindAdapter q.part (q.f 2 15 0) (q.f 2 31 16) = some v ∧ s.dev.prefixOk q.part (q.f 2 15 0) v
    (q.w 3).toNat = true ∧ s.dev.moveQp q.part (q.f 4 19 0) = .ok qp ∧ s.dev.ewrPost q.part (q.f 4 19 0) (q.w 5).toNat (q.f 7 18 0 * 2097152) 128
    false none = .ok d ∧ d.newSes s.ctx q.part (d.chooseDie q.part 0) (q.f 2 15 0) v (q.w 3).toNat (fld (d.partReg q.part 0x030008) 15 0) (fld
    (d.partReg q.part 0x030000) 14 0) .moving (some
    { Movement.new 4 q.seq false with qpn := q.f 4 19 0, ident := (q.w 5).toNat, deadline := s.clock.now + (q.w 6).toNat * ticksMs, firstExt := q.f 7 18 0, extCount := (q.w 8).toNat }) =
    some (h, d1)) ∧
    (∃ (s : State) (h : Word) (e : Ses) (m : Movement) (d : Dev) (s₀ : State), s.clock.power = true ∧ s.dev.sesOf h = some e ∧ e.move = some m ∧
    e.state = .moving ∧ m.kind = 4 ∧ m.recOp ≠ 0 ∧ thas s.dev.ops m.recOp = false ∧ s.dev.net.failed.contains m.recOp = false ∧ d = (if m.targetWarm
    then (s.dev.setSes h { e with move := none }).enterWarm s.ctx h else s.dev.goto s.ctx h { e with move := none } .parked) ∧ s = s₀.reach (evKey 5
    0 (source 3 0))) ∧
    (∃ (s : State) (h : Word) (e : Ses) (m : Movement) (s₀ : State), s.clock.power = true ∧ s.dev.sesOf h = some e ∧ e.move = some m ∧ e.state =
    .moving ∧ m.kind = 4 ∧ m.recordIn = false ∧ m.deadline ≤ s.clock.now ∧ s = s₀.reach (evKey 8 0 (source 3 0))) ∧
    (∃ (s : State) (h : Word) (e : Ses) (m : Movement) (t0 : Nat) (s₀ : State), s.clock.power = true ∧ s.dev.sesOf h = some e ∧ e.move = some m ∧
    e.state = .moving ∧ m.kind = 3 ∧ m.sent = some t0 ∧ t0 + 125000000 ≤ s.clock.now ∧ s = s₀.reach (evKey 8 0 (source 3 0))) ∧
    (∃ (s : State) (n : Nat) (msg : List Byte) (h : Word) (e : Ses) (m : Movement) (s₀ : State), s.clock.power = true ∧ s.dev.moverOf 3 3 n msg =
    some (h, e, m) ∧ leAt msg 6 2 = 0 ∧ s = s₀.follow) ∧
    (∃ (s : State) (n : Nat) (msg : List Byte) (h : Word) (e : Ses) (m : Movement) (s₀ : State), s.clock.power = true ∧ s.dev.moverOf 3 3 n msg =
    some (h, e, m) ∧ leAt msg 6 2 ≠ 0 ∧ s = s₀.follow) ∧
    (∃ (s : State) (n : Nat) (msg : List Byte) (h : Word) (e : Ses) (m : Movement) (s₀ : State), s.clock.power = true ∧ s.dev.moverOf 4 2 n msg =
    some (h, e, m) ∧ m.recordIn = false ∧ s = s₀.follow) ∧
    (∃ (s : State) (n : Nat) (msg : List Byte) (h : Word) (e : Ses) (m : Movement) (d0 : Dev) (d : Dev) (s₀ : State), s.clock.power = true ∧
    s.dev.moverOf 4 1 n msg = some (h, e, m) ∧ m.recordIn = false ∧ s.dev.reach s.ctx .tiller (3, h.toNat) (s.dev.runAddrs (hPart h) (m.firstExt *
    2097152) (m.extCount * 2097152)) = (.go, d0) ∧ m.extCount * 2097152 < leAt msg 16 8 + 0x1000 ∧ (d0.dropEwr n m.ident).netPost s.ctx .tiller
    (hPart h) n 1 (moveMsg 3 Status.integrity.code m.ident 0 0 false 0) 0 0 (wd m.ident) = some d ∧ s = s₀.follow) ∧
    (∃ (s : State) (n : Nat) (msg : List Byte) (h : Word) (e : Ses) (m : Movement) (d0 : Dev) (img : List Byte) (d1 d2 : Dev) (e2 : Ses) (s₀ :
    State), s.clock.power = true ∧ s.dev.moverOf 4 1 n msg = some (h, e, m) ∧ m.recordIn = false ∧ s.dev.reach s.ctx .tiller (3, h.toNat)
    (s.dev.runAddrs (hPart h) (m.firstExt * 2097152) (m.extCount * 2097152)) = (.go, d0) ∧ leAt msg 16 8 + 0x1000 ≤ m.extCount * 2097152 ∧
    (d0.dropEwr n m.ident).bufRead (hPart h) (m.firstExt * 2097152 + 0x1000) (leAt msg 16 8) = some (img, false) ∧ Config.sha512 img = BitVec.ofNat
    512 (leAt msg 32 64) ∧ hdrOk img ((d0.dropEwr n m.ident).geoOf e.model) = true ∧ sectionsOk img = true ∧ (d0.dropEwr n m.ident).moveKeep h e
    { m with recordIn := true, targetWarm := bitAt (leAt msg 24 1) 0 } img = some d1 ∧ d1.netPost s.ctx .tiller (hPart h) n 1 (moveMsg 3 0 m.ident
    h.toNat 0 false 0) 0 0 (wd m.ident) = some d2 ∧ d2.sesOf h = some e2 ∧ s = s₀.follow) :=
  ⟨⟨(sc 0x0104 [h0, 3, 0xFFFEFFFF, 0, 0, 0, 0] (withQp qp0 (withMdl md (dses (se .warm))))), _, (rq 0x0104 [h0, 3, 0xFFFEFFFF, 0, 0, 0, 0]), (rc
     0x0104 [h0, 3, 0xFFFEFFFF, 0, 0, 0, 0]), _, (se .warm), qp0, _, _, _, _, _, _, rfl, rfl, by unfold Started; decide +kernel, (by decide +kernel),
     by decide +kernel, (by decide +kernel), by decide +kernel, (by decide +kernel), by decide +kernel, ok_get (by decide +kernel),
     .inr ⟨by decide +kernel, by decide +kernel, rfl⟩, rfl, pair_get, rfl⟩,
   ⟨(sc 0x0106 [1, 0, 3, 0xFFFEFFFF, 60000, 7, 1] (withQp qp0 (withMdl md
     { dv with mem := { MemState.reset with bufs := [(bufKey 0 7, ⟨extentAddr 524288, [], false, 0, 0, []⟩)], exts := [(524288, 0)] } }))), _, (rq
     0x0106 [1, 0, 3, 0xFFFEFFFF, 60000, 7, 1]), (rc 0x0106 [1, 0, 3, 0xFFFEFFFF, 60000, 7, 1]), _, md, _, qp0, _, _, _, rfl, rfl,
     by unfold Started; decide +kernel, (by decide +kernel), by decide +kernel, (by decide +kernel), by decide +kernel, (by decide +kernel),
     by decide +kernel, (by decide +kernel), by decide +kernel, some_get1 (by decide +kernel), by decide +kernel, (by decide +kernel), ok_get
     (by decide +kernel), some_get2 (by decide +kernel)⟩,
   ⟨_, h0, ({ se .moving with move := some { Movement.new 4 0 false with recOp := 1 } }), ({ Movement.new 4 0 false with recOp := 1 }), _, (st
     (dses { se .moving with move := some { Movement.new 4 0 false with recOp := 1 } })), by decide +kernel, (by decide +kernel), by decide +kernel,
     (by decide +kernel), by decide +kernel, (by decide +kernel), by decide +kernel, (by decide +kernel), rfl, rfl⟩,
   ⟨_, h0, ({ se .moving with move := some { Movement.new 4 0 false with deadline := 1250000000 } }),
     ({ Movement.new 4 0 false with deadline := 1250000000 }), (st (dses
     { se .moving with move := some { Movement.new 4 0 false with deadline := 1250000000 } })), by decide +kernel, (by decide +kernel),
     by decide +kernel, (by decide +kernel), by decide +kernel, (by decide +kernel), by decide +kernel, rfl⟩,
   ⟨_, h0, ({ se .moving with move := some { Movement.new 3 0 true with sent := some 1125000000 } }),
     ({ Movement.new 3 0 true with sent := some 1125000000 }), 1125000000, (st (dses
     { se .moving with move := some { Movement.new 3 0 true with sent := some 1125000000 } })), by decide +kernel, (by decide +kernel),
     by decide +kernel, (by decide +kernel), by decide +kernel, (by decide +kernel), by decide +kernel, rfl⟩,
   ⟨_, 3, (moveMsg 3 0 9 0 0 false 0), h0, ({ se .moving with move := some { Movement.new 3 0 true with qpn := 3, ident := 9 } }),
     ({ Movement.new 3 0 true with qpn := 3, ident := 9 }), (st (withQp qp0 (withMdl md (dses
     { se .moving with move := some { Movement.new 3 0 true with qpn := 3, ident := 9 } })))), by decide +kernel, (by decide +kernel),
     by decide +kernel, rfl⟩,
   ⟨_, 3, (moveMsg 3 0x80 9 0 0 false 0), h0, ({ se .moving with move := some { Movement.new 3 0 true with qpn := 3, ident := 9 } }),
     ({ Movement.new 3 0 true with qpn := 3, ident := 9 }), (st (withQp qp0 (withMdl md (dses
     { se .moving with move := some { Movement.new 3 0 true with qpn := 3, ident := 9 } })))), by decide +kernel, (by decide +kernel),
     by decide +kernel, rfl⟩,
   ⟨_, 3, (moveMsg 2 0 9 0 0 false 0), h0, ({ se .moving with move := some { Movement.new 4 0 false with qpn := 3, ident := 9 } }),
     ({ Movement.new 4 0 false with qpn := 3, ident := 9 }), (st (withQp qp0 (withMdl md (dses
     { se .moving with move := some { Movement.new 4 0 false with qpn := 3, ident := 9 } })))), by decide +kernel, (by decide +kernel),
     by decide +kernel, rfl⟩,
   ⟨_, 3, (moveMsg 1 0 9 0 0x1FF001 false 0), h0,
     ({ se .moving with move := some { Movement.new 4 0 false with qpn := 3, ident := 9, extCount := 1 } }),
     ({ Movement.new 4 0 false with qpn := 3, ident := 9, extCount := 1 }), _, _, (st (withQp qp0 (withMdl md (dses
     { se .moving with move := some { Movement.new 4 0 false with qpn := 3, ident := 9, extCount := 1 } })))), by decide +kernel,
     (by decide +kernel), by decide +kernel, fst_get (by decide +kernel), by decide +kernel, some_get1 (by decide +kernel), rfl⟩,
   ⟨_, 3, (moveMsg 1 0 9 0 256 false (BitVec.allOnes 512)), h0,
     ({ se .moving with move := some { Movement.new 4 0 false with qpn := 3, ident := 9, firstExt := 7, extCount := 1 } }),
     ({ Movement.new 4 0 false with qpn := 3, ident := 9, firstExt := 7, extCount := 1 }), _, parkHead, _, _, _, (st dmove), by decide +kernel,
     (by decide +kernel), by decide +kernel, fst_get (by decide +kernel), by decide +kernel, (by decide +kernel), (hd _).trans (by decide +kernel),
     Eq.trans (congrArg (hdrOk parkHead) (by decide +kernel)) parkHead_ok, by decide +kernel, some_get1 (by decide +kernel), some_get1
     (by decide +kernel), some_get1 (by decide +kernel), rfl⟩⟩

/-- A state and operands that meet the hypotheses of each clause of MemoryCommandsComplete. -/
theorem wit_memoryCommandsComplete :
    (∃ (s : State) (c : Cmd) (r : CmdRec) (q : Req) (sts es : List Nat) (d : Dev) (s₀ : State), q = reqOf c r ∧ Started 0x0200 c r s ∧ q.clean [(2,
    0x7FFFF), (3, 0xFFFFF), (4, 0x1F)] = true ∧ mapStacks (q.f 4 4 0) = some sts ∧ runOk q.first q.count = true ∧ s.dev.anyMapped q.part (runExts
    q.first q.count) = false ∧ s.dev.hbmUsed q.part + 64 * q.count ≤ s.dev.hbmQuota q.part ∧ s.dev.takeExts q.part sts q.count = some (es, d) ∧ s =
    s₀.reach (cmdKey c)) ∧
    (∃ (s : State) (c : Cmd) (r : CmdRec) (q : Req) (s₀ : State), q = reqOf c r ∧ Started 0x0201 c r s ∧ q.clean [(2, 0x7FFFF), (3, 0xFFFFF)] =
    true ∧ runOk q.first q.count = true ∧ s.dev.anyFrozen q.part (runExts q.first q.count) = false ∧ (runExts q.first q.count).any (s.dev.extIndexed
    q.part) = false ∧ s.dev.runPinned q.part q.first q.count = false ∧ s.dev.runHeld q.seq q.part q.first q.count = false ∧ s = s₀.reach (cmdKey c)) ∧
    (∃ (s : State) (c : Cmd) (r : CmdRec) (q : Req) (s₀ : State), q = reqOf c r ∧ Started 0x0201 c r s ∧ q.clean [(2, 0x7FFFF), (3, 0xFFFFF)] =
    true ∧ runOk q.first q.count = true ∧ s.dev.anyFrozen q.part (runExts q.first q.count) = false ∧ (runExts q.first q.count).any (s.dev.extIndexed
    q.part) = false ∧ s.dev.runPinned q.part q.first q.count = true ∧ s = s₀.reach (cmdKey c)) ∧
    (∃ (s : State) (c : Cmd) (r : CmdRec) (q : Req) (es : List Nat) (d : Dev) (s₀ : State), q = reqOf c r ∧ Started 0x0202 c r s ∧ q.clean [(2,
    0x7FFFF), (3, 0xFFFFF), (4, 0xF)] = true ∧ runOk q.first q.count = true ∧ s.dev.allMapped q.part (runExts q.first q.count) = true ∧ ((∀ i ∈
    s.dev.pan.idx, i.2.part = q.part → i.2.die ≠ stackDie (q.f 4 3 0) → ∀ e ∈ runExts q.first q.count, e < i.2.first ∨ i.2.first + i.2.count ≤ e)) ∧
    s.dev.hbmUsed q.part + 64 * q.count ≤ s.dev.hbmQuota q.part ∧ s.dev.takeExts q.part [q.f 4 3 0] q.count = some (es, d) ∧ s = s₀.reach (cmdKey c)) ∧
    (∃ (s : State) (c : Cmd) (r : CmdRec) (q : Req) (off len : Nat) (l : List Piece) (s₀ : State), q = reqOf c r ∧ Started 0x0203 c r s ∧ q.clean
    [(2, top32), (3, top32), (4, top32), (5, 0x800000FF), (6, top32)] = true ∧ off = bufOff (q.w 4).toNat (q.f 5 7 0) ∧ len = (q.w 6).toNat ∧ 1 ≤
    len ∧ off + len ≤ 2 ^ 40 ∧ s.dev.bufRun q.part true (runFuel len) off len = some l ∧ bitAt (q.w 5).toNat 31 = false ∧ s = s₀.reach (cmdKey c)) ∧
    (∃ (s : State) (c : Cmd) (r : CmdRec) (q : Req) (off len : Nat) (l : List Piece) (s₀ : State), q = reqOf c r ∧ Started 0x0203 c r s ∧ q.clean
    [(2, top32), (3, top32), (4, top32), (5, 0x800000FF), (6, top32)] = true ∧ off = bufOff (q.w 4).toNat (q.f 5 7 0) ∧ len = (q.w 6).toNat ∧ 1 ≤
    len ∧ off + len ≤ 2 ^ 40 ∧ s.dev.bufRun q.part true (runFuel len) off len = some l ∧ bitAt (q.w 5).toNat 31 = true ∧ (runExts (off / 2097152)
    ((off + len - 1) / 2097152 + 1 - off / 2097152)).any (s.dev.extSealed q.part) = false ∧ s = s₀.reach (cmdKey c)) ∧
    (∃ (s : State) (c : Cmd) (r : CmdRec) (q : Req) (s₀ : State), q = reqOf c r ∧ Started 0x0204 c r s ∧ q.clean [(2, 0x7FFFF), (3, 0xFFFFF)] =
    true ∧ runOk q.first q.count = true ∧ s.dev.allWhole q.part (runExts q.first q.count) = true ∧ s.dev.anyFrozen q.part (runExts q.first q.count) =
    false ∧ (runExts q.first q.count).any (s.dev.extIndexed q.part) = false ∧ s = s₀.reach (cmdKey c)) ∧
    (∃ (s : State) (c : Cmd) (r : CmdRec) (q : Req) (o : Share) (s₀ : State), q = reqOf c r ∧ Started 0x0205 c r s ∧ q.clean [(2, top32)] = true ∧
    s.dev.share (q.w 2).toNat = some o ∧ o.part = q.part ∧ o.own = true ∧ s = s₀.reach (cmdKey c)) ∧
    (∃ (s : State) (c : Cmd) (r : CmdRec) (q : Req) (off : Nat) (s₀ : State), q = reqOf c r ∧ Started 0x0206 c r s ∧ q.clean [(2, top32), (3,
    0xFF)] = true ∧ off = bufOff (q.w 2).toNat (q.f 3 7 0) ∧ s.dev.bufHome q.part off = none ∧ s = s₀.reach (cmdKey c)) ∧
    (∃ (s : State) (c : Cmd) (r : CmdRec) (q : Req) (off : Nat) (u : Nat) (fr : Bool) (s₀ : State), q = reqOf c r ∧ Started 0x0206 c r s ∧ q.clean
    [(2, top32), (3, 0xFF)] = true ∧ off = bufOff (q.w 2).toNat (q.f 3 7 0) ∧ s.dev.bufHome q.part off = some (.nand u, fr) ∧ s = s₀.reach (cmdKey
    c)) ∧
    (∃ (s : State) (c : Cmd) (r : CmdRec) (q : Req) (off : Nat) (a : Nat) (fr : Bool) (s₀ : State), q = reqOf c r ∧ Started 0x0206 c r s ∧ q.clean
    [(2, top32), (3, 0xFF)] = true ∧ off = bufOff (q.w 2).toNat (q.f 3 7 0) ∧ s.dev.bufHome q.part off = some (.hbm a, fr) ∧ s = s₀.reach (cmdKey c)) ∧
    (∃ (s : State) (c : Cmd) (r : CmdRec) (q : Req) (s₀ : State), q = reqOf c r ∧ Started 0x0210 c r s ∧ q.clean [(2, 0x7FFFF), (3, 0xFFFFF), (4,
    1)] = true ∧ runOk q.first q.count = true ∧ s.dev.allMapped q.part (runExts q.first q.count) = true ∧ s.dev.anyFrozen q.part (runExts q.first
    q.count) = false ∧ (runExts q.first q.count).any (s.dev.extIndexed q.part) = false ∧ s.dev.nandFits q.part (64 * q.count) = true ∧
    s.dev.regionInUse (q.f 4 0 0) + 64 * q.count ≤ s.dev.regionUnits (q.f 4 0 0 == 1) ∧ s = s₀.reach (cmdKey c)) ∧
    (∃ (s : State) (c : Cmd) (r : CmdRec) (q : Req) (o : NandObj) (es : List Nat) (d : Dev) (s₀ : State), q = reqOf c r ∧ Started 0x0211 c r s ∧
    q.clean [(2, top32), (3, top32), (4, 0x7FFFF)] = true ∧ s.dev.loading (q.d2 2) = false ∧ s.dev.storeObj q.part (q.d2 2) = some o ∧ runOk (q.f 4
    18 0) ((o.units.length + 63) / 64) = true ∧ s.dev.anyMapped q.part (runExts (q.f 4 18 0) ((o.units.length + 63) / 64)) = false ∧ s.dev.allotExts
    q.part (List.range 16) ((o.units.length + 63) / 64) = some (es, d) ∧ s = s₀.reach (cmdKey c)) ∧
    (∃ (s : State) (c : Cmd) (r : CmdRec) (q : Req) (o : NandObj) (s₀ : State), q = reqOf c r ∧ Started 0x0212 c r s ∧ q.clean [(2, top32), (3,
    top32)] = true ∧ s.dev.loading (q.d2 2) = false ∧ s.dev.storeObj q.part (q.d2 2) = some o ∧ s = s₀.reach (cmdKey c)) ∧
    (∃ (s : State) (c : Cmd) (r : CmdRec) (q : Req) (v : Nat) (s₀ : State), q = reqOf c r ∧ Started 0x0220 c r s ∧ q.clean [] = true ∧ (s.dev.keysOf
    q.part).1.length < 4 ∧ (List.range 63).find? (fun v => !(s.dev.keysOf q.part).1.contains (v + 1)) = some v ∧ s = s₀.reach (evKey 4 0 0)) ∧
    (∃ (s : State) (c : Cmd) (r : CmdRec) (q : Req) (s₀ : State), q = reqOf c r ∧ Started 0x0221 c r s ∧ q.clean [(2, 0x3F)] = true ∧ q.f 2 5 0 ≠
    (s.dev.keysOf q.part).2 ∧ (s.dev.keysOf q.part).1.contains (q.f 2 5 0) = true ∧ s.dev.unitsUnder q.part (q.f 2 5 0) = 0 ∧ s = s₀.reach (evKey 4 0
    0)) ∧
    (∃ (s : State) (c : Cmd) (r : CmdRec) (q : Req) (s₀ : State), q = reqOf c r ∧ Started 0x0222 c r s ∧ q.clean [] = true ∧ s = s₀.reach (cmdKey c)) :=
  ⟨⟨_, (rq 0x0200 [0x7FFFF, 1, 31]), (rc 0x0200 [0x7FFFF, 1, 31]), _, _, _, _, (sc 0x0200 [0x7FFFF, 1, 31] (dv)), rfl,
     (by unfold Started; decide +kernel), by decide +kernel, some_get1 (by decide +kernel), by decide +kernel, (by decide +kernel),
     by decide +kernel, some_get2 (by decide +kernel), rfl⟩,
   ⟨_, (rq 0x0201 [7, 1]), (rc 0x0201 [7, 1]), _, (sc 0x0201 [7, 1]
     ({ dv with mem := { MemState.reset with bufs := [(bufKey 0 7, ⟨extentAddr 524288, [], false, 0, 0, []⟩)], exts := [(524288, 0)] } })), rfl,
     (by unfold Started; decide +kernel), by decide +kernel, (by decide +kernel), by decide +kernel, (by decide +kernel), by decide +kernel,
     (by decide +kernel), rfl⟩,
   ⟨_, (rq 0x0201 [7, 1]), (rc 0x0201 [7, 1]), _, (sc 0x0201 [7, 1]
     ({ dv with mem := { MemState.reset with bufs := [(bufKey 0 7, ⟨extentAddr 524288, [], false, 0, 0, []⟩)], exts := [(524288, 0)], pins := [(gran (extentAddr 524288), 1)] } })),
     rfl, (by unfold Started; decide +kernel), by decide +kernel, (by decide +kernel), by decide +kernel, (by decide +kernel), by decide +kernel,
     rfl⟩,
   ⟨_, (rq 0x0202 [7, 1, 15]), (rc 0x0202 [7, 1, 15]), _, _, _, (sc 0x0202 [7, 1, 15]
     ({ dv with mem := { MemState.reset with bufs := [(bufKey 0 7, ⟨extentAddr 524288, [], false, 0, 0, []⟩)], exts := [(524288, 0)] } })), rfl,
     (by unfold Started; decide +kernel), by decide +kernel, (by decide +kernel), by decide +kernel, (by decide +kernel), by decide +kernel,
     some_get2 (by decide +kernel), rfl⟩,
   ⟨_, (rq 0x0203 [0, 0, 0xE00000, 0, 0x200000]), (rc 0x0203 [0, 0, 0xE00000, 0, 0x200000]), _, _, _, _, (sc 0x0203 [0, 0, 0xE00000, 0, 0x200000]
     ({ dv with mem := { MemState.reset with bufs := [(bufKey 0 7, ⟨extentAddr 524288, [], false, 0, 0, []⟩)], exts := [(524288, 0)] } })), rfl,
     (by unfold Started; decide +kernel), by decide +kernel, rfl, rfl, (by decide +kernel), by decide +kernel, some_get1 (by decide +kernel),
     by decide +kernel, rfl⟩,
   ⟨_, (rq 0x0203 [0, 0, 0xE00000, 0x80000000, 0x200000]), (rc 0x0203 [0, 0, 0xE00000, 0x80000000, 0x200000]), _, _, _, _, (sc 0x0203 [0, 0,
     0xE00000, 0x80000000, 0x200000]
     ({ dv with mem := { MemState.reset with bufs := [(bufKey 0 7, ⟨extentAddr 524288, [], false, 0, 0, []⟩)], exts := [(524288, 0)] } })), rfl,
     (by unfold Started; decide +kernel), by decide +kernel, rfl, rfl, (by decide +kernel), by decide +kernel, some_get1 (by decide +kernel),
     by decide +kernel, (by decide +kernel), rfl⟩,
   ⟨_, (rq 0x0204 [7, 1]), (rc 0x0204 [7, 1]), _, (sc 0x0204 [7, 1]
     ({ dv with mem := { MemState.reset with bufs := [(bufKey 0 7, ⟨extentAddr 524288, [], false, 0, 0, []⟩)], exts := [(524288, 0)] } })), rfl,
     (by unfold Started; decide +kernel), by decide +kernel, (by decide +kernel), by decide +kernel, (by decide +kernel), by decide +kernel, rfl⟩,
   ⟨_, (rq 0x0205 [5]), (rc 0x0205 [5]), _, (⟨0, [], 0, true, 0, false, 0, 0, 0, 0, 0, 0, 0, [], [], false, []⟩ : Share), (sc 0x0205 [5]
     ({ dv with mem := { MemState.reset with shares := [(5, (⟨0, [], 0, true, 0, false, 0, 0, 0, 0, 0, 0, 0, [], [], false, []⟩ : Share))] } })),
     rfl, (by unfold Started; decide +kernel), by decide +kernel, (by decide +kernel), by decide +kernel, (by decide +kernel), rfl⟩,
   ⟨_, (rq 0x0206 [0, 0]), (rc 0x0206 [0, 0]), _, _, (sc 0x0206 [0, 0] (dv)), rfl, (by unfold Started; decide +kernel), by decide +kernel, rfl,
     by decide +kernel, rfl⟩,
   ⟨_, (rq 0x0206 [0xE00000, 0]), (rc 0x0206 [0xE00000, 0]), _, _, 1, false, (sc 0x0206 [0xE00000, 0]
     ({ dv with mem := { MemState.reset with bufs := [(bufKey 0 7, ⟨extentAddr 524288, [(0, .nand 1)], false, 0, 0, []⟩)], exts := [(524288, 0)] } })),
     rfl, (by unfold Started; decide +kernel), by decide +kernel, rfl, by decide +kernel, rfl⟩,
   ⟨_, (rq 0x0206 [0xE00000, 0]), (rc 0x0206 [0xE00000, 0]), _, _, (extentAddr 524288), false, (sc 0x0206 [0xE00000, 0]
     ({ dv with mem := { MemState.reset with bufs := [(bufKey 0 7, ⟨extentAddr 524288, [], false, 0, 0, []⟩)], exts := [(524288, 0)] } })), rfl,
     (by unfold Started; decide +kernel), by decide +kernel, rfl, by decide +kernel, rfl⟩,
   ⟨_, (rq 0x0210 [7, 1, 1]), (rc 0x0210 [7, 1, 1]), _, (sc 0x0210 [7, 1, 1]
     ({ dv with mem := { MemState.reset with bufs := [(bufKey 0 7, ⟨extentAddr 524288, [], false, 0, 0, []⟩)], exts := [(524288, 0)] } })), rfl,
     (by unfold Started; decide +kernel), by decide +kernel, (by decide +kernel), by decide +kernel, (by decide +kernel), by decide +kernel,
     (by decide +kernel), by decide +kernel, rfl⟩,
   ⟨_, (rq 0x0211 [6, 0, 0x7FFFF]), (rc 0x0211 [6, 0, 0x7FFFF]), _, (⟨0, .store, [1], 32768, true⟩ : NandObj), _, _, (sc 0x0211 [6, 0, 0x7FFFF]
     ({ dv with nand := { NandState.reset with objs := [(6, (⟨0, .store, [1], 32768, true⟩ : NandObj))], units := [(1, ⟨0, 1, 1, 0, 0, 0, 0, []⟩)] } })),
     rfl, (by unfold Started; decide +kernel), by decide +kernel, (by decide +kernel), by decide +kernel, (by decide +kernel), by decide +kernel,
     some_get2 (by decide +kernel), rfl⟩,
   ⟨_, (rq 0x0212 [6, 0]), (rc 0x0212 [6, 0]), _, (⟨0, .store, [1], 32768, true⟩ : NandObj), (sc 0x0212 [6, 0]
     ({ dv with nand := { NandState.reset with objs := [(6, (⟨0, .store, [1], 32768, true⟩ : NandObj))], units := [(1, ⟨0, 1, 1, 0, 0, 0, 0, []⟩)] } })),
     rfl, (by unfold Started; decide +kernel), by decide +kernel, (by decide +kernel), by decide +kernel, rfl⟩,
   ⟨_, (rq 0x0220 []), (rc 0x0220 []), _, _, (sc 0x0220 [] (dv)), rfl, (by unfold Started; decide +kernel), by decide +kernel, (by decide +kernel),
     some_get1 (by decide +kernel), rfl⟩,
   ⟨_, (rq 0x0221 [63]), (rc 0x0221 [63]), _, (sc 0x0221 [63] ({ dv with nand := { NandState.reset with keys := [(0, ([1, 63], 1))] } })), rfl,
     (by unfold Started; decide +kernel), by decide +kernel, (by decide +kernel), by decide +kernel, (by decide +kernel), rfl⟩,
   ⟨_, (rq 0x0222 []), (rc 0x0222 []), _, (sc 0x0222 [] (dv)), rfl, (by unfold Started; decide +kernel), by decide +kernel, rfl⟩⟩

/-- A state and operands that meet the hypotheses of each clause of GranuleRowsTakeEffect. -/
theorem wit_granuleRowsTakeEffect :
    (∃ (s : State) (id p : Nat) (src : CmdSrc) (ab : Bool) (first count : Nat) (s₀ : State), s.clock.power = true ∧ tget s.dev.ops id = some ⟨src, p,
    .unmap first count, ab⟩ ∧ s.dev.runPinned p first count = false ∧ s.dev.runHeld id p first count = false ∧ s = s₀.follow) ∧
    (∃ (s : State) (id p : Nat) (src : CmdSrc) (ab : Bool) (first a n : Nat) (dst : List Nat) (m : MoveProg) (s₀ : State), s.clock.power = true ∧
    tget s.dev.ops id = some ⟨src, p, .moveExt first dst m, ab⟩ ∧ m.copying = false ∧ s.dev.hasDesc id = true ∧ s.dev.runHeld id p first dst.length =
    false ∧ s.dev.nextHeld p first dst.length m.next = some (n, .hbm a) ∧ s.dev.pinned (gran a) = false ∧ thas s.dev.mem.copying (gran a) = false ∧
    s = s₀.follow) ∧
    (∃ (s : State) (id p : Nat) (src : CmdSrc) (ab : Bool) (first n : Nat) (h : Home) (dst : List Nat) (m : MoveProg) (d : Dev) (s₀ : State),
    s.clock.power = true ∧ tget s.dev.ops id = some ⟨src, p, .moveExt first dst m, ab⟩ ∧ m.copying = true ∧ s.dev.reach s.ctx .culm (1, id)
    (s.dev.copyRanges ⟨src, p, .moveExt first dst m, ab⟩ false) = (.go, d) ∧ d.nextHeld p first dst.length m.next = some (n, h) ∧ m.next + 1 <
    ((d.switchExt s.ctx p first (m.to dst n) n).heldRun p first dst.length).length ∧ ab = false ∧ s = s₀.reach (evKey 5 0 (source 4 0))) ∧
    (∃ (s : State) (id p : Nat) (src : CmdSrc) (ab : Bool) (first n : Nat) (h : Home) (dst : List Nat) (m : MoveProg) (d : Dev) (s₀ : State),
    s.clock.power = true ∧ tget s.dev.ops id = some ⟨src, p, .moveExt first dst m, ab⟩ ∧ m.copying = true ∧ s.dev.reach s.ctx .culm (1, id)
    (s.dev.copyRanges ⟨src, p, .moveExt first dst m, ab⟩ false) = (.go, d) ∧ d.nextHeld p first dst.length m.next = some (n, h) ∧ ((d.switchExt s.ctx
    p first (m.to dst n) n).heldRun p first dst.length).length ≤ m.next + 1 ∧ s = s₀.reach (evKey 5 0 (source 4 0))) ∧
    (∃ (s : State) (w : Nat) (l : List Nat) (s₀ : State), s.clock.power = true ∧ s.dev.mem.culmWait = w :: l ∧ nsum (s.dev.mem.culm.map Prod.snd) <
    16384 ∧ s = s₀.follow) :=
  ⟨⟨_, 2, 0, (.ring ⟨0, 0⟩ 0 0), false, 7, 1, (st
     { { dv with mem := { MemState.reset with bufs := [(bufKey 0 7, ⟨extentAddr 524288, [], false, 0, 0, []⟩)], exts := [(524288, 0)] } } with ops := [(2, ⟨.ring ⟨0, 0⟩ 0 0, 0, .unmap 7 1, false⟩)] }),
     by decide +kernel, (by decide +kernel), by decide +kernel, (by decide +kernel), rfl⟩,
   ⟨_, 2, 0, (.ring ⟨0, 0⟩ 0 0), false, 7, (extentAddr 524288 + 63 * 32768), 63, [524289], ⟨63, 0, false, false, 0⟩, (st
     { { dv with mem := { MemState.reset with bufs := [(bufKey 0 7, ⟨extentAddr 524288, [], false, 0, 0, []⟩)], exts := [(524288, 0), (524289, 0)], culm := [(2, 1)] } } with ops := [(2, ⟨.ring ⟨0, 0⟩ 0 0, 0, .moveExt 7 [524289] ⟨63, 0, false, false, 0⟩, false⟩)] }),
     by decide +kernel, (by decide +kernel), by decide +kernel, (by decide +kernel), by decide +kernel, (by decide +kernel), by decide +kernel,
     (by decide +kernel), rfl⟩,
   ⟨_, 2, 0, (.ring ⟨0, 0⟩ 0 0), false, 7, 62, (.hbm (extentAddr 524288 + 62 * 32768)), [524289], ⟨62, 0, true, false, 0⟩, _, (st
     { { dv with mem := { MemState.reset with bufs := [(bufKey 0 7, ⟨extentAddr 524288, [], false, 0, 0, []⟩)], exts := [(524288, 0), (524289, 0)], culm := [(2, 1)] } } with ops := [(2, ⟨.ring ⟨0, 0⟩ 0 0, 0, .moveExt 7 [524289] ⟨62, 0, true, false, 0⟩, false⟩)] }),
     by decide +kernel, (by decide +kernel), by decide +kernel, fst_get (by decide +kernel), by decide +kernel, (by decide +kernel),
     by decide +kernel, rfl⟩,
   ⟨_, 2, 0, (.ring ⟨0, 0⟩ 0 0), false, 7, 63, (.hbm (extentAddr 524288 + 63 * 32768)), [524289], ⟨63, 0, true, false, 0⟩, _, (st
     { { dv with mem := { MemState.reset with bufs := [(bufKey 0 7, ⟨extentAddr 524288, [], false, 0, 0, []⟩)], exts := [(524288, 0), (524289, 0)], culm := [(2, 1)] } } with ops := [(2, ⟨.ring ⟨0, 0⟩ 0 0, 0, .moveExt 7 [524289] ⟨63, 0, true, false, 0⟩, false⟩)] }),
     by decide +kernel, (by decide +kernel), by decide +kernel, fst_get (by decide +kernel), by decide +kernel, (by decide +kernel), rfl⟩,
   ⟨_, 2, [], (st { dv with mem := { MemState.reset with culmWait := [2], culm := [(1, 16383)] } }), by decide +kernel, (by decide +kernel),
     by decide +kernel, rfl⟩⟩

/-- A state and operands that meet the hypotheses of each clause of ParkingTierRowsTakeEffect. -/
theorem wit_parkingTierRowsTakeEffect :
    (∃ (s : State) (id p a b n u : Nat) (src : CmdSrc) (us : List Nat) (m : MoveProg) (ab : Bool) (v : NUnit) (s₀ : State), s.clock.power = true ∧
    tget s.dev.ops id = some ⟨src, p, .store a b n us m, ab⟩ ∧ m.copying = true ∧ (us.drop m.next).getLast? = some u ∧ s.dev.nandWaits id = false ∧
    tget s.dev.nand.units u = some v ∧ s = s₀.reach (evKey 5 0 (source 4 0))) ∧
    (∃ (s : State) (die : Nat) (s₀ : State), s.clock.power = true ∧ die < 128 ∧ s.dev.nand.failed.contains die = false ∧ s.dev.nand.rebuilding = [] ∧
    s = s₀.reach (evKey 1 0 (source 4 (0x100 + die)))) ∧
    (∃ (s : State) (die : Nat) (s₀ : State), s.clock.power = true ∧ s.dev.nand.rebuilding.contains die = true ∧ s = s₀.reach (evKey 5 0 (source 4
    (0x100 + die)))) ∧
    (∃ (s : State) (region b : Nat), s.clock.power = true ∧ region < 2 ∧ ((s.dev.freeShare region < 3 ∨ s.dev.allotment region < s.dev.blocksUsed
    region)) ∧ s.dev.emptiest region s.dev.nand.blocks = some b) ∧
    (∃ (s : State) (b : Nat) (w : Bool) (k : NBlock), s.clock.power = true ∧ tget s.dev.nand.blocks b = some k ∧ k.region < 2 ∧ ((w = true ∧
    k.tired = true ∨ k.region = 0 ∧ 400000 ≤ k.reads ∨ k.region = 1 ∧ 60000 ≤ k.reads))) ∧
    (∃ (s : State) (b : Nat) (k : NBlock), s.clock.power = true ∧ tget s.dev.nand.blocks b = some k ∧ k.region < 2 ∧ ((∀ o ∈ s.dev.nand.blocks, 2 ≤
    o.2.region ∨ k.wear ≤ o.2.wear)) ∧ ((∃ o ∈ s.dev.nand.blocks, s.dev.wearSum + 15000 * s.dev.goodBlocks < o.2.wear * s.dev.goodBlocks ∨ o.2.wear *
    s.dev.goodBlocks + 15000 * s.dev.goodBlocks < s.dev.wearSum))) ∧
    (∃ (s : State) (p u : Nat) (v : NUnit) (s₀ : State), s.clock.power = true ∧ tget s.dev.nand.units u = some v ∧ v.part = p ∧ v.key ≠ (s.dev.keysOf
    p).2 ∧ v.state = 1 ∧ fld (s.dev.partReg p 0x04000C) 11 0 ≠ 0 ∧ s = s₀.reach (evKey 5 0 (source 4 0))) ∧
    (∃ (s : State) (u : Nat) (v : NUnit) (res : NandRead) (d : Dev), s.clock.power = true ∧ tget s.dev.nand.units u = some v ∧ d =
    { s.dev with nand := { s.dev.nand with blocks := tmod s.dev.nand.blocks v.block fun k => { k with reads := k.reads + 1, tired := k.tired || res == .worn } } } ∧
    res ≠ .unreadable ∧ res ≠ .rebuilt ∧ (s.dev.nand.failed.contains v.die = false ∨ v.state ≠ 1)) ∧
    (∃ (s : State) (u : Nat) (v : NUnit) (res : NandRead) (d : Dev), s.clock.power = true ∧ tget s.dev.nand.units u = some v ∧ d =
    { s.dev with nand := { s.dev.nand with blocks := tmod s.dev.nand.blocks v.block fun k => { k with reads := k.reads + 1, tired := k.tired || res == .worn } } } ∧
    res ≠ .unreadable ∧ (res = .rebuilt ∨ s.dev.nand.failed.contains v.die = true ∧ v.state = 1)) ∧
    (∃ (s : State) (u : Nat) (v : NUnit) (res : NandRead) (d : Dev), s.clock.power = true ∧ tget s.dev.nand.units u = some v ∧ d =
    { s.dev with nand := { s.dev.nand with blocks := tmod s.dev.nand.blocks v.block fun k => { k with reads := k.reads + 1, tired := k.tired || res == .worn } } } ∧
    res = .unreadable) :=
  ⟨⟨_, 2, 0, 7, 1, 0, 1, (.ring ⟨0, 0⟩ 0 0), [1], ⟨0, 0, true, false, 0⟩, false, (⟨0, 1, 1, 0, 5, 4, 0, []⟩ : NUnit), (st
     { { dv with nand := { NandState.reset with units := [(1, (⟨0, 1, 1, 0, 5, 4, 0, []⟩ : NUnit))], blocks := [(4, (⟨0, 400000, 3, false, []⟩ : NBlock))], nextUnit := 2 } } with ops := [(2, ⟨.ring ⟨0, 0⟩ 0 0, 0, .store 7 1 0 [1] ⟨0, 0, true, false, 0⟩, false⟩)] }),
     by decide +kernel, (by decide +kernel), by decide +kernel, (by decide +kernel), by decide +kernel, (by decide +kernel), rfl⟩,
   ⟨_, 127, (st dv), by decide +kernel, (by decide +kernel), by decide +kernel, (by decide +kernel), rfl⟩,
   ⟨_, 5, (st { dv with nand := { NandState.reset with rebuilding := [5], failed := [5] } }), by decide +kernel, (by decide +kernel), rfl⟩,
   ⟨(st
     { { dv with nand := { NandState.reset with units := [(1, (⟨0, 1, 1, 0, 5, 4, 0, []⟩ : NUnit))], blocks := [(4, (⟨0, 400000, 3, false, []⟩ : NBlock))], nextUnit := 2 } } with regs := ⟨[], [(devKey 0x040200, 0)], [], []⟩ }),
     0, 4, by decide +kernel⟩,
   ⟨(st
     { dv with nand := { NandState.reset with units := [(1, (⟨0, 1, 1, 0, 5, 4, 0, []⟩ : NUnit))], blocks := [(4, (⟨0, 400000, 3, false, []⟩ : NBlock))], nextUnit := 2 } }),
     4, false, (⟨0, 400000, 3, false, []⟩ : NBlock), by decide +kernel⟩,
   ⟨(st
     { dv with nand := { NandState.reset with units := [(1, (⟨0, 1, 1, 0, 5, 4, 0, []⟩ : NUnit))], blocks := [(4, (⟨0, 400000, 3, false, []⟩ : NBlock)), (5, (⟨0, 0, 15001, false, []⟩ : NBlock))] } }),
     4, (⟨0, 400000, 3, false, []⟩ : NBlock), by decide +kernel⟩,
   ⟨_, 0, 1, (⟨0, 1, 1, 0, 5, 4, 0, []⟩ : NUnit), (st
     { dv with nand := { NandState.reset with units := [(1, (⟨0, 1, 1, 0, 5, 4, 0, []⟩ : NUnit))], keys := [(0, ([1, 2], 2))] }, regs := ⟨[], [(partKey 0 0x04000C, 1)], [], []⟩ }),
     by decide +kernel, (by decide +kernel), by decide +kernel, (by decide +kernel), by decide +kernel, (by decide +kernel), rfl⟩,
   ⟨(st
     { dv with nand := { NandState.reset with units := [(1, (⟨0, 1, 1, 0, 5, 4, 0, []⟩ : NUnit))], blocks := [(4, (⟨0, 400000, 3, false, []⟩ : NBlock))], nextUnit := 2 } }),
     1, (⟨0, 1, 1, 0, 5, 4, 0, []⟩ : NUnit), .worn, _, by decide +kernel, (by decide +kernel), rfl, by decide +kernel⟩,
   ⟨(st
     { dv with nand := { NandState.reset with units := [(1, (⟨0, 1, 1, 0, 5, 4, 0, []⟩ : NUnit))], blocks := [(4, (⟨0, 400000, 3, false, []⟩ : NBlock))], nextUnit := 2 } }),
     1, (⟨0, 1, 1, 0, 5, 4, 0, []⟩ : NUnit), .rebuilt, _, by decide +kernel, (by decide +kernel), rfl, by decide +kernel⟩,
   ⟨(st
     { dv with nand := { NandState.reset with units := [(1, (⟨0, 1, 1, 0, 5, 4, 0, []⟩ : NUnit))], blocks := [(4, (⟨0, 400000, 3, false, []⟩ : NBlock))], nextUnit := 2 } }),
     1, (⟨0, 1, 1, 0, 5, 4, 0, []⟩ : NUnit), .unreadable, _, by decide +kernel, (by decide +kernel), rfl, by decide +kernel⟩⟩

/-- A state and operands that meet the hypotheses of each clause of CoreScalarOperationsTakeEffect. -/
theorem wit_coreScalarOperationsTakeEffect :
    (∃ (s : State) (n : Nat) (c : Core) (rd rs rt : Nat), CoreReady n c s ∧ rd < 32 ∧ rs < 32 ∧ rt < 32) ∧
    (∃ (s : State) (n : Nat) (c : Core) (rd : Nat), CoreReady n c s ∧ 32 ≤ rd) ∧
    (∃ (s : State) (n : Nat) (c : Core) (bytes r base a : Nat) (off : BitVec 16), CoreReady n c s ∧ r < 32 ∧ base < 32 ∧ ((bytes = 1 ∨ bytes = 2 ∨
    bytes = 4 ∨ bytes = 8)) ∧ a = (c.rd base + immVal 13 64 off).toNat ∧ a + bytes ≤ lsTop ∧ s.dev.lsBad n a bytes = false) ∧
    (∃ (s : State) (n : Nat) (c : Core) (bytes r base a : Nat) (off : BitVec 16), CoreReady n c s ∧ r < 32 ∧ base < 32 ∧ ((bytes = 1 ∨ bytes = 2 ∨
    bytes = 4 ∨ bytes = 8)) ∧ a = (c.rd base + immVal 13 64 off).toNat ∧ a + bytes ≤ lsTop ∧ s.dev.lsBad n a bytes = true) ∧
    (∃ (s : State) (n : Nat) (c : Core) (t : Nat) (rs rt : Nat), CoreReady n c s ∧ codeAt t = true ∧ rs < 32 ∧ rt < 32) ∧
    (∃ (s : State) (n : Nat) (c : Core) (a : Nat) (l : List Nat), CoreReady n c s ∧ c.calls = a :: l) ∧
    (∃ (s : State) (n : Nat) (c : Core) (r len : Nat), CoreReady n c s ∧ r < 32 ∧ 1 ≤ len ∧ (c.rd r).toNat = 0) ∧
    (∃ (s : State) (n : Nat) (c : Core) (r len : Nat), CoreReady n c s ∧ r < 32 ∧ 1 ≤ len ∧ 1 ≤ (c.rd r).toNat) :=
  ⟨⟨(st (dco co)), 255, co, 31, 31, 31, by unfold CoreReady; decide +kernel⟩,
   ⟨(st (dco co)), 255, co, 32, by unfold CoreReady; decide +kernel⟩,
   ⟨(st (dco { co with regs := [0, 0x2FFFF8] })), 255, ({ co with regs := [0, 0x2FFFF8] }), 8, 31, 1, 0x2FFFF8, 0,
     by unfold CoreReady; decide +kernel, (by decide +kernel), by decide +kernel, (by decide +kernel), by rw [imm0]; decide +kernel,
     by decide +kernel⟩,
   ⟨(st
     { dco { co with regs := [0, 0x2FFFF8] } with grid := { (dco { co with regs := [0, 0x2FFFF8] }).grid with lsPoison := [lsAddr 255 0x2FFFF8 / 4] } }),
     255, ({ co with regs := [0, 0x2FFFF8] }), 8, 31, 1, 0x2FFFF8, 0, by unfold CoreReady; decide +kernel, (by decide +kernel), by decide +kernel,
     (by decide +kernel), by rw [imm0]; decide +kernel, by decide +kernel⟩,
   ⟨(st (dco co)), 255, co, 0x2FFFF8, 31, 31, by unfold CoreReady; decide +kernel⟩,
   ⟨(st (dco { co with calls := [8] })), 255, ({ co with calls := [8] }), 8, [], by unfold CoreReady; decide +kernel⟩,
   ⟨(st (dco co)), 255, co, 31, 1, by unfold CoreReady; decide +kernel⟩,
   ⟨(st (dco { co with regs := [0, 1] })), 255, ({ co with regs := [0, 1] }), 1, 1, by unfold CoreReady; decide +kernel⟩⟩

/-- A state and operands that meet the hypotheses of each clause of CoreMatrixAndVectorOperationsTakeEffect. -/
theorem wit_coreMatrixAndVectorOperationsTakeEffect :
    (∃ (s : State) (n : Nat) (c : Core) (w base f layer k : Nat) (rf out due : Bool) (bs : List Byte) (m : Mdl) (t : Tile) (c1 : Core), CoreReady n c
    s ∧ w ≤ 1 ∧ base % 64 = 0 ∧ base + 64 ≤ lsTop ∧ s.dev.lsBad n base 64 = false ∧ tileHdr (s.dev.lsRead n base 64) = some (f, rf, out, layer) ∧
    depthOf f = some k ∧ base + 64 + tileLen f k ≤ lsTop ∧ s.dev.lsBad n (base + 64) (tileLen f k) = false ∧ bs = s.dev.lsRead n (base + 64) (tileLen
    f k) ∧ s.dev.mdl c.model = some m ∧ due = ((s.dev.numCfg m.part).1 && narrowFmt f && decide (2 ^ (s.dev.numCfg m.part).2.1 ≤ c.samples)) ∧ t =
    { Tile.empty with fmt := f, layer := layer, outlier := out, codes := tileCodes f k (bs.take (64 * (k * fmtBits f / 8))), scales := tileScales f k (bs.drop (64 * (k * fmtBits f / 8))) } ∧
    c1 = { c with layer := layer, errs := if (c.tile w).sampled = true then c.errs ++ [((c.tile w).error, (c.tile w).layer)] else c.errs } ∧ (due =
    false ∨ rf = false)) ∧
    (∃ (s : State) (n : Nat) (c : Core) (w base f layer k : Nat) (rf out due : Bool) (bs : List Byte) (m : Mdl) (t : Tile) (c1 : Core) (rs : List
    Byte), CoreReady n c s ∧ w ≤ 1 ∧ base % 64 = 0 ∧ base + 64 ≤ lsTop ∧ s.dev.lsBad n base 64 = false ∧ tileHdr (s.dev.lsRead n base 64) = some (f,
    rf, out, layer) ∧ depthOf f = some k ∧ base + 64 + tileLen f k ≤ lsTop ∧ s.dev.lsBad n (base + 64) (tileLen f k) = false ∧ bs = s.dev.lsRead n
    (base + 64) (tileLen f k) ∧ s.dev.mdl c.model = some m ∧ due = ((s.dev.numCfg m.part).1 && narrowFmt f && decide (2 ^ (s.dev.numCfg m.part).2.1 ≤
    c.samples)) ∧ t =
    { Tile.empty with fmt := f, layer := layer, outlier := out, codes := tileCodes f k (bs.take (64 * (k * fmtBits f / 8))), scales := tileScales f k (bs.drop (64 * (k * fmtBits f / 8))) } ∧
    c1 = { c with layer := layer, errs := if (c.tile w).sampled = true then c.errs ++ [((c.tile w).error, (c.tile w).layer)] else c.errs } ∧ due =
    true ∧ rf = true ∧ base + 64 + tileLen f k + tileLen 1 k ≤ lsTop ∧ s.dev.lsBad n (base + 64 + tileLen f k) (tileLen 1 k) = false ∧ rs =
    s.dev.lsRead n (base + 64 + tileLen f k) (tileLen 1 k)) ∧
    (∃ (s : State) (n : Nat) (c : Core) (w ac af base rows row k len : Nat), CoreReady n c s ∧ w ≤ 1 ∧ ac ≤ 1 ∧ 1 ≤ rows ∧ row + rows ≤ 64 ∧ depthOf
    (c.tile w).fmt = some k ∧ actOk (c.tile w).fmt af = true ∧ len = rows * (k * fmtBits af / 8) + rows * (k / 32) ∧ base + len ≤ lsTop ∧ s.dev.lsBad
    n base len = false) ∧
    (∃ (s : State) (n : Nat) (c : Core) (ac row rows fmt dst : Nat), CoreReady n c s ∧ ac ≤ 1 ∧ 1 ≤ rows ∧ row + rows ≤ 64 ∧ ((fmt = 0x20 ∨ fmt =
    0x22)) ∧ dst + (((List.range rows).flatMap fun i => c.accRow ac (row + i)).flatMap (storeVal fmt)).length ≤ lsTop) ∧
    (∃ (s : State) (n : Nat) (c : Core) (q fmt a : Nat), CoreReady n c s ∧ q < 32 ∧ ((fmt = 0x20 ∨ fmt = 0x21 ∨ fmt = 0x22)) ∧ a + 128 * fmtBits fmt
    / 8 ≤ lsTop ∧ s.dev.lsBad n a (128 * fmtBits fmt / 8) = false) ∧
    (∃ (s : State) (n : Nat) (c : Core) (q fmt a : Nat), CoreReady n c s ∧ q < 32 ∧ ((fmt = 0x20 ∨ fmt = 0x21 ∨ fmt = 0x22)) ∧ a + ((c.vec q).flatMap
    (storeVal fmt)).length ≤ lsTop) ∧
    (∃ (s : State) (n : Nat) (c : Core) (qd qa r : Nat), CoreReady n c s ∧ qd < 32 ∧ qa < 32 ∧ r < 32) ∧
    (∃ (s : State) (n : Nat) (c : Core) (rd qa : Nat), CoreReady n c s ∧ rd < 32 ∧ qa < 32) ∧
    (∃ (s : State) (n : Nat) (c : Core) (f q o dst sc stage group : Nat) (src split : Option Nat) (l : List F32) (d : Dev) (bl : List QBlock) (cb sb
    : List Byte), CoreReady n c s ∧ blockFmt f = true ∧ ((src = some q ∧ q < 32 ∧ split = none ∧ l = c.vec q ∧ d = s.dev ∨ src = some q ∧ q < 32 ∧
    split = some o ∧ o + 128 ≤ lsTop ∧ s.dev.lsBad n o 128 = false ∧ stage + 256 ≤ lsTop ∧ l = ((c.vec q).mapIdx fun i v => if group * 128 + i ≠
    0xFFFF ∧ (outMap (s.dev.lsRead n o 128)).contains (group * 128 + i) = true then (0 : F32) else v) ∧ d = stageOut n stage group (c.vec q) s.dev
    ((outMap (s.dev.lsRead n o 128)).mapIdx fun j i => (j, i)) ∨ src = none ∧ f = 1 ∧ stage + 256 ≤ lsTop ∧ s.dev.lsBad n stage 256 = false ∧ l =
    bytesWords 64 (s.dev.lsRead n stage 256) ∧ d = s.dev)) ∧ bl = quantLanes f l ∧ cb = leBytes (bl.length * fmtBlock f * fmtBits f / 8) (packBits
    (fmtBits f) (bl.flatMap QBlock.codes)) ∧ sb = (bl.flatMap fun b => scaleStore f b.scale) ∧ dst + cb.length ≤ lsTop ∧ sc + sb.length ≤ lsTop) ∧
    (∃ (s : State) (n : Nat) (c : Core) (f q src sc : Nat) (cb sb : List Byte), CoreReady n c s ∧ q < 32 ∧ blockFmt f = true ∧ src + 128 * fmtBits f
    / 8 ≤ lsTop ∧ sc + scaleBytes f 128 ≤ lsTop ∧ s.dev.lsBad n src (128 * fmtBits f / 8) = false ∧ s.dev.lsBad n sc (scaleBytes f 128) = false ∧
    cb = s.dev.lsRead n src (128 * fmtBits f / 8) ∧ sb = s.dev.lsRead n sc (scaleBytes f 128)) :=
  ⟨⟨(st { dco co with regs := ⟨[], [(partKey 0 0x060400, 0)], [], []⟩, grid := { (dco co).grid with ls := [(lsAddr 255 0, 1)] } }), 255, co, 1, 0,
     1, 0, 64, false, false, _, _, md, _, _, by unfold CoreReady; decide +kernel, (by decide +kernel), by decide +kernel, (by decide +kernel),
     by decide +kernel, (by decide +kernel), by decide +kernel, (by decide +kernel), by decide +kernel, rfl, by decide +kernel, rfl, rfl, rfl,
     by decide +kernel⟩,
   ⟨(st
     { dco { co with samples := 1 } with regs := ⟨[], [(partKey 0 0x060400, 0x80000000)], [], []⟩, grid := { (dco { co with samples := 1 }).grid with ls := [(lsAddr 255 0, 5), (lsAddr 255 1, 1)] } }),
     255, ({ co with samples := 1 }), 1, 0, 5, 0, 128, true, false, _, _, md, _, _, _, by unfold CoreReady; decide +kernel, (by decide +kernel),
     by decide +kernel, (by decide +kernel), by decide +kernel, (by decide +kernel), by decide +kernel, (by decide +kernel), by decide +kernel, rfl,
     by decide +kernel, rfl, rfl, rfl, by decide +kernel, (by decide +kernel), by decide +kernel, (by decide +kernel), rfl⟩,
   ⟨(st (dco { co with tile1 := { Tile.empty with fmt := 1 } })), 255, ({ co with tile1 := { Tile.empty with fmt := 1 } }), 1, 1, 1, 0, 1, 63, 64,
     _, by unfold CoreReady; decide +kernel, (by decide +kernel), by decide +kernel, (by decide +kernel), by decide +kernel, (by decide +kernel),
     by decide +kernel, rfl, by decide +kernel⟩,
   ⟨(st (dco co)), 255, co, 1, 63, 1, 0x22, 0x2FFF00, by unfold CoreReady; decide +kernel⟩,
   ⟨(st (dco co)), 255, co, 31, 0x22, 0x2FFE00, by unfold CoreReady; decide +kernel⟩,
   ⟨(st (dco co)), 255, co, 31, 0x22, 0x2FFE00, by unfold CoreReady; decide +kernel⟩,
   ⟨(st (dco co)), 255, co, 31, 31, 31, by unfold CoreReady; decide +kernel⟩,
   ⟨(st (dco co)), 255, co, 31, 31, by unfold CoreReady; decide +kernel⟩,
   ⟨(st (dco co)), 255, co, 1, 31, 0, 0x2FFF80, 0x2FFFFC, 0, 0, (some 31), none, (co.vec 31), ((st (dco co)).dev), _, _, _,
     by unfold CoreReady; decide +kernel, (by decide +kernel), .inl ⟨rfl, by decide, rfl, rfl, rfl⟩, rfl, rfl, rfl, by decide +kernel⟩,
   ⟨(st (dco co)), 255, co, 1, 31, 0x2FFF80, 0x2FFFFC, _, _, by unfold CoreReady; decide +kernel, (by decide +kernel), by decide +kernel,
     (by decide +kernel), by decide +kernel, (by decide +kernel), by decide +kernel, rfl, rfl⟩⟩

/-- A state and operands that meet the hypotheses of each clause of CoreGridRowsTakeEffect. -/
theorem wit_coreGridRowsTakeEffect :
    (∃ (s : State) (n : Nat) (c : Core) (dst t chan off len k : Nat) (h h' : Chan) (d : Dev), CoreReady n c s ∧ s.dev.peer c dst = some t ∧ tget
    (s.dev.core t).chans chan = some h ∧ tget h.credits n = some k ∧ len ≤ h.size ∧ off + len ≤ lsTop ∧ s.dev.lsBad n off len = false ∧ h' =
    { h with credits := tset h.credits n (k - 1) } ∧ d = s.dev.setCore t ((s.dev.core t).setChan chan h') ∧ 1 ≤ k) ∧
    (∃ (s : State) (n : Nat) (c : Core) (dst t chan off len k : Nat) (h h' : Chan) (d : Dev), CoreReady n c s ∧ s.dev.peer c dst = some t ∧ tget
    (s.dev.core t).chans chan = some h ∧ tget h.credits n = some k ∧ len ≤ h.size ∧ off + len ≤ lsTop ∧ s.dev.lsBad n off len = false ∧ h' =
    { h with credits := tset h.credits n (k - 1) } ∧ d = s.dev.setCore t ((s.dev.core t).setChan chan h') ∧ k = 0) ∧
    (∃ (s : State) (n : Nat) (c : Core) (chan ra rl slot src len t : Nat) (h : Chan) (q : List (Nat × Nat × Nat × Nat)), CoreReady n c s ∧ ra < 32 ∧
    rl < 32 ∧ chan ≠ 14 ∧ chan ≠ 15 ∧ tget c.chans chan = some h ∧ h.queue = (src, slot, len, t) :: q) ∧
    (∃ (s : State) (n : Nat) (c : Core) (chan src slot len : Nat) (h : Chan) (l : List (Nat × Nat × Nat)), CoreReady n c s ∧ chan ≠ 14 ∧ chan ≠ 15 ∧
    tget c.chans chan = some h ∧ h.taken = (src, slot, len) :: l) ∧
    (∃ (s : State) (n : Nat) (c : Core) (rd chan : Nat) (h : Chan), CoreReady n c s ∧ rd < 32 ∧ chan ≠ 14 ∧ chan ≠ 15 ∧ tget c.chans chan = some h) ∧
    (∃ (s : State) (n : Nat) (c : Core) (b o l : Nat), CoreReady n c s ∧ l ≠ 0 ∧ c.bufs[b]? = some (o, l, true)) ∧
    (∃ (s : State) (n : Nat) (c : Core) (b o l : Nat), CoreReady n c s ∧ l ≠ 0 ∧ c.bufs[b]? = some (o, l, false)) ∧
    (∃ (s : State) (n : Nat) (c : Core), CoreReady n c s ∧ c.inStep = true ∧ c.fresh = false) ∧
    (∃ (s : State) (n : Nat) (c : Core), CoreReady n c s ∧ c.xfers = [] ∧ ((∀ m ∈ s.dev.grid.msgs, m.src ≠ n))) ∧
    (∃ (s : State) (n : Nat) (c : Core) (off : Nat), CoreReady n c s ∧ off + 64 ≤ lsTop ∧ s.dev.lsBad n off 64 = false ∧ c.xfers ≠ [] ∧ c.model ≠ 0) ∧
    (∃ (s : State) (n rd : Nat) (c : Core), s.clock.power = true ∧ rd < 32 ∧ c.blocked = none ∧
    ({ s.dev with grid := { s.dev.grid with cores := tset s.dev.grid.cores n { s.dev.core n with waiting := false } } } : Dev).coreAt n = some c ∧
    c.fresh = true) ∧
    (∃ (s : State) (n rd : Nat) (c : Core), s.clock.power = true ∧ rd < 32 ∧ c.blocked = none ∧
    ({ s.dev with grid := { s.dev.grid with cores := tset s.dev.grid.cores n { s.dev.core n with waiting := false } } } : Dev).coreAt n = some c ∧
    c.fresh = false) ∧
    (∃ (s : State) (n : Nat) (c : Core) (b : Block) (t : Nat) (s₀ : State), s.clock.power = true ∧ s.dev.coreAt n = some c ∧ c.blocked = some (b,
    t) ∧ t + fld (s.dev.devReg 0x060200) 9 0 * ticksMs ≤ s.clock.now ∧ s.dev.stillBlocked n c b = true ∧ s = s₀.reach (evKey 1 0 (source 6 n))) ∧
    (∃ (s : State) (src dst chan : Nat) (m : Msg) (l : List Msg) (h : Chan), s.clock.power = true ∧ takeFirst (fun (m : Msg) => m.src == src && m.dst
    == dst && m.chan == chan) s.dev.grid.msgs = some (m, l) ∧ tget (s.dev.core dst).chans chan = some h ∧ ((∀ e ∈ h.queue, e.2.2.2 = s.clock.now →
    e.1 ≤ src))) ∧
    (∃ (s : State) (p a len : Nat) (t : CoreXfer), s.clock.power = true ∧ t.len = len ∧ t.kind = .out a ∧ s.dev.peerStore p a len = none ∧
    s.dev.xferOk p a len true = false) ∧
    (∃ (s : State) (p a len : Nat) (t : CoreXfer), s.clock.power = true ∧ t.len = len ∧ t.kind = .out a ∧ s.dev.peerStore p a len = none ∧
    s.dev.xferOk p a len true = true) ∧
    (∃ (s : State) (p a len : Nat) (t : CoreXfer), s.clock.power = true ∧ t.len = len ∧ t.kind = .inp a ∧ addrKind a ≠ .glAlias ∧ s.dev.peerStore p a
    len = none ∧ s.dev.xferOk p a len false = true) ∧
    (∃ (s : State) (p a len : Nat) (t : CoreXfer) (c o : Nat), s.clock.power = true ∧ t.len = len ∧ s.dev.peerStore p a len = some (c, o) ∧ t.kind =
    .out a) ∧
    (∃ (s : State) (p a len : Nat) (t : CoreXfer) (c o : Nat), s.clock.power = true ∧ t.len = len ∧ s.dev.peerStore p a len = some (c, o) ∧ t.kind =
    .inp a ∧ addrKind a ≠ .glAlias) ∧
    (∃ (s : State) (n : Nat) (t : CoreXfer) (ts : List CoreXfer) (m : Mdl) (d d1 : Dev) (s₀ : State), s.clock.power = true ∧ (s.dev.core n).xfers = t
    :: ts ∧ t.fan = none ∧ s.dev.mdl (s.dev.core n).model = some m ∧ s.dev.reach s.ctx .culm (2, n) t.reads = (.go, d) ∧ d1 = (((d.doXfer s.ctx n
    m.part t).2.popXfer n).notice n 16 (d.doXfer s.ctx n m.part t).1) ∧ s = s₀.reach (evKey 5 0 (source 6 n))) ∧
    (∃ (s : State) (m i : Nat) (k : Mdl) (e : PreEntry) (s₀ : State), s.clock.power = true ∧ s.dev.mdl m = some k ∧ k.img.entries[i]? = some e ∧ i =
    k.preNext ∧ k.preOpen = [] ∧ k.preStop = false ∧ k.wpins = true ∧ (s.dev.core ((k.cores[e.core]?).getD 0)).run = true ∧ ((∃ o l, (s.dev.core
    ((k.cores[e.core]?).getD 0)).bufs[e.buf]? = some (o, l, false))) ∧ e.stepEnd = false ∧ i + 1 ≠ k.img.entries.length ∧ s = s₀.follow) ∧
    (∃ (s : State) (m i : Nat) (k : Mdl) (e : PreEntry) (o : Share) (d : Dev) (s₀ : State), s.clock.power = true ∧ s.dev.mdl m = some k ∧
    k.img.entries[i]? = some e ∧ k.preOpen.contains i = true ∧ s.dev.share ((k.shares[e.share]?).getD 0) = some o ∧ s.dev.reach s.ctx .culm (5, m * 2
    ^ 32 + i) (o.ranges (e.len / 32768 + 2) e.src e.len) = (.go, d) ∧ s = s₀.reach (evKey 5 0 (source 4 0))) ∧
    (∃ (s : State) (m : Nat) (k : Mdl) (s₀ : State), s.clock.power = true ∧ s.dev.mdl m = some k ∧ ((∀ n ∈ k.cores, (s.dev.core n).run = true ∧
    (s.dev.core n).waiting = true ∧ (s.dev.core n).model = m)) ∧ k.st = .loading ∧ k.moveOps = 0 ∧ s.dev.inArea k = false ∧ s = s₀.reach (evKey 5 0
    (source 6 0))) ∧
    (∃ (s : State) (m : Nat) (k : Mdl) (d d1 : Dev) (s₀ : State), s.clock.power = true ∧ s.dev.mdl m = some k ∧ ((∀ n ∈ k.cores, (s.dev.core n).run =
    true ∧ (s.dev.core n).waiting = true ∧ (s.dev.core n).model = m)) ∧ k.st = .loading ∧ k.moveOps = 0 ∧ s.dev.inArea k = true ∧ d = (s.dev.setMdl m
    { k with st := .resident, since := s.clock.now, loadOp := 0, reloading := false, repeated := false }).bumpPart k.part 0x060008 1 ∧ d1 = (if
    k.loadOp = 0 then d else d.endOp s.ctx k.loadOp .ok [wd k.origin, wd (s.clock.now - k.accepted)]).openWaiting s.ctx m ∧ s = s₀.reach (evKey 5 0
    (source 6 0))) ∧
    (∃ (s : State) (n o l v : Nat) (xk : XferKind) (ts : List CoreXfer) (b : List Byte) (e : Ses) (k : Kv) (d : Dev) (s₀ : State), s.clock.power =
    true ∧ (s.dev.core n).xfers = ⟨xk, o, l, some (b, [1, 1, 1, 1, 1, 1, 1, v])⟩ :: ts ∧ s.dev.sesOf (fanDesc b).ses = some e ∧ e.kv = some k ∧ 12 ≤
    v ∧ v ≤ 15 ∧ ((s.dev.gunit (k.unit 7)).slot v).st ≠ 1 ∧ ((s.dev.gunit (k.unit 7)).slot v).st ≠ 2 ∧ (s.dev.reach s.ctx .culm (8, n * 8 + 7)
    [((k.xchg[7]?).getD 0 + 0x2000, (fanDesc b).bytes k)]).1 = .go ∧ d = ((s.dev.fanCopy s.ctx n (fanDesc b) k 7 v).bufFull n (fanDesc b).buf true
    .ok).popXfer n ∧ s = s₀.reach (evKey 5 0 (source 6 n))) :=
  ⟨⟨(st
     { dv with grid := { GridState.reset with cores := [(254, { co with chans := [(13, (⟨1, 64, 0, [(255, 1)], 0, [], []⟩ : Chan))] }), (255, co)], mdls := [(1, { md with img := { im with width := 2 }, origin := 254 })] } }),
     255, co, 0, 254, 13, 0x2FFFC0, 64, 1, (⟨1, 64, 0, [(255, 1)], 0, [], []⟩ : Chan), _, _, by unfold CoreReady; decide +kernel,
     (by decide +kernel), by decide +kernel, (by decide +kernel), by decide +kernel, (by decide +kernel), by decide +kernel, rfl, rfl,
     by decide +kernel⟩,
   ⟨(st
     { dv with grid := { GridState.reset with cores := [(254, { co with chans := [(13, (⟨1, 64, 0, [(255, 0)], 0, [], []⟩ : Chan))] }), (255, co)], mdls := [(1, { md with img := { im with width := 2 }, origin := 254 })] } }),
     255, co, 0, 254, 13, 0x2FFFC0, 64, 0, (⟨1, 64, 0, [(255, 0)], 0, [], []⟩ : Chan), _, _, by unfold CoreReady; decide +kernel,
     (by decide +kernel), by decide +kernel, (by decide +kernel), by decide +kernel, (by decide +kernel), by decide +kernel, rfl, rfl,
     by decide +kernel⟩,
   ⟨(st (dco { co with chans := [(13, (⟨1, 64, 0, [], 0, [(3, 0, 64, 7)], []⟩ : Chan))] })), 255,
     ({ co with chans := [(13, (⟨1, 64, 0, [], 0, [(3, 0, 64, 7)], []⟩ : Chan))] }), 13, 31, 31, 0, 3, 64, 7, (⟨1, 64, 0, [], 0, [(3, 0, 64, 7)], []⟩
     : Chan), [], by unfold CoreReady; decide +kernel⟩,
   ⟨(st (dco { co with chans := [(13, (⟨1, 64, 0, [], 0, [], [(3, 0, 64)]⟩ : Chan))] })), 255,
     ({ co with chans := [(13, (⟨1, 64, 0, [], 0, [], [(3, 0, 64)]⟩ : Chan))] }), 13, 3, 0, 64, (⟨1, 64, 0, [], 0, [], [(3, 0, 64)]⟩ : Chan), [],
     by unfold CoreReady; decide +kernel⟩,
   ⟨(st (dco { co with chans := [(13, (⟨1, 64, 0, [], 0, [(3, 0, 64, 7)], []⟩ : Chan))] })), 255,
     ({ co with chans := [(13, (⟨1, 64, 0, [], 0, [(3, 0, 64, 7)], []⟩ : Chan))] }), 31, 13, (⟨1, 64, 0, [], 0, [(3, 0, 64, 7)], []⟩ : Chan),
     by unfold CoreReady; decide +kernel⟩,
   ⟨(st (dco { co with bufs := List.replicate 15 (0, 0, false) ++ [(0x2FFFC0, 64, true)] })), 255,
     ({ co with bufs := List.replicate 15 (0, 0, false) ++ [(0x2FFFC0, 64, true)] }), 15, 0x2FFFC0, 64, by unfold CoreReady; decide +kernel⟩,
   ⟨(st (dco { co with bufs := [(0, 64, false)] })), 255, ({ co with bufs := [(0, 64, false)] }), 0, 0, 64, by unfold CoreReady; decide +kernel⟩,
   ⟨(st (dco { co with inStep := true })), 255, ({ co with inStep := true }), by unfold CoreReady; decide +kernel⟩,
   ⟨(st (dco co)), 255, co, by unfold CoreReady; decide +kernel⟩,
   ⟨(st (dco { co with xfers := [(⟨.out 0, 0, 64, none⟩ : CoreXfer)] })), 255, ({ co with xfers := [(⟨.out 0, 0, 64, none⟩ : CoreXfer)] }),
     0x2FFFC0, by unfold CoreReady; decide +kernel⟩,
   ⟨(st (dco { co with fresh := true, waiting := true })), 255, 31, ({ co with fresh := true }), by decide +kernel⟩,
   ⟨(st (dco { co with waiting := true })), 255, 31, co, by decide +kernel⟩,
   ⟨_, 255, ({ co with blocked := some (.recv 14, 0) }), (.recv 14), 0, (st (dco { co with blocked := some (.recv 14, 0) })), by decide +kernel,
     (by decide +kernel), by decide +kernel, (by decide +kernel), by decide +kernel, rfl⟩,
   ⟨(st
     { dco { co with chans := [(13, (⟨1, 64, 0, [], 0, [(3, 0, 64, 1250000000)], []⟩ : Chan))] } with grid := { (dco { co with chans := [(13, (⟨1, 64, 0, [], 0, [(3, 0, 64, 1250000000)], []⟩ : Chan))] }).grid with msgs := [(⟨254, 255, 13, []⟩ : Msg)] } }),
     254, 255, 13, (⟨254, 255, 13, []⟩ : Msg), [], (⟨1, 64, 0, [], 0, [(3, 0, 64, 1250000000)], []⟩ : Chan), by decide +kernel⟩,
   ⟨(st (dco co)), 0, 0x48000000, 64, (⟨.out 0x48000000, 0, 64, none⟩ : CoreXfer), by decide +kernel⟩,
   ⟨(st (dmap false)), 0, (extentAddr 524288), 64, (⟨.out (extentAddr 524288), 0, 64, none⟩ : CoreXfer), by decide +kernel⟩,
   ⟨(st (dmap true)), 0, (extentAddr 524288), 64, (⟨.inp (extentAddr 524288), 0, 64, none⟩ : CoreXfer), by decide +kernel⟩,
   ⟨(st (dco co)), 0, (lsAddr 255 0x2FFFC0), 64, (⟨.out (lsAddr 255 0x2FFFC0), 0, 64, none⟩ : CoreXfer), 255, 0x2FFFC0, by decide +kernel⟩,
   ⟨(st (dco co)), 0, (lsAddr 255 0x2FFFC0), 64, (⟨.inp (lsAddr 255 0x2FFFC0), 0, 64, none⟩ : CoreXfer), 255, 0x2FFFC0, by decide +kernel⟩,
   ⟨_, 255, (⟨.out 0, 0, 64, none⟩ : CoreXfer), [], md, _, _, (st (dco { co with xfers := [(⟨.out 0, 0, 64, none⟩ : CoreXfer)] })),
     by decide +kernel, (by decide +kernel), by decide +kernel, (by decide +kernel), fst_get (by decide +kernel), rfl, rfl⟩,
   ⟨_, 1, 0,
     ({ md with img := { im with entries := [(⟨0, 0, 0, 0, 0, false, false, 64, 0⟩ : PreEntry), (⟨0, 0, 0, 0, 0, false, false, 64, 0⟩ : PreEntry)] }, origin := 255, wpins := true, shares := [5] }),
     (⟨0, 0, 0, 0, 0, false, false, 64, 0⟩ : PreEntry), (st (withMdl
     { md with img := { im with entries := [(⟨0, 0, 0, 0, 0, false, false, 64, 0⟩ : PreEntry), (⟨0, 0, 0, 0, 0, false, false, 64, 0⟩ : PreEntry)] }, origin := 255, wpins := true, shares := [5] }
     (dco { co with bufs := [(0, 64, false)] }))), by decide +kernel, (by decide +kernel), by decide +kernel, (by decide +kernel), by decide +kernel,
     (by decide +kernel), by decide +kernel, (by decide +kernel), ⟨0, 64, by decide +kernel⟩, (by decide +kernel), by decide +kernel, rfl⟩,
   ⟨_, 1, 0,
     ({ md with img := { im with entries := [(⟨0, 0, 0, 0, 0, false, false, 64, 0⟩ : PreEntry), (⟨0, 0, 0, 0, 0, false, false, 64, 0⟩ : PreEntry)] }, origin := 255, wpins := true, shares := [5], preOpen := [0] }),
     (⟨0, 0, 0, 0, 0, false, false, 64, 0⟩ : PreEntry), (⟨0, [], 0, true, 1, false, 0, 0, 0, 0, 0, 0, 0, [], [], false, []⟩ : Share), _, (st (withMdl
     { md with img := { im with entries := [(⟨0, 0, 0, 0, 0, false, false, 64, 0⟩ : PreEntry), (⟨0, 0, 0, 0, 0, false, false, 64, 0⟩ : PreEntry)] }, origin := 255, wpins := true, shares := [5], preOpen := [0] }
     { dco co with mem := { MemState.reset with shares := [(5, (⟨0, [], 0, true, 1, false, 0, 0, 0, 0, 0, 0, 0, [], [], false, []⟩ : Share))] } })),
     by decide +kernel, (by decide +kernel), by decide +kernel, (by decide +kernel), by decide +kernel, fst_get (by decide +kernel), rfl⟩,
   ⟨_, 1, ({ md with st := .loading, origin := 255 }), (st (withMdl { md with st := .loading, origin := 255 } (dco { co with waiting := true }))),
     by decide +kernel, (by decide +kernel), by decide +kernel, (by decide +kernel), by decide +kernel, (by decide +kernel), rfl⟩,
   ⟨_, 1, ({ md with st := .loading, origin := 255 }), _, _, (st
     { withMdl { md with st := .loading, origin := 255 } (dco { co with waiting := true }) with regs := ⟨[], [(devKey 0x060100, 0x1FF00)], [], []⟩ }),
     by decide +kernel, (by decide +kernel), by decide +kernel, (by decide +kernel), by decide +kernel, (by decide +kernel), rfl, rfl, rfl⟩,
   ⟨_, 255, 0, 64, 15, (.glume 0), [], (leBytes 4 0x01000000 ++ List.replicate 60 0),
     ({ se .running with kv := some (⟨0, 1, 0, 1, 1, 64, 0, 0, [], List.replicate 8 0, [[]], []⟩ : Kv) }), (⟨0, 1, 0, 1, 1, 64, 0, 0, [],
     List.replicate 8 0, [[]], []⟩ : Kv), _, (st
     { dco { co with bufs := [(0, 64, false)], xfers := [⟨.glume 0, 0, 64, some ((leBytes 4 0x01000000 ++ List.replicate 60 0), [1, 1, 1, 1, 1, 1, 1, 15])⟩] } with ses := ⟨[(0, { se .running with kv := some (⟨0, 1, 0, 1, 1, 64, 0, 0, [], List.replicate 8 0, [[]], []⟩ : Kv) })], [], []⟩ }),
     by decide +kernel, (by decide +kernel), by decide +kernel, (by decide +kernel), by decide +kernel, (by decide +kernel), by decide +kernel,
     (by decide +kernel), by decide +kernel, rfl, rfl⟩⟩

/-- A state and operands that meet the hypotheses of each clause of GlumeOperationsTakeEffect.
The rows that an access opens have no body in Config (log entry 21), so that the witness takes an equation for them. -/
theorem wit_glumeOperationsTakeEffect (hr : ∀ a k, Config.rowsOf a k = [(0, 0)]) :
    (∃ (s : State) (u k : Nat) (l : GSlot) (g : GUnit) (rd rs rt : Nat), GlumeReady u k l s ∧ g = s.dev.gunit u ∧ rd < 32 ∧ rs < 32 ∧ rt < 32) ∧
    (∃ (s : State) (u k : Nat) (l : GSlot) (g : GUnit) (rd : Nat), GlumeReady u k l s ∧ g = s.dev.gunit u ∧ 32 ≤ rd) ∧
    (∃ (s : State) (u k : Nat) (l : GSlot) (g : GUnit) (rs rt t : Nat), GlumeReady u k l s ∧ g = s.dev.gunit u ∧ rs < 32 ∧ rt < 32 ∧ t < 4096) ∧
    (∃ (s : State) (u k : Nat) (l : GSlot) (g : GUnit) (bytes r base a : Nat) (off : BitVec 12), GlumeReady u k l s ∧ g = s.dev.gunit u ∧ r < 32 ∧
    base < 32 ∧ ((bytes = 1 ∨ bytes = 2 ∨ bytes = 4)) ∧ a = g.ea 11 base off ∧ a + bytes ≤ 0x8400) ∧
    (∃ (s : State) (u k : Nat) (l : GSlot) (g : GUnit) (bytes r base a : Nat) (off : BitVec 12), GlumeReady u k l s ∧ g = s.dev.gunit u ∧ r < 32 ∧
    base < 32 ∧ ((bytes = 1 ∨ bytes = 2 ∨ bytes = 4)) ∧ a = g.ea 11 base off ∧ 0x8400 < a + bytes) ∧
    (∃ (s : State) (u k : Nat) (l : GSlot) (g : GUnit) (v base a : Nat) (off : BitVec 12), GlumeReady u k l s ∧ g = s.dev.gunit u ∧ v < 16 ∧ base <
    32 ∧ a = g.ea 12 base off ∧ a + 64 ≤ 0x8400) ∧
    (∃ (s : State) (u k : Nat) (l : GSlot) (g : GUnit) (f v src sc a b : Nat), GlumeReady u k l s ∧ g = s.dev.gunit u ∧ vcvtFmts.contains f = true ∧
    src < 32 ∧ sc < 32 ∧ v + vcvtCount f / 16 ≤ 16 ∧ a = (g.rd src).1.toNat ∧ b = (g.rd sc).1.toNat ∧ a + 64 ≤ 0x8400 ∧ b + scaleBytes f (vcvtCount
    f) ≤ 0x8400 ∧ scaleBytes f (vcvtCount f) ≠ 0) ∧
    (∃ (s : State) (u k : Nat) (l : GSlot) (g : GUnit) (o : VecOp) (vd va vb : Nat), GlumeReady u k l s ∧ g = s.dev.gunit u ∧ vd < 16 ∧ va < 16 ∧ vb
    < 16 ∧ ((o = .add ∨ o = .mul ∨ o = .max))) ∧
    (∃ (s : State) (u k : Nat) (l : GSlot) (g : GUnit) (rd va : Nat), GlumeReady u k l s ∧ g = s.dev.gunit u ∧ rd < 32 ∧ va < 16) ∧
    (∃ (s : State) (u k : Nat) (l : GSlot) (g : GUnit) (a b c pos : Nat) (addr : Nat) (ps : List (Nat × Nat)), GlumeReady u k l s ∧ g = s.dev.gunit
    u ∧ a < 32 ∧ b < 32 ∧ c < 32 ∧ g.pages = (addr, pos) :: ps) ∧
    (∃ (s : State) (u k : Nat) (l : GSlot) (g : GUnit) (src len a n : Nat), GlumeReady u k l s ∧ g = s.dev.gunit u ∧ src < 32 ∧ len < 32 ∧
    g.running = some k ∧ a = (g.rd src).1.toNat ∧ n = (g.rd len).1.toNat ∧ (g.slot k).resBytes + n ≤ 1984 ∧ a + n ≤ 0x8400) ∧
    (∃ (s : State) (u k : Nat) (l : GSlot) (g : GUnit) (sc lo hi len a t : Nat) (m : Bool) (e : List (Nat × Ecc)) (d : Dev) (old : List Nat),
    GlumeReady u k l s ∧ g = s.dev.gunit u ∧ g.bank sc lo hi len = .ok (a, t, m) ∧ d = (s.dev.bankEccs s.ctx a len e).issue s.ctx u a len ∧ old =
    (codewords a len).filter d.mem.poison.contains ∧ g.throttled s.clock.now (Config.rowsOf a len).length = true) ∧
    (∃ (s : State) (u k : Nat) (l : GSlot) (g : GUnit) (sc lo hi len a t : Nat) (m : Bool) (e : List (Nat × Ecc)) (d : Dev) (old : List Nat) (d1 :
    Dev), GlumeReady u k l s ∧ g = s.dev.gunit u ∧ g.bank sc lo hi len = .ok (a, t, m) ∧ d = (s.dev.bankEccs s.ctx a len e).issue s.ctx u a len ∧
    old = (codewords a len).filter d.mem.poison.contains ∧ g.throttled s.clock.now (Config.rowsOf a len).length = false ∧ s.dev.unreachedAt a len =
    none ∧ d1 = { d with mem := { d.mem with cells := memWrite d.mem.cells a ((d.gunit u).sread t len) } } ∧ (gransOf a len).any d.granFrozen =
    false) ∧
    (∃ (s : State) (u k : Nat) (l : GSlot) (g : GUnit) (sc lo hi len a t : Nat) (m : Bool) (e : List (Nat × Ecc)) (d : Dev) (old : List Nat) (d1 :
    Dev), GlumeReady u k l s ∧ g = s.dev.gunit u ∧ g.bank sc lo hi len = .ok (a, t, m) ∧ d = (s.dev.bankEccs s.ctx a len e).issue s.ctx u a len ∧
    old = (codewords a len).filter d.mem.poison.contains ∧ g.throttled s.clock.now (Config.rowsOf a len).length = false ∧ s.dev.unreachedAt a len =
    none ∧ d1 = { d with mem := { d.mem with cells := memWrite d.mem.cells a ((d.gunit u).sread t len) } } ∧ (gransOf a len).any d.granFrozen = true) ∧
    (∃ (s : State) (u k : Nat) (l : GSlot) (g : GUnit) (sc lo hi len a t : Nat) (m : Bool) (e : List (Nat × Ecc)) (d : Dev) (old : List Nat) (b :
    Nat), GlumeReady u k l s ∧ g = s.dev.gunit u ∧ g.bank sc lo hi len = .ok (a, t, m) ∧ d = (s.dev.bankEccs s.ctx a len e).issue s.ctx u a len ∧
    old = (codewords a len).filter d.mem.poison.contains ∧ g.throttled s.clock.now (Config.rowsOf a len).length = false ∧ s.dev.unreachedAt a len =
    some b) ∧
    (∃ (s : State) (u k : Nat) (l : GSlot) (g : GUnit) (sc lo hi len c : Nat), GlumeReady u k l s ∧ g = s.dev.gunit u ∧ g.bank sc lo hi len = .error
    c) :=
  ⟨⟨(st (dgl gu)), 511, 15, ({ GSlot.reset with st := 2 }), _, 31, 31, 31, by unfold GlumeReady; decide +kernel, rfl, by decide +kernel⟩,
   ⟨(st (dgl gu)), 511, 15, ({ GSlot.reset with st := 2 }), _, 32, by unfold GlumeReady; decide +kernel, rfl, by decide +kernel⟩,
   ⟨(st (dgl gu)), 511, 15, ({ GSlot.reset with st := 2 }), _, 31, 31, 4095, by unfold GlumeReady; decide +kernel, rfl, by decide +kernel⟩,
   ⟨(st (dgl { gu with regs := [0, 0x83FC] })), 511, 15, ({ GSlot.reset with st := 2 }), _, 4, 31, 1, 0x83FC, 0,
     by unfold GlumeReady; decide +kernel, rfl, by decide +kernel, (by decide +kernel), by decide +kernel,
     by unfold GUnit.ea; rw [imm0]; decide +kernel, by decide +kernel⟩,
   ⟨(st (dgl { gu with regs := [0, 0x83FD] })), 511, 15, ({ GSlot.reset with st := 2 }), _, 4, 31, 1, 0x83FD, 0,
     by unfold GlumeReady; decide +kernel, rfl, by decide +kernel, (by decide +kernel), by decide +kernel,
     by unfold GUnit.ea; rw [imm0]; decide +kernel, by decide +kernel⟩,
   ⟨(st (dgl { gu with regs := [0, 0x83C0] })), 511, 15, ({ GSlot.reset with st := 2 }), _, 15, 1, 0x83C0, 0, by unfold GlumeReady; decide +kernel,
     rfl, by decide +kernel, (by decide +kernel), by unfold GUnit.ea; rw [imm0]; decide +kernel, by decide +kernel⟩,
   ⟨(st (dgl { gu with regs := [0, 0x83C0, 0x83F6] })), 511, 15, ({ GSlot.reset with st := 2 }), _, 0x12, 6, 1, 2, _, _,
     by unfold GlumeReady; decide +kernel, rfl, by decide +kernel, (by decide +kernel), by decide +kernel, (by decide +kernel), rfl, rfl,
     by decide +kernel⟩,
   ⟨(st (dgl gu)), 511, 15, ({ GSlot.reset with st := 2 }), _, .max, 15, 15, 15, by unfold GlumeReady; decide +kernel, rfl, by decide +kernel⟩,
   ⟨(st (dgl gu)), 511, 15, ({ GSlot.reset with st := 2 }), _, 31, 15, by unfold GlumeReady; decide +kernel, rfl, by decide +kernel⟩,
   ⟨(st (dgl { gu with pages := [(ga, 7)] })), 511, 15, ({ GSlot.reset with st := 2 }), _, 31, 31, 31, 7, ga, [],
     by unfold GlumeReady; decide +kernel, rfl, by decide +kernel⟩,
   ⟨(st (dgl { gu with regs := [0, 0x7C40, 1984] })), 511, 15, ({ GSlot.reset with st := 2 }), _, 1, 2, _, _, by unfold GlumeReady; decide +kernel,
     rfl, by decide +kernel, (by decide +kernel), by decide +kernel, rfl, rfl, by decide +kernel⟩,
   ⟨(st (dgl { gu with regs := [0, 0, 0x1F0000, 0x1B4], range := [gran ga], limit := 0 })), 511, 15, ({ GSlot.reset with st := 2 }), _, 1, 2, 3,
     32768, ga, 0, false, [], _, _, by unfold GlumeReady; decide +kernel, rfl, by decide +kernel, rfl, rfl,
     by unfold GUnit.throttled; rw [hr]; decide +kernel⟩,
   ⟨(st (dgl { gu with regs := [0, 0, 0x1F0000, 0x1B4], range := [gran ga] })), 511, 15, ({ GSlot.reset with st := 2 }), _, 1, 2, 3, 32768, ga, 0,
     false, [], _, _, _, by unfold GlumeReady; decide +kernel, rfl, by decide +kernel, rfl, rfl, by unfold GUnit.throttled; rw [hr]; decide +kernel,
     by decide +kernel, rfl, by decide +kernel⟩,
   ⟨(st
     { dgl { gu with regs := [0, 0, 0x1F0000, 0x1B4], range := [gran ga] } with mem := { MemState.reset with shares := [(5, ⟨0, [.hbm (granAddr (gran ga))], 32768, true, 0, false, 0, 0, 0, 0, 0, 0, 0, [], [], false, []⟩)] } }),
     511, 15, ({ GSlot.reset with st := 2 }), _, 1, 2, 3, 32768, ga, 0, false, [], _, _, _, by unfold GlumeReady; decide +kernel, rfl,
     by decide +kernel, rfl, rfl, by unfold GUnit.throttled; rw [hr]; decide +kernel, by decide +kernel, rfl, by decide +kernel⟩,
   ⟨(st
     { dgl { gu with regs := [0, 0, 0x1F0000, 0x1B4], range := [gran ga] } with mem := { MemState.reset with bufs := [(bufKey 0 7, ⟨hbmBase + 15 * stackBytes, [], false, 0, 0, []⟩)], exts := [((hbmBase + 15 * stackBytes) / 2097152, 0)], unreached := [bufKey 0 7] } }),
     511, 15, ({ GSlot.reset with st := 2 }), _, 1, 2, 3, 32768, ga, 0, false, [], _, _, (bufKey 0 7), by unfold GlumeReady; decide +kernel, rfl,
     by decide +kernel, rfl, rfl, by unfold GUnit.throttled; rw [hr]; decide +kernel, by decide +kernel⟩,
   ⟨(st (dgl gu)), 511, 15, ({ GSlot.reset with st := 2 }), _, 1, 2, 3, 0, 4, by unfold GlumeReady; decide +kernel, rfl, by decide +kernel⟩⟩

/-- A state and operands that meet the hypotheses of each clause of GlumeCommandsComplete. -/
theorem wit_glumeCommandsComplete :
    (∃ (s₀ s : State) (c : Cmd) (r : CmdRec) (q : Req) (st rg : Nat) (cm : Bool), s = s₀.reach (cmdKey c) ∧ q = reqOf c r ∧ Started 0x0B00 c r s ∧
    q.clean [(2, 0x13F0F)] = true ∧ st = q.f 2 3 0 ∧ rg = q.f 2 13 8 ∧ rg ≤ 47 ∧ cm = bitAt (q.w 2).toNat 16 ∧ ((s.dev.regionOwner st rg = q.part ∧
    q.part < 16 ∨ s.dev.regionOwner st rg = 16 ∧ s.dev.isCtrl r.fn = true)) ∧ s.dev.regionSealed st rg = false ∧ s.dev.modeOpsOf st rg = [] ∧ cm =
    s.dev.isCompute st rg) ∧
    (∃ (s₀ s : State) (c : Cmd) (r : CmdRec) (q : Req) (st rg : Nat) (cm : Bool), s = s₀.reach (cmdKey c) ∧ q = reqOf c r ∧ Started 0x0B00 c r s ∧
    q.clean [(2, 0x13F0F)] = true ∧ st = q.f 2 3 0 ∧ rg = q.f 2 13 8 ∧ rg ≤ 47 ∧ cm = bitAt (q.w 2).toNat 16 ∧ ((s.dev.regionOwner st rg = q.part ∧
    q.part < 16 ∨ s.dev.regionOwner st rg = 16 ∧ s.dev.isCtrl r.fn = true)) ∧ s.dev.regionSealed st rg = false ∧ cm ≠ s.dev.isCompute st rg) ∧
    (∃ (s₀ s : State) (c : Cmd) (r : CmdRec) (q : Req), s = s₀.reach (cmdKey c) ∧ q = reqOf c r ∧ Started 0x0B01 c r s ∧ q.clean [(2, top32), (3,
    top32), (4, top32), (5, top32)] = true ∧ (q.w 4).toNat ≤ 64 + 512 + 16384 ∧ s.dev.sliceBusy 16 5 = false) ∧
    (∃ (s₀ s : State) (c : Cmd) (r : CmdRec) (q : Req), s = s₀.reach (cmdKey c) ∧ q = reqOf c r ∧ Started 0x0B02 c r s ∧ q.clean [(2, top32), (3,
    top32), (4, 1), (5, top32)] = true ∧ s.dev.sliceBusy 16 5 = false) ∧
    (∃ (s₀ s : State) (c : Cmd) (r : CmdRec) (q : Req) (a p u k grp an : Nat) (dv : Bool) (d : Dev), s = s₀.reach (cmdKey c) ∧ q = reqOf c r ∧
    Started 0x0B03 c r s ∧ q.clean ([(2, top32), (3, top32), (4, 0xF)] ++ (List.range 16).map fun i => (16 + i, top32)) = true ∧ s.dev.anchor q = .ok
    (a, dv) ∧ p = (if dv then 16 else q.part) ∧ d = s.dev.aliasWrite s.ctx .ctl p (aliasOf a (q.f 4 3 0) 0) ((q.words.drop 16).take 16) ∧ d.aliasAt
    .ctl p (aliasOf a (q.f 4 3 0) 0) 64 = some (u, k, grp, an)) ∧
    (∃ (s₀ s : State) (c : Cmd) (r : CmdRec) (q : Req) (a p u k grp an : Nat) (dv : Bool) (l : GSlot), s = s₀.reach (cmdKey c) ∧ q = reqOf c r ∧
    Started 0x0B04 c r s ∧ q.clean [(2, top32), (3, top32), (4, 0xF), (5, top32), (6, top32)] = true ∧ s.dev.anchor q = .ok (a, dv) ∧ p = (if dv then
    16 else q.part) ∧ s.dev.aliasAt .ctl p (aliasOf a (q.f 4 3 0) 0) 64 = some (u, k, grp, an) ∧ l = ((s.dev.gunit u).slot k).seen p) ∧
    (∃ (s₀ s : State) (c : Cmd) (r : CmdRec) (q : Req), s = s₀.reach (cmdKey c) ∧ q = reqOf c r ∧ Started 0x0B05 c r s ∧ q.clean [(2, 0x3F0F)] =
    true ∧ q.f 2 13 8 ≤ 47) ∧
    (∃ (s : State) (st rg : Nat) (o : ModeOp) (l : List ModeOp) (d : Dev) (s₀ : State), s.clock.power = true ∧ s.dev.modeOpsOf st rg = o :: l ∧ d =
    { s.dev with glm := { s.dev.glm with compute := if o.compute = true then addNum (st * 64 + rg) s.dev.glm.compute else s.dev.glm.compute.filter (· != st * 64 + rg), lastSwitch := tset s.dev.glm.lastSwitch (st * 64 + rg) s.clock.now, modeOps := s.dev.glm.modeOps.filter fun m => m.op != o.op } } ∧
    ((o.compute = true ∧ s.dev.mem.stalled.any (fun w => inRegion st rg (gran w.addr)) = false ∨ o.compute = false ∧ s.dev.regionPins st rg = 0 ∧
    s.dev.regionQueued st rg = false)) ∧ s = s₀.reach (evKey 3 0 (source 5 0))) :=
  ⟨⟨(sc 0x0B00 [0x2F0F] ({ dv with regs := ⟨[], [(devKey 0x0502FC, 0)], [], []⟩ })), _, (rq 0x0B00 [0x2F0F]), (rc 0x0B00 [0x2F0F]), _, _, _, _,
     rfl, rfl, by unfold Started; decide +kernel, (by decide +kernel), rfl, rfl, by decide +kernel, rfl, by decide +kernel⟩,
   ⟨(sc 0x0B00 [0x12F0F] ({ dv with regs := ⟨[], [(devKey 0x0502FC, 0)], [], []⟩ })), _, (rq 0x0B00 [0x12F0F]), (rc 0x0B00 [0x12F0F]), _, _, _, _,
     rfl, rfl, by unfold Started; decide +kernel, (by decide +kernel), rfl, rfl, by decide +kernel, rfl, by decide +kernel⟩,
   ⟨(sc 0x0B01 [0, 0, 16960, 0] (dv)), _, (rq 0x0B01 [0, 0, 16960, 0]), (rc 0x0B01 [0, 0, 16960, 0]), _, rfl, rfl,
     by unfold Started; decide +kernel⟩,
   ⟨(sc 0x0B02 [0, 0, 1, 0] (dv)), _, (rq 0x0B02 [0, 0, 1, 0]), (rc 0x0B02 [0, 0, 1, 0]), _, rfl, rfl, by unfold Started; decide +kernel⟩,
   ⟨(sc 0x0B03 ([0xFF0000, 0, 15] ++ List.replicate 11 0 ++ [0x01000000, 0, 0, 0, 0, 0, 0, 0, 0, 0, 0, 0, 0, 0, 0, 0])
     ({ dgl gu with mem := { MemState.reset with bufs := [(bufKey 0 7, ⟨hbmBase + 15 * stackBytes, [], false, 0, 0, []⟩)], exts := [((hbmBase + 15 * stackBytes) / 2097152, 0)] } })),
     _, (rq 0x0B03 ([0xFF0000, 0, 15] ++ List.replicate 11 0 ++ [0x01000000, 0, 0, 0, 0, 0, 0, 0, 0, 0, 0, 0, 0, 0, 0, 0])), (rc 0x0B03 ([0xFF0000,
     0, 15] ++ List.replicate 11 0 ++ [0x01000000, 0, 0, 0, 0, 0, 0, 0, 0, 0, 0, 0, 0, 0, 0, 0])), _, _, _, 511, 15, 0, (granAddr (gran ga)), false,
     _, rfl, rfl, by unfold Started; decide +kernel, (by decide +kernel), ok_get (by decide +kernel), rfl, rfl, by decide +kernel⟩,
   ⟨(sc 0x0B04 [0xFF0000, 0, 15, 0, 0]
     ({ dgl gu with mem := { MemState.reset with bufs := [(bufKey 0 7, ⟨hbmBase + 15 * stackBytes, [], false, 0, 0, []⟩)], exts := [((hbmBase + 15 * stackBytes) / 2097152, 0)] } })),
     _, (rq 0x0B04 [0xFF0000, 0, 15, 0, 0]), (rc 0x0B04 [0xFF0000, 0, 15, 0, 0]), _, _, _, 511, 15, 0, (granAddr (gran ga)), false, _, rfl, rfl,
     by unfold Started; decide +kernel, (by decide +kernel), ok_get (by decide +kernel), rfl, by decide +kernel, rfl⟩,
   ⟨(sc 0x0B05 [0x2F0F] (dv)), _, (rq 0x0B05 [0x2F0F]), (rc 0x0B05 [0x2F0F]), _, rfl, rfl, by unfold Started; decide +kernel⟩,
   ⟨_, 15, 47, (⟨2, 15, 47, true, 0⟩ : ModeOp), [], _, (st
     { dv with glm := { GlmState.reset with modeOps := [(⟨2, 15, 47, true, 0⟩ : ModeOp)] } }), by decide +kernel, (by decide +kernel), rfl,
     (by decide +kernel), rfl⟩⟩

/-- A state and operands that meet the hypotheses of each clause of GlumeEventsTakeEffect. -/
theorem wit_glumeEventsTakeEffect :
    (∃ (s : State) (u k : Nat) (l : GSlot) (s₀ : State), s.clock.power = true ∧ u < 512 ∧ (s.dev.gunit u).running = none ∧ (s.dev.gunit u).nextSlot =
    some k ∧ l = (s.dev.gunit u).slot k ∧ s.dev.startCheck u l.part l.device l.anchor l.words = none ∧ ((∀ g ∈ (s.dev.runRange u l.anchor l.words).1,
    thas s.dev.mem.copying g = false)) ∧ s = s₀.follow) ∧
    (∃ (s : State) (u : Nat) (g : GUnit) (t0 : Nat), s.clock.power = true ∧ g = s.dev.gunit u ∧ g.windowAt = some t0 ∧ t0 + 63 ≤ s.clock.now) ∧
    (∃ (s : State) (u : Nat) (g : GUnit) (k : Nat) (s₀ : State), s.clock.power = true ∧ g = s.dev.gunit u ∧ g.running = some k ∧ g.windowAt = none ∧
    g.lastYield + 250 ≤ s.clock.now ∧ s = s₀.reach (evKey 1 0 (source 5 u))) ∧
    (∃ (s : State) (u : Nat) (g : GUnit) (k : Nat) (s₀ : State), s.clock.power = true ∧ g = s.dev.gunit u ∧ g.running = some k ∧ g.startAt + 125 *
    s.dev.budget u k < s.clock.now ∧ s = s₀.reach (evKey 1 0 (source 5 u))) ∧
    (∃ (s : State) (u : Nat) (g : GUnit) (h : HeldAcc) (s₀ : State), s.clock.power = true ∧ g = s.dev.gunit u ∧ g.held = [h] ∧ h.since + 500 ≤
    s.clock.now ∧ h.key = (0, 0) ∧ h.ag = .ctl ∧ s = s₀.reach (evKey 8 0 (source 5 u))) ∧
    (∃ (s : State) (u : Nat) (g : GUnit) (h : HeldAcc) (f : Fn) (s₀ : State), s.clock.power = true ∧ g = s.dev.gunit u ∧ g.held = [h] ∧ h.since + 500
    ≤ s.clock.now ∧ h.key = (0, 0) ∧ h.ag = .host f ∧ s = s₀.reach (evKey 8 0 (source 5 u))) ∧
    (∃ (s : State) (die k st t0 tb : Nat) (s₀ : State), s.clock.power = true ∧ die < 2 ∧ k < 8 ∧ st = die * 8 + k ∧ tb = band
    s.dev.glm.curvesAct.temps t0 ∧ (s.dev.glm.therm.all fun e => e.1 == st || decide (e.2.1 < 105)) = true ∧ t0 < 105 ∧ s = s₀.reach (evKey 9 0 0)) ∧
    (∃ (s : State) (u b row : Nat), s.clock.power = true ∧ tgetD s.dev.glm.thresh (u / 32) 16384 ≤ tgetD s.dev.glm.rowActs (rowKey u b row) 0) ∧
    (∃ (s : State) (s₀ : State), s.clock.power = true ∧ s = s₀.reach (evKey 8 0 (source 5 0))) :=
  ⟨⟨_, 511, 15, _, (st (dgl
     { gu with running := none, slots := [(15, { GSlot.reset with st := 1, anchor := ga, words := [0x01000000, 0, 0, 0, 0, 0, 0, 0, 0, 0, 0, 0, 0, 0, 0, 0] })] })),
     by decide +kernel, (by decide +kernel), by decide +kernel, (by decide +kernel), rfl, (by decide +kernel), by decide +kernel, rfl⟩,
   ⟨(st (dgl { gu with windowAt := some 1249999937 })), 511, _, 1249999937, by decide +kernel, rfl, by decide +kernel⟩,
   ⟨_, 511, _, 15, (st (dgl { gu with lastYield := 1249999750 })), by decide +kernel, rfl, by decide +kernel, (by decide +kernel),
     by decide +kernel, rfl⟩,
   ⟨_, 511, _, 15, (st (dgl gu)), by decide +kernel, rfl, by decide +kernel, (by decide +kernel), rfl⟩,
   ⟨_, 511, _, (⟨.ctl, 0, ga, 64, false, [], [], 1249999500, (0, 0), false⟩ : HeldAcc), (st (dgl
     { gu with held := [(⟨.ctl, 0, ga, 64, false, [], [], 1249999500, (0, 0), false⟩ : HeldAcc)] })), by decide +kernel, rfl, by decide +kernel,
     (by decide +kernel), by decide +kernel, (by decide +kernel), rfl⟩,
   ⟨_, 511, _, (⟨.host ⟨1, 16⟩, 0, ga, 64, false, [], [], 1249999500, (0, 0), false⟩ : HeldAcc), ⟨1, 16⟩, (st (dgl
     { gu with held := [(⟨.host ⟨1, 16⟩, 0, ga, 64, false, [], [], 1249999500, (0, 0), false⟩ : HeldAcc)] })), by decide +kernel, rfl,
     by decide +kernel, (by decide +kernel), by decide +kernel, (by decide +kernel), rfl⟩,
   ⟨_, 1, 7, 15, 104, _, (st dv), by decide +kernel, (by decide +kernel), by decide +kernel, (by decide +kernel), rfl, (by decide +kernel),
     by decide +kernel, rfl⟩,
   ⟨(st { dv with glm := { GlmState.reset with rowActs := [(rowKey 511 1 2, 16384)] } }), 511, 1, 2, by decide +kernel⟩,
   ⟨_, (st dv), by decide +kernel, rfl⟩⟩

/-- A state and operands that meet the hypotheses of each clause of HbmAccessRowsTakeEffect. -/
theorem wit_hbmAccessRowsTakeEffect :
    (∃ (s : State) (ag : Agent) (p a u k an op : Nat) (ws : List Word) (l : GSlot) (pp n f : Nat) (dv : Bool) (t : GSlot), s.clock.power = true ∧
    s.dev.aliasAt ag p a (4 * ws.length) = some (u, k, 0, an) ∧ Machine.cmdOk ws = true ∧ op = wfld (cw ws 0) 31 24 ∧ l = (s.dev.gunit u).slot k ∧
    op = 1 ∧ l.st ≠ 1 ∧ l.st ≠ 2 ∧ dv = (s.dev.regionOwner (stackOf an) (regionOf an) == 16) ∧
    pp = (match ag with | .core _ => p | _ => if dv then 16 else p) ∧ n = wfld (cw ws 1) 20 16 ∧ f = ((s.dev.glm.bankAct.progs[n]?).getD (0, 0, 0,
    false)).1 ∧ t =
    { GSlot.reset with st := 1, seq := wfld (cw ws 0) 15 0, prog := n, part := pp, words := ws, anchor := an, order := (s.dev.gunit u).order, first := f, pc := f, device := dv } ∧
    s.dev.startCheck u pp dv an ws = none) ∧
    (∃ (s : State) (ag : Agent) (p a u k an op : Nat) (ws : List Word) (l : GSlot) (pp n f : Nat) (dv : Bool) (t : GSlot) (st : Status) (code : Nat),
    s.clock.power = true ∧ s.dev.aliasAt ag p a (4 * ws.length) = some (u, k, 0, an) ∧ Machine.cmdOk ws = true ∧ op = wfld (cw ws 0) 31 24 ∧ l =
    (s.dev.gunit u).slot k ∧ op = 1 ∧ l.st ≠ 1 ∧ l.st ≠ 2 ∧ dv = (s.dev.regionOwner (stackOf an) (regionOf an) == 16) ∧
    pp = (match ag with | .core _ => p | _ => if dv then 16 else p) ∧ n = wfld (cw ws 1) 20 16 ∧ f = ((s.dev.glm.bankAct.progs[n]?).getD (0, 0, 0,
    false)).1 ∧ t =
    { GSlot.reset with st := 1, seq := wfld (cw ws 0) 15 0, prog := n, part := pp, words := ws, anchor := an, order := (s.dev.gunit u).order, first := f, pc := f, device := dv } ∧
    s.dev.startCheck u pp dv an ws = some (st, code)) ∧
    (∃ (s : State) (ag : Agent) (p a u k an op : Nat) (ws : List Word) (l : GSlot), s.clock.power = true ∧ s.dev.aliasAt ag p a (4 * ws.length) =
    some (u, k, 0, an) ∧ Machine.cmdOk ws = true ∧ op = wfld (cw ws 0) 31 24 ∧ l = (s.dev.gunit u).slot k ∧ op = 1 ∧ (l.st = 1 ∨ l.st = 2)) ∧
    (∃ (s : State) (ag : Agent) (p a u k an op : Nat) (ws : List Word) (l : GSlot), s.clock.power = true ∧ s.dev.aliasAt ag p a (4 * ws.length) =
    some (u, k, 0, an) ∧ Machine.cmdOk ws = true ∧ op = wfld (cw ws 0) 31 24 ∧ l = (s.dev.gunit u).slot k ∧ op = 2 ∧ l.st = 2) ∧
    (∃ (s : State) (ag : Agent) (p a u k an op : Nat) (ws : List Word) (l : GSlot), s.clock.power = true ∧ s.dev.aliasAt ag p a (4 * ws.length) =
    some (u, k, 0, an) ∧ Machine.cmdOk ws = true ∧ op = wfld (cw ws 0) 31 24 ∧ l = (s.dev.gunit u).slot k ∧ op = 2 ∧ l.st = 1) ∧
    (∃ (s : State) (ag : Agent) (p a u k an op : Nat) (ws : List Word) (l : GSlot), s.clock.power = true ∧ s.dev.aliasAt ag p a (4 * ws.length) =
    some (u, k, 0, an) ∧ Machine.cmdOk ws = true ∧ op = wfld (cw ws 0) 31 24 ∧ l = (s.dev.gunit u).slot k ∧ op = 3 ∧ (l.st = 3 ∨ l.st = 4)) ∧
    (∃ (s : State) (ag : Agent) (p a u k grp an : Nat) (l : GSlot), s.clock.power = true ∧ s.dev.aliasAt ag p a 64 = some (u, k, grp, an) ∧ l =
    ((s.dev.gunit u).slot k).seen p ∧ grp = 0) ∧
    (∃ (s : State) (ag : Agent) (p a u k grp an : Nat) (l : GSlot), s.clock.power = true ∧ s.dev.aliasAt ag p a 64 = some (u, k, grp, an) ∧ l =
    ((s.dev.gunit u).slot k).seen p ∧ grp ≠ 0) ∧
    (∃ (s : State) (ag : Agent) (p a len : Nat), s.clock.power = true ∧ s.dev.aliasAt ag p a len = none) ∧
    (∃ (s : State) (ag : Agent) (a len : Nat), s.clock.power = true ∧ onAliasPath ag = false ∧ oneGran a len = true ∧ s.dev.computeAt a = true ∧
    (s.dev.gunit (unitOf a)).running ≠ none) ∧
    (∃ (s : State) (ag : Agent) (a len : Nat) (e : List (Nat × Ecc)) (d : Dev), s.clock.power = true ∧ onAliasPath ag = false ∧ oneGran a len =
    true ∧ (s.dev.computeAt a = false ∨ (s.dev.gunit (unitOf a)).running = none) ∧ d = (s.dev.acted a len).hbmEccs s.ctx a len e) ∧
    (∃ (s : State) (ag : Agent) (a : Nat) (bs : List Byte), s.clock.power = true ∧ onAliasPath ag = false ∧ oneGran a bs.length = true ∧
    s.dev.computeAt a = false) ∧
    (∃ (s : State) (ag : Agent) (a : Nat) (bs : List Byte), s.clock.power = true ∧ onAliasPath ag = false ∧ oneGran a bs.length = true ∧
    s.dev.computeAt a = true ∧ ((∀ f : Fn, ag ≠ .host f))) ∧
    (∃ (s : State) (ag : Agent) (p a len : Nat) (w : Bool) (bs : List Byte) (e : List (Nat × Ecc)) (h : HeldAcc), s.clock.power = true ∧ onAliasPath
    ag = true ∧ oneGran a (if w = true then bs.length else len) = true ∧ s.dev.computeAt a = true ∧ h = ⟨ag, p, a, len, w, bs, e, s.clock.now, (0,
    0), false⟩ ∧ (s.dev.gunit (unitOf a)).running = none) ∧
    (∃ (s : State) (ag : Agent) (p a len : Nat) (w : Bool) (bs : List Byte) (e : List (Nat × Ecc)) (h : HeldAcc), s.clock.power = true ∧ onAliasPath
    ag = true ∧ oneGran a (if w = true then bs.length else len) = true ∧ s.dev.computeAt a = true ∧ h = ⟨ag, p, a, len, w, bs, e, s.clock.now, (0,
    0), false⟩ ∧ (s.dev.gunit (unitOf a)).running ≠ none) ∧
    (∃ (s : State) (f : Fn) (off len p : Nat) (s₀ : State), s.clock.power = true ∧ bar2Ok s.dev f off len = true ∧ s.dev.viewPart f = some p ∧
    s.dev.boundTo p f.port = true ∧ s.dev.extSealed p (off / 2097152) = false ∧ s.dev.bufHome p off = none ∧ s = s₀.reach (pcieKey f.port)) ∧
    (∃ (s : State) (f : Fn) (off len p : Nat) (a : Nat) (k : Bool) (s₀ : State), s.clock.power = true ∧ bar2Ok s.dev f off len = true ∧
    s.dev.viewPart f = some p ∧ s.dev.boundTo p f.port = true ∧ s.dev.extSealed p (off / 2097152) = false ∧ s.dev.bufHome p off = some (.hbm a, k) ∧
    s = s₀.reach (pcieKey f.port)) ∧
    (∃ (s : State) (f : Fn) (off p : Nat) (bs : List Byte) (a : Nat) (s₀ : State), s.clock.power = true ∧ bar2Ok s.dev f off bs.length = true ∧
    s.dev.viewPart f = some p ∧ s.dev.boundTo p f.port = true ∧ s.dev.mem.sealed.contains (bufKey p (off / 2097152)) = false ∧ s.dev.extIndexed p
    (off / 2097152) = false ∧ s.dev.bufHome p off = some (.hbm a, false) ∧ s.dev.computeAt (a + off % 32768) = false ∧ s = s₀.reach (pcieKey f.port)) ∧
    (∃ (s : State) (f : Fn) (off p : Nat) (bs : List Byte) (a : Nat) (s₀ : State), s.clock.power = true ∧ bar2Ok s.dev f off bs.length = true ∧
    s.dev.viewPart f = some p ∧ s.dev.boundTo p f.port = true ∧ s.dev.mem.sealed.contains (bufKey p (off / 2097152)) = false ∧ s.dev.extIndexed p
    (off / 2097152) = false ∧ s.dev.bufHome p off = some (.hbm a, true) ∧ s = s₀.reach (pcieKey f.port)) :=
  ⟨⟨(st (dgl { gu with slots := [(15, { GSlot.reset with st := 3 })] })), .ctl, 0, (aliasOf ga 15 0), 511, 15, (granAddr (gran ga)), _,
     [0x01000000, 0, 0, 0, 0, 0, 0, 0, 0, 0, 0, 0, 0, 0, 0, 0], _, 0, 0, 0, false, _, by decide +kernel, (by decide +kernel), by decide +kernel, rfl,
     rfl, (by decide +kernel), by decide +kernel, (by decide +kernel), by decide +kernel, (by decide +kernel), by decide +kernel,
     (by decide +kernel), rfl, by decide +kernel⟩,
   ⟨(st (dgl { gu with slots := [(15, { GSlot.reset with st := 3 })] })), .ctl, 0, (aliasOf ga 15 0), 511, 15, (granAddr (gran ga)), _,
     [0x01010000, 0, 0, 0, 0, 0, 0, 0, 0, 0, 0, 0, 0, 0, 0, 0], _, 0, 0, 0, false, _, .badParam, 0, by decide +kernel, (by decide +kernel),
     by decide +kernel, rfl, rfl, (by decide +kernel), by decide +kernel, (by decide +kernel), by decide +kernel, (by decide +kernel),
     by decide +kernel, (by decide +kernel), rfl, by decide +kernel⟩,
   ⟨(st (dgl { gu with slots := [(15, { GSlot.reset with st := 1 })] })), .ctl, 0, (aliasOf ga 15 0), 511, 15, (granAddr (gran ga)), _,
     [0x01000000, 0, 0, 0, 0, 0, 0, 0, 0, 0, 0, 0, 0, 0, 0, 0], _, by decide +kernel, (by decide +kernel), by decide +kernel, rfl, rfl,
     by decide +kernel⟩,
   ⟨(st (dgl { gu with slots := [(15, { GSlot.reset with st := 2 })] })), .ctl, 0, (aliasOf ga 15 0), 511, 15, (granAddr (gran ga)), _,
     [0x02000000, 0, 0, 0, 0, 0, 0, 0, 0, 0, 0, 0, 0, 0, 0, 0], _, by decide +kernel, (by decide +kernel), by decide +kernel, rfl, rfl,
     by decide +kernel⟩,
   ⟨(st (dgl { gu with slots := [(15, { GSlot.reset with st := 1 })] })), .ctl, 0, (aliasOf ga 15 0), 511, 15, (granAddr (gran ga)), _,
     [0x02000000, 0, 0, 0, 0, 0, 0, 0, 0, 0, 0, 0, 0, 0, 0, 0], _, by decide +kernel, (by decide +kernel), by decide +kernel, rfl, rfl,
     by decide +kernel⟩,
   ⟨(st (dgl { gu with slots := [(15, { GSlot.reset with st := 4 })] })), .ctl, 0, (aliasOf ga 15 0), 511, 15, (granAddr (gran ga)), _,
     [0x03000000, 0, 0, 0, 0, 0, 0, 0, 0, 0, 0, 0, 0, 0, 0, 0], _, by decide +kernel, (by decide +kernel), by decide +kernel, rfl, rfl,
     by decide +kernel⟩,
   ⟨(st (dgl { gu with slots := [(15, { GSlot.reset with st := 3 })] })), .ctl, 0, (aliasOf ga 15 0), 511, 15, 0, (granAddr (gran ga)), _,
     by decide +kernel, (by decide +kernel), rfl, by decide +kernel⟩,
   ⟨(st (dgl { gu with slots := [(15, { GSlot.reset with st := 3 })] })), .ctl, 0, (aliasOf ga 15 31), 511, 15, 31, (granAddr (gran ga)), _,
     by decide +kernel, (by decide +kernel), rfl, by decide +kernel⟩,
   ⟨(st (dgl gu)), .ctl, 0, 0x010000000000, 64, by decide +kernel⟩,
   ⟨(st (dgl gu)), .ctl, ga, 32768, by decide +kernel⟩,
   ⟨(st dv), .ctl, ga, 32768, [], _, by decide +kernel, (by decide +kernel), by decide +kernel, (by decide +kernel), rfl⟩,
   ⟨(st dv), .ctl, (ga + 32767), [1], by decide +kernel⟩,
   ⟨(st (dgl gu)), .ctl, (ga + 32767), [1], by decide +kernel, (by decide +kernel), by decide +kernel, (by decide +kernel), fun _ => nofun⟩,
   ⟨(st (dgl { gu with running := none })), .reed, 0, ga, 32768, false, [], [], _, by decide +kernel, (by decide +kernel), by decide +kernel,
     (by decide +kernel), rfl, by decide +kernel⟩,
   ⟨(st (dgl gu)), .culm, 0, ga, 0, true, [1], [], _, by decide +kernel, (by decide +kernel), by decide +kernel, (by decide +kernel), rfl,
     by decide +kernel⟩,
   ⟨_, ⟨0, 0⟩, 0x40, 64, 0, (st dv), by decide +kernel, (by decide +kernel), by decide +kernel, (by decide +kernel), by decide +kernel,
     (by decide +kernel), rfl⟩,
   ⟨_, ⟨0, 0⟩, 0xE00000, 64, 0, (hbmBase + 15 * stackBytes), false, (st
     { dgl gu with mem := { MemState.reset with bufs := [(bufKey 0 7, ⟨hbmBase + 15 * stackBytes, [], false, 0, 0, []⟩)], exts := [((hbmBase + 15 * stackBytes) / 2097152, 0)] } }),
     by decide +kernel, (by decide +kernel), by decide +kernel, (by decide +kernel), by decide +kernel, (by decide +kernel), rfl⟩,
   ⟨_, ⟨0, 0⟩, 0xFFFFFC, 0, [1, 2, 3, 4], (extentAddr 524288 + 63 * 32768), (st
     { dv with mem := { MemState.reset with bufs := [(bufKey 0 7, ⟨extentAddr 524288, [], false, 0, 0, []⟩)], exts := [(524288, 0)] } }),
     by decide +kernel, (by decide +kernel), by decide +kernel, (by decide +kernel), by decide +kernel, (by decide +kernel), by decide +kernel,
     (by decide +kernel), rfl⟩,
   ⟨_, ⟨0, 0⟩, 0xFFFFFC, 0, [1, 2, 3, 4], (extentAddr 524288 + 63 * 32768), (st
     { dv with mem := { MemState.reset with bufs := [(bufKey 0 7, ⟨extentAddr 524288, [], true, 0, 0, []⟩)], exts := [(524288, 0)] } }),
     by decide +kernel, (by decide +kernel), by decide +kernel, (by decide +kernel), by decide +kernel, (by decide +kernel), by decide +kernel, rfl⟩⟩

/-- A state and operands that meet the hypotheses of each clause of ModelCommandsComplete. -/
theorem wit_modelCommandsComplete :
    (∃ (s₀ s : State) (c : Cmd) (r : CmdRec) (q : Req), s = s₀.reach (cmdKey c) ∧ q = reqOf c r ∧ Started 0x0300 c r s ∧ q.clean ((List.range 7).map
    fun i => (i + 2, top32)) = true ∧ 128 ≤ (q.w 4).toNat ∧ (q.w 4).toNat ≤ 67108864) ∧
    (∃ (s₀ s : State) (c : Cmd) (r : CmdRec) (q : Req) (m : Nat) (k : Mdl), s = s₀.reach (cmdKey c) ∧ q = reqOf c r ∧ s.dev.ownMdl q = some (m, k) ∧
    s.dev.mdlHeld q.seq m = false ∧ Started 0x0301 c r s ∧ q.clean [(2, 0xFFFF), (3, 0x1FF)] = true ∧ (k.shares.any fun h => !s.dev.bindOkSealed
    q.part h none) = false ∧ k.st = .resident) ∧
    (∃ (s₀ s : State) (c : Cmd) (r : CmdRec) (q : Req) (m : Nat) (k : Mdl) (o : Nat), s = s₀.reach (cmdKey c) ∧ q = reqOf c r ∧ s.dev.ownMdl q = some
    (m, k) ∧ s.dev.mdlHeld q.seq m = false ∧ Started 0x0301 c r s ∧ q.clean [(2, 0xFFFF), (3, 0x1FF)] = true ∧ (k.shares.any fun h =>
    !s.dev.bindOkSealed q.part h none) = false ∧ ((k.st = .registered ∨ k.st = .faulted)) ∧ k.moveOps = 0 ∧ s.dev.fit k (if bitAt (q.w 3).toNat 8
    then some (q.f 3 7 0) else none) = .ok o) ∧
    (∃ (s₀ s : State) (c : Cmd) (r : CmdRec) (q : Req) (m : Nat) (k : Mdl) (nand : Bool), s = s₀.reach (cmdKey c) ∧ q = reqOf c r ∧ s.dev.ownMdl q =
    some (m, k) ∧ s.dev.mdlHeld q.seq m = false ∧ Started 0x0302 c r s ∧ q.clean [(2, 0xFFFF), (3, 1)] = true ∧ k.pinned = false ∧ nand = bitAt (q.w
    3).toNat 0 ∧ k.st = .loading) ∧
    (∃ (s₀ s : State) (c : Cmd) (r : CmdRec) (q : Req) (m : Nat) (k : Mdl) (nand : Bool), s = s₀.reach (cmdKey c) ∧ q = reqOf c r ∧ s.dev.ownMdl q =
    some (m, k) ∧ s.dev.mdlHeld q.seq m = false ∧ Started 0x0302 c r s ∧ q.clean [(2, 0xFFFF), (3, 1)] = true ∧ k.pinned = false ∧ nand = bitAt (q.w
    3).toNat 0 ∧ k.st = .resident) ∧
    (∃ (s₀ s : State) (c : Cmd) (r : CmdRec) (q : Req) (m : Nat) (k : Mdl), s = s₀.reach (cmdKey c) ∧ q = reqOf c r ∧ s.dev.ownMdl q = some (m, k) ∧
    s.dev.mdlHeld q.seq m = false ∧ Started 0x0303 c r s ∧ q.clean [(2, 0xFFFF), (3, 1)] = true) ∧
    (∃ (s₀ s : State) (c : Cmd) (r : CmdRec) (q : Req) (m : Nat) (k : Mdl), s = s₀.reach (cmdKey c) ∧ q = reqOf c r ∧ s.dev.ownMdl q = some (m, k) ∧
    s.dev.mdlHeld q.seq m = false ∧ Started 0x0304 c r s ∧ q.clean [(2, 0xFFFF)] = true ∧ k.st = .resident) ∧
    (∃ (s₀ s : State) (c : Cmd) (r : CmdRec) (q : Req) (m : Nat) (k : Mdl) (o : Nat), s = s₀.reach (cmdKey c) ∧ q = reqOf c r ∧ s.dev.ownMdl q = some
    (m, k) ∧ s.dev.mdlHeld q.seq m = false ∧ Started 0x0304 c r s ∧ q.clean [(2, 0xFFFF)] = true ∧ ((k.st = .registered ∨ k.st = .faulted)) ∧
    s.dev.fit k none = .ok o) ∧
    (∃ (s₀ s : State) (c : Cmd) (r : CmdRec) (q : Req) (m : Nat) (k : Mdl) (e : Nat × Status), s = s₀.reach (cmdKey c) ∧ q = reqOf c r ∧ s.dev.ownMdl
    q = some (m, k) ∧ s.dev.mdlHeld q.seq m = false ∧ Started 0x0304 c r s ∧ q.clean [(2, 0xFFFF)] = true ∧ ((k.st = .registered ∨ k.st =
    .faulted)) ∧ s.dev.fit k none = .error e) ∧
    (∃ (s₀ s : State) (c : Cmd) (r : CmdRec) (q : Req) (m : Nat) (k : Mdl), s = s₀.reach (cmdKey c) ∧ q = reqOf c r ∧ s.dev.ownMdl q = some (m, k) ∧
    s.dev.mdlHeld q.seq m = false ∧ Started 0x0305 c r s ∧ q.clean [(2, 0xFFFF)] = true) ∧
    (∃ (s₀ s : State) (c : Cmd) (r : CmdRec) (q : Req) (m : Nat) (k : Mdl), s = s₀.reach (cmdKey c) ∧ q = reqOf c r ∧ s.dev.ownMdl q = some (m, k) ∧
    s.dev.mdlHeld q.seq m = false ∧ Started 0x0306 c r s ∧ q.clean [(2, 0xFFFF)] = true ∧ ((k.st = .registered ∨ k.st = .faulted)) ∧ k.moveOps = 0 ∧
    ((∀ e ∈ s.dev.ses.tbl, e.2.state = .free ∨ (e.2.model ≠ m ∧ e.2.compressor ≠ m)))) :=
  ⟨⟨(sc 0x0300 [0, 0, 128, 0, 0, 0, 0] (dv)), _, (rq 0x0300 [0, 0, 128, 0, 0, 0, 0]), (rc 0x0300 [0, 0, 128, 0, 0, 0, 0]), _, rfl, rfl,
     by unfold Started; decide +kernel⟩,
   ⟨(sc 0x0301 [1, 0x1FF] (withMdl md dv)), _, (rq 0x0301 [1, 0x1FF]), (rc 0x0301 [1, 0x1FF]), _, 1, md, rfl, rfl,
     by unfold Started; decide +kernel⟩,
   ⟨(sc 0x0301 [1, 0] (withMdl { md with st := .registered } { dv with regs := ⟨[], [(devKey 0x060100, 0x1FF00)], [], []⟩ })), _, (rq 0x0301 [1,
     0]), (rc 0x0301 [1, 0]), _, 1, ({ md with st := .registered }), _, rfl, rfl, by decide +kernel, (by decide +kernel),
     by unfold Started; decide +kernel, (by decide +kernel), by decide +kernel, (by decide +kernel), by decide +kernel, ok_get (by decide +kernel)⟩,
   ⟨(sc 0x0302 [1, 1] (withMdl { md with st := .loading } dv)), _, (rq 0x0302 [1, 1]), (rc 0x0302 [1, 1]), _, 1, ({ md with st := .loading }), _,
     rfl, rfl, by decide +kernel, (by decide +kernel), by unfold Started; decide +kernel, (by decide +kernel), by decide +kernel, rfl,
     by decide +kernel⟩,
   ⟨(sc 0x0302 [1, 0] (withMdl md dv)), _, (rq 0x0302 [1, 0]), (rc 0x0302 [1, 0]), _, 1, md, _, rfl, rfl, by decide +kernel, (by decide +kernel),
     by unfold Started; decide +kernel, (by decide +kernel), by decide +kernel, rfl, by decide +kernel⟩,
   ⟨(sc 0x0303 [1, 1] (withMdl md dv)), _, (rq 0x0303 [1, 1]), (rc 0x0303 [1, 1]), _, 1, md, rfl, rfl, by unfold Started; decide +kernel⟩,
   ⟨(sc 0x0304 [1] (withMdl md dv)), _, (rq 0x0304 [1]), (rc 0x0304 [1]), _, 1, md, rfl, rfl, by unfold Started; decide +kernel⟩,
   ⟨(sc 0x0304 [1] (withMdl { md with st := .faulted } { dv with regs := ⟨[], [(devKey 0x060100, 0x1FF00)], [], []⟩ })), _, (rq 0x0304 [1]), (rc
     0x0304 [1]), _, 1, ({ md with st := .faulted }), _, rfl, rfl, by decide +kernel, (by decide +kernel), by unfold Started; decide +kernel,
     (by decide +kernel), by decide +kernel, ok_get (by decide +kernel)⟩,
   ⟨(sc 0x0304 [1] (withMdl { md with st := .registered, img := { im with progs := 1 } }
     { dv with regs := ⟨[], [(devKey 0x060100, 0x1FF00)], [], []⟩ })), _, (rq 0x0304 [1]), (rc 0x0304 [1]), _, 1,
     ({ md with st := .registered, img := { im with progs := 1 } }), (5, .notPermitted), rfl, rfl, by unfold Started; decide +kernel⟩,
   ⟨(sc 0x0305 [1] (withMdl md dv)), _, (rq 0x0305 [1]), (rc 0x0305 [1]), _, 1, md, rfl, rfl, by unfold Started; decide +kernel⟩,
   ⟨(sc 0x0306 [1] (withMdl { md with st := .registered } dv)), _, (rq 0x0306 [1]), (rc 0x0306 [1]), _, 1, ({ md with st := .registered }), rfl,
     rfl, by unfold Started; decide +kernel⟩⟩

/-- A state and operands that meet the hypotheses of each clause of PrefixAdapterAndTrainingCommandsComplete. -/
theorem wit_prefixAdapterAndTrainingCommandsComplete :
    (∃ (s₀ s : State) (c : Cmd) (r : CmdRec) (q : Req) (e : Ses), s = s₀.reach (cmdKey c) ∧ q = reqOf c r ∧ Started 0x0310 c r s ∧ s.dev.lookup
    q.part (q.w 2) = .ok e ∧ q.clean [(2, top32)] = true ∧ e.state = .warm ∧ ((∀ o ∈ s.dev.ops, ∀ (n : Nat) (m : MoveProg), o.2.kind ≠ .pfxSession
    (q.w 2) n m)) ∧ e.pfx = 0 ∧ 1 ≤ e.ctx ∧ e.ctx ≤ 1048576 ∧ s.dev.ckpHolds (q.w 2) = true) ∧
    (∃ (s₀ s : State) (c : Cmd) (r : CmdRec) (q : Req) (e : Ses) (id : Nat) (d : Dev), s = s₀.reach (cmdKey c) ∧ q = reqOf c r ∧ Started 0x0310 c r
    s ∧ s.dev.lookup q.part (q.w 2) = .ok e ∧ q.clean [(2, top32)] = true ∧ e.state = .warm ∧ ((∀ o ∈ s.dev.ops, ∀ (n : Nat) (m : MoveProg),
    o.2.kind ≠ .pfxSession (q.w 2) n m)) ∧ e.pfx = 0 ∧ 1 ≤ e.ctx ∧ e.ctx ≤ 1048576 ∧ s.dev.ckpHolds (q.w 2) = false ∧ (s.dev.dropSpills s.ctx (q.w
    2)).pfxOfSes q.part e = some (id, d)) ∧
    (∃ (s₀ s : State) (c : Cmd) (r : CmdRec) (q : Req) (k : Mdl) (v first count n t per id : Nat) (set : List (Nat × Nat)) (d : Dev), s = s₀.reach
    (cmdKey c) ∧ q = reqOf c r ∧ Started 0x0311 c r s ∧ q.clean [(2, top32), (3, 0x7FFFF), (4, top32), (5, top32)] = true ∧ s.dev.mdl (q.f 2 15 0) =
    some k ∧ k.part = q.part ∧ s.dev.bindAdapter q.part (q.f 2 15 0) (q.f 2 31 16) = some v ∧ first = q.f 3 18 0 ∧ count = (q.w 4).toNat ∧ n = (q.w
    5).toNat ∧ 1 ≤ n ∧ n ≤ 1048576 ∧ t = pageT k.img.kvHeads k.img.headDim k.img.kvFmt ∧ per = (n + t - 1) / t ∧ runOk first count = true ∧
    k.img.layers * per ≤ 64 * count ∧ s.dev.allWhole q.part (runExts first count) = true ∧ s.dev.anyFrozen q.part (runExts first count) = false ∧
    s.dev.newSet q.part = some set ∧ s.dev.newPfx q.part ⟨q.part, [], 0, false, 0, false, q.f 2 15 0, v, n, t, k.img.kvFmt, k.img.layers, per, set,
    List.replicate k.img.layers ((List.range per).map fun j => min t (n - j * t)), false, []⟩ = some (id, d)) ∧
    (∃ (s₀ s : State) (c : Cmd) (r : CmdRec) (q : Req) (o : Share), s = s₀.reach (cmdKey c) ∧ q = reqOf c r ∧ Started 0x0312 c r s ∧ q.clean [(2,
    top32)] = true ∧ s.dev.share (q.w 2).toNat = some o ∧ o.part = q.part ∧ o.pfx = true) ∧
    (∃ (s₀ s : State) (c : Cmd) (r : CmdRec) (q : Req) (m : Nat) (k : Mdl) (o : Share) (n : Nat), s = s₀.reach (cmdKey c) ∧ q = reqOf c r ∧
    s.dev.ownMdl q = some (m, k) ∧ s.dev.adpShare q.part (q.w 3).toNat = .ok o ∧ s.dev.liveVers q.part < 4096 ∧ Started 0x0318 c r s ∧ q.clean [(2,
    0x1FFFF), (3, top32)] = true ∧ (List.range 256).find? (fun n => !((s.dev.linesOf q.part (q.f 2 15 0)).any fun l => l.line == n)) = some n) ∧
    (∃ (s₀ s : State) (c : Cmd) (r : CmdRec) (q : Req) (m : Nat) (k : Mdl) (o : Share) (l : AdpLine), s = s₀.reach (cmdKey c) ∧ q = reqOf c r ∧
    s.dev.ownMdl q = some (m, k) ∧ s.dev.adpShare q.part (q.w 3).toNat = .ok o ∧ s.dev.liveVers q.part < 4096 ∧ Started 0x0319 c r s ∧ q.clean [(2,
    0xFFFFFF), (3, top32)] = true ∧ s.dev.sch.lines.find? (fun l => l.model == q.f 2 15 0 && l.line == q.f 2 23 16 && !l.retired) = some l ∧
    o.bytes = l.bytes) ∧
    (∃ (s₀ s : State) (c : Cmd) (r : CmdRec) (q : Req) (a : Adapter), s = s₀.reach (cmdKey c) ∧ q = reqOf c r ∧ Started 0x031A c r s ∧ q.clean [(2,
    0xFFFF)] = true ∧ tget s.dev.sch.adapters (q.part * 65536 + q.f 2 15 0) = some a) ∧
    (∃ (s₀ s : State) (c : Cmd) (r : CmdRec) (q : Req) (m : Nat) (k : Mdl) (l : AdpLine), s = s₀.reach (cmdKey c) ∧ q = reqOf c r ∧ Started 0x031B c
    r s ∧ q.clean [(2, 0xFFFFFF)] = true ∧ s.dev.ownMdl q = some (m, k) ∧ s.dev.sch.lines.find? (fun l => l.model == q.f 2 15 0 && l.line == q.f 2 23
    16 && !l.retired) = some l) ∧
    (∃ (s₀ s : State) (c : Cmd) (r : CmdRec) (q : Req) (k : Mdl) (id : Nat), s = s₀.reach (cmdKey c) ∧ q = reqOf c r ∧ Started 0x0320 c r s ∧
    s.dev.mdl (q.f 2 15 0) = some k ∧ k.part = q.part ∧ q.clean [(2, 0x1FFFF), (3, top32), (4, top32), (5, top32), (6, top32), (7, top32), (8,
    top32), (9, top32)] = true ∧ 1 ≤ (q.w 9).toNat ∧ s.dev.mutableRun q.part (q.w 3).toNat (q.w 4).toNat = true ∧ runOk (q.w 5).toNat (q.w 6).toNat =
    true ∧ s.dev.allMapped q.part (runExts (q.w 5).toNat (q.w 6).toNat) = true ∧ s.dev.mutableRun q.part (q.w 7).toNat (q.w 8).toNat = true ∧
    s.dev.liveJobs q.part < 4 ∧ id = nextId (fun n => thas s.dev.sch.jobs n) top32 s.dev.sch.jobs.length s.dev.sch.lastJob) ∧
    (∃ (s₀ s : State) (c : Cmd) (r : CmdRec) (q : Req) (j : TrainJob), s = s₀.reach (cmdKey c) ∧ q = reqOf c r ∧ Started 0x0322 c r s ∧ q.clean [(2,
    top32)] = true ∧ s.dev.ownJob q = some j) ∧
    (∃ (s₀ s : State) (c : Cmd) (r : CmdRec) (q : Req) (j : TrainJob), s = s₀.reach (cmdKey c) ∧ q = reqOf c r ∧ Started 0x0321 c r s ∧ q.clean [(2,
    top32)] = true ∧ s.dev.ownJob q = some j ∧ j.inStep = true) :=
  ⟨⟨(sc 0x0310 [h0] (withMdl md
     { dgl gu with ses := ⟨[(0, { se .warm with kv := some (⟨0, 256, 0, 1, 1, 64, 0, 0, (List.range 8).map fun i => (15, i), List.replicate 8 0, [[⟨true, false, 1, .hbm ga⟩]], []⟩ : Kv), ctx := 1048576 })], [], []⟩, ckp := ⟨[(9, ⟨0, 0, 1, [0], false, 64, [⟨1, 0, 0x01000000, 0⟩], 0, 0, 0, 0, [], [], 0, some ⟨0, [], 1, 0, [128], [(0, 0)], [], [], [], false, 0, [], 0, [], [], [], false, []⟩, none, []⟩)]⟩ })),
     _, (rq 0x0310 [h0]), (rc 0x0310 [h0]), _,
     ({ se .warm with kv := some (⟨0, 256, 0, 1, 1, 64, 0, 0, (List.range 8).map fun i => (15, i), List.replicate 8 0, [[⟨true, false, 1, .hbm ga⟩]], []⟩ : Kv), ctx := 1048576 }),
     rfl, rfl, by unfold Started; decide +kernel, (by decide +kernel), by decide +kernel, (by decide +kernel), (by intro o ho; cases ho),
     by decide +kernel⟩,
   ⟨(sc 0x0310 [h0] (withMdl md
     { dgl gu with ses := ⟨[(0, { se .warm with kv := some (⟨0, 256, 0, 1, 1, 64, 0, 0, (List.range 8).map fun i => (15, i), List.replicate 8 0, [[⟨true, false, 1, .hbm ga⟩]], []⟩ : Kv), ctx := 1048576 })], [], []⟩ })),
     _, (rq 0x0310 [h0]), (rc 0x0310 [h0]), _,
     ({ se .warm with kv := some (⟨0, 256, 0, 1, 1, 64, 0, 0, (List.range 8).map fun i => (15, i), List.replicate 8 0, [[⟨true, false, 1, .hbm ga⟩]], []⟩ : Kv), ctx := 1048576 }),
     _, _, rfl, rfl, by unfold Started; decide +kernel, (by decide +kernel), by decide +kernel, (by decide +kernel), (by intro o ho; cases ho),
     (by decide +kernel), by decide +kernel, (by decide +kernel), by decide +kernel, some_get2 (by decide +kernel)⟩,
   ⟨(sc 0x0311 [1, 7, 1, 1] (withMdl md (dpool (dmap false)))), _, (rq 0x0311 [1, 7, 1, 1]), (rc 0x0311 [1, 7, 1, 1]), _, md, _, _, _, _, _, _, _,
     _, _, rfl, rfl, by unfold Started; decide +kernel, (by decide +kernel), by decide +kernel, (by decide +kernel), some_get1 (by decide +kernel),
     rfl, rfl, rfl, by decide +kernel, (by decide +kernel), rfl, rfl, by decide +kernel, (by decide +kernel), by decide +kernel, (by decide +kernel),
     some_get1 (by decide +kernel), some_get2 (by decide +kernel)⟩,
   ⟨(sc 0x0312 [5]
     ({ dv with mem := { MemState.reset with shares := [(5, (⟨0, [], 96, true, 1, true, 1, 0, 0, 0, 0, 0, 0, [], [], false, []⟩ : Share))] } })), _,
     (rq 0x0312 [5]), (rc 0x0312 [5]), _, (⟨0, [], 96, true, 1, true, 1, 0, 0, 0, 0, 0, 0, [], [], false, []⟩ : Share), rfl, rfl,
     by unfold Started; decide +kernel⟩,
   ⟨(sc 0x0318 [0x10001, 5] (withMdl md
     { dv with mem := { MemState.reset with shares := [(5, (⟨0, [], 96, true, 1, false, 1, 0, 0, 0, 0, 0, 0, [], [], false, []⟩ : Share))] } })), _,
     (rq 0x0318 [0x10001, 5]), (rc 0x0318 [0x10001, 5]), _, 1, md, (⟨0, [], 96, true, 1, false, 1, 0, 0, 0, 0, 0, 0, [], [], false, []⟩ : Share), _,
     rfl, rfl, by decide +kernel, (by decide +kernel), by decide +kernel, (by unfold Started; decide +kernel), by decide +kernel, some_get1
     (by decide +kernel)⟩,
   ⟨(sc 0x0319 [0xFF0001, 5] (withMdl md
     { dv with mem := { MemState.reset with shares := [(5, (⟨0, [], 96, true, 1, false, 1, 0, 0, 0, 0, 0, 0, [], [], false, []⟩ : Share))] }, sch := { SchState.reset with lines := [(⟨1, 255, true, 96, false⟩ : AdpLine)], adapters := [(2, (⟨0, 1, 255, 5, true⟩ : Adapter))] } })),
     _, (rq 0x0319 [0xFF0001, 5]), (rc 0x0319 [0xFF0001, 5]), _, 1, md, (⟨0, [], 96, true, 1, false, 1, 0, 0, 0, 0, 0, 0, [], [], false, []⟩ :
     Share), (⟨1, 255, true, 96, false⟩ : AdpLine), rfl, rfl, by unfold Started; decide +kernel⟩,
   ⟨(sc 0x031A [2] (withMdl md
     { dv with mem := { MemState.reset with shares := [(5, (⟨0, [], 96, true, 1, false, 1, 0, 0, 0, 0, 0, 0, [], [], false, []⟩ : Share))] }, sch := { SchState.reset with lines := [(⟨1, 255, true, 96, false⟩ : AdpLine)], adapters := [(2, (⟨0, 1, 255, 5, true⟩ : Adapter))] } })),
     _, (rq 0x031A [2]), (rc 0x031A [2]), _, (⟨0, 1, 255, 5, true⟩ : Adapter), rfl, rfl, by unfold Started; decide +kernel⟩,
   ⟨(sc 0x031B [0xFF0001] (withMdl md
     { dv with mem := { MemState.reset with shares := [(5, (⟨0, [], 96, true, 1, false, 1, 0, 0, 0, 0, 0, 0, [], [], false, []⟩ : Share))] }, sch := { SchState.reset with lines := [(⟨1, 255, true, 96, false⟩ : AdpLine)], adapters := [(2, (⟨0, 1, 255, 5, true⟩ : Adapter))] } })),
     _, (rq 0x031B [0xFF0001]), (rc 0x031B [0xFF0001]), _, 1, md, (⟨1, 255, true, 96, false⟩ : AdpLine), rfl, rfl, by unfold Started; decide +kernel⟩,
   ⟨(sc 0x0320 [0x10001, 7, 1, 7, 1, 7, 1, 1] (withMdl md (dmap false))), _, (rq 0x0320 [0x10001, 7, 1, 7, 1, 7, 1, 1]), (rc 0x0320 [0x10001, 7, 1,
     7, 1, 7, 1, 1]), _, md, _, rfl, rfl, by unfold Started; decide +kernel, (by decide +kernel), by decide +kernel, (by decide +kernel),
     by decide +kernel, (by decide +kernel), by decide +kernel, (by decide +kernel), by decide +kernel, (by decide +kernel), rfl⟩,
   ⟨(sc 0x0322 [1] (withMdl { md with origin := 255 }
     { dco { co with done := true } with sch := { SchState.reset with jobs := [(1, (⟨0, 9, 1, false, (7, 1), (7, 1), (7, 1), 2, 0, 1, false, true⟩ : TrainJob))] } })),
     _, (rq 0x0322 [1]), (rc 0x0322 [1]), _, (⟨0, 9, 1, false, (7, 1), (7, 1), (7, 1), 2, 0, 1, false, true⟩ : TrainJob), rfl, rfl,
     by unfold Started; decide +kernel⟩,
   ⟨(sc 0x0321 [1] (withMdl { md with origin := 255 }
     { dco { co with done := true } with sch := { SchState.reset with jobs := [(1, (⟨0, 9, 1, false, (7, 1), (7, 1), (7, 1), 2, 0, 1, false, true⟩ : TrainJob))] } })),
     _, (rq 0x0321 [1]), (rc 0x0321 [1]), _, (⟨0, 9, 1, false, (7, 1), (7, 1), (7, 1), 2, 0, 1, false, true⟩ : TrainJob), rfl, rfl,
     by unfold Started; decide +kernel⟩⟩

/-- A state and operands that meet the hypotheses of each clause of AttentionEventsTakeEffect. -/
theorem wit_attentionEventsTakeEffect :
    (∃ (s : State) (p : Nat) (s₀ : State), s.clock.power = true ∧ s.dev.poolBelow p (s.dev.spillHigh p) = false ∧ s = s₀.follow) ∧
    (∃ (s : State) (p : Nat) (s₀ : State), s.clock.power = true ∧ s.dev.poolBelow p (s.dev.spillHigh p) = true ∧ (s.dev.poolBelow p (s.dev.spillLow
    p) = true ∨ s.dev.mem.spilling.contains p = true) ∧ s = s₀.follow) ∧
    (∃ (s : State) (id p l j u a : Nat) (h : Word) (src : CmdSrc) (woken : Bool) (d d1 : Dev) (s₀ : State), s.clock.power = true ∧ tget s.dev.ops
    id = some ⟨src, p, .spill h l j u true, woken⟩ ∧ s.dev.hasDesc id = true ∧ s.dev.pageHome h l j = some (.hbm a) ∧ d = ((((s.dev.setPage h l j fun
    pg => { pg with spilled := true, home := .nand u }).release s.ctx (.hbm a) (.nand u)).bumpPart p 0x04030C 1).charge h 3 32768) ∧ d1 =
    { d.freeDesc id with ops := tdel d.ops id } ∧ s = s₀.reach (evKey 5 0 (source 4 0))) ∧
    (∃ (s : State) (id p l j g u : Nat) (h : Word) (src : CmdSrc) (ab : Bool) (d d1 : Dev) (s₀ : State), s.clock.power = true ∧ tget s.dev.ops id =
    some ⟨src, p, .fetchBack h l j (some g), ab⟩ ∧ s.dev.reach s.ctx .culm (1, id) [(granAddr g, 32768)] = (.go, d) ∧ d.pageHome h l j = some (.nand
    u) ∧ d1 = ((({ d with ops := tdel d.ops id } : Dev).copyTo s.ctx (.nand u) (granAddr g)).setPage h l j fun pg =>
    { pg with spilled := false, home := .hbm (granAddr g) }) ∧ s = s₀.reach (evKey 5 0 (source 4 0))) ∧
    (∃ (s : State) (id p l j g : Nat) (h : Word) (src : CmdSrc) (ab : Bool) (e : Ses) (k : Kv) (d : Dev) (l1 l2 : List (Nat × Op)) (s₀ : State),
    s.clock.power = true ∧ s.dev.ops = l1 ++ (id, ⟨src, p, .fetchBack h l j none, ab⟩) :: l2 ∧ ((∀ o ∈ l1, o.2.part = p → ∀ (h : Word) (l j : Nat),
    o.2.kind ≠ .fetchBack h l j none)) ∧ s.dev.sesOf h = some e ∧ e.kv = some k ∧ (s.dev.pageHome h l j).elim false Home.isNand = true ∧
    s.dev.takeMember p k.set .kv 8 ((l + k.pfxPages + j) % 8) = some (g, d) ∧ s = s₀.follow) ∧
    (∃ (s : State) (id : Nat) (j : TrainJob) (k : Mdl) (s₀ : State), s.clock.power = true ∧ tget s.dev.sch.jobs id = some j ∧ s.dev.mdl j.model =
    some k ∧ j.st ≠ 2 ∧ j.inStep = false ∧ s.dev.resident j.model = true ∧ s.dev.idleFor j.part = true ∧ s = s₀.follow) ∧
    (∃ (s : State) (id : Nat) (j : TrainJob) (k : Mdl) (s₀ : State), s.clock.power = true ∧ tget s.dev.sch.jobs id = some j ∧ s.dev.mdl j.model =
    some k ∧ j.inStep = true ∧ ((∀ n ∈ k.cores, (s.dev.core n).done = true)) ∧ (tget s.dev.ops j.op).elim false Op.aborted = false ∧ j.stop = false ∧
    j.donesteps + 1 < j.steps ∧ s = s₀.reach (evKey 5 0 (source 7 0))) ∧
    (∃ (s : State) (p e : Nat) (s₀ : State), s.clock.power = true ∧ p < 16 ∧ tgetD s.dev.sch.split p 0 < s.meter.made ∧ e = (s.meter.energy[p]?).getD
    0 ∧ nsum ((s.dev.sch.nsThisSec.filter fun n => n.1 / 2 ^ 24 == p).map Prod.snd) = 0 ∧ s = s₀.follow) :=
  ⟨⟨_, 0, (st dv), by decide +kernel, (by decide +kernel), rfl⟩,
   ⟨_, 0, (st { dgl gu with regs := ⟨[], [(devKey 0x0502E0, 0), (partKey 0 0x040300, 0xFFFF)], [], []⟩ }), by decide +kernel, (by decide +kernel),
     by decide +kernel, rfl⟩,
   ⟨_, 2, 0, 0, 0, 1, ga, h0, (.ring ⟨0, 0⟩ 0 0), false, _, _, (st
     { { dgl gu with ses := ⟨[(0, { se .warm with kv := some (⟨0, 256, 0, 1, 1, 64, 0, 0, (List.range 8).map fun i => (15, i), List.replicate 8 0, [[⟨true, false, 1, .hbm ga⟩]], []⟩ : Kv) })], [], []⟩ } with ops := [(2, (⟨.ring ⟨0, 0⟩ 0 0, 0, .spill h0 0 0 1 true, false⟩ : Op))], mem := { MemState.reset with culm := [(2, 1)] } }),
     by decide +kernel, (by decide +kernel), by decide +kernel, (by decide +kernel), rfl, rfl, rfl⟩,
   ⟨_, 2, 0, 0, 0, 9, 1, h0, (.ring ⟨0, 0⟩ 0 0), false, _, _, (st
     { { dgl gu with ses := ⟨[(0, { se .warm with kv := some (⟨0, 256, 0, 1, 1, 64, 0, 0, (List.range 8).map fun i => (15, i), List.replicate 8 0, [[⟨true, true, 1, .nand 1⟩]], []⟩ : Kv) })], [], []⟩ } with ops := [(2, (⟨.ring ⟨0, 0⟩ 0 0, 0, .fetchBack h0 0 0 (some 9), false⟩ : Op))], nand := { NandState.reset with units := [(1, ⟨0, 1, 1, 0, 5, 4, 0, []⟩)] } }),
     by decide +kernel, (by decide +kernel), fst_get (by decide +kernel), (by decide +kernel), rfl, rfl⟩,
   ⟨_, 2, 0, 0, 0, _, h0, (.ring ⟨0, 0⟩ 0 0), false,
     ({ se .warm with kv := some (⟨0, 256, 0, 1, 1, 64, 0, 0, (List.range 8).map fun i => (15, i), List.replicate 8 0, [[⟨true, true, 1, .nand 1⟩]], []⟩ : Kv) }),
     (⟨0, 256, 0, 1, 1, 64, 0, 0, (List.range 8).map fun i => (15, i), List.replicate 8 0, [[⟨true, true, 1, .nand 1⟩]], []⟩ : Kv), _, [], [], (st
     { { dgl gu with ses := ⟨[(0, { se .warm with kv := some (⟨0, 256, 0, 1, 1, 64, 0, 0, (List.range 8).map fun i => (15, i), List.replicate 8 0, [[⟨true, true, 1, .nand 1⟩]], []⟩ : Kv) })], [], []⟩ } with ops := [(2, (⟨.ring ⟨0, 0⟩ 0 0, 0, .fetchBack h0 0 0 none, false⟩ : Op))] }),
     by decide +kernel, (by decide +kernel), (by intro o ho; cases ho), (by decide +kernel), by decide +kernel, (by decide +kernel), some_get2
     (by decide +kernel), rfl⟩,
   ⟨_, 1, (⟨0, 9, 1, false, (7, 1), (7, 1), (7, 1), 2, 0, 1, false, false⟩ : TrainJob), ({ md with origin := 255 }), (st (withMdl
     { md with origin := 255 }
     { dco { co with done := true } with sch := { SchState.reset with jobs := [(1, (⟨0, 9, 1, false, (7, 1), (7, 1), (7, 1), 2, 0, 1, false, false⟩ : TrainJob))] } })),
     by decide +kernel, (by decide +kernel), by decide +kernel, (by decide +kernel), by decide +kernel, (by decide +kernel), by decide +kernel, rfl⟩,
   ⟨_, 1, (⟨0, 9, 1, false, (7, 1), (7, 1), (7, 1), 2, 0, 1, false, true⟩ : TrainJob), ({ md with origin := 255 }), (st (withMdl
     { md with origin := 255 }
     { dco { co with done := true } with sch := { SchState.reset with jobs := [(1, (⟨0, 9, 1, false, (7, 1), (7, 1), (7, 1), 2, 0, 1, false, true⟩ : TrainJob))] } })),
     by decide +kernel, (by decide +kernel), by decide +kernel, (by decide +kernel), by decide +kernel, (by decide +kernel), by decide +kernel,
     (by decide +kernel), rfl⟩,
   ⟨_, 15, _, ({ st dv with meter := { State.reset.meter with made := 1 } }), by decide +kernel, (by decide +kernel), by decide +kernel, rfl,
     by decide +kernel, rfl⟩⟩

/-- A state and operands that meet the hypotheses of each clause of ServingRowsTakeEffect. -/
theorem wit_servingRowsTakeEffect :
    (∃ (s₀ s : State) (c : Cmd) (r : CmdRec) (q : Req) (e : Ses), s = s₀.reach (cmdKey c) ∧ q = reqOf c r ∧ s.dev.lookup q.part (q.w 2) = .ok e ∧
    Started 0x0400 c r s ∧ q.clean [(2, top32), (3, 0xFFFFF), (4, 0xFFFFF), (5, 0xFFFFFF), (6, 0xFF33), (7, top32), (8, 0xFFFF), (9, top32)] = true ∧
    q.f 3 19 0 ≠ 0 ∧ q.f 6 1 0 ≠ 3 ∧ q.f 6 15 8 ≤ 63 ∧ e.state ≠ .free) ∧
    (∃ (s₀ s : State) (c : Cmd) (r : CmdRec) (q : Req) (e : Ses) (t : Request), s = s₀.reach (cmdKey c) ∧ q = reqOf c r ∧ s.dev.lookup q.part (q.w
    2) = .ok e ∧ Started 0x0402 c r s ∧ q.clean [(2, top32)] = true ∧ s.dev.req e.request = some t ∧ s.dev.rowRunning (q.w 2) = true) ∧
    (∃ (s₀ s : State) (c : Cmd) (r : CmdRec) (q : Req) (e : Ses) (t : Request), s = s₀.reach (cmdKey c) ∧ q = reqOf c r ∧ s.dev.lookup q.part (q.w
    2) = .ok e ∧ Started 0x0402 c r s ∧ q.clean [(2, top32)] = true ∧ s.dev.req e.request = some t ∧ s.dev.rowRunning (q.w 2) = false) ∧
    (∃ (s₀ s : State) (c : Cmd) (r : CmdRec) (q : Req) (e : Ses) (t : Request), s = s₀.reach (cmdKey c) ∧ q = reqOf c r ∧ s.dev.lookup q.part (q.w
    2) = .ok e ∧ Started 0x0403 c r s ∧ q.clean [(2, top32)] = true ∧ s.dev.req e.request = some t) ∧
    (∃ (s₀ s : State) (c : Cmd) (r : CmdRec) (q : Req) (e : Ses), s = s₀.reach (cmdKey c) ∧ q = reqOf c r ∧ s.dev.lookup q.part (q.w 2) = .ok e ∧
    Started 0x0403 c r s ∧ q.clean [(2, top32)] = true ∧ s.dev.req e.request = none) ∧
    (∃ (s₀ s : State) (c : Cmd) (r : CmdRec) (q : Req) (e : Ses), s = s₀.reach (cmdKey c) ∧ q = reqOf c r ∧ s.dev.lookup q.part (q.w 2) = .ok e ∧
    Started 0x0411 c r s ∧ q.clean [(2, top32), (3, top32), (4, top32)] = true ∧ q.d2 3 % 64 = 0) ∧
    (∃ (s₀ s : State) (c : Cmd) (r : CmdRec) (q : Req) (k : Mdl), s = s₀.reach (cmdKey c) ∧ q = reqOf c r ∧ Started 0x0410 c r s ∧ s.dev.mdl (q.f 2
    15 0) = some k ∧ k.part = q.part ∧ q.clean [(2, top32), (3, 0x1FFF), (4, 0x3FFF)] = true ∧ q.f 3 12 0 % 64 = 0 ∧ q.f 3 12 0 ≤ 4096 ∧ ((q.f 4 13
    0 = 0 ∨ (64 ≤ q.f 4 13 0 ∧ q.f 4 13 0 ≤ 8192))) ∧ ((q.f 2 31 16 = 0 ∨ (q.f 2 31 16 ≠ q.f 2 15 0 ∧ ∃ g, s.dev.mdl (q.f 2 31 16) = some g ∧
    g.part = k.part ∧ g.img.layers = k.img.layers ∧ g.img.kvHeads = k.img.kvHeads ∧ g.img.headDim = k.img.headDim ∧ g.img.kvFmt = k.img.kvFmt)))) ∧
    (∃ (s : State) (m : Nat) (k : Mdl) (row : Row) (e : Ses) (s₀ : State), s.clock.power = true ∧ s.dev.mdl m = some k ∧ (s.dev.batch m).decided =
    true ∧ (s.dev.batch m).running = false ∧ k.st = .resident ∧ k.reloading = false ∧ (s.dev.batch m).rows = [row] ∧ row.kind ≠ 3 ∧ s.dev.sesOf
    row.h = some e ∧ ((e.state = .opened ∨ e.state = .running)) ∧ e.request = row.req ∧ ((∀ g ∈ s.dev.rowGrans row, thas s.dev.mem.copying g =
    false)) ∧ s = s₀.follow) ∧
    (∃ (s : State) (m : Nat) (k : Mdl) (s₀ : State), s.clock.power = true ∧ s.dev.mdl m = some k ∧ (s.dev.batch m).running = true ∧ ((∀ n ∈ k.cores,
    (s.dev.core n).done = true)) ∧ (s.dev.batch m).rows = [] ∧ k.st ≠ .evicting ∧ s = s₀.reach (evKey 5 0 (source 7 0))) ∧
    (∃ (s : State) (d : Dev) (s₀ : State), s.clock.power = true ∧ s.dev.sch.monLast < s.clock.now / 12500 ∧ d =
    { s.dev with sch := { s.dev.sch with monLast := s.clock.now / 12500 } } ∧ s = s₀.reach (evKey 8 0 (source 7 0))) ∧
    (∃ (s : State) (h : Word) (e : Ses) (t : Request) (d : Dev) (s₀ : State), s.clock.power = true ∧ s.dev.sesOf h = some e ∧ s.dev.req e.request =
    some t ∧ t.deadline ≠ 0 ∧ t.deadline ≤ s.clock.now ∧ t.expired = false ∧ d = s.dev.setReq t.num { t with expired := true } ∧ t.tmpl.late ≠ 1 ∧
    (t.tmpl.late ≠ 2 ∨ s.dev.rowRunning h = true) ∧ s = s₀.reach (evKey 6 0 (source 7 0))) ∧
    (∃ (s : State) (h : Word) (e : Ses) (t : Request) (d : Dev) (s₀ : State), s.clock.power = true ∧ s.dev.sesOf h = some e ∧ s.dev.req e.request =
    some t ∧ t.deadline ≠ 0 ∧ t.deadline ≤ s.clock.now ∧ t.expired = false ∧ d = s.dev.setReq t.num { t with expired := true } ∧ t.tmpl.late = 1 ∧
    s = s₀.reach (evKey 6 0 (source 7 0))) ∧
    (∃ (s : State) (h : Word) (e : Ses) (t : Request) (d : Dev) (s₀ : State), s.clock.power = true ∧ s.dev.sesOf h = some e ∧ s.dev.req e.request =
    some t ∧ t.deadline ≠ 0 ∧ t.deadline ≤ s.clock.now ∧ t.expired = false ∧ d = s.dev.setReq t.num { t with expired := true } ∧ t.tmpl.late = 2 ∧
    s.dev.rowRunning h = false ∧ s = s₀.reach (evKey 6 0 (source 7 0))) :=
  ⟨⟨(sc 0x0400 [h0, 0xFFFFF, 0, 0, 0x3F02, 0, 0, 0] (dses (se .opened))), _, (rq 0x0400 [h0, 0xFFFFF, 0, 0, 0x3F02, 0, 0, 0]), (rc 0x0400 [h0,
     0xFFFFF, 0, 0, 0x3F02, 0, 0, 0]), _, (se .opened), rfl, rfl, by unfold Started; decide +kernel⟩,
   ⟨(sc 0x0402 [h0]
     ({ withReq rqst (dses { se .running with request := 5 }) with sch := { (withReq rqst dv).sch with batches := [(1, { Batch.reset with running := true, rows := [⟨h0, 5, 0, 0, 0, false, false, []⟩] })] } })),
     _, (rq 0x0402 [h0]), (rc 0x0402 [h0]), _, ({ se .running with request := 5 }), rqst, rfl, rfl, by unfold Started; decide +kernel⟩,
   ⟨(sc 0x0402 [h0] (withReq rqst (dses { se .running with request := 5 }))), _, (rq 0x0402 [h0]), (rc 0x0402 [h0]), _,
     ({ se .running with request := 5 }), rqst, rfl, rfl, by unfold Started; decide +kernel⟩,
   ⟨(sc 0x0403 [h0] (withReq rqst (dses { se .running with request := 5 }))), _, (rq 0x0403 [h0]), (rc 0x0403 [h0]), _,
     ({ se .running with request := 5 }), rqst, rfl, rfl, by unfold Started; decide +kernel⟩,
   ⟨(sc 0x0403 [h0] (dses (se .opened))), _, (rq 0x0403 [h0]), (rc 0x0403 [h0]), _, (se .opened), rfl, rfl, by unfold Started; decide +kernel⟩,
   ⟨(sc 0x0411 [h0, 0x40, 0] (dses (se .opened))), _, (rq 0x0411 [h0, 0x40, 0]), (rc 0x0411 [h0, 0x40, 0]), _, (se .opened), rfl, rfl,
     by unfold Started; decide +kernel⟩,
   ⟨(sc 0x0410 [1, 4096, 8192] (withMdl md dv)), _, (rq 0x0410 [1, 4096, 8192]), (rc 0x0410 [1, 4096, 8192]), _, md, rfl, rfl,
     by unfold Started; decide +kernel, (by decide +kernel), by decide +kernel, (by decide +kernel), by decide +kernel, (by decide +kernel),
     by decide +kernel, .inl (by decide +kernel)⟩,
   ⟨_, 1, md, (⟨h0, 5, 0, 0, 0, false, false, []⟩ : Row), ({ se .opened with request := 5 }), (st
     { withMdl md (dses { se .opened with request := 5 }) with sch := { SchState.reset with batches := [(1, { Batch.reset with decided := true, rows := [(⟨h0, 5, 0, 0, 0, false, false, []⟩ : Row)] })] } }),
     by decide +kernel, (by decide +kernel), by decide +kernel, (by decide +kernel), by decide +kernel, (by decide +kernel), by decide +kernel,
     (by decide +kernel), by decide +kernel, (by decide +kernel), by decide +kernel, (by decide +kernel), rfl⟩,
   ⟨_, 1, ({ md with origin := 255 }), (st
     { withMdl { md with origin := 255 } (dco { co with done := true }) with grid := { (dco { co with done := true }).grid with mdls := [(1, { md with origin := 255 })] }, sch := { SchState.reset with batches := [(1, { Batch.reset with running := true })] } }),
     by decide +kernel, (by decide +kernel), by decide +kernel, (by decide +kernel), by decide +kernel, (by decide +kernel), rfl⟩,
   ⟨_, _, (st dv), by decide +kernel, (by decide +kernel), rfl, rfl⟩,
   ⟨_, h0, ({ se .running with request := 5 }), ({ rqst with deadline := 1250000000 }), _, (st (withReq { rqst with deadline := 1250000000 } (dses
     { se .running with request := 5 }))), by decide +kernel, (by decide +kernel), by decide +kernel, (by decide +kernel), by decide +kernel,
     (by decide +kernel), rfl, (by decide +kernel), by decide +kernel, rfl⟩,
   ⟨_, h0, ({ se .running with request := 5 }), ({ rqst with deadline := 1250000000, tmpl := { Template.reset with late := 1 } }), _, (st (withReq
     { rqst with deadline := 1250000000, tmpl := { Template.reset with late := 1 } } (dses { se .running with request := 5 }))), by decide +kernel,
     (by decide +kernel), by decide +kernel, (by decide +kernel), by decide +kernel, (by decide +kernel), rfl, (by decide +kernel), rfl⟩,
   ⟨_, h0, ({ se .running with request := 5 }), ({ rqst with deadline := 1250000000, tmpl := { Template.reset with late := 2 } }), _, (st (withReq
     { rqst with deadline := 1250000000, tmpl := { Template.reset with late := 2 } } (dses { se .running with request := 5 }))), by decide +kernel,
     (by decide +kernel), by decide +kernel, (by decide +kernel), by decide +kernel, (by decide +kernel), rfl, (by decide +kernel),
     by decide +kernel, rfl⟩⟩

/-- A state and operands that meet the hypotheses of each clause of TextRowsTakeEffect. -/
theorem wit_textRowsTakeEffect :
    (∃ (s₀ s : State) (c : Cmd) (r : CmdRec) (q : Req) (e : Ses) (text : List Byte) (bad : Bool) (tr : TxtReq) (d1 d2 d3 : Dev) (off num : Nat), s =
    s₀.reach (cmdKey c) ∧ q = reqOf c r ∧ Started 0x0401 c r s ∧ s.dev.lookup q.part (q.w 2) = .ok e ∧ q.clean [(2, top32), (3, top32), (4, 0xFF),
    (5, top32), (6, top32), (7, top32)] = true ∧ 1 ≤ (q.w 5).toNat ∧ (q.w 5).toNat ≤ 16777216 ∧ e.state ≠ .free ∧ e.state ≠ .moving ∧ e.state ≠
    .closing ∧ off = bufOff (q.w 3).toNat (q.f 4 7 0) ∧ s.dev.bufSealed q.part off (q.w 5).toNat = false ∧ s.dev.bufRead q.part off (q.w 5).toNat =
    some (text, bad) ∧ s.dev.sesText (q.w 2) e (.submit q.seq) off text bad false = some tr ∧ d1 = (if e.request = 0 then s.dev.startReq s.ctx (q.w
    2) (q.d2 6) true else s.dev) ∧ num = (d1.sesOf (q.w 2)).elim 0 Ses.request ∧
    d2 = (match d1.req num with | some t => d1.setReq num { t with ops := t.ops ++ [q.seq] } | none => d1) ∧ d3 = d2.addText tr) ∧
    (∃ (s₀ s : State) (c : Cmd) (r : CmdRec) (q : Req), s = s₀.reach (cmdKey c) ∧ q = reqOf c r ∧ Started 0x0500 c r s ∧ q.clean [(2, top32), (3,
    top32), (4, top32), (5, 0x703), (6, top32)] = true ∧ s.dev.sliceBusy q.part 8 = false) ∧
    (∃ (s₀ s : State) (c : Cmd) (r : CmdRec) (q : Req), s = s₀.reach (cmdKey c) ∧ q = reqOf c r ∧ Started 0x0501 c r s ∧ q.clean [(2, 0xFFFF), (3,
    0x107)] = true ∧ q.f 2 15 0 ≤ 4095 ∧ s.dev.sliceBusy q.part 8 = false) ∧
    (∃ (s₀ s : State) (c : Cmd) (r : CmdRec) (q : Req), s = s₀.reach (cmdKey c) ∧ q = reqOf c r ∧ Started 0x0502 c r s ∧ q.clean [(2, 0x1070F), (3,
    top32)] = true ∧ s.dev.sliceBusy q.part 8 = false ∧ bitAt (q.w 2).toNat 16 = true ∧ tget (s.dev.txtShd q.part).grams (q.f 2 3 0) = none) ∧
    (∃ (s₀ s : State) (c : Cmd) (r : CmdRec) (q : Req) (o : Share), s = s₀.reach (cmdKey c) ∧ q = reqOf c r ∧ Started 0x0502 c r s ∧ q.clean [(2,
    0x1070F), (3, top32)] = true ∧ s.dev.sliceBusy q.part 8 = false ∧ bitAt (q.w 2).toNat 16 = false ∧ tget (s.dev.txtShd q.part).grams (q.f 2 3 0) =
    none ∧ s.dev.share (q.w 3).toNat = some o ∧ o.part = q.part ∧ o.own = true ∧ o.sealed = false ∧ s.dev.grammarOk o = true) ∧
    (∃ (s₀ s : State) (c : Cmd) (r : CmdRec) (q : Req) (e : Ses), s = s₀.reach (cmdKey c) ∧ q = reqOf c r ∧ Started 0x0503 c r s ∧ s.dev.lookup
    q.part (q.w 2) = .ok e ∧ q.clean [(2, top32)] = true ∧ s.dev.req e.request = none) ∧
    (∃ (s₀ s : State) (c : Cmd) (r : CmdRec) (q : Req) (e : Ses) (t : Request) (g : GramSt), s = s₀.reach (cmdKey c) ∧ q = reqOf c r ∧ Started 0x0503
    c r s ∧ s.dev.lookup q.part (q.w 2) = .ok e ∧ q.clean [(2, top32)] = true ∧ s.dev.req e.request = some t ∧ t.gram = some g) ∧
    (∃ (s₀ s : State) (c : Cmd) (r : CmdRec) (q : Req) (k off : Nat) (sl : TokSlot) (text : List Byte) (bad : Bool), s = s₀.reach (cmdKey c) ∧ q =
    reqOf c r ∧ s.dev.tokSlot q.part (q.f 2 15 0) = some (k, sl) ∧ off = bufOff (q.w 3).toNat (q.f 4 7 0) ∧ Started 0x0504 c r s ∧ q.clean [(2,
    0x1FFFF), (3, top32), (4, 0xFF), (5, top32), (6, top32), (7, 0xFF), (8, top32)] = true ∧ (q.w 5).toNat ≠ 0 ∧ s.dev.bufSealed q.part off (q.w
    5).toNat = false ∧ s.dev.bufRead q.part off (q.w 5).toNat = some (text, bad)) ∧
    (∃ (s₀ s : State) (c : Cmd) (r : CmdRec) (q : Req) (k off : Nat) (sl : TokSlot) (text : List Byte) (bad : Bool), s = s₀.reach (cmdKey c) ∧ q =
    reqOf c r ∧ s.dev.tokSlot q.part (q.f 2 15 0) = some (k, sl) ∧ off = bufOff (q.w 3).toNat (q.f 4 7 0) ∧ Started 0x0505 c r s ∧ q.clean [(2,
    0xFFFF), (3, top32), (4, 0xFF), (5, top32), (6, top32), (7, 0xFF), (8, top32)] = true ∧ (q.w 5).toNat ≠ 0 ∧ (q.w 5).toNat ≤ tokCap ∧
    s.dev.bufSealed q.part off (4 * (q.w 5).toNat) = false ∧ s.dev.bufRead q.part off (4 * (q.w 5).toNat) = some (text, bad)) ∧
    (∃ (s : State) (die l : Nat) (tr : TxtReq) (d : Dev) (s₀ : State), s.clock.power = true ∧ die < 2 ∧ s.dev.freeLane die = some l ∧ s.dev.nextText
    die = some tr ∧ s.dev.reach s.ctx .spelt (9, tr.id) (s.dev.runAddrs tr.part tr.off tr.text.length) = (.go, d) ∧ s = s₀.follow) ∧
    (∃ (s : State) (die l : Nat) (tr : TxtReq) (d : Dev) (s₀ : State), s.clock.power = true ∧ die < 2 ∧ s.dev.freeLane die = some l ∧ s.dev.nextText
    die = some tr ∧ s.dev.reach s.ctx .spelt (9, tr.id) (s.dev.runAddrs tr.part tr.off tr.text.length) = (.busy, d) ∧ s = s₀.follow) ∧
    (∃ (s : State) (die lane : Nat) (tr : TxtReq) (d : Dev) (n : Nat) (s₀ : State), s.clock.power = true ∧ s.dev.txt.reqs.find? (fun t => t.die ==
    die && t.lane == some lane) = some tr ∧ d = (({ s.dev with txt := { s.dev.txt with reqs := s.dev.txt.reqs.filter fun t => t.id != tr.id } } :
    Dev).drainEnd (drainId 24 tr.id)).tapAdd tr.part 7 tr.text.length ∧ tr.src = .slot n ∧ s = s₀.reach (evKey 5 0 (source 8 die))) ∧
    (∃ (s : State) (die lane : Nat) (tr : TxtReq) (d : Dev) (op : Nat) (s₀ : State), s.clock.power = true ∧ s.dev.txt.reqs.find? (fun t => t.die ==
    die && t.lane == some lane) = some tr ∧ d = (({ s.dev with txt := { s.dev.txt with reqs := s.dev.txt.reqs.filter fun t => t.id != tr.id } } :
    Dev).drainEnd (drainId 24 tr.id)).tapAdd tr.part 7 tr.text.length ∧ tr.src = .submit op ∧ s = s₀.reach (evKey 5 0 (source 8 die))) ∧
    (∃ (s : State) (die lane : Nat) (tr : TxtReq) (d : Dev) (op : Nat) (s₀ : State), s.clock.power = true ∧ s.dev.txt.reqs.find? (fun t => t.die ==
    die && t.lane == some lane) = some tr ∧ d = (({ s.dev with txt := { s.dev.txt with reqs := s.dev.txt.reqs.filter fun t => t.id != tr.id } } :
    Dev).drainEnd (drainId 24 tr.id)).tapAdd tr.part 7 tr.text.length ∧ tr.src = .tokenize op ∧ s = s₀.reach (evKey 5 0 (source 8 die))) ∧
    (∃ (s : State) (die lane : Nat) (tr : TxtReq) (d : Dev) (op : Nat) (s₀ : State), s.clock.power = true ∧ s.dev.txt.reqs.find? (fun t => t.die ==
    die && t.lane == some lane) = some tr ∧ d = (({ s.dev with txt := { s.dev.txt with reqs := s.dev.txt.reqs.filter fun t => t.id != tr.id } } :
    Dev).drainEnd (drainId 24 tr.id)).tapAdd tr.part 7 tr.text.length ∧ tr.src = .detok op ∧ s = s₀.reach (evKey 5 0 (source 8 die))) :=
  ⟨⟨(sc 0x0401 [h0, 0xE00000, 0, 1, 0, 0]
     { dmap false with ses := ⟨[(0, se .opened)], [], []⟩, txt := ⟨[(0, { TxtSet.reset with mmap := [(1, 0)] })], [], [], 0, []⟩, regs := ⟨[], [(partKey 0 0x080000, 1)], [], []⟩ }),
     _, (rq 0x0401 [h0, 0xE00000, 0, 1, 0, 0]), (rc 0x0401 [h0, 0xE00000, 0, 1, 0, 0]), _, (se .opened), _, _, _, _, _, _, _, _, rfl, rfl,
     by unfold Started; decide +kernel, (by decide +kernel), by decide +kernel, (by decide +kernel), by decide +kernel, (by decide +kernel),
     by decide +kernel, (by decide +kernel), rfl, (by decide +kernel), some_get2 (by decide +kernel), some_get1 (by decide +kernel), rfl, rfl, rfl,
     rfl⟩,
   ⟨(sc 0x0500 [0, 0, 0, 0x703, 0] (dv)), _, (rq 0x0500 [0, 0, 0, 0x703, 0]), (rc 0x0500 [0, 0, 0, 0x703, 0]), _, rfl, rfl,
     by unfold Started; decide +kernel⟩,
   ⟨(sc 0x0501 [0xFFF, 0x107] (dv)), _, (rq 0x0501 [0xFFF, 0x107]), (rc 0x0501 [0xFFF, 0x107]), _, rfl, rfl, by unfold Started; decide +kernel⟩,
   ⟨(sc 0x0502 [0x1070F, 0] (dv)), _, (rq 0x0502 [0x1070F, 0]), (rc 0x0502 [0x1070F, 0]), _, rfl, rfl, by unfold Started; decide +kernel⟩,
   ⟨(sc 0x0502 [0x70F, 5]
     ({ dv with mem := { MemState.reset with shares := [(5, (⟨0, [.nand 1], 72, true, 1, false, 0, 0, 0, 0, 0, 0, 0, [], [], false, []⟩ : Share))] }, nand := { NandState.reset with units := [(1, ⟨0, 1, 1, 0, 0, 0, 0, [0x47, 0x4D, 0x52, 0x31, 1] ++ List.replicate 67 0⟩)] } })),
     _, (rq 0x0502 [0x70F, 5]), (rc 0x0502 [0x70F, 5]), _, (⟨0, [.nand 1], 72, true, 1, false, 0, 0, 0, 0, 0, 0, 0, [], [], false, []⟩ : Share), rfl,
     rfl, by unfold Started; decide +kernel⟩,
   ⟨(sc 0x0503 [h0] (dses (se .opened))), _, (rq 0x0503 [h0]), (rc 0x0503 [h0]), _, (se .opened), rfl, rfl, by unfold Started; decide +kernel⟩,
   ⟨(sc 0x0503 [h0] (withReq { rqst with gram := some ⟨5, 0, [], false⟩ } (dses { se .running with request := 5 }))), _, (rq 0x0503 [h0]), (rc
     0x0503 [h0]), _, ({ se .running with request := 5 }), ({ rqst with gram := some ⟨5, 0, [], false⟩ }), ⟨5, 0, [], false⟩, rfl, rfl,
     by unfold Started; decide +kernel⟩,
   ⟨(sc 0x0504 [1, 0xE00000, 0, 1, 0, 0, 0]
     ({ dmap false with txt := ⟨[(0, { TxtSet.reset with mmap := [(1, 0)] })], [], [], 0, []⟩, regs := ⟨[], [(partKey 0 0x080000, 1)], [], []⟩ })),
     _, (rq 0x0504 [1, 0xE00000, 0, 1, 0, 0, 0]), (rc 0x0504 [1, 0xE00000, 0, 1, 0, 0, 0]), _, _, _, _, _, _, rfl, rfl, some_get2
     (by decide +kernel), rfl, by unfold Started; decide +kernel, (by decide +kernel), by decide +kernel, (by decide +kernel), some_get2
     (by decide +kernel)⟩,
   ⟨(sc 0x0505 [1, 0xE00000, 0, 1, 0, 0, 0]
     ({ dmap false with txt := ⟨[(0, { TxtSet.reset with mmap := [(1, 0)] })], [], [], 0, []⟩, regs := ⟨[], [(partKey 0 0x080000, 1)], [], []⟩ })),
     _, (rq 0x0505 [1, 0xE00000, 0, 1, 0, 0, 0]), (rc 0x0505 [1, 0xE00000, 0, 1, 0, 0, 0]), _, _, _, _, _, _, rfl, rfl, some_get2
     (by decide +kernel), rfl, by unfold Started; decide +kernel, (by decide +kernel), by decide +kernel, (by decide +kernel), by decide +kernel,
     some_get2 (by decide +kernel)⟩,
   ⟨_, 1, _, (txr (.slot 7) none), _, (st { dv with txt := ⟨[], [], [txr (.slot 7) none], 2, []⟩ }), by decide +kernel, (by decide +kernel),
     some_get1 (by decide +kernel), (by decide +kernel), fst_get (by decide +kernel), rfl⟩,
   ⟨_, 1, _, ({ txr (.slot 7) none with off := 0x1F0000 }), _, (st
     { dgl { gu with refused := [(9, 1)] } with mem := { MemState.reset with bufs := [(bufKey 0 0, ⟨hbmBase + 15 * stackBytes, [], false, 0, 0, []⟩)] }, txt := ⟨[], [], [{ txr (.slot 7) none with off := 0x1F0000 }], 2, []⟩ }),
     by decide +kernel, (by decide +kernel), some_get1 (by decide +kernel), (by decide +kernel), fst_get (by decide +kernel), rfl⟩,
   ⟨_, 1, 3, (txr (.slot 7) (some 3)), _, 7, (st { dv with txt := ⟨[], [], [txr (.slot 7) (some 3)], 2, []⟩ }), by decide +kernel,
     (by decide +kernel), rfl, (by decide +kernel), rfl⟩,
   ⟨_, 1, 3, (txr (.submit 9) (some 3)), _, 9, (st { dv with txt := ⟨[], [], [txr (.submit 9) (some 3)], 2, []⟩ }), by decide +kernel,
     (by decide +kernel), rfl, (by decide +kernel), rfl⟩,
   ⟨_, 1, 3, (txr (.tokenize 9) (some 3)), _, 9, (st { dv with txt := ⟨[], [], [txr (.tokenize 9) (some 3)], 2, []⟩ }), by decide +kernel,
     (by decide +kernel), rfl, (by decide +kernel), rfl⟩,
   ⟨_, 1, 3, (txr (.detok 9) (some 3)), _, 9, (st { dv with txt := ⟨[], [], [txr (.detok 9) (some 3)], 2, []⟩ }), by decide +kernel,
     (by decide +kernel), rfl, (by decide +kernel), rfl⟩⟩

/-- A state and operands that meet the hypotheses of each clause of NetworkCommandsComplete. -/
theorem wit_networkCommandsComplete :
    (∃ (s₀ s : State) (c : Cmd) (r : CmdRec) (q : Req) (g : Gid) (d : Dev), s = s₀.reach (cmdKey c) ∧ q = reqOf c r ∧ Started 0x0600 c r s ∧ q.clean
    [(2, 0x71F0F0F), (3, 0x1FF), (4, 0x1FF), (5, 0x1F)] = true ∧ 3 ≤ q.f 2 26 24 ∧ q.f 2 26 24 ≤ 5 ∧ 1 ≤ q.f 5 4 0 ∧ q.f 5 4 0 ≤ 16 ∧ ((bitAt (q.w
    2).toNat 17 = true → bitAt (q.w 2).toNat 16 = true)) ∧ ((bitAt (q.w 2).toNat 19 = true → bitAt (q.w 2).toNat 16 = true)) ∧ bitAt (q.w 3).toNat
    8 = false ∧ bitAt (q.w 4).toNat 8 = false ∧ s.dev.subUp (q.f 2 3 0) = true ∧ tget s.dev.net.gids (q.f 2 3 0 * 16 + q.f 2 11 8) = some g ∧
    g.valid = true ∧ g.owner = q.part ∧ (s.dev.net.qps.filter fun e => e.2.part == q.part).length < fld (s.dev.devReg (0x090200 + q.part * 0x10)) 20
    0 ∧ bitAt (q.w 2).toNat 20 = false ∧ s.dev.makePlace (q.f 2 3 0 / 8) = some d) ∧
    (∃ (s₀ s : State) (c : Cmd) (r : CmdRec) (q : Req) (t : Qp), s = s₀.reach (cmdKey c) ∧ q = reqOf c r ∧ s.dev.ownQp q.part (q.w 2).toNat = some
    t ∧ Started 0x0601 c r s ∧ q.clean [(2, 0xFFFFF), (3, 0xFFFFFF), (4, top32), (5, top32), (6, top32), (7, top32), (8, top32), (9, 0xFFFF), (10,
    0xFFFFFF), (11, 0xFFFFFF), (12, 0x3F771F), (13, 0xFFFF)] = true ∧ ((t.enc = true → thas s.dev.sec.conn (q.part * 65536 + q.f 13 15 0) = true)) ∧
    t.st = 0) ∧
    (∃ (s₀ s : State) (c : Cmd) (r : CmdRec) (q : Req) (t : Qp), s = s₀.reach (cmdKey c) ∧ q = reqOf c r ∧ s.dev.ownQp q.part (q.w 2).toNat = some
    t ∧ Started 0x0602 c r s ∧ q.clean [(2, 0xFFFFF)] = true) ∧
    (∃ (s₀ s : State) (c : Cmd) (r : CmdRec) (q : Req) (t : Qp), s = s₀.reach (cmdKey c) ∧ q = reqOf c r ∧ s.dev.ownQp q.part (q.w 2).toNat = some
    t ∧ Started 0x0603 c r s ∧ q.clean [(2, 0xFFFFF)] = true) ∧
    (∃ (s₀ s : State) (c : Cmd) (r : CmdRec) (q : Req) (off i : Nat), s = s₀.reach (cmdKey c) ∧ q = reqOf c r ∧ off = bufOff (q.w 2).toNat (q.f 3 7
    0) ∧ 4 ≤ q.f 4 4 0 ∧ q.f 4 4 0 ≤ 16 ∧ Started 0x0608 c r s ∧ q.clean [(2, top32), (3, 0xFF), (4, 0x1F), (5, 0x1FF)] = true ∧ bitAt (q.w 5).toNat
    8 = false ∧ (s.dev.bufRun q.part true (runFuel (64 + 16 * 2 ^ q.f 4 4 0)) off (64 + 16 * 2 ^ q.f 4 4 0)).isSome = true ∧ freeNum s.dev.net.srqs
    q.part = some i) ∧
    (∃ (s₀ s : State) (c : Cmd) (r : CmdRec) (q : Req) (off i : Nat), s = s₀.reach (cmdKey c) ∧ q = reqOf c r ∧ off = bufOff (q.w 2).toNat (q.f 3 7
    0) ∧ 4 ≤ q.f 4 4 0 ∧ q.f 4 4 0 ≤ 16 ∧ Started 0x060A c r s ∧ q.clean [(2, top32), (3, 0xFF), (4, 0x11F)] = true ∧ (s.dev.bufRun q.part true
    (runFuel (64 + 32 * 2 ^ q.f 4 4 0)) off (64 + 32 * 2 ^ q.f 4 4 0)).isSome = true ∧ freeNum s.dev.net.cqs q.part = some i) ∧
    (∃ (s₀ s : State) (c : Cmd) (r : CmdRec) (q : Req), s = s₀.reach (cmdKey c) ∧ q = reqOf c r ∧ Started 0x0609 c r s ∧ q.clean [(2, 0xFF)] = true ∧
    thas s.dev.net.srqs (q.part * 256 + q.f 2 7 0) = true ∧ ((∀ e ∈ s.dev.net.qps, e.2.part = q.part → e.2.srq ≠ some (q.f 2 7 0)))) ∧
    (∃ (s₀ s : State) (c : Cmd) (r : CmdRec) (q : Req), s = s₀.reach (cmdKey c) ∧ q = reqOf c r ∧ Started 0x060B c r s ∧ q.clean [(2, 0xFF)] = true ∧
    thas s.dev.net.cqs (q.part * 256 + q.f 2 7 0) = true ∧ ((∀ e ∈ s.dev.net.qps, e.2.part = q.part → s.dev.msgCq e.2 ≠ some (q.f 2 7 0)))) ∧
    (∃ (s₀ s : State) (c : Cmd) (r : CmdRec) (q : Req) (t : Qp) (k off len : Nat) (w : Word), s = s₀.reach (cmdKey c) ∧ q = reqOf c r ∧ Started
    0x0610 c r s ∧ s.dev.ownQp q.part (q.f 2 19 0) = some t ∧ q.clean [(2, 0xFFFFF), (3, 0x707), (4, top32), (5, 0xFF), (6, top32), (7, top32), (8,
    top32), (9, top32), (10, top32), (11, 0xFFFFF), (12, top32), (13, 0xFFFFF), (14, top32)] = true ∧ k = q.f 3 2 0 ∧ k ≤ 4 ∧ off = bufOff (q.w
    4).toNat (q.f 5 7 0) ∧ len = (q.w 6).toNat ∧ ((t.ext = true → len ≤ 1024 * t.mtu)) ∧ len ≤ 2 ^ 31 ∧ (s.dev.bufRun q.part (k == 4) (runFuel len)
    off len).isSome = true ∧ bitAt (q.w 3).toNat 8 = false ∧ bitAt (q.w 3).toNat 9 = false ∧ bitAt (q.w 3).toNat 10 = false ∧ t.st = 1 ∧
    t.sends.length < 4096 ∧ w = wd s.dev.takeFree.1 ∧ c.w 2 = q.w 2) ∧
    (∃ (s₀ s : State) (c : Cmd) (r : CmdRec) (q : Req) (t : Qp) (off len : Nat) (d : Dev), s = s₀.reach (cmdKey c) ∧ q = reqOf c r ∧ s.dev.ownQp
    q.part (q.f 2 19 0) = some t ∧ off = bufOff (q.w 4).toNat (q.f 5 7 0) ∧ len = (q.w 6).toNat ∧ Started 0x0618 c r s ∧ q.clean [(2, 0xFFFFF), (3,
    top32), (4, top32), (5, 0xFF), (6, top32), (7, top32), (8, 7)] = true ∧ t.event = true ∧ (q.w 3).toNat ≠ 0 ∧ 1 ≤ len ∧ len ≤ 4194304 ∧ off + len
    ≤ 2 ^ 39 ∧ (s.dev.bufRun q.part true (runFuel len) off len).isSome = true ∧ t.st ≠ 2 ∧ q.w 7 = 0 ∧ s.dev.ewrPost q.part (q.f 2 19 0) (q.w
    3).toNat off len false none = .ok d) ∧
    (∃ (s₀ s : State) (c : Cmd) (r : CmdRec) (q : Req) (t : Qp), s = s₀.reach (cmdKey c) ∧ q = reqOf c r ∧ s.dev.ownQp q.part (q.f 2 19 0) = some t ∧
    Started 0x0619 c r s ∧ q.clean [(2, 0xFFFFF), (3, top32)] = true) ∧
    (∃ (s₀ s : State) (c : Cmd) (r : CmdRec) (q : Req), s = s₀.reach (cmdKey c) ∧ q = reqOf c r ∧ Started 0x0620 c r s ∧ q.clean [(2, 0x710F0F0F),
    (3, 0xFFF), (4, top32), (5, top32), (6, top32), (7, top32)] = true ∧ ((∀ e ∈ s.dev.net.qps, e.2.sub ≠ q.f 2 3 0 ∨ e.2.gid ≠ q.f 2 11 8))) ∧
    (∃ (s₀ s : State) (c : Cmd) (r : CmdRec) (q : Req), s = s₀.reach (cmdKey c) ∧ q = reqOf c r ∧ Started 0x0621 c r s ∧ q.clean [(2, top32), (3,
    top32)] = true ∧ q.d2 2 % 4096 = 0) ∧
    (∃ (s₀ s : State) (c : Cmd) (r : CmdRec) (q : Req), s = s₀.reach (cmdKey c) ∧ q = reqOf c r ∧ Started 0x0622 c r s ∧ q.clean [(2, 0xF)] = true) :=
  ⟨⟨(sc 0x0600 [0x05000F00, 0, 0, 16]
     ({ dv with net := { NetState.reset with gids := [(15, (⟨7, 0, 0, 0, true⟩ : Gid))] }, regs := ⟨[], [(devKey 0x090100, 0x100), (devKey 0x090200, 1)], [], []⟩ })),
     _, (rq 0x0600 [0x05000F00, 0, 0, 16]), (rc 0x0600 [0x05000F00, 0, 0, 16]), _, (⟨7, 0, 0, 0, true⟩ : Gid), _, rfl, rfl,
     by unfold Started; decide +kernel, (by decide +kernel), by decide +kernel, (by decide +kernel), by decide +kernel, (by decide +kernel),
     by decide +kernel, (by decide +kernel), by decide +kernel, (by decide +kernel), by decide +kernel, (by decide +kernel), by decide +kernel,
     (by decide +kernel), by decide +kernel, (by decide +kernel), some_get1 (by decide +kernel)⟩,
   ⟨(sc 0x0601 [3, 5, 0, 0, 0, 0, 0, 0, 0, 0, 0, 0] (withQp { qp0 with st := 0, enc := false } dv)), _, (rq 0x0601 [3, 5, 0, 0, 0, 0, 0, 0, 0, 0,
     0, 0]), (rc 0x0601 [3, 5, 0, 0, 0, 0, 0, 0, 0, 0, 0, 0]), _, ({ qp0 with st := 0, enc := false }), rfl, rfl, by unfold Started; decide +kernel⟩,
   ⟨(sc 0x0602 [3] (withQp qp0 dv)), _, (rq 0x0602 [3]), (rc 0x0602 [3]), _, qp0, rfl, rfl, by unfold Started; decide +kernel⟩,
   ⟨(sc 0x0603 [3] (withQp qp0 dv)), _, (rq 0x0603 [3]), (rc 0x0603 [3]), _, qp0, rfl, rfl, by unfold Started; decide +kernel⟩,
   ⟨(sc 0x0608 [0xE00000, 0, 16, 0] (dmap false)), _, (rq 0x0608 [0xE00000, 0, 16, 0]), (rc 0x0608 [0xE00000, 0, 16, 0]), _, _, _, rfl, rfl, rfl,
     (by decide +kernel), by decide +kernel, (by unfold Started; decide +kernel), by decide +kernel, (by decide +kernel), by decide +kernel,
     some_get1 (by decide +kernel)⟩,
   ⟨(sc 0x060A [0xE00000, 0, 4] (dmap false)), _, (rq 0x060A [0xE00000, 0, 4]), (rc 0x060A [0xE00000, 0, 4]), _, _, _, rfl, rfl, rfl,
     (by decide +kernel), by decide +kernel, (by unfold Started; decide +kernel), by decide +kernel, (by decide +kernel), some_get1
     (by decide +kernel)⟩,
   ⟨(sc 0x0609 [255] ({ dv with net := { NetState.reset with srqs := [(255, ⟨0, 0xE00000, 4, none, 0⟩)] } })), _, (rq 0x0609 [255]), (rc 0x0609
     [255]), _, rfl, rfl, by unfold Started; decide +kernel⟩,
   ⟨(sc 0x060B [255] ({ dv with net := { NetState.reset with cqs := [(255, ⟨0, 0xE00000, 4, false, 0, 0, none⟩)] } })), _, (rq 0x060B [255]), (rc
     0x060B [255]), _, rfl, rfl, by unfold Started; decide +kernel⟩,
   ⟨(sc 0x0610 [3, 4, 0xE00000, 0, 4096, 0, 0, 0, 0, 0, 0, 0, 0] (withQp qp0 (dmap false))), _, (rq 0x0610 [3, 4, 0xE00000, 0, 4096, 0, 0, 0, 0, 0,
     0, 0, 0]), (rc 0x0610 [3, 4, 0xE00000, 0, 4096, 0, 0, 0, 0, 0, 0, 0, 0]), _, qp0, _, _, _, _, rfl, rfl, by unfold Started; decide +kernel,
     (by decide +kernel), by decide +kernel, rfl, by decide +kernel, rfl, rfl, (by decide +kernel), by decide +kernel, (by decide +kernel),
     by decide +kernel, (by decide +kernel), by decide +kernel, (by decide +kernel), by decide +kernel, rfl, by decide +kernel⟩,
   ⟨(sc 0x0618 [3, 0xFFFFFFFF, 0xE00000, 0, 0x200000, 0, 0] (withQp qp0 (dmap false))), _, (rq 0x0618 [3, 0xFFFFFFFF, 0xE00000, 0, 0x200000, 0,
     0]), (rc 0x0618 [3, 0xFFFFFFFF, 0xE00000, 0, 0x200000, 0, 0]), _, qp0, _, _, _, rfl, rfl, by decide +kernel, rfl, rfl,
     (by unfold Started; decide +kernel), by decide +kernel, (by decide +kernel), by decide +kernel, (by decide +kernel), by decide +kernel,
     (by decide +kernel), by decide +kernel, (by decide +kernel), by decide +kernel, ok_get (by decide +kernel)⟩,
   ⟨(sc 0x0619 [3, 1] (withQp qp0 dv)), _, (rq 0x0619 [3, 1]), (rc 0x0619 [3, 1]), _, qp0, rfl, rfl, by unfold Started; decide +kernel⟩,
   ⟨(sc 0x0620 [0, 0, 0, 0, 0, 0] (dv)), _, (rq 0x0620 [0, 0, 0, 0, 0, 0]), (rc 0x0620 [0, 0, 0, 0, 0, 0]), _, rfl, rfl,
     by unfold Started; decide +kernel⟩,
   ⟨(sc 0x0621 [0x1000, 0] (dv)), _, (rq 0x0621 [0x1000, 0]), (rc 0x0621 [0x1000, 0]), _, rfl, rfl, by unfold Started; decide +kernel⟩,
   ⟨(sc 0x0622 [15] (dv)), _, (rq 0x0622 [15]), (rc 0x0622 [15]), _, rfl, rfl, by unfold Started; decide +kernel⟩⟩

/-- A state and operands that meet the hypotheses of each clause of NetworkEventsTakeEffect. -/
theorem wit_networkEventsTakeEffect :
    (∃ (s : State) (f : Frame) (s₀ : State), s.clock.power = true ∧ f.sub < 16 ∧ frameOk f = true ∧ s = s₀.reach (netKey f.sub)) ∧
    (∃ (s : State) (f : Frame) (s₀ : State), s.clock.power = true ∧ f.sub < 16 ∧ frameOk f = false ∧ s = s₀.reach (netKey f.sub)) ∧
    (∃ (s : State) (sub prio : Nat) (s₀ : State), s.clock.power = true ∧ sub < 16 ∧ prio < 8 ∧ bitAt (fld (s.dev.devReg (0x090100 + sub / 4 * 4)) 23
    16) prio = true ∧ s = s₀.reach (netKey sub)) ∧
    (∃ (s : State) (sub t : Nat) (s₀ : State), s.clock.power = true ∧ ((∃ g ∈ s.dev.net.gids, g.1 / 16 = sub ∧ g.2.valid = true ∧ g.2.addr = t)) ∧
    s = s₀.reach (netKey sub)) ∧
    (∃ (s : State) (sub : Nat) (s₀ : State), s.clock.power = true ∧ sub < 16 ∧ bitAt s.dev.net.links sub = true ∧ s = s₀.reach (netKey sub)) ∧
    (∃ (s : State) (sub : Nat) (s₀ : State), s.clock.power = true ∧ sub < 16 ∧ bitAt s.dev.net.links sub = false ∧ s = s₀.reach (netKey sub)) ∧
    (∃ (s : State) (p : Packet) (q : Qp) (g : Gid) (s₀ : State), s.clock.power = true ∧ s.dev.qp p.qpn = some q ∧ s.dev.gidOf q = some g ∧ q.sub =
    p.sub ∧ g.valid = true ∧ g.addr = p.dst ∧ g.vlan = p.vlan ∧ g.owner = q.part ∧ p.icrcOk = true ∧ p.pkey = 0xFFFF ∧ p.dport = (if p.mp.isSome =
    true then s.dev.mpPort else rocePort) ∧ q.st = 1 ∧ q.place = .chip ∧ p.mp.isSome = true ∧ p.bth = .sendOnly ∧ s = s₀.reach (netKey p.sub)) ∧
    (∃ (s : State) (p : Packet) (q : Qp) (g : Gid) (s₀ : State), s.clock.power = true ∧ s.dev.qp p.qpn = some q ∧ s.dev.gidOf q = some g ∧ q.sub =
    p.sub ∧ g.valid = true ∧ g.addr = p.dst ∧ g.vlan = p.vlan ∧ g.owner = q.part ∧ p.icrcOk = true ∧ p.pkey = 0xFFFF ∧ p.dport = (if p.mp.isSome =
    true then s.dev.mpPort else rocePort) ∧ q.st = 1 ∧ q.place = .chip ∧ p.mp = none ∧ p.bth = .sendOnly ∧ s = s₀.reach (netKey p.sub)) ∧
    (∃ (s : State) (p : Packet) (q : Qp) (g : Gid) (s₀ : State), s.clock.power = true ∧ s.dev.qp p.qpn = some q ∧ s.dev.gidOf q = some g ∧ q.sub =
    p.sub ∧ g.valid = true ∧ g.addr = p.dst ∧ g.vlan = p.vlan ∧ g.owner = q.part ∧ p.icrcOk = true ∧ p.pkey = 0xFFFF ∧ p.dport = (if p.mp.isSome =
    true then s.dev.mpPort else rocePort) ∧ q.st = 1 ∧ q.place = .chip ∧ p.bth = .readReq ∧ s = s₀.reach (netKey p.sub)) ∧
    (∃ (s : State) (p : Packet) (q : Qp) (g : Gid) (s₀ : State), s.clock.power = true ∧ s.dev.qp p.qpn = some q ∧ s.dev.gidOf q = some g ∧ q.sub =
    p.sub ∧ g.valid = true ∧ g.addr = p.dst ∧ g.vlan = p.vlan ∧ g.owner = q.part ∧ p.icrcOk = true ∧ p.pkey = 0xFFFF ∧ p.dport = (if p.mp.isSome =
    true then s.dev.mpPort else rocePort) ∧ q.st = 1 ∧ q.place = .chip ∧ p.bth = .ack ∧ s = s₀.reach (netKey p.sub)) ∧
    (∃ (s : State) (n : Nat) (q : Qp) (msn : Nat) (m : Reasm) (d : Dev) (s₀ : State), s.clock.power = true ∧ s.dev.qp n = some q ∧ tget q.reasm msn =
    some m ∧ m.whole = true ∧ q.ext = true ∧ m.ewr = none ∧ d = ((s.dev.setQp n { q with reasm := tdel q.reasm msn }).unpinMsg q m).answer n msn
    .ok ∧ s = s₀.follow) ∧
    (∃ (s : State) (n : Nat) (q : Qp) (msn : Nat) (w : Send) (s₀ : State), s.clock.power = true ∧ s.dev.qp n = some q ∧ q.sends.find? (fun w =>
    w.started && w.msn == msn) = some w ∧ q.ext = true ∧ w.onWire = true ∧ w.rnrUntil = none ∧ w.sentAt + q.rto ≤ s.clock.now ∧ q.st = 1 ∧ s =
    s₀.reach (evKey 8 0 (source 9 0))) ∧
    (∃ (s : State) (n : Nat) (q : Qp) (msn : Nat) (w : Send) (t0 : Nat) (s₀ : State), s.clock.power = true ∧ s.dev.qp n = some q ∧ q.sends.find? (fun
    w => w.started && w.msn == msn) = some w ∧ q.ext = true ∧ w.rnrUntil = some t0 ∧ t0 ≤ s.clock.now ∧ s = s₀.reach (evKey 8 0 (source 9 0))) ∧
    (∃ (s : State) (n : Nat) (q : Qp) (pr : ShProf) (fl : ShFlow) (s₀ : State), s.clock.power = true ∧ s.dev.qp n = some q ∧ pr = s.dev.flowProf
    q.part (shDomain q.sub) (q.dscp / 8) ∧ fl = s.dev.shFlow q.sub q.part n (q.dscp / 8) ∧ q.st = 1 ∧ s = s₀.reach (netKey ((s₀.dev.qp n).elim 0
    Qp.sub))) ∧
    (∃ (s : State) (n : Nat) (q : Qp) (msn : Nat) (m : Reasm) (s₀ : State), s.clock.power = true ∧ s.dev.qp n = some q ∧ tget q.reasm msn = some m ∧
    m.whole = false ∧ m.last + 4 * q.rto ≤ s.clock.now ∧ m.srq = none ∧ m.ewr = none ∧ s = s₀.reach (evKey 8 0 (source 9 0))) ∧
    (∃ (s : State) (n : Nat) (q : Qp) (d e : Dev) (s₀ : State), s.clock.power = true ∧ s.dev.qp n = some q ∧ q.fetching = true ∧ (s.dev.modQp n fun q
    => { q with fetching := false }).makePlace q.die = some d ∧ e = ((q.held.mapIdx fun i p => (i, p)).foldl (fun d e => d.underOld 9 (drainId 9 (n *
    16 + e.1)) fun d => d.rxQp s.ctx n e.2) (d.setQp n
    { q with place := .chip, fetching := false, fetchAt := none, held := [], used := s.clock.now })).heldDrain n ∧ s = s₀.reach (evKey 5 0 (source 9
    0))) ∧
    (∃ (s : State) (n : Nat) (q : Qp) (t0 : Nat) (s₀ : State), s.clock.power = true ∧ s.dev.qp n = some q ∧ q.place ≠ .chip ∧ q.held ≠ [] ∧
    q.fetchAt = some t0 ∧ t0 + 2500 ≤ s.clock.now ∧ s = s₀.reach (evKey 8 0 (source 9 0))) :=
  ⟨⟨_, ⟨15, 64, 1, true, .pfc, false⟩, (st dv), by decide +kernel, (by decide +kernel), by decide +kernel, rfl⟩,
   ⟨_, ⟨15, 63, 1, true, .pfc, false⟩, (st dv), by decide +kernel, (by decide +kernel), by decide +kernel, rfl⟩,
   ⟨_, 15, 7, (st { dv with regs := ⟨[], [(devKey 0x09010C, 0x800000)], [], []⟩ }), by decide +kernel, (by decide +kernel), by decide +kernel,
     (by decide +kernel), rfl⟩,
   ⟨_, 0, 7, (st { dv with net := { NetState.reset with gids := [(15, (⟨7, 0, 0, 0, true⟩ : Gid))] } }), by decide +kernel, (by decide +kernel),
     rfl⟩,
   ⟨_, 15, (st { dv with net := { NetState.reset with links := 0x8000 } }), by decide +kernel, (by decide +kernel), by decide +kernel, rfl⟩,
   ⟨_, 15, (st dv), by decide +kernel, (by decide +kernel), by decide +kernel, rfl⟩,
   ⟨_, (⟨0, 7, 0, 3, 0xFFFF, .sendOnly, 0, some ⟨1, false, false, false, false, 0, 0, 0, 0, 0, 0, 0, 0⟩, none, none, [], true, true, false, none,
     none, 0, dv.mpPort⟩ : Packet), qp0, (⟨7, 0, 0, 0, true⟩ : Gid), (st
     { withQp qp0 dv with net := { (withQp qp0 dv).net with gids := [(0, (⟨7, 0, 0, 0, true⟩ : Gid))] } }), by decide +kernel, (by decide +kernel),
     by decide +kernel, (by decide +kernel), by decide +kernel, (by decide +kernel), by decide +kernel, (by decide +kernel), by decide +kernel,
     (by decide +kernel), by decide +kernel, (by decide +kernel), by decide +kernel, (by decide +kernel), by decide +kernel, rfl⟩,
   ⟨_, (⟨0, 7, 0, 3, 0xFFFF, .sendOnly, 0, none, none, none, [], true, true, false, none, none, 0, rocePort⟩ : Packet), qp0, (⟨7, 0, 0, 0, true⟩ :
     Gid), (st { withQp qp0 dv with net := { (withQp qp0 dv).net with gids := [(0, (⟨7, 0, 0, 0, true⟩ : Gid))] } }), by decide +kernel,
     (by decide +kernel), by decide +kernel, (by decide +kernel), by decide +kernel, (by decide +kernel), by decide +kernel, (by decide +kernel),
     by decide +kernel, (by decide +kernel), by decide +kernel, (by decide +kernel), by decide +kernel, (by decide +kernel), by decide +kernel, rfl⟩,
   ⟨_, (⟨0, 7, 0, 3, 0xFFFF, .readReq, 0, none, none, none, [], true, true, false, none, none, 0, rocePort⟩ : Packet), qp0, (⟨7, 0, 0, 0, true⟩ :
     Gid), (st { withQp qp0 dv with net := { (withQp qp0 dv).net with gids := [(0, (⟨7, 0, 0, 0, true⟩ : Gid))] } }), by decide +kernel,
     (by decide +kernel), by decide +kernel, (by decide +kernel), by decide +kernel, (by decide +kernel), by decide +kernel, (by decide +kernel),
     by decide +kernel, (by decide +kernel), by decide +kernel, (by decide +kernel), by decide +kernel, (by decide +kernel), rfl⟩,
   ⟨_, (⟨0, 7, 0, 3, 0xFFFF, .ack, 0, none, none, none, [], true, true, false, none, none, 0, rocePort⟩ : Packet), qp0, (⟨7, 0, 0, 0, true⟩ : Gid),
     (st { withQp qp0 dv with net := { (withQp qp0 dv).net with gids := [(0, (⟨7, 0, 0, 0, true⟩ : Gid))] } }), by decide +kernel,
     (by decide +kernel), by decide +kernel, (by decide +kernel), by decide +kernel, (by decide +kernel), by decide +kernel, (by decide +kernel),
     by decide +kernel, (by decide +kernel), by decide +kernel, (by decide +kernel), by decide +kernel, (by decide +kernel), rfl⟩,
   ⟨_, 3, ({ qp0 with reasm := [(5, (⟨64, 0, false, [], 64, none, none, none, none, false, 0, true, 0, false⟩ : Reasm))] }), 5, (⟨64, 0, false, [],
     64, none, none, none, none, false, 0, true, 0, false⟩ : Reasm), _, (st (withQp
     { qp0 with reasm := [(5, (⟨64, 0, false, [], 64, none, none, none, none, false, 0, true, 0, false⟩ : Reasm))] } dv)), by decide +kernel,
     (by decide +kernel), by decide +kernel, (by decide +kernel), by decide +kernel, (by decide +kernel), rfl, rfl⟩,
   ⟨_, 3,
     ({ qp0 with sends := [{ Send.new 9 1 0 64 none 0 0 0 none none with started := true, onWire := true, msn := 5, sentAt := 1241611392 }] }), 5,
     ({ Send.new 9 1 0 64 none 0 0 0 none none with started := true, onWire := true, msn := 5, sentAt := 1241611392 }), (st (withQp
     { qp0 with sends := [{ Send.new 9 1 0 64 none 0 0 0 none none with started := true, onWire := true, msn := 5, sentAt := 1241611392 }] } dv)),
     by decide +kernel, (by decide +kernel), by decide +kernel, (by decide +kernel), by decide +kernel, (by decide +kernel), by decide +kernel,
     (by decide +kernel), rfl⟩,
   ⟨_, 3,
     ({ qp0 with sends := [{ Send.new 9 1 0 64 none 0 0 0 none none with started := true, onWire := true, msn := 5, rnrUntil := some 1250000000 }] }),
     5, ({ Send.new 9 1 0 64 none 0 0 0 none none with started := true, onWire := true, msn := 5, rnrUntil := some 1250000000 }), 1250000000, (st
     (withQp
     { qp0 with sends := [{ Send.new 9 1 0 64 none 0 0 0 none none with started := true, onWire := true, msn := 5, rnrUntil := some 1250000000 }] }
     dv)), by decide +kernel, (by decide +kernel), by decide +kernel, (by decide +kernel), by decide +kernel, (by decide +kernel), rfl⟩,
   ⟨_, 3, qp0, _, _, (st (withQp qp0 dv)), by decide +kernel, (by decide +kernel), rfl, rfl, by decide +kernel, rfl⟩,
   ⟨_, 3, ({ qp0 with reasm := [(5, (⟨64, 0, false, [], 64, none, none, none, none, false, 1216445568, false, 0, false⟩ : Reasm))] }), 5, (⟨64, 0,
     false, [], 64, none, none, none, none, false, 1216445568, false, 0, false⟩ : Reasm), (st (withQp
     { qp0 with reasm := [(5, (⟨64, 0, false, [], 64, none, none, none, none, false, 1216445568, false, 0, false⟩ : Reasm))] } dv)),
     by decide +kernel, (by decide +kernel), by decide +kernel, (by decide +kernel), by decide +kernel, (by decide +kernel), by decide +kernel, rfl⟩,
   ⟨_, 3, ({ qp0 with fetching := true }), _, _, (st (withQp { qp0 with fetching := true } dv)), by decide +kernel, (by decide +kernel),
     by decide +kernel, some_get1 (by decide +kernel), rfl, rfl⟩,
   ⟨_, 3,
     ({ qp0 with place := .area 0, held := [(⟨0, 7, 0, 3, 0xFFFF, .sendOnly, 0, none, none, none, [], true, true, false, none, none, 0, rocePort⟩ : Packet)], fetchAt := some 1249997500 }),
     1249997500, (st (withQp
     { qp0 with place := .area 0, held := [(⟨0, 7, 0, 3, 0xFFFF, .sendOnly, 0, none, none, none, [], true, true, false, none, none, 0, rocePort⟩ : Packet)], fetchAt := some 1249997500 }
     dv)), by decide +kernel, (by decide +kernel), by decide +kernel, (by decide +kernel), by decide +kernel, (by decide +kernel), rfl⟩⟩

/-- A state and operands that meet the hypotheses of each clause of ShaperRowsTakeEffect. -/
theorem wit_shaperRowsTakeEffect :
    (∃ (s : State) (d : Dev) (s₀ : State), s.clock.power = true ∧ s.clock.now % 1024 = 0 ∧ s.dev.shp.lastRefill ≠ some s.clock.now ∧ d =
    s.dev.countHeld ((List.range 16).flatMap fun p => (List.range 3).map fun m => (p, m)) ∧ s = s₀.reach (evKey 8 0 (source 10 0))) ∧
    (∃ (s : State) (j t0 : Nat) (s₀ : State), s.clock.power = true ∧ j < 19 ∧ (s.dev.shNode j).until_ = some t0 ∧ t0 ≤ s.clock.now ∧ s = s₀.reach
    (evKey 8 0 (source 10 0))) ∧
    (∃ (s : State) (j p flow : Nat) (u : ShUnit) (ds : Tbl Nat) (f : ShFlow) (d : Dev), s.clock.power = true ∧ j < 19 ∧ s.dev.shNext j = some (p,
    flowBKey j p flow, u, ds) ∧ d = (List.range 16).foldl (fun d q => d.setShPart j q { d.shPart j q with deficit := tgetD ds q 0 }) s.dev ∧ tget
    d.shp.flows (flowBKey j p flow) = some f) :=
  ⟨⟨_, _, ({ st dv with clock := ⟨1024, 0, true, true, 0⟩ }), by decide +kernel, (by decide +kernel), by decide +kernel, rfl, rfl⟩,
   ⟨_, 18, 1250000000, (st { dv with shp := ⟨[(18, ⟨⟨1000000000, 1000, 1000, 64, 0⟩, true, some 1250000000, 0⟩)], [], [], true, none⟩ }),
     by decide +kernel, (by decide +kernel), by decide +kernel, (by decide +kernel), rfl⟩,
   ⟨(st
     { dv with shp := ⟨[(16, ⟨⟨1000000000, 1000, 1000, 64, 0⟩, false, none, 0⟩)], [(partBKey 16 0, ⟨⟨1000000000, 1000, 1000, 64, 0⟩, 64, 0⟩)], [(flowBKey 16 0 7, (⟨0, ⟨1000000000, 1000, 1000, 64, 0⟩, [⟨64, .nand 9 1⟩], none, 0⟩ : ShFlow))], true, none⟩ }),
     16, 0, 7, ⟨64, .nand 9 1⟩, ((List.range 16).map fun p => (p, if p = 0 then 64 else 0)), (⟨0, ⟨1000000000, 1000, 1000, 64, 0⟩, [⟨64, .nand 9 1⟩],
     none, 0⟩ : ShFlow), _, by decide +kernel, (by decide +kernel), by decide +kernel, rfl, by decide +kernel⟩⟩

/-- A state and operands that meet the hypotheses of each clause of IndexCommandsComplete. -/
theorem wit_indexCommandsComplete :
    (∃ (s₀ s : State) (c : Cmd) (r : CmdRec) (q : Req) (i : PanIndex) (h : Nat), s = s₀.reach (cmdKey c) ∧ q = reqOf c r ∧ Started 0x0700 c r s ∧
    q.clean [(2, 0x7FFFF), (3, top32), (4, 0x3FF1FFF), (5, 0x7FF007F), (6, top32), (7, 0x7FF)] = true ∧ i = ⟨q.part, (s.dev.buf q.part q.first).elim
    0 fun b => stackDie (stackOf b.base), q.first, (q.w 3).toNat, q.f 4 12 0, q.f 4 23 16, q.f 4 25 24, q.f 5 6 0, if q.f 5 26 16 = 0 then 128 else
    q.f 5 26 16, (q.w 6).toNat, if q.f 7 10 0 = 0 then 64 else q.f 7 10 0, 0xFFFFFFFF, 1, 0, 0, 0, none, [], none⟩ ∧ runOk q.first i.count = true ∧ 1
    ≤ i.dims ∧ i.dims ≤ 4096 ∧ i.fmt ∈ ([0x21, 0x20, 0x01, 0x02, 0x06, 0x05] : List Nat) ∧ ((i.fmt < 0x10 → i.dims % 32 = 0)) ∧ i.metric < 3 ∧ 4 ≤
    i.degree ∧ i.degree ≤ 64 ∧ 16 ≤ i.efBuild ∧ i.efBuild ≤ 1024 ∧ i.ef ≤ 1024 ∧ 0 < i.cap ∧ i.cap ≤ 1073741824 ∧ i.bytes ≤ i.count * 2097152 ∧ ((∀ e
    ∈ runExts q.first i.count, s.dev.allMapped q.part [e] = true ∧ s.dev.extIndexed q.part e = false ∧ (s.dev.extGrans q.part e).length = 64 ∧ ∀ g ∈
    s.dev.extGrans q.part e, stackDie (stackOf (granAddr g)) = i.die ∧ s.dev.computeAt (granAddr g) = false)) ∧ s.dev.allMapped q.part (runExts
    q.first i.count) = true ∧ s.dev.anyFrozen q.part (runExts q.first i.count) = false ∧ (s.dev.pan.idx.filter fun j => j.2.part == q.part).length <
    64 ∧ s.dev.pan.idx.length < 256 ∧ nsum ((s.dev.pan.idx.filter fun j => j.2.part == q.part).map fun j => j.2.cap) + i.cap ≤ fld (s.dev.devReg
    (0x0B0100 + q.part * 4)) 30 0 ∧ (List.range 65535).find? (fun h => !thas s.dev.pan.idx (h + 1)) = some h) ∧
    (∃ (s₀ s : State) (c : Cmd) (r : CmdRec) (q : Req) (h : Nat) (i : PanIndex), s = s₀.reach (cmdKey c) ∧ q = reqOf c r ∧ s.dev.ownIdx q = some (h,
    i) ∧ Started 0x0701 c r s ∧ q.clean [(2, 0xFFFF)] = true) ∧
    (∃ (s₀ s : State) (c : Cmd) (r : CmdRec) (q : Req) (h : Nat) (i : PanIndex) (n len : Nat), s = s₀.reach (cmdKey c) ∧ q = reqOf c r ∧ s.dev.ownIdx
    q = some (h, i) ∧ n = q.f 5 16 0 ∧ 0 < n ∧ n ≤ 65536 ∧ len = n * (16 + 4 * i.dims) ∧ Started 0x0702 c r s ∧ q.clean [(2, 0xFFFF), (3, top32), (4,
    0xFF), (5, 0x1FFFF), (6, top32), (7, 0xFF)] = true ∧ s.dev.bufSealed q.part (q.boff 3) len = false ∧ (s.dev.bufRead q.part (q.boff 3)
    len).isSome = true ∧ (s.dev.bufRun q.part true (runFuel (4 * n)) (q.boff 6) (4 * n)).isSome = true) ∧
    (∃ (s₀ s : State) (c : Cmd) (r : CmdRec) (q : Req) (h : Nat) (i : PanIndex) (n len : Nat), s = s₀.reach (cmdKey c) ∧ q = reqOf c r ∧ s.dev.ownIdx
    q = some (h, i) ∧ n = q.f 5 16 0 ∧ 0 < n ∧ n ≤ 65536 ∧ len = n * (16 + 4 * i.dims) ∧ Started 0x0703 c r s ∧ q.clean [(2, 0xFFFF), (3, top32), (4,
    0xFF), (5, 0x1FFFF)] = true ∧ s.dev.bufSealed q.part (q.boff 3) (4 * n) = false ∧ (s.dev.bufRead q.part (q.boff 3) (4 * n)).isSome = true) ∧
    (∃ (s₀ s : State) (c : Cmd) (r : CmdRec) (q : Req) (h : Nat) (i : PanIndex) (e : PanQuery), s = s₀.reach (cmdKey c) ∧ q = reqOf c r ∧
    s.dev.ownIdx q = some (h, i) ∧ Started 0x0704 c r s ∧ q.clean ((2, 0xFFFF) :: queryBits top32) = true ∧ s.dev.bufSealed q.part (q.boff 5) (4 *
    i.dims) = false ∧ ((q.d2 9 = 0 ∨ i.floor ≤ q.d2 9 ∧ q.d2 9 ≤ i.epoch)) ∧ (s.dev.bufRun q.part true (runFuel (16 * q.f 3 10 0)) (q.boff 7) (16 *
    q.f 3 10 0)).isSome = true ∧ s.dev.queryOf q h i (q.boff 7) (q.d2 9) (.cmd q.seq) = .ok e) ∧
    (∃ (s₀ s : State) (c : Cmd) (r : CmdRec) (q : Req) (h : Nat) (i : PanIndex), s = s₀.reach (cmdKey c) ∧ q = reqOf c r ∧ s.dev.ownIdx q = some (h,
    i) ∧ Started 0x0705 c r s ∧ q.clean [(2, 0xFFFF)] = true) ∧
    (∃ (s₀ s : State) (c : Cmd) (r : CmdRec) (q : Req) (h : Nat) (i : PanIndex), s = s₀.reach (cmdKey c) ∧ q = reqOf c r ∧ s.dev.ownIdx q = some (h,
    i) ∧ Started 0x0706 c r s ∧ q.clean [(2, 0xFFFF)] = true) ∧
    (∃ (s₀ s : State) (c : Cmd) (r : CmdRec) (q : Req) (h : Nat) (i : PanIndex), s = s₀.reach (cmdKey c) ∧ q = reqOf c r ∧ s.dev.ownIdx q = some (h,
    i) ∧ Started 0x070A c r s ∧ q.clean [(2, 0xFFFF), (3, 0x100FF)] = true ∧ bitAt (q.w 3).toNat 16 = true) ∧
    (∃ (s₀ s : State) (c : Cmd) (r : CmdRec) (q : Req) (h : Nat) (i : PanIndex), s = s₀.reach (cmdKey c) ∧ q = reqOf c r ∧ s.dev.ownIdx q = some (h,
    i) ∧ Started 0x070A c r s ∧ q.clean [(2, 0xFFFF), (3, 0x100FF)] = true ∧ bitAt (q.w 3).toNat 16 = false ∧ thas s.dev.net.srqs (q.part * 256 + q.f
    3 7 0) = true ∧ ((∀ j ∈ s.dev.pan.idx, j.1 = h ∨ j.2.part ≠ q.part ∨ j.2.listen ≠ some (q.f 3 7 0)))) ∧
    (∃ (s₀ s : State) (c : Cmd) (r : CmdRec) (q : Req), s = s₀.reach (cmdKey c) ∧ q = reqOf c r ∧ Started 0x0708 c r s ∧ q.clean [(2, 0x1000F), (3,
    top32), (4, 0xFF), (5, 0x3FFF)] = true ∧ bitAt (q.w 2).toNat 16 = true) ∧
    (∃ (s₀ s : State) (c : Cmd) (r : CmdRec) (q : Req) (n : Nat) (b : List Byte) (t : List (Nat × Nat)), s = s₀.reach (cmdKey c) ∧ q = reqOf c r ∧
    Started 0x0708 c r s ∧ q.clean [(2, 0x1000F), (3, top32), (4, 0xFF), (5, 0x3FFF)] = true ∧ bitAt (q.w 2).toNat 16 = false ∧ n = q.f 5 13 0 ∧ 0 <
    n ∧ n ≤ 8192 ∧ s.dev.bufSealed q.part (q.boff 3) (8 * n) = false ∧ s.dev.bufShut q.part (q.boff 3) (8 * n) = false ∧ s.dev.panRead q.part (q.boff
    3) (8 * n) = .ok b ∧ t = (List.range n).map (fun k => (fld (leAt b (8 * k) 8) 19 0, fld (leAt b (8 * k) 8) 47 32)) ∧ ((∀ e ∈ t, e.1 = 0 ∨ ∃ p :
    Qp, s.dev.ownQp q.part e.1 = some p ∧ p.ext = true ∧ p.event = true))) ∧
    (∃ (s₀ s : State) (c : Cmd) (r : CmdRec) (q : Req) (t : List (Nat × Nat)) (h tag k : Nat) (i : PanIndex) (e : PanQuery) (p : PanShard) (d : Dev),
    s = s₀.reach (cmdKey c) ∧ q = reqOf c r ∧ Started 0x0709 c r s ∧ tget s.dev.pan.groups (q.part * 16 + q.f 2 3 0) = some t ∧ t.filter (fun e =>
    e.1 == 0) = [(0, h)] ∧ tget s.dev.pan.idx h = some i ∧ k = q.f 3 10 0 ∧ q.clean ((2, 0xF) :: queryBits 0) = true ∧ i.part = q.part ∧ i.destroy =
    none ∧ s.dev.bufSealed q.part (q.boff 5) (4 * i.dims) = false ∧ (s.dev.bufRun q.part true (runFuel (16 * k)) (q.boff 7) (16 * k)).isSome = true ∧
    tag = nextId (fun n => thas s.dev.pan.shards n) 0xFFFEFFFF s.dev.pan.shards.length s.dev.pan.lastTag ∧ s.dev.queryOf q h i 0 0 (.shard tag) = .ok
    e ∧ p = ⟨q.seq, q.part, t, k, q.boff 7, i.dims, i.fmt, i.metric, List.range t.length, [], 0, 0, 0, 0, 0, s.clock.now + fld (s.dev.partReg q.part
    0x0B0000) 31 16 * ticksMs⟩ ∧ d = ({ s.dev with pan := { s.dev.pan with shards := tset s.dev.pan.shards tag p, lastTag := tag } } : Dev).addQuery
    e) :=
  ⟨⟨(sc 0x0700 [7, 1, 0x02211000, 0x00100040, 1, 1024] ({ dmap false with regs := ⟨[], [(devKey 0x0B0100, 1)], [], []⟩ })), _, (rq 0x0700 [7, 1,
     0x02211000, 0x00100040, 1, 1024]), (rc 0x0700 [7, 1, 0x02211000, 0x00100040, 1, 1024]), _, _, _, rfl, rfl, by unfold Started; decide +kernel,
     (by decide +kernel), rfl, (by decide +kernel), by decide +kernel, (by decide +kernel), by decide +kernel, (by decide +kernel),
     by decide +kernel, (by decide +kernel), by decide +kernel, (by decide +kernel), by decide +kernel, (by decide +kernel), by decide +kernel,
     (by decide +kernel), by decide +kernel, (by decide +kernel), by decide +kernel, (by decide +kernel), by decide +kernel, (by decide +kernel),
     by decide +kernel, some_get1 (by decide +kernel)⟩,
   ⟨(sc 0x0701 [1]
     ({ dmap false with pan := ⟨[(1, (⟨0, 0, 7, 1, 2, 0x21, 0, 4, 16, 1, 64, 0xFFFFFFFF, 1, 0, 0, 0, none, [], none⟩ : PanIndex))], [], 0, [], [], 0⟩ })),
     _, (rq 0x0701 [1]), (rc 0x0701 [1]), _, 1, (⟨0, 0, 7, 1, 2, 0x21, 0, 4, 16, 1, 64, 0xFFFFFFFF, 1, 0, 0, 0, none, [], none⟩ : PanIndex), rfl,
     rfl, by unfold Started; decide +kernel⟩,
   ⟨(sc 0x0702 [1, 0xE00000, 0, 1, 0xE00000, 0]
     ({ dmap false with pan := ⟨[(1, (⟨0, 0, 7, 1, 2, 0x21, 0, 4, 16, 1, 64, 0xFFFFFFFF, 1, 0, 0, 0, none, [], none⟩ : PanIndex))], [], 0, [], [], 0⟩ })),
     _, (rq 0x0702 [1, 0xE00000, 0, 1, 0xE00000, 0]), (rc 0x0702 [1, 0xE00000, 0, 1, 0xE00000, 0]), _, 1, (⟨0, 0, 7, 1, 2, 0x21, 0, 4, 16, 1, 64,
     0xFFFFFFFF, 1, 0, 0, 0, none, [], none⟩ : PanIndex), _, _, rfl, rfl, by decide +kernel, rfl, by decide +kernel, (by decide +kernel), rfl,
     by unfold Started; decide +kernel⟩,
   ⟨(sc 0x0703 [1, 0xE00000, 0, 1]
     ({ dmap false with pan := ⟨[(1, (⟨0, 0, 7, 1, 2, 0x21, 0, 4, 16, 1, 64, 0xFFFFFFFF, 1, 0, 0, 0, none, [], none⟩ : PanIndex))], [], 0, [], [], 0⟩ })),
     _, (rq 0x0703 [1, 0xE00000, 0, 1]), (rc 0x0703 [1, 0xE00000, 0, 1]), _, 1, (⟨0, 0, 7, 1, 2, 0x21, 0, 4, 16, 1, 64, 0xFFFFFFFF, 1, 0, 0, 0, none,
     [], none⟩ : PanIndex), _, _, rfl, rfl, by decide +kernel, rfl, by decide +kernel, (by decide +kernel), rfl, by unfold Started; decide +kernel⟩,
   ⟨(sc 0x0704 [1, 0x04000400, 0x400, 0xE00000, 0, 0xE00000, 0, 0, 0, 0, 0, 0, 0, 0, 0]
     ({ dmap false with pan := ⟨[(1, (⟨0, 0, 7, 1, 2, 0x21, 0, 4, 16, 1, 64, 0xFFFFFFFF, 1, 0, 0, 0, none, [], none⟩ : PanIndex))], [], 0, [], [], 0⟩ })),
     _, (rq 0x0704 [1, 0x04000400, 0x400, 0xE00000, 0, 0xE00000, 0, 0, 0, 0, 0, 0, 0, 0, 0]), (rc 0x0704 [1, 0x04000400, 0x400, 0xE00000, 0,
     0xE00000, 0, 0, 0, 0, 0, 0, 0, 0, 0]), _, 1, (⟨0, 0, 7, 1, 2, 0x21, 0, 4, 16, 1, 64, 0xFFFFFFFF, 1, 0, 0, 0, none, [], none⟩ : PanIndex), _,
     rfl, rfl, by decide +kernel, (by unfold Started; decide +kernel), by decide +kernel, (by decide +kernel), by decide +kernel,
     (by decide +kernel), ok_get (by decide +kernel)⟩,
   ⟨(sc 0x0705 [1]
     ({ dmap false with pan := ⟨[(1, (⟨0, 0, 7, 1, 2, 0x21, 0, 4, 16, 1, 64, 0xFFFFFFFF, 1, 0, 0, 0, none, [], none⟩ : PanIndex))], [], 0, [], [], 0⟩ })),
     _, (rq 0x0705 [1]), (rc 0x0705 [1]), _, 1, (⟨0, 0, 7, 1, 2, 0x21, 0, 4, 16, 1, 64, 0xFFFFFFFF, 1, 0, 0, 0, none, [], none⟩ : PanIndex), rfl,
     rfl, by unfold Started; decide +kernel⟩,
   ⟨(sc 0x0706 [1]
     ({ dmap false with pan := ⟨[(1, (⟨0, 0, 7, 1, 2, 0x21, 0, 4, 16, 1, 64, 0xFFFFFFFF, 1, 0, 0, 0, none, [], none⟩ : PanIndex))], [], 0, [], [], 0⟩ })),
     _, (rq 0x0706 [1]), (rc 0x0706 [1]), _, 1, (⟨0, 0, 7, 1, 2, 0x21, 0, 4, 16, 1, 64, 0xFFFFFFFF, 1, 0, 0, 0, none, [], none⟩ : PanIndex), rfl,
     rfl, by unfold Started; decide +kernel⟩,
   ⟨(sc 0x070A [1, 0x10000]
     ({ dmap false with pan := ⟨[(1, (⟨0, 0, 7, 1, 2, 0x21, 0, 4, 16, 1, 64, 0xFFFFFFFF, 1, 0, 0, 0, none, [], none⟩ : PanIndex))], [], 0, [], [], 0⟩ })),
     _, (rq 0x070A [1, 0x10000]), (rc 0x070A [1, 0x10000]), _, 1, (⟨0, 0, 7, 1, 2, 0x21, 0, 4, 16, 1, 64, 0xFFFFFFFF, 1, 0, 0, 0, none, [], none⟩ :
     PanIndex), rfl, rfl, by unfold Started; decide +kernel⟩,
   ⟨(sc 0x070A [1, 0xFF]
     ({ dmap false with pan := ⟨[(1, (⟨0, 0, 7, 1, 2, 0x21, 0, 4, 16, 1, 64, 0xFFFFFFFF, 1, 0, 0, 0, none, [], none⟩ : PanIndex))], [], 0, [], [], 0⟩, net := { NetState.reset with srqs := [(255, ⟨0, 0xE00000, 4, none, 0⟩)] } })),
     _, (rq 0x070A [1, 0xFF]), (rc 0x070A [1, 0xFF]), _, 1, (⟨0, 0, 7, 1, 2, 0x21, 0, 4, 16, 1, 64, 0xFFFFFFFF, 1, 0, 0, 0, none, [], none⟩ :
     PanIndex), rfl, rfl, by unfold Started; decide +kernel⟩,
   ⟨(sc 0x0708 [0x1000F, 0, 0, 0] (dv)), _, (rq 0x0708 [0x1000F, 0, 0, 0]), (rc 0x0708 [0x1000F, 0, 0, 0]), _, rfl, rfl,
     by unfold Started; decide +kernel⟩,
   ⟨(sc 0x0708 [0xF, 0xE00000, 0, 1] (dmap false)), _, (rq 0x0708 [0xF, 0xE00000, 0, 1]), (rc 0x0708 [0xF, 0xE00000, 0, 1]), _, _, _, _, rfl, rfl,
     by unfold Started; decide +kernel, (by decide +kernel), by decide +kernel, rfl, by decide +kernel, (by decide +kernel), by decide +kernel,
     (by decide +kernel), ok_get (by decide +kernel), rfl, (by intro e he; left; revert e he; decide +kernel)⟩,
   ⟨(sc 0x0709 [0xF, 0x04000400, 0x400, 0xE00000, 0, 0xE00000, 0, 0, 0, 0, 0, 0, 0, 0, 0]
     ({ dmap false with pan := ⟨[(1, (⟨0, 0, 7, 1, 2, 0x21, 0, 4, 16, 1, 64, 0xFFFFFFFF, 1, 0, 0, 0, none, [], none⟩ : PanIndex))], [], 0, [(15, [(0, 1)])], [], 0⟩ })),
     _, (rq 0x0709 [0xF, 0x04000400, 0x400, 0xE00000, 0, 0xE00000, 0, 0, 0, 0, 0, 0, 0, 0, 0]), (rc 0x0709 [0xF, 0x04000400, 0x400, 0xE00000, 0,
     0xE00000, 0, 0, 0, 0, 0, 0, 0, 0, 0]), _, [(0, 1)], 1, _, _, (⟨0, 0, 7, 1, 2, 0x21, 0, 4, 16, 1, 64, 0xFFFFFFFF, 1, 0, 0, 0, none, [], none⟩ :
     PanIndex), _, _, _, rfl, rfl, by unfold Started; decide +kernel, (by decide +kernel), by decide +kernel, (by decide +kernel), rfl,
     (by decide +kernel), by decide +kernel, (by decide +kernel), by decide +kernel, (by decide +kernel), rfl, ok_get (by decide +kernel), rfl, rfl⟩⟩

/-- A state and operands that meet the hypotheses of each clause of IndexEventsTakeEffect. -/
theorem wit_indexEventsTakeEffect :
    (∃ (s : State) (die : Nat) (q : PanQuery) (i : PanIndex) (s₀ : State), s.clock.power = true ∧ s.dev.panRunning die < 256 ∧
    s.dev.pan.queries.find? (fun q => q.die == die && !q.running) = some q ∧ tget s.dev.pan.idx q.index = some i ∧ ((q.snap = 0 → i.floor ≤
    i.epoch)) ∧ ((q.snap ≠ 0 → i.floor ≤ q.snap ∧ q.snap ≤ i.epoch)) ∧ s = s₀.follow) ∧
    (∃ (s : State) (qpn srq h k ef w : Nat) (q : Qp) (i : PanIndex) (msg : List Byte) (s₀ : State), s.clock.power = true ∧ s.dev.qp qpn = some q ∧
    s.dev.pan.idx.find? (fun i => i.2.part == q.part && i.2.listen == some srq && i.2.destroy.isNone) = some (h, i) ∧ q.srq = some srq ∧ leAt msg 0
    4 = 0x31514E50 ∧ msg.length = 64 + 4 * i.dims ∧ k = leAt msg 8 2 ∧ ef = leAt msg 10 2 ∧ w = leAt msg 12 2 ∧ 0 < k ∧ k ≤ 1024 ∧ ef ≤ 1024 ∧ w ≤
    1024 ∧ s = s₀.follow) ∧
    (∃ (s : State) (tag entry n h : Nat) (p : PanShard) (msg : List Byte) (s₀ : State), s.clock.power = true ∧ tget s.dev.pan.shards tag = some p ∧
    p.table[entry]? = some (n, h) ∧ n ≠ 0 ∧ (s.dev.ewr n tag).isSome = true ∧ entry ∈ p.waiting ∧ leAt msg 0 4 = 0x31524E50 ∧ leAt msg 4 4 = tag ∧
    leAt msg 20 2 = p.dims ∧ leAt msg 22 1 = p.fmt ∧ leAt msg 23 1 = p.metric ∧ s = s₀.follow) ∧
    (∃ (s : State) (tag : Nat) (p : PanShard) (s₀ : State), s.clock.power = true ∧ tget s.dev.pan.shards tag = some p ∧ p.until_ ≤ s.clock.now ∧ s =
    s₀.reach (evKey 8 0 (source 11 0))) ∧
    (∃ (s : State) (die id : Nat) (q : PanQuery) (i : PanIndex) (t : PanSearch) (d0 d : Dev) (s₀ : State), s.clock.power = true ∧
    s.dev.pan.queries.find? (fun q => q.id == id && q.die == die && q.running) = some q ∧ tget s.dev.pan.idx q.index = some i ∧ t = s.dev.search i
    q.vec q.k (max q.ef q.k) q.w (fun t => t.seen q.snap && t.passes q.all_ q.none_ q.any_) ∧ s.dev.reach s.ctx .panicle (12, q.id)
    (s.dev.queryRanges q i t) = (.go, d0) ∧ d = (d0.bumpPart q.part 0x0B0014 t.poison).bumpPart q.part 0x0B000C (if t.visited.length ≥ 32768 then 1
    else 0) ∧ s = s₀.reach (evKey 5 0 (source 11 die))) ∧
    (∃ (s : State) (die id : Nat) (q : PanQuery) (i : PanIndex) (t : PanSearch) (d0 : Dev) (s₀ : State), s.clock.power = true ∧
    s.dev.pan.queries.find? (fun q => q.id == id && q.die == die && q.running) = some q ∧ tget s.dev.pan.idx q.index = some i ∧ t = s.dev.search i
    q.vec q.k (max q.ef q.k) q.w (fun t => t.seen q.snap && t.passes q.all_ q.none_ q.any_) ∧ s.dev.reach s.ctx .panicle (12, q.id)
    (s.dev.queryRanges q i t) = (.busy, d0) ∧ s = s₀.reach (evKey 5 0 (source 11 die))) ∧
    (∃ (s : State) (h : Nat) (i : PanIndex) (u : PanUpdate) (us : List PanUpdate) (ec : Nat) (s₀ : State), s.clock.power = true ∧ tget s.dev.pan.idx
    h = some i ∧ i.updates = u :: us ∧ u.kind = 2 ∧ u.ec = some ec ∧ ((∀ q ∈ s.dev.pan.queries, q.index = h → q.running = true → ec ≤ q.snap)) ∧ s =
    s₀.follow) ∧
    (∃ (s : State) (h : Nat) (i : PanIndex) (u : PanUpdate) (us : List PanUpdate) (d0 : Dev) (inp : List Byte) (ns : List Nat) (d : Dev) (s₀ :
    State), s.clock.power = true ∧ tget s.dev.pan.idx h = some i ∧ i.updates = u :: us ∧ s.dev.idxHeld i = false ∧ s.dev.idxBusy i = false ∧
    s.dev.reach s.ctx .panicle (13, h) (s.dev.updateRanges i u) = (.go, d0) ∧ u.kind = 0 ∧ d0.panRead i.part u.off (u.count * (16 + 4 * i.dims)) =
    .ok inp ∧ ns = d0.freeItems i i.cap 0 u.count ∧ u.count ≤ ns.length ∧ d0.bufWrite s.ctx i.part u.out (ns.flatMap (leBytes 4)) = some d ∧ s =
    s₀.reach (evKey 5 0 (source 11 0))) ∧
    (∃ (s : State) (h : Nat) (i : PanIndex) (u : PanUpdate) (us : List PanUpdate) (d0 : Dev) (b : List Byte) (n : Nat) (d : Dev) (s₀ : State),
    s.clock.power = true ∧ tget s.dev.pan.idx h = some i ∧ i.updates = u :: us ∧ s.dev.idxHeld i = false ∧ s.dev.idxBusy i = false ∧ s.dev.reach
    s.ctx .panicle (13, h) (s.dev.updateRanges i u) = (.go, d0) ∧ u.kind = 1 ∧ d0.panRead i.part u.off (4 * u.count) = .ok b ∧ d0.deleteAll s.ctx i
    ((List.range u.count).map fun k => leAt b (4 * k) 4) = (n, d) ∧ s = s₀.reach (evKey 5 0 (source 11 0))) ∧
    (∃ (s : State) (h : Nat) (i : PanIndex) (u : PanUpdate) (us : List PanUpdate) (d0 : Dev) (n ec : Nat) (j : PanIndex) (d : Dev) (s₀ : State),
    s.clock.power = true ∧ tget s.dev.pan.idx h = some i ∧ i.updates = u :: us ∧ s.dev.idxHeld i = false ∧ s.dev.idxBusy i = false ∧ s.dev.reach
    s.ctx .panicle (13, h) (s.dev.updateRanges i u) = (.go, d0) ∧ u.kind = 3 ∧ u.ec = some ec ∧ d0.compactAll s.ctx i ec = (n, j, d) ∧ s = s₀.reach
    (evKey 5 0 (source 11 0))) :=
  ⟨⟨_, 1, (⟨4, 1, 0, 1, 1, 64, 4, [0, 0], 0xE00000, 0, 0, 0, 0, 0, .cmd 9, false, none⟩ : PanQuery), (⟨0, 0, 7, 1, 2, 0x21, 0, 4, 16, 1, 64,
     0xFFFFFFFF, 1, 0, 0, 0, none, [], none⟩ : PanIndex), (st
     { dmap false with pan := ⟨[(1, (⟨0, 0, 7, 1, 2, 0x21, 0, 4, 16, 1, 64, 0xFFFFFFFF, 1, 0, 0, 0, none, [], none⟩ : PanIndex))], [(⟨4, 1, 0, 1, 1, 64, 4, [0, 0], 0xE00000, 0, 0, 0, 0, 0, .cmd 9, false, none⟩ : PanQuery)], 5, [], [], 0⟩ }),
     by decide +kernel, (by decide +kernel), by decide +kernel, (by decide +kernel), by decide +kernel, (by decide +kernel), rfl⟩,
   ⟨_, 3, 0, 1, _, _, _, ({ qp0 with srq := some 0 }), (⟨0, 0, 7, 1, 2, 0x21, 0, 4, 16, 1, 64, 0xFFFFFFFF, 1, 0, 0, 0, some 0, [], none⟩ :
     PanIndex), (leBytes 4 0x31514E50 ++ [0, 0, 0, 0] ++ leBytes 2 1024 ++ leBytes 2 1024 ++ leBytes 2 1024 ++ List.replicate 58 0), (st (withQp
     { qp0 with srq := some 0 }
     { dmap false with pan := ⟨[(1, (⟨0, 0, 7, 1, 2, 0x21, 0, 4, 16, 1, 64, 0xFFFFFFFF, 1, 0, 0, 0, some 0, [], none⟩ : PanIndex))], [], 0, [], [], 0⟩ })),
     by decide +kernel, (by decide +kernel), by decide +kernel, (by decide +kernel), by decide +kernel, (by decide +kernel), rfl, rfl, rfl,
     (by decide +kernel), by decide +kernel, (by decide +kernel), by decide +kernel, rfl⟩,
   ⟨_, 9, 0, 3, 1, (⟨9, 0, [(3, 1)], 1, 0xE00000, 2, 0x21, 0, [0], [], 0, 0, 0, 0, 0, 0⟩ : PanShard), (leBytes 4 0x31524E50 ++ leBytes 4 9 ++
     List.replicate 12 0 ++ [2, 0, 0x21, 0]), (st
     { { dmap false with pan := ⟨[(1, (⟨0, 0, 7, 1, 2, 0x21, 0, 4, 16, 1, 64, 0xFFFFFFFF, 1, 0, 0, 0, none, [], none⟩ : PanIndex))], [], 0, [], [(9, (⟨9, 0, [(3, 1)], 1, 0xE00000, 2, 0x21, 0, [0], [], 0, 0, 0, 0, 0, 0⟩ : PanShard))], 9⟩ } with net := { NetState.reset with ewrs := [(ewrKey 3 9, ⟨0, 0, 128, false, none, [], none, 1⟩)] } }),
     by decide +kernel, (by decide +kernel), by decide +kernel, (by decide +kernel), by decide +kernel, (by decide +kernel), by decide +kernel,
     (by decide +kernel), by decide +kernel, (by decide +kernel), by decide +kernel, rfl⟩,
   ⟨_, 9, (⟨9, 0, [(3, 1)], 1, 0xE00000, 2, 0x21, 0, [0], [], 0, 0, 0, 0, 0, 1250000000⟩ : PanShard), (st
     { dmap false with pan := ⟨[(1, (⟨0, 0, 7, 1, 2, 0x21, 0, 4, 16, 1, 64, 0xFFFFFFFF, 1, 0, 0, 0, none, [], none⟩ : PanIndex))], [], 0, [], [(9, (⟨9, 0, [(3, 1)], 1, 0xE00000, 2, 0x21, 0, [0], [], 0, 0, 0, 0, 0, 1250000000⟩ : PanShard))], 9⟩ }),
     by decide +kernel, (by decide +kernel), by decide +kernel, rfl⟩,
   ⟨_, 1, 4, (⟨4, 1, 0, 1, 1, 64, 4, [0, 0], 0xE00000, 0, 0, 0, 0, 0, .cmd 9, true, none⟩ : PanQuery), (⟨0, 0, 7, 1, 2, 0x21, 0, 4, 16, 1, 64,
     0xFFFFFFFF, 1, 0, 0, 0, none, [], none⟩ : PanIndex), _, _, _, (st
     { dmap false with pan := ⟨[(1, (⟨0, 0, 7, 1, 2, 0x21, 0, 4, 16, 1, 64, 0xFFFFFFFF, 1, 0, 0, 0, none, [], none⟩ : PanIndex))], [(⟨4, 1, 0, 1, 1, 64, 4, [0, 0], 0xE00000, 0, 0, 0, 0, 0, .cmd 9, true, none⟩ : PanQuery)], 5, [], [], 0⟩ }),
     by decide +kernel, (by decide +kernel), by decide +kernel, rfl, fst_get (by decide +kernel), rfl, rfl⟩,
   ⟨_, 1, 4, (⟨4, 1, 0, 1, 1, 64, 4, [0, 0], 0xE00000, 0, 0, 0, 0, 0, .cmd 9, true, some 0x1F0000⟩ : PanQuery), (⟨0, 0, 7, 1, 2, 0x21, 0, 4, 16, 1,
     64, 0xFFFFFFFF, 1, 0, 0, 0, none, [], none⟩ : PanIndex), _, _, (st
     { dgl { gu with refused := [(12, 4)] } with mem := { MemState.reset with bufs := [(bufKey 0 0, ⟨hbmBase + 15 * stackBytes, [], false, 0, 0, []⟩)] }, pan := ⟨[(1, (⟨0, 0, 7, 1, 2, 0x21, 0, 4, 16, 1, 64, 0xFFFFFFFF, 1, 0, 0, 0, none, [], none⟩ : PanIndex))], [(⟨4, 1, 0, 1, 1, 64, 4, [0, 0], 0xE00000, 0, 0, 0, 0, 0, .cmd 9, true, some 0x1F0000⟩ : PanQuery)], 5, [], [], 0⟩ }),
     by decide +kernel, (by decide +kernel), by decide +kernel, rfl, fst_get (by decide +kernel), rfl⟩,
   ⟨_, 1, (⟨0, 0, 7, 1, 2, 0x21, 0, 4, 16, 1, 64, 0xFFFFFFFF, 1, 0, 0, 0, none, [(⟨9, 2, 0xE00000, 1, 0, some 1⟩ : PanUpdate)], none⟩ : PanIndex),
     (⟨9, 2, 0xE00000, 1, 0, some 1⟩ : PanUpdate), [], 1, (st
     { dmap false with pan := ⟨[(1, (⟨0, 0, 7, 1, 2, 0x21, 0, 4, 16, 1, 64, 0xFFFFFFFF, 1, 0, 0, 0, none, [(⟨9, 2, 0xE00000, 1, 0, some 1⟩ : PanUpdate)], none⟩ : PanIndex))], [], 0, [], [], 0⟩ }),
     by decide +kernel, (by decide +kernel), by decide +kernel, (by decide +kernel), by decide +kernel, (by decide +kernel), rfl⟩,
   ⟨_, 1, (⟨0, 0, 7, 1, 2, 0x21, 0, 4, 16, 1, 64, 0xFFFFFFFF, 1, 0, 0, 0, none, [(⟨9, 0, 0xE00000, 1, 0xE00000, some 1⟩ : PanUpdate)], none⟩ :
     PanIndex), (⟨9, 0, 0xE00000, 1, 0xE00000, some 1⟩ : PanUpdate), [], _, _, _, _, (st
     { dmap false with pan := ⟨[(1, (⟨0, 0, 7, 1, 2, 0x21, 0, 4, 16, 1, 64, 0xFFFFFFFF, 1, 0, 0, 0, none, [(⟨9, 0, 0xE00000, 1, 0xE00000, some 1⟩ : PanUpdate)], none⟩ : PanIndex))], [], 0, [], [], 0⟩ }),
     by decide +kernel, (by decide +kernel), by decide +kernel, (by decide +kernel), by decide +kernel, fst_get (by decide +kernel),
     by decide +kernel, ok_get (by decide +kernel), rfl, (by decide +kernel), some_get1 (by decide +kernel), rfl⟩,
   ⟨_, 1, (⟨0, 0, 7, 1, 2, 0x21, 0, 4, 16, 1, 64, 0xFFFFFFFF, 1, 0, 0, 0, none, [(⟨9, 1, 0xE00000, 1, 0xE00000, some 1⟩ : PanUpdate)], none⟩ :
     PanIndex), (⟨9, 1, 0xE00000, 1, 0xE00000, some 1⟩ : PanUpdate), [], _, _, _, _, (st
     { dmap false with pan := ⟨[(1, (⟨0, 0, 7, 1, 2, 0x21, 0, 4, 16, 1, 64, 0xFFFFFFFF, 1, 0, 0, 0, none, [(⟨9, 1, 0xE00000, 1, 0xE00000, some 1⟩ : PanUpdate)], none⟩ : PanIndex))], [], 0, [], [], 0⟩ }),
     by decide +kernel, (by decide +kernel), by decide +kernel, (by decide +kernel), by decide +kernel, fst_get (by decide +kernel),
     by decide +kernel, ok_get (by decide +kernel), pair_get, rfl⟩,
   ⟨_, 1, (⟨0, 0, 7, 1, 2, 0x21, 0, 4, 16, 1, 64, 0xFFFFFFFF, 1, 0, 0, 0, none, [(⟨9, 3, 0xE00000, 1, 0xE00000, some 1⟩ : PanUpdate)], none⟩ :
     PanIndex), (⟨9, 3, 0xE00000, 1, 0xE00000, some 1⟩ : PanUpdate), [], _, _, 1, _, _, (st
     { dmap false with pan := ⟨[(1, (⟨0, 0, 7, 1, 2, 0x21, 0, 4, 16, 1, 64, 0xFFFFFFFF, 1, 0, 0, 0, none, [(⟨9, 3, 0xE00000, 1, 0xE00000, some 1⟩ : PanUpdate)], none⟩ : PanIndex))], [], 0, [], [], 0⟩ }),
     by decide +kernel, (by decide +kernel), by decide +kernel, (by decide +kernel), by decide +kernel, fst_get (by decide +kernel),
     by decide +kernel, (by decide +kernel), pair_get, rfl⟩⟩

/-- A state and operands that meet the hypotheses of each clause of CheckpointCommandsComplete. -/
theorem wit_checkpointCommandsComplete :
    (∃ (s₀ s : State) (c : Cmd) (r : CmdRec) (q : Req) (j rank n stage m : Nat) (remote : Bool) (its : List CkpItem) (ms es : List Nat) (d e : Dev)
    (loc : Tbl (List Nat) × Nat) (k : CkpJob), s = s₀.reach (cmdKey c) ∧ q = reqOf c r ∧ Started 0x0800 c r s ∧ q.clean [(2, 0xFFFF), (3, 0x3FFF),
    (4, 0x3FFF), (5, 0x7F01), (6, top32), (7, 0xFF), (8, 0x1FFF), (9, top32), (10, 0xFF), (11, 0xFFFFF), (12, top32), (13, top32), (14, top32), (15,
    top32)] = true ∧ j = q.f 2 15 0 ∧ rank = q.f 3 13 0 ∧ n = q.f 4 13 0 ∧ stage = q.f 5 14 8 ∧ m = q.f 8 12 0 ∧ remote = bitAt (q.w 5).toNat 0 ∧ 0 <
    j ∧ 0 < n ∧ n ≤ 8192 ∧ rank < n ∧ 2 ≤ stage ∧ stage ≤ 64 ∧ m ≤ 4096 ∧ ((remote = false → n = 1)) ∧ ((remote = true → 2 ≤ (q.w 15).toNat ∧
    (s.dev.ownQp q.part (q.f 11 19 0)).isSome = true)) ∧ s.dev.job j = none ∧ s.dev.readItems q.part (bufOff (q.w 6).toNat (q.f 7 7 0)) m = .ok its ∧
    s.dev.readMembers q.part (bufOff (q.w 9).toNat (q.f 10 7 0)) n rank = .ok ms ∧ (s.dev.ckp.jobs.filter fun k => k.2.part == q.part).length < 8 ∧
    s.dev.ckp.jobs.length < 64 ∧ ((∃ f : Dev, s.dev.postNotices q.part j ms = .ok f)) ∧ s.dev.allotExts q.part (List.range 16) (32 * stage) = some
    (es, d) ∧ d.postNotices q.part j ms = .ok e ∧ loc = (if remote then ([], 0) else e.localSlots q.part j) ∧ k = ⟨q.part, rank, n, ms, remote,
    stage, its, if remote then q.f 11 19 0 else 0, q.d2 12, q.w 14, (q.w 15).toNat, [], es, loc.2, none, none, loc.1⟩) ∧
    (∃ (s₀ s : State) (c : Cmd) (r : CmdRec) (q : Req) (j : Nat) (k : CkpJob) (d : Dev), s = s₀.reach (cmdKey c) ∧ q = reqOf c r ∧ s.dev.ckpOwn q =
    some (j, k) ∧ Started 0x0801 c r s ∧ q.clean [(2, 0xFFFF)] = true ∧ k.run = none ∧ k.restore = none ∧ d = (k.members.filter (· != 0)).foldl (fun
    d n => d.withdrawEwr s.ctx n (noticeId j)) (s.dev.freeExts k.bufs)) ∧
    (∃ (s₀ s : State) (c : Cmd) (r : CmdRec) (q : Req) (j : Nat) (k : CkpJob) (d : Dev), s = s₀.reach (cmdKey c) ∧ q = reqOf c r ∧ s.dev.ckpOwn q =
    some (j, k) ∧ Started 0x0802 c r s ∧ q.clean [(2, 0xFFFF)] = true ∧ k.restore = none ∧ k.run = none ∧ s.dev.ckpStart s.ctx j k [q.seq] = some d) ∧
    (∃ (s₀ s : State) (c : Cmd) (r : CmdRec) (q : Req) (j : Nat) (k : CkpJob) (t : CkpRun), s = s₀.reach (cmdKey c) ∧ q = reqOf c r ∧ s.dev.ckpOwn
    q = some (j, k) ∧ Started 0x0802 c r s ∧ q.clean [(2, 0xFFFF)] = true ∧ k.restore = none ∧ k.run = some t) ∧
    (∃ (s₀ s : State) (c : Cmd) (r : CmdRec) (q : Req) (j : Nat) (k : CkpJob), s = s₀.reach (cmdKey c) ∧ q = reqOf c r ∧ s.dev.ckpOwn q = some (j,
    k) ∧ Started 0x0803 c r s ∧ q.clean [(2, 0xFFFF)] = true) ∧
    (∃ (s₀ s : State) (c : Cmd) (r : CmdRec) (q : Req) (j : Nat) (k : CkpJob) (its : List CkpItem), s = s₀.reach (cmdKey c) ∧ q = reqOf c r ∧
    s.dev.ckpOwn q = some (j, k) ∧ Started 0x0804 c r s ∧ q.clean [(2, 0x3FFFFFFF), (3, top32), (4, top32), (5, top32), (6, 0xFF), (7, top32), (8,
    top32)] = true ∧ q.f 2 29 16 < k.n ∧ k.run = none ∧ k.restore = none ∧ s.dev.readItems q.part (bufOff (q.w 5).toNat (q.f 6 7 0)) k.items.length =
    .ok its ∧ s.dev.allMapped q.part ((its.filter fun i => i.kind == 0).flatMap fun i => runExts i.first i.count) = true ∧ s.dev.anyFrozen q.part
    ((its.filter fun i => i.kind == 0).flatMap fun i => runExts i.first i.count) = false ∧ ((q.f 2 29 16 = k.rank → its.map (fun i => (i.kind,
    i.count)) = k.items.map fun i => (i.kind, i.count)))) ∧
    (∃ (s₀ s : State) (c : Cmd) (r : CmdRec) (q : Req) (j : Nat) (k : CkpJob) (b : List Byte) (off : Nat), s = s₀.reach (cmdKey c) ∧ q = reqOf c r ∧
    s.dev.ckpOwn q = some (j, k) ∧ Started 0x0805 c r s ∧ q.clean [(2, 0xFFFF), (3, top32), (4, 0xFF)] = true ∧ off = bufOff (q.w 3).toNat (q.f 4 7
    0) ∧ s.dev.bufSealed q.part off 1024 = false ∧ s.dev.bufRead q.part off 1024 = some (b, false)) :=
  ⟨⟨(sc 0x0800 [0xFFFF, 0, 1, 0x0200, 0, 0, 0, 0xE00000, 0, 0, 0, 0, 0, 0] (dmap false)), _, (rq 0x0800 [0xFFFF, 0, 1, 0x0200, 0, 0, 0, 0xE00000,
     0, 0, 0, 0, 0, 0]), (rc 0x0800 [0xFFFF, 0, 1, 0x0200, 0, 0, 0, 0xE00000, 0, 0, 0, 0, 0, 0]), _, 0xFFFF, 0, 1, 2, 0, false, _, _, _, _, _, _, _,
     rfl, rfl, by unfold Started; decide +kernel, (by decide +kernel), by decide +kernel, (by decide +kernel), by decide +kernel,
     (by decide +kernel), by decide +kernel, (by decide +kernel), by decide +kernel, (by decide +kernel), by decide +kernel, (by decide +kernel),
     by decide +kernel, (by decide +kernel), by decide +kernel, (by decide +kernel), by decide +kernel, (by decide +kernel), ok_get
     (by decide +kernel), ok_get (by decide +kernel), by decide +kernel, (by decide +kernel), ⟨_, ok_get (by decide +kernel)⟩, some_get2
     (by decide +kernel), ok_get (by decide +kernel), rfl, rfl⟩,
   ⟨(sc 0x0801 [0xFFFF] ({ dv with ckp := ⟨[(0xFFFF, (⟨0, 0, 1, [0], false, 64, [], 0, 0, 0, 0, [], [], 0, none, none, []⟩ : CkpJob))]⟩ })), _, (rq
     0x0801 [0xFFFF]), (rc 0x0801 [0xFFFF]), _, 0xFFFF, (⟨0, 0, 1, [0], false, 64, [], 0, 0, 0, 0, [], [], 0, none, none, []⟩ : CkpJob), _, rfl, rfl,
     by decide +kernel, (by unfold Started; decide +kernel), by decide +kernel, (by decide +kernel), by decide +kernel, rfl⟩,
   ⟨(sc 0x0802 [0xFFFF] ({ dv with ckp := ⟨[(0xFFFF, (⟨0, 0, 1, [0], false, 64, [], 0, 0, 0, 0, [], [], 0, none, none, []⟩ : CkpJob))]⟩ })), _, (rq
     0x0802 [0xFFFF]), (rc 0x0802 [0xFFFF]), _, 0xFFFF, (⟨0, 0, 1, [0], false, 64, [], 0, 0, 0, 0, [], [], 0, none, none, []⟩ : CkpJob), _, rfl, rfl,
     by decide +kernel, (by unfold Started; decide +kernel), by decide +kernel, (by decide +kernel), by decide +kernel, some_get1
     (by decide +kernel)⟩,
   ⟨(sc 0x0802 [0xFFFF]
     ({ dv with ckp := ⟨[(0xFFFF, (⟨0, 0, 1, [0], false, 64, [], 0, 0, 0, 0, [], [], 0, some (⟨0, [], 1, 0, [], [], [], [], [], false, 0, [], 0, [], [], [], false, []⟩ : CkpRun), none, []⟩ : CkpJob))]⟩ })),
     _, (rq 0x0802 [0xFFFF]), (rc 0x0802 [0xFFFF]), _, 0xFFFF, (⟨0, 0, 1, [0], false, 64, [], 0, 0, 0, 0, [], [], 0, some (⟨0, [], 1, 0, [], [], [],
     [], [], false, 0, [], 0, [], [], [], false, []⟩ : CkpRun), none, []⟩ : CkpJob), (⟨0, [], 1, 0, [], [], [], [], [], false, 0, [], 0, [], [], [],
     false, []⟩ : CkpRun), rfl, rfl, by unfold Started; decide +kernel⟩,
   ⟨(sc 0x0803 [0xFFFF] ({ dv with ckp := ⟨[(0xFFFF, (⟨0, 0, 1, [0], false, 64, [], 0, 0, 0, 0, [], [], 0, none, none, []⟩ : CkpJob))]⟩ })), _, (rq
     0x0803 [0xFFFF]), (rc 0x0803 [0xFFFF]), _, 0xFFFF, (⟨0, 0, 1, [0], false, 64, [], 0, 0, 0, 0, [], [], 0, none, none, []⟩ : CkpJob), rfl, rfl,
     by unfold Started; decide +kernel⟩,
   ⟨(sc 0x0804 [0xFFFF, 0, 0, 0, 0, 0, 0]
     ({ dv with ckp := ⟨[(0xFFFF, (⟨0, 0, 1, [0], false, 64, [], 0, 0, 0, 0, [], [], 0, none, none, []⟩ : CkpJob))]⟩ })), _, (rq 0x0804 [0xFFFF, 0,
     0, 0, 0, 0, 0]), (rc 0x0804 [0xFFFF, 0, 0, 0, 0, 0, 0]), _, 0xFFFF, (⟨0, 0, 1, [0], false, 64, [], 0, 0, 0, 0, [], [], 0, none, none, []⟩ :
     CkpJob), _, rfl, rfl, by decide +kernel, (by unfold Started; decide +kernel), by decide +kernel, (by decide +kernel), by decide +kernel,
     (by decide +kernel), ok_get (by decide +kernel), by decide +kernel⟩,
   ⟨(sc 0x0805 [0xFFFF, 0xE00000, 0]
     ({ dmap false with ckp := ⟨[(0xFFFF, (⟨0, 0, 1, [0], false, 64, [], 0, 0, 0, 0, [], [], 0, none, none, []⟩ : CkpJob))]⟩ })), _, (rq 0x0805
     [0xFFFF, 0xE00000, 0]), (rc 0x0805 [0xFFFF, 0xE00000, 0]), _, 0xFFFF, (⟨0, 0, 1, [0], false, 64, [], 0, 0, 0, 0, [], [], 0, none, none, []⟩ :
     CkpJob), _, _, rfl, rfl, by decide +kernel, (by unfold Started; decide +kernel), by decide +kernel, rfl, by decide +kernel, some_get2
     (by decide +kernel)⟩⟩

/-- A state and operands that meet the hypotheses of each clause of CheckpointEventsTakeEffect. -/
theorem wit_checkpointEventsTakeEffect :
    (∃ (s : State) (a : Nat) (bs : List Byte), s.clock.power = true ∧ (s.dev.unreachedAt a bs.length).isSome = true) ∧
    (∃ (s : State) (j : Nat) (k : CkpJob) (msg : List Byte) (d : Dev) (s₀ : State), s.clock.power = true ∧ s.dev.job j = some k ∧ 16 ≤ msg.length ∧
    leAt msg 0 4 = 0x31454E43 ∧ leAt msg 4 2 = j ∧ k.restore = none ∧ k.run = none ∧ s.dev.ckpStart s.ctx j k [] = some d ∧ s = s₀.follow) ∧
    (∃ (s : State) (j : Nat) (k : CkpJob) (r : CkpRun) (n reg off len : Nat) (i : CkpItem) (b : List Byte) (d0 d1 d : Dev) (s₀ : State),
    s.clock.power = true ∧ s.dev.job j = some k ∧ k.run = some r ∧ k.items[n]? = some i ∧ (itemRegions ((r.sizes[n]?).getD 0) (r.head n))[reg]? =
    some (off, len) ∧ r.mayCopy k.items k.stage n reg = true ∧ s.dev.reach s.ctx .sheaf (11, j * 2 ^ 48 + n * 2 ^ 24 + reg) (if i.kind = 0 then
    s.dev.runAddrs k.part (i.first * 2097152 + off) len else []) = (.go, d0) ∧ d0.regionBytes k r i n off len = some b ∧ d1 = d0.regionUse s.ctx k i
    off len ∧ d = (((if i.kind = 1 then d1 else d1.chargePart k.part 0 len).tapAdd k.part 7 len).putJob s.ctx j
    { k with run := some { r with unreached := r.unreached.filter (· != (n, reg)), data := tset r.data (n * 2 ^ 24 + reg) b } }) ∧ s = s₀.reach
    (evKey 5 0 (source 12 0))) ∧
    (∃ (s : State) (j : Nat) (k : CkpJob) (r : CkpRun) (n : Nat) (t : CkpShard) (b : List Byte) (d : Dev) (s₀ : State), s.clock.power = true ∧
    s.dev.job j = some k ∧ k.run = some r ∧ r.shards[n]? = some t ∧ t.st = 0 ∧ r.shardBytes t = some b ∧ d = s.dev.tapAdd k.part 7 b.length ∧
    t.group = 0 ∧ s = s₀.reach (evKey 5 0 (source 12 0))) ∧
    (∃ (s : State) (j : Nat) (k : CkpJob) (r : CkpRun) (n : Nat) (t : CkpShard) (b : List Byte) (d : Dev) (s₀ : State), s.clock.power = true ∧
    s.dev.job j = some k ∧ k.run = some r ∧ r.shards[n]? = some t ∧ t.st = 0 ∧ r.shardBytes t = some b ∧ d = s.dev.tapAdd k.part 7 b.length ∧
    t.group ≠ 0 ∧ k.keeps = true ∧ s = s₀.reach (evKey 5 0 (source 12 0))) ∧
    (∃ (s : State) (j : Nat) (k : CkpJob) (r : CkpRun) (n : Nat) (t : CkpShard) (b : List Byte) (d : Dev) (s₀ : State), s.clock.power = true ∧
    s.dev.job j = some k ∧ k.run = some r ∧ r.shards[n]? = some t ∧ t.st = 0 ∧ r.shardBytes t = some b ∧ d = s.dev.tapAdd k.part 7 b.length ∧
    t.group ≠ 0 ∧ k.keeps = false ∧ s = s₀.reach (evKey 5 0 (source 12 0))) ∧
    (∃ (s : State) (j : Nat) (k : CkpJob) (r : CkpRun) (n : Nat) (t : CkpShard) (s₀ : State), s.clock.power = true ∧ s.dev.job j = some k ∧ k.run =
    some r ∧ r.shards[n]? = some t ∧ t.st = 2 ∧ s.dev.opsOver t.ops = true ∧ s = s₀.reach (evKey 5 0 (source 12 0))) ∧
    (∃ (s : State) (j : Nat) (k : CkpJob) (r : CkpRun) (n : Nat) (t : CkpShard) (s₀ : State), s.clock.power = true ∧ s.dev.job j = some k ∧ k.run =
    some r ∧ r.shards[n]? = some t ∧ t.st = 1 ∧ t.annAt + 2 * r.dedupMs * ticksMs ≤ s.clock.now ∧ s = s₀.reach (evKey 8 0 (source 12 0))) ∧
    (∃ (s : State) (j : Nat) (k : CkpJob) (r : CkpRun) (g i : Nat) (t : CkpShard) (s₀ : State), s.clock.power = true ∧ s.dev.job j = some k ∧ k.run =
    some r ∧ r.shards.find? (fun s => s.group == g && s.index == i) = some t ∧ r.phase = 0 ∧ (t.st = 1 ∨ t.st = 4) ∧ s = s₀.follow) ∧
    (∃ (s : State) (j : Nat) (k : CkpJob) (r : CkpRun) (g i : Nat) (t : CkpShard) (s₀ : State), s.clock.power = true ∧ s.dev.job j = some k ∧ k.run =
    some r ∧ r.shards.find? (fun s => s.group == g && s.index == i) = some t ∧ t.st = 1 ∧ s = s₀.follow) ∧
    (∃ (s : State) (j : Nat) (k : CkpJob) (r : CkpRun) (rank : Nat) (g i : Nat) (s₀ : State), s.clock.power = true ∧ s.dev.job j = some k ∧ k.run =
    some r ∧ k.keeps = true ∧ k.alive rank = true ∧ rank ≠ k.rank ∧ ((∀ a ∈ r.anns, a.rank = rank → a.group = g → a.index ≠ i)) ∧ s = s₀.follow) ∧
    (∃ (s : State) (j : Nat) (k : CkpJob) (r : CkpRun) (a : CkpAnn) (s₀ : State), s.clock.power = true ∧ s.dev.job j = some k ∧ k.run = some r ∧
    k.keeps = true ∧ r.allOps.any s.dev.net.failed.contains = false ∧ r.shards.all (fun t => t.st != 5) = true ∧ ((k.n = 1 ∨ r.endSent = true)) ∧
    r.anns.find? (r.mayAnswer k s.clock.now) = some a ∧ s = s₀.reach (evKey 8 0 (source 12 0))) ∧
    (∃ (s : State) (j : Nat) (k : CkpJob) (r : CkpRun) (s₀ : State), s.clock.power = true ∧ s.dev.job j = some k ∧ k.run = some r ∧ r.phase = 4 ∧
    s.dev.opsOver r.manOps = true ∧ s = s₀.reach (evKey 5 0 (source 12 0))) ∧
    (∃ (s : State) (j : Nat) (k : CkpJob) (r : CkpRun) (s₀ : State), s.clock.power = true ∧ s.dev.job j = some k ∧ k.run = some r ∧ r.phase = 2 ∧
    k.keeps = false ∧ s = s₀.follow) ∧
    (∃ (s : State) (j : Nat) (k : CkpJob) (r : CkpRun) (s₀ : State), s.clock.power = true ∧ s.dev.job j = some k ∧ k.run = some r ∧ r.tick +
    r.commitMs * ticksMs ≤ s.clock.now ∧ s = s₀.reach (evKey 8 0 (source 12 0))) :=
  ⟨⟨(st { dmap true with mem := { (dmap true).mem with unreached := [bufKey 0 7] } }), (extentAddr 524288 + 2097151), [9], by decide +kernel⟩,
   ⟨_, 0xFFFF, (⟨0, 0, 1, [0], false, 64, [], 0, 0, 0, 0, [], [], 0, none, none, []⟩ : CkpJob), (leBytes 4 0x31454E43 ++ leBytes 2 0xFFFF ++
     List.replicate 10 0), _, (st
     ({ dv with ckp := ⟨[(0xFFFF, (⟨0, 0, 1, [0], false, 64, [], 0, 0, 0, 0, [], [], 0, none, none, []⟩ : CkpJob))]⟩ })), by decide +kernel,
     (by decide +kernel), by decide +kernel, (by decide +kernel), by decide +kernel, (by decide +kernel), by decide +kernel, some_get1
     (by decide +kernel), rfl⟩,
   ⟨_, 0xFFFF, (⟨0, 0, 1, [0], false, 64, [(⟨1, 0, 0x01000000, 0⟩ : CkpItem)], 0, 0, 0, 0, [], [], 0, some (⟨0, [], 1, 0, [128], [(0, 0)], [(0,
     List.replicate 128 0)], [], [(⟨0, 0, 0, 128, 0, 0, 0, 0, 0, []⟩ : CkpShard)], false, 0, [], 0, [], [], [], false, []⟩ : CkpRun), none, []⟩ :
     CkpJob), (⟨0, [], 1, 0, [128], [(0, 0)], [(0, List.replicate 128 0)], [], [(⟨0, 0, 0, 128, 0, 0, 0, 0, 0, []⟩ : CkpShard)], false, 0, [], 0, [],
     [], [], false, []⟩ : CkpRun), 0, 0, _, _, (⟨1, 0, 0x01000000, 0⟩ : CkpItem), _, _, _, _, (st
     ({ dv with ckp := ⟨[(0xFFFF, (⟨0, 0, 1, [0], false, 64, [(⟨1, 0, 0x01000000, 0⟩ : CkpItem)], 0, 0, 0, 0, [], [], 0, some (⟨0, [], 1, 0, [128], [(0, 0)], [(0, List.replicate 128 0)], [], [(⟨0, 0, 0, 128, 0, 0, 0, 0, 0, []⟩ : CkpShard)], false, 0, [], 0, [], [], [], false, []⟩ : CkpRun), none, []⟩ : CkpJob))]⟩ })),
     by decide +kernel, (by decide +kernel), by decide +kernel, (by decide +kernel), some_get2 (by decide +kernel), (by decide +kernel), fst_get
     (by decide +kernel), some_get1 (by decide +kernel), rfl, rfl, rfl⟩,
   ⟨_, 0xFFFF, (⟨0, 0, 1, [0], false, 64, [], 0, 0, 0, 0, [], [], 0, some (⟨0, [], 1, 0, [], [], [], [], [(⟨0, 0, 0, 0, 0, 0, 0, 0, 0, []⟩ :
     CkpShard)], false, 0, [], 0, [], [], [], false, []⟩ : CkpRun), none, []⟩ : CkpJob), (⟨0, [], 1, 0, [], [], [], [], [(⟨0, 0, 0, 0, 0, 0, 0, 0, 0,
     []⟩ : CkpShard)], false, 0, [], 0, [], [], [], false, []⟩ : CkpRun), 0, (⟨0, 0, 0, 0, 0, 0, 0, 0, 0, []⟩ : CkpShard), _, _, (st
     ({ dv with ckp := ⟨[(0xFFFF, (⟨0, 0, 1, [0], false, 64, [], 0, 0, 0, 0, [], [], 0, some (⟨0, [], 1, 0, [], [], [], [], [(⟨0, 0, 0, 0, 0, 0, 0, 0, 0, []⟩ : CkpShard)], false, 0, [], 0, [], [], [], false, []⟩ : CkpRun), none, []⟩ : CkpJob))]⟩ })),
     by decide +kernel, (by decide +kernel), by decide +kernel, (by decide +kernel), by decide +kernel, some_get1 (by decide +kernel), rfl,
     (by decide +kernel), rfl⟩,
   ⟨_, 0xFFFF, (⟨0, 0, 1, [0], false, 64, [], 0, 0, 0, 0, [], [], 0, some (⟨0, [], 1, 0, [], [], [], [], [(⟨65535, 0, 0, 0, 0, 0, 0, 0, 0, []⟩ :
     CkpShard)], false, 0, [], 0, [], [], [], false, []⟩ : CkpRun), none, []⟩ : CkpJob), (⟨0, [], 1, 0, [], [], [], [], [(⟨65535, 0, 0, 0, 0, 0, 0,
     0, 0, []⟩ : CkpShard)], false, 0, [], 0, [], [], [], false, []⟩ : CkpRun), 0, (⟨65535, 0, 0, 0, 0, 0, 0, 0, 0, []⟩ : CkpShard), _, _, (st
     ({ dv with ckp := ⟨[(0xFFFF, (⟨0, 0, 1, [0], false, 64, [], 0, 0, 0, 0, [], [], 0, some (⟨0, [], 1, 0, [], [], [], [], [(⟨65535, 0, 0, 0, 0, 0, 0, 0, 0, []⟩ : CkpShard)], false, 0, [], 0, [], [], [], false, []⟩ : CkpRun), none, []⟩ : CkpJob))]⟩ })),
     by decide +kernel, (by decide +kernel), by decide +kernel, (by decide +kernel), by decide +kernel, some_get1 (by decide +kernel), rfl,
     (by decide +kernel), by decide +kernel, rfl⟩,
   ⟨_, 0xFFFF, (⟨0, 1, 2, [3, 0], false, 64, [], 0, 0, 0, 0, [], [], 0, some (⟨0, [], 1, 0, [], [], [], [], [(⟨65535, 0, 0, 0, 0, 0, 0, 0, 0, []⟩ :
     CkpShard)], false, 0, [], 0, [], [], [], false, []⟩ : CkpRun), none, []⟩ : CkpJob), (⟨0, [], 1, 0, [], [], [], [], [(⟨65535, 0, 0, 0, 0, 0, 0,
     0, 0, []⟩ : CkpShard)], false, 0, [], 0, [], [], [], false, []⟩ : CkpRun), 0, (⟨65535, 0, 0, 0, 0, 0, 0, 0, 0, []⟩ : CkpShard), _, _, (st
     ({ dv with ckp := ⟨[(0xFFFF, (⟨0, 1, 2, [3, 0], false, 64, [], 0, 0, 0, 0, [], [], 0, some (⟨0, [], 1, 0, [], [], [], [], [(⟨65535, 0, 0, 0, 0, 0, 0, 0, 0, []⟩ : CkpShard)], false, 0, [], 0, [], [], [], false, []⟩ : CkpRun), none, []⟩ : CkpJob))]⟩ })),
     by decide +kernel, (by decide +kernel), by decide +kernel, (by decide +kernel), by decide +kernel, some_get1 (by decide +kernel), rfl,
     (by decide +kernel), by decide +kernel, rfl⟩,
   ⟨_, 0xFFFF, (⟨0, 0, 1, [0], false, 64, [], 0, 0, 0, 0, [], [], 0, some (⟨0, [], 1, 0, [], [], [], [], [(⟨0, 0, 0, 0, 2, 0, 0, 0, 0, [5]⟩ :
     CkpShard)], false, 0, [], 0, [], [], [], false, []⟩ : CkpRun), none, []⟩ : CkpJob), (⟨0, [], 1, 0, [], [], [], [], [(⟨0, 0, 0, 0, 2, 0, 0, 0, 0,
     [5]⟩ : CkpShard)], false, 0, [], 0, [], [], [], false, []⟩ : CkpRun), 0, (⟨0, 0, 0, 0, 2, 0, 0, 0, 0, [5]⟩ : CkpShard), (st
     ({ dv with ckp := ⟨[(0xFFFF, (⟨0, 0, 1, [0], false, 64, [], 0, 0, 0, 0, [], [], 0, some (⟨0, [], 1, 0, [], [], [], [], [(⟨0, 0, 0, 0, 2, 0, 0, 0, 0, [5]⟩ : CkpShard)], false, 0, [], 0, [], [], [], false, []⟩ : CkpRun), none, []⟩ : CkpJob))]⟩ })),
     by decide +kernel, (by decide +kernel), by decide +kernel, (by decide +kernel), by decide +kernel, (by decide +kernel), rfl⟩,
   ⟨_, 0xFFFF, (⟨0, 0, 1, [0], false, 64, [], 0, 0, 0, 0, [], [], 0, some (⟨0, [], 1, 0, [], [], [], [], [(⟨0, 0, 0, 0, 1, 0, 0, 0, 0, []⟩ :
     CkpShard)], false, 0, [], 0, [], [], [], false, []⟩ : CkpRun), none, []⟩ : CkpJob), (⟨0, [], 1, 0, [], [], [], [], [(⟨0, 0, 0, 0, 1, 0, 0, 0, 0,
     []⟩ : CkpShard)], false, 0, [], 0, [], [], [], false, []⟩ : CkpRun), 0, (⟨0, 0, 0, 0, 1, 0, 0, 0, 0, []⟩ : CkpShard), (st
     ({ dv with ckp := ⟨[(0xFFFF, (⟨0, 0, 1, [0], false, 64, [], 0, 0, 0, 0, [], [], 0, some (⟨0, [], 1, 0, [], [], [], [], [(⟨0, 0, 0, 0, 1, 0, 0, 0, 0, []⟩ : CkpShard)], false, 0, [], 0, [], [], [], false, []⟩ : CkpRun), none, []⟩ : CkpJob))]⟩ })),
     by decide +kernel, (by decide +kernel), by decide +kernel, (by decide +kernel), by decide +kernel, (by decide +kernel), rfl⟩,
   ⟨_, 0xFFFF, (⟨0, 0, 1, [0], false, 64, [], 0, 0, 0, 0, [], [], 0, some (⟨0, [], 1, 0, [], [], [], [], [(⟨65535, 1, 0, 0, 1, 0, 0, 0, 0, []⟩ :
     CkpShard)], false, 0, [], 0, [], [], [], false, []⟩ : CkpRun), none, []⟩ : CkpJob), (⟨0, [], 1, 0, [], [], [], [], [(⟨65535, 1, 0, 0, 1, 0, 0,
     0, 0, []⟩ : CkpShard)], false, 0, [], 0, [], [], [], false, []⟩ : CkpRun), 65535, 1, (⟨65535, 1, 0, 0, 1, 0, 0, 0, 0, []⟩ : CkpShard), (st
     ({ dv with ckp := ⟨[(0xFFFF, (⟨0, 0, 1, [0], false, 64, [], 0, 0, 0, 0, [], [], 0, some (⟨0, [], 1, 0, [], [], [], [], [(⟨65535, 1, 0, 0, 1, 0, 0, 0, 0, []⟩ : CkpShard)], false, 0, [], 0, [], [], [], false, []⟩ : CkpRun), none, []⟩ : CkpJob))]⟩ })),
     by decide +kernel, (by decide +kernel), by decide +kernel, (by decide +kernel), by decide +kernel, (by decide +kernel), rfl⟩,
   ⟨_, 0xFFFF, (⟨0, 0, 1, [0], false, 64, [], 0, 0, 0, 0, [], [], 0, some (⟨0, [], 1, 0, [], [], [], [], [(⟨65535, 1, 0, 0, 1, 0, 0, 0, 0, []⟩ :
     CkpShard)], false, 0, [], 0, [], [], [], false, []⟩ : CkpRun), none, []⟩ : CkpJob), (⟨0, [], 1, 0, [], [], [], [], [(⟨65535, 1, 0, 0, 1, 0, 0,
     0, 0, []⟩ : CkpShard)], false, 0, [], 0, [], [], [], false, []⟩ : CkpRun), 65535, 1, (⟨65535, 1, 0, 0, 1, 0, 0, 0, 0, []⟩ : CkpShard), (st
     ({ dv with ckp := ⟨[(0xFFFF, (⟨0, 0, 1, [0], false, 64, [], 0, 0, 0, 0, [], [], 0, some (⟨0, [], 1, 0, [], [], [], [], [(⟨65535, 1, 0, 0, 1, 0, 0, 0, 0, []⟩ : CkpShard)], false, 0, [], 0, [], [], [], false, []⟩ : CkpRun), none, []⟩ : CkpJob))]⟩ })),
     by decide +kernel, (by decide +kernel), by decide +kernel, (by decide +kernel), by decide +kernel, rfl⟩,
   ⟨_, 0xFFFF, (⟨0, 0, 2, [0, 3], false, 64, [], 0, 0, 0, 0, [], [], 0, some (⟨0, [], 1, 0, [], [], [], [], [], false, 0, [], 0, [], [], [], false,
     []⟩ : CkpRun), none, []⟩ : CkpJob), (⟨0, [], 1, 0, [], [], [], [], [], false, 0, [], 0, [], [], [], false, []⟩ : CkpRun), 1, 65535, 0, (st
     ({ dv with ckp := ⟨[(0xFFFF, (⟨0, 0, 2, [0, 3], false, 64, [], 0, 0, 0, 0, [], [], 0, some (⟨0, [], 1, 0, [], [], [], [], [], false, 0, [], 0, [], [], [], false, []⟩ : CkpRun), none, []⟩ : CkpJob))]⟩ })),
     by decide +kernel, (by decide +kernel), by decide +kernel, (by decide +kernel), by decide +kernel, (by decide +kernel), by decide +kernel, rfl⟩,
   ⟨_, 0xFFFF, (⟨0, 0, 1, [0], false, 64, [], 0, 0, 0, 0, [], [], 0, some (⟨0, [], 1, 0, [], [], [], [], [], false, 0, [], 0, [(⟨0, 65535, 0, 0,
     false⟩ : CkpAnn)], [], [], false, []⟩ : CkpRun), none, []⟩ : CkpJob), (⟨0, [], 1, 0, [], [], [], [], [], false, 0, [], 0, [(⟨0, 65535, 0, 0,
     false⟩ : CkpAnn)], [], [], false, []⟩ : CkpRun), (⟨0, 65535, 0, 0, false⟩ : CkpAnn), (st
     ({ dv with ckp := ⟨[(0xFFFF, (⟨0, 0, 1, [0], false, 64, [], 0, 0, 0, 0, [], [], 0, some (⟨0, [], 1, 0, [], [], [], [], [], false, 0, [], 0, [(⟨0, 65535, 0, 0, false⟩ : CkpAnn)], [], [], false, []⟩ : CkpRun), none, []⟩ : CkpJob))]⟩ })),
     by decide +kernel, (by decide +kernel), by decide +kernel, (by decide +kernel), by decide +kernel, (by decide +kernel), by decide +kernel,
     (by decide +kernel), rfl⟩,
   ⟨_, 0xFFFF, (⟨0, 0, 1, [0], false, 64, [], 0, 0, 0, 0, [], [], 0, some (⟨0, [], 1, 0, [], [], [], [], [], false, 4, [5], 0, [], [], [], false,
     []⟩ : CkpRun), none, []⟩ : CkpJob), (⟨0, [], 1, 0, [], [], [], [], [], false, 4, [5], 0, [], [], [], false, []⟩ : CkpRun), (st
     ({ dv with ckp := ⟨[(0xFFFF, (⟨0, 0, 1, [0], false, 64, [], 0, 0, 0, 0, [], [], 0, some (⟨0, [], 1, 0, [], [], [], [], [], false, 4, [5], 0, [], [], [], false, []⟩ : CkpRun), none, []⟩ : CkpJob))]⟩ })),
     by decide +kernel, (by decide +kernel), by decide +kernel, (by decide +kernel), by decide +kernel, rfl⟩,
   ⟨_, 0xFFFF, (⟨0, 1, 2, [3, 0], false, 64, [], 0, 0, 0, 0, [], [], 0, some (⟨0, [], 1, 0, [], [], [], [], [], false, 2, [], 0, [], [], [], false,
     []⟩ : CkpRun), none, []⟩ : CkpJob), (⟨0, [], 1, 0, [], [], [], [], [], false, 2, [], 0, [], [], [], false, []⟩ : CkpRun), (st
     ({ dv with ckp := ⟨[(0xFFFF, (⟨0, 1, 2, [3, 0], false, 64, [], 0, 0, 0, 0, [], [], 0, some (⟨0, [], 1, 0, [], [], [], [], [], false, 2, [], 0, [], [], [], false, []⟩ : CkpRun), none, []⟩ : CkpJob))]⟩ })),
     by decide +kernel, (by decide +kernel), by decide +kernel, (by decide +kernel), by decide +kernel, rfl⟩,
   ⟨_, 0xFFFF, (⟨0, 0, 1, [0], false, 64, [], 0, 0, 0, 0, [], [], 0, some (⟨0, [], 1, 0, [], [], [], [], [], false, 0, [], 0, [], [], [], false,
     []⟩ : CkpRun), none, []⟩ : CkpJob), (⟨0, [], 1, 0, [], [], [], [], [], false, 0, [], 0, [], [], [], false, []⟩ : CkpRun), (st
     ({ dv with ckp := ⟨[(0xFFFF, (⟨0, 0, 1, [0], false, 64, [], 0, 0, 0, 0, [], [], 0, some (⟨0, [], 1, 0, [], [], [], [], [], false, 0, [], 0, [], [], [], false, []⟩ : CkpRun), none, []⟩ : CkpJob))]⟩ })),
     by decide +kernel, (by decide +kernel), by decide +kernel, (by decide +kernel), rfl⟩⟩

/-- A state and operands that meet the hypotheses of each clause of SecurityCommandsComplete. -/
theorem wit_securityCommandsComplete :
    (∃ (s : State) (c : Cmd) (r : CmdRec) (q : Req) (off : Nat) (s₀ : State), q = reqOf c r ∧ Started 0x0900 c r s ∧ q.clean [(2, top32), (3,
    0xFF)] = true ∧ off = bufOff (q.w 2).toNat (q.f 3 7 0) ∧ s.dev.bufSealed q.part off 512 = false ∧ (s.dev.bufRead q.part off 512).isSome = true ∧
    s = s₀.reach (cmdKey c)) ∧
    (∃ (s : State) (c : Cmd) (r : CmdRec) (q : Req) (s₀ : State), q = reqOf c r ∧ Started 0x0901 c r s ∧ q.clean [(2, top32), (3, top32)] = true ∧
    s.dev.holdsSet q.part (q.d2 2) = true ∧ s = s₀.reach (evKey 4 0 0)) ∧
    (∃ (s : State) (c : Cmd) (r : CmdRec) (q : Req) (es : List Nat) (h : List Byte) (d : Dev) (s₀ : State), q = reqOf c r ∧ Started 0x0902 c r s ∧
    q.clean [(2, 0x7FFFF), (3, top32)] = true ∧ runOk q.first (q.w 3).toNat = true ∧ es = runExts q.first q.count ∧ s.dev.allMapped q.part es =
    true ∧ s.dev.anyFrozen q.part es = false ∧ es.any (s.dev.extSealed q.part) = false ∧ es.any (s.dev.extIndexed q.part) = false ∧ s.dev.bufRead
    q.part (q.first * 2097152) 4096 = some (h, false) ∧ es.any (fun e => (s.dev.extGrans q.part e).any fun g => s.dev.computeAt (granAddr g)) =
    false ∧ pkgOk h q.count = true ∧ s.dev.holdsSet q.part (leAt h 8 8) = true ∧ d = s.dev.sealRun q.part q.first q.count ∧ s = s₀.reach (cmdKey c)) ∧
    (∃ (s : State) (c : Cmd) (r : CmdRec) (q : Req) (s₀ : State), q = reqOf c r ∧ Started 0x0903 c r s ∧ q.clean [(2, 1), (3, top32), (4, top32), (5,
    top32), (6, top32)] = true ∧ s.dev.sec.debug = false ∧ s.dev.connRoom q.part = true ∧ bitAt (q.w 2).toNat 0 = false ∧ bitAt (s.dev.secPcfg
    q.part) 1 = true ∧ s = s₀.reach (cmdKey c)) ∧
    (∃ (s : State) (c : Cmd) (r : CmdRec) (q : Req) (s₀ : State), q = reqOf c r ∧ Started 0x0903 c r s ∧ q.clean [(2, 1), (3, top32), (4, top32), (5,
    top32), (6, top32)] = true ∧ s.dev.sec.debug = false ∧ s.dev.connRoom q.part = true ∧ bitAt (q.w 2).toNat 0 = true ∧ s.dev.bufSealed q.part (q.d2
    3) 104 = false ∧ (s.dev.bufRead q.part (q.d2 3) 104).isSome = true ∧ s.dev.holdsSet q.part (q.d2 5) = true ∧ s = s₀.reach (cmdKey c)) ∧
    (∃ (s : State) (c : Cmd) (r : CmdRec) (q : Req) (s₀ : State), q = reqOf c r ∧ Started 0x0904 c r s ∧ q.clean [(2, 0x1FFF)] = true ∧ thas
    s.dev.sec.conn (q.part * 65536 + q.f 2 12 0) = true ∧ s.dev.net.qps.any (fun e => e.2.part == q.part && e.2.enc && e.2.st != 0 && e.2.key == q.f
    2 12 0) = false ∧ s = s₀.reach (evKey 4 0 0)) ∧
    (∃ (s : State) (c : Cmd) (r : CmdRec) (q : Req) (s₀ : State), q = reqOf c r ∧ Started 0x0905 c r s ∧ q.clean [(2, top32), (3, top32)] = true ∧
    q.d2 2 % 4096 = 0 ∧ s = s₀.reach (cmdKey c)) ∧
    (∃ (s : State) (c : Cmd) (r : CmdRec) (q : Req) (s₀ : State), q = reqOf c r ∧ Started 0x0906 c r s ∧ q.clean [] = true ∧ s = s₀.reach (cmdKey c)) ∧
    (∃ (s : State) (c : Cmd) (r : CmdRec) (q : Req) (n : List Byte) (s₀ : State), q = reqOf c r ∧ Started 0x0910 c r s ∧ q.clean [] = true ∧ n =
    (List.range 16).map (fun i => Config.randomByte (s.dev.free + i)) ∧ s = s₀.reach (cmdKey c)) ∧
    (∃ (s : State) (c : Cmd) (r : CmdRec) (q : Req) (s₀ : State), q = reqOf c r ∧ q.clean [(2, top32), (3, top32)] = true ∧ Started 0x0911 c r s ∧
    s = s₀.reach (cmdKey c)) ∧
    (∃ (s : State) (c : Cmd) (r : CmdRec) (q : Req) (s₀ : State), q = reqOf c r ∧ q.clean [(2, top32), (3, top32)] = true ∧ Started 0x0912 c r s ∧
    s = s₀.reach (cmdKey c)) ∧
    (∃ (s : State) (c : Cmd) (r : CmdRec) (q : Req) (p : Nat) (s₀ : State), q = reqOf c r ∧ Started 0x0913 c r s ∧ q.clean [(2, 0xF)] = true ∧ p =
    q.f 2 3 0 ∧ ((∀ e ∈ s.dev.ses.tbl, e.1 / 2 ^ 24 = p → e.2.state = .free)) ∧ ((∀ m ∈ s.dev.grid.mdls, m.2.part = p → m.2.st = .registered)) ∧
    (s.fuses.erases[p]?).getD 0 < 64 ∧ s = s₀.reach (evKey 4 0 0)) :=
  ⟨⟨_, (rq 0x0900 [0xE00000, 0]), (rc 0x0900 [0xE00000, 0]), _, _, (sc 0x0900 [0xE00000, 0] (dmap false)), rfl,
     (by unfold Started; decide +kernel), by decide +kernel, rfl, by decide +kernel, (by decide +kernel), rfl⟩,
   ⟨_, (rq 0x0901 [5, 0]), (rc 0x0901 [5, 0]), _, (sc 0x0901 [5, 0] ({ dv with sec := { SecState.reset with sets := [⟨0, 5, []⟩] } })), rfl,
     (by unfold Started; decide +kernel), by decide +kernel, (by decide +kernel), rfl⟩,
   ⟨_, (rq 0x0902 [7, 2]), (rc 0x0902 [7, 2]), _, _, _, _, (sc 0x0902 [7, 2]
     ({ dmap2 (cells 0 (extentAddr 524288) hpk) with sec := { SecState.reset with sets := [⟨0, 5, []⟩] } })), rfl,
     (by unfold Started; decide +kernel), by decide +kernel, (by decide +kernel), rfl, (by decide +kernel), by decide +kernel, (by decide +kernel),
     by decide +kernel, some_get2 (by decide +kernel), by decide +kernel, (by decide +kernel), by decide +kernel, rfl, rfl⟩,
   ⟨_, (rq 0x0903 [0, 0, 0, 0, 0]), (rc 0x0903 [0, 0, 0, 0, 0]), _, (sc 0x0903 [0, 0, 0, 0, 0]
     ({ dv with regs := ⟨[], [(partKey 0 0x0D0018, 2)], [], []⟩ })), rfl, (by unfold Started; decide +kernel), by decide +kernel,
     (by decide +kernel), by decide +kernel, (by decide +kernel), by decide +kernel, rfl⟩,
   ⟨_, (rq 0x0903 [1, 0xE00000, 0, 5, 0]), (rc 0x0903 [1, 0xE00000, 0, 5, 0]), _, (sc 0x0903 [1, 0xE00000, 0, 5, 0]
     ({ dmap false with sec := { SecState.reset with sets := [⟨0, 5, []⟩] } })), rfl, (by unfold Started; decide +kernel), by decide +kernel,
     (by decide +kernel), by decide +kernel, (by decide +kernel), by decide +kernel, (by decide +kernel), by decide +kernel, rfl⟩,
   ⟨_, (rq 0x0904 [0x1FFF]), (rc 0x0904 [0x1FFF]), _, (sc 0x0904 [0x1FFF] ({ dv with sec := { SecState.reset with conn := [(0x1FFF, [])] } })),
     rfl, (by unfold Started; decide +kernel), by decide +kernel, (by decide +kernel), by decide +kernel, rfl⟩,
   ⟨_, (rq 0x0905 [0xFFFFF000, 0xFFFFFFFF]), (rc 0x0905 [0xFFFFF000, 0xFFFFFFFF]), _, (sc 0x0905 [0xFFFFF000, 0xFFFFFFFF] (dv)), rfl,
     (by unfold Started; decide +kernel), by decide +kernel, (by decide +kernel), rfl⟩,
   ⟨_, (rq 0x0906 []), (rc 0x0906 []), _, (sc 0x0906 [] (dv)), rfl, (by unfold Started; decide +kernel), by decide +kernel, rfl⟩,
   ⟨_, (rq 0x0910 []), (rc 0x0910 []), _, _, (sc 0x0910 [] (dv)), rfl, (by unfold Started; decide +kernel), by decide +kernel, rfl, rfl⟩,
   ⟨_, (rq 0x0911 [0xFFFFFFFF, 1]), (rc 0x0911 [0xFFFFFFFF, 1]), _, (sc 0x0911 [0xFFFFFFFF, 1] (dv)), rfl, (by decide +kernel),
     by unfold Started; decide +kernel, rfl⟩,
   ⟨_, (rq 0x0912 [0xFFFFFFFF, 1]), (rc 0x0912 [0xFFFFFFFF, 1]), _, (sc 0x0912 [0xFFFFFFFF, 1] (dv)), rfl, (by decide +kernel),
     by unfold Started; decide +kernel, rfl⟩,
   ⟨_, (rq 0x0913 [15]), (rc 0x0913 [15]), _, _, (sc 0x0913 [15] (dv)), rfl, (by unfold Started; decide +kernel), by decide +kernel, rfl,
     by decide +kernel, (by decide +kernel), by decide +kernel, rfl⟩⟩

/-- A state and operands that meet the hypotheses of each clause of SecurityEventsTakeEffect. -/
theorem wit_securityEventsTakeEffect :
    (∃ (s : State) (f : Fn) (s₀ : State), s.clock.power = true ∧ s.dev.fnLive f = true ∧ 4 < s.dev.boot.stage ∧ ((f.num = 0 ∨ bitAt s.dev.secCfg 1 =
    true)) ∧ s.fuses.rma = false ∧ s.dev.sec.waiting.length < 64 ∧ s = s₀.reach (spdmKey (.doe f))) ∧
    (∃ (s : State) (d : Dev) (t : SigReq) (ts : List SigReq) (body : List Byte) (s₀ : State), s.clock.power = true ∧ d = s.dev.drainEnd (drainId 13
    (2 ^ 40)) ∧ d.sec.waiting = t :: ts ∧ s.fuses.rma = false ∧ body = (if t.kind = 0 then digestBytes (Config.sha512 certChain) ++ digestBytes
    (measureDigest s.ctx d) else measureBlocks s.ctx d (spdmView t.at_)) ∧ t.deferred = true ∧ s = s₀.reach (evKey 5 0 (source 13 0))) ∧
    (∃ (s : State) (d : Dev) (t : SigReq) (ts : List SigReq) (body : List Byte) (s₀ : State), s.clock.power = true ∧ d = s.dev.drainEnd (drainId 13
    (2 ^ 40)) ∧ d.sec.waiting = t :: ts ∧ s.fuses.rma = false ∧ body = (if t.kind = 0 then digestBytes (Config.sha512 certChain) ++ digestBytes
    (measureDigest s.ctx d) else measureBlocks s.ctx d (spdmView t.at_)) ∧ t.deferred = false ∧ s = s₀.reach (evKey 5 0 (source 13 0))) ∧
    (∃ (s : State) (n : Nat) (t : SigReq) (s₀ : State), s.clock.power = true ∧ s.dev.sec.sigs.find? (fun u => u.token == n && u.ready.isNone &&
    !u.deferred && decide (u.since + 12500 ≤ s.clock.now)) = some t ∧ s = s₀.reach (evKey 8 0 (source 13 0))) ∧
    (∃ (s : State) (n : Nat), s.clock.power = true ∧ n = min 15 ((s.dev.power.d + 3) / 4) ∧ n ≠ s.dev.sec.level ∧ s.dev.sec.levelAt ≤ s.clock.now) ∧
    (∃ (s : State) (op p : Nat) (src : CmdSrc) (ab : Bool) (b : List Byte) (off y z : Nat) (k : List Byte) (s₀ : State), s.clock.power = true ∧ tget
    s.dev.ops op = some ⟨src, p, .other 0x0900 off y z, ab⟩ ∧ s.dev.bufRead p off 512 = some (b, false) ∧ s.fuses.rma = false ∧ s.dev.joinCheck s.ctx
    p k = none ∧ s.dev.holdsSet p (leAt k 8 8) = false ∧ s = s₀.reach (evKey 4 0 0)) ∧
    (∃ (s : State) (op p : Nat) (src : CmdSrc) (ab : Bool) (b : List Byte) (off y i : Nat) (s₀ : State), s.clock.power = true ∧ tget s.dev.ops op =
    some ⟨src, p, .other 0x0903 1 off y, ab⟩ ∧ s.dev.bufRead p off 104 = some (b, false) ∧ s.dev.connRoom p = true ∧ (List.range 4096).find? (fun i
    => !thas s.dev.sec.conn (p * 65536 + i + 1)) = some i ∧ s = s₀.reach (evKey 4 0 0)) ∧
    (∃ (s : State) (op p : Nat) (src : CmdSrc) (ab : Bool) (first count : Nat) (o : Opening) (s₀ : State), s.clock.power = true ∧ tget s.dev.ops op =
    some ⟨src, p, .weights first count, ab⟩ ∧ tget s.dev.sec.opens op = some o ∧ s.dev.runHeld op p first count = false ∧ o.stage = 0 ∧ s = s₀.reach
    (evKey 4 0 0)) ∧
    (∃ (s : State) (op p : Nat) (src : CmdSrc) (ab : Bool) (first count : Nat) (o : Opening) (k : List Byte) (d : Dev) (s₀ : State), s.clock.power =
    true ∧ tget s.dev.ops op = some ⟨src, p, .weights first count, ab⟩ ∧ tget s.dev.sec.opens op = some o ∧ s.dev.runHeld op p first count = false ∧
    0 < o.stage ∧ s.dev.bufWrite s.ctx o.part ((o.first + o.stage) * 2097152) ((k ++ List.replicate (chunkLen o.hdr (o.stage - 1)) 0).take (chunkLen
    o.hdr (o.stage - 1))) = some d ∧ o.stage < pkgChunks o.hdr ∧ s = s₀.reach (evKey 4 0 0)) ∧
    (∃ (s : State) (op p : Nat) (src : CmdSrc) (ab : Bool) (first count : Nat) (o : Opening) (k : List Byte) (d : Dev) (s₀ : State), s.clock.power =
    true ∧ tget s.dev.ops op = some ⟨src, p, .weights first count, ab⟩ ∧ tget s.dev.sec.opens op = some o ∧ s.dev.runHeld op p first count = false ∧
    0 < o.stage ∧ s.dev.bufWrite s.ctx o.part ((o.first + o.stage) * 2097152) ((k ++ List.replicate (chunkLen o.hdr (o.stage - 1)) 0).take (chunkLen
    o.hdr (o.stage - 1))) = some d ∧ o.stage = pkgChunks o.hdr ∧ s = s₀.reach (evKey 4 0 0)) :=
  ⟨⟨_, ⟨0, 16⟩, (st { dv with regs := ⟨[], [(devKey 0x0D0100, 2)], [], []⟩ }), by decide +kernel, (by decide +kernel), by decide +kernel,
     (by decide +kernel), by decide +kernel, (by decide +kernel), rfl⟩,
   ⟨_, _, (⟨.doe ⟨0, 0⟩, 0, 1249987500, 255, true, none⟩ : SigReq), [], _, (st
     { dv with sec := { SecState.reset with sigs := [(⟨.doe ⟨0, 0⟩, 0, 1249987500, 255, true, none⟩ : SigReq)] } }), by decide +kernel, rfl,
     by decide +kernel, (by decide +kernel), rfl, (by decide +kernel), rfl⟩,
   ⟨_, _, (⟨.doe ⟨0, 0⟩, 0, 1249987500, 255, false, none⟩ : SigReq), [], _, (st
     { dv with sec := { SecState.reset with sigs := [(⟨.doe ⟨0, 0⟩, 0, 1249987500, 255, false, none⟩ : SigReq)] } }), by decide +kernel, rfl,
     by decide +kernel, (by decide +kernel), rfl, (by decide +kernel), rfl⟩,
   ⟨_, 255, (⟨.doe ⟨0, 0⟩, 0, 1249987500, 255, false, none⟩ : SigReq), (st
     { dv with sec := { SecState.reset with sigs := [(⟨.doe ⟨0, 0⟩, 0, 1249987500, 255, false, none⟩ : SigReq)] } }), by decide +kernel,
     (by decide +kernel), rfl⟩,
   ⟨(st { dv with power := { Power.reset with d := 100 } }), _, by decide +kernel, rfl, by decide +kernel⟩,
   ⟨_, 9, 0, (.ring ⟨0, 0⟩ 0 0), false, _, 0xE00000, 0, 0, keyRec, (st djoin), by decide +kernel, (by decide +kernel), some_get2
     (by decide +kernel), (by decide +kernel), joinCheck_of rfl, (by decide +kernel), rfl⟩,
   ⟨_, 9, 0, (.ring ⟨0, 0⟩ 0 0), false, _, 0xE00000, 0, _, (st
     { dmap false with ops := [(9, ⟨.ring ⟨0, 0⟩ 0 0, 0, .other 0x0903 1 0xE00000 0, false⟩)] }), by decide +kernel, (by decide +kernel), some_get2
     (by decide +kernel), (by decide +kernel), some_get1 (by decide +kernel), rfl⟩,
   ⟨_, 9, 0, (.ring ⟨0, 0⟩ 0 0), false, 7, 2, (⟨0, 7, 2, hpk, 0⟩ : Opening), (st
     { { dmap2 [] with sec := { SecState.reset with opens := [(9, (⟨0, 7, 2, hpk, 0⟩ : Opening))] } } with ops := [(9, ⟨.ring ⟨0, 0⟩ 0 0, 0, .weights 7 2, false⟩)] }),
     by decide +kernel, (by decide +kernel), by decide +kernel, (by decide +kernel), by decide +kernel, rfl⟩,
   ⟨_, 9, 0, (.ring ⟨0, 0⟩ 0 0), false, 7, 2, (⟨0, 7, 2, (leBytes 4 0x31505757 ++ leBytes 2 1 ++ leBytes 2 8 ++ leBytes 8 5 ++ leBytes 8 0 ++
     leBytes 8 1 ++ leBytes 4 2), 1⟩ : Opening), [9], _, (st
     { { dmap2 [] with sec := { SecState.reset with opens := [(9, (⟨0, 7, 2, (leBytes 4 0x31505757 ++ leBytes 2 1 ++ leBytes 2 8 ++ leBytes 8 5 ++ leBytes 8 0 ++ leBytes 8 1 ++ leBytes 4 2), 1⟩ : Opening))] } } with ops := [(9, ⟨.ring ⟨0, 0⟩ 0 0, 0, .weights 7 2, false⟩)] }),
     by decide +kernel, (by decide +kernel), by decide +kernel, (by decide +kernel), by decide +kernel, some_get1 (by decide +kernel),
     by decide +kernel, rfl⟩,
   ⟨_, 9, 0, (.ring ⟨0, 0⟩ 0 0), false, 7, 2, (⟨0, 7, 2, hpk, 1⟩ : Opening), [9], _, (st
     { { dmap2 [] with sec := { SecState.reset with opens := [(9, (⟨0, 7, 2, hpk, 1⟩ : Opening))] } } with ops := [(9, ⟨.ring ⟨0, 0⟩ 0 0, 0, .weights 7 2, false⟩)] }),
     by decide +kernel, (by decide +kernel), by decide +kernel, (by decide +kernel), by decide +kernel, some_get1 (by decide +kernel),
     by decide +kernel, rfl⟩⟩

/-- A state and operands that meet the hypotheses of each clause of MeterRowsTakeEffect.
The hash and the signature check of Config have no body (log entry 6), so that the witness takes an equation for what it uses of them. -/
theorem wit_meterRowsTakeEffect (hd : ∀ b, Config.sha512 b = BitVec.allOnes 512) (hv : ∀ k m s, Config.rsaVerify k m s = true) :
    (∃ (s : State) (dg : BitVec 512) (n : Nat) (fl : MeterFlash), s.clock.power = true ∧ s.meter.st = 0 ∧ n = s.fuses.sealCount ∧ ((dg =
    s.meter.flash.digest ∨ n < 1024)) ∧ fl =
    { s.meter.flash with starts := (s.meter.flash.starts + 1) % 2 ^ 32, digest := dg, sealCount := n + if dg = s.meter.flash.digest then 0 else 1 }) ∧
    (∃ (s : State) (w : Word) (t : State), s.clock.power = true ∧ s.meter.st = 1 ∧ s.meter.checkAt ≤ s.clock.now ∧ t =
    { s with meter := { s.meter with checkAt := s.clock.now + ticksHour } } ∧ w = s.meter.swId) ∧
    (∃ (s : State) (w : Word) (t : State), s.clock.power = true ∧ s.meter.st = 1 ∧ s.meter.checkAt ≤ s.clock.now ∧ t =
    { s with meter := { s.meter with checkAt := s.clock.now + ticksHour } } ∧ w ≠ s.meter.swId) ∧
    (∃ (s : State) (ua : Nat) (s₀ : State), s.clock.power = true ∧ s.meter.st = 1 ∧ s.clock.now % 1000 = 0 ∧ s.clock.now % 125000 ≠ 0 ∧ 50000 ≤ ua ∧
    s.meter.ms.2.1 < 124 ∧ s = s₀.reach (evKey 9 0 0)) ∧
    (∃ (s : State) (e : Nat) (es : List Nat) (m : Meter) (s₀ : State), s.clock.power = true ∧ s.meter.st = 1 ∧ 0 < s.clock.now ∧ s.clock.now %
    125000000 = 0 ∧ s.meter.endAt ≠ s.clock.now ∧ s.meter.readyAt < s.clock.now - 125000000 ∧ e = s.meter.acc / 1000 ∧ es = apportion e s.meter.coeff
    s.meter.tap s.dev.edge ∧ m =
    { s.meter with vMin := 0xFFFFFFFF, vMax := 0, pMax := 0, over_ := false, dbg := false, tap := s.dev.edge, endAt := s.clock.now, acc := s.meter.acc % 1000, seq := s.meter.seq + 1, made := s.meter.made + 1, cum := (s.meter.cum + e) % 2 ^ 64, lastOver := s.meter.over_, lastGap := s.meter.gap, gap := false, newCoeff := false, due := s.meter.due ++ (16 :: s.dev.metered).map fun kind => (kind, s.meter.seq + 1, recordBody s s.meter kind (s.meter.seq + 1) (s.clock.now / 125000000 - 1) e es ((s.meter.cum + e) % 2 ^ 64)), energy := es } ∧
    s = s₀.reach (evKey 9 0 0)) ∧
    (∃ (s : State) (kind n : Nat) (body : List Byte) (l : List (Nat × Nat × List Byte)), s.clock.power = true ∧ s.meter.st = 1 ∧ s.meter.due = (kind,
    n, body) :: l) ∧
    (∃ (s : State) (b : List Byte) (s₀ : State), s.clock.power = true ∧ s.meter.st = 1 ∧ b = s.store.bytes 0x3F00000 576 ∧ packageOk s b = true ∧
    s.fuses.sealCount < 1024 ∧ s = s₀.reach internalKey) ∧
    (∃ (s : State) (b : List Byte) (s₀ : State), s.clock.power = true ∧ s.meter.st = 1 ∧ b = s.store.bytes 0x3F00000 576 ∧ packageOk s b = false ∧
    s = s₀.reach internalKey) ∧
    (∃ (s : State) (co : Coeff) (b : List Byte) (t0 : Nat) (s₀ : State), s.clock.power = true ∧ s.meter.st = 1 ∧ s.meter.staged = some (co, b, t0) ∧
    t0 ≤ s.clock.now ∧ s.clock.now % 125000000 = 0 ∧ s.meter.endAt = s.clock.now ∧ s = s₀.reach (evKey 3 0 (source 14 0))) ∧
    (∃ (s : State) (co : Coeff) (b : List Byte) (t0 : Nat) (s₀ : State), s.clock.power = true ∧ s.meter.st = 1 ∧ s.meter.staged = some (co, b, t0) ∧
    t0 ≤ s.clock.now ∧ s.clock.now % 125000000 = 0 ∧ s.meter.endAt ≠ s.clock.now ∧ 0 < s.clock.now ∧ s = s₀.reach (evKey 3 0 (source 14 0))) ∧
    (∃ (s : State) (s₀ : State) (c : Cmd) (r : CmdRec) (q : Req) (n : Nat) (b : List Byte) (k : Nat), s.clock.power = true ∧ s = s₀.reach (cmdKey
    c) ∧ q = reqOf c r ∧ Started 0x0A00 c r s ∧ q.clean [(2, top32), (3, top32), (4, top32), (5, top32)] = true ∧ q.d2 4 % 64 = 0 ∧ s.meter.st ≠ 2 ∧
    k = kindOf r.fn ∧ s.meter.record k (q.d2 2) = some (n, b)) ∧
    (∃ (s : State) (s₀ : State) (c : Cmd) (r : CmdRec) (q : Req), s.clock.power = true ∧ s = s₀.reach (cmdKey c) ∧ q = reqOf c r ∧ Started 0x0A01 c r
    s ∧ q.clean [] = true) ∧
    (∃ (s : State) (s₀ : State) (c : Cmd) (r : CmdRec) (q : Req), s.clock.power = true ∧ s = s₀.reach (cmdKey c) ∧ q = reqOf c r ∧ q.clean [(2,
    top32), (3, top32)] = true ∧ Started 0x0A02 c r s ∧ q.d2 2 % 4096 = 0) ∧
    (∃ (s : State) (s₀ : State) (c : Cmd) (r : CmdRec) (q : Req), s.clock.power = true ∧ s = s₀.reach (cmdKey c) ∧ q = reqOf c r ∧ q.clean [(2,
    top32), (3, top32)] = true ∧ Started 0x0A03 c r s ∧ q.d2 2 % 64 = 0 ∧ s.meter.st ≠ 2) ∧
    (∃ (s : State) (b : Nat) (n m : Nat) (t : List Byte) (s₀ : State), s.clock.power = true ∧ b < 2 ∧ s.dev.sidebandUp = true ∧ s.meter.st ≠ 2 ∧
    s.meter.record 16 n = some (m, t) ∧ s = s₀.reach internalKey) ∧
    (∃ (s : State) (b : Nat) (n : Nat) (s₀ : State), s.clock.power = true ∧ b < 2 ∧ s.dev.sidebandUp = true ∧ n ≤ 10 ∧ s = s₀.reach internalKey) :=
  ⟨⟨(st dv), 5, _, _, by decide +kernel, (by decide +kernel), rfl, (by decide +kernel), rfl⟩,
   ⟨({ st dv with meter := { Meter.reset ⟨0, 0, 0, []⟩ with st := 1 } }), _, _, by decide +kernel, (by decide +kernel), by decide +kernel, rfl,
     rfl⟩,
   ⟨({ st dv with meter := { Meter.reset ⟨0, 0, 0, []⟩ with st := 1 } }), 1, _, by decide +kernel, (by decide +kernel), by decide +kernel, rfl,
     by decide +kernel⟩,
   ⟨_, 50000, ({ st dv with clock := ⟨1000, 0, true, true, 0⟩, meter := { Meter.reset ⟨0, 0, 0, []⟩ with st := 1, ms := (0, 123, 0) } }),
     by decide +kernel, (by decide +kernel), by decide +kernel, (by decide +kernel), by decide +kernel, (by decide +kernel), rfl⟩,
   ⟨_, _, _, _, ({ st dv with meter := { Meter.reset ⟨0, 0, 0, []⟩ with st := 1 } }), by decide +kernel, (by decide +kernel), by decide +kernel,
     (by decide +kernel), by decide +kernel, (by decide +kernel), rfl, rfl, rfl, rfl⟩,
   ⟨({ st dv with meter := { Meter.reset ⟨0, 0, 0, []⟩ with st := 1, due := [(16, 3, [])] } }), 16, 3, [], [], by decide +kernel⟩,
   ⟨_, _,
     ({ sfl ⟨cells 0xFF 0x3F00000 (leBytes 4 0x31464543 ++ leBytes 4 1 ++ List.replicate 36 0 ++ leBytes 4 3991051951)⟩ dv with meter := { Meter.reset ⟨0, 0, 0, []⟩ with st := 1 } }),
     by decide +kernel, (by decide +kernel), rfl, (by simp only [packageOk, hd, hv]; decide +kernel), by decide +kernel, rfl⟩,
   ⟨_, _, ({ st dv with meter := { Meter.reset ⟨0, 0, 0, []⟩ with st := 1 } }), by decide +kernel, (by decide +kernel), rfl, (by decide +kernel),
     rfl⟩,
   ⟨_, (⟨1, 0, []⟩ : Coeff), [], 1250000000,
     ({ st dv with meter := { Meter.reset ⟨0, 0, 0, []⟩ with st := 1, endAt := 1250000000, staged := some ((⟨1, 0, []⟩ : Coeff), [], 1250000000) } }),
     by decide +kernel, (by decide +kernel), by decide +kernel, (by decide +kernel), by decide +kernel, (by decide +kernel), rfl⟩,
   ⟨_, (⟨1, 0, []⟩ : Coeff), [], 1250000000,
     ({ st dv with meter := { Meter.reset ⟨0, 0, 0, []⟩ with st := 1, staged := some ((⟨1, 0, []⟩ : Coeff), [], 1250000000) } }), by decide +kernel,
     (by decide +kernel), by decide +kernel, (by decide +kernel), by decide +kernel, (by decide +kernel), by decide +kernel, rfl⟩,
   ⟨_,
     ({ sc 0x0A00 [127, 0, 0xFFFFFFC0, 0xFFFFFFFF] dv with meter := { Meter.reset ⟨0, 0, 0, []⟩ with st := 1, window := [(16 * 64 + 63, (127, []))] } }),
     (rq 0x0A00 [127, 0, 0xFFFFFFC0, 0xFFFFFFFF]), (rc 0x0A00 [127, 0, 0xFFFFFFC0, 0xFFFFFFFF]), _, _, _, _, by decide +kernel, rfl, rfl,
     (by unfold Started; decide +kernel), by decide +kernel, (by decide +kernel), by decide +kernel, rfl, some_get2 (by decide +kernel)⟩,
   ⟨_, ({ sc 0x0A01 [] dv with meter := { Meter.reset ⟨0, 0, 0, []⟩ with st := 1 } }), (rq 0x0A01 []), (rc 0x0A01 []), _, by decide +kernel, rfl,
     rfl, by unfold Started; decide +kernel⟩,
   ⟨_, ({ sc 0x0A02 [0xFFFFF000, 0xFFFFFFFF] dv with meter := { Meter.reset ⟨0, 0, 0, []⟩ with st := 1 } }), (rq 0x0A02 [0xFFFFF000, 0xFFFFFFFF]),
     (rc 0x0A02 [0xFFFFF000, 0xFFFFFFFF]), _, by decide +kernel, rfl, rfl, by unfold Started; decide +kernel⟩,
   ⟨_, ({ sc 0x0A03 [0xFFFFFFC0, 0xFFFFFFFF] dv with meter := { Meter.reset ⟨0, 0, 0, []⟩ with st := 1 } }), (rq 0x0A03 [0xFFFFFFC0, 0xFFFFFFFF]),
     (rc 0x0A03 [0xFFFFFFC0, 0xFFFFFFFF]), _, by decide +kernel, rfl, rfl, by unfold Started; decide +kernel⟩,
   ⟨_, 1, 127, _, _, ({ st dv with meter := { Meter.reset ⟨0, 0, 0, []⟩ with st := 1, window := [(16 * 64 + 63, (127, []))] } }),
     by decide +kernel, (by decide +kernel), by decide +kernel, (by decide +kernel), some_get2 (by decide +kernel), rfl⟩,
   ⟨_, 1, 10, (st dv), by decide +kernel, (by decide +kernel), by decide +kernel, (by decide +kernel), rfl⟩⟩

/-- A state and operands that meet the hypotheses of each clause of FirmwareAndHostReadRowsTakeEffect.
The hash and the signature check of Config have no body (log entry 6), so that the witness takes an equation for what it uses of them. -/
theorem wit_firmwareAndHostReadRowsTakeEffect (hd : ∀ b, Config.sha512 b = BitVec.allOnes 512) (hv : ∀ k m s, Config.rsaVerify k m s = true) :
    (∃ (s₀ s : State) (c : Cmd) (r : CmdRec) (q : Req), s = s₀.reach (cmdKey c) ∧ q = reqOf c r ∧ Started 0x0F31 c r s ∧ q.clean [(2, top32), (3,
    top32), (4, top32), (5, top32), (6, 3)] = true ∧ 4 ≤ (q.w 4).toNat ∧ (q.w 4).toNat ≤ 1048576 ∧ (q.w 4).toNat % 4 = 0 ∧ q.f 6 1 0 ≤ 2 ∧ (q.w
    5).toNat + (q.w 4).toNat ≤ (fwTarget s.dev.boot.bank (q.f 6 1 0)).2) ∧
    (∃ (s₀ s : State) (c : Cmd) (r : CmdRec) (q : Req) (n : Nat), s = s₀.reach (cmdKey c) ∧ q = reqOf c r ∧ Started 0x0F32 c r s ∧ q.clean [] =
    true ∧ fwCheck s.ctx s.dev = .ok n) ∧
    (∃ (s₀ s : State) (c : Cmd) (r : CmdRec) (q : Req) (b n off len : Nat), s = s₀.reach (cmdKey c) ∧ q = reqOf c r ∧ Started 0x0F33 c r s ∧ q.clean
    [(2, 1)] = true ∧ b = q.f 2 0 0 ∧ s.store.seq b = some n ∧ s.store.dirOk b = true ∧ s.store.imageAt b 1 = some (off, len)) ∧
    (∃ (s₀ s : State) (c : Cmd) (r : CmdRec) (q : Req), s = s₀.reach (cmdKey c) ∧ q = reqOf c r ∧ Started 0x0F34 c r s ∧ q.clean [] = true ∧
    s.dev.boot.fallback = false) ∧
    (∃ (s : State) (op p : Nat) (src : CmdSrc) (ab : Bool) (b : List Byte) (off len : Nat) (s₀ : State), s.clock.power = true ∧ tget s.dev.ops op =
    some ⟨src, p, .other 0x0F31 1 off len, ab⟩ ∧ b.length = len ∧ s = s₀.reach (evKey 5 0 (source 1 0))) ∧
    (∃ (s : State) (op p : Nat) (src : CmdSrc) (ab : Bool) (b : List Byte) (y z : Nat) (s₀ : State), s.clock.power = true ∧ tget s.dev.ops op = some
    ⟨src, p, .other 0x0912 y z 0, ab⟩ ∧ b.length = 512 ∧ tokenOk s.ctx s.dev 0x31414D52 b = true ∧ s = s₀.reach (evKey 5 0 (source 1 0))) ∧
    (∃ (s : State) (op p : Nat) (src : CmdSrc) (ab : Bool) (k : OpKind) (n : Nat) (st : Completion) (s₀ : State), s.clock.power = true ∧ tget
    s.dev.ops op = some ⟨src, p, k, ab⟩ ∧ readLen k = some n ∧ st ≠ .ok ∧ s = s₀.reach (evKey 5 0 (source 1 0))) :=
  ⟨⟨(sc 0x0F31 [0, 0, 0x100000, 0x1F00000, 0] (dv)), _, (rq 0x0F31 [0, 0, 0x100000, 0x1F00000, 0]), (rc 0x0F31 [0, 0, 0x100000, 0x1F00000, 0]), _,
     rfl, rfl, by unfold Started; decide +kernel⟩,
   ⟨fwS, _, (rq 0x0F32 []), (rc 0x0F32 []), _, _, rfl, rfl, by unfold Started; decide +kernel, (by decide +kernel), fwS_check hd hv rfl rfl rfl⟩,
   ⟨({ sc 0x0F33 [0] dv with fuses := fz, store := flA }), _, (rq 0x0F33 [0]), (rc 0x0F33 [0]), _, _, _, _, _, rfl, rfl,
     by unfold Started; decide +kernel, (by decide +kernel), rfl, some_get1 (by decide +kernel), by decide +kernel, some_get2 (by decide +kernel)⟩,
   ⟨(sc 0x0F34 [] (dv)), _, (rq 0x0F34 []), (rc 0x0F34 []), _, rfl, rfl, by unfold Started; decide +kernel⟩,
   ⟨_, 9, 0, (.ring ⟨0, 0⟩ 0 0), false, [9], 0, 1, (st { dv with ops := [(9, ⟨.ring ⟨0, 0⟩ 0 0, 0, .other 0x0F31 1 0 1, false⟩)] }),
     by decide +kernel, (by decide +kernel), by decide +kernel, rfl⟩,
   ⟨_, 9, 0, (.ring ⟨0, 0⟩ 0 0), false, (List.replicate 512 0), 0, 0,
     ({ st { { dv with sec := { SecState.reset with nonce := some [] } } with ops := [(9, ⟨.ring ⟨0, 0⟩ 0 0, 0, .other 0x0912 0 0 0, false⟩)] } with fuses := fz }),
     by decide +kernel, (by decide +kernel), by decide +kernel, (by simp only [tokenOk, hd, hv]; decide +kernel), rfl⟩,
   ⟨_, 9, 0, (.ring ⟨0, 0⟩ 0 0), false, (.register 4096 []), _, .abort, (st
     { dv with ops := [(9, ⟨.ring ⟨0, 0⟩ 0 0, 0, .register 4096 [], false⟩)] }), by decide +kernel, (by decide +kernel), some_get1
     (by decide +kernel), (by decide +kernel), rfl⟩⟩

/-- A state and operands that meet the hypotheses of each clause of StepRunsTheFrontCommand. -/
theorem wit_stepRunsTheFrontCommand :
    (∃ (s : State), s.pending = []) ∧
    (∃ (s : State), s.clock.power = true ∧ s.clock.tick = true) ∧
    (∃ (s : State), (s.clock.power = false ∨ s.clock.tick = false)) :=
  ⟨⟨(st dv), by decide +kernel⟩,
   ⟨(st dv), by decide +kernel⟩,
   ⟨(off dv), by decide +kernel⟩⟩

/-- A state and operands that meet the hypotheses of each clause of QueueIsKept. -/
theorem wit_queueIsKept :
    (∃ (c : Instr) (s t : State), exec c s = .next t) :=
  ⟨.inputBelow20V, ({ st dv with pending := [.powerGoodFall] }), _, rfl⟩

/-- A state and operands that meet the hypotheses of each clause of StepKeepsStateLegal. -/
theorem wit_stepKeepsStateLegal :
    (∃ (s t : State), s.legal ∧ step s = .next t) :=
  ⟨({ State.reset with pending := [.powerGoodFall] }), _, (by unfold State.legal Fuses.legal Clock.legal; decide +kernel), rfl⟩

/-- A state and operands that meet the hypotheses of each clause of FusesOnlyBurn. -/
theorem wit_fusesOnlyBurn :
    (∃ (c : Instr) (s t : State), s.legal ∧ exec c s = .next t) :=
  ⟨.powerGoodFall, State.reset, _, (by unfold State.legal Fuses.legal Clock.legal; decide +kernel), rfl⟩

/-- A state and operands that meet the hypotheses of each clause of NothingRunsWithoutPower. -/
theorem wit_nothingRunsWithoutPower :
    (∃ (c : Instr) (s : State), s.clock.power = false ∧ isInputRow c = false) ∧
    (∃ (s : State), s.clock.power = false ∧ s.pending = []) :=
  ⟨⟨.meterRecordPublish, (off dv), by decide +kernel⟩,
   ⟨(off dv), by decide +kernel⟩⟩

/-- A state and operands that meet the hypotheses of each clause of OnlyPowerOnSetsDeviceTime. -/
theorem wit_onlyPowerOnSetsDeviceTime :
    (∃ (c : Instr) (s t : State), exec c s = .next t) ∧
    (∃ (s : State) (k : Nat), s.clock.power = true ∧ s.clock.tick = true ∧ s.clock.order ≤ k) ∧
    (∃ (s : State) (k : Nat), s.clock.power = true ∧ s.clock.tick = true ∧ k < s.clock.order) ∧
    (∃ (s : State), (s.clock.power = false ∨ s.clock.tick = false)) ∧
    (∃ (c c' m m' n n' : Nat), m < 8 ∧ n < 65536 ∧ ((c < c' ∨ c = c' ∧ (m < m' ∨ m = m' ∧ n < n')))) ∧
    (∃ (sub port : Nat), sub < 16 ∧ port < 2 ∧ sub + 4 < 16) :=
  ⟨⟨.powerGoodFall, (st dv), _, rfl⟩,
   ⟨(st dv), 0, by decide +kernel⟩,
   ⟨({ st dv with clock := ⟨1250000000, 2000000000, true, true, 7⟩ }), 6, by decide +kernel⟩,
   ⟨(off dv), by decide +kernel⟩,
   ⟨9, 9, 7, 7, 65534, 65535, by decide +kernel⟩,
   ⟨11, 1, by decide +kernel⟩⟩

/-- A state and operands that meet the hypotheses of each clause of OnlyFirmwareRowsWriteTheImageStore. -/
theorem wit_onlyFirmwareRowsWriteTheImageStore :
    (∃ (c : Instr) (s t : State), exec c s = .next t) :=
  ⟨.powerGoodFall, (st dv), _, rfl⟩

/-- A state and operands that meet the hypotheses of each clause of OnlyMeterRowsChangeTheMeter. -/
theorem wit_onlyMeterRowsChangeTheMeter :
    (∃ (c : Instr) (s t : State), exec c s = .next t ∧ isMeterRow c = false ∧ isPowerRow c = false) :=
  ⟨(.timerSlotFire h0 0), (st dv), _, rfl, rfl, rfl⟩

/-- A stalled write of two bytes whose neighbours it leaves. -/
theorem wit_hbmStalledWrite : ∃ (s t : State) (a : Nat) (bs : List Byte) (b n : Nat), Memory.wf s.dev.mem.cells = true ∧
    exec (.stalledWrite a bs) s = .next t ∧ (b + n ≤ a ∨ a + bs.length ≤ b) :=
  ⟨st (dmap2 (cells 0 hbmBase [9])), _, hbmBase + 1, [0, 7], hbmBase, 1, by decide +kernel, rfl, by decide +kernel⟩

/-- A state and operands that meet the hypotheses of each clause of HbmWritesKeepTheForm. -/
theorem wit_hbmWritesKeepTheForm :
    (∃ (s t : State) (ag : Agent) (p a : Nat) (bs : List Byte) (c : Instr) (b n : Nat), Memory.wf s.dev.mem.cells = true ∧ (c = .stalledWrite a bs ∨
    c = .ordinaryWrite ag p a bs) ∧ exec c s = .next t ∧ (b + n ≤ a ∨ a + bs.length ≤ b)) :=
  ⟨(st (dmap2 (cells 0 hbmBase [9]))), _, .ctl, 15, hbmBase, [0, 7], (.ordinaryWrite .ctl 15 hbmBase [0, 7]), (hbmBase + 2), 64,
     by decide +kernel, .inr rfl, rfl, by decide +kernel⟩

/-- A state and operands that meet the hypotheses of each clause of BootBankIsTheNewerValidOne.
The hash and the signature check of Config have no body (log entry 6), so that the witness takes an equation for what it uses of them. -/
theorem wit_bootBankIsTheNewerValidOne (hd : ∀ b, Config.sha512 b = BitVec.allOnes 512) (hv : ∀ k m s, Config.rsaVerify k m s = true) :
    (∃ (s : State) (a b p : Nat), s.clock.power = true ∧ s.dev.boot.stage = 3 ∧ a < 2 ^ 32 ∧ b < 2 ^ 32 ∧ s.store.seq 0 = some a ∧ s.store.seq 1 =
    some b ∧ (((a + 2 ^ 32 - b) % 2 ^ 32 < 2 ^ 31 ∧ p = 0 ∨ (b + 2 ^ 32 - a) % 2 ^ 32 < 2 ^ 31 ∧ p = 1 ∧ a ≠ b)) ∧ s.store.valid s.fuses p = true) ∧
    (∃ (s : State) (a b p : Nat), s.clock.power = true ∧ s.dev.boot.stage = 3 ∧ a < 2 ^ 32 ∧ b < 2 ^ 32 ∧ s.store.seq 0 = some a ∧ s.store.seq 1 =
    some b ∧ (((a + 2 ^ 32 - b) % 2 ^ 32 < 2 ^ 31 ∧ p = 0 ∨ (b + 2 ^ 32 - a) % 2 ^ 32 < 2 ^ 31 ∧ p = 1 ∧ a ≠ b)) ∧ s.store.valid s.fuses p = false ∧
    s.store.valid s.fuses (1 - p) = true) ∧
    (∃ (s : State) (a b p : Nat), s.clock.power = true ∧ s.dev.boot.stage = 3 ∧ a < 2 ^ 32 ∧ b < 2 ^ 32 ∧ s.store.seq 0 = some a ∧ s.store.seq 1 =
    some b ∧ (((a + 2 ^ 32 - b) % 2 ^ 32 < 2 ^ 31 ∧ p = 0 ∨ (b + 2 ^ 32 - a) % 2 ^ 32 < 2 ^ 31 ∧ p = 1 ∧ a ≠ b)) ∧ s.store.valid s.fuses p = false ∧
    s.store.valid s.fuses (1 - p) = false) :=
  ⟨⟨(sfl flA dv3), 0x0, 0xFFFFFFFF, 0, by decide +kernel, (by decide +kernel), by decide +kernel, (by decide +kernel), by decide +kernel,
     (by decide +kernel), by decide +kernel, flA_valid hd hv⟩,
   ⟨(sfl flB dv3), 0xFFFFFFFF, 0x0, 1, by decide +kernel, (by decide +kernel), by decide +kernel, (by decide +kernel), by decide +kernel,
     (by decide +kernel), by decide +kernel, not_valid flB_fault, flB_valid hd hv⟩,
   ⟨(sfl flC dv3), 0x0, 0xFFFFFFFF, 0, by decide +kernel, (by decide +kernel), by decide +kernel, (by decide +kernel), by decide +kernel,
     (by decide +kernel), by decide +kernel, not_valid (by decide +kernel), not_valid (by decide +kernel)⟩⟩

/-- A state and operands that meet the hypotheses of each clause of CheckValueUnitComputesCrc32c. -/
theorem wit_checkValueUnitComputesCrc32c :
    (∃ (s : State) (f : Fn) (s₀ : State), s.clock.power = true ∧ f.num = 0 ∧ s.dev.fnLive f = true ∧ s.dev.boot.state = 6 ∧ s.dev.crc.meter = false ∧
    s.dev.crc.owner = 2 + f.port ∧ s.dev.writable = true ∧ s = s₀.reach (pcieKey f.port)) :=
  ⟨_, ⟨1, 0⟩, (st { dv with crc := { dv.crc with owner := 3 } }), by decide +kernel, (by decide +kernel), by decide +kernel, (by decide +kernel),
     by decide +kernel, (by decide +kernel), by decide +kernel, rfl⟩

/-- A state and operands that meet the hypotheses of each clause of CreditModeRefill. -/
theorem wit_creditModeRefill :
    (∃ (b : Bucket) (f : ShProf) (before waits : Bool) (c0 cap : Int), cap = f.burst * 4096 * 125 ∧ c0 = (if before then b.credit else min b.credit
    0) ∧ waits = true) ∧
    (∃ (b : Bucket) (f : ShProf) (before waits : Bool) (c0 cap : Int), cap = f.burst * 4096 * 125 ∧ c0 = (if before then b.credit else min b.credit
    0) ∧ waits = false ∧ 0 < c0) ∧
    (∃ (b : Bucket) (f : ShProf) (before waits : Bool) (c0 cap : Int), cap = f.burst * 4096 * 125 ∧ c0 = (if before then b.credit else min b.credit
    0) ∧ waits = false ∧ c0 ≤ 0) :=
  ⟨⟨⟨-1, 1, 1, 64, 0⟩, ⟨0x1FFFF, 0x1FFFF, 0xFFFFFFFF⟩, true, true, _, _, rfl, rfl, by decide +kernel⟩,
   ⟨⟨1, 1, 1, 64, 0⟩, ⟨0x1FFFF, 0x1FFFF, 0xFFFFFFFF⟩, true, false, _, _, rfl, rfl, by decide +kernel⟩,
   ⟨⟨0, 1, 1, 64, 0⟩, ⟨0x1FFFF, 0x1FFFF, 0xFFFFFFFF⟩, false, false, _, _, rfl, rfl, by decide +kernel⟩⟩

/-- A state and operands that meet the hypotheses of each clause of MeasurementDigestCoversBlocksOneToTen. -/
theorem wit_measurementDigestCoversBlocksOneToTen :
    (∃ (d e : Dev), e.boot = d.boot ∧ e.sec = d.sec ∧ e.glm = d.glm) :=
  ⟨dv, ({ dv with halted := true }), rfl, rfl, rfl⟩

end Sys2Proof.Tests
end

section
/-! Token buckets at a refill in credit mode (R331). -/

namespace Sys2Proof.Machine

/-- The credit with which a bucket enters a refill: entry to credit mode and exit from it take away what is positive (R331). -/
def Bucket.carried (b : Bucket) (before mode : Bool) : Int := if before = mode then b.credit else min b.credit 0

theorem Bucket.carried_of_change (b : Bucket) {before mode : Bool} (h : before ≠ mode) : b.carried before mode = min b.credit 0 :=
  if_neg h

theorem ShProf.cap_eq (f : ShProf) : f.cap = f.burst * 4096 * 125 := by simp [ShProf.cap]

theorem ShProf.cap_nonneg (f : ShProf) : 0 ≤ f.cap := Int.natCast_nonneg _

/-- What a refill makes of the credit carried into it: outside credit mode and for a waiting unit it rises up to the cap, and for an idle
bucket in credit mode it rises up to zero, where a positive one is lost. -/
theorem Bucket.refill_credit (b : Bucket) (f : ShProf) (before mode waits : Bool) :
    (b.refill f before mode waits).credit = min f.cap
      (if mode = false ∨ waits = true then b.carried before mode + f.rate * 1024
       else if 0 < b.carried before mode then 0
       else min 0 (b.carried before mode + f.rate * 1024)) := by
  have hc : (if (before != mode) = true then min b.credit 0 else b.credit) = b.carried before mode := by
    cases before <;> cases mode <;> rfl
  have hr : ((f.rate * 1024 : Nat) : Int) = f.rate * 1024 := by push_cast; rfl
  simp only [Bucket.refill, hc, hr, gt_iff_lt, Bool.or_eq_true, Bool.not_eq_true']
  split
  · exact min_eq_right (min_le_left _ _)
  · rfl

theorem Bucket.refill_credit_le_cap (b : Bucket) (f : ShProf) (before mode waits : Bool) :
    (b.refill f before mode waits).credit ≤ f.cap := by
  rw [Bucket.refill_credit]
  exact min_le_left _ _

theorem Bucket.refill_credit_of_normal (b : Bucket) (f : ShProf) (before waits : Bool) :
    (b.refill f before false waits).credit = min f.cap (b.carried before false + f.rate * 1024) := by
  rw [Bucket.refill_credit, if_pos (.inl rfl)]

theorem Bucket.refill_credit_of_waits (b : Bucket) (f : ShProf) (before mode : Bool) :
    (b.refill f before mode true).credit = min f.cap (b.carried before mode + f.rate * 1024) := by
  rw [Bucket.refill_credit, if_pos (.inr rfl)]

theorem Bucket.refill_credit_of_idle_pos (b : Bucket) (f : ShProf) {before : Bool} (h : 0 < b.carried before true) :
    (b.refill f before true false).credit = 0 := by
  rw [Bucket.refill_credit, if_neg (by decide), if_pos h]
  exact min_eq_right f.cap_nonneg

theorem Bucket.refill_credit_of_idle_nonpos (b : Bucket) (f : ShProf) {before : Bool} (h : b.carried before true ≤ 0) :
    (b.refill f before true false).credit = min 0 (b.carried before true + f.rate * 1024) := by
  rw [Bucket.refill_credit, if_neg (by decide), if_neg h.not_gt]
  exact min_eq_right ((min_le_left _ _).trans f.cap_nonneg)

@[simp] theorem Bucket.spend_credit (b : Bucket) (bytes : Nat) : (b.spend bytes).credit = b.credit - bytes * 125 := by
  simp [Bucket.spend]

/-- Settles O59: each clause is the refill's law for a waiting unit, for an idle bucket, or for the first refill after credit mode. -/
theorem creditModeRefill : Obligations.CreditModeRefill := by
  unfold Obligations.CreditModeRefill
  intro b f before waits c0 cap hcap hc0
  obtain rfl : cap = f.cap := hcap.trans f.cap_eq.symm
  obtain rfl : c0 = b.carried before true := hc0
  refine ⟨?waits, ?idlePos, ?idleNonpos, b.refill_credit_le_cap f before true waits, ?exit, b.spend_credit⟩
  case waits =>
    rintro rfl
    exact b.refill_credit_of_waits f before true
  case idlePos =>
    rintro rfl h
    exact b.refill_credit_of_idle_pos f h
  case idleNonpos =>
    rintro rfl h
    exact b.refill_credit_of_idle_nonpos f h
  case exit =>
    have hexit : b.carried true false = if b.credit ≤ 0 then b.credit else 0 :=
      (b.carried_of_change (by decide)).trans (min_def _ _)
    rw [b.refill_credit_of_normal, hexit]

end Sys2Proof.Machine
end

section
/-! The current measurement digest: the blocks it covers and the parts of the device it reads (R375, R376, R380). -/

namespace Sys2Proof.Machine

theorem Dev.image_eq_of_boot_eq {d e : Dev} (hboot : e.boot = d.boot) (k : Nat) : e.image k = d.image k := by
  rw [Dev.image, Dev.image, hboot]

theorem fuseState_eq_of_sec_eq (x : Ctx) {d e : Dev} (hsec : e.sec = d.sec) : fuseState x e = fuseState x d := by
  rw [fuseState, fuseState, hsec]

/-- Of the device a measurement block reads the running images, the debug state and the active coefficient bank alone (R375, R376). -/
theorem measurement_eq_of_parts_eq (x : Ctx) {d e : Dev} (hboot : e.boot = d.boot) (hsec : e.sec = d.sec) (hglm : e.glm = d.glm)
    (n : Nat) : measurement x e n = measurement x d n := by
  simp only [measurement, Dev.image_eq_of_boot_eq hboot, fuseState_eq_of_sec_eq x hsec, hglm]

theorem measureDigest_eq_of_parts_eq (x : Ctx) {d e : Dev} (hboot : e.boot = d.boot) (hsec : e.sec = d.sec) (hglm : e.glm = d.glm) :
    measureDigest x e = measureDigest x d := by
  simp only [measureDigest, measurement_eq_of_parts_eq x hboot hsec hglm]

/-- The digest's blocks written out one by one, in index order (R380). -/
theorem measureDigest_eq_sha512_append (x : Ctx) (d : Dev) :
    measureDigest x d = Config.sha512 (measurement x d 1 ++ (measurement x d 2 ++ (measurement x d 3 ++ (measurement x d 4 ++
      (measurement x d 5 ++ (measurement x d 6 ++ (measurement x d 7 ++ (measurement x d 8 ++ (measurement x d 9 ++
        measurement x d 10))))))))) := by
  have hrange : List.range 10 = [0, 1, 2, 3, 4, 5, 6, 7, 8, 9] := by decide
  simp only [measureDigest, hrange, List.flatMap_cons, List.flatMap_nil, List.append_nil, Nat.reduceAdd]

/-- Settles O60: the digest's blocks written out, and each block's dependence on the device. -/
theorem measurementDigestCoversBlocksOneToTen : Obligations.MeasurementDigestCoversBlocksOneToTen := by
  unfold Obligations.MeasurementDigestCoversBlocksOneToTen
  exact ⟨measureDigest_eq_sha512_append, fun x _ _ => measureDigest_eq_of_parts_eq x⟩

end Sys2Proof.Machine
end

section
/-! The boot ROM's choice of a bank (R446) and the end of start-up stage 3 (R447). -/

namespace Sys2Proof.Machine

/-! ### The newer SEQ -/

/-- Of two different SEQs at most one is newer: their two distances add up to 2³², and so are not both below 2³¹ (R446). -/
theorem not_newer_of_newer {a b : Nat} (ha : a < 2 ^ 32) (hb : b < 2 ^ 32) (hne : a ≠ b) (h : (a + 2 ^ 32 - b) % 2 ^ 32 < 2 ^ 31) :
    ¬ (b + 2 ^ 32 - a) % 2 ^ 32 < 2 ^ 31 := by
  have hsum : (a + 2 ^ 32 - b) % 2 ^ 32 + (b + 2 ^ 32 - a) % 2 ^ 32 = 2 ^ 32 := by omega
  omega

theorem ImageStore.preferred_of_seq {s : ImageStore} {a b : Nat} (h0 : s.seq 0 = some a) (h1 : s.seq 1 = some b) :
    s.preferred = if a ≠ b ∧ (b + 2 ^ 32 - a) % 2 ^ 32 < 2 ^ 31 then 1 else 0 := by
  simp only [ImageStore.preferred, h0, h1]

theorem ImageStore.preferred_eq_zero {s : ImageStore} {a b : Nat} (h0 : s.seq 0 = some a) (h1 : s.seq 1 = some b) (ha : a < 2 ^ 32)
    (hb : b < 2 ^ 32) (hnew : (a + 2 ^ 32 - b) % 2 ^ 32 < 2 ^ 31) : s.preferred = 0 := by
  rw [ImageStore.preferred_of_seq h0 h1]
  exact if_neg fun ⟨hne, h⟩ => not_newer_of_newer ha hb hne hnew h

theorem ImageStore.preferred_eq_one {s : ImageStore} {a b : Nat} (h0 : s.seq 0 = some a) (h1 : s.seq 1 = some b) (hne : a ≠ b)
    (hnew : (b + 2 ^ 32 - a) % 2 ^ 32 < 2 ^ 31) : s.preferred = 1 := by
  rw [ImageStore.preferred_of_seq h0 h1]
  exact if_pos ⟨hne, hnew⟩

/-! ### The end of stage 3 -/

/-- The dies once a bank has been taken: its images run, and stage 4 follows. -/
def Dev.tookBank (d : Dev) (x : Ctx) (bank : Nat) (fallback : Bool) : Dev :=
  { d with boot := { d.boot with stage := 4, state := 2, bank := bank, fallback := fallback, images := x.store.running bank } }

section
variable {x : Ctx} {p : Nat}

theorem Dev.pickBank_of_preferred_valid (d : Dev) (hp : x.store.preferred = p) (h : x.store.valid x.fuses p = true) :
    d.pickBank x = d.tookBank x p false := by
  simp only [Dev.pickBank, hp, h, if_true, Dev.bootNext, Dev.tookBank]

theorem Dev.pickBank_of_other_valid (d : Dev) (hp : x.store.preferred = p) (h : x.store.valid x.fuses p = false)
    (ho : x.store.valid x.fuses (1 - p) = true) : d.pickBank x = d.tookBank x (1 - p) true := by
  simp only [Dev.pickBank, hp, h, ho, if_true, Bool.false_eq_true, if_false, Dev.bootNext, Dev.tookBank]

/-- With no valid bank start-up stops in failure state 9, whatever DETAIL says. -/
theorem Dev.pickBank_of_none_valid (d : Dev) (hp : x.store.preferred = p) (h : x.store.valid x.fuses p = false)
    (ho : x.store.valid x.fuses (1 - p) = false) : ∃ (e : Dev) (n : Nat), d.pickBank x = e.bootFail 9 n := by
  simp only [Dev.pickBank, hp, h, ho, Bool.false_eq_true, if_false]
  split
  · exact ⟨_, _, rfl⟩
  · exact ⟨_, _, rfl⟩

end

/-- While power-good is high, the end of stage 3 is the boot ROM's choice, and no failure named for the stage bears on it. -/
theorem exec_startupStageEnd_three {s : State} (f : Option Nat) (hp : s.clock.power = true) (hs : s.dev.boot.stage = 3) :
    exec (.startupStageEnd f) s = .next (s.withDev (s.dev.pickBank s.ctx)) := by
  have hdone : stageDone f s = s.withDev (s.dev.pickBank s.ctx) := by
    simp [stageDone, Dev.stageEnd, hs, State.withDev, State.ctx]
  calc exec (.startupStageEnd f) s = whilePowered (stageDone f) s := rfl
    _ = .next (s.withDev (s.dev.pickBank s.ctx)) := by rw [whilePowered, if_pos hp, hdone]

/-- Settles O57: the newer SEQ makes the preferred bank, and each clause is one outcome of the choice between it and the other bank. -/
theorem bootBankIsTheNewerValidOne : Obligations.BootBankIsTheNewerValidOne := by
  unfold Obligations.BootBankIsTheNewerValidOne
  intro s a b p f hp hs ha hb h0 h1 hnew
  have hpref : s.ctx.store.preferred = p := by
    rcases hnew with ⟨hn, rfl⟩ | ⟨hn, rfl, hne⟩
    · exact ImageStore.preferred_eq_zero h0 h1 ha hb hn
    · exact ImageStore.preferred_eq_one h0 h1 hne hn
  rw [exec_startupStageEnd_three f hp hs]
  refine ⟨fun hv => ?preferred, fun hv ho => ?fallback, fun hv ho => ?fail⟩
  case preferred =>
    rw [s.dev.pickBank_of_preferred_valid hpref hv]
    exact ⟨_, rfl, rfl, rfl, rfl⟩
  case fallback =>
    rw [s.dev.pickBank_of_other_valid hpref hv ho]
    exact ⟨_, rfl, rfl, rfl, rfl⟩
  case fail =>
    obtain ⟨e, n, he⟩ := s.dev.pickBank_of_none_valid hpref hv ho
    rw [he]
    exact ⟨_, rfl, rfl, rfl⟩

end Sys2Proof.Machine
end

section
/-! The check-value unit (R454): its running value, the owner's writes, and a read of CRC_RESULT. -/

namespace Sys2Proof.Machine

/-! ### The running value -/

/-- The unit shifts to the right, so that its polynomial is the standard one with its bits in reverse order. -/
theorem crcPolynomial_reverse : (0x82F63B78#32).reverse = 0x1EDC6F41#32 := by decide +kernel

/-- A byte into the running value is eight bit steps of its exclusive or with the value's low byte. -/
theorem crcByte_eq_foldl (r : Word) (b : Byte) :
    crcByte r b = (List.range 8).foldl (fun v _ => crcBit v) (r ^^^ b.setWidth 32) := rfl

theorem crcRun_leBytes_one (r w : Word) : crcRun r (leBytes 1 w.toNat) = crcByte r (w.setWidth 8) := by
  have hb : BitVec.ofNat 8 w.toNat = w.setWidth 8 := BitVec.ofNat_toNat 8 w
  simp only [leBytes, crcRun, hb]

/-! ### The owner's writes -/

theorem CrcUnit.apply_init_of_owner {c : CrcUnit} {port : Nat} (h : c.owner = crcOwner port) :
    c.apply port (.ctrl false false true) = { c with value := 0xFFFFFFFF#32 } := by
  simp [CrcUnit.apply, h]

theorem CrcUnit.apply_data_of_owner {c : CrcUnit} {port : Nat} (n : Nat) (w : Word) (h : c.owner = crcOwner port) :
    c.apply port (.data n w) = { c with value := crcRun c.value (leBytes n w.toNat) } := by
  simp [CrcUnit.apply, h]

/-- A PF's write takes effect at once where the meter does not hold the unit (R401, R448). -/
theorem crcWrite_of_unheld {f : Fn} {d : Dev} (w : CrcWrite) (x : Ctx) (hf : f.num = 0) (hl : d.fnLive f = true) (hw : d.writable = true)
    (hm : d.crc.meter = false) : crcWrite f w x d = { d with crc := d.crc.apply f.port w } := by
  simp [crcWrite, hf, hl, hw, hm]

theorem exec_crcInit (f : Fn) (s : State) :
    exec (.crcInit f) s = onDev (crcWrite f (.ctrl false false true)) (s.reach (pcieKey f.port)) := rfl

theorem exec_crcIn8 (f : Fn) (w : Word) (s : State) :
    exec (.crcIn8 f w) s = onDev (crcWrite f (.data 1 w)) (s.reach (pcieKey f.port)) := rfl

/-! ### A read of CRC_RESULT -/

/-- The register table's row of CRC_RESULT: read-only, of the PFs alone. -/
def crcResultReg : RegDesc := ⟨"CRC_RESULT", 0x100010, 0x4, 1, false, .dev, [⟨31, 0, .ro, 0, 0, 4294967295⟩]⟩

theorem regAt_crcResult : regAt 0x100010 = some (crcResultReg, 0) := by decide

/-- A PF reads the running value with the final XOR applied. -/
theorem Dev.regRead_crcResult {d : Dev} {f : Fn} (x : Ctx) (hf : f.num = 0) (hb : d.boot.state = 6) :
    d.regRead x f 0x100010 = (d.crc.value ^^^ 0xFFFFFFFF#32).toNat := by
  have hup : d.blockUp 16 = true := by simp [Dev.blockUp, hb]
  have hmsix : isMsix 0x100010 = false := by decide
  simp [Dev.regRead, hup, hmsix, regAt_crcResult, hf, Dev.regVal, Dev.crcVal]

/-- CRC_RESULT has no field that a read clears. -/
theorem Dev.clearRc_crcResult (d : Dev) (f : Fn) (p : Option Nat) (off : Nat) : d.clearRc f p crcResultReg off = d := by
  have hrc : crcResultReg.mask .rc = 0 := by decide
  rw [Dev.clearRc, if_pos hrc]

theorem Dev.latchHi_crcResult (d : Dev) (x : Ctx) (f : Fn) : d.latchHi x f 0x100010 = d := rfl

/-- A read of CRC_RESULT leaves the dies as they were. -/
theorem Dev.readReg_crcResult {d : Dev} {f : Fn} (x : Ctx) (hf : f.num = 0) (hb : d.boot.state = 6) :
    d.readReg x f 0x100010 = ((d.crc.value ^^^ 0xFFFFFFFF#32).toNat, d) := by
  simp only [Dev.readReg, regAt_crcResult, Dev.clearRc_crcResult, ite_self, Dev.latchHi_crcResult, Dev.regRead_crcResult x hf hb]

/-- An aligned 32-bit read of BAR0 is the read of one register (R4). -/
theorem readClear_word {f : Fn} {d : Dev} {off : Nat} (x : Ctx) (hl : d.fnLive f = true) (ho : off % 4 = 0) :
    readClear f .bar0 off 4 x d = (d.readReg x f off).2.out (.readData f (leBytes 4 (d.readReg x f off).1) false) := by
  have hoff : off / 4 * 4 = off := Nat.div_mul_cancel (Nat.dvd_of_mod_eq_zero ho)
  have htake (v : Nat) : (leBytes 4 v).take 4 = leBytes 4 v := rfl
  simp [readClear, barOffset, hl, ho, hoff, htake]

theorem exec_readClearCounter (win : Window) (span : Span) (s : State) :
    exec (.readClearCounter win span) s = onDev (readClear win.fn win.bar span.off span.size) (s.reach (pcieKey win.fn.port)) := rfl

/-- Settles O58: the owner's byte is eight bit steps, INIT sets the initial value, and CRC_RESULT shows the value with the final XOR. -/
theorem checkValueUnitComputesCrc32c : Obligations.CheckValueUnitComputesCrc32c := by
  unfold Obligations.CheckValueUnitComputesCrc32c
  refine ⟨crcPolynomial_reverse, rfl, fun s f w hp hf hl hb hm => ⟨fun hown hw => ⟨?byte, ?init⟩, ?result⟩⟩
  case byte =>
    rintro s₀ rfl
    rw [exec_crcIn8, onDev_powered _ _ hp, crcWrite_of_unheld _ _ hf hl hw hm, CrcUnit.apply_data_of_owner 1 w hown, crcRun_leBytes_one,
      crcByte_eq_foldl]
    rfl
  case init =>
    rintro s₀ rfl
    rw [exec_crcInit, onDev_powered _ _ hp, crcWrite_of_unheld _ _ hf hl hw hm, CrcUnit.apply_init_of_owner hown]
  case result =>
    rintro s₀ rfl
    rw [exec_readClearCounter, onDev_powered _ _ hp, readClear_word _ hl (by decide), Dev.readReg_crcResult _ hf hb]

end Sys2Proof.Machine
end

section
/-! What a row does to the whole state: the one relation between a state at an event's turn and the state after the event, from which the
statements about every row follow. -/

namespace Sys2Proof.Machine

/-! ### The turn of a row -/

/-- The state at the turn of row c: the state as it is, or what `reach` makes of it. The end of a start-up stage has no place of its own in a tick. -/
def Turn (c : Instr) (s u : State) : Prop := u = s ∨ (∃ k, u = s.reach k) ∧ ∀ f, c ≠ .startupStageEnd f

theorem Turn.refl (c : Instr) (s : State) : Turn c s s := .inl rfl

theorem Turn.reach {c : Instr} (s : State) (k : Nat) (h : ∀ f, c ≠ .startupStageEnd f) : Turn c s (s.reach k) := .inr ⟨⟨k, rfl⟩, h⟩

theorem Turn.frame {c : Instr} {s u : State} (h : Turn c s u) :
    u.pending = s.pending ∧ u.fuses = s.fuses ∧ u.store = s.store ∧ u.meter = s.meter := by
  obtain rfl | ⟨⟨k, rfl⟩, -⟩ := h
  · exact ⟨rfl, rfl, rfl, rfl⟩
  · obtain ⟨hp, hf, hs, hm, -⟩ := s.reach_frame k
    exact ⟨hp, hf, hs, hm⟩

/-! ### The effect of a row -/

/-- What row c can make of the state at its turn. Every row keeps the queue; beyond the dies, HBM and NAND each row changes only the part of the
state that its constructor names. -/
inductive RowEffect : Instr → State → State → Prop
  /-- A change of the dies, HBM and NAND only. -/
  | dies {c : Instr} {s : State} (d : Dev) : RowEffect c s (s.withDev d)
  /-- A power-on reset starts (R459). -/
  | powerOn {mv : Nat} {r : Bool} {s : State} (d : Dev) (m : Meter) :
      RowEffect (.powerGoodRise mv r) s { s with clock := ⟨0, s.clock.wall, true, false, 0⟩, dev := d, meter := m }
  /-- Power-good goes low (R462, R463). -/
  | powerOff {c : Instr} {s : State} (hc : isPowerRow c = true) (d : Dev) (m : Meter) :
      RowEffect c s { s with clock := { s.clock with power := false, tick := false }, dev := d, meter := m }
  /-- The end of start-up stage 1 starts device time at zero (R22). -/
  | timeZero {f : Option Nat} {s : State} (hp : s.clock.power = true) (hs : s.dev.boot.stage = 1) (d : Dev) :
      RowEffect (.startupStageEnd f) s { s with clock := { s.clock with tick := true, now := 0, order := 0 }, dev := d }
  /-- The event tick starts or stops, the first only with power. -/
  | ticking {c : Instr} {s : State} (b : Bool) (hb : b = true → s.clock.power = true) (d : Dev) :
      RowEffect c s { s with clock := { s.clock with tick := b }, dev := d }
  /-- The data of a host memory read (R451, R397). -/
  | hostData {op : Nat} {st : Completion} {b : List Byte} {s : State} (k : OpKind) (d : Dev) :
      RowEffect (.hostMemoryReadCompletion op st b) s
        { s with fuses := readFuses s.ctx s.dev b k, store := readStore s.ctx s.dev b k, dev := d }
  /-- The commit record of DEV_FW_ACTIVATE (R443). -/
  | activated {c : Cmd} {s : State} (d : Dev) : RowEffect (.devFwActivate c) s { s with store := fwActivated c s.ctx s.dev, dev := d }
  /-- The fuses of DEV_SVN_COMMIT (R445). -/
  | svn {c : Cmd} {s : State} (d : Dev) : RowEffect (.devSvnCommit c) s { s with fuses := svnFuses c s.ctx s.dev, dev := d }
  /-- The fuse of SEC_PART_ERASE (R389). -/
  | erased {c : Cmd} {s : State} (d : Dev) : RowEffect (.secPartErase c) s { s with fuses := eraseFuses c s.ctx s.dev, dev := d }
  /-- A change of the meter, which may burn a seal (R402). -/
  | metering {c : Instr} {s : State} (hc : isMeterRow c = true) (n : Nat) (hn : n = s.fuses.sealCount ∨ n = s.fuses.sealCount + 1 ∧ n ≤ 1024)
      (d : Dev) (m : Meter) : RowEffect c s { s with fuses := { s.fuses with sealCount := n }, dev := d, meter := m }

theorem RowEffect.refl (c : Instr) (s : State) : RowEffect c s s := .dies s.dev

theorem RowEffect.pending {c : Instr} {s t : State} (h : RowEffect c s t) : t.pending = s.pending := by
  cases h <;> rfl

/-! ### The effects of single rows -/

theorem RowEffect.of_onDev {c : Instr} {f : Ctx → Dev → Dev} {s t : State} (h : onDev f s = .next t) : RowEffect c s t := by
  unfold onDev at h
  obtain rfl := Host.Outcome.next.inj h
  split
  · exact .dies _
  · exact .refl c s

theorem RowEffect.of_whilePowered {c : Instr} {f : State → State} {s t : State} (h : whilePowered f s = .next t)
    (hf : s.clock.power = true → RowEffect c s (f s)) : RowEffect c s t := by
  unfold whilePowered at h
  obtain rfl := Host.Outcome.next.inj h
  split
  case isTrue hp => exact hf hp
  case isFalse => exact .refl c s

theorem RowEffect.of_meter {c : Instr} {f : State → State} {s t : State} (h : onMeter f s = .next t)
    (hf : s.clock.power = true → RowEffect c s (f s)) : RowEffect c s t := RowEffect.of_whilePowered h hf

/-- A change of the meter alone burns nothing. -/
theorem RowEffect.meter {c : Instr} {s : State} (hc : isMeterRow c = true) (m : Meter) : RowEffect c s { s with meter := m } :=
  .metering hc s.fuses.sealCount (.inl rfl) s.dev m

theorem rowEffect_powerUp (mv : Nat) (r : Bool) (s : State) : RowEffect (.powerGoodRise mv r) s (powerUp mv r s) := by
  unfold powerUp
  dsimp only
  split
  · exact .refl _ s
  · exact .powerOn _ _

theorem rowEffect_powerDown {c : Instr} (hc : isPowerRow c = true) (s : State) : RowEffect c s (powerDown s) := .powerOff hc _ _

/-- Power-good goes low after a change of the power input's own state. -/
theorem rowEffect_powerDown_withDev {c : Instr} (hc : isPowerRow c = true) (s : State) (d : Dev) :
    RowEffect c s (if s.clock.power then powerDown (s.withDev d) else s.withDev d) := by
  split
  · exact .powerOff hc _ _
  · exact .dies d

theorem rowEffect_pwrEnSet (level : Bool) (s : State) : RowEffect (.pwrEnChange level) s (pwrEnSet level s) := by
  unfold pwrEnSet
  dsimp only
  split
  · exact .refl _ s
  · split
    · exact .dies _
    · exact rowEffect_powerDown_withDev rfl s _

theorem rowEffect_inputHigh (mv : Nat) (s : State) : RowEffect (.inputVoltageShutdown mv) s (inputHigh mv s) := by
  unfold inputHigh
  split
  · exact .refl _ s
  · exact rowEffect_powerDown_withDev rfl s _

theorem rowEffect_breaker (ma us : Nat) (s : State) : RowEffect (.breakerTrip ma us) s (breaker ma us s) := by
  unfold breaker
  split
  · exact rowEffect_powerDown_withDev rfl s _
  · exact .refl _ s

theorem rowEffect_shutDown (cond : Nat) (s : State) : RowEffect (.shutdown cond) s (shutDown cond s) := by
  unfold shutDown
  split
  · exact .powerOff rfl _ _
  · exact .refl _ s

theorem rowEffect_inputGone (s : State) : RowEffect .inputBelow20V s (inputGone s) := rowEffect_powerDown_withDev rfl s _

theorem rowEffect_stageDone (f : Option Nat) {s : State} (hp : s.clock.power = true) : RowEffect (.startupStageEnd f) s (stageDone f s) := by
  unfold stageDone
  dsimp only
  split
  case isTrue hs => exact .timeZero hp hs _
  case isFalse => exact .dies _

theorem rowEffect_devReset {c : Instr} {s : State} (hp : s.clock.power = true) : RowEffect c s (Machine.devReset s) := by
  unfold Machine.devReset
  split
  · exact .refl c s
  · exact .ticking true (fun _ => hp) _

theorem rowEffect_gridRst (c : Instr) (s : State) : RowEffect c s (gridRst s) := by
  unfold gridRst
  split
  · exact .refl c s
  · exact .dies _

theorem rowEffect_glumeRst (c : Instr) (s : State) : RowEffect c s (glumeRst s) := by
  unfold glumeRst
  split
  · exact .refl c s
  · exact .dies _

theorem rowEffect_tickLoss (c : Instr) (cause : Nat) (s : State) : RowEffect c s (tickLoss cause s) := by
  unfold tickLoss
  split
  · split
    · exact .ticking false nofun _
    · exact .dies _
  · exact .refl c s

theorem rowEffect_hostRead (op : Nat) (st : Completion) (b : List Byte) (s : State) :
    RowEffect (.hostMemoryReadCompletion op st b) s (hostRead op st b s) := by
  unfold hostRead
  split
  · exact .refl _ s
  · split
    · exact .refl _ s
    · dsimp only
      split
      · exact .dies _
      · split
        · exact .refl _ s
        · exact .hostData _ _

/-- The end of a meter record changes the meter alone. -/
theorem recordClose_eq (s : State) : recordClose s = { s with meter := (recordClose s).meter } := by
  unfold recordClose
  dsimp only
  split
  · rfl
  · split <;> rfl

section
variable {c : Instr} (hc : isMeterRow c = true)
include hc

theorem rowEffect_meterFail (cause : Nat) (s : State) : RowEffect c s (meterFail cause s) := .metering hc s.fuses.sealCount (.inl rfl) _ _

theorem rowEffect_meterBoot (ok : Bool) (digest : BitVec 512) (swId : Word) (flashSeal : Nat) (s : State) :
    RowEffect c s (meterBoot ok digest swId flashSeal s) := by
  unfold meterBoot
  dsimp only
  generalize (digest != s.meter.flash.digest) = fresh
  split
  · exact .refl c s
  split
  · exact rowEffect_meterFail hc 1 s
  split
  · exact rowEffect_meterFail hc 3 s
  split
  · exact rowEffect_meterFail hc 2 s
  case isFalse hseal =>
    refine .metering hc _ ?_ _ _
    cases fresh
    case false => exact .inl rfl
    case true =>
      have hlt : s.fuses.sealCount < 1024 := by simpa using hseal
      exact .inr ⟨rfl, hlt⟩

theorem rowEffect_recordClose (s : State) : RowEffect c s (recordClose s) := by
  unfold recordClose
  dsimp only
  split
  · exact .refl c s
  · split
    · exact .meter hc _
    · exact .meter hc _

theorem rowEffect_adcSample (mv ua : Nat) (clipped : Bool) (s : State) : RowEffect c s (adcSample mv ua clipped s) := by
  unfold adcSample
  split
  · exact .refl c s
  · rw [recordClose_eq s]
    exact .meter hc _

theorem rowEffect_recordPublish (s : State) : RowEffect c s (recordPublish s) := by
  unfold recordPublish
  dsimp only
  split
  · exact .refl c s
  · split
    · exact .refl c s
    · exact .meter hc _

theorem rowEffect_swRecheck (w : Word) (s : State) : RowEffect c s (swRecheck w s) := by
  unfold swRecheck
  split
  · exact .refl c s
  · dsimp only
    split
    · exact .meter hc _
    · exact .metering hc s.fuses.sealCount (.inl rfl) _ _

theorem rowEffect_coeffStaged (s : State) : RowEffect c s (coeffStaged s) := by
  unfold coeffStaged
  dsimp only
  split
  · exact .refl c s
  split
  · exact .meter hc _
  case isFalse hseal =>
    have hlt : s.fuses.sealCount < 1024 := by
      rw [not_or] at hseal
      omega
    exact .metering hc _ (.inr ⟨rfl, hlt⟩) _ _

theorem rowEffect_coeffSwap (s : State) : RowEffect c s (coeffSwap s) := by
  unfold coeffSwap
  split
  · exact .refl c s
  · rw [recordClose_eq s]
    exact .meter hc _

end

/-! ### Every row -/

/-- A row that acts at once, in the state at its turn, while power-good is high. -/
theorem rowEffect_if {c : Instr} {s t u : State} (h : Host.Outcome.next (φ := Fault) (ρ := Refusal) (if s.clock.power then u else s) = .next t)
    (hu : RowEffect c s u) : RowEffect c s t := by
  obtain rfl := Host.Outcome.next.inj h
  split
  · exact hu
  · exact .refl c s

theorem not_startup_of_isDevRow {c : Instr} (h : isDevRow c = true) (f : Option Nat) : c ≠ .startupStageEnd f := by
  rintro rfl
  exact Bool.noConfusion h

/-- Every row does what `RowEffect` says to the state at its turn. -/
theorem exec_rowEffect {c : Instr} {s t : State} (h : exec c s = .next t) : ∃ u, Turn c s u ∧ RowEffect c u t := by
  cases hc : isDevRow c with
  | true =>
    obtain ⟨f, g, hg, he⟩ := exec_dev c hc
    refine ⟨g s, ?_, .of_onDev ((he s).symm.trans h)⟩
    exact (hg s).imp id fun hk => ⟨hk, not_startup_of_isDevRow hc⟩
  | false =>
    cases c
    case powerGoodRise mv r => exact ⟨s, .refl _ s, Host.Outcome.next.inj h ▸ rowEffect_powerUp mv r s⟩
    case powerGoodFall => exact ⟨_, .reach s _ nofun, .of_whilePowered h fun _ => rowEffect_powerDown rfl _⟩
    case pwrEnChange l => exact ⟨s, .refl _ s, Host.Outcome.next.inj h ▸ rowEffect_pwrEnSet l s⟩
    case inputVoltageShutdown mv => exact ⟨_, .reach s _ nofun, Host.Outcome.next.inj h ▸ rowEffect_inputHigh mv _⟩
    case breakerTrip ma us => exact ⟨_, .reach s _ nofun, Host.Outcome.next.inj h ▸ rowEffect_breaker ma us _⟩
    case shutdown n => exact ⟨_, .reach s _ nofun, Host.Outcome.next.inj h ▸ rowEffect_shutDown n _⟩
    case inputBelow20V => exact ⟨s, .refl _ s, Host.Outcome.next.inj h ▸ rowEffect_inputGone s⟩
    case startupStageEnd f => exact ⟨s, .refl _ s, .of_whilePowered h (rowEffect_stageDone f)⟩
    case deviceReset => exact ⟨_, .reach s _ nofun, .of_whilePowered h rowEffect_devReset⟩
    case gridReset => exact ⟨_, .reach s _ nofun, .of_whilePowered h fun _ => rowEffect_gridRst _ _⟩
    case glumeReset => exact ⟨_, .reach s _ nofun, .of_whilePowered h fun _ => rowEffect_glumeRst _ _⟩
    case tickLossHalt n => exact ⟨_, .reach s _ nofun, rowEffect_if h (rowEffect_tickLoss _ n _)⟩
    case hostMemoryReadCompletion op st b => exact ⟨_, .reach s _ nofun, rowEffect_if h (rowEffect_hostRead op st b _)⟩
    case devFwActivate k => exact ⟨_, .reach s _ nofun, rowEffect_if h (.activated _)⟩
    case devSvnCommit k => exact ⟨_, .reach s _ nofun, rowEffect_if h (.svn _)⟩
    case secPartErase k => exact ⟨_, .reach s _ nofun, rowEffect_if h (.erased _)⟩
    case meterStart ok d w n => exact ⟨s, .refl _ s, .of_meter h fun _ => rowEffect_meterBoot rfl ok d w n s⟩
    case meterAdcSample mv ua b => exact ⟨_, .reach s _ nofun, .of_meter h fun _ => rowEffect_adcSample rfl mv ua b _⟩
    case meterRecordEnd => exact ⟨_, .reach s _ nofun, .of_meter h fun _ => rowEffect_recordClose rfl _⟩
    case meterRecordPublish => exact ⟨s, .refl _ s, .of_meter h fun _ => rowEffect_recordPublish rfl s⟩
    case swIdRecheck w => exact ⟨s, .refl _ s, .of_meter h fun _ => rowEffect_swRecheck rfl w s⟩
    case coeffPackageStaged => exact ⟨_, .reach s _ nofun, .of_meter h fun _ => rowEffect_coeffStaged rfl _⟩
    case meterCoeffSwap => exact ⟨_, .reach s _ nofun, .of_meter h fun _ => rowEffect_coeffSwap rfl _⟩
    all_goals exact Bool.noConfusion hc

end Sys2Proof.Machine
end

section
/-! The statements about every row: no step stops, the queue is kept, nothing runs without power, and who changes device time, the image
store and the meter. -/

namespace Sys2Proof.Machine

/-! ### Every row answers a next state -/

/-- The rows that change more than the dies, HBM and NAND answer a next state, and change nothing while power-good is low, but for those of the
power input. -/
theorem exec_next_of_not_isDevRow {c : Instr} (hc : isDevRow c = false) (s : State) :
    ∃ t, exec c s = .next t ∧ (s.clock.power = false → isInputRow c = false → t = s) := by
  have hwhile (f : State → State) (k : Nat) : ∃ t, whilePowered f (s.reach k) = .next t ∧ (s.clock.power = false → isInputRow c = false → t = s) := by
    refine ⟨_, rfl, fun hp _ => ?_⟩
    rw [s.reach_unpowered k hp, hp]
    rfl
  have hwhile' (f : State → State) : ∃ t, whilePowered f s = .next t ∧ (s.clock.power = false → isInputRow c = false → t = s) := by
    refine ⟨_, rfl, fun hp _ => ?_⟩
    rw [hp]
    rfl
  have hinput (u : State) (h : isInputRow c = true) :
      ∃ t, Host.Outcome.next (φ := Fault) (ρ := Refusal) u = .next t ∧ (s.clock.power = false → isInputRow c = false → t = s) :=
    ⟨u, rfl, fun _ h' => Bool.noConfusion (h.symm.trans h')⟩
  cases c
  case powerGoodRise | pwrEnChange | inputVoltageShutdown | breakerTrip | inputBelow20V => exact hinput _ rfl
  case startupStageEnd f => exact hwhile' (stageDone f)
  case meterStart ok d w n => exact hwhile' (meterBoot ok d w n)
  case meterRecordPublish => exact hwhile' recordPublish
  case swIdRecheck w => exact hwhile' (swRecheck w)
  case powerGoodFall => exact hwhile powerDown _
  case deviceReset => exact hwhile Machine.devReset _
  case gridReset => exact hwhile gridRst _
  case glumeReset => exact hwhile glumeRst _
  case meterAdcSample mv ua b => exact hwhile (adcSample mv ua b) _
  case meterRecordEnd => exact hwhile recordClose _
  case coeffPackageStaged => exact hwhile coeffStaged _
  case meterCoeffSwap => exact hwhile coeffSwap _
  case tickLossHalt n => exact hwhile (tickLoss n) _
  case hostMemoryReadCompletion op st b => exact hwhile (hostRead op st b) _
  case devFwActivate k => exact hwhile (fun s => { s with store := fwActivated k s.ctx s.dev, dev := runCmd 0x0F32 k fwActivateCmd s.ctx s.dev }) _
  case devSvnCommit k => exact hwhile (fun s => { s with fuses := svnFuses k s.ctx s.dev, dev := runCmd 0x0F34 k svnCommitCmd s.ctx s.dev }) _
  case secPartErase k => exact hwhile (fun s => { s with fuses := eraseFuses k s.ctx s.dev, dev := runCmd 0x0913 k partErase s.ctx s.dev }) _
  case shutdown n =>
    refine ⟨_, rfl, fun hp _ => ?_⟩
    rw [s.reach_unpowered _ hp, shutDown, if_neg fun h => by simp [hp] at h]
  all_goals exact Bool.noConfusion hc

/-- Settles O46: a row of the dies is `onDev`, which always answers a next state, and the other rows are gone through one by one. -/
theorem noCommandStops : Obligations.NoCommandStops := by
  unfold Obligations.NoCommandStops
  intro c s
  cases hc : isDevRow c with
  | true =>
    obtain ⟨f, g, -, he⟩ := exec_dev c hc
    exact ⟨_, he s⟩
  | false =>
    obtain ⟨t, ht, -⟩ := exec_next_of_not_isDevRow hc s
    exact ⟨t, ht⟩

/-- Settles O47: neither the turn of a row nor its effect touches the queue. -/
theorem queueIsKept : Obligations.QueueIsKept := by
  unfold Obligations.QueueIsKept
  intro c s t h
  obtain ⟨u, hturn, heffect⟩ := exec_rowEffect h
  obtain ⟨hpending, -⟩ := hturn.frame
  exact heffect.pending.trans hpending

/-! ### Steps and ticks -/

theorem step_of_pending_nil {s : State} (h : s.pending = []) : step s = .next s.idle := by
  simp only [step, h]

theorem step_of_pending_cons (c : Instr) (cs : List Instr) (s : State) :
    step { s with pending := c :: cs } = exec c { s with pending := cs } := rfl

theorem State.idle_of_ticking {s : State} (hp : s.clock.power = true) (ht : s.clock.tick = true) : s.idle = s.endTick := by
  simp [State.idle, hp, ht]

/-- Without power, or with the event tick stopped, only the model's own count of time goes on. -/
theorem State.idle_of_not_ticking {s : State} (h : s.clock.power = false ∨ s.clock.tick = false) :
    s.idle = { s with clock := { s.clock with wall := s.clock.wall + 1 } } := by
  obtain h | h := h <;> simp [State.idle, h]

theorem devReset_clock (s : State) :
    (Machine.devReset s).clock = s.clock ∨ (Machine.devReset s).clock = { s.clock with tick := true } := by
  unfold Machine.devReset
  split
  · exact .inl rfl
  · exact .inr rfl

theorem gridRst_clock (s : State) : (gridRst s).clock = s.clock := by
  unfold gridRst
  split <;> rfl

theorem glumeRst_clock (s : State) : (glumeRst s).clock = s.clock := by
  unfold glumeRst
  split <;> rfl

/-- A device reset that is due starts the event tick again; the resets that are due change nothing else of the clock. -/
theorem State.dueResets_clock (s : State) : s.dueResets.clock = s.clock ∨ s.dueResets.clock = { s.clock with tick := true } := by
  rw [State.dueResets, glumeRst_clock, gridRst_clock]
  exact devReset_clock s

theorem State.dueResets_clock_of_ticking {s : State} (ht : s.clock.tick = true) : s.dueResets.clock = s.clock := by
  obtain h | h := s.dueResets_clock
  · exact h
  · rw [h, ← ht]

theorem State.dueSwaps_clock (s : State) : s.dueSwaps.clock = s.clock := rfl

theorem State.endTick_clock_of_ticking {s : State} (ht : s.clock.tick = true) :
    s.endTick.clock = { s.clock with now := (s.clock.now + 1) % 2 ^ 64, wall := s.clock.wall + 1, order := 0 } := by
  simp only [State.endTick, State.dueSwaps_clock, State.dueResets_clock_of_ticking ht]

/-- Settles O45: the step's two cases, and the tick with and without the event tick running. -/
theorem stepRunsTheFrontCommand : Obligations.StepRunsTheFrontCommand := by
  unfold Obligations.StepRunsTheFrontCommand
  refine ⟨step_of_pending_cons, fun s => step_of_pending_nil, fun s => ?_⟩
  by_cases h : s.clock.power = true ∧ s.clock.tick = true
  · obtain ⟨hp, ht⟩ := h
    obtain ⟨hpending, hfuses, hstore, hmeter, -⟩ := s.endTick_frame
    rw [State.idle_of_ticking hp ht, State.endTick_clock_of_ticking ht]
    refine ⟨hpending, hfuses, hstore, hmeter, rfl, rfl, fun _ _ => ⟨rfl, rfl, ht⟩, ?_⟩
    rintro (h | h)
    · exact Bool.noConfusion (h.symm.trans hp)
    · exact Bool.noConfusion (h.symm.trans ht)
  · have hoff : s.clock.power = false ∨ s.clock.tick = false := by simpa [imp_iff_not_or] using h
    rw [State.idle_of_not_ticking hoff]
    exact ⟨rfl, rfl, rfl, rfl, rfl, rfl, fun hp ht => absurd ⟨hp, ht⟩ h, fun _ => ⟨rfl, rfl⟩⟩

/-- Settles O51: without power a row of the dies is the identity, and the other rows are gone through one by one. -/
theorem nothingRunsWithoutPower : Obligations.NothingRunsWithoutPower := by
  unfold Obligations.NothingRunsWithoutPower
  refine ⟨fun c s hp hinput => ?_, fun s hp hs => ?_⟩
  · cases hc : isDevRow c with
    | true =>
      obtain ⟨f, g, hg, he⟩ := exec_dev c hc
      have hgs : g s = s := (hg s).elim id fun ⟨k, hk⟩ => hk.trans (s.reach_unpowered k hp)
      rw [he, hgs, onDev_unpowered f s hp]
    | false =>
      obtain ⟨t, ht, hsame⟩ := exec_next_of_not_isDevRow hc s
      rw [ht, hsame hp hinput]
  · rw [step_of_pending_nil hs, State.idle_of_not_ticking (.inl hp)]
    exact ⟨_, rfl, rfl, rfl, rfl⟩

/-! ### The image store and the meter -/

/-- Settles O53: of all effects only those of DEV_FW_ACTIVATE and of read data name the image store. -/
theorem onlyFirmwareRowsWriteTheImageStore : Obligations.OnlyFirmwareRowsWriteTheImageStore := by
  unfold Obligations.OnlyFirmwareRowsWriteTheImageStore
  intro c s t h
  obtain ⟨u, hturn, heffect⟩ := exec_rowEffect h
  obtain ⟨-, -, hstore, -⟩ := hturn.frame
  cases heffect with
  | activated d => exact .inr (.inl ⟨_, rfl⟩)
  | hostData k d => exact .inr (.inr ⟨_, _, _, rfl⟩)
  | dies | powerOn | powerOff | timeZero | ticking | svn | erased | metering => exact .inl hstore

/-- Settles O54: of all effects only those of a change of power and of the meter's rows name the meter. -/
theorem onlyMeterRowsChangeTheMeter : Obligations.OnlyMeterRowsChangeTheMeter := by
  unfold Obligations.OnlyMeterRowsChangeTheMeter
  intro c s t h hnm hnp
  obtain ⟨u, hturn, heffect⟩ := exec_rowEffect h
  obtain ⟨-, -, -, hmeter⟩ := hturn.frame
  cases heffect with
  | powerOn => exact Bool.noConfusion hnp
  | powerOff hc => exact Bool.noConfusion (hnp.symm.trans hc)
  | metering hc => exact Bool.noConfusion (hnm.symm.trans hc)
  | dies | timeZero | ticking | hostData | activated | svn | erased => exact hmeter

/-! ### Device time -/

/-- The clock that an event of place k meets while the event tick runs: a place that has passed belongs to the next tick. -/
theorem State.reach_clock_of_ticking {s : State} (hp : s.clock.power = true) (ht : s.clock.tick = true) (k : Nat) :
    (s.reach k).clock = { (if k < s.clock.order then s.endTick else s).clock with order := k } := by
  generalize hu : (if k < s.clock.order then s.endTick else s) = u
  have htu : u.clock.tick = true := by
    subst hu
    split
    · rw [State.endTick_clock_of_ticking ht]
      exact ht
    · exact ht
  have hresets : (if evKey 3 0 0 ≤ k then u.dueResets else u).clock = u.clock := by
    split
    · exact State.dueResets_clock_of_ticking htu
    · rfl
  have hswaps (v : State) : (if evKey 4 0 0 ≤ k then v.dueSwaps else v).clock = v.clock := by
    split
    · exact v.dueSwaps_clock
    · rfl
  simp only [State.reach, hp, ht, Bool.and_self, if_true, hu, hswaps, hresets]

theorem State.reach_of_not_ticking {s : State} (h : s.clock.power = false ∨ s.clock.tick = false) (k : Nat) : s.reach k = s := by
  obtain h | h := h <;> simp [State.reach, h]

/-- The clock at the turn of an event is that of the state, or that of its next tick, but for the place in the order. -/
theorem State.reach_clock (s : State) (k : Nat) :
    s.reach k = s ∨ s.clock.power = true ∧ s.clock.tick = true ∧
      ((s.reach k).clock = { s.clock with order := k } ∨
        (s.reach k).clock = { s.clock with now := (s.clock.now + 1) % 2 ^ 64, wall := s.clock.wall + 1, order := k }) := by
  by_cases h : s.clock.power = true ∧ s.clock.tick = true
  · obtain ⟨hp, ht⟩ := h
    refine .inr ⟨hp, ht, ?_⟩
    rw [State.reach_clock_of_ticking hp ht]
    split
    · rw [State.endTick_clock_of_ticking ht]
      exact .inr rfl
    · exact .inl rfl
  · exact .inl (State.reach_of_not_ticking (by simpa [imp_iff_not_or] using h) k)

/-- Device time at the turn of a row. -/
theorem Turn.now {c : Instr} {s u : State} (h : Turn c s u) :
    u.clock.now = s.clock.now ∨ s.clock.power = true ∧ s.clock.tick = true ∧ u.clock.now = (s.clock.now + 1) % 2 ^ 64 := by
  obtain rfl | ⟨⟨k, rfl⟩, -⟩ := h
  · exact .inl rfl
  · obtain h | ⟨hp, ht, h | h⟩ := s.reach_clock k
    · exact .inl (by rw [h])
    · exact .inl (by rw [h])
    · exact .inr ⟨hp, ht, by rw [h]⟩

/-- The end of a start-up stage acts in the state as it is. -/
theorem Turn.eq_of_startupStageEnd {f : Option Nat} {s u : State} (h : Turn (.startupStageEnd f) s u) : u = s :=
  h.elim id fun h => absurd rfl (h.2 f)

/-- Places in the order of R24: class by class, then by where an arrival comes from, then by SOURCE. -/
theorem evKey_lt {c c' m m' n n' : Nat} (hm : m < 8) (hn : n < 65536) (h : c < c' ∨ c = c' ∧ (m < m' ∨ m = m' ∧ n < n')) :
    evKey c m n < evKey c' m' n' := by
  unfold evKey
  omega

/-- Arrivals: those from the network before those of the PCI Express ports, and internal ones last. -/
theorem arrival_keys_lt {sub : Nat} (hsub : sub < 16) (port : Nat) :
    netKey sub < pcieKey port ∧ pcieKey port < internalKey ∧ (sub + 4 < 16 → netKey sub < netKey (sub + 4)) := by
  refine ⟨evKey_lt ?_ ?_ ?_, evKey_lt ?_ ?_ ?_, fun h => evKey_lt ?_ ?_ ?_⟩ <;> omega

/-- Settles O52: device time at the turn of a row, the two effects that start it at zero, and the places in the order. -/
theorem onlyPowerOnSetsDeviceTime : Obligations.OnlyPowerOnSetsDeviceTime := by
  unfold Obligations.OnlyPowerOnSetsDeviceTime
  refine ⟨fun c s t h => ?rows, fun s k hp ht => ?ticking, fun s k h => State.reach_of_not_ticking h k, fun _ _ _ _ _ _ => evKey_lt,
    fun _ port hsub _ => arrival_keys_lt hsub port, by decide⟩
  case rows =>
    obtain ⟨u, hturn, heffect⟩ := exec_rowEffect h
    cases heffect with
    | powerOn => exact .inr (.inr ⟨rfl, .inl ⟨_, _, rfl⟩⟩)
    | timeZero hp hs =>
      obtain rfl := hturn.eq_of_startupStageEnd
      exact .inr (.inr ⟨rfl, .inr ⟨_, rfl, hs⟩⟩)
    | dies | powerOff | ticking | hostData | activated | svn | erased | metering => exact hturn.now.imp id .inl
  case ticking =>
    rw [State.reach_clock_of_ticking hp ht]
    refine ⟨rfl, fun hle => ?_, fun hlt => ?_⟩
    · rw [if_neg hle.not_gt]
    · rw [if_pos hlt, State.endTick_clock_of_ticking ht]

end Sys2Proof.Machine
end

section
/-! What every step keeps of the fuses, the clock and the image store, and the state right after reset. -/

namespace Sys2Proof.Machine

/-! ### The fuses -/

theorem Fuses.legal_toRma {f : Fuses} (h : f.legal) : f.toRma.legal := by
  obtain ⟨-, hrest⟩ := h
  exact ⟨.inr rfl, hrest⟩

theorem Fuses.legal_sealCount {f : Fuses} {n : Nat} (h : f.legal) (hn : n ≤ 1024) : ({ f with sealCount := n } : Fuses).legal := by
  obtain ⟨hcycle, hroots, hlen, hfloors, -, herases⟩ := h
  exact ⟨hcycle, hroots, hlen, hfloors, hn, herases⟩

/-- A floor field is the greater of what it was and at most 64 (R445). -/
theorem Fuses.legal_svn {f : Fuses} (d : Dev) (h : f.legal) : (f.svn d).legal := by
  obtain ⟨hcycle, hroots, -, hfloors, hseal, herases⟩ := h
  refine ⟨hcycle, (List.length_mapIdx).trans hroots, by simp [Fuses.svn, svnFloors], fun n hn => ?_, hseal, herases⟩
  obtain ⟨i, -, rfl⟩ := List.mem_map.1 hn
  have hold : (f.floors[i]?).getD 0 ≤ 64 := by
    cases hi : f.floors[i]? with
    | none => exact Nat.zero_le _
    | some m => exact hfloors m (List.mem_of_getElem? hi)
  exact max_le hold (min_le_left _ _)

/-- SEC_PART_ERASE counts an erase only below 64 (R389). -/
theorem Fuses.legal_erase {f : Fuses} {p : Nat} (h : f.legal) (hp : (f.erases[p]?).getD 0 < 64) : (f.erase p).legal := by
  obtain ⟨hcycle, hroots, hlen, hfloors, hseal, hcount, herases⟩ := h
  refine ⟨hcycle, hroots, hlen, hfloors, hseal, (List.length_set).trans hcount, fun n hn => ?_⟩
  obtain hn | rfl := List.mem_or_eq_of_mem_set hn
  · exact herases n hn
  · exact hp

theorem erases_lt_of_eraseCheck {x : Ctx} {q : Req} {d : Dev} (h : (eraseCheck x q d).isNone = true) :
    (x.fuses.erases[q.f 2 3 0]?).getD 0 < 64 := by
  unfold eraseCheck at h
  dsimp only at h
  split at h
  · exact Bool.noConfusion h
  split at h
  · exact Bool.noConfusion h
  split at h
  · exact Bool.noConfusion h
  case isFalse hlt => exact Nat.lt_of_not_le hlt

theorem legal_eraseFuses (c : Cmd) {x : Ctx} (d : Dev) (h : x.fuses.legal) : (eraseFuses c x d).legal := by
  unfold eraseFuses
  split
  · exact h
  · dsimp only
    split
    case isTrue hcheck => exact Fuses.legal_erase h (erases_lt_of_eraseCheck hcheck)
    case isFalse => exact h

theorem legal_svnFuses (c : Cmd) {x : Ctx} (d : Dev) (h : x.fuses.legal) : (svnFuses c x d).legal := by
  unfold svnFuses
  split
  · split
    · exact Fuses.legal_svn d h
    · exact h
  · exact h

theorem legal_readFuses {x : Ctx} (d : Dev) (b : List Byte) (k : OpKind) (h : x.fuses.legal) : (readFuses x d b k).legal := by
  unfold readFuses
  split
  · split
    · exact Fuses.legal_toRma h
    · exact h
  · exact h

/-! ### The image store -/

theorem ImageStore.ok_iff (s : ImageStore) : s.ok = true ↔ Tbl.wf s.flash = true ∧ (s.flash.all fun e => e.2 != 0xFF) = true :=
  Bool.and_eq_true_iff

/-- An erased byte is taken out of the list, and any other is put there. -/
theorem ImageStore.ok_flashPut {s : ImageStore} (a : Nat) (b : Byte) (h : s.ok = true) : (⟨flashPut s.flash a b⟩ : ImageStore).ok = true := by
  obtain ⟨hwf, hall⟩ := s.ok_iff.1 h
  refine (ImageStore.ok_iff _).2 ⟨wf_flashPut _ a b hwf, ?_⟩
  unfold flashPut
  split
  case isTrue => exact List.all_eq_true.2 fun e he => List.all_eq_true.1 hall e (mem_tdel he)
  case isFalse hb => exact all_tset (bne_iff_ne.2 hb) hall

theorem ImageStore.ok_write {s : ImageStore} (a : Nat) (bs : List Byte) (h : s.ok = true) : (s.write a bs).ok = true := by
  induction bs generalizing s a with
  | nil => exact h
  | cons b bs ih => exact ih _ (ImageStore.ok_flashPut a b h)

theorem ok_fwStore (d : Dev) {s : ImageStore} (t off : Nat) (b : List Byte) (h : s.ok = true) : (fwStore d s t off b).ok = true := by
  unfold fwStore
  dsimp only
  split
  · exact ImageStore.ok_write _ _ (ImageStore.ok_write _ _ h)
  · exact ImageStore.ok_write _ _ h

theorem ok_readStore {x : Ctx} (d : Dev) (b : List Byte) (k : OpKind) (h : x.store.ok = true) : (readStore x d b k).ok = true := by
  unfold readStore
  split
  · exact ok_fwStore d _ _ b h
  · exact h

theorem ok_fwActivated (c : Cmd) {x : Ctx} (d : Dev) (h : x.store.ok = true) : (fwActivated c x d).ok = true := by
  unfold fwActivated
  split
  · exact h
  · dsimp only
    split
    · exact ImageStore.ok_write _ _ h
    · exact h

/-! ### The clock -/

theorem now_succ_lt (n : Nat) : (n + 1) % 2 ^ 64 < 2 ^ 64 := Nat.mod_lt _ (Nat.two_pow_pos 64)

theorem State.legal_clock_reach {s : State} (h : s.clock.legal) (k : Nat) : (s.reach k).clock.legal := by
  obtain ⟨htick, hnow⟩ := h
  obtain hr | ⟨-, -, hr | hr⟩ := s.reach_clock k
  · rw [hr]
    exact ⟨htick, hnow⟩
  · rw [hr]
    exact ⟨htick, hnow⟩
  · rw [hr]
    exact ⟨htick, now_succ_lt _⟩

theorem State.legal_clock_idle {s : State} (h : s.clock.legal) : s.idle.clock.legal := by
  obtain ⟨htick, hnow⟩ := h
  by_cases hpt : s.clock.power = true ∧ s.clock.tick = true
  · obtain ⟨hp, ht⟩ := hpt
    rw [State.idle_of_ticking hp ht, State.endTick_clock_of_ticking ht]
    exact ⟨htick, now_succ_lt _⟩
  · rw [State.idle_of_not_ticking (by simpa [imp_iff_not_or] using hpt)]
    exact ⟨htick, hnow⟩

/-! ### Every row and every step -/

theorem Turn.legal {c : Instr} {s u : State} (hturn : Turn c s u) (h : s.legal) : u.legal := by
  obtain ⟨-, hfuses, hstore, -⟩ := hturn.frame
  obtain ⟨hf, hc, hs⟩ := h
  refine ⟨hfuses ▸ hf, ?_, hstore ▸ hs⟩
  obtain rfl | ⟨⟨k, rfl⟩, -⟩ := hturn
  · exact hc
  · exact State.legal_clock_reach hc k

/-- Each effect keeps the three parts of a legal state; only the parts that it names have to be looked at. -/
theorem RowEffect.legal {c : Instr} {s t : State} (heffect : RowEffect c s t) (h : s.legal) : t.legal := by
  obtain ⟨hf, ⟨htick, hnow⟩, hs⟩ := h
  cases heffect with
  | dies => exact ⟨hf, ⟨htick, hnow⟩, hs⟩
  | powerOn => exact ⟨hf, ⟨nofun, Nat.two_pow_pos 64⟩, hs⟩
  | powerOff => exact ⟨hf, ⟨nofun, hnow⟩, hs⟩
  | timeZero hp => exact ⟨hf, ⟨fun _ => hp, Nat.two_pow_pos 64⟩, hs⟩
  | ticking b hb => exact ⟨hf, ⟨hb, hnow⟩, hs⟩
  | hostData k => exact ⟨legal_readFuses s.dev _ k hf, ⟨htick, hnow⟩, ok_readStore s.dev _ k hs⟩
  | activated => exact ⟨hf, ⟨htick, hnow⟩, ok_fwActivated _ s.dev hs⟩
  | svn => exact ⟨legal_svnFuses _ s.dev hf, ⟨htick, hnow⟩, hs⟩
  | erased => exact ⟨legal_eraseFuses _ s.dev hf, ⟨htick, hnow⟩, hs⟩
  | metering hc n hn =>
    obtain ⟨-, -, -, -, hseal, -⟩ := id hf
    have hle : n ≤ 1024 := hn.elim (fun h => h ▸ hseal) And.right
    exact ⟨Fuses.legal_sealCount hf hle, ⟨htick, hnow⟩, hs⟩

theorem exec_keeps_legal {c : Instr} {s t : State} (h : s.legal) (ht : exec c s = .next t) : t.legal := by
  obtain ⟨u, hturn, heffect⟩ := exec_rowEffect ht
  exact heffect.legal (hturn.legal h)

theorem State.legal_idle {s : State} (h : s.legal) : s.idle.legal := by
  obtain ⟨hf, hc, hs⟩ := h
  obtain ⟨-, -, hframe⟩ := stepRunsTheFrontCommand
  obtain ⟨-, hfuses, hstore, -⟩ := hframe s
  exact ⟨hfuses ▸ hf, State.legal_clock_idle hc, hstore ▸ hs⟩

/-- Settles O49: a step is a tick or a row, and both keep each of the three parts. -/
theorem stepKeepsStateLegal : Obligations.StepKeepsStateLegal := by
  unfold Obligations.StepKeepsStateLegal
  intro s t h ht
  cases hs : s.pending with
  | nil =>
    rw [step_of_pending_nil hs] at ht
    obtain rfl := Host.Outcome.next.inj ht
    exact State.legal_idle h
  | cons c cs =>
    simp only [step, hs] at ht
    exact exec_keeps_legal (s := { s with pending := cs }) h ht

theorem Fuses.legal_reset : Fuses.reset.legal := by
  refine ⟨.inl rfl, rfl, rfl, ?_, Nat.zero_le _, List.length_replicate, ?_⟩
  · simp [Fuses.reset]
  · simp [Fuses.reset]

theorem State.legal_reset : State.reset.legal := ⟨Fuses.legal_reset, ⟨nofun, Nat.two_pow_pos 64⟩, rfl⟩

/-- Settles O48: each field as it is given, the fuses' ranges, and the memories in canonical form. -/
theorem resetState : Obligations.ResetState := by
  unfold Obligations.ResetState
  exact ⟨rfl, rfl, rfl, rfl, rfl, rfl, rfl, rfl, rfl, rfl, rfl, rfl, State.legal_reset, State.reset_memoriesOk⟩

end Sys2Proof.Machine
end

section
/-! Replies change nothing but rings, records and the commands outstanding (R51, R52). -/

namespace Sys2Proof.Machine

/-- What reading HBM rests on is not among the things that replies change. -/
theorem Dev.hbmRead_eq_of_rest_eq {d e : Dev} (h : d.rest = e.rest) (a n : Nat) : d.hbmRead a n = e.hbmRead a n := by
  have hmem : d.mem = e.mem := (congrArg Dev.mem h :)
  rw [Dev.hbmRead, Dev.hbmRead, hmem]

theorem State.answered_rest (s : State) (r : CmdRec) (st : Status) (res : List Word) (d : Dev) : (s.answered r st res d).dev.rest = d.rest :=
  Dev.rest_endCmd ..

theorem State.acceptedDone_rest (s : State) (r : CmdRec) (res : List Word) (st : Status) (fin : List Word) (d : Dev) :
    (s.acceptedDone r res st fin d).dev.rest = d.rest :=
  (Dev.rest_endCmd ..).trans (Dev.rest_reply ..)

/-- An acceptance also keeps the operation, and nothing else. -/
theorem State.acceptedAs_rest (s : State) (c : Cmd) (r : CmdRec) (res : List Word) (k : OpKind) (d : Dev) :
    ({ (s.acceptedAs c r res k d).dev.rest with ops := d.ops } : Dev) = d.rest := by
  have hreply := Dev.rest_reply d s.ctx r .accepted res
  calc ({ (s.acceptedAs c r res k d).dev.rest with ops := d.ops } : Dev)
      = { (d.reply s.ctx r .accepted res).rest with ops := d.ops } := rfl
    _ = { d.rest with ops := d.ops } := by rw [hreply]
    _ = d.rest := rfl

theorem State.acceptedAs_hbmRead (s : State) (c : Cmd) (r : CmdRec) (res : List Word) (k : OpKind) (d : Dev) (a n : Nat) :
    (s.acceptedAs c r res k d).dev.hbmRead a n = d.hbmRead a n :=
  Dev.hbmRead_eq_of_rest_eq (d := d.reply s.ctx r .accepted res) (Dev.rest_reply ..) a n

/-- Settles O55: the frames of a final reply, of an acceptance and of both. -/
theorem repliesChangeNothingElse : Obligations.RepliesChangeNothingElse := by
  unfold Obligations.RepliesChangeNothingElse
  intro s c r st res fin k d
  exact ⟨s.answered_rest r st res d, s.acceptedDone_rest r res st fin d, s.acceptedAs_rest c r res k d,
    fun a n => ⟨Dev.hbmRead_eq_of_rest_eq (s.answered_rest r st res d) a n, s.acceptedAs_hbmRead c r res k d a n⟩, rfl, rfl, rfl⟩

end Sys2Proof.Machine
end

section
/-! Writes to HBM keep its canonical form and every byte outside the bytes written (R116, R142, R358). -/

namespace Sys2Proof.Machine

/-- HBM of d and e holds the same outside the n bytes at a. -/
def SameOutside (a n : Nat) (d e : Dev) : Prop := ∀ c, c < a ∨ a + n ≤ c → memGet e.mem.cells c = memGet d.mem.cells c

theorem SameOutside.of_mem_eq {a n : Nat} {d e : Dev} (h : e.mem = d.mem) : SameOutside a n d e := fun _ _ => by rw [h]

theorem SameOutside.trans {a n : Nat} {d e f : Dev} (h : SameOutside a n d e) (h' : SameOutside a n e f) : SameOutside a n d f :=
  fun c hc => (h' c hc).trans (h c hc)

/-- A change within fewer bytes. -/
theorem SameOutside.mono {a n a' n' : Nat} {d e : Dev} (h : SameOutside a' n' d e) (ha : a ≤ a') (hn : a' + n' ≤ a + n) : SameOutside a n d e :=
  fun c hc => h c (by omega)

theorem memRead_congr {m m' : List Host.Cell} {b n : Nat} (h : ∀ c, b ≤ c → c < b + n → memGet m' c = memGet m c) :
    memRead m' b n = memRead m b n := by
  induction n generalizing b with
  | zero => rfl
  | succ n ih =>
    rw [memRead, memRead, h b le_rfl (by omega), ih fun c hb hn => h c (by omega) (by omega)]

theorem SameOutside.hbmRead {a n b k : Nat} {d e : Dev} (h : SameOutside a n d e) (hb : b + k ≤ a ∨ a + n ≤ b) : e.hbmRead b k = d.hbmRead b k :=
  memRead_congr fun c hlo hhi => h c (by omega)

theorem sameOutside_hbmWrite (d : Dev) (a : Nat) (bs : List Byte) : SameOutside a bs.length d (d.hbmWrite a bs) :=
  fun c hc => memGet_memWrite_other _ a c bs hc

theorem sameOutside_putGran (d : Dev) (x : Ctx) (a : Nat) (bs : List Byte) (bad : Bool) : SameOutside a bs.length d (d.putGran x a bs bad) := by
  unfold Dev.putGran
  cases d.unreachedAt a bs.length with
  | some k => exact fun _ _ => rfl
  | none =>
    dsimp only
    split
    · exact fun _ _ => rfl
    · have hw : SameOutside a bs.length d ((d.acted a bs.length).hbmWrite a bs) := sameOutside_hbmWrite (d.acted a bs.length) a bs
      split
      · exact hw.trans fun _ _ => rfl
      · exact hw

theorem sameOutside_pathPut (d : Dev) (x : Ctx) (a : Nat) (bs : List Byte) (bad : Bool) : SameOutside a bs.length d (d.pathPut x a bs bad) := by
  unfold Dev.pathPut
  split
  · exact .of_mem_eq rfl
  · exact sameOutside_putGran d x a bs bad

theorem splitGran_nil (fuel a : Nat) : splitGran fuel a [] = [] := by
  cases fuel <;> rfl

/-- The parts of a byte string lie within it. -/
theorem within_of_mem_splitGran {fuel a : Nat} {bs : List Byte} {e : Nat × List Byte} (h : e ∈ splitGran fuel a bs) :
    a ≤ e.1 ∧ e.1 + e.2.length ≤ a + bs.length := by
  induction fuel generalizing a bs with
  | zero => cases h
  | succ fuel ih =>
    rw [splitGran] at h
    split at h
    · cases h
    · obtain rfl | h := List.mem_cons.1 h
      · exact ⟨le_rfl, by simp only [List.length_take]; omega⟩
      · obtain ⟨hlo, hhi⟩ := ih h
        have hleft : bs.drop (32768 - a % 32768) ≠ [] := fun hnil => by
          rw [hnil, splitGran_nil] at h
          cases h
        rw [Ne, List.drop_eq_nil_iff] at hleft
        rw [List.length_drop] at hhi
        omega

theorem sameOutside_foldl_pathPut (x : Ctx) (bad : Bool) {a n : Nat} {l : List (Nat × List Byte)} (d : Dev)
    (h : ∀ e ∈ l, a ≤ e.1 ∧ e.1 + e.2.length ≤ a + n) : SameOutside a n d (l.foldl (fun d e => d.pathPut x e.1 e.2 bad) d) := by
  induction l generalizing d with
  | nil => exact .of_mem_eq rfl
  | cons e l ih =>
    obtain ⟨hlo, hhi⟩ := h e List.mem_cons_self
    exact ((sameOutside_pathPut d x e.1 e.2 bad).mono hlo hhi).trans (ih _ fun e' he' => h e' (List.mem_cons_of_mem _ he'))

theorem sameOutside_hbmPut (d : Dev) (x : Ctx) (a : Nat) (bs : List Byte) (bad : Bool) : SameOutside a bs.length d (d.hbmPut x a bs bad) :=
  sameOutside_foldl_pathPut x bad d fun _ => within_of_mem_splitGran

/-- A refused write is counted and answered, and writes nothing. -/
theorem Dev.ordWrite_of_computeAt {d : Dev} {a : Nat} (x : Ctx) (ag : Agent) (p : Nat) (bs : List Byte) (h : d.computeAt a = true) :
    (d.ordWrite x ag p a bs).mem = d.mem := by
  have hcount : (d.glmCount p 0x050008).mem = d.mem := by
    unfold Dev.glmCount
    split <;> rfl
  rw [Dev.ordWrite, if_pos h]
  cases ag <;> exact hcount

theorem Dev.ordWrite_of_not_computeAt {d : Dev} {a : Nat} (x : Ctx) (ag : Agent) (p : Nat) (bs : List Byte) (h : d.computeAt a = false) :
    d.ordWrite x ag p a bs = d.putGran x a bs false := by
  rw [Dev.ordWrite, if_neg (by simp [h])]

theorem ordWrite_keeps_form (ag : Agent) (p a : Nat) (bs : List Byte) (x : Ctx) (d : Dev) (h : Memory.wf d.mem.cells = true) :
    Memory.wf (Machine.ordWrite ag p a bs x d).mem.cells = true ∧ SameOutside a bs.length d (Machine.ordWrite ag p a bs x d) := by
  unfold Machine.ordWrite
  split
  · cases hcompute : d.computeAt a with
    | true =>
      have hmem := Dev.ordWrite_of_computeAt x ag p bs hcompute
      exact ⟨hmem ▸ h, .of_mem_eq hmem⟩
    | false =>
      rw [Dev.ordWrite_of_not_computeAt x ag p bs hcompute]
      exact ⟨Dev.wf_putGran d x a bs false h, sameOutside_putGran d x a bs false⟩
  · exact ⟨h, .of_mem_eq rfl⟩

theorem stalledIn_keeps_form (a : Nat) (bs : List Byte) (x : Ctx) (d : Dev) (h : Memory.wf d.mem.cells = true) :
    Memory.wf (stalledIn a bs x d).mem.cells = true ∧ SameOutside a bs.length d (stalledIn a bs x d) := by
  unfold stalledIn
  split
  · exact ⟨Dev.wf_hbmPut d x a bs false h, sameOutside_hbmPut d x a bs false⟩
  · exact ⟨h, .of_mem_eq rfl⟩

/-- What a change of the dies keeps with power it keeps in every state. -/
theorem onDev_keeps {f : Ctx → Dev → Dev} {P : Dev → Dev → Prop} {s t : State} (h : onDev f s = .next t) (hf : P s.dev (f s.ctx s.dev))
    (hrefl : P s.dev s.dev) : P s.dev t.dev := by
  unfold onDev at h
  obtain rfl := Host.Outcome.next.inj h
  split
  · exact hf
  · exact hrefl

/-- Settles O56: both writes keep the canonical form and what lies outside them. -/
theorem hbmWritesKeepTheForm : Obligations.HbmWritesKeepTheForm := by
  unfold Obligations.HbmWritesKeepTheForm
  intro s t ag p a bs c hwf hc ht
  have hboth : Memory.wf t.dev.mem.cells = true ∧ SameOutside a bs.length s.dev t.dev := by
    obtain rfl | rfl := hc
    · exact onDev_keeps (P := fun d e => Memory.wf e.mem.cells = true ∧ SameOutside a bs.length d e) ht
        (stalledIn_keeps_form a bs s.ctx s.dev hwf) ⟨hwf, .of_mem_eq rfl⟩
    · exact onDev_keeps (P := fun d e => Memory.wf e.mem.cells = true ∧ SameOutside a bs.length d e) ht
        (ordWrite_keeps_form ag p a bs s.ctx s.dev hwf) ⟨hwf, .of_mem_eq rfl⟩
  obtain ⟨hform, hsame⟩ := hboth
  exact ⟨hform, fun b n hb => hsame.hbmRead hb⟩

end Sys2Proof.Machine
end

section
/-! The rows of the power input (R458-R463, R467). -/

namespace Sys2Proof.Machine

/-- A row of the dies, with power, once the change that it makes is known. -/
theorem onDev_eq {f : Ctx → Dev → Dev} {s : State} {d : Dev} (hp : s.clock.power = true) (hf : f s.ctx s.dev = d) :
    onDev f s = .next (s.withDev d) := by
  rw [onDev_powered f s hp, hf]

theorem powerUp_of_good {s : State} {mv : Nat} (hoff : s.clock.power = false) (hlo : 44000 ≤ mv) (hhi : mv ≤ 60000)
    (hen : s.dev.power.pwrEn = true) (hlatch : s.dev.power.latched = false) :
    powerUp mv true s = { s with
      clock := ⟨0, s.clock.wall, true, false, 0⟩
      dev := { s.dev.afterReset.inputs s.dev with
        power := { (s.dev.afterReset.inputs s.dev).power with pathOpen := false }
        boot := { Boot.reset with started := s.clock.wall } }
      meter := Meter.reset s.meter.flash } := by
  have hgood : ¬ (s.clock.power ∨ mv < 44000 ∨ 60000 < mv ∨ !s.dev.power.pwrEn ∨ s.dev.power.latched ∨ !true) := by
    simp only [hoff, hen, hlatch, Bool.not_true, Bool.false_eq_true, or_false, false_or]
    omega
  exact if_neg hgood

theorem pwrEnSet_false {s : State} (hen : s.dev.power.pwrEn = true) (hp : s.clock.power = true) :
    pwrEnSet false s = powerDown (s.withDev { s.dev with power := { s.dev.power with pwrEn := false, enLowSince := some s.clock.wall } }) := by
  simp [pwrEnSet, hen, hp, State.withDev]

/-- PWR_EN low for 100 ms or more re-arms the latch (R460). -/
theorem pwrEnSet_true {s : State} {t0 : Nat} (hen : s.dev.power.pwrEn = false) (hlow : s.dev.power.enLowSince = some t0)
    (hlong : t0 + 100 * ticksMs ≤ s.clock.wall) :
    pwrEnSet true s = s.withDev { s.dev with power := { s.dev.power with pwrEn := true, enLowSince := none, latched := false } } := by
  have hrearm : (s.dev.power.enLowSince.elim false fun t => decide (t + 100 * ticksMs ≤ s.clock.wall)) = true := by
    rw [hlow, Option.elim_some, decide_eq_true hlong]
  rw [pwrEnSet, if_neg (by rw [hen]; decide), if_pos rfl]
  simp only [hrearm, Bool.not_true, Bool.and_false, State.withDev]

theorem inputHigh_of_high {s : State} {mv : Nat} (hmv : 66000 < mv) (hp : s.clock.power = true) :
    inputHigh mv s = powerDown (pathOpens false s) := by
  rw [inputHigh, if_neg hmv.not_ge, if_pos hp]

theorem breaker_of_trip {s : State} {ma us : Nat} (h : (45000 < ma ∧ 1000 ≤ us) ∨ (60000 < ma ∧ 10 ≤ us)) (hp : s.clock.power = true) :
    breaker ma us s = powerDown (pathOpens false s) := by
  rw [breaker, if_pos h, if_pos hp]

theorem shutDown_of_active {s : State} {cond : Nat} (hp : s.clock.power = true) (hcond : cond ≤ 6)
    (hactive : bitAt s.dev.power.active cond = true) : shutDown cond s = powerDown (pathOpens (cond != 2 && cond != 3) s) := by
  rw [shutDown, if_pos ⟨hp, hcond, hactive⟩]

theorem inputGone_unpowered {s : State} (hp : s.clock.power = false) :
    inputGone s = s.withDev { s.dev with power := { s.dev.power with latched := false } } := by
  simp [inputGone, hp, State.withDev]

/-- Settles O1: each row of the power input by what it does to the state, and what a fall of power-good keeps. -/
theorem powerRowsTakeEffect : Obligations.PowerRowsTakeEffect := by
  unfold Obligations.PowerRowsTakeEffect
  refine ⟨fun s mv hoff hlo hhi hen hlatch => ?rise, fun s hp s₀ hs => ?fall, fun s hen hp => ?enLow, fun s t0 hen hlow hlong => ?enHigh,
    fun s mv hmv hp s₀ hs => ?overVoltage, fun s ma us htrip hp s₀ hs => ?trip, fun s cond hp hcond hactive s₀ hs => ?shutdown,
    fun s hp => ?gone⟩
  case rise => exact ⟨_, congrArg Host.Outcome.next (powerUp_of_good hoff hlo hhi hen hlatch), rfl, rfl, rfl, rfl, rfl, rfl, rfl, rfl, rfl, rfl, rfl⟩
  case fall =>
    subst hs
    exact ⟨_, congrArg Host.Outcome.next (if_pos hp), rfl, rfl, rfl, rfl, rfl, rfl, rfl⟩
  case enLow => exact ⟨_, congrArg Host.Outcome.next (pwrEnSet_false hen hp), rfl, rfl, rfl, rfl, rfl, rfl⟩
  case enHigh => exact congrArg Host.Outcome.next (pwrEnSet_true hen hlow hlong)
  case overVoltage =>
    subst hs
    exact ⟨_, congrArg Host.Outcome.next (inputHigh_of_high hmv hp), rfl, rfl, Bool.or_false _, rfl, rfl⟩
  case trip =>
    subst hs
    exact ⟨_, congrArg Host.Outcome.next (breaker_of_trip htrip hp), rfl, rfl, rfl, rfl⟩
  case shutdown =>
    subst hs
    exact ⟨_, congrArg Host.Outcome.next (shutDown_of_active hp hcond hactive), rfl, rfl, rfl, rfl, rfl, rfl, rfl⟩
  case gone => exact congrArg Host.Outcome.next (inputGone_unpowered hp)

end Sys2Proof.Machine
end

section
/-! The controller, the sensors and the speed factor (R20, R21, R416, R464-R470, R477). -/

namespace Sys2Proof.Machine

/-! ### Emergency conditions -/

/-- What the detection of emergency conditions, and readings that show them over, do to the dies: only the power block and what is sent
change, less is never withheld, an emergency goes on, and the readings stay. -/
structure CondStep (d e : Dev) : Prop where
  frame : e = { d with power := e.power, outs := e.outs }
  withheld : d.power.d ≤ e.power.d
  goesOn : d.power.emergency = true → e.power.emergency = true
  watts : e.power.watts = d.power.watts
  inlet : e.power.inlet = d.power.inlet
  flow : e.power.flow = d.power.flow
  nandT : e.power.nandT = d.power.nandT

theorem CondStep.refl (d : Dev) : CondStep d d := ⟨rfl, le_rfl, id, rfl, rfl, rfl, rfl⟩

theorem CondStep.trans {d e f : Dev} (h : CondStep d e) (h' : CondStep e f) : CondStep d f where
  frame := by rw [h'.frame, h.frame]
  withheld := h.withheld.trans h'.withheld
  goesOn := h'.goesOn ∘ h.goesOn
  watts := h'.watts.trans h.watts
  inlet := h'.inlet.trans h.inlet
  flow := h'.flow.trans h.flow
  nandT := h'.nandT.trans h.nandT

theorem condStep_emergency (cond : Nat) (x : Ctx) (d : Dev) : CondStep d (emergency cond x d) := by
  unfold emergency
  split
  · exact .refl d
  · exact ⟨rfl, le_max_right _ _, fun _ => rfl, rfl, rfl, rfl, rfl⟩

theorem condStep_condOver (cond : Nat) (x : Ctx) (d : Dev) : CondStep d (condOver cond x d) := by
  unfold condOver
  split
  · exact ⟨rfl, le_rfl, id, rfl, rfl, rfl, rfl⟩
  · exact .refl d

theorem condStep_condRead (cond : Nat) (holds : Bool) (x : Ctx) (d : Dev) : CondStep d (condRead cond holds x d) := by
  unfold condRead
  split
  · exact condStep_emergency cond x d
  · exact condStep_condOver cond x d

theorem condStep_ite_condOver (p : Prop) [Decidable p] (cond : Nat) (x : Ctx) (d : Dev) : CondStep d (if p then condOver cond x d else d) := by
  split
  · exact condStep_condOver cond x d
  · exact .refl d

/-- At least 48/64 is withheld, and the emergency lasts (R466). -/
def Raised (d : Dev) : Prop := 48 ≤ d.power.d ∧ d.power.emergency = true

theorem CondStep.raised {d e : Dev} (h : CondStep d e) (hd : Raised d) : Raised e := ⟨hd.1.trans h.withheld, h.goesOn hd.2⟩

/-- A condition that was not active is detected (R466). -/
theorem emergency_of_inactive {cond : Nat} {x : Ctx} {d : Dev} (hc : cond ≤ 6) (hb : bitAt d.power.active cond = false) :
    Raised (emergency cond x d) ∧ bitAt (emergency cond x d).power.active cond = true ∧
      (emergency cond x d).outs = .sensor (emergSensor d cond) 3 true :: d.outs := by
  have h : ¬ (cond > 6 ∨ bitAt d.power.active cond = true) := by
    rw [hb]
    simpa using hc
  rw [emergency, if_neg h]
  exact ⟨⟨le_max_left _ _, rfl⟩, bitAt_setBit _ _, rfl⟩

@[simp] theorem bitAt_zero (i : Nat) : bitAt 0 i = false := by simp [bitAt]

theorem condOver_of_calm {cond : Nat} {x : Ctx} {d : Dev} (h : d.power.active = 0) : condOver cond x d = d := by
  simp [condOver, h]

theorem condRead_of_calm {cond : Nat} {x : Ctx} {d : Dev} (h : d.power.active = 0) : condRead cond false x d = d :=
  condOver_of_calm h

theorem raised_condRead_of_calm {cond : Nat} {x : Ctx} {d : Dev} (hc : cond ≤ 6) (h : d.power.active = 0) : Raised (condRead cond true x d) :=
  (emergency_of_inactive hc (by rw [h]; exact bitAt_zero cond)).1

theorem Dev.junctions_of_cool {d : Dev} {x : Ctx} (h : max d.power.tjA d.power.tjB < 110) (hc : d.power.active = 0) : d.junctions x = d := by
  rw [Dev.junctions, decide_eq_false h.not_ge, condRead_of_calm hc]

/-- Taking away a higher bit leaves bit 0. -/
theorem bitAt_zero_sub_two_pow {n c : Nat} (hc : c ≠ 0) (h : bitAt n c = true) : bitAt (n - 2 ^ c) 0 = bitAt n 0 := by
  obtain ⟨k, rfl⟩ := Nat.exists_eq_succ_of_ne_zero hc
  have hle : 2 ^ (k + 1) ≤ n := by
    by_contra hlt
    have hdiv : n / 2 ^ (k + 1) = 0 := Nat.div_eq_of_lt (Nat.lt_of_not_le hlt)
    simp [bitAt, hdiv] at h
  rw [Nat.pow_succ] at hle ⊢
  have hmod : (n - 2 ^ k * 2) % 2 = n % 2 := by omega
  simp [bitAt, hmod]

theorem condOver_active_bit_zero {c : Nat} (hc : c ≠ 0) (x : Ctx) (d : Dev) :
    bitAt (condOver c x d).power.active 0 = bitAt d.power.active 0 := by
  unfold condOver
  split
  case isTrue h => exact bitAt_zero_sub_two_pow hc h
  case isFalse => rfl

theorem ite_condOver_active_bit_zero (p : Prop) [Decidable p] {c : Nat} (hc : c ≠ 0) (x : Ctx) (d : Dev) :
    bitAt (if p then condOver c x d else d).power.active 0 = bitAt d.power.active 0 := by
  split
  · exact condOver_active_bit_zero hc x d
  · rfl

theorem condOver_junctions (c : Nat) (x : Ctx) (d : Dev) :
    (condOver c x d).power.tjA = d.power.tjA ∧ (condOver c x d).power.tjB = d.power.tjB := by
  unfold condOver
  split <;> exact ⟨rfl, rfl⟩

theorem ite_condOver_junctions (p : Prop) [Decidable p] (c : Nat) (x : Ctx) (d : Dev) :
    (if p then condOver c x d else d).power.tjA = d.power.tjA ∧ (if p then condOver c x d else d).power.tjB = d.power.tjB := by
  split
  · exact condOver_junctions c x d
  · exact ⟨rfl, rfl⟩

/-! ### An evaluation -/

/-- The dies with the readings of an evaluation and the fraction that the controller withholds (R464). -/
def Dev.evaluated (d : Dev) (w cv ca a b : Nat) : Dev :=
  { d with power := { d.power with
    d := if d.power.emergency then d.power.d else nextD d.power.d w (min d.power.capWatts d.power.coolLimit) (max a b)
    capEff := min d.power.capWatts d.power.coolLimit, watts := w, volts := cv, amps := ca, tjA := a, tjB := b } }

theorem ptcEval_of_due {w cv ca a b : Nat} {x : Ctx} (d : Dev) (h : x.now % 12500 = 0) :
    ptcEval w cv ca a b x d =
      (if cv ≤ 6200 then condOver 3 x (if 4200 ≤ cv then condOver 2 x (d.evaluated w cv ca a b) else d.evaluated w cv ca a b)
        else if 4200 ≤ cv then condOver 2 x (d.evaluated w cv ca a b) else d.evaluated w cv ca a b).junctions x := by
  rw [ptcEval, if_neg (by simpa using h)]
  rfl

theorem condStep_ptcEval {w cv ca a b : Nat} {x : Ctx} (d : Dev) (h : x.now % 12500 = 0) :
    CondStep (d.evaluated w cv ca a b) (ptcEval w cv ca a b x d) := by
  rw [ptcEval_of_due d h]
  exact ((condStep_ite_condOver _ 2 x _).trans (condStep_ite_condOver _ 3 x _)).trans (condStep_condRead 0 _ x _)

theorem ptcEval_of_calm {w cv ca a b : Nat} {x : Ctx} {d : Dev} (h : x.now % 12500 = 0) (hcalm : d.power.active = 0) (hcool : max a b < 110) :
    ptcEval w cv ca a b x d = d.evaluated w cv ca a b := by
  rw [ptcEval_of_due d h]
  have hact : (d.evaluated w cv ca a b).power.active = 0 := hcalm
  simp only [condOver_of_calm hact, ite_self]
  exact Dev.junctions_of_cool hcool hact

theorem ptcEval_of_hot {w cv ca a b : Nat} {x : Ctx} {d : Dev} (h : x.now % 12500 = 0) (hhot : 110 ≤ max a b)
    (hb : bitAt d.power.active 0 = false) : Raised (ptcEval w cv ca a b x d) ∧ bitAt (ptcEval w cv ca a b x d).power.active 0 = true := by
  rw [ptcEval_of_due d h]
  generalize hu : (if 4200 ≤ cv then condOver 2 x (d.evaluated w cv ca a b) else d.evaluated w cv ca a b) = u
  generalize hv : (if cv ≤ 6200 then condOver 3 x u else u) = v
  have hbit : bitAt v.power.active 0 = false := by
    rw [← hv, ite_condOver_active_bit_zero _ (by decide), ← hu, ite_condOver_active_bit_zero _ (by decide)]
    exact hb
  have htj : max v.power.tjA v.power.tjB = max a b := by
    obtain ⟨hA, hB⟩ := ite_condOver_junctions (cv ≤ 6200) 3 x u
    obtain ⟨hA', hB'⟩ := ite_condOver_junctions (4200 ≤ cv) 2 x (d.evaluated w cv ca a b)
    rw [← hv, hA, hB, ← hu, hA', hB']
    rfl
  rw [Dev.junctions, htj, decide_eq_true hhot]
  obtain ⟨hraised, hactive, -⟩ := emergency_of_inactive (x := x) (Nat.zero_le 6) hbit
  exact ⟨hraised, hactive⟩

/-! ### The end of an emergency, and the coolant -/

theorem emergencyOver_of_clear {x : Ctx} {d : Dev} {t0 : Nat} (he : d.power.emergency = true) (ha : d.power.active = 0)
    (ht : d.power.emergSince = some t0) (hlong : t0 + 100 * ticksMs ≤ x.now) :
    emergencyOver x d = { d with power := { d.power with emergency := false, d := 48, emergSince := none } } := by
  have hdue : (d.power.emergency && d.power.active == 0 && decide ((d.power.emergSince.getD 0) + 100 * ticksMs ≤ x.now)) = true := by
    rw [he, ha, ht, Option.getD_some, decide_eq_true hlong]
    rfl
  rw [emergencyOver, if_pos hdue]

/-- The dies with a coolant sample, and the limit that it gives (R469, R470). -/
def Dev.cooled (d : Dev) (i o f n : Nat) : Dev :=
  { d with power := { d.power with inlet := i, outlet := o, flow := f, nandT := n, coolLimit := coolantLimit i } }

theorem coolant_eq (i o f n : Nat) (x : Ctx) (d : Dev) : coolant i o f n x d =
    condRead 6 (decide (85 < n)) x (condRead 5 (decide (f < 1200)) x (condRead 4 (decide (52 < i)) x (d.cooled i o f n))) := rfl

theorem coolant_of_calm {i o f n : Nat} {x : Ctx} {d : Dev} (ha : d.power.active = 0) (hi : i ≤ 52) (hf : 1200 ≤ f) (hn : n ≤ 85) :
    coolant i o f n x d = d.cooled i o f n := by
  have hact : (d.cooled i o f n).power.active = 0 := ha
  rw [coolant_eq, decide_eq_false hi.not_gt, decide_eq_false hf.not_gt, decide_eq_false hn.not_gt, condRead_of_calm hact, condRead_of_calm hact,
    condRead_of_calm hact]

theorem condStep_coolant (i o f n : Nat) (x : Ctx) (d : Dev) : CondStep (d.cooled i o f n) (coolant i o f n x d) :=
  ((condStep_condRead 4 _ x _).trans (condStep_condRead 5 _ x _)).trans (condStep_condRead 6 _ x _)

/-- The first condition that a sample shows is detected, and those after it take nothing back. -/
theorem raised_coolant {i o f n : Nat} {x : Ctx} {d : Dev} (ha : d.power.active = 0) (h : 52 < i ∨ f < 1200 ∨ 85 < n) :
    Raised (coolant i o f n x d) := by
  have hact : (d.cooled i o f n).power.active = 0 := ha
  rw [coolant_eq]
  by_cases hi : 52 < i
  · rw [decide_eq_true hi]
    exact ((condStep_condRead 5 _ x _).trans (condStep_condRead 6 _ x _)).raised (raised_condRead_of_calm (by decide) hact)
  rw [decide_eq_false hi, condRead_of_calm hact]
  by_cases hf : f < 1200
  · rw [decide_eq_true hf]
    exact (condStep_condRead 6 _ x _).raised (raised_condRead_of_calm (by decide) hact)
  rw [decide_eq_false hf, condRead_of_calm hact, decide_eq_true ((h.resolve_left hi).resolve_left hf)]
  exact raised_condRead_of_calm (by decide) hact

/-! ### Sensors and the speed factor -/

/-- Only what is sent changes, and that only grows. -/
def SendsOnly (d e : Dev) : Prop := d.outs <:+ e.outs ∧ e = { d with outs := e.outs }

theorem SendsOnly.refl (d : Dev) : SendsOnly d d := ⟨List.suffix_rfl, rfl⟩

theorem SendsOnly.trans {d e f : Dev} (h : SendsOnly d e) (h' : SendsOnly e f) : SendsOnly d f :=
  ⟨h.1.trans h'.1, by rw [h'.2, h.2]⟩

theorem sendsOnly_out (d : Dev) (o : Out) : SendsOnly d (d.out o) := ⟨List.suffix_cons o d.outs, rfl⟩

theorem sendsOnly_ite_out (p : Prop) [Decidable p] (d : Dev) (o : Out) : SendsOnly d (if p then d else d.out o) := by
  split
  · exact .refl d
  · exact sendsOnly_out d o

theorem sendsOnly_crossUp (n old new lv : Nat) (ts : List Nat) (d : Dev) : SendsOnly d (crossUp n old new lv ts d) := by
  induction ts generalizing lv d with
  | nil => exact .refl d
  | cons t ts ih => exact (sendsOnly_ite_out _ d _).trans (ih _ _)

theorem sendsOnly_crossDown (n old new lv : Nat) (ts : List Nat) (d : Dev) : SendsOnly d (crossDown n old new lv ts d) := by
  induction ts generalizing lv d with
  | nil => exact .refl d
  | cons t ts ih => exact (sendsOnly_ite_out _ d _).trans (ih _ _)

theorem sensorSet_effect {n : Nat} (hn : n ≤ 10) (r : Nat) (x : Ctx) (d : Dev) :
    tget (sensorSet n r x d).power.sensors n = some r ∧ d.outs <:+ (sensorSet n r x d).outs ∧
      sensorSet n r x d = { d with power := { d.power with sensors := (sensorSet n r x d).power.sensors }, outs := (sensorSet n r x d).outs } := by
  rw [sensorSet, if_neg hn.not_gt]
  dsimp only
  obtain ⟨hgrow, hframe⟩ := (sendsOnly_crossUp n (tgetD d.power.sensors n (calmReading n)) r 1 (upperThr d.power n) d).trans
    (sendsOnly_crossDown n (tgetD d.power.sensors n (calmReading n)) r 1 (lowerThr n) _)
  refine ⟨tget_tset_same .., hgrow, ?_⟩
  generalize crossDown _ _ _ _ _ (crossUp _ _ _ _ _ d) = e at hframe
  rw [hframe]

theorem pwrCapWrite_of_valid {f : Fn} {w : Word} {x : Ctx} {d : Dev} (hc : d.isCtrl f = true) (hlo : 600 ≤ wfld w 10 0)
    (hhi : wfld w 10 0 ≤ 1650) : pwrCapWrite f w x d = { d with power := { d.power with capWatts := wfld w 10 0 } } :=
  if_pos ⟨hc, hlo, hhi⟩

/-- Two junction sensors of one die that agree within 5 °C, on a cool module. -/
theorem dieTemp_of_cool {die t0 t1 : Nat} {x : Ctx} {d : Dev} (hdie : die ≤ 1) (h0 : t0 ≤ t1 + 5) (h1 : t1 ≤ t0 + 5)
    (hact : d.power.active = 0)
    (hcool : max (if die = 0 then { d.power with tjA := max t0 t1 } else { d.power with tjB := max t0 t1 } : Power).tjA
      (if die = 0 then { d.power with tjA := max t0 t1 } else { d.power with tjB := max t0 t1 } : Power).tjB < 110) :
    dieTemp die t0 t1 x d =
      { d with power := if die = 0 then { d.power with tjA := max t0 t1 } else { d.power with tjB := max t0 t1 } } := by
  rw [dieTemp, if_neg hdie.not_gt]
  dsimp only
  rw [if_neg (by omega)]
  refine Dev.junctions_of_cool hcool ?_
  split <;> exact hact

theorem speedSet_of_fast {die f : Nat} {x : Ctx} {d : Dev} (hdie : die ≤ 1) (hlo : 952 ≤ f) (hhi : f ≤ 0xFFFF) (hnow : x.now % 125000 = 0) :
    speedSet die f x d = { d with speed := if die = 0 then (f, d.speed.2) else (d.speed.1, f) } := by
  rw [speedSet, if_neg (by omega)]
  dsimp only
  rw [min_eq_right hhi, if_neg (by simp [hlo.not_gt])]

/-- Settles O2: the controller's evaluation, the emergency conditions, the sensors and the speed factor, row by row. -/
theorem controlRowsTakeEffect : Obligations.ControlRowsTakeEffect := by
  unfold Obligations.ControlRowsTakeEffect
  intro s hp
  refine ⟨fun w cv ca a b hnow => ⟨fun he hact hcool => ?calm, fun he => ?emergency, fun hhot hb => ?hot⟩,
    fun cond hc hb s₀ hs => ?detect, fun t0 he hact ht hlong => ?clear,
    fun i o f n s₀ hs => ⟨fun hact hi hf hn => ?coolant, fun h hact => ?coolantOver⟩,
    fun n r hn s₀ hs => ?sensor, fun f w hc hlo hhi s₀ hs => ?cap,
    fun t0 t1 s₀ hs h0 h1 hcool hact => ⟨fun hB => ?dieA, fun hA => ?dieB⟩, fun die f hdie hlo hhi hnow s₀ hs => ?speed⟩
  case calm =>
    refine onDev_eq hp ((ptcEval_of_calm hnow hact hcool).trans ?_)
    rw [Dev.evaluated, he]
    rfl
  case emergency =>
    have hstep := condStep_ptcEval (w := w) (cv := cv) (ca := ca) (a := a) (b := b) (x := s.ctx) s.dev hnow
    refine ⟨_, onDev_powered _ _ hp, ?_, hstep.goesOn he, hstep.watts, congrArg s.withDev hstep.frame⟩
    refine le_trans ?_ hstep.withheld
    exact (if_pos he).ge
  case hot =>
    obtain ⟨⟨hd, he⟩, hactive⟩ := ptcEval_of_hot (w := w) (cv := cv) (ca := ca) (x := s.ctx) (d := s.dev) hnow hhot hb
    exact ⟨_, onDev_powered _ _ hp, hd, he, hactive⟩
  case detect =>
    subst hs
    obtain ⟨⟨hd, he⟩, hactive, houts⟩ := emergency_of_inactive (x := (s₀.reach (evKey 0 0 0)).ctx) hc hb
    exact ⟨_, onDev_powered _ _ hp, hd, he, hactive, houts, congrArg (State.withDev _) (condStep_emergency cond _ _).frame⟩
  case clear => exact onDev_eq hp (emergencyOver_of_clear he hact ht hlong)
  case coolant =>
    subst hs
    exact onDev_eq hp (coolant_of_calm hact hi hf hn)
  case coolantOver =>
    subst hs
    obtain ⟨hd, he⟩ := raised_coolant (i := i) (o := o) (f := f) (n := n) (x := (s₀.reach (evKey 9 0 0)).ctx) hact h
    have hstep := condStep_coolant i o f n (s₀.reach (evKey 9 0 0)).ctx (s₀.reach (evKey 9 0 0)).dev
    exact ⟨_, onDev_powered _ _ hp, hd, he, hstep.inlet, hstep.flow, hstep.nandT, congrArg (State.withDev _) hstep.frame⟩
  case sensor =>
    subst hs
    obtain ⟨hget, hgrow, hframe⟩ := sensorSet_effect hn r (s₀.reach (evKey 9 0 0)).ctx (s₀.reach (evKey 9 0 0)).dev
    exact ⟨_, onDev_powered _ _ hp, hget, hgrow, congrArg (State.withDev _) hframe⟩
  case cap =>
    subst hs
    exact onDev_eq hp (pwrCapWrite_of_valid hc hlo hhi)
  case dieA =>
    subst hs
    exact onDev_eq hp (dieTemp_of_cool (by decide) h0 h1 hact (max_lt hcool hB))
  case dieB =>
    subst hs
    exact onDev_eq hp (dieTemp_of_cool (by decide) h0 h1 hact (max_lt hA hcool))
  case speed =>
    subst hs
    exact onDev_eq hp (speedSet_of_fast hdie hlo hhi hnow)

end Sys2Proof.Machine
end

section
/-! The rows of the rings (R46-R48, R52, R53, R55-R57). -/

namespace Sys2Proof.Machine

/-! ### Rings of functions -/

@[simp] theorem Dev.rq_setRq_same (d : Dev) (f n : Nat) (r : Rq) : (d.setRq f n r).rq f n = r := tgetD_tset_same ..

section
variable {d : Dev} {f : Fn} {n : Nat} {w : Word} {x : Ctx}

/-- A write of a function that is present, outside start-up, to one of its 16 rings takes effect. -/
theorem Dev.ringGuard (hlive : d.fnLive f = true) (hw : d.writable = true) (hn : n < 16) : (!(d.fnLive f && d.writable && n < 16)) = false := by
  simp [hlive, hw, hn]

theorem doorbellWrite_of_fits (hg : (!(d.fnLive f && d.writable && n < 16)) = false)
    (h : (d.sq f.idx n).en = false ∨ wfld w 11 0 < 2 ^ (d.sq f.idx n).size) :
    doorbellWrite x f n w d = d.setSq f.idx n { d.sq f.idx n with tail := wfld w 11 0 } := by
  have hfits : ((d.sq f.idx n).en && (d.sq f.idx n).state == 1 && wfld w 11 0 ≥ 2 ^ (d.sq f.idx n).size) = false := by
    obtain h | h := h
    · simp [h]
    · simp [h.not_ge]
  simp only [doorbellWrite, hg, hfits, Bool.false_eq_true, if_false]

theorem doorbellWrite_of_overrun (hg : (!(d.fnLive f && d.writable && n < 16)) = false) (hen : (d.sq f.idx n).en = true)
    (hst : (d.sq f.idx n).state = 1) (h : 2 ^ (d.sq f.idx n).size ≤ wfld w 11 0) :
    doorbellWrite x f n w d = d.setSq f.idx n { d.sq f.idx n with tail := wfld w 11 0, state := 2, cause := 1 } := by
  have hover : ((d.sq f.idx n).en && (d.sq f.idx n).state == 1 && wfld w 11 0 ≥ 2 ^ (d.sq f.idx n).size) = true := by
    simp [hen, hst, h]
  simp only [doorbellWrite, hg, hover, Bool.false_eq_true, if_false, if_true]

theorem sqCfgWrite_of_enable (hg : (!(d.fnLive f && d.writable && n < 16)) = false) (hen : (d.sq f.idx n).en = false)
    (hbit : bitAt w.toNat 31 = true) (hbase : (d.sq f.idx n).base % 4096 = 0) (hlo : 4 ≤ wfld w 3 0) (hhi : wfld w 3 0 ≤ 12)
    (hrq : (d.rq f.idx (wfld w 23 20)).en = true) (hbind : d.bindOk f = true) :
    sqCfgWrite x f n w d = d.setSq f.idx n { d.sq f.idx n with
      rq := wfld w 23 20, size := wfld w 3 0, en := true, state := 1, cause := 0, head := 0, tail := 0 } := by
  have hsize : ¬ (wfld w 3 0 < 4 ∨ wfld w 3 0 > 12) := by omega
  simp only [sqCfgWrite, hg, hen, hbit, hbase, hrq, hbind, hsize, ne_eq, not_true, Bool.not_true, Bool.false_eq_true, if_false]

theorem rqCfgWrite_of_enable (hg : (!(d.fnLive f && d.writable && n < 16)) = false) (hen : (d.rq f.idx n).en = false)
    (hbit : bitAt w.toNat 31 = true) (hbase : (d.rq f.idx n).base % 4096 = 0) (hlo : 4 ≤ wfld w 3 0) (hhi : wfld w 3 0 ≤ 13)
    (hbind : d.bindOk f = true) :
    rqCfgWrite x f n w d = (d.setRq f.idx n { d.rq f.idx n with
      vector := wfld w 19 16, size := wfld w 3 0, en := true, state := 1, cause := 0, head := 0, tail := 0, phase := true
      held := [], unsig := 0, firstUnsig := none }).takeAdopted x f n := by
  have hsize : ¬ (wfld w 3 0 < 4 ∨ wfld w 3 0 > 13) := by omega
  simp only [rqCfgWrite, hg, hen, hbit, hbase, hbind, hsize, ne_eq, not_true, Bool.not_true, Bool.false_eq_true, if_false]

/-! ### The head of a reply ring -/

/-- Adoptions that deliver elsewhere are not ended by a ring's head write (R70). -/
theorem Dev.adoptsDone_of_other {ring : Nat × Nat} {l : List (Nat × Adopt)} (h : ∀ a ∈ l, a.2.ring ≠ some ring) :
    d.adoptsDone x ring l = d := by
  induction l with
  | nil => rfl
  | cons a l ih =>
    obtain ⟨k, a⟩ := a
    rw [Dev.adoptsDone, if_neg (h (k, a) List.mem_cons_self)]
    exact ih fun b hb => h b (List.mem_cons_of_mem _ hb)

theorem rqHead_of_none_held (hg : (!(d.fnLive f && d.writable && n < 16)) = false) (hadopts : ∀ a ∈ d.adopts, a.2.ring ≠ some (f.idx, n))
    (hheld : (d.rq f.idx n).held = []) :
    rqHead x f n w d = d.setRq f.idx n { d.rq f.idx n with head := wfld w 12 0 } := by
  simp only [rqHead, hg, Bool.false_eq_true, if_false, hheld, List.length_nil, Dev.flushHeld]
  rw [Dev.adoptsDone_of_other (by exact hadopts), ite_self]

theorem rqHead_of_one_held {e : Reply} (hg : (!(d.fnLive f && d.writable && n < 16)) = false)
    (hadopts : ∀ a ∈ d.adopts, a.2.ring ≠ some (f.idx, n)) (hen : (d.rq f.idx n).en = true) (hst : (d.rq f.idx n).state = 1)
    (hport : (d.port f.port).lost = false) (hheld : (d.rq f.idx n).held = [e])
    (hroom : ({ d.rq f.idx n with head := wfld w 12 0 } : Rq).full = false) :
    rqHead x f n w d = ((d.setRq f.idx n { d.rq f.idx n with head := wfld w 12 0 }).setRq f.idx n
      { d.rq f.idx n with head := wfld w 12 0, held := [] }).writeEntry x f.idx n e := by
  have hon : (!(d.rq f.idx n).en || (d.rq f.idx n).state != 1 || ((d.setRq f.idx n { d.rq f.idx n with head := wfld w 12 0 }).port f.port).lost)
      = false := by
    rw [hen, hst]
    exact hport
  simp only [rqHead, hg, Bool.false_eq_true, if_false, hon]
  rw [Dev.adoptsDone_of_other (by exact hadopts)]
  have hroom' : ({ d.rq f.idx n with head := wfld w 12 0, held := [e] } : Rq).full = false := hroom
  simp only [hheld, List.length_singleton, Dev.flushHeld, Dev.rq_setRq_same, hroom', Bool.false_eq_true, if_false]

/-! ### Fetching -/

/-- Arbitration moves the turn and its credit, and nothing else. -/
theorem Dev.takeTurn_frame (d : Dev) (ring cost fuel : Nat) :
    (d.takeTurn ring cost fuel).2 = { d with arb := (d.takeTurn ring cost fuel).2.arb } := by
  induction fuel generalizing d with
  | zero => rfl
  | succ fuel ih =>
    rw [Dev.takeTurn]
    dsimp only
    split
    · rw [ih]
    split
    · rfl
    split
    · rfl
    · rw [ih]

/-- The record under which a ring's command is fetched (R55). -/
def Dev.fetchedRec (d : Dev) (x : Ctx) (f : Fn) (n : Nat) (words : List Word) (part : Option Nat) : CmdRec :=
  ⟨d.nextSeq, ⟨.ring f n (d.sq f.idx n).head, words⟩, f, n, (d.sq f.idx n).head, (d.sq f.idx n).rq, wfld (words.getD 0 0) 15 0,
    wfld (words.getD 1 0) 15 0, part, .started, bitAt (words.getD 0 0).toNat 16, bitAt (words.getD 0 0).toNat 17,
    bitAt (words.getD 0 0).toNat 18, .live, x.now, (d.sq f.idx n).last⟩

/-- A read of a slot that counts: the ring may be fetched from, the address is its head's, and no limit stops it. -/
theorem Dev.fetchCounts (hf : d.fetchable f n = true) (hstop : (d.fetchStop.any fun e => e.1 == f.idx * 16 + n) = false) :
    (!d.fetchable f n || (d.sq f.idx n).slotAddr != (d.sq f.idx n).slotAddr || d.fetchStop.any (fun e => e.1 == f.idx * 16 + n)) = false := by
  simp [hf, hstop]

theorem fetchCmd_of_failed {st : Completion} {words : List Word} (hf : d.fetchable f n = true)
    (hstop : (d.fetchStop.any fun e => e.1 == f.idx * 16 + n) = false) (hst : st ≠ .ok) :
    fetchCmd x f n (d.sq f.idx n).slotAddr st words d = d.setSq f.idx n { d.sq f.idx n with state := 2, cause := 2 } := by
  simp only [fetchCmd, Dev.fetchCounts hf hstop, Bool.false_eq_true, if_false, if_pos hst]

section
variable {words : List Word} {part : Option Nat}

/-- What a fetch of a command of one slot comes to before the limits are looked at. -/
theorem fetchCmd_of_one_slot (hf : d.fetchable f n = true) (hstop : (d.fetchStop.any fun e => e.1 == f.idx * 16 + n) = false)
    (hsize : wfld (words.getD 0 0) 31 24 = 1) (hlen : words.length = 16)
    (havail : 1 ≤ ((d.sq f.idx n).tail + 2 ^ (d.sq f.idx n).size - (d.sq f.idx n).head) % 2 ^ (d.sq f.idx n).size)
    (hpart : part = cmdPart f (words.getD 0 0) (words.getD 1 0)) :
    fetchCmd x f n (d.sq f.idx n).slotAddr .ok words d =
      if d.atLimit f n part then { d with fetchStop := d.fetchStop ++ [(f.idx * 16 + n, part)] }
      else
        let turn := d.takeTurn (f.idx * 16 + n) (d.fetchCost (f.idx * 16 + n) 1 part) 128
        if !turn.1 then turn.2
        else
          let c := turn.2.fetchedRec x f n words part
          let e := { turn.2.setSq f.idx n { d.sq f.idx n with
            head := ((d.sq f.idx n).head + 1) % 2 ^ (d.sq f.idx n).size, last := turn.2.nextSeq } with nextSeq := turn.2.nextSeq + 1 }
          match turn.2.checkCmd f n (words.getD 0 0) (words.getD 1 0) with
          | some s => { e with cmds := e.cmds ++ [c] }.endCmd x c s []
          | none => { e with cmds := e.cmds ++ [{ c with phase := if turn.2.mustWait c then .held else .started }] } := by
  have hget (k : Nat) : (words[k]?).getD 0 = words.getD k 0 := List.getD_eq_getElem?_getD.symm
  have htake : words.take (16 * 1) = words := List.take_of_length_le hlen.le
  have hroom : ¬ (((d.sq f.idx n).tail + 2 ^ (d.sq f.idx n).size - (d.sq f.idx n).head) % 2 ^ (d.sq f.idx n).size < 1 ∨ words.length < 16 * 1) := by
    omega
  have hframe := d.takeTurn_frame (f.idx * 16 + n) (d.fetchCost (f.idx * 16 + n) 1 part) 128
  subst hpart
  simp only [fetchCmd, Dev.fetchCounts hf hstop, Bool.false_eq_true, if_false, ne_eq, not_true, hget, hsize, le_refl, Nat.one_le_ofNat,
    and_self, if_true, hroom, htake]
  rw [hframe]
  rfl

theorem fetchCmd_of_limit (hf : d.fetchable f n = true) (hstop : (d.fetchStop.any fun e => e.1 == f.idx * 16 + n) = false)
    (hsize : wfld (words.getD 0 0) 31 24 = 1) (hlen : words.length = 16)
    (havail : 1 ≤ ((d.sq f.idx n).tail + 2 ^ (d.sq f.idx n).size - (d.sq f.idx n).head) % 2 ^ (d.sq f.idx n).size)
    (hpart : part = cmdPart f (words.getD 0 0) (words.getD 1 0)) (hlimit : d.atLimit f n part = true) :
    fetchCmd x f n (d.sq f.idx n).slotAddr .ok words d = { d with fetchStop := d.fetchStop ++ [(f.idx * 16 + n, part)] } := by
  rw [fetchCmd_of_one_slot hf hstop hsize hlen havail hpart, if_pos hlimit]

/-- A command of one slot that passes every check becomes outstanding, started or held (R55, R56). -/
theorem fetchCmd_of_taken (hf : d.fetchable f n = true) (hstop : (d.fetchStop.any fun e => e.1 == f.idx * 16 + n) = false)
    (hsize : wfld (words.getD 0 0) 31 24 = 1) (hlen : words.length = 16)
    (havail : 1 ≤ ((d.sq f.idx n).tail + 2 ^ (d.sq f.idx n).size - (d.sq f.idx n).head) % 2 ^ (d.sq f.idx n).size)
    (hpart : part = cmdPart f (words.getD 0 0) (words.getD 1 0))
    (hcheck : d.checkCmd f n (words.getD 0 0) (words.getD 1 0) = none) (hlimit : d.atLimit f n part = false)
    (hturn : (d.takeTurn (f.idx * 16 + n) (d.fetchCost (f.idx * 16 + n) 1 part) 128).1 = true) :
    ∃ a ph, ph ≠ CmdPhase.accepted ∧ fetchCmd x f n (d.sq f.idx n).slotAddr .ok words d =
      { d.setSq f.idx n { d.sq f.idx n with head := ((d.sq f.idx n).head + 1) % 2 ^ (d.sq f.idx n).size, last := d.nextSeq } with
        arb := a, cmds := d.cmds ++ [{ d.fetchedRec x f n words part with phase := ph }], nextSeq := d.nextSeq + 1 } := by
  rw [fetchCmd_of_one_slot hf hstop hsize hlen havail hpart, if_neg (by simp [hlimit])]
  dsimp only
  rw [hturn, d.takeTurn_frame]
  generalize (d.takeTurn (f.idx * 16 + n) (d.fetchCost (f.idx * 16 + n) 1 part) 128).2.arb = a
  have hcheck' : ({ d with arb := a } : Dev).checkCmd f n (words.getD 0 0) (words.getD 1 0) = none := hcheck
  rw [hcheck', if_neg (by decide)]
  refine ⟨a, _, ?_, rfl⟩
  split <;> decide

end

theorem fetchResume_of_first (h : f.idx * 16 + n ∈ d.resumable)
    (hfirst : ∀ j ∈ d.resumable, (f.idx * 16 + n + 1024 - d.arb.turn) % 1024 ≤ (j + 1024 - d.arb.turn) % 1024) :
    fetchResume f n d = { d with fetchStop := d.fetchStop.filter fun e => e.1 != f.idx * 16 + n } := by
  have hgo : (d.resumable.contains (f.idx * 16 + n) &&
      d.resumable.all fun j => decide ((f.idx * 16 + n + 1024 - d.arb.turn) % 1024 ≤ (j + 1024 - d.arb.turn) % 1024)) = true :=
    Bool.and_eq_true_iff.2 ⟨List.contains_iff_mem.2 h, List.all_eq_true.2 fun j hj => decide_eq_true (hfirst j hj)⟩
  exact if_pos hgo

theorem coalesceTimeout_of_due {t0 : Nat} (hn : n < 16) (hen : (d.rq f.idx n).en = true) (hport : (d.port f.port).lost = false)
    (htime : (d.rq f.idx n).coalTime ≠ 0) (hcount : (d.rq f.idx n).coalCount ≠ 0) (hfirst : (d.rq f.idx n).firstUnsig = some t0)
    (hdue : t0 + (d.rq f.idx n).coalTime * 128 ≤ x.now) :
    coalesceTimeout x f n d = (d.setRq f.idx n { d.rq f.idx n with unsig := 0, firstUnsig := none }).fire f (d.rq f.idx n).vector := by
  rw [coalesceTimeout]
  dsimp only
  rw [if_neg hn.ne, if_pos]
  simp [hen, hport, htime, hcount, hfirst, hdue]

end

/-- Settles O3: one lemma for each row of the rings, applied to the state at the row's turn. -/
theorem ringRowsTakeEffect : Obligations.RingRowsTakeEffect := by
  unfold Obligations.RingRowsTakeEffect
  intro s f n hp hlive hw hn
  have hg : (!(s.dev.fnLive f && s.dev.writable && n < 16)) = false := Dev.ringGuard hlive hw hn
  refine ⟨fun w h s₀ hs => ?bell, fun w hen hst h s₀ hs => ?overrun, fun w hen hbit hbase hlo hhi hrq hbind s₀ hs => ?sq,
    fun w hen hbit hbase hlo hhi hbind s₀ hs => ?rq, fun w s₀ hs hadopts => ⟨fun hheld => ?noneHeld, fun e hen hst hport hheld hroom => ?oneHeld⟩,
    fun words part s₀ hs hf hstop hsize hlen havail hpart hcheck => ⟨fun hlimit hturn => ?taken, fun hlimit => ?limit⟩,
    fun st words hf hstop hst s₀ hs => ?failed, fun h hfirst s₀ hs => ?resume, fun t0 hen hport htime hcount hfirst hdue s₀ hs => ?coalesce⟩
  all_goals subst hs
  case bell => exact onDev_eq (f := fun x d => doorbellWrite x f n w d) hp (doorbellWrite_of_fits hg h)
  case overrun => exact onDev_eq (f := fun x d => doorbellWrite x f n w d) hp (doorbellWrite_of_overrun hg hen hst h)
  case sq => exact onDev_eq (f := fun x d => sqCfgWrite x f n w d) hp (sqCfgWrite_of_enable hg hen hbit hbase hlo hhi hrq hbind)
  case rq => exact onDev_eq (f := fun x d => rqCfgWrite x f n w d) hp (rqCfgWrite_of_enable hg hen hbit hbase hlo hhi hbind)
  case noneHeld => exact onDev_eq (f := fun x d => rqHead x f n w d) hp (rqHead_of_none_held hg hadopts hheld)
  case oneHeld => exact onDev_eq (f := fun x d => rqHead x f n w d) hp (rqHead_of_one_held hg hadopts hen hst hport hheld hroom)
  case taken =>
    obtain ⟨a, ph, hph, heq⟩ := fetchCmd_of_taken (x := (s₀.reach (pcieKey f.port)).ctx) hf hstop hsize hlen havail hpart hcheck hlimit hturn
    exact ⟨_, _, onDev_eq (f := fun x d => fetchCmd x f n _ .ok words d) hp heq, rfl, rfl, rfl, rfl, rfl, rfl, rfl, rfl, hph, rfl⟩
  case limit => exact onDev_eq (f := fun x d => fetchCmd x f n _ .ok words d) hp (fetchCmd_of_limit hf hstop hsize hlen havail hpart hlimit)
  case failed => exact onDev_eq (f := fun x d => fetchCmd x f n _ st words d) hp (fetchCmd_of_failed hf hstop hst)
  case resume => exact onDev_eq (f := fun _ d => fetchResume f n d) hp (fetchResume_of_first h hfirst)
  case coalesce => exact onDev_eq (f := fun x d => coalesceTimeout x f n d) hp (coalesceTimeout_of_due hn hen hport htime hcount hfirst hdue)

/-! ### A command held by FENCE or SERIAL -/

theorem startReleased_append (f : Fn) (n : Nat) {l₁ : List CmdRec} (l₂ : List CmdRec) (d : Dev)
    (h : ∀ c ∈ l₁, ¬ (c.fn = f ∧ c.sq = n ∧ c.phase = .held)) : startReleased f n (l₁ ++ l₂) d = startReleased f n l₂ d := by
  induction l₁ with
  | nil => rfl
  | cons c l₁ ih =>
    rw [List.cons_append, startReleased, if_neg (h c List.mem_cons_self)]
    exact ih fun e he => h e (List.mem_cons_of_mem _ he)

theorem startReleased_none (f : Fn) (n : Nat) {l : List CmdRec} (d : Dev) (h : ∀ c ∈ l, ¬ (c.fn = f ∧ c.sq = n ∧ c.phase = .held)) :
    startReleased f n l d = d := by
  simpa [startReleased] using startReleased_append f n [] d h

/-- A command with nothing of its ring before it need not wait (R56). -/
theorem Dev.mustWait_of_alone {d : Dev} {r : CmdRec} (h : ∀ e ∈ d.cmds, e.fn = r.fn → e.sq = r.sq → e = r) : d.mustWait r = false := by
  have hmine : (d.cmds.filter fun e => e.fn == r.fn && e.sq == r.sq && e.seq < r.seq) = [] := by
    refine List.filter_eq_nil_iff.2 fun e he hcond => ?_
    simp only [Bool.and_eq_true, beq_iff_eq, decide_eq_true_eq] at hcond
    obtain ⟨⟨hfn, hsq⟩, hlt⟩ := hcond
    rw [h e he hfn hsq] at hlt
    exact lt_irrefl _ hlt
  simp [Dev.mustWait, hmine]

theorem startReleased_of_alone {d : Dev} {r : CmdRec} (hr : r ∈ d.cmds) (hheld : r.phase = .held)
    (halone : ∀ e ∈ d.cmds, e.fn = r.fn → e.sq = r.sq → e = r) (hnodup : (d.cmds.map CmdRec.seq).Nodup) :
    startReleased r.fn r.sq d.cmds d = { d with cmds := d.cmds.map fun e => if e.seq = r.seq then { e with phase := .started } else e } := by
  obtain ⟨l₁, l₂, hl⟩ := List.append_of_mem hr
  have hnodup' : d.cmds.Nodup := List.Nodup.of_map _ hnodup
  rw [hl] at hnodup'
  have hbefore : ∀ e ∈ l₁, ¬ (e.fn = r.fn ∧ e.sq = r.sq ∧ e.phase = .held) := fun e he ⟨hfn, hsq, _⟩ =>
    List.disjoint_of_nodup_append hnodup' he (halone e (hl ▸ List.mem_append_left _ he) hfn hsq ▸ List.mem_cons_self)
  have hafter : ∀ e ∈ l₂, ¬ (e.fn = r.fn ∧ e.sq = r.sq ∧ e.phase = .held) := fun e he ⟨hfn, hsq, _⟩ =>
    (List.nodup_cons.1 hnodup'.of_append_right).1
      (halone e (hl ▸ List.mem_append_right _ (List.mem_cons_of_mem _ he)) hfn hsq ▸ he)
  rw [show startReleased r.fn r.sq d.cmds d = startReleased r.fn r.sq (l₁ ++ r :: l₂) d by rw [← hl], startReleased_append _ _ _ _ hbefore,
    startReleased, if_pos ⟨rfl, rfl, hheld⟩, if_neg (by simp [Dev.mustWait_of_alone halone]), startReleased_none _ _ _ hafter]

/-- What FENCED_COMMAND_START of a packet does to the dies. -/
def heldStart (c : Cmd) (d : Dev) : Dev :=
  match d.cmds.find? fun r => r.cmd == c && r.phase == .held with
  | some r => startReleased r.fn r.sq d.cmds d
  | none => d

theorem heldStart_of_find {c : Cmd} {r : CmdRec} {d : Dev} (h : d.cmds.find? (fun r => r.cmd == c && r.phase == .held) = some r) :
    heldStart c d = startReleased r.fn r.sq d.cmds d := by
  simp only [heldStart, h]

/-- Settles O4: the held command is alone in its ring, so that it starts and the pass over the list stops at it. -/
theorem fencedCommandStarts : Obligations.FencedCommandStarts := by
  unfold Obligations.FencedCommandStarts
  rintro s c r hp hfind halone hnodup s₀ rfl
  have hheld : r.phase = .held := by
    have hcond := List.find?_some hfind
    simp only [Bool.and_eq_true, beq_iff_eq] at hcond
    exact hcond.2
  exact onDev_eq (f := fun _ => heldStart c) hp
    ((heldStart_of_find hfind).trans (startReleased_of_alone (List.mem_of_find?_eq_some hfind) hheld halone hnodup))

end Sys2Proof.Machine
end

section
/-! Ports and host loss (R39, R67-R72). -/

namespace Sys2Proof.Machine

/-! ### The commands outstanding, under replies and records -/

@[simp] theorem Dev.recPart_cmds (d : Dev) (x : Ctx) (p : Nat) (cls : RecClass) (code src : Nat) (a b c : Word) :
    (d.recPart x p cls code src a b c).cmds = d.cmds := Dev.place_cmds ..

@[simp] theorem Dev.recAnon_cmds (x : Ctx) (code : Nat) (a b c : Word) (l : List Nat) (d : Dev) : (d.recAnon x code a b c l).cmds = d.cmds := by
  induction l generalizing d with
  | nil => rfl
  | cons p ps ih =>
    rw [Dev.recAnon, ih]
    split
    · exact Dev.place_cmds ..
    · rfl

@[simp] theorem Dev.recDevTo_cmds (d : Dev) (x : Ctx) (port : Nat) (cls : RecClass) (code src : Nat) (a b c : Word) :
    (d.recDevTo x port cls code src a b c).cmds = d.cmds := by
  unfold Dev.recDevTo
  cases cls <;> simp [Dev.place_cmds]

@[simp] theorem Dev.recDev_cmds (d : Dev) (x : Ctx) (cls : RecClass) (code src : Nat) (a b c : Word) :
    (d.recDev x cls code src a b c).cmds = d.cmds := Dev.recDevTo_cmds ..

@[simp] theorem Dev.pushAll_cmds (x : Ctx) (l : List (Nat × Nat × Reply)) (d : Dev) : (d.pushAll x l).cmds = d.cmds := by
  induction l generalizing d with
  | nil => rfl
  | cons e l ih => exact (ih _).trans (Dev.pushReply_cmds ..)

@[simp] theorem Dev.adoptDone_cmds (d : Dev) (x : Ctx) (k : Nat) : (d.adoptDone x k).cmds = d.cmds := by
  unfold Dev.adoptDone
  split
  · split
    · rw [Dev.pushAll_cmds]
    · rfl
  · rfl

@[simp] theorem Dev.adoptRing_cmds (d : Dev) (x : Ctx) (k f n : Nat) : (d.adoptRing x k f n).cmds = d.cmds := by
  unfold Dev.adoptRing
  split
  · dsimp only
    split
    · rfl
    · rw [Dev.adoptDone_cmds, Dev.pushAll_cmds]
  · rfl

@[simp] theorem Dev.rest_adoptRing (d : Dev) (x : Ctx) (k f n : Nat) : (d.adoptRing x k f n).rest = d.rest := by
  unfold Dev.adoptRing
  split
  · dsimp only
    split
    · rfl
    · rw [Dev.rest_adoptDone, Dev.rest_pushAll]
      rfl
  · rfl

@[simp] theorem Dev.reply_cmds (d : Dev) (x : Ctx) (c : CmdRec) (st : Status) (res : List Word) : (d.reply x c st res).cmds = d.cmds := by
  unfold Dev.reply
  dsimp only
  cases c.fate with
  | dropped => rfl
  | orphan =>
    dsimp only
    split
    · exact Dev.pushReply_cmds ..
    · rfl
  | live =>
    dsimp only
    split
    · rfl
    split
    · rfl
    · exact Dev.pushReply_cmds ..

/-- The final reply takes the command's record out of the list. -/
theorem Dev.endCmd_cmds (d : Dev) (x : Ctx) (c : CmdRec) (st : Status) (res : List Word) :
    (d.endCmd x c st res).cmds = d.cmds.filter fun e => e.seq != c.seq := by
  unfold Dev.endCmd
  dsimp only
  cases c.part <;> split <;> simp

/-! ### What the pieces of host loss keep -/

/-- Ports, bindings, submission rings, sessions, the grid and the security block stay, and no command is added. -/
structure KeepsHosts (d e : Dev) : Prop where
  ports : e.ports = d.ports
  ctrlPort : e.ctrlPort = d.ctrlPort
  parts : e.parts = d.parts
  sqs : e.sqs = d.sqs
  ses : e.ses = d.ses
  grid : e.grid = d.grid
  sec : e.sec = d.sec
  cmds : e.cmds ⊆ d.cmds

theorem KeepsHosts.refl (d : Dev) : KeepsHosts d d := ⟨rfl, rfl, rfl, rfl, rfl, rfl, rfl, List.Subset.refl _⟩

theorem KeepsHosts.trans {d e f : Dev} (h : KeepsHosts d e) (h' : KeepsHosts e f) : KeepsHosts d f where
  ports := h'.ports.trans h.ports
  ctrlPort := h'.ctrlPort.trans h.ctrlPort
  parts := h'.parts.trans h.parts
  sqs := h'.sqs.trans h.sqs
  ses := h'.ses.trans h.ses
  grid := h'.grid.trans h.grid
  sec := h'.sec.trans h.sec
  cmds := List.Subset.trans h'.cmds h.cmds

/-- What replies leave alone covers all of it but the commands. -/
theorem KeepsHosts.of_rest {d e : Dev} (h : e.rest = d.rest) (hc : e.cmds ⊆ d.cmds) : KeepsHosts d e :=
  ⟨(congrArg Dev.ports h :), (congrArg Dev.ctrlPort h :), (congrArg Dev.parts h :), (congrArg Dev.sqs h :), (congrArg Dev.ses h :),
    (congrArg Dev.grid h :), (congrArg Dev.sec h :), hc⟩

theorem KeepsHosts.of_rest_of_cmds {d e : Dev} (h : e.rest = d.rest) (hc : e.cmds = d.cmds) : KeepsHosts d e :=
  .of_rest h (hc ▸ List.Subset.refl _)

theorem keepsHosts_storeOrphan (d : Dev) (x : Ctx) (e : Reply) : KeepsHosts d (d.storeOrphan x e) := by
  unfold Dev.storeOrphan
  dsimp only
  split
  · exact .of_rest_of_cmds (Dev.rest_pushReply ..) (Dev.pushReply_cmds ..)
  · exact .of_rest rfl (List.Subset.refl _)

theorem keepsHosts_storeOrphans (x : Ctx) (l : List Reply) (d : Dev) : KeepsHosts d (d.storeOrphans x l) := by
  unfold Dev.storeOrphans
  induction l generalizing d with
  | nil => exact .refl d
  | cons e l ih => exact (keepsHosts_storeOrphan d x e).trans (ih _)

theorem keepsHosts_endOp (d : Dev) (x : Ctx) (id : Nat) (st : Status) (res : List Word) : KeepsHosts d (d.endOp x id st res) := by
  unfold Dev.endOp
  split
  · exact .refl d
  dsimp only
  have hdrains : KeepsHosts d (({ d with ops := tdel d.ops id }.drainEnd (drainId 3 id)).drainEnd (drainId 13 id)) :=
    ⟨rfl, rfl, rfl, rfl, rfl, rfl, rfl, List.Subset.refl _⟩
  refine hdrains.trans ?_
  split
  · exact .of_rest rfl (List.Subset.refl _)
  split
  · refine .of_rest (Dev.rest_endCmd ..) ?_
    rw [Dev.endCmd_cmds]
    exact List.filter_subset_self _
  · exact .refl _

theorem keepsHosts_abortXfers (x : Ctx) (p : CmdRec → Bool) (l : List CmdRec) (d : Dev) : KeepsHosts d (d.abortXfers x p l) := by
  induction l generalizing d with
  | nil => exact .refl d
  | cons c l ih =>
    rw [Dev.abortXfers]
    split
    · have hfreed : KeepsHosts d ((d.dropUnits c.seq).freeDesc c.seq) := ⟨rfl, rfl, rfl, rfl, rfl, rfl, rfl, List.Subset.refl _⟩
      exact (hfreed.trans (keepsHosts_endOp ..)).trans (ih _)
    · exact ih d

theorem keepsHosts_deviceAdopt (d : Dev) (x : Ctx) : KeepsHosts d (d.deviceAdopt x) := by
  unfold Dev.deviceAdopt
  split
  · exact .refl d
  dsimp only
  generalize hu : (if thas d.adopts 16 then d else ({ d with adopts := tset d.adopts 16 ⟨none, d.nextSeq, []⟩ } : Dev)) = u
  have hdu : KeepsHosts d u := by
    subst hu
    split
    · exact .refl d
    · exact .of_rest rfl (List.Subset.refl _)
  refine hdu.trans ?_
  split
  · exact .of_rest_of_cmds (Dev.rest_adoptRing ..) (Dev.adoptRing_cmds ..)
  · exact .refl u

/-! ### Host loss -/

/-- The dies as a host's loss leaves its port, its bindings, its rings and its commands, before the replies that it did not receive are
stored (R67, R68). -/
def Dev.lostHost (d : Dev) (port : Nat) : Dev :=
  let d := d.setPort port { d.port port with lost := true, hbSinceLoss := false }
  let d := (d.takeAdopts (d.adoptsAt port)).2
  let d := ((d.takeHeld fun f => f / 32 == port).2.stopRings fun f => f / 32 == port).refate (fun c => c.fn.port == port) .orphan
  { d with
    parts := tmap d.parts fun _ h => if h = PartHost.bound port then PartHost.orphaned port else h
    ctrlPort := if d.ctrlPort = port then 1 - port else d.ctrlPort
    crc := d.crc.dropPort port }

theorem keepsHosts_hostLoss (d : Dev) (x : Ctx) (port cause : Nat) : KeepsHosts (d.lostHost port) (d.hostLoss x port cause) := by
  have hstored := keepsHosts_storeOrphans x (inOrder
    (((d.setPort port { d.port port with lost := true, hbSinceLoss := false }).takeAdopts
        ((d.setPort port { d.port port with lost := true, hbSinceLoss := false }).adoptsAt port)).1 ++
      (((d.setPort port { d.port port with lost := true, hbSinceLoss := false }).takeAdopts
        ((d.setPort port { d.port port with lost := true, hbSinceLoss := false }).adoptsAt port)).2.takeHeld fun f => f / 32 == port).1))
    (d.lostHost port)
  exact ((hstored.trans (keepsHosts_abortXfers ..)).trans (keepsHosts_deviceAdopt ..)).trans
    (.of_rest_of_cmds (Dev.rest_recDevTo ..) (Dev.recDevTo_cmds ..))

theorem tget_tmap {α β : Type} (t : Tbl α) (f : Nat → α → β) (k : Nat) : tget (tmap t f) k = (tget t k).map (f k) := by
  induction t with
  | nil => rfl
  | cons e t ih =>
    obtain ⟨j, v⟩ := e
    by_cases h : j = k
    · subst h
      simp [tmap, tget]
    · simpa [tmap, tget, h] using ih

@[simp] theorem Dev.port_setPort_same (d : Dev) (n : Nat) (p : PciePort) : (d.setPort n p).port n = p := tgetD_tset_same ..

theorem Dev.lostHost_port (d : Dev) (port : Nat) : ((d.lostHost port).port port).lost = true :=
  congrArg PciePort.lost (d.port_setPort_same port { d.port port with lost := true, hbSinceLoss := false })

/-- The bindings to the lost port are orphaned, and no other changes. -/
theorem Dev.lostHost_host (d : Dev) (port p : Nat) :
    (d.lostHost port).host p = if d.host p = .bound port then .orphaned port else d.host p := by
  have hget : tget (d.lostHost port).parts p = (tget d.parts p).map fun h => if h = PartHost.bound port then PartHost.orphaned port else h :=
    tget_tmap d.parts (fun _ h => if h = PartHost.bound port then PartHost.orphaned port else h) p
  rw [Dev.host, tgetD, hget, Dev.host, tgetD]
  cases tget d.parts p with
  | none => rfl
  | some h => rfl

theorem Dev.lostHost_ctrlPort (d : Dev) {port : Nat} (hport : port < 2) : (d.lostHost port).ctrlPort ≠ port := by
  show (if d.ctrlPort = port then 1 - port else d.ctrlPort) ≠ port
  split
  · omega
  · assumption

/-- No command of the port's functions has a live destination for its reply. -/
theorem Dev.lostHost_fate (d : Dev) {port : Nat} {c : CmdRec} (hc : c ∈ (d.lostHost port).cmds) (hport : c.fn.port = port) : c.fate ≠ .live := by
  obtain ⟨e, -, rfl⟩ := List.mem_map.1 hc
  dsimp only at hport ⊢
  split
  · exact nofun
  case isFalse hcond =>
    intro hlive
    rw [if_neg hcond] at hport
    exact hcond (by simp [hport, hlive])

theorem Dev.lostHost_sq (d : Dev) {port k : Nat} {q : Sq} (hq : tget d.sqs k = some q) (hk : k / 16 / 32 = port) (hen : q.en = true) :
    tget (d.lostHost port).sqs k = some { q with state := 3, cause := 0 } := by
  have hget : tget (d.lostHost port).sqs k =
      (tget d.sqs k).map fun q => if k / 16 / 32 == port && q.en then ({ q with state := 3, cause := 0 } : Sq) else q :=
    tget_tmap d.sqs (fun k q => if k / 16 / 32 == port && q.en then ({ q with state := 3, cause := 0 } : Sq) else q) k
  simp [hget, hq, hk, hen]

theorem linkTimeout_of_due {port : Nat} {x : Ctx} {d : Dev} (hport : port < 2) (hdue : (d.port port).linkDue x.now = true) :
    linkTimeout port x d = (d.hostLoss x port 1).ctxLost port := by
  simp [linkTimeout, hport, hdue]

/-- Settles O6: the port's own records first, and what follows keeps them. -/
theorem hostLossTakesEffect : Obligations.HostLossTakesEffect := by
  unfold Obligations.HostLossTakesEffect
  intro s port hp hport hdue s₀ hs
  have hexec : exec (.linkDownTimeout port) s₀ = .next (s.withDev ((s.dev.hostLoss s.ctx port 1).ctxLost port)) := by
    subst hs
    exact onDev_eq hp (linkTimeout_of_due hport hdue)
  have hctx (e : Dev) : KeepsHosts e (e.ctxLost port) := ⟨rfl, rfl, rfl, rfl, rfl, rfl, rfl, List.Subset.refl _⟩
  have hkeeps := (keepsHosts_hostLoss s.dev s.ctx port 1).trans (hctx _)
  generalize (s.dev.hostLoss s.ctx port 1).ctxLost port = e at hexec hkeeps
  have hhost (p : Nat) : e.host p = (s.dev.lostHost port).host p := by
    rw [Dev.host, hkeeps.parts, Dev.host]
  have hportAt : e.port port = (s.dev.lostHost port).port port := by
    rw [Dev.port, hkeeps.ports, Dev.port]
  refine ⟨_, hexec, ?lost, fun p hb => ?bound, fun p hb => ?other, ?ctrl, fun c hc => ?fate, fun k q hq hk hen => ?rings, hkeeps.ses,
    hkeeps.grid, hkeeps.sec⟩
  case lost => exact (congrArg PciePort.lost hportAt).trans (s.dev.lostHost_port port)
  case bound => exact ((hhost p).trans (s.dev.lostHost_host port p)).trans (if_pos hb)
  case other => exact ((hhost p).trans (s.dev.lostHost_host port p)).trans (if_neg hb)
  case ctrl =>
    intro h
    exact s.dev.lostHost_ctrlPort hport (hkeeps.ctrlPort.symm.trans h)
  case fate => exact s.dev.lostHost_fate (hkeeps.cmds hc)
  case rings => exact ⟨_, (congrArg (tget · k) hkeeps.sqs).trans (s.dev.lostHost_sq hq hk hen), rfl⟩

/-! ### A port that leaves the lost state -/

/-- A module whose port 0 is lost and trains again, and whose VF 1 at that port has a submission ring. -/
def relinked : State :=
  { State.reset with dev := { Dev.reset with
    ports := [(0, { PciePort.reset with training := true, lost := true })]
    sqs := [(16, Sq.reset)] } }

/-- As its partition is not bound to the port, the ring shows NOT_BOUND once the port has left the lost state (R71). -/
theorem exec_pcieDlActive_relinked :
    exec (.pcieDlActive 0) relinked = .next (relinked.withDev (dlActive 0 relinked.ctx relinked.dev)) ∧
      (dlActive 0 relinked.ctx relinked.dev).sqs = [(16, { Sq.reset with state := 4 })] := ⟨rfl, rfl⟩

/-- Refutes O5: when a port leaves the lost state, the rings of VFs that it does not serve change too, so that the ports are not all that
changes. -/
theorem not_portRowsTakeEffect : ¬ Obligations.PortRowsTakeEffect := by
  unfold Obligations.PortRowsTakeEffect
  intro h
  obtain ⟨-, -, -, -, -, -, hactive, -⟩ := h relinked 0 rfl (by decide)
  obtain ⟨t, hexec, -, hframe⟩ := hactive rfl rfl rfl relinked rfl
  obtain ⟨hnext, hsqs⟩ := exec_pcieDlActive_relinked
  obtain rfl := Host.Outcome.next.inj (hexec.symm.trans hnext)
  have hsame : (dlActive 0 relinked.ctx relinked.dev).sqs = relinked.dev.sqs := congrArg (fun u : State => u.dev.sqs) hframe
  rw [hsqs] at hsame
  exact absurd hsame (by decide)

end Sys2Proof.Machine
end

section
/-! The device management commands (R63-R71). -/

namespace Sys2Proof.Machine

/-! ### A started command whose meaning is known -/

section
variable {op : Nat} {c : Cmd} {r : CmdRec} {s : State} {body : Ctx → Req → Dev → Ans} {st : Status} {res : List Word} {d : Dev}

theorem runCmd_done (h : Started op c r s) (hb : body s.ctx (reqOf c r) s.dev = .done st res d) :
    runCmd op c body s.ctx s.dev = d.endCmd s.ctx r st res := by
  rw [runCmd_started h, hb]

theorem runCmd_accept {k : OpKind} (h : Started op c r s) (hb : body s.ctx (reqOf c r) s.dev = .accept res k d) :
    runCmd op c body s.ctx s.dev = (s.acceptedAs c r res k d).dev := by
  rw [runCmd_started h, hb]
  rfl

theorem runCmd_both {fin : List Word} (h : Started op c r s) (hb : body s.ctx (reqOf c r) s.dev = .both res st fin d) :
    runCmd op c body s.ctx s.dev = (d.reply s.ctx r .accepted res).endCmd s.ctx r st fin := by
  rw [runCmd_started h, hb]

end

/-! ### The meanings -/

section
variable {x : Ctx} {q : Req} {d : Dev}

theorem nop_of_clean (h : q.clean [] = true) : nop x q d = .done .ok [loW q.arrival, hiW q.arrival] d := if_pos h

theorem identify_of_clean (h : q.clean [] = true) :
    identify x q d = .done .ok [0x1612#32, d.boot.fwVersion, wd (q.fnOr.num + q.fnOr.port * 65536),
      wd (partMask fun p => d.boundTo p q.fnOr.port)] d := if_pos h

theorem hostStatus_of_clean (h : q.clean [] = true) :
    hostStatus x q d = .done .ok [wd d.hostState, wd (d.partBind q.fnOr.port)] d := if_pos h

theorem setCtrl_of_clean (h : q.clean [(2, 1)] = true) :
    setCtrl x q d = .done .ok [] (({ d with ctrlPort := q.f 2 0 0 }.deviceAdopt x).recDev x .log 0x202
      (source 1 (Config.controlCore q.seq % 8)) 0 0 0) := if_pos h

theorem abortCmd_of_held {v : CmdRec} (h : q.clean [(2, 0xFFFFF)] = true)
    (hfind : d.cmds.find? (fun e => some e.fn == q.fn && e.sq == q.f 2 19 16 && e.tag == q.f 2 15 0 && e.seq != q.seq) = some v)
    (hheld : v.phase = .held) : abortCmd x q d = .done .ok [1] (d.endCmd x v .aborted []) := by
  simp only [abortCmd, h, hfind, hheld, Bool.not_true, Bool.false_eq_true, if_false]

theorem partBindCmd_of_unbound (h : q.clean [(2, 0x10F)] = true) (hfree : d.host (q.f 2 3 0) = .unbound) :
    partBindCmd x q d = .done .ok [] (d.bindTo (q.f 2 3 0) (q.f 2 8 8)) := by
  simp only [partBindCmd, h, hfree, Bool.not_true, Bool.false_eq_true, if_false, if_true]

/-! ### Bindings -/

theorem Dev.host_tset_same (d : Dev) (p : Nat) (h : PartHost) : ({ d with parts := tset d.parts p h } : Dev).host p = h := tgetD_tset_same ..

theorem Dev.host_tset_other (d : Dev) {p k : Nat} (h : PartHost) (hk : k ≠ p) : ({ d with parts := tset d.parts p h } : Dev).host k = d.host k :=
  tgetD_tset_other d.parts h _ hk

theorem Dev.bindTo_host_same (d : Dev) (p port : Nat) : (d.bindTo p port).host p = .bound port := d.host_tset_same p _

theorem Dev.bindTo_host_other (d : Dev) {p k : Nat} (port : Nat) (hk : k ≠ p) : (d.bindTo p port).host k = d.host k := d.host_tset_other _ hk

/-- The partition's VF at the other port is not served (R40). -/
theorem Dev.bindTo_sqs {d : Dev} {p port : Nat} {q : Nat × Sq} (h : q ∈ (d.bindTo p port).sqs)
    (hq : q.1 / 16 = (⟨1 - port, p + 1⟩ : Fn).idx) : q.2.en = false ∧ q.2.state = 4 := by
  obtain ⟨a, -, rfl⟩ := List.mem_map.1 h
  exact ⟨congrArg Sq.en (if_pos (beq_iff_eq.2 hq)), congrArg Sq.state (if_pos (beq_iff_eq.2 hq))⟩

/-- A binding: the partition's own entry, its VF at the other port, and nothing of the commands and the sessions. -/
theorem partBindCmd_effect (h : q.clean [(2, 0x10F)] = true) (hfree : d.host (q.f 2 3 0) = .unbound) :
    ∃ e, partBindCmd x q d = .done .ok [] e ∧ e.host (q.f 2 3 0) = .bound (q.f 2 8 8) ∧ (∀ p, p ≠ q.f 2 3 0 → e.host p = d.host p) ∧
      e.cmds = d.cmds ∧ e.ses = d.ses ∧ ∀ k ∈ e.sqs, k.1 / 16 = Fn.idx ⟨1 - q.f 2 8 8, q.f 2 3 0 + 1⟩ → k.2.en = false ∧ k.2.state = 4 :=
  ⟨_, partBindCmd_of_unbound h hfree, d.bindTo_host_same _ _, fun _ hp => d.bindTo_host_other _ hp, rfl, rfl, fun _ hk => Dev.bindTo_sqs hk⟩

/-! ### A release -/

/-- The dies as a release leaves the partition's rings, its commands and its binding, before the replies that were not received are stored. -/
def Dev.releasedPart (d : Dev) (p port : Nat) : Dev :=
  let a := (d.takeAdopts fun k _ => k == p).2
  let h := (a.takeHeld (· == (⟨port, p + 1⟩ : Fn).idx)).2
  let d := (h.disableRings (· == (⟨port, p + 1⟩ : Fn).idx)).refate (fun c => c.fn.port == port && c.part == some p) .orphan
  { d with parts := tset d.parts p (.released port) }

theorem Dev.releasedPart_host_same (d : Dev) (p port : Nat) : (d.releasedPart p port).host p = .released port := Dev.host_tset_same _ p _

theorem Dev.releasedPart_parts (d : Dev) (p port : Nat) : (d.releasedPart p port).parts = tset d.parts p (.released port) := rfl

theorem Dev.releasedPart_host_other (d : Dev) {p k : Nat} (port : Nat) (hk : k ≠ p) : (d.releasedPart p port).host k = d.host k := by
  rw [Dev.host, d.releasedPart_parts, Dev.host, tgetD_tset_other _ _ _ hk]

theorem Dev.releasedPart_sqs {d : Dev} {p port : Nat} {q : Nat × Sq} (h : q ∈ (d.releasedPart p port).sqs)
    (hq : q.1 / 16 = (⟨port, p + 1⟩ : Fn).idx) : q.2.en = false := by
  obtain ⟨a, -, rfl⟩ := List.mem_map.1 h
  exact congrArg Sq.en (if_pos (beq_iff_eq.2 hq))

/-- Commands that keep running with another fate have no live destination. -/
theorem Dev.refate_fate {d : Dev} {p : CmdRec → Bool} {f : Fate} (hf : f ≠ .live) {c : CmdRec} (hc : c ∈ (d.refate p f).cmds) (hpc : p c = true) : c.fate ≠ .live := by
  obtain ⟨e, -, rfl⟩ := List.mem_map.1 hc
  split
  · exact hf
  case isFalse hcond =>
    rw [if_neg hcond] at hpc
    intro hlive
    exact hcond (by simp [hpc, hlive])

theorem Dev.releasedPart_fate {d : Dev} {p port : Nat} {c : CmdRec} (hc : c ∈ (d.releasedPart p port).cmds) (hport : c.fn.port = port)
    (hpart : c.part = some p) : c.fate ≠ .live :=
  Dev.refate_fate (p := fun c => c.fn.port == port && c.part == some p) (f := .orphan) nofun hc (by simp [hport, hpart])

/-- A release answers with what of the partition is still outstanding, and keeps what it has made of the bindings and the rings. -/
theorem partRelease_of_bound (h : q.clean [(2, 0xF)] = true) (hbound : d.boundTo (q.f 2 3 0) q.fnOr.port = true) :
    ∃ e, partRelease x q d = .done .ok [wd (e.outPart (q.f 2 3 0))] e ∧ KeepsHosts (d.releasedPart (q.f 2 3 0) q.fnOr.port) e := by
  simp only [partRelease, h, hbound, Bool.not_true, Bool.false_eq_true, if_false]
  exact ⟨_, rfl, (keepsHosts_storeOrphans ..).trans (keepsHosts_abortXfers ..)⟩

/-- A release: the partition's own entry, the rings of its VF, and the destination of its commands. -/
theorem partRelease_effect (h : q.clean [(2, 0xF)] = true) (hbound : d.boundTo (q.f 2 3 0) q.fnOr.port = true) :
    ∃ e, partRelease x q d = .done .ok [wd (e.outPart (q.f 2 3 0))] e ∧ e.host (q.f 2 3 0) = .released q.fnOr.port ∧
      (∀ p, p ≠ q.f 2 3 0 → e.host p = d.host p) ∧ (∀ k ∈ e.sqs, k.1 / 16 = Fn.idx ⟨q.fnOr.port, q.f 2 3 0 + 1⟩ → k.2.en = false) ∧
      (∀ k ∈ e.cmds, k.fn.port = q.fnOr.port → k.part = some (q.f 2 3 0) → k.fate ≠ .live) ∧ e.ses = d.ses := by
  obtain ⟨e, he, hkeeps⟩ := partRelease_of_bound (x := x) h hbound
  have hhost (p : Nat) : e.host p = (d.releasedPart (q.f 2 3 0) q.fnOr.port).host p := congrArg (fun t => tgetD t p PartHost.unbound) hkeeps.parts
  refine ⟨e, he, (hhost _).trans (Dev.releasedPart_host_same ..), fun p hp => (hhost p).trans (Dev.releasedPart_host_other _ _ hp),
    fun k hk hidx => ?_, fun k hk hport hpart => ?_, hkeeps.ses⟩
  · rw [hkeeps.sqs] at hk
    exact Dev.releasedPart_sqs hk hidx
  · exact Dev.releasedPart_fate (hkeeps.cmds hk) hport hpart

/-! ### An adoption -/

theorem adopt_of_free (h : q.clean [(2, 0xF)] = true) (hfree : d.host (q.f 2 3 0) = .orphaned 0 ∨ d.host (q.f 2 3 0) = .orphaned 1 ∨
      d.host (q.f 2 3 0) = .released 0 ∨ d.host (q.f 2 3 0) = .released 1) (hvf : (d.port q.fnOr.port).vfEnable = true)
    (hnum : q.f 2 3 0 + 1 ≤ (d.port q.fnOr.port).numVfs) :
    ∃ e, adopt x q d = .done .ok [wd (d.outPart (q.f 2 3 0)), wd (tgetD d.orphans (q.f 2 3 0) []).length] e ∧
      e.parts = (d.bindTo (q.f 2 3 0) q.fnOr.port).parts ∧ e.cmds = d.cmds ∧ e.ses = d.ses := by
  have hvfs : ¬ ((!(d.port q.fnOr.port).vfEnable) = true ∨ (d.port q.fnOr.port).numVfs < q.f 2 3 0 + 1) := by
    rw [hvf]
    exact not_or.2 ⟨nofun, hnum.not_gt⟩
  have hstep : adopt x q d = .done .ok [wd (d.outPart (q.f 2 3 0)), wd (tgetD d.orphans (q.f 2 3 0) []).length]
      (let d := (d.bindTo (q.f 2 3 0) q.fnOr.port).startRecover x (17 + q.fnOr.port)
       if d.orphanWork (q.f 2 3 0) then { d with adopts := tset d.adopts (q.f 2 3 0) ⟨none, d.nextSeq, []⟩ } else d) := by
    obtain hfree | hfree | hfree | hfree := hfree <;>
      simp only [adopt, h, hfree, hvfs, Bool.not_true, Bool.false_eq_true, if_false]
  refine ⟨_, hstep, ?_⟩
  dsimp only
  split <;> exact ⟨rfl, rfl, rfl⟩

end

/-- Settles O7: one lemma for each command's meaning; what a release and an adoption do to the bindings is theirs. -/
theorem deviceCommandsComplete : Obligations.DeviceCommandsComplete := by
  unfold Obligations.DeviceCommandsComplete
  rintro s₀ s c r rfl
  refine ⟨fun hs hc => hostCmd_done hs (nop_of_clean hc), fun hs hc => hostCmd_done hs (identify_of_clean hc),
    fun hs hc => hostCmd_done hs (hostStatus_of_clean hc), fun hs hc v hfind hheld => ?abort, fun hs hc => hostCmd_done hs (setCtrl_of_clean hc),
    fun hs hc hfree => ?bind, fun hs hc hbound => ?release, fun hs hc hfree hvf hnum => ?adopt⟩
  case abort =>
    have hdone := runCmd_done hs (abortCmd_of_held hc hfind hheld)
    refine onDev_eq hs.1 ?_
    rw [abortRow, hdone]
  case bind =>
    obtain ⟨e, he, hsame, hother, hcmds, hses, hsqs⟩ := partBindCmd_effect (x := (s₀.reach (cmdKey c)).ctx) (q := reqOf c r) hc hfree
    exact ⟨e, hostCmd_done hs he, hsame, hother, hcmds, hses, hsqs⟩
  case release =>
    obtain ⟨e, he, hsame, hother, hsqs, hcmds, hses⟩ := partRelease_effect (x := (s₀.reach (cmdKey c)).ctx) (q := reqOf c r) hc hbound
    exact ⟨e, hostCmd_done hs he, hsame, hother, hsqs, hcmds, hses⟩
  case adopt =>
    obtain ⟨e, he, hparts, hcmds, hses⟩ := adopt_of_free (x := (s₀.reach (cmdKey c)).ctx) (q := reqOf c r) hc hfree hvf hnum
    have hhost (p : Nat) : e.host p = ((s₀.reach (cmdKey c)).dev.bindTo ((reqOf c r).f 2 3 0) r.fn.port).host p := by
      rw [Dev.host, hparts, Dev.host]
      rfl
    exact ⟨e, hostCmd_done hs he, (hhost _).trans (Dev.bindTo_host_same ..), fun p hp => (hhost p).trans (Dev.bindTo_host_other _ _ hp), hcmds, hses⟩

end Sys2Proof.Machine
end

section
/-! Cancels of configuration commits (R36): without the event tick a pending commit whose target tick has come has not swapped, and a cancel
of it comes too late. -/

namespace Sys2Proof.Machine

/-! ### A commit whose target tick has come -/

/-- CFG_CANCEL of identifier 1, by the PF of port 0. -/
def lateCancel : Cmd := ⟨.ring ⟨0, 0⟩ 0 0, [0x01000F11, 0, 1, 0, 0, 0, 0, 0, 0, 0, 0, 0, 0, 0, 0, 0]⟩

/-- The record under which it was fetched. -/
def lateCancelRec : CmdRec := ⟨1, lateCancel, ⟨0, 0⟩, 0, 0, 0, 0x0F11, 0, none, .started, false, false, false, .live, 0, 0⟩

/-- The pending commit: its target tick is 0. -/
def lateCommit : Commit := ⟨1, ⟨0, 0⟩, 16, 2, 0⟩

/-- A powered module at tick 0 whose event tick does not run, with the commit pending and the cancel started. -/
def lateState : State :=
  { State.reset with dev := { Dev.reset with
    boot := { Boot.reset with state := 6, stage := 8 }
    cfg := [(0, { CfgFn.reset with id := 1 })]
    commits := [lateCommit]
    cmds := [lateCancelRec] } }

theorem lateCancel_started : Started 0x0F11 lateCancel lateCancelRec lateState := by
  unfold Started
  decide +kernel

/-- The cancel comes too late (R36): the commit stays. -/
theorem cfgCancelCmd_late : cfgCancelCmd lateState.ctx (reqOf lateCancel lateCancelRec) lateState.dev =
    .done .badParam [] (lateState.dev.cfgStatus ⟨0, 0⟩ 0 .badParam) := rfl

theorem State.answered_commits (s : State) (r : CmdRec) (st : Status) (res : List Word) (d : Dev) :
    (s.answered r st res d).dev.commits = d.commits := (congrArg Dev.commits (s.answered_rest r st res d) :)

/-- Refutes O8: the cancel of a commit whose target tick has come, which the event tick has not swapped, is not answered OK and leaves the
commit pending. -/
theorem not_configCommandsComplete : ¬ Obligations.ConfigCommandsComplete := by
  unfold Obligations.ConfigCommandsComplete
  intro h
  obtain ⟨-, hcancel, -⟩ := h lateState lateState lateCancel lateCancelRec rfl
  obtain ⟨d, hexec, hcommits, -⟩ := hcancel lateCancel_started (by decide +kernel) (by decide +kernel)
  have hlate : exec (.cfgCancel lateCancel) lateState = .next (lateState.answered lateCancelRec .badParam []
      (lateState.dev.cfgStatus ⟨0, 0⟩ 0 .badParam)) := hostCmd_done lateCancel_started cfgCancelCmd_late
  have hsame := congrArg (fun t : State => t.dev.commits) (Host.Outcome.next.inj (hexec.symm.trans hlate))
  simp only [State.answered_commits, hcommits] at hsame
  exact absurd hsame (by decide +kernel)

/-- CFG_COMMIT_CTRL.CANCEL leaves the same commit pending. -/
theorem exec_cfgCommitCtrlCancel_late : ∃ t, exec (.cfgCommitCtrlCancel ⟨0, 0⟩ 0x40) lateState = .next t ∧ t.dev.commits = [lateCommit] :=
  ⟨_, rfl, rfl⟩

/-- Refutes O9: CFG_COMMIT_CTRL.CANCEL of a commit whose target tick has come, which the event tick has not swapped, leaves the commit
pending. -/
theorem not_configRowsTakeEffect : ¬ Obligations.ConfigRowsTakeEffect := by
  unfold Obligations.ConfigRowsTakeEffect
  intro h
  obtain ⟨-, hcancel, -⟩ := h lateState ⟨0, 0⟩ 0x40 rfl (by decide +kernel) (by decide +kernel)
  obtain ⟨t, hexec, hcommits, -⟩ := hcancel (by decide +kernel) (by decide +kernel) lateState rfl
  obtain ⟨u, hlate, hkept⟩ := exec_cfgCommitCtrlCancel_late
  obtain rfl := Host.Outcome.next.inj (hexec.symm.trans hlate)
  rw [hkept] at hcommits
  exact absurd hcommits (by decide +kernel)

end Sys2Proof.Machine
end

section
/-! Timers, device time and plain registers (R6, R22, R26, R27, R38). -/

namespace Sys2Proof.Machine

section
variable {x : Ctx} {d : Dev} {f : Fn}

/-! ### Timers -/

/-- A PF's timer fires at its compare value, once in that tick (R26, R38). -/
theorem timerHit_of_due {port n : Nat} {k : Timer} (hport : port < 2) (hn : n < 16) (hk : tget d.timers (port * 16 + n) = some k)
    (hen : k.en = true) (hcmp : k.cmp = x.now % 2 ^ 64) (hlast : k.last ≠ some x.now) :
    timerHit port n x d = Dev.recDevTo { d with timers := tset d.timers (port * 16 + n) { k with fired := true, cmp := (k.cmp + k.period) % 2 ^ 64, last := some x.now } } x port .log 0x201 (source 17 (16 + n))
      (wd port) 0 0 := by
  have ht : tgetD d.timers (port * 16 + n) Timer.reset = k := by rw [tgetD, hk, Option.getD_some]
  have hdue : (port < 2 && n < 16 && k.en && k.cmp == x.now % 2 ^ 64 && k.last != some x.now) = true := by
    rw [decide_eq_true hport, decide_eq_true hn, hen, beq_iff_eq.2 hcmp, bne_iff_ne.2 hlast]
    rfl
  rw [timerHit]
  dsimp only
  rw [ht, if_pos hdue]

/-! ### Device time -/

theorem nowLo_of_live (hl : d.fnLive f = true) :
    nowLo f x d = { d with nowHi := tset d.nowHi f.idx (hiW x.now) }.out (.readData f (leBytes 4 (x.now % 2 ^ 32)) false) := if_pos hl

/-- The register table's rows of TIME_NOW_LO and TIME_NOW_HI. -/
def timeNowLoReg : RegDesc := ⟨"TIME_NOW_LO", 0x110000, 4, 1, true, .dev, [⟨31, 0, .ro, 0, 0, 4294967295⟩]⟩
def timeNowHiReg : RegDesc := ⟨"TIME_NOW_HI", 0x110004, 4, 1, true, .fn, [⟨31, 0, .ro, 0, 0, 4294967295⟩]⟩

theorem regAt_timeNowLo : regAt 0x110000 = some (timeNowLoReg, 0) := by decide +kernel

theorem regAt_timeNowHi : regAt 0x110004 = some (timeNowHiReg, 0) := by decide +kernel

theorem Dev.blockUp_of_ready (h : d.boot.state = 6) (blk : Nat) : d.blockUp blk = true := by
  simp [Dev.blockUp, h]

/-- A register without RC fields is read without a change of any. -/
theorem Dev.clearRc_of_none {r : RegDesc} (hrc : r.mask .rc = 0) (p : Option Nat) (off : Nat) : d.clearRc f p r off = d := by
  rw [Dev.clearRc, if_pos hrc]

/-- A read of TIME_NOW_LO shows the low half of device time, and latches the high half for its function (R22). -/
theorem Dev.readReg_timeNowLo (hb : d.boot.state = 6) :
    d.readReg x f 0x110000 = (x.now % 2 ^ 32, { d with nowHi := tset d.nowHi (hiKey f 0) (hiW x.now) }) := by
  have hrc : timeNowLoReg.mask .rc = 0 := by decide +kernel
  have hval : d.regRead x f 0x110000 = x.now % 2 ^ 32 := by
    have hmsix : isMsix 0x110000 = false := by decide
    simp [Dev.regRead, Dev.blockUp_of_ready hb, hmsix, regAt_timeNowLo, timeNowLoReg, Dev.regVal, Dev.timeVal]
  simp only [Dev.readReg, regAt_timeNowLo, Dev.clearRc_of_none hrc, ite_self, hval]
  rfl

/-- A read of TIME_NOW_HI shows what was latched. -/
theorem Dev.readReg_timeNowHi (hb : d.boot.state = 6) : d.readReg x f 0x110004 = ((tgetD d.nowHi f.idx 0).toNat, d) := by
  have hrc : timeNowHiReg.mask .rc = 0 := by decide +kernel
  have hval : d.regRead x f 0x110004 = (tgetD d.nowHi f.idx 0).toNat := by
    have hmsix : isMsix 0x110004 = false := by decide
    simp [Dev.regRead, Dev.blockUp_of_ready hb, hmsix, regAt_timeNowHi, timeNowHiReg, Dev.regVal, Dev.timeVal]
  simp only [Dev.readReg, regAt_timeNowHi, Dev.clearRc_of_none hrc, ite_self, hval]
  rfl

theorem hiW_toNat (n : Nat) : (hiW n).toNat = n / 2 ^ 32 % 2 ^ 32 := BitVec.toNat_ofNat ..

/-- A 64-bit read of device time returns both halves of the same tick. -/
theorem readClear_timeNow (hl : d.fnLive f = true) (hb : d.boot.state = 6) :
    readClear f .bar0 0x110000 8 x d = ({ d with nowHi := tset d.nowHi (hiKey f 0) (hiW x.now) } : Dev).out
      (.readData f (leBytes 4 (x.now % 2 ^ 32) ++ leBytes 4 (x.now / 2 ^ 32 % 2 ^ 32)) false) := by
  have hlatched : tgetD (tset d.nowHi (hiKey f 0) (hiW x.now)) f.idx 0 = hiW x.now := tgetD_tset_same ..
  have hhi : ({ d with nowHi := tset d.nowHi (hiKey f 0) (hiW x.now) } : Dev).readReg x f (0x110000 + 4) =
      (x.now / 2 ^ 32 % 2 ^ 32, { d with nowHi := tset d.nowHi (hiKey f 0) (hiW x.now) }) := by
    rw [Dev.readReg_timeNowHi (by exact hb), hlatched, hiW_toNat]
  have haligned : (8 : Nat) = 8 ∧ barOffset .bar0 0x110000 % 8 = 0 := by decide
  rw [readClear]
  dsimp only
  rw [if_neg (by simp [hl]), if_pos haligned]
  simp only [barOffset, Dev.readReg_timeNowLo hb, hhi]

/-- A read that is not aligned returns zeros, and clears nothing (R4). -/
theorem readClear_of_misaligned {off : Nat} (hl : d.fnLive f = true) (ho : off % 4 ≠ 0) :
    readClear f .bar0 off 4 x d = d.out (.readData f [0, 0, 0, 0] false) := by
  simp [readClear, barOffset, hl, ho, List.replicate]

/-! ### Counters and shadow values -/

/-- The blocks whose RC counters are plain: reading clears the counter under the register's key, and nothing else (R6). -/
theorem Dev.clearRc_of_plain {r : RegDesc} {p : Option Nat} {off k : Nat} (hrc : r.mask .rc ≠ 0)
    (hb : off / 0x10000 = 4 ∨ off / 0x10000 = 8 ∨ off / 0x10000 = 9 ∨ off / 0x10000 = 11 ∨ off / 0x10000 = 12 ∨ off / 0x10000 = 13)
    (hk : regKeyOf r p off = some k) : d.clearRc f p r off = d.withCnt (tdel d.regs.cnt k) := by
  rw [Dev.clearRc]
  dsimp only
  rw [if_neg hrc, if_neg (by omega), if_neg (by omega), if_neg (by omega), if_neg (by omega), if_neg (by omega), hk, Option.elim_some]

theorem readClear_of_counter {off k : Nat} {r : RegDesc × Nat} (hl : d.fnLive f = true) (hst : d.boot.state = 6) (ho : off % 4 = 0)
    (hr : regAt off = some r)
    (hb : off / 0x10000 = 4 ∨ off / 0x10000 = 8 ∨ off / 0x10000 = 9 ∨ off / 0x10000 = 11 ∨ off / 0x10000 = 12 ∨ off / 0x10000 = 13)
    (hrc : r.1.mask .rc ≠ 0) (hf : f.num = 0 ∨ r.1.vf = true) (hk : regKeyOf r.1 (d.viewPart f) off = some k) (hlatch : latchOf off = none) :
    readClear f .bar0 off 4 x d = (d.withCnt (tdel d.regs.cnt k)).out (.readData f (leBytes 4 (d.regRead x f off)) false) := by
  have hshown : ¬ ((f.num ≠ 0 ∧ (!r.1.vf) = true) ∨ (!d.blockUp (off / 0x10000)) = true) := by
    rw [Dev.blockUp_of_ready hst]
    obtain hf | hf := hf <;> simp [hf]
  obtain ⟨desc, i⟩ := r
  have hread : d.readReg x f off = (d.regRead x f off, d.withCnt (tdel d.regs.cnt k)) := by
    rw [Dev.readReg, hr]
    dsimp only
    rw [if_neg hshown, Dev.clearRc_of_plain hrc hb hk, Dev.latchHi, hlatch]
  rw [readClear_word x hl ho, hread]

/-- A write of a register with SH fields, in a block that has no register of another kind, goes to the shadow set (R27). -/
theorem registerWrite_of_shadow {off k sc : Nat} {v : BitVec 64} {r : RegDesc × Nat} (hl : d.fnLive f = true) (hw : d.writable = true)
    (ho : off % 4 = 0) (hr : regAt off = some r)
    (hb : off / 0x10000 = 3 ∨ off / 0x10000 = 4 ∨ off / 0x10000 = 5 ∨ off / 0x10000 = 8 ∨ off / 0x10000 = 9 ∨ off / 0x10000 = 11 ∨
      off / 0x10000 = 12 ∨ off / 0x10000 = 13)
    (hsh : r.1.mask .sh ≠ 0) (hf : f.num = 0 ∨ r.1.vf = true) (hsc : regScopeKey r.1 (d.viewPart f) = some sc)
    (hk : regKeyOf r.1 (d.viewPart f) off = some k) (hbusy : d.sliceBusy sc (off / 0x10000) = false) :
    registerWrite f .bar0 off 4 v x d = { d with regs := { d.regs with
      shd := tset d.regs.shd k ((d.shdV k off &&& (top32 - r.1.shBits off)) ||| ((v.setWidth 32 : Word).toNat &&& r.1.shBits off)) } } := by
  obtain ⟨desc, i⟩ := r
  have hsh' : d.shWrite f desc off (v.setWidth 32) = { d with regs := { d.regs with
      shd := tset d.regs.shd k ((d.shdV k off &&& (top32 - desc.shBits off)) ||| ((v.setWidth 32 : Word).toNat &&& desc.shBits off)) } } := by
    simp only [Dev.shWrite, hsc, hk, hbusy, Bool.false_eq_true, if_false]
  have hrw : d.rwWrite f off (v.setWidth 32) = d := by
    unfold Dev.rwWrite
    dsimp only
    split
    · omega
    · omega
    · omega
    · omega
    · rfl
  have hput : d.regPut x f desc off (v.setWidth 32) = d.shWrite f desc off (v.setWidth 32) := by
    have hrest : (if desc.mask .sh = 0 then d.rwWrite f off (v.setWidth 32)
        else (d.rwWrite f off (v.setWidth 32)).shWrite f desc off (v.setWidth 32)) = d.shWrite f desc off (v.setWidth 32) := by
      rw [if_neg hsh, hrw]
    unfold Dev.regPut
    dsimp only
    split
    · omega
    · omega
    · omega
    · omega
    · omega
    · exact hrest
  have hmsix : isMsix off = false := by
    simp only [isMsix, Bool.and_eq_false_iff, decide_eq_false_iff_not]
    omega
  have hvf : ¬ (f.num ≠ 0 ∧ (!desc.vf) = true) := by
    rintro ⟨hn, hv⟩
    obtain hf | hf := hf
    · exact hn hf
    · simp [show desc.vf = true from hf] at hv
  have hgo : ¬ ((!d.fnLive f) = true ∨ Bar.bar0 ≠ .bar0) := by simp [hl]
  rw [registerWrite]
  dsimp only
  rw [if_neg hgo, if_pos ⟨rfl, ho⟩, regWrite, if_neg (by omega), if_neg (by simp [hw]), if_neg (by simp [hmsix]), hr]
  dsimp only
  rw [if_neg hvf, hput, hsh']

/-- A write to BAR4 has no effect (R42). -/
theorem registerWrite_bar4 (off size : Nat) (v : BitVec 64) : registerWrite f .bar4 off size v x d = d := by
  rw [registerWrite, if_pos (.inr nofun)]

end

/-- Settles O10: timers, the reads of device time, a counter's read, a shadow write and a write to BAR4, each by its own lemma. -/
theorem timeAndRegisterRowsTakeEffect : Obligations.TimeAndRegisterRowsTakeEffect := by
  unfold Obligations.TimeAndRegisterRowsTakeEffect
  intro s hp
  refine ⟨fun port n k hport hn hk hen hcmp hlast s₀ hs => ?timer, fun f hl s₀ hs => ?nowLo,
    fun f off b k r hl hst ho hr hb hblock hrc hf hk hlatch s₀ hs => ?counter, fun f hl hst s₀ hs => ?now, fun f off hl ho s₀ hs => ?misaligned,
    fun f off b k sc v r hl hw ho hr hb hblock hsh hf hsc hk hbusy s₀ hs => ?shadow, fun f off size v s₀ hs => ?bar4⟩
  all_goals subst hs
  case timer => exact onDev_eq hp (timerHit_of_due hport hn hk hen hcmp hlast)
  case nowLo => exact onDev_eq hp (nowLo_of_live hl)
  case counter =>
    subst hb
    exact onDev_eq hp (readClear_of_counter hl hst ho hr hblock hrc hf hk hlatch)
  case now => exact ⟨_, onDev_eq hp (readClear_timeNow hl hst), rfl⟩
  case misaligned => exact onDev_eq hp (readClear_of_misaligned hl ho)
  case shadow =>
    subst hb
    exact onDev_eq hp (registerWrite_of_shadow hl hw ho hr hblock hsh hf hsc hk hbusy)
  case bar4 => exact onDev_eq hp (registerWrite_bar4 off size v)

end Sys2Proof.Machine
end

section
/-! The check-value unit's rows (R454-R456) and the meter's use of it (R401). -/

namespace Sys2Proof.Machine

section
variable {d : Dev} {f : Fn} {c : CrcUnit} {port : Nat}

theorem crcRun_leBytes_two (v w : Word) :
    crcRun v (leBytes 2 w.toNat) = crcByte (crcByte v (w.extractLsb' 0 8)) (w.extractLsb' 8 8) := by
  have h0 : BitVec.ofNat 8 w.toNat = w.extractLsb' 0 8 := rfl
  have h1 : BitVec.ofNat 8 (w.toNat / 256) = w.extractLsb' 8 8 := by
    simp [BitVec.extractLsb', Nat.shiftRight_eq_div_pow]
  simp only [leBytes, crcRun, h0, h1]

theorem crcRun_leBytes_four (v w : Word) :
    crcRun v (leBytes 4 w.toNat) = crcByte (crcByte (crcByte (crcByte v (w.extractLsb' 0 8)) (w.extractLsb' 8 8)) (w.extractLsb' 16 8))
      (w.extractLsb' 24 8) := by
  have h0 : BitVec.ofNat 8 w.toNat = w.extractLsb' 0 8 := rfl
  have h1 : BitVec.ofNat 8 (w.toNat / 256) = w.extractLsb' 8 8 := by
    simp [BitVec.extractLsb', Nat.shiftRight_eq_div_pow]
  have h2 : BitVec.ofNat 8 (w.toNat / 256 / 256) = w.extractLsb' 16 8 := by
    simp [BitVec.extractLsb', Nat.shiftRight_eq_div_pow, Nat.div_div_eq_div_mul]
  have h3 : BitVec.ofNat 8 (w.toNat / 256 / 256 / 256) = w.extractLsb' 24 8 := by
    simp [BitVec.extractLsb', Nat.shiftRight_eq_div_pow, Nat.div_div_eq_div_mul]
  simp only [leBytes, crcRun, h0, h1, h2, h3]

theorem setWidth_eq_extract_low (w : Word) : w.setWidth 8 = w.extractLsb' 0 8 := by
  ext i hi
  simp

/-- CLAIM makes a PF the owner of a unit that has none (R455). -/
theorem CrcUnit.apply_claim_of_free (h : c.owner = 0) : c.apply port (.ctrl false true false) = { c with owner := crcOwner port } := by
  simp [CrcUnit.apply, h]

theorem CrcUnit.apply_release_of_owner (h : c.owner = crcOwner port) : c.apply port (.ctrl true false false) = { c with owner := 0 } := by
  simp [CrcUnit.apply, h]

/-- Data of another function is refused, and counted (R455). -/
theorem CrcUnit.apply_data_of_not_owner (n : Nat) (w : Word) (h : c.owner ≠ crcOwner port) :
    c.apply port (.data n w) = { c with refused := satAdd top32 c.refused 1 } := by
  simp [CrcUnit.apply, h]

/-- While the meter holds the unit a PF's write waits, in order (R401). -/
theorem crcWrite_of_held (w : CrcWrite) (x : Ctx) (hf : f.num = 0) (hl : d.fnLive f = true) (hw : d.writable = true)
    (hm : d.crc.meter = true) : crcWrite f w x d = { d with crc := { d.crc with waiting := d.crc.waiting ++ [(f.port, w)] } } := by
  simp [crcWrite, hf, hl, hw, hm]

end

/-- Settles O11: the writes of the unit's owner and of others, while the meter does not hold the unit and while it does. -/
theorem checkValueUnitRowsTakeEffect : Obligations.CheckValueUnitRowsTakeEffect := by
  unfold Obligations.CheckValueUnitRowsTakeEffect
  intro s f hp hf hl hw
  have free (hm : s.dev.crc.meter = false) (w : CrcWrite) :
      onDev (crcWrite f w) s = .next (s.withDev { s.dev with crc := s.dev.crc.apply f.port w }) :=
    onDev_eq hp (crcWrite_of_unheld w _ hf hl hw hm)
  refine ⟨fun hm => ⟨fun hown => ?claim, fun hown => ⟨?init, ?release, fun w => ?in8, fun w => ?in16, fun w => ?in32⟩, fun w hown => ?refused,
    ?take⟩, fun hm => ⟨fun w => ?waits, ?applied⟩⟩
  case take => exact onDev_eq hp (by rw [crcTake, if_neg (by simp [hm])])
  case applied => exact onDev_eq hp (by rw [crcGive, if_pos hm])
  all_goals rintro s₀ rfl
  case claim => exact (free hm _).trans (by rw [CrcUnit.apply_claim_of_free hown]; rfl)
  case init => exact (free hm _).trans (by rw [CrcUnit.apply_init_of_owner hown])
  case release => exact (free hm _).trans (by rw [CrcUnit.apply_release_of_owner hown])
  case in8 => exact (free hm _).trans (by rw [CrcUnit.apply_data_of_owner 1 w hown, crcRun_leBytes_one, setWidth_eq_extract_low])
  case in16 => exact (free hm _).trans (by rw [CrcUnit.apply_data_of_owner 2 w hown, crcRun_leBytes_two])
  case in32 => exact (free hm _).trans (by rw [CrcUnit.apply_data_of_owner 4 w hown, crcRun_leBytes_four])
  case refused => exact (free hm _).trans (by rw [CrcUnit.apply_data_of_not_owner 1 w hown]; rfl)
  case waits => exact onDev_eq hp (crcWrite_of_held _ _ hf hl hw hm)

end Sys2Proof.Machine
end

section
/-! Resets: their requests, and each scope's reset tick (R439-R442). -/

namespace Sys2Proof.Machine

section
variable {s : State} {x : Ctx} {q : Req} {d : Dev} {f : Fn} {w : Word} {src : Nat}

/-- A reset asked for while the module is not halted falls due 12,500 ticks later, under the source that asked. -/
theorem Dev.askReset_of_running (h : d.halted = false) (scope source : Nat) :
    d.askReset x scope source = { d with boot := { d.boot with resets := d.boot.resets ++ [(scope * 4 + source, x.now + 12500)] } } := by
  simp [Dev.askReset, h]

theorem resetCmd_of_scope (hc : q.clean [(2, 7)] = true) (hlo : 1 ≤ q.f 2 2 0) (hhi : q.f 2 2 0 ≤ 3) (hh : d.halted = false) :
    resetCmd x q d = .done .ok [loW (x.now + 12500), hiW (x.now + 12500)]
      { d with boot := { d.boot with resets := d.boot.resets ++ [(q.f 2 2 0 * 4 + 1, x.now + 12500)] } } := by
  have hok : ¬ ((!q.clean [(2, 7)]) = true ∨ q.f 2 2 0 = 0 ∨ q.f 2 2 0 > 3) := by
    rw [hc]
    simp only [Bool.not_true, Bool.false_eq_true, false_or]
    omega
  rw [← Dev.askReset_of_running hh]
  exact if_neg hok

theorem resetWrite_of_key (hc : d.isCtrl f = true) (hkey : wfld w 31 24 = 0xA5) (hlo : 1 ≤ wfld w 2 0) (hhi : wfld w 2 0 ≤ 3)
    (hh : d.halted = false) :
    resetWrite f w x d = { d with boot := { d.boot with resets := d.boot.resets ++ [(wfld w 2 0 * 4 + 2, x.now + 12500)] } } :=
  (if_pos ⟨hc, hkey, hlo, hhi⟩).trans (Dev.askReset_of_running hh _ _)

theorem devReset_of_due (h : s.dev.resetDue s.clock.now s.clock.tick 1 = some src) :
    devReset s = { s with clock := { s.clock with tick := true }, dev := s.dev.deviceReset s.ctx src } := by
  rw [devReset, h]

theorem gridRst_of_due (h : s.dev.resetDue s.clock.now s.clock.tick 2 = some src) :
    gridRst s = s.withDev ((((s.dev.gridReset s.ctx).resetMade 2 src).schedule s.ctx).reedSettle s.ctx) := by
  rw [gridRst, h]
  rfl

theorem glumeRst_of_due (h : s.dev.resetDue s.clock.now s.clock.tick 3 = some src) :
    glumeRst s = s.withDev ((((s.dev.glumeReset s.ctx).resetMade 3 src).schedule s.ctx).reedSettle s.ctx) := by
  rw [glumeRst, h]
  rfl

theorem whilePowered_eq {g : State → State} (hp : s.clock.power = true) : whilePowered g s = .next (g s) := by
  rw [whilePowered, if_pos hp]

end

/-- Settles O13: a reset's request takes its due tick, and the reset that is due runs for its scope. -/
theorem resetRowsTakeEffect : Obligations.ResetRowsTakeEffect := by
  unfold Obligations.ResetRowsTakeEffect
  refine ⟨?command, ?register, ?device, ?grid, ?glume⟩
  case command =>
    rintro s₀ s c r rfl hs hc hlo hhi hh
    exact hostCmd_done hs (resetCmd_of_scope hc hlo hhi hh)
  case register =>
    rintro s f w hp hc hkey hlo hhi hh s₀ rfl
    exact onDev_eq hp (resetWrite_of_key hc hkey hlo hhi hh)
  case device =>
    rintro s src hp hdue s₀ rfl
    exact ⟨_, (whilePowered_eq hp).trans (congrArg _ (devReset_of_due hdue)), rfl, rfl, rfl, rfl, rfl, rfl, rfl, rfl, rfl, rfl, rfl, rfl, rfl⟩
  case grid =>
    intro s src hp hdue
    refine ⟨?_, rfl, rfl, rfl⟩
    rintro s₀ rfl
    exact (whilePowered_eq hp).trans (congrArg _ (gridRst_of_due hdue))
  case glume =>
    rintro s src hp hdue s₀ rfl
    exact (whilePowered_eq hp).trans (congrArg _ (glumeRst_of_due hdue))

end Sys2Proof.Machine
end

section
/-! Loss of the tick or of the control cores, faults of control cores, and scrubs (R421-R427). -/

namespace Sys2Proof.Machine

/-! ### Event records change only the paths that stage them -/

/-- The dies differ at most in the staged records of their paths. -/
def OnlyPaths (d e : Dev) : Prop := ∃ p, e = { d with paths := p }

theorem OnlyPaths.refl (d : Dev) : OnlyPaths d d := ⟨d.paths, rfl⟩

theorem OnlyPaths.trans {d e f : Dev} (h : OnlyPaths d e) (h' : OnlyPaths e f) : OnlyPaths d f := by
  obtain ⟨p, rfl⟩ := h
  obtain ⟨p', rfl⟩ := h'
  exact ⟨p', rfl⟩

theorem onlyPaths_place (d : Dev) (k : Nat) (r : Rec) : OnlyPaths d (d.place k r) := by
  unfold Dev.place
  split
  · exact .refl d
  · exact ⟨_, rfl⟩

theorem onlyPaths_recPart (d : Dev) (x : Ctx) (p : Nat) (cls : RecClass) (code src : Nat) (a b c : Word) :
    OnlyPaths d (d.recPart x p cls code src a b c) := onlyPaths_place ..

theorem onlyPaths_recAnon (x : Ctx) (code : Nat) (a b c : Word) (l : List Nat) (d : Dev) : OnlyPaths d (d.recAnon x code a b c l) := by
  induction l generalizing d with
  | nil => exact .refl d
  | cons p ps ih =>
    rw [Dev.recAnon]
    split
    · exact (onlyPaths_place ..).trans (ih _)
    · exact ih d

theorem onlyPaths_recDevTo (d : Dev) (x : Ctx) (port : Nat) (cls : RecClass) (code src : Nat) (a b c : Word) :
    OnlyPaths d (d.recDevTo x port cls code src a b c) := by
  have hport (r : Rec) : OnlyPaths d (d.place (pfPath port) r) := onlyPaths_place ..
  cases cls with
  | alarm => exact (hport _).trans (onlyPaths_place ..)
  | fault => exact ((hport _).trans (onlyPaths_place ..)).trans (onlyPaths_recAnon ..)
  | trace => exact hport _
  | log => exact hport _

theorem onlyPaths_recDev (d : Dev) (x : Ctx) (cls : RecClass) (code src : Nat) (a b c : Word) :
    OnlyPaths d (d.recDev x cls code src a b c) := onlyPaths_recDevTo ..

theorem onlyPaths_haltRecords (x : Ctx) (cause : Nat) (l : List Nat) (d : Dev) : OnlyPaths d (d.haltRecords x cause l) := by
  induction l generalizing d with
  | nil => exact .refl d
  | cons k ks ih => exact (onlyPaths_place ..).trans (ih _)

/-! ### HALTED (R424) -/

section
variable {s : State} {x : Ctx} {d : Dev} {cause core : Nat}

theorem tickLoss_tick : tickLoss 1 s = { s with dev := s.dev.halt s.ctx 1, clock := { s.clock with tick := false } } := rfl

theorem tickLoss_cluster : tickLoss 2 s = { s with dev := s.dev.halt s.ctx 2 } := rfl

/-- HALTED shows in the state of the module, and both ports send their fatal error. -/
theorem Dev.halt_shows : (d.halt x cause).halted = true ∧ (d.halt x cause).boot.state = 12 ∧ .aer 0 ∈ (d.halt x cause).outs ∧
    .aer 1 ∈ (d.halt x cause).outs := by
  unfold Dev.halt
  dsimp only
  obtain ⟨p, hp⟩ := onlyPaths_haltRecords x cause (List.range 19) _
  rw [hp]
  exact ⟨rfl, rfl, .tail _ (.head _), .head _⟩

/-- Without the control cluster no command and no operation is left. -/
theorem Dev.halt_cluster : (d.halt x 2).cmds = [] ∧ (d.halt x 2).ops = [] := by
  unfold Dev.halt
  dsimp only
  obtain ⟨p, hp⟩ := onlyPaths_haltRecords x 2 (List.range 19) _
  rw [hp]
  exact ⟨rfl, rfl⟩

/-! ### A control core's fault (R423) -/

theorem Dev.rest_endAll (st : Status) (l : List CmdRec) : ∀ d : Dev, (d.endAll x st l).rest = d.rest := by
  induction l with
  | nil => exact fun _ => rfl
  | cons c cs ih => exact fun d => (ih _).trans (Dev.rest_endCmd ..)

/-- The commands ended are outstanding no longer. -/
theorem Dev.mem_endAll_cmds {st : Status} {l : List CmdRec} {e : CmdRec} (h : e ∈ (d.endAll x st l).cmds) :
    e ∈ d.cmds ∧ ∀ c ∈ l, e.seq ≠ c.seq := by
  induction l generalizing d with
  | nil => exact ⟨h, nofun⟩
  | cons c cs ih =>
    obtain ⟨hmem, hcs⟩ := ih h
    rw [Dev.endCmd_cmds, List.mem_filter, bne_iff_ne] at hmem
    exact ⟨hmem.1, List.forall_mem_cons.2 ⟨hmem.2, hcs⟩⟩

/-- A first fault ends the core's commands, and is noted. -/
theorem controlFault_of_first (hcore : core ≤ 7) (hin : thas d.offline (source 1 core) = false) (hfirst : tget d.faultAt (source 1 core) = none) :
    controlFault core x d =
      let e := d.endAll x .deviceFault (d.cmds.filter fun c => Config.controlCore c.seq % 8 == core)
      { e with faultAt := tset e.faultAt (source 1 core) x.now } := by
  have hfault : tget (d.endAll x .deviceFault (d.cmds.filter fun c => Config.controlCore c.seq % 8 == core)).faultAt (source 1 core) = none :=
    (congrArg (fun f => tget f.faultAt (source 1 core)) (Dev.rest_endAll ..)).trans hfirst
  unfold controlFault
  dsimp only
  rw [if_neg (by simp [hin, hcore]), hfault]
  rfl

/-! ### Scrubs (R421, R422, R425, R426) -/

theorem mem_addNum_self (n : Nat) (l : List Nat) : n ∈ addNum n l := by
  induction l with
  | nil => exact .head _
  | cons m ms ih =>
    unfold addNum
    split
    · exact .head _
    split
    · simp_all
    · exact .tail _ ih

theorem mem_addNum_of_mem {n m : Nat} {l : List Nat} (h : m ∈ l) : m ∈ addNum n l := by
  induction l with
  | nil => nomatch h
  | cons k ks ih =>
    unfold addNum
    split
    · exact .tail _ h
    split
    · exact h
    · exact (List.mem_cons.1 h).elim (fun e => e ▸ .head _) fun h => .tail _ (ih h)

/-- The word of a core's local store that a scrub found bad. -/
theorem Dev.sramPoison_localStore {u i : Nat} (hu : u < 256) (hi : i < 0x60000) : d.sramPoison x 6 u i =
    { d with grid := { d.grid with lsPoison := addNums [lsAddr u (8 * i) / 4, lsAddr u (8 * i) / 4 + 1] d.grid.lsPoison } } := by
  rw [Dev.sramPoison, if_pos rfl, if_pos ⟨hu, hi⟩]

theorem Dev.lsBad_of_mem {n off len : Nat} (hlen : 0 < len) (h : lsAddr n off / 4 ∈ d.grid.lsPoison) : d.lsBad n off len = true := by
  rw [Dev.lsBad, Bool.and_eq_true, List.any_eq_true]
  exact ⟨by simp; omega, _, h, decide_eq_true ⟨le_rfl, by omega⟩⟩

/-- A first fault of a core's local store poisons the word that the scrub read, and is noted. -/
theorem sramRead_of_first {u i : Nat} (hu : u < 256) (hi : i < 0x60000) (hfirst : tget d.faultAt (source 6 u) = none) :
    ∃ e : Dev, sramRead 6 u i .uncorrectable x d = e.schedule x ∧ e.lsBad u (8 * i) 8 = true ∧ tget e.faultAt (source 6 u) = some x.now ∧
      e.grid.ls = d.grid.ls ∧ e.mem = d.mem := by
  obtain ⟨p, hp⟩ := onlyPaths_recDev (d.bumpDev 0x0F0118 1) x .fault 0x104 (source 6 u) (loW (lsAddr u (8 * i))) 1 0
  have hfault : tget (d.bumpDev 0x0F0118 1).faultAt (source 6 u) = none := hfirst
  unfold sramRead
  dsimp only
  rw [if_pos rfl, hp, Dev.sramPoison_localStore hu hi]
  unfold Dev.noteFault
  dsimp only
  rw [hfault]
  exact ⟨_, rfl, Dev.lsBad_of_mem (by decide) (mem_addNum_of_mem (mem_addNum_self ..)), tget_tset_same .., rfl, rfl⟩

/-- The failure of a router takes the cores behind it out of service. -/
theorem linkFault_of_router {u : Nat} {l : List Nat} (hlo : 0x100 ≤ u) (hhi : u < 0x200) (hin : thas d.offline (source 6 u) = false) :
    linkFault u l x d = (l.foldl (fun d n => d.coreOff x n) (d.markOffline x (source 6 u))).schedule x := by
  unfold linkFault
  dsimp only
  rw [if_neg (by simp [hin]; omega), if_pos hhi]

theorem scrub_of_clean {a : Nat} {e : Ecc} (ha : isHbm a = true) (hclean : a / 32 ∉ d.mem.poison) (hlast : stackOff a / 32 ≠ stackBytes / 32 - 1) :
    scrub a e x d = d.hbmEcc x a true e := by
  unfold scrub
  dsimp only
  rw [if_neg (by simp [ha]), if_neg hlast, if_neg (by simp [hclean])]

/-- The report of a bad codeword leaves memory and the sessions. -/
theorem Dev.hbmUeReport_frame (a : Nat) (b : Bool) : (d.hbmUeReport x a b).mem = d.mem ∧ (d.hbmUeReport x a b).ses = d.ses := by
  have records (e : Dev) (w w' w'' : Word) : (e.recDev x .fault 0x103 (source 5 (unitOf a)) w w' w'').mem = e.mem ∧
      (e.recDev x .fault 0x103 (source 5 (unitOf a)) w w' w'').ses = e.ses := by
    obtain ⟨p, hp⟩ := onlyPaths_recDev e x .fault 0x103 (source 5 (unitOf a)) w w' w''
    rw [hp]
    exact ⟨rfl, rfl⟩
  unfold Dev.hbmUeReport
  extract_lets e seen
  by_cases hseen : seen = true
  · rw [if_pos hseen]
    exact ⟨rfl, rfl⟩
  · rw [if_neg hseen]
    exact records ..

theorem Dev.hbmUe_of_clean {a : Nat} (b : Bool) (hclean : a / 32 ∉ d.mem.poison) : d.hbmUe x a b = (d.hbmPoison [a / 32]).hbmUeReport x a b := by
  rw [Dev.hbmUe, if_neg (by simp [hclean])]

theorem ceAlarm_of_due {u : Nat} (hu : u < 512) (hdue : (d.gunit u).ceDue = true) :
    ceAlarm u x d = (d.setGunit u { d.gunit u with ceDue := false }).recDev x .alarm 8 (source 5 u)
      (wd (ceRecent x.now (d.gunit u).ceTicks).length) 0 0 := by
  unfold ceAlarm
  dsimp only
  rw [if_pos (by simp [hu, hdue])]

end

/-- Settles O14: the two halts, a control core's first fault, the scrubs of SRAM and of HBM, a router's failure and the alarm of corrected
codewords, each by its own lemma. -/
theorem faultRowsTakeEffect : Obligations.FaultRowsTakeEffect := by
  unfold Obligations.FaultRowsTakeEffect
  intro s hp
  refine ⟨fun s₀ hs => ?tick, fun s₀ hs => ?cluster, fun core hcore hin hfirst s₀ hs => ?controlCore, fun b u i s₀ hs => ?corrected,
    fun u i hu hi hfirst s₀ hs => ?poisoned, fun u l hlo hhi hin s₀ hs => ?router,
    fun a ha hclean hlast => ⟨fun s₀ hs => ?hbmCorrected, fun s₀ hs => ?hbmPoisoned⟩, fun u hu hdue => onDev_eq hp (ceAlarm_of_due hu hdue)⟩
  all_goals subst hs
  case tick =>
    obtain ⟨hhalt, hstate, h0, h1⟩ := Dev.halt_shows (d := (s₀.reach (evKey 1 0 0)).dev) (x := (s₀.reach (evKey 1 0 0)).ctx) (cause := 1)
    exact ⟨_, congrArg Host.Outcome.next ((if_pos hp).trans tickLoss_tick), hhalt, hstate, rfl, h0, h1, rfl, rfl⟩
  case cluster =>
    obtain ⟨hhalt, hstate, -⟩ := Dev.halt_shows (d := (s₀.reach (evKey 1 0 0)).dev) (x := (s₀.reach (evKey 1 0 0)).ctx) (cause := 2)
    obtain ⟨hcmds, hops⟩ := Dev.halt_cluster (d := (s₀.reach (evKey 1 0 0)).dev) (x := (s₀.reach (evKey 1 0 0)).ctx)
    exact ⟨_, congrArg Host.Outcome.next ((if_pos hp).trans tickLoss_cluster), hhalt, hstate, rfl, hcmds, hops⟩
  case controlCore =>
    have hrest := Dev.rest_endAll (x := (s₀.reach (evKey 1 0 (source 1 core))).ctx) .deviceFault
      ((s₀.reach (evKey 1 0 (source 1 core))).dev.cmds.filter fun c => Config.controlCore c.seq % 8 == core) (s₀.reach (evKey 1 0 (source 1 core))).dev
    refine ⟨_, onDev_eq hp (controlFault_of_first hcore hin hfirst), fun e he => ?_, tget_tset_same .., (congrArg Dev.halted hrest :),
      (congrArg Dev.mem hrest :)⟩
    obtain ⟨hmem, hne⟩ := Dev.mem_endAll_cmds he
    exact ⟨hmem, fun hc => hne e (List.mem_filter.2 ⟨hmem, beq_iff_eq.2 hc⟩) rfl⟩
  case corrected => exact onDev_eq hp rfl
  case poisoned =>
    obtain ⟨e, he, hbad, hfault, hls, hmem⟩ := sramRead_of_first hu hi hfirst
    exact ⟨e, onDev_eq hp he, hbad, hfault, hls, hmem⟩
  case router => exact onDev_eq hp (linkFault_of_router hlo hhi hin)
  case hbmCorrected => exact onDev_eq hp (scrub_of_clean ha hclean hlast)
  case hbmPoisoned =>
    obtain ⟨hmem, hses⟩ := Dev.hbmUeReport_frame (x := (s₀.reach (evKey 1 0 (source 5 (unitOf a)))).ctx)
      (d := (s₀.reach (evKey 1 0 (source 5 (unitOf a)))).dev.hbmPoison [a / 32]) a true
    exact ⟨_, onDev_eq hp ((scrub_of_clean ha hclean hlast).trans (Dev.hbmUe_of_clean true hclean)), (congrArg MemState.poison hmem :),
      (congrArg MemState.cells hmem :), hses⟩

end Sys2Proof.Machine
end

section
/-! Event rings (R433-R438). -/

namespace Sys2Proof.Machine

section
variable {x : Ctx} {d : Dev} {f : Fn} {w : Word} {k : Nat} {p : Path} {a : Rec} {l : List Rec}

theorem eqCfgWrite_of_enable (hlive : d.fnLive f = true) (hw : d.writable = true) (hen : (d.eq f.idx).en = false) (hbit : bitAt w.toNat 31 = true)
    (hbase : (d.eq f.idx).base % 4096 = 0) (hlo : 8 ≤ wfld w 3 0) (hhi : wfld w 3 0 ≤ 14) (hbind : d.bindOk f = true) :
    eqCfgWrite f w x d = { d with eqs := tset d.eqs f.idx { d.eq f.idx with
      size := wfld w 3 0, en := true, head := 0, tail := 0, phase := true, unsig := 0, firstUnsig := none } } := by
  have hok : ¬ ((!bitAt w.toNat 31) = true ∨ (d.eq f.idx).base % 4096 ≠ 0 ∨ wfld w 3 0 < 8 ∨ wfld w 3 0 > 14 ∨ (!d.bindOk f) = true) := by
    simp only [hbit, hbind, Bool.not_true, Bool.false_eq_true, false_or, or_false]
    omega
  unfold eqCfgWrite
  dsimp only
  rw [if_neg (by simp [hlive, hw]), if_neg (by simp [hen]), if_neg hok]

theorem eqHeadWrite_of_live (hlive : d.fnLive f = true) (hw : d.writable = true) :
    eqHeadWrite f w x d = { d with eqs := tset d.eqs f.idx { d.eq f.idx with head := wfld w 13 0 } } :=
  if_pos (by simp [hlive, hw])

/-! ### Delivery (R434, R435) -/

/-- An interrupt fires, or is latched as pending; rings and paths stay. -/
theorem Dev.fire_frame (d : Dev) (f : Fn) (n : Nat) : (d.fire f n).paths = d.paths ∧ (d.fire f n).eqs = d.eqs ∧ (d.fire f n).rqs = d.rqs ∧
    (d.fire f n).mem = d.mem ∧ d.outs ⊆ (d.fire f n).outs := by
  unfold Dev.fire
  split
  · exact ⟨rfl, rfl, rfl, rfl, List.Subset.refl _⟩
  · exact ⟨rfl, rfl, rfl, rfl, List.subset_cons_self ..⟩

/-- The record written stands at the tail, and the tail moves on by one entry. -/
theorem Dev.writeEvent_effect (d : Dev) (x : Ctx) (f : Fn) (r : Rec) :
    .event f ((d.eq f.idx).base + 32 * (d.eq f.idx).tail) (r.bytes (d.eq f.idx).phase) ∈ (d.writeEvent x f r).outs ∧
      ((d.writeEvent x f r).eq f.idx).tail = ((d.eq f.idx).tail + 1) % (d.eq f.idx).cap ∧ (d.writeEvent x f r).paths = d.paths ∧
      (d.writeEvent x f r).rqs = d.rqs ∧ (d.writeEvent x f r).mem = d.mem := by
  unfold Dev.writeEvent
  dsimp only
  split
  · generalize hd : ({ d.out (.event f ((d.eq f.idx).base + 32 * (d.eq f.idx).tail) (r.bytes (d.eq f.idx).phase)) with eqs := _ } : Dev) = o
    obtain ⟨hpaths, heqs, hrqs, hmem, houts⟩ := o.fire_frame f 16
    subst hd
    exact ⟨houts (.head _), by rw [Dev.eq, heqs, tgetD_tset_same], hpaths, hrqs, hmem⟩
  · exact ⟨.head _, by rw [Dev.eq, tgetD_tset_same], rfl, rfl, rfl⟩

/-- A path that has counted no drop makes no record of its own. -/
theorem Dev.dropRecord_of_none (hp : tget d.paths k = some p) (h : p.sinceT + p.sinceL + p.sinceF = 0) : d.dropRecord x k = d := by
  have hpath : tgetD d.paths k Path.reset = p := by rw [tgetD, hp, Option.getD_some]
  unfold Dev.dropRecord
  dsimp only
  rw [hpath, if_neg (fun hc => hc.1 h)]

theorem deliver_of_free (hfn : d.pathFn k = some f) (hp : tget d.paths k = some p) (hst : p.staged = a :: l)
    (hdrop : p.sinceT + p.sinceL + p.sinceF = 0) (hen : (d.eq f.idx).en = true) (hport : (d.port f.port).lost = false)
    (hroom : ((d.eq f.idx).tail + 1) % (d.eq f.idx).cap ≠ (d.eq f.idx).head) :
    deliver k x d = ({ d with paths := tset d.paths k { p with staged := l } } : Dev).writeEvent x f a := by
  have hpath : tgetD d.paths k Path.reset = p := by rw [tgetD, hp, Option.getD_some]
  have htaken : tget (({ d with paths := tset d.paths k { p with staged := l } } : Dev).writeEvent x f a).paths k = some { p with staged := l } := by
    obtain ⟨-, -, hpaths, -⟩ := Dev.writeEvent_effect { d with paths := tset d.paths k { p with staged := l } } x f a
    rw [hpaths, tget_tset_same]
  unfold deliver
  rw [hfn]
  dsimp only
  rw [hpath, hst]
  dsimp only
  rw [if_pos (by simp [hen, hport, hroom]), Dev.dropRecord_of_none htaken hdrop]

end

/-- Settles O15: a ring is enabled, its head is moved, and the oldest staged record goes to the entry at the tail. -/
theorem eventRingRowsTakeEffect : Obligations.EventRingRowsTakeEffect := by
  unfold Obligations.EventRingRowsTakeEffect
  intro s f hp
  refine ⟨?enable, ?head, ?deliver⟩
  case enable =>
    rintro w hlive hw hen hbit hbase hlo hhi hbind s₀ rfl
    exact onDev_eq hp (eqCfgWrite_of_enable hlive hw hen hbit hbase hlo hhi hbind)
  case head =>
    rintro w hlive hw s₀ rfl
    exact onDev_eq hp (eqHeadWrite_of_live hlive hw)
  case deliver =>
    intro k p a l hfn hpath hst hdrop hen hport hroom
    obtain ⟨hout, htail, hpaths, hrqs, hmem⟩ := Dev.writeEvent_effect { s.dev with paths := tset s.dev.paths k { p with staged := l } } s.ctx f a
    exact ⟨_, onDev_eq hp (deliver_of_free hfn hpath hst hdrop hen hport hroom), hout, (congrArg (tget · k) hpaths).trans (tget_tset_same ..),
      htail, hrqs, hmem⟩

end Sys2Proof.Machine
end

section
/-! The session commands (R73-R75, R80-R84, R95-R98, R102, R106). -/

namespace Sys2Proof.Machine

section
variable {x : Ctx} {q : Req} {d : Dev} {e : Ses} {h : Word}

/-! ### SES_OPEN -/

/-- A session that is FREE enters a state with its descriptor, and nothing of it but the state and the time is new. -/
theorem Dev.goto_tbl_of_free (st : SesStateName) (he : e.state = .free) :
    tget (d.goto x h e st).ses.tbl (hKey h) = some { e with state := st, since := x.now } := by
  have hwarm : ¬ e.state = .warm := he ▸ nofun
  have hmoving : ¬ (e.state = .moving ∧ st ≠ .moving) := fun hm => nomatch he ▸ hm.1
  unfold Dev.goto
  dsimp only
  rw [if_neg hwarm, if_neg hmoving]
  obtain ⟨p, hp⟩ := onlyPaths_recPart (d.setSes h { e with state := st, since := x.now }) x (hPart h) .trace 0x300 e.src h
    (wd (e.state.code + 16 * st.code)) (wd e.request)
  rw [hp]
  exact tget_tset_same ..

/-- The descriptor of a new session, of a generation between 1 and 15. -/
theorem Dev.newSes_descriptor {p die m v pf comp win : Nat} {st : SesStateName} {mv : Option Movement} {d' : Dev}
    (hnew : d.newSes x p die m v pf comp win st mv = some (h, d')) :
    ∃ e, tget d'.ses.tbl (hKey h) = some e ∧ e.state = st ∧ e.model = m ∧ e.adapter = v ∧ e.pfx = pf ∧ e.window = win ∧ e.compressor = comp ∧
      e.die = die ∧ 1 ≤ e.gen ∧ e.gen ≤ 15 := by
  unfold Dev.newSes at hnew
  split at hnew
  · nomatch hnew
  split at hnew
  · nomatch hnew
  next i d₁ =>
    split at hnew
    · nomatch hnew
    next blk d₂ =>
      simp only [Option.some.injEq, Prod.mk.injEq] at hnew
      obtain ⟨rfl, rfl⟩ := hnew
      refine ⟨_, Dev.goto_tbl_of_free st rfl, rfl, rfl, rfl, rfl, rfl, rfl, rfl, ?_, ?_⟩
      all_goals
        dsimp only [Ses.free]
        split <;> omega

theorem sesOpenCmd_of_fit {k : Mdl} {v : Nat} {h : Word} {d' : Dev}
    (hc : q.clean [(2, top32), (3, top32), (4, top32), (5, 3)] = true) (hm : d.mdl (q.f 2 15 0) = some k) (hpart : k.part = q.part)
    (hdim : k.img.headDim % 32 = 0) (hdie : q.f 5 1 0 ≠ 3) (hwin : q.f 4 15 0 = 0 ∨ (q.f 4 15 0 % 64 = 0 ∧ q.f 4 15 0 ≤ 16384))
    (hcomp : q.f 4 31 16 = 0 ∨ q.f 4 31 16 = 0xFFFF ∨ ∃ k, d.mdl (q.f 4 31 16) = some k ∧ k.part = q.part)
    (hv : d.bindAdapter q.part (q.f 2 15 0) (q.f 2 31 16) = some v) (hpf : d.prefixOk q.part (q.f 2 15 0) v (q.w 3).toNat = true)
    (hnew : d.newSes x q.part (d.chooseDie q.part (q.f 5 1 0)) (q.f 2 15 0) v (q.w 3).toNat
      (if q.f 4 31 16 = 0xFFFF then 0 else if q.f 4 31 16 = 0 then fld (d.partReg q.part 0x030008) 15 0 else q.f 4 31 16)
      (if q.f 4 15 0 = 0 then fld (d.partReg q.part 0x030000) 14 0 else q.f 4 15 0) .opened none = some (h, d')) :
    sesOpenCmd x q d = .done .ok [h, wd (v + d.chooseDie q.part (q.f 5 1 0) * 65536)] (d'.sesXchg x h) := by
  have hw : ¬ (q.f 4 15 0 ≠ 0 ∧ (q.f 4 15 0 % 64 ≠ 0 ∨ q.f 4 15 0 > 16384)) := by
    clear hcomp
    omega
  have hk : ¬ (q.f 4 31 16 ≠ 0 ∧ q.f 4 31 16 ≠ 0xFFFF ∧ (!(d.mdl (q.f 4 31 16)).elim false fun k => k.part == q.part) = true) := by
    rintro ⟨h0, h1, hnot⟩
    obtain hz | ho | ⟨k', hk', hp'⟩ := hcomp
    · exact h0 hz
    · exact h1 ho
    · simp [hk', hp'] at hnot
  have hok : ¬ ((!q.clean [(2, top32), (3, top32), (4, top32), (5, 3)]) = true ∨ k.part ≠ q.part ∨ k.img.headDim % 32 ≠ 0 ∨ q.f 5 1 0 = 3 ∨
      (q.f 4 15 0 ≠ 0 ∧ (q.f 4 15 0 % 64 ≠ 0 ∨ q.f 4 15 0 > 16384)) ∨
      (q.f 4 31 16 ≠ 0 ∧ q.f 4 31 16 ≠ 0xFFFF ∧ (!(d.mdl (q.f 4 31 16)).elim false fun k => k.part == q.part) = true)) := by
    simp only [hc, hpart, hdim, hdie, hw, hk, Bool.not_true, Bool.false_eq_true, ne_eq, not_true_eq_false, or_self, not_false_eq_true]
  unfold sesOpenCmd
  dsimp only
  rw [hm]
  dsimp only
  rw [if_neg hok, hv]
  dsimp only
  rw [if_neg (by simp [hpf]), hnew]

/-! ### SES_PARK and SES_REVIVE -/

/-- A park waits while Sheaf has not copied the record (R358). -/
theorem sesParkCmd_of_unreached (hl : d.lookup q.part (q.w 2) = .ok e) (hc : q.clean [(2, top32), (3, 3)] = true) (hst : e.state = .warm)
    (hck : d.ckpHolds (q.w 2) = true) : sesParkCmd x q d = .accept [] (.held 0x0101 q.words) d := by
  unfold sesParkCmd
  dsimp only
  rw [hl]
  dsimp only
  rw [if_neg (by simp [hc]), if_neg (by simp [hst]), if_pos hck]

theorem sesParkCmd_of_begun {d' : Dev} (hl : d.lookup q.part (q.w 2) = .ok e) (hc : q.clean [(2, top32), (3, 3)] = true) (hst : e.state = .warm)
    (hck : d.ckpHolds (q.w 2) = false)
    (hb : d.parkBegin x (q.w 2) q.seq (bitAt (q.w 3).toNat 1) (bitAt (q.w 3).toNat 0) = (true, d')) :
    sesParkCmd x q d = .accept [] (.parkSes (q.w 2)) d' := by
  unfold sesParkCmd
  dsimp only
  rw [hl]
  dsimp only
  rw [if_neg (by simp [hc]), if_neg (by simp [hst]), if_neg (by simp [hck]), hb]

theorem sesParkCmd_of_full {d' : Dev} (hl : d.lookup q.part (q.w 2) = .ok e) (hc : q.clean [(2, top32), (3, 3)] = true) (hst : e.state = .warm)
    (hck : d.ckpHolds (q.w 2) = false)
    (hb : d.parkBegin x (q.w 2) q.seq (bitAt (q.w 3).toNat 1) (bitAt (q.w 3).toNat 0) = (false, d')) :
    sesParkCmd x q d = .both [] .doesNotFit [] (d'.parkBack x (q.w 2)) := by
  unfold sesParkCmd
  dsimp only
  rw [hl]
  dsimp only
  rw [if_neg (by simp [hc]), if_neg (by simp [hst]), if_neg (by simp [hck]), hb]

theorem sesReviveCmd_of_warm (hl : d.lookup q.part (q.w 2) = .ok e) (hc : q.clean [(2, top32), (3, 1)] = true) (hst : e.state = .warm) :
    sesReviveCmd x q d =
      if bitAt (q.w 3).toNat 0 = true ∨ e.pend.isEmpty = true then .both [] .ok [wd 4] d
      else .both [] .ok [wd 1] ((d.enterOpen x (q.w 2)).schedule x) := by
  unfold sesReviveCmd
  dsimp only
  rw [hl]
  dsimp only
  rw [if_neg (by simp [hc]), hst]

theorem sesReviveCmd_of_parked (hl : d.lookup q.part (q.w 2) = .ok e) (hc : q.clean [(2, top32), (3, 1)] = true) (hst : e.state = .parked)
    (hm : e.move = none) :
    sesReviveCmd x q d = .accept [] (.reviveSes (q.w 2)) (d.startRevive x (q.w 2)
      { Movement.new 2 q.seq false with restoreOnly := bitAt (q.w 3).toNat 0 }) := by
  unfold sesReviveCmd
  dsimp only
  rw [hl]
  dsimp only
  rw [if_neg (by simp [hc]), hst]
  dsimp only
  rw [hm]

theorem sesReviveCmd_of_joined {m : Movement} (hl : d.lookup q.part (q.w 2) = .ok e) (hc : q.clean [(2, top32), (3, 1)] = true)
    (hst : e.state = .parked) (hm : e.move = some m) :
    sesReviveCmd x q d = .accept [] (.reviveSes (q.w 2)) (d.setSes (q.w 2)
      { e with move := some { m with restoreOnly := bitAt (q.w 3).toNat 0 && (m.restoreOnly || m.byWake) } }) := by
  unfold sesReviveCmd
  dsimp only
  rw [hl]
  dsimp only
  rw [if_neg (by simp [hc]), hst]
  dsimp only
  rw [hm]

/-! ### SES_CLOSE and SES_QUERY -/

theorem sesCloseCmd_of_live (hl : d.lookup q.part (q.w 2) = .ok e) (hc : q.clean [(2, top32)] = true) (hck : d.ckpHolds (q.w 2) = false)
    (hfree : e.state ≠ .free) (hclosing : e.state ≠ .closing) :
    sesCloseCmd x q d =
      if e.state = .running ∨ e.state = .moving then
        .accept [] (.closeSes (q.w 2)) (d.setSes (q.w 2) { e with closePending := true, closeOp := q.seq })
      else .accept [] (.closeSes (q.w 2)) (((d.setSes (q.w 2) { e with closeOp := q.seq }).enterClosing x (q.w 2)).schedule x) := by
  unfold sesCloseCmd
  dsimp only
  rw [hl]
  dsimp only
  rw [if_neg (by simp [hc]), if_neg (by simp [hfree, hclosing]), if_neg (by simp [hck])]

theorem sesQueryCmd_of_aligned {f : Fn} (hf : q.fn = some f) (hl : d.lookup q.part (q.w 2) = .ok e)
    (hc : q.clean [(2, top32), (3, top32), (4, top32)] = true) (ha : q.d2 3 % 128 = 0) :
    sesQueryCmd x q d = .done .ok [wd (e.word0 (q.w 2)), wd e.ctx, wd e.pend.length, wd e.word34]
      (if q.d2 3 = 0 then d else d.out (.hostWrite f.port (q.d2 3) (e.image (q.w 2)))) := by
  unfold sesQueryCmd
  dsimp only
  rw [hl]
  dsimp only
  rw [if_neg (by simp [hc, ha]), hf]

/-! ### SES_AWAIT and SES_SIGNAL -/

/-- A session takes SES_AWAIT and SES_SIGNAL unless it is FREE, CLOSING, or moving to another module. -/
theorem Ses.takesEvents (hfree : e.state ≠ .free) (hclosing : e.state ≠ .closing) (hmove : e.state = .moving → ∀ m, e.move = some m → m.kind ≠ 3) :
    ¬ (e.state = .free ∨ e.state = .closing ∨ (e.state = .moving ∧ (e.move.elim false fun m => m.kind == 3) = true)) := by
  rintro (h | h | ⟨h, hk⟩)
  · exact hfree h
  · exact hclosing h
  · obtain ⟨m, hm, hk⟩ : ∃ m, e.move = some m ∧ m.kind = 3 := by
      cases hm : e.move with
      | none => simp [hm] at hk
      | some m => exact ⟨m, rfl, by simpa [hm] using hk⟩
    exact hmove h m hm hk

/-- SES_AWAIT on a session that takes it, by its operation. -/
theorem sesAwaitCmd_of_live (hl : d.lookup q.part (q.w 2) = .ok e)
    (hc : q.clean [(2, top32), (3, 0x11F37), (4, top32), (5, top32), (6, top32), (7, 0x1FFF00FF), (8, top32), (9, top32)] = true)
    (hop : q.f 3 5 4 ≠ 3) (hkind : q.f 3 5 4 = 0 → 1 ≤ q.f 3 11 8 ∧ q.f 3 11 8 ≤ 3) (hlen : q.f 7 28 16 ≤ 4096)
    (hfree : e.state ≠ .free) (hclosing : e.state ≠ .closing) (hmove : e.state = .moving → ∀ m, e.move = some m → m.kind ≠ 3) :
    sesAwaitCmd x q d =
      let t : Ses := { e with wakeAll := bitAt (q.w 3).toNat 16, waitTicks := q.d2 8 }
      let t' : Ses :=
        if q.f 3 5 4 = 0 then
          let u : Ses := { t with slots := t.slots.set (q.f 3 2 0) (awaitSlot q (t.state == .warm)) }
          if u.state = .warm then { u with waitDeadline := u.deadlineAt x.now } else u
        else if q.f 3 5 4 = 1 then { e with slots := e.slots.set (q.f 3 2 0) Slot.empty }
        else t
      .done .ok [wd t'.word34] ((if q.f 3 5 4 = 1 then d.withdrawAll x (d.slotEwrs (q.w 2) (q.f 3 2 0)) else d).setSes (q.w 2) t') := by
  have hok : ¬ ((!q.clean [(2, top32), (3, 0x11F37), (4, top32), (5, top32), (6, top32), (7, 0x1FFF00FF), (8, top32), (9, top32)]) = true ∨
      q.f 3 5 4 = 3 ∨ (q.f 3 5 4 = 0 ∧ (q.f 3 11 8 = 0 ∨ q.f 3 11 8 > 3)) ∨ q.f 7 28 16 > 4096) := by
    simp only [hc, Bool.not_true, Bool.false_eq_true, false_or]
    omega
  unfold sesAwaitCmd
  dsimp only
  rw [hl]
  dsimp only
  rw [if_neg hok, if_neg (Ses.takesEvents hfree hclosing hmove)]

theorem sesSignalCmd_of_prepared {l : Slot} (hl : d.lookup q.part (q.w 2) = .ok e) (hs : e.slots[q.f 3 2 0]? = some l)
    (hc : q.clean [(2, top32), (3, 7)] = true) (hfree : e.state ≠ .free) (hclosing : e.state ≠ .closing)
    (hmove : e.state = .moving → ∀ m, e.move = some m → m.kind ≠ 3) (hprep : l.prepared = true) (hkind : l.kind = 3) :
    sesSignalCmd x q d = .done .ok [if e.wouldWake (q.f 3 2 0) then 1 else 0] (d.slotEvent (q.w 2) (q.f 3 2 0) l.textOff l.textLen none) := by
  unfold sesSignalCmd
  dsimp only
  rw [hl]
  dsimp only
  rw [hs]
  dsimp only
  rw [if_neg (by simp [hc]), if_neg (Ses.takesEvents hfree hclosing hmove), if_neg (by simp [hprep, hkind])]

end

/-- Settles O16: each session command's body on a session that takes it. -/
theorem sessionCommandsComplete : Obligations.SessionCommandsComplete := by
  unfold Obligations.SessionCommandsComplete
  rintro s₀ s c r q rfl rfl
  refine ⟨?openS, ?park, ?revive, ?close, ?query, ?await, ?signal⟩
  case openS =>
    rintro m v die comp win h d hs hc hm hpart hdim hdie hwin hcomp hv hpf rfl rfl rfl hnew
    exact ⟨hostCmd_done hs (sesOpenCmd_of_fit hc hm hpart hdim hdie hwin hcomp hv hpf hnew), Dev.newSes_descriptor hnew⟩
  case park =>
    intro e d hs hl hc hst
    exact ⟨fun hck => hostCmd_accept hs (sesParkCmd_of_unreached hl hc hst hck),
      fun hck hb => hostCmd_accept hs (sesParkCmd_of_begun hl hc hst hck hb), fun hck hb => hostCmd_both hs (sesParkCmd_of_full hl hc hst hck hb)⟩
  case revive =>
    intro e hs hl hc
    refine ⟨fun hst h => ?_, fun hst honly hpend => ?_, fun hst hm => hostCmd_accept hs (sesReviveCmd_of_parked hl hc hst hm),
      fun m hst hm => hostCmd_accept hs (sesReviveCmd_of_joined hl hc hst hm)⟩
    · exact hostCmd_both hs ((sesReviveCmd_of_warm hl hc hst).trans (if_pos (by simpa using h)))
    · exact hostCmd_both hs ((sesReviveCmd_of_warm hl hc hst).trans (if_neg (by simp [honly, hpend])))
  case close =>
    intro e hs hl hc hck
    refine ⟨fun hst => ?_, fun hst => ?_⟩
    · have hlive := sesCloseCmd_of_live (x := (s₀.reach (cmdKey c)).ctx) hl hc hck (fun h => by simp [h] at hst) (fun h => by simp [h] at hst)
      exact hostCmd_accept hs (hlive.trans (if_pos hst))
    · have hlive := sesCloseCmd_of_live (x := (s₀.reach (cmdKey c)).ctx) hl hc hck (fun h => by simp [h] at hst) (fun h => by simp [h] at hst)
      exact hostCmd_accept hs (hlive.trans (if_neg fun h => by obtain h | h := h <;> simp [h] at hst))
  case query =>
    intro e hs hl hc ha
    exact hostCmd_done hs (sesQueryCmd_of_aligned rfl hl hc ha)
  case await =>
    rintro e t hs hl hc hlen hfree hclosing hmove rfl
    have live := sesAwaitCmd_of_live (x := (s₀.reach (cmdKey c)).ctx) hl hc
    refine ⟨fun hop hlo hhi hst => ?_, fun u hop hlo hhi hst hu => ?_, fun hop => ?_, fun hop => ?_⟩
    · refine hostCmd_done hs ((live (by omega) (fun _ => ⟨hlo, hhi⟩) hlen hfree hclosing hmove).trans ?_)
      simp only [hop, hst, reduceIte, Nat.zero_ne_one, beq_eq_false_iff_ne.2 hst]
    · subst hu
      refine hostCmd_done hs ((live (by omega) (fun _ => ⟨hlo, hhi⟩) hlen hfree hclosing hmove).trans ?_)
      simp only [hop, hst, reduceIte, Nat.zero_ne_one, beq_self_eq_true]
      rfl
    · refine hostCmd_done hs ((live (by omega) (by omega) hlen hfree hclosing hmove).trans ?_)
      simp only [hop, reduceIte, Nat.one_ne_zero]
    · refine hostCmd_done hs ((live (by omega) (by omega) hlen hfree hclosing hmove).trans ?_)
      simp only [hop, reduceIte, OfNat.ofNat_ne_zero, OfNat.ofNat_ne_one]
  case signal =>
    intro e l hs hl hslot hc hfree hclosing hmove hprep hkind
    exact hostCmd_done hs (sesSignalCmd_of_prepared hl hslot hc hfree hclosing hmove hprep hkind)

end Sys2Proof.Machine
end

section
/-! The events of sessions (R76, R82-R88, R95, R98-R101). -/

namespace Sys2Proof.Machine

section
variable {x : Ctx} {d : Dev} {e : Ses} {h : Word} {n : Nat} {l : Slot} {m : Movement}

/-! ### Slots and waits -/

theorem slotFireRow_of_due (he : d.sesOf h = some e) (hl : e.slots[n]? = some l) (hdue : l.due = true) :
    slotFireRow h n l.len x d = ((d.fireSlot x h n).schedule x).reedSettle x := by
  unfold slotFireRow slotFired
  rw [he]
  dsimp only
  rw [hl]
  dsimp only
  rw [if_pos (by simp [hdue])]

/-- A slot without tokens is emptied, and logged. -/
theorem Dev.fireSlot_of_plain (he : d.sesOf h = some e) (hl : e.slots[n]? = some l) (hdue : l.due = true) (hplain : l.plain = true)
    (hst : e.state ≠ .closing) : d.fireSlot x h n = (d.setSes h { e with slots := e.slots.set n Slot.empty }).sesLog x h 0x204 n l.len := by
  unfold Dev.fireSlot
  rw [he]
  dsimp only
  rw [hl]
  dsimp only
  rw [if_neg (by simp [hst, hdue]), if_pos hplain]

theorem timerSlot_of_reached (he : d.sesOf h = some e) (hl : e.slots[n]? = some l) (hkind : l.kind = 2) (hprep : l.prepared = true)
    (hcmp : l.cmp ≤ x.now) (hdue : l.due = false) (hbusy : d.slotBusy h n = false) :
    timerSlot h n x d = d.slotEvent h n l.textOff l.textLen none := by
  unfold timerSlot
  rw [he]
  dsimp only
  rw [hl]
  dsimp only
  rw [if_pos (by simp [hkind, hprep, hcmp, hdue, hbusy])]

theorem Dev.state_of_sesOf (he : d.sesOf h = some e) : e.state ≠ .free := by
  unfold Dev.sesOf at he
  dsimp only at he
  split at he
  next hc => exact Option.some.inj he ▸ hc.2
  · nomatch he

theorem waitExpired_of_due (he : d.sesOf h = some e) (hset : e.waitDeadline ≠ 0) (hdue : e.waitDeadline ≤ x.now) (hst : e.state ≠ .closing) :
    waitExpired h x d = ((d.withdrawAll x (e.armedNet.flatMap fun n => d.slotEwrs h n)).setSes h
      { e with slots := e.slots.map (fun l => { l with armed := false, fired := false }), waitExpired := true, waitDeadline := 0 }).sesLog
        x h 0x205 0 0 := by
  unfold waitExpired
  rw [he]
  dsimp only
  rw [if_neg (by simp [hset, hdue, hst, Dev.state_of_sesOf he])]

/-! ### Parks by firmware -/

theorem parkAfter_of_due (he : d.sesOf h = some e) (hst : e.state = .warm) (hms : fld (d.parkCfg (hPart h)) 19 0 ≠ 0)
    (hdue : e.since + fld (d.parkCfg (hPart h)) 19 0 * ticksMs ≤ x.now) (hck : d.ckpHolds h = false) : parkAfter h x d = d.firmwarePark x h := by
  unfold parkAfter
  rw [he]
  exact if_pos ⟨hst, hms, hdue, by simp [hck]⟩

theorem highPark_of_oldest {die k : Nat} (hhigh : 262144 * fld (d.devReg 0x030200) 6 0 < (d.staged die - d.parking die) * 100)
    (hold : oldestWarm die d.ses.tbl = some (k, e)) (hk : h = handleOf (k / 2 ^ 24) e.gen (k % 2 ^ 24)) (hck : d.ckpHolds h = false) :
    highPark die x d = d.firmwarePark x h := by
  unfold highPark
  rw [if_pos hhigh, hold]
  dsimp only
  rw [← hk, if_neg (by simp [hck])]

/-! ### The ends of parks, revives and closes -/

theorem parkWritten_of_written (he : d.sesOf h = some e) (hm : e.move = some m) (hst : e.state = .moving) (hkind : m.kind = 1)
    (hw : m.written = true) (hc : m.compressing = false) : parkWritten h x d = (d.parkDone x h).schedule x := by
  unfold parkWritten
  rw [he]
  dsimp only
  rw [hm, if_pos ⟨hst, by simp [hkind, hw, hc]⟩]

theorem stagingFree_of_move (he : d.sesOf h = some e) (hm : e.move = some m) : stagingFree h x d = d.startRevive x h m := by
  unfold stagingFree
  rw [he]
  dsimp only
  rw [hm]

theorem reviveDone_of_read (he : d.sesOf h = some e) (hm : e.move = some m) (hr : m.readStarted = true) (hs : d.submitting h = false) :
    reviveDone h x d = (d.reviveDecode x h).schedule x := by
  unfold reviveDone
  rw [he]
  dsimp only
  rw [hm, if_pos (by simp [hr, hs])]

theorem closeReleased_of_closing (he : d.sesOf h = some e) (hst : e.state = .closing) :
    closeReleased h x d = (((d.releaseSes x h).closeReply x h e).unlatch x e.die).schedule x := by
  unfold closeReleased Dev.closeDone
  rw [he]
  dsimp only
  rw [if_neg (by simp [hst])]

theorem nandRead_of_no_revive {u : Nat} {res : NandRead} (hr : (d.nandDone x u res).revivingFrom u = []) :
    nandRead u res x d = (d.nandDone x u res).schedule x := by
  unfold nandRead
  dsimp only
  rw [hr, List.foldl_nil]

end

/-- Settles O17: the events of slots, of waits, and of the moves of a session, each by its own lemma. -/
theorem sessionEventsTakeEffect : Obligations.SessionEventsTakeEffect := by
  unfold Obligations.SessionEventsTakeEffect
  intro s h e hp he
  refine ⟨fun n l hl => ⟨?fire, fun hdue hplain hst => Dev.fireSlot_of_plain he hl hdue hplain hst, ?timer⟩, ?wait, ?park, ?high,
    fun m hm => ⟨?written, ?stage, ?decode⟩, ?close, ?nand⟩
  case fire =>
    rintro hdue s₀ rfl
    exact onDev_eq hp (slotFireRow_of_due he hl hdue)
  case timer =>
    rintro hkind hprep hcmp hdue hbusy s₀ rfl
    exact onDev_eq hp (timerSlot_of_reached he hl hkind hprep hcmp hdue hbusy)
  case wait =>
    rintro hset hdue hst s₀ rfl
    exact onDev_eq hp (waitExpired_of_due he hset hdue hst)
  case park =>
    rintro hst hms hdue hck s₀ rfl
    exact onDev_eq hp (parkAfter_of_due he hst hms hdue hck)
  case high =>
    rintro die k hhigh hold hk hck s₀ rfl
    exact onDev_eq hp (highPark_of_oldest hhigh hold hk hck)
  case written =>
    rintro hst hkind hw hc s₀ rfl
    exact onDev_eq hp (parkWritten_of_written he hm hst hkind hw hc)
  case stage =>
    rintro s₀ rfl
    exact onDev_eq hp (stagingFree_of_move he hm)
  case decode =>
    rintro hr hs s₀ rfl
    exact onDev_eq hp (reviveDone_of_read he hm hr hs)
  case close =>
    rintro hst s₀ rfl
    exact onDev_eq hp (closeReleased_of_closing he hst)
  case nand =>
    rintro u res hr s₀ rfl
    exact onDev_eq hp (nandRead_of_no_revive hr)

end Sys2Proof.Machine
end

section
/-! Moves of sessions between modules (R102-R105). -/

namespace Sys2Proof.Machine

section
variable {x : Ctx} {q : Req} {d : Dev} {e : Ses} {h : Word} {m : Movement} {n : Nat} {msg : List Byte}

/-! ### The source -/

/-- The image of a move: a PARKED session's record, or a WARM session's KV entries. -/
theorem moveImage_of_state {img : List Byte} (hst : e.state = .parked ∧ d.readObj e.parkLoc = some img ∨
      e.state = .warm ∧ d.kvBad (d.kvOr e) = false ∧ d.encode q.part e true false = img) :
    (if (e.state == .warm) = true then (if d.kvBad (d.kvOr e) then none else some (d.encode q.part e true false)) else d.readObj e.parkLoc) =
      some img := by
  obtain ⟨hst, himg⟩ | ⟨hst, hbad, rfl⟩ := hst
  · simp [hst, himg]
  · simp [hst, hbad]

theorem sesMoveCmd_of_image {qp : Qp} {d₁ d₂ d₃ : Dev} {img : List Byte} {ops : List Nat} (hl : d.lookup q.part (q.w 2) = .ok e)
    (hc : q.clean [(2, top32), (3, 0xFFFFF), (4, top32), (5, 1), (6, top32), (7, 0xFF), (8, top32)] = true) (hid : (q.w 4).toNat ≠ 0)
    (hidHi : (q.w 4).toNat ≤ 0xFFFEFFFF) (hck : d.ckpHolds (q.w 2) = false) (hqp : d.moveQp q.part (q.f 3 19 0) = .ok qp)
    (hewr : d.ewrPost q.part (q.f 3 19 0) (q.w 4).toNat 0 128 true none = .ok d₁)
    (hst : e.state = .parked ∧ d₁.readObj e.parkLoc = some img ∨
      e.state = .warm ∧ d₁.kvBad (d₁.kvOr e) = false ∧ d₁.encode q.part e true false = img)
    (hd₂ : d₂ = (if e.state = .warm then ({ d₁ with free := d₁.free + img.length } : Dev).kvUse x (q.w 2)
      else ({ d₁ with free := d₁.free + img.length } : Dev).objUse x e.parkLoc).endRevives x (q.w 2) .aborted [])
    (hpost : (d₂.dropSpills x (q.w 2)).postAll x q.part (q.f 3 19 0) 2 (q.w 8).toNat 0
      (((chunks (1024 * qp.mtu) (img.length / (1024 * qp.mtu) + 1) img).mapIdx fun i b =>
        (bufOff (q.w 6).toNat (q.f 7 7 0) + 0x1000 + i * (1024 * qp.mtu), b)).filter fun b => !b.2.isEmpty) = (ops, d₃)) :
    sesMoveCmd x q d = .accept [] (.moveSes (q.w 2)) (d₃.goto x (q.w 2) { e with move := some { Movement.new 3 q.seq (e.state == .warm) with
      img := moveMsg 1 0 (q.w 4).toNat 0 img.length (bitAt (q.w 5).toNat 0) (Config.sha512 img)
      obj := if e.state = .warm then 0 else e.parkLoc
      qpn := q.f 3 19 0
      ident := (q.w 4).toNat
      target := bufOff (q.w 6).toNat (q.f 7 7 0)
      key := (q.w 8).toNat
      targetWarm := bitAt (q.w 5).toNat 0
      digest := Config.sha512 img
      sends := ops } } .moving) := by
  have hok : ¬ ((!q.clean [(2, top32), (3, 0xFFFFF), (4, top32), (5, 1), (6, top32), (7, 0xFF), (8, top32)]) = true ∨ (q.w 4).toNat = 0 ∨
      (q.w 4).toNat > 0xFFFEFFFF) := by
    simp only [hc, Bool.not_true, Bool.false_eq_true, false_or]
    omega
  have htakes : ¬ (e.state ≠ .warm ∧ e.state ≠ .parked) := by
    obtain ⟨hp, -⟩ | ⟨hw, -⟩ := hst
    · exact fun hn => hn.2 hp
    · exact fun hn => hn.1 hw
  unfold sesMoveCmd
  dsimp only
  rw [hl]
  dsimp only
  rw [if_neg hok, if_neg htakes, if_neg (by simp [hck]), hqp]
  dsimp only
  rw [hewr]
  dsimp only
  rw [moveImage_of_state hst]
  simp only [beq_iff_eq, ← hd₂, hpost]

theorem moveConfirmLate_of_due {t0 : Nat} (he : d.sesOf h = some e) (hm : e.move = some m) (hst : e.state = .moving) (hkind : m.kind = 3)
    (hsent : m.sent = some t0) (hdue : t0 + 125000000 ≤ x.now) : moveConfirmLate h x d = (d.moveBack x h .aborted).schedule x := by
  have hlate : (m.sent.elim false fun t => decide (t + 125000000 ≤ x.now)) = true := by
    rw [hsent, Option.elim_some, decide_eq_true hdue]
  unfold moveConfirmLate
  rw [he]
  dsimp only
  rw [hm]
  dsimp only
  rw [if_pos ⟨hst, hkind, hlate⟩]

/-- The commit point: the target has the session, and the source releases it. -/
theorem moveConfirmed_of_ok (hm : d.moverOf 3 3 n msg = some (h, e, m)) (hok : leAt msg 6 2 = 0) :
    moveConfirmed n msg x d = (((((((d.dropEwr n m.ident).withdrawAll x
      ((List.range 8).flatMap fun k => (d.dropEwr n m.ident).slotEwrs h k)).setPend h e []).releaseSes x h).endOp x m.op .ok
        [wd (leAt msg 12 4)]).closeReply x h e).unlatch x e.die).schedule x := by
  unfold moveConfirmed
  rw [hm]
  exact if_neg (by simp [hok])

theorem moveConfirmed_of_refused (hm : d.moverOf 3 3 n msg = some (h, e, m)) (hbad : leAt msg 6 2 ≠ 0) :
    moveConfirmed n msg x d = ((d.dropEwr n m.ident).moveBack x h (moveStatus (leAt msg 6 2))).schedule x := by
  unfold moveConfirmed
  rw [hm]
  exact if_pos hbad

/-! ### The target -/

theorem sesMoveInCmd_of_fit {k : Mdl} {v : Nat} {qp : Qp} {d₁ d₂ : Dev} (hk : d.mdl (q.f 2 15 0) = some k)
    (hc : q.clean [(2, top32), (3, top32), (4, 0xFFFFF), (5, top32), (6, top32), (7, 0x7FFFF), (8, top32)] = true) (hpart : k.part = q.part)
    (hid : (q.w 5).toNat ≠ 0) (hidHi : (q.w 5).toNat ≤ 0xFFFEFFFF) (hms : 1 ≤ (q.w 6).toNat) (hmsHi : (q.w 6).toNat ≤ 60000)
    (hbuf : d.moveBuf q.part (q.f 7 18 0) (q.w 8).toNat = true) (hv : d.bindAdapter q.part (q.f 2 15 0) (q.f 2 31 16) = some v)
    (hpf : d.prefixOk q.part (q.f 2 15 0) v (q.w 3).toNat = true) (hqp : d.moveQp q.part (q.f 4 19 0) = .ok qp)
    (hewr : d.ewrPost q.part (q.f 4 19 0) (q.w 5).toNat (q.f 7 18 0 * 2097152) 128 false none = .ok d₁)
    (hnew : d₁.newSes x q.part (d₁.chooseDie q.part 0) (q.f 2 15 0) v (q.w 3).toNat (fld (d₁.partReg q.part 0x030008) 15 0)
      (fld (d₁.partReg q.part 0x030000) 14 0) .moving (some { Movement.new 4 q.seq false with
        qpn := q.f 4 19 0
        ident := (q.w 5).toNat
        deadline := x.now + (q.w 6).toNat * ticksMs
        firstExt := q.f 7 18 0
        extCount := (q.w 8).toNat }) = some (h, d₂)) :
    sesMoveInCmd x q d = .accept [h] (.moveIn h) d₂ := by
  have hok : ¬ ((!q.clean [(2, top32), (3, top32), (4, 0xFFFFF), (5, top32), (6, top32), (7, 0x7FFFF), (8, top32)]) = true ∨ k.part ≠ q.part ∨
      (q.w 5).toNat = 0 ∨ (q.w 5).toNat > 0xFFFEFFFF ∨ (q.w 6).toNat = 0 ∨ (q.w 6).toNat > 60000 ∨
      (!d.moveBuf q.part (q.f 7 18 0) (q.w 8).toNat) = true) := by
    simp only [hc, hbuf, Bool.not_true, Bool.false_eq_true, false_or, or_false]
    omega
  unfold sesMoveInCmd
  dsimp only
  rw [hk]
  dsimp only
  rw [if_neg hok, hv]
  dsimp only
  rw [if_neg (by simp [hpf]), hqp]
  dsimp only
  rw [hewr]
  dsimp only
  rw [hnew]

/-- The confirmation has left: the session is the target's. -/
theorem moveSent_of_sent (he : d.sesOf h = some e) (hm : e.move = some m) (hst : e.state = .moving) (hkind : m.kind = 4) (hrec : m.recOp ≠ 0)
    (hops : thas d.ops m.recOp = false) (hfailed : d.net.failed.contains m.recOp = false) :
    moveSent h 0 x d = (((((if m.targetWarm then (d.setSes h { e with move := none }).enterWarm x h
      else d.goto x h { e with move := none } .parked).endOp x m.op .ok
        [h, wd (if m.targetWarm then SesStateName.warm else .parked).code]).settle x h).unlatch x e.die).schedule x) := by
  unfold moveSent
  rw [he]
  dsimp only
  rw [hm]
  dsimp only
  rw [if_neg (by simp [hst, hkind, hrec, hops]), if_neg (by simp only [hfailed]; decide)]
  cases m.targetWarm <;> rfl

theorem moveInLate_of_due (he : d.sesOf h = some e) (hm : e.move = some m) (hst : e.state = .moving) (hkind : m.kind = 4)
    (hin : m.recordIn = false) (hdue : m.deadline ≤ x.now) : moveInLate h x d = d.moveInEnd x h .aborted := by
  unfold moveInLate
  rw [he]
  dsimp only
  rw [hm]
  dsimp only
  rw [if_pos ⟨hst, hkind, by simp [hin], hdue⟩]

theorem moveAborted_of_early (hm : d.moverOf 4 2 n msg = some (h, e, m)) (hin : m.recordIn = false) :
    moveAborted n msg x d = d.moveInEnd x h .aborted := by
  unfold moveAborted
  rw [hm]
  dsimp only
  rw [if_neg (by simp [hin])]

theorem Dev.once_of_go {ag : Agent} {key : Nat × Nat} {l : List (Nat × Nat)} {d₀ : Dev} (f : Dev → Dev) (h : d.reach x ag key l = (.go, d₀)) :
    d.once x ag key l f = f d₀ := by
  rw [Dev.once, h]

/-- A record that names more bytes than its buffer has: the confirmation refuses, and the move in ends. -/
theorem moveRecord_of_overrun {d₀ d₁ : Dev} (hm : d.moverOf 4 1 n msg = some (h, e, m)) (hin : m.recordIn = false)
    (hgo : d.reach x .tiller (3, h.toNat) (d.runAddrs (hPart h) (m.firstExt * 2097152) (m.extCount * 2097152)) = (.go, d₀))
    (hlen : m.extCount * 2097152 < leAt msg 16 8 + 0x1000)
    (hpost : (d₀.dropEwr n m.ident).netPost x .tiller (hPart h) n 1 (moveMsg 3 Status.integrity.code m.ident 0 0 false 0) 0 0 (wd m.ident) = some d₁) :
    moveRecord n msg x d = d₁.moveInEnd x h .integrity := by
  simp only [moveRecord, hm, hin, Bool.false_eq_true, if_false, Dev.once_of_go _ hgo, if_neg (Nat.not_le.2 hlen), Bool.not_false, if_true,
    Option.getD_none, reduceCtorEq, hpost, ne_eq, not_false_eq_true]

/-- A record whose image passes the checks: the session takes the image, and the confirmation is sent. -/
theorem moveRecord_of_good {d₀ d₁ d₂ : Dev} {e₂ : Ses} {img : List Byte} (hm : d.moverOf 4 1 n msg = some (h, e, m)) (hin : m.recordIn = false)
    (hgo : d.reach x .tiller (3, h.toNat) (d.runAddrs (hPart h) (m.firstExt * 2097152) (m.extCount * 2097152)) = (.go, d₀))
    (hlen : leAt msg 16 8 + 0x1000 ≤ m.extCount * 2097152)
    (hread : (d₀.dropEwr n m.ident).bufRead (hPart h) (m.firstExt * 2097152 + 0x1000) (leAt msg 16 8) = some (img, false))
    (hsha : Config.sha512 img = BitVec.ofNat 512 (leAt msg 32 64)) (hhdr : hdrOk img ((d₀.dropEwr n m.ident).geoOf e.model) = true)
    (hsec : sectionsOk img = true)
    (hkeep : (d₀.dropEwr n m.ident).moveKeep h e { m with recordIn := true, targetWarm := bitAt (leAt msg 24 1) 0 } img = some d₁)
    (hpost : d₁.netPost x .tiller (hPart h) n 1 (moveMsg 3 0 m.ident h.toNat 0 false 0) 0 0 (wd m.ident) = some d₂) (he₂ : d₂.sesOf h = some e₂) :
    moveRecord n msg x d = (d₂.setSes h { e₂ with move := e₂.move.map fun m => { m with recOp := d₁.nextSeq } }).reedSettle x := by
  have hok : Status.ok.code = 0 := rfl
  simp only [moveRecord, hm, hin, Bool.false_eq_true, if_false, Dev.once_of_go _ hgo, if_pos hlen, hread, beq_iff_eq.2 hsha, hhdr, hsec,
    Option.elim_some, Bool.and_self, if_true, hkeep, Bool.not_true, Option.isNone_some, hok, Option.getD_some, hpost, ne_eq,
    not_true_eq_false, he₂]

end

/-- Settles O18: the source's command and each event of both sides. -/
theorem moveRowsTakeEffect : Obligations.MoveRowsTakeEffect := by
  unfold Obligations.MoveRowsTakeEffect
  refine ⟨?move, ?moveIn, fun s h e m hp he hm hst => ⟨?sent, ?late, ?confirmLate⟩, fun s n msg h e m hp => ⟨?confirmed, ?refused, ?aborted,
    fun d0 hm hin hgo => ⟨?overrun, ?good⟩⟩⟩
  case move =>
    rintro s₀ s c r q e qp d d1 d2 img ops mv rfl rfl hs hl hc hid hidHi hck hqp hewr hst hd1 hpost rfl
    have hbody := sesMoveCmd_of_image hl hc hid hidHi hck hqp hewr hst hd1 hpost
    refine onDev_eq hs.1 ?_
    rw [sesMoveRow, runCmd_accept hs hbody]
    rfl
  case moveIn =>
    rintro s₀ s c r q m v qp d d1 h rfl rfl hs hk hc hpart hid hidHi hms hmsHi hbuf hv hpf hqp hewr hnew
    exact hostCmd_accept hs (sesMoveInCmd_of_fit hk hc hpart hid hidHi hms hmsHi hbuf hv hpf hqp hewr hnew)
  case sent =>
    rintro d hkind hrec hops hfailed rfl s₀ rfl
    exact onDev_eq hp (moveSent_of_sent he hm hst hkind hrec hops hfailed)
  case late =>
    rintro hkind hin hdue s₀ rfl
    exact onDev_eq hp (moveInLate_of_due he hm hst hkind hin hdue)
  case confirmLate =>
    rintro t0 hkind hsent hdue s₀ rfl
    exact onDev_eq hp (moveConfirmLate_of_due he hm hst hkind hsent hdue)
  case confirmed =>
    rintro hm hok s₀ rfl
    exact ⟨_, onDev_eq hp (moveConfirmed_of_ok hm hok), rfl⟩
  case refused =>
    rintro hm hbad s₀ rfl
    exact onDev_eq hp (moveConfirmed_of_refused hm hbad)
  case aborted =>
    rintro hm hin s₀ rfl
    exact onDev_eq hp (moveAborted_of_early hm hin)
  case overrun =>
    rintro hlen d hpost s₀ rfl
    exact onDev_eq hp (moveRecord_of_overrun hm hin hgo hlen hpost)
  case good =>
    rintro img d1 d2 e2 hlen hread hsha hhdr hsec hkeep hpost he2 s₀ rfl
    exact onDev_eq hp (moveRecord_of_good hm hin hgo hlen hread hsha hhdr hsec hkeep hpost he2)

end Sys2Proof.Machine
end

section
/-! The commands of the memory family (R111-R119, R133-R137). -/

namespace Sys2Proof.Machine

section
variable {x : Ctx} {q : Req} {d : Dev}

/-! ### Buffers -/

theorem Dev.allotExts_of_quota {p n : Nat} {sts : List Nat} (h : d.hbmUsed p + 64 * n ≤ d.hbmQuota p) : d.allotExts p sts n = d.takeExts p sts n :=
  if_neg h.not_gt

theorem bufMap_of_free {sts es : List Nat} {d' : Dev} (hc : q.clean [(2, 0x7FFFF), (3, 0xFFFFF), (4, 0x1F)] = true)
    (hsts : mapStacks (q.f 4 4 0) = some sts) (hrun : runOk q.first q.count = true)
    (hfree : d.anyMapped q.part (runExts q.first q.count) = false) (hquota : d.hbmUsed q.part + 64 * q.count ≤ d.hbmQuota q.part)
    (htake : d.takeExts q.part sts q.count = some (es, d')) : bufMap x q d = .done .ok [wd q.count] (d'.mapRun q.part [] q.first es) := by
  have hc' : q.clean (runBits ++ [(4, 0x1F)]) = true := hc
  unfold bufMap
  rw [hsts]
  dsimp only
  rw [if_neg (by simp [hc', hrun, hfree]), Dev.allotExts_of_quota hquota, htake]

/-- MEM_BUF_UNMAP of a run that may be unmapped: at once, or when what pins or holds it is over. -/
theorem bufUnmap_of_mapped (hc : q.clean [(2, 0x7FFFF), (3, 0xFFFFF)] = true) (hrun : runOk q.first q.count = true)
    (hfrozen : d.anyFrozen q.part (runExts q.first q.count) = false) (hidx : (runExts q.first q.count).any (d.extIndexed q.part) = false) :
    bufUnmap x q d =
      if (d.runPinned q.part q.first q.count || d.runHeld q.seq q.part q.first q.count) = true then .accept [] (.unmap q.first q.count) d
      else .both [] .ok [wd (d.unmapRun q.part q.first q.count).1] (d.unmapRun q.part q.first q.count).2 := by
  have hc' : q.clean runBits = true := hc
  unfold bufUnmap
  rw [if_neg (by simp [hc', hrun]), if_neg (by simp [hfrozen, hidx])]

theorem memMove_of_mapped {es : List Nat} {d' : Dev} (hc : q.clean [(2, 0x7FFFF), (3, 0xFFFFF), (4, 0xF)] = true)
    (hrun : runOk q.first q.count = true) (hmapped : d.allMapped q.part (runExts q.first q.count) = true)
    (hidx : ∀ i ∈ d.pan.idx, i.2.part = q.part → i.2.die ≠ stackDie (q.f 4 3 0) →
      ∀ e ∈ runExts q.first q.count, e < i.2.first ∨ i.2.first + i.2.count ≤ e)
    (hquota : d.hbmUsed q.part + 64 * q.count ≤ d.hbmQuota q.part) (htake : d.takeExts q.part [q.f 4 3 0] q.count = some (es, d')) :
    memMove x q d = .accept [] (.moveExt q.first es ⟨0, 0, false, false, 0⟩) (d'.takeDesc q.seq) := by
  have hc' : q.clean (runBits ++ [(4, 0xF)]) = true := hc
  have hstay : ¬ (d.pan.idx.any fun i => i.2.part == q.part && i.2.die != stackDie (q.f 4 3 0) &&
      (runExts q.first q.count).any fun e => i.2.first ≤ e && e < i.2.first + i.2.count) = true := by
    simp only [List.any_eq_true, Bool.and_eq_true, beq_iff_eq, bne_iff_ne, decide_eq_true_eq, not_exists, not_and]
    rintro i hi ⟨hpart, hdie⟩ e he hlo hhi
    have := hidx i hi hpart hdie e he
    omega
  unfold memMove
  dsimp only
  rw [if_neg (by simp [hc', hrun, hmapped]), if_neg hstay, Dev.allotExts_of_quota hquota, htake]

/-- MEM_XFER of mapped bytes, of which none that goes to the host is sealed. -/
theorem memXfer_of_mapped {off len : Nat} {l : List Piece} (hc : q.clean [(2, top32), (3, top32), (4, top32), (5, 0x800000FF), (6, top32)] = true)
    (hoff : off = bufOff (q.w 4).toNat (q.f 5 7 0)) (hlen : len = (q.w 6).toNat) (hpos : 1 ≤ len) (hend : off + len ≤ 2 ^ 40)
    (hrun : d.bufRun q.part true (runFuel len) off len = some l)
    (hseal : bitAt (q.w 5).toNat 31 = true →
      (runExts (off / 2097152) ((off + len - 1) / 2097152 + 1 - off / 2097152)).any (d.extSealed q.part) = false) :
    memXfer x q d = .accept [] (.xfer (q.d2 2) off len (bitAt (q.w 5).toNat 31)) (d.takeDesc q.seq) := by
  subst hoff hlen
  have hopen : ∀ b : Bool, ¬ ((bitAt (q.w 5).toNat 31 && b && (runExts (bufOff (q.w 4).toNat (q.f 5 7 0) / 2097152)
      ((bufOff (q.w 4).toNat (q.f 5 7 0) + (q.w 6).toNat - 1) / 2097152 + 1 - bufOff (q.w 4).toNat (q.f 5 7 0) / 2097152)).any
        (d.extSealed q.part)) = true) := by
    intro b hb
    simp only [Bool.and_eq_true] at hb
    exact absurd hb.2 (by simp [hseal hb.1.1])
  unfold memXfer
  dsimp only
  rw [if_neg (by simp only [hc, Bool.not_true, Bool.false_eq_true, false_or]; omega), if_neg (hopen _), if_neg (by simp [hrun])]

/-- A transfer from host memory has nothing to post. -/
theorem Dev.xferOut_of_in {id p host off len : Nat} {src : CmdSrc} {ab : Bool} (h : tget d.ops id = some ⟨src, p, .xfer host off len false, ab⟩) :
    d.xferOut x id = d := by
  rw [Dev.xferOut, h]
  cases src <;> rfl

theorem memFreeze_of_whole (hc : q.clean [(2, 0x7FFFF), (3, 0xFFFFF)] = true) (hrun : runOk q.first q.count = true)
    (hwhole : d.allWhole q.part (runExts q.first q.count) = true) (hfrozen : d.anyFrozen q.part (runExts q.first q.count) = false)
    (hidx : (runExts q.first q.count).any (d.extIndexed q.part) = false) :
    memFreeze x q d = .done .ok [wd (d.freeze q.part q.first q.count false).1] (d.freeze q.part q.first q.count false).2 := by
  have hc' : q.clean runBits = true := hc
  unfold memFreeze
  dsimp only
  rw [if_neg (by simp [hc', hrun, hwhole, hfrozen]), if_neg (by simp [hidx])]

theorem shareDrop_of_own {o : Share} (hc : q.clean [(2, top32)] = true) (ho : d.share (q.w 2).toNat = some o) (hpart : o.part = q.part)
    (hown : o.own = true) :
    shareDrop x q d = .done .ok [wd o.refs] ((d.setShare (q.w 2).toNat { o with own := false }).shareCheck (q.w 2).toNat) := by
  unfold shareDrop
  dsimp only
  rw [if_neg (by simp [hc]), ho]
  dsimp only
  rw [if_neg (by simp [hpart, hown])]

theorem memWhere_of_unmapped (hc : q.clean [(2, top32), (3, 0xFF)] = true) (h : d.bufHome q.part (bufOff (q.w 2).toNat (q.f 3 7 0)) = none) :
    memWhere x q d = .done .ok [0, 0, 0] d := by
  unfold memWhere
  dsimp only
  rw [if_neg (by simp [hc]), h]

theorem memWhere_of_parked {u : Nat} {fr : Bool} (hc : q.clean [(2, top32), (3, 0xFF)] = true)
    (h : d.bufHome q.part (bufOff (q.w 2).toNat (q.f 3 7 0)) = some (.nand u, fr)) :
    memWhere x q d = .done .ok [wd ((if fr then 256 else 0) + 512), 0, 0] d := by
  have haddr : d.bufAddr q.part (bufOff (q.w 2).toNat (q.f 3 7 0)) = none := by rw [Dev.bufAddr, h]
  unfold memWhere
  dsimp only
  rw [if_neg (by simp [hc]), h, haddr]

theorem memWhere_of_hbm {off a : Nat} {fr : Bool} (hc : q.clean [(2, top32), (3, 0xFF)] = true) (hoff : off = bufOff (q.w 2).toNat (q.f 3 7 0))
    (h : d.bufHome q.part off = some (.hbm a, fr)) :
    memWhere x q d = .done .ok [wd (stackOf (a + off % 32768) + (if fr then 256 else 0) + 512), loW (a + off % 32768), hiW (a + off % 32768)] d := by
  have haddr : d.bufAddr q.part off = some (a + off % 32768, fr) := by rw [Dev.bufAddr, h]
  subst hoff
  unfold memWhere
  dsimp only
  rw [if_neg (by simp [hc]), h, haddr]

/-! ### Stores -/

theorem memStore_of_fits (hc : q.clean [(2, 0x7FFFF), (3, 0xFFFFF), (4, 1)] = true) (hrun : runOk q.first q.count = true)
    (hmapped : d.allMapped q.part (runExts q.first q.count) = true) (hfrozen : d.anyFrozen q.part (runExts q.first q.count) = false)
    (hidx : (runExts q.first q.count).any (d.extIndexed q.part) = false) (hfits : d.nandFits q.part (64 * q.count) = true)
    (hregion : d.regionInUse (q.f 4 0 0) + 64 * q.count ≤ d.regionUnits (q.f 4 0 0 == 1)) :
    memStore x q d = .accept [] (.store q.first q.count (q.f 4 0 0) [] ⟨0, 0, false, false, 0⟩) (d.takeDesc q.seq) := by
  have hc' : q.clean (runBits ++ [(4, 1)]) = true := hc
  unfold memStore
  dsimp only
  rw [if_neg (by simp [hc', hrun, hmapped, hfrozen]), if_neg (by simp [hidx]), if_neg (by simp [hfits, hregion.not_gt])]

theorem memLoad_of_store {o : NandObj} {es : List Nat} {d' : Dev} (hc : q.clean [(2, top32), (3, top32), (4, 0x7FFFF)] = true)
    (hload : d.loading (q.d2 2) = false) (ho : d.storeObj q.part (q.d2 2) = some o)
    (hrun : runOk (q.f 4 18 0) ((o.units.length + 63) / 64) = true)
    (hfree : d.anyMapped q.part (runExts (q.f 4 18 0) ((o.units.length + 63) / 64)) = false)
    (htake : d.allotExts q.part (List.range 16) ((o.units.length + 63) / 64) = some (es, d')) :
    memLoad x q d = .accept [] (.load (q.d2 2) (q.f 4 18 0) es ⟨0, 0, false, false, 0⟩)
      ((d'.mapRun q.part (List.range 64) (q.f 4 18 0) es).takeDesc q.seq) := by
  unfold memLoad
  dsimp only
  rw [if_neg (by simp [hc]), if_neg (by simp [hload]), ho]
  dsimp only
  rw [if_neg (by simp [hrun, hfree]), htake]

theorem nandFree_of_store {o : NandObj} (hc : q.clean [(2, top32), (3, top32)] = true) (hload : d.loading (q.d2 2) = false)
    (ho : d.storeObj q.part (q.d2 2) = some o) : nandFree x q d = .done .ok [] (d.freeObj (q.d2 2)) := by
  unfold nandFree
  rw [if_neg (by simp [hc]), if_neg (by simp [hload]), ho]

/-! ### Keys of the parking tier -/

theorem keyRotate_of_room {v : Nat} (hc : q.clean [] = true) (hroom : (d.keysOf q.part).1.length < 4)
    (hv : (List.range 63).find? (fun v => !(d.keysOf q.part).1.contains (v + 1)) = some v) :
    keyRotate x q d = .done .ok [wd (v + 1)] (d.setKeys q.part (addNum (v + 1) (d.keysOf q.part).1) (v + 1)) := by
  unfold keyRotate
  dsimp only
  rw [if_neg (by simp [hc]), if_neg hroom.not_ge, hv]

theorem keyRetire_of_unused (hc : q.clean [(2, 0x3F)] = true) (hold : q.f 2 5 0 ≠ (d.keysOf q.part).2)
    (hlive : (d.keysOf q.part).1.contains (q.f 2 5 0) = true) (hunits : d.unitsUnder q.part (q.f 2 5 0) = 0) :
    keyRetire x q d = .done .ok [] (d.setKeys q.part ((d.keysOf q.part).1.filter (· != q.f 2 5 0)) (d.keysOf q.part).2) := by
  unfold keyRetire
  dsimp only
  rw [if_neg (by simp [hc]), if_neg hold, if_neg (by simp only [hlive, hunits]; decide)]

theorem keyStatus_of_clean (hc : q.clean [] = true) :
    keyStatus x q d = .done .ok [wd (d.keysOf q.part).2, loW (verMask (d.keysOf q.part).1), hiW (verMask (d.keysOf q.part).1),
      wd (d.nandUsed q.part - d.unitsUnder q.part (d.keysOf q.part).2)] d := by
  unfold keyStatus
  dsimp only
  rw [if_neg (by simp [hc])]

end

/-- MEM_XFER accepted; what it takes to the host is posted at once. -/
theorem effMemXfer_accept {s : State} {c : Cmd} {r : CmdRec} {k : OpKind} {d : Dev} (hs : Started 0x0203 c r s)
    (hb : memXfer s.ctx (reqOf c r) s.dev = .accept [] k d) :
    effMemXfer c s = .next ((s.acceptedAs c r [] k d).andThen fun x d => d.xferOut x r.seq) := by
  obtain ⟨hp, -, hrec, -⟩ := id hs
  refine onDev_eq (f := fun x d => match d.startedRec c 0x0203 with
    | some r => (runCmd 0x0203 c memXfer x d).xferOut x r.seq
    | none => runCmd 0x0203 c memXfer x d) hp ?_
  dsimp only
  rw [hrec, runCmd_accept hs hb]
  rfl

/-- Settles O19: each memory command's body on what it takes. -/
theorem memoryCommandsComplete : Obligations.MemoryCommandsComplete := by
  unfold Obligations.MemoryCommandsComplete
  rintro s c r q rfl
  refine ⟨?map, fun hs hc hrun hfrozen hidx => ⟨?unmap, ?unmapLater⟩, ?move, fun off len l hs hc hoff hlen hpos hend hrun => ⟨?xferIn, ?xferOut⟩,
    ?freeze, ?drop, fun off hs hc hoff => ⟨?unmapped, ?parked, ?hbm⟩, ?store, ?load, ?free, ?rotate, ?retire, ?status⟩
  case map =>
    rintro sts es d hs hc hsts hrun hfree hquota htake s₀ rfl
    exact hostCmd_done hs (bufMap_of_free hc hsts hrun hfree hquota htake)
  case unmap =>
    rintro hpin hheld s₀ rfl
    exact hostCmd_both hs ((bufUnmap_of_mapped hc hrun hfrozen hidx).trans (if_neg (by simp [hpin, hheld])))
  case unmapLater =>
    rintro hpin s₀ rfl
    exact hostCmd_accept hs ((bufUnmap_of_mapped hc hrun hfrozen hidx).trans (if_pos (by simp [hpin])))
  case move =>
    rintro es d hs hc hrun hmapped hidx hquota htake s₀ rfl
    exact hostCmd_accept hs (memMove_of_mapped hc hrun hmapped hidx hquota htake)
  case xferIn =>
    rintro hdir s₀ rfl
    have hb := memXfer_of_mapped (x := (s₀.reach (cmdKey c)).ctx) hc hoff hlen hpos hend hrun (fun h => by simp [hdir] at h)
    rw [hdir] at hb
    refine (effMemXfer_accept hs hb).trans (congrArg Host.Outcome.next ?_)
    exact congrArg _ (Dev.xferOut_of_in (tget_tset_same ..))
  case xferOut =>
    rintro hdir hseal s₀ rfl
    have hb := memXfer_of_mapped (x := (s₀.reach (cmdKey c)).ctx) hc hoff hlen hpos hend hrun (fun _ => hseal)
    rw [hdir] at hb
    exact effMemXfer_accept hs hb
  case freeze =>
    rintro hs hc hrun hwhole hfrozen hidx s₀ rfl
    exact hostCmd_done hs (memFreeze_of_whole hc hrun hwhole hfrozen hidx)
  case drop =>
    rintro o hs hc ho hpart hown s₀ rfl
    exact hostCmd_done hs (shareDrop_of_own hc ho hpart hown)
  case unmapped =>
    rintro h s₀ rfl
    exact hostCmd_done hs (memWhere_of_unmapped hc (hoff ▸ h))
  case parked =>
    rintro u fr h s₀ rfl
    exact hostCmd_done hs (memWhere_of_parked hc (hoff ▸ h))
  case hbm =>
    rintro a fr h s₀ rfl
    exact hostCmd_done hs (memWhere_of_hbm hc hoff h)
  case store =>
    rintro hs hc hrun hmapped hfrozen hidx hfits hregion s₀ rfl
    exact hostCmd_accept hs (memStore_of_fits hc hrun hmapped hfrozen hidx hfits hregion)
  case load =>
    rintro o es d hs hc hload ho hrun hfree htake s₀ rfl
    exact hostCmd_accept hs (memLoad_of_store hc hload ho hrun hfree htake)
  case free =>
    rintro o hs hc hload ho s₀ rfl
    exact hostCmd_done hs (nandFree_of_store hc hload ho)
  case rotate =>
    rintro v hs hc hroom hv s₀ rfl
    exact hostCmd_done hs (keyRotate_of_room hc hroom hv)
  case retire =>
    rintro hs hc hold hlive hunits s₀ rfl
    exact hostCmd_done hs (keyRetire_of_unused hc hold hlive hunits)
  case status =>
    rintro hs hc s₀ rfl
    exact hostCmd_done hs (keyStatus_of_clean hc)

end Sys2Proof.Machine
end

section
/-! Moves in granules (R112-R117, R137), and waits for extents and descriptors (R59, R118). -/

namespace Sys2Proof.Machine

section
variable {x : Ctx} {d : Dev} {id p : Nat} {src : CmdSrc} {ab : Bool}

theorem unmapResume_of_free {first count : Nat} (ho : tget d.ops id = some ⟨src, p, .unmap first count, ab⟩)
    (hpin : d.runPinned p first count = false) (hheld : d.runHeld id p first count = false) :
    unmapResume id x d = (d.unmapRun p first count).2.endOp x id .ok [wd (d.unmapRun p first count).1] := by
  unfold unmapResume
  rw [ho]
  dsimp only
  rw [if_neg (by simp [hpin, hheld])]

/-! ### The copy and the switch of a granule -/

/-- An access to no bytes goes on at once. -/
theorem Dev.reach_nil (d : Dev) (x : Ctx) (ag : Agent) (key : Nat × Nat) : d.reach x ag key [] = (.go, d) := rfl

/-- The next granule of a move is in copy. -/
theorem copyStart_of_moveExt {first a n : Nat} {dst : List Nat} {m : MoveProg} (ho : tget d.ops id = some ⟨src, p, .moveExt first dst m, ab⟩)
    (hm : m.copying = false) (hdesc : d.hasDesc id = true) (hheld : d.runHeld id p first dst.length = false)
    (hnext : d.nextHeld p first dst.length m.next = some (n, .hbm a)) (hpin : d.pinned (gran a) = false)
    (hcopy : thas d.mem.copying (gran a) = false) :
    copyStart id x d = ({ d with mem := { d.mem with copying := tset d.mem.copying (gran a) id } } : Dev).setOp id
      (.moveExt first dst { m with copying := true }) := by
  have hmem : copyStartMem id ⟨src, p, .moveExt first dst m, ab⟩ d =
      some (({ d with mem := { d.mem with copying := tset d.mem.copying (gran a) id } } : Dev).setOp id
        (.moveExt first dst { m with copying := true })) := by
    unfold copyStartMem Dev.startCopy
    dsimp only
    rw [if_neg (by simp [hm, hdesc, hheld]), hnext]
    dsimp only
    rw [if_neg (by simp [hpin, hcopy])]
    rfl
  unfold copyStart
  rw [ho]
  dsimp only
  rw [show d.copyRanges ⟨src, p, .moveExt first dst m, ab⟩ true = [] from rfl, Dev.once_of_go _ (d.reach_nil x _ _), hmem]
  rfl

/-- A confirmed granule of a move has switched; the move goes on with the next, or ends. -/
theorem copySwitch_of_moveExt {first n : Nat} {h : Home} {dst : List Nat} {m : MoveProg} {d₀ : Dev}
    (ho : tget d.ops id = some ⟨src, p, .moveExt first dst m, ab⟩) (hm : m.copying = true)
    (hgo : d.reach x .culm (1, id) (d.copyRanges ⟨src, p, .moveExt first dst m, ab⟩ false) = (.go, d₀))
    (hnext : d₀.nextHeld p first dst.length m.next = some (n, h)) :
    copySwitch id true x d =
      if m.next + 1 ≥ ((d₀.switchExt x p first (m.to dst n) n).heldRun p first dst.length).length then
        (d₀.switchExt x p first (m.to dst n) n).endMoveExt x id p first dst m.step .ok
      else if ab then (d₀.switchExt x p first (m.to dst n) n).endMoveExt x id p first dst m.step .aborted
      else (d₀.switchExt x p first (m.to dst n) n).setOp id (.moveExt first dst m.step) := by
  unfold copySwitch
  rw [ho]
  dsimp only
  rw [if_pos rfl, Dev.once_of_go _ hgo]
  unfold switchMem
  dsimp only
  rw [if_pos hm, hnext]
  rfl

theorem Dev.descResume_of_room {w : Nat} {l : List Nat} (hw : d.mem.culmWait = w :: l) (hroom : nsum (d.mem.culm.map Prod.snd) < 16384) :
    d.descResume x = ({ d with mem := { d.mem with culmWait := l, culm := tset d.mem.culm w 1 } } : Dev).xferOut x w := by
  unfold Dev.descResume
  rw [hw]
  dsimp only
  rw [if_pos hroom]

end

/-- Settles O20: a resumed unmap, a granule's copy and its switch, and a descriptor that comes free. -/
theorem granuleRowsTakeEffect : Obligations.GranuleRowsTakeEffect := by
  unfold Obligations.GranuleRowsTakeEffect
  intro s id p src ab hp
  refine ⟨?unmap, ?copy, fun first n h dst m d ho hm hgo hnext => ⟨?next, ?last⟩, ?desc⟩
  case unmap =>
    rintro first count ho hpin hheld s₀ rfl
    exact onDev_eq hp (unmapResume_of_free ho hpin hheld)
  case copy =>
    rintro first a n dst m ho hm hdesc hheld hnext hpin hcopy s₀ rfl
    exact onDev_eq hp (copyStart_of_moveExt ho hm hdesc hheld hnext hpin hcopy)
  case next =>
    rintro hlt hab s₀ rfl
    refine onDev_eq hp ((copySwitch_of_moveExt ho hm hgo hnext).trans ?_)
    rw [if_neg hlt.not_ge, if_neg (by simp [hab])]
    rfl
  case last =>
    rintro hle s₀ rfl
    exact onDev_eq hp ((copySwitch_of_moveExt ho hm hgo hnext).trans (if_pos hle))
  case desc =>
    rintro w l hw hroom s₀ rfl
    exact onDev_eq (f := fun x d => d.descResume x) hp (Dev.descResume_of_room hw hroom)

end Sys2Proof.Machine
end

section
/-! The parking tier's own work (R124-R134). -/

namespace Sys2Proof.Machine

section
variable {x : Ctx} {d : Dev} {id p u b die region : Nat} {v : NUnit} {k : NBlock}

/-! ### Programs -/

/-- The unit that a MEM_STORE writes now. -/
theorem Dev.opUnits_of_store {src : CmdSrc} {a n c : Nat} {us : List Nat} {m : MoveProg} {ab : Bool}
    (ho : tget d.ops id = some ⟨src, p, .store a n c us m, ab⟩) (hm : m.copying = true) : d.opUnits id = us.drop m.next := by
  rw [Dev.opUnits, ho]
  exact if_pos hm

theorem ftlConfirm_of_programmed {src : CmdSrc} {a n c : Nat} {us : List Nat} {m : MoveProg} {ab : Bool}
    (ho : tget d.ops id = some ⟨src, p, .store a n c us m, ab⟩) (hm : m.copying = true) (hu : (us.drop m.next).getLast? = some u)
    (hw : d.nandWaits id = false) (hv : tget d.nand.units u = some v) :
    ftlConfirm id true x d = d.setOp id (.store a n c us { m with conf := true }) := by
  unfold ftlConfirm
  rw [Dev.opUnits_of_store ho hm, hu]
  dsimp only
  rw [if_neg (by simp [hw]), hv]
  dsimp only
  rw [if_neg (by decide), ho]

/-- A failed program retires its block, and the stripe of its last unit is written elsewhere. -/
theorem ftlConfirm_of_failed {src : CmdSrc} {a n c : Nat} {us : List Nat} {m : MoveProg} {ab : Bool}
    (ho : tget d.ops id = some ⟨src, p, .store a n c us m, ab⟩) (hm : m.copying = true) (hu : (us.drop m.next).getLast? = some u)
    (hw : d.nandWaits id = false) (hv : tget d.nand.units u = some v) :
    ftlConfirm id false x d = ({ d with nand := { d.nand with
        retired := addNum v.block d.nand.retired
        blocks := tmod d.nand.blocks v.block fun k => { k with region := 3 }
        open_ := d.nand.open_.filter fun e => e.2.1 != v.block } } : Dev).relocateAll
      ((d.nand.units.filter fun w => w.2.region == v.region && w.2.stripe == v.stripe).map Prod.fst) := by
  unfold ftlConfirm
  rw [Dev.opUnits_of_store ho hm, hu]
  dsimp only
  rw [if_neg (by simp [hw]), hv]
  dsimp only
  rw [if_pos (by decide)]

/-! ### Dies -/

/-- A die that fails while none is being rebuilt loses no unit. -/
theorem dieFail_of_first (hdie : die < 128) (hin : d.nand.failed.contains die = false) (hreb : d.nand.rebuilding = []) :
    ∃ e, dieFail die x d = e ∧ e.nand.units = d.nand.units ∧ e.nand.failed = addNum die d.nand.failed ∧ e.nand.rebuilding = [die] ∧
      e.nand.objs = d.nand.objs ∧ e.mem = d.mem ∧ e.ses = d.ses := by
  unfold dieFail
  dsimp only
  rw [if_neg (by simpa using ⟨hdie, by simpa using hin⟩)]
  generalize hd : ({ d with nand := _ } : Dev) = e
  obtain ⟨paths, hpaths⟩ := onlyPaths_recDev e x .fault 0x101 (nandSource die) (wd (d.unitsOn die).length) 0 0
  have hunits : e.nand.units = d.nand.units := by
    rw [← hd]
    simp [hreb, tmap]
  have hrebuilding : e.nand.rebuilding = [die] := by
    rw [← hd, hreb]
    rfl
  rw [hpaths]
  subst hd
  exact ⟨_, rfl, hunits, rfl, hrebuilding, rfl, rfl, rfl⟩

theorem dieRebuilt_of_rebuilding (h : d.nand.rebuilding.contains die = true) :
    dieRebuilt die x d = { d.relocateAll (d.unitsOn die) with
      nand := { (d.relocateAll (d.unitsOn die)).nand with
        rebuilding := (d.relocateAll (d.unitsOn die)).nand.rebuilding.filter (· != die) } } := if_pos h

/-! ### Blocks -/

theorem gcRegion_of_short (hr : region < 2) (h : d.freeShare region < 3 ∨ d.allotment region < d.blocksUsed region)
    (hb : d.emptiest region d.nand.blocks = some b) : gcRegion region x d = d.cleanBlock b := by
  unfold gcRegion
  rw [if_pos ⟨hr, h⟩, hb]

theorem disturb_of_worn {w : Bool} (hk : tget d.nand.blocks b = some k) (hr : k.region < 2)
    (h : w = true ∧ k.tired = true ∨ k.region = 0 ∧ 400000 ≤ k.reads ∨ k.region = 1 ∧ 60000 ≤ k.reads) : disturb b w x d = d.cleanBlock b := by
  have hreads : (w = true ∧ k.tired = true) ∨ k.reads ≥ (if k.region = 0 then 400000 else 60000) := by
    obtain h | ⟨h0, h⟩ | ⟨h1, h⟩ := h
    · exact .inl h
    · exact .inr (by rwa [if_pos h0])
    · exact .inr (by rwa [if_neg (by omega)])
  unfold disturb
  rw [hk]
  dsimp only
  rw [if_pos ⟨hr, hreads⟩]

theorem levelMove_of_far (hk : tget d.nand.blocks b = some k) (hr : k.region < 2)
    (hleast : ∀ o ∈ d.nand.blocks, 2 ≤ o.2.region ∨ k.wear ≤ o.2.wear)
    (hfar : ∃ o ∈ d.nand.blocks, d.wearSum + 15000 * d.goodBlocks < o.2.wear * d.goodBlocks ∨
      o.2.wear * d.goodBlocks + 15000 * d.goodBlocks < d.wearSum) : levelMove b x d = d.cleanBlock b := by
  have hany : (d.nand.blocks.any fun o => decide (d.wearSum + 15000 * d.goodBlocks < o.2.wear * d.goodBlocks ∨
      o.2.wear * d.goodBlocks + 15000 * d.goodBlocks < d.wearSum)) = true := by
    obtain ⟨o, ho, hf⟩ := hfar
    exact List.any_eq_true.2 ⟨o, ho, decide_eq_true hf⟩
  have hall : (d.nand.blocks.all fun o => decide (2 ≤ o.2.region ∨ k.wear ≤ o.2.wear)) = true :=
    List.all_eq_true.2 fun o ho => decide_eq_true (hleast o ho)
  unfold levelMove
  dsimp only
  rw [hk]
  dsimp only
  rw [hany, hall, decide_eq_true hr]
  rfl

/-! ### Units -/

theorem sweepUnit_of_old (hv : tget d.nand.units u = some v) (hpart : v.part = p) (hkey : v.key ≠ (d.keysOf p).2) (hst : v.state = 1)
    (hon : fld (d.partReg p 0x04000C) 11 0 ≠ 0) :
    sweepUnit p u x d = (({ d with nand := { d.nand with units := tset d.nand.units u { v with key := (d.keysOf p).2 } } } : Dev).relocate u).shapeNand
      p 5 5 0 [u] := by
  unfold sweepUnit
  rw [hv]
  exact if_pos ⟨hpart, hkey, hst, hon⟩

/-- The dies with a unit's read counted in its block. -/
def Dev.readCounted (d : Dev) (v : NUnit) (res : NandRead) : Dev :=
  { d with nand := { d.nand with blocks := tmod d.nand.blocks v.block fun k =>
    { k with reads := k.reads + 1, tired := k.tired || res == .worn } } }

theorem Dev.unitRead_of_good {res : NandRead} (hv : tget d.nand.units u = some v) (hres : res ≠ .unreadable) (hres' : res ≠ .rebuilt)
    (hdie : d.nand.failed.contains v.die = false ∨ v.state ≠ 1) : d.unitRead x u res = d.readCounted v res := by
  have hok : ((d.readCounted v res).dieOk v.die || v.state != 1) = true := by
    obtain h | h := hdie
    · rw [show (d.readCounted v res).dieOk v.die = !d.nand.failed.contains v.die from rfl, h]
      rfl
    · rw [bne_iff_ne.2 h, Bool.or_true]
  unfold Dev.unitRead
  rw [hv]
  dsimp only
  cases res with
  | ok => exact if_pos hok
  | worn => exact if_pos hok
  | rebuilt => exact absurd rfl hres'
  | unreadable => exact absurd rfl hres

theorem Dev.unitRead_of_rebuilt {res : NandRead} (hv : tget d.nand.units u = some v) (hres : res ≠ .unreadable)
    (hdie : res = .rebuilt ∨ d.nand.failed.contains v.die = true ∧ v.state = 1) :
    d.unitRead x u res = (d.readCounted v res).recDev x .alarm 3 (nandSource v.die) (wd u) 0 0 := by
  have hlost (hr : res ≠ .rebuilt) : ¬ ((d.readCounted v res).dieOk v.die || v.state != 1) = true := by
    obtain ⟨h, hst⟩ := hdie.resolve_left hr
    rw [show (d.readCounted v res).dieOk v.die = !d.nand.failed.contains v.die from rfl, h, hst]
    decide
  unfold Dev.unitRead
  rw [hv]
  dsimp only
  cases res with
  | ok => exact if_neg (hlost nofun)
  | worn => exact if_neg (hlost nofun)
  | rebuilt => rfl
  | unreadable => exact absurd rfl hres

theorem Dev.unitRead_of_unreadable (hv : tget d.nand.units u = some v) :
    d.unitRead x u .unreadable = { d.readCounted v .unreadable with nand := { (d.readCounted v .unreadable).nand with
      units := tset d.nand.units u { v with state := 2 } } } := by
  rw [Dev.unitRead, hv]
  rfl

end

/-- Settles O21: programs, dies, blocks and units of the parking tier, each by its own lemma. -/
theorem parkingTierRowsTakeEffect : Obligations.ParkingTierRowsTakeEffect := by
  unfold Obligations.ParkingTierRowsTakeEffect
  intro s hp
  refine ⟨fun id p a b n u src us m ab v ho hm hu hw hv => ⟨?programmed, ?failed⟩, ?die, ?rebuilt, ?collect, ?disturb, ?level, ?sweep,
    fun u v res d hv hd => ⟨?good, ?alarm, ?unreadable⟩⟩
  case programmed =>
    rintro s₀ rfl
    exact onDev_eq hp (ftlConfirm_of_programmed ho hm hu hw hv)
  case failed =>
    rintro s₀ rfl
    exact onDev_eq hp (ftlConfirm_of_failed ho hm hu hw hv)
  case die =>
    rintro die hdie hin hreb s₀ rfl
    obtain ⟨e, he, hunits, hfailed, hrebuilding, hobjs, hmem, hses⟩ := dieFail_of_first (x := (s₀.reach (evKey 1 0 (source 4 (0x100 + die)))).ctx)
      hdie hin hreb
    exact ⟨_, onDev_eq hp he, hunits, hfailed, hrebuilding, hobjs, hmem, hses⟩
  case rebuilt =>
    rintro die h s₀ rfl
    exact onDev_eq hp (dieRebuilt_of_rebuilding h)
  case collect =>
    intro region b hr h hb
    exact onDev_eq hp (gcRegion_of_short hr h hb)
  case disturb =>
    intro b w k hk hr h
    exact onDev_eq hp (disturb_of_worn hk hr h)
  case level =>
    intro b k hk hr hleast hfar
    exact onDev_eq hp (levelMove_of_far hk hr hleast hfar)
  case sweep =>
    rintro p u v hv hpart hkey hst hon s₀ rfl
    exact onDev_eq hp (sweepUnit_of_old hv hpart hkey hst hon)
  all_goals subst hd
  case good =>
    intro hres hres' hdie
    exact onDev_eq (f := fun x d => d.unitRead x u res) hp (Dev.unitRead_of_good hv hres hres' hdie)
  case alarm =>
    intro hres hdie
    exact onDev_eq (f := fun x d => d.unitRead x u res) hp (Dev.unitRead_of_rebuilt hv hres hdie)
  case unreadable =>
    rintro rfl
    exact onDev_eq (f := fun x d => d.unitRead x u .unreadable) hp (Dev.unitRead_of_unreadable hv)

end Sys2Proof.Machine
end

section
/-! The scalar operations of a core (R161-R163). -/

namespace Sys2Proof.Machine

/-! ### The frame of an operation -/

section
variable {n : Nat} {c c' : Core} {s : State} {d : Dev} {f : Dev → Core → CRes} {g : Dev → Core → Option CRes} {b : Block} {pc code : Nat}

theorem coreOp_of_ready (hc : CoreReady n c s) (x : Ctx) : coreOp n f x s.dev = s.dev.coreRes x n (f s.dev c) := by
  obtain ⟨-, hat, hfree, hpc⟩ := hc
  rw [coreOp, hat]
  dsimp only
  rw [if_neg (by simp [hfree]), if_neg hpc.not_gt]

theorem onDev_coreOp (hc : CoreReady n c s) : onDev (coreOp n f) s = .next (s.withDev (s.dev.coreRes s.ctx n (f s.dev c))) :=
  onDev_eq hc.1 (coreOp_of_ready hc _)

/-- An operation of a ready core that completes. -/
theorem onDev_coreOp_ok (hc : CoreReady n c s) (hf : f s.dev c = .ok (d, c', pc)) : onDev (coreOp n f) s = .next (s.coreWith n d c' pc) := by
  rw [onDev_coreOp hc, hf]
  rfl

/-- An operation of a ready core that faults. -/
theorem onDev_coreOp_error (hc : CoreReady n c s) (hf : f s.dev c = .error code) :
    onDev (coreOp n f) s = .next (s.withDev (s.dev.faultRow s.ctx n code)) := by
  rw [onDev_coreOp hc, hf]
  rfl

theorem lsGet_of_good {off len : Nat} (h : off + len ≤ lsTop) (hbad : d.lsBad n off len = false) : d.lsGet n off len = .ok (d.lsRead n off len) := by
  rw [Dev.lsGet, if_neg h.not_gt, if_neg (by simp [hbad])]

theorem lsGet_of_bad {off len : Nat} (h : off + len ≤ lsTop) (hbad : d.lsBad n off len = true) : d.lsGet n off len = .error 5 := by
  rw [Dev.lsGet, if_neg h.not_gt, if_pos hbad]

theorem lsPut_of_fits {off : Nat} {bs : List Byte} (h : off + bs.length ≤ lsTop) : d.lsPut n off bs = .ok (d.lsWrite n off bs) := by
  rw [Dev.lsPut, if_neg h.not_gt]

end

theorem length_leBytes (k v : Nat) : (leBytes k v).length = k := by
  induction k generalizing v with
  | zero => rfl
  | succ k ih => rw [leBytes, List.length_cons, ih]

/-! ### What each operation computes -/

section
variable {n : Nat} {c : Core} {d : Dev}

theorem Core.wr_zero (c : Core) (v : BitVec 64) : c.wr 0 v = c := rfl

theorem Core.rd_zero (c : Core) : c.rd 0 = 0 := rfl

theorem coreAluOp_reg {o : Option AluOp} {rd rs rt : Nat} (hd : rd < 32) (hs : rs < 32) (ht : rt < 32) :
    coreAluOp o rd rs (.reg rt) d c = .ok (d, c.wr rd (o.elim (c.rd rs * c.rd rt) fun o => aluVal 64 o (c.rd rs) (c.rd rt)), c.pc + 8) := by
  unfold coreAluOp
  dsimp only
  rw [if_neg (by omega), if_neg (by omega)]
  cases o <;> rfl

theorem coreAluOp_imm {o : Option AluOp} {rd rs : Nat} {v : BitVec 16} (hd : rd < 32) (hs : rs < 32) :
    coreAluOp o rd rs (.imm v) d c = .ok (d, c.wr rd (o.elim (c.rd rs * immVal 31 64 v) fun o => aluVal 64 o (c.rd rs) (immVal (aluNo o + 16) 64 v)),
      c.pc + 8) := by
  unfold coreAluOp
  dsimp only
  rw [if_neg (by omega)]
  cases o <;> rfl

theorem coreAluOp_li {o : Option AluOp} {rd rs : Nat} {v : BitVec 48} (hd : rd < 32) (hs : rs < 32) :
    coreAluOp o rd rs (.li v) d c = .ok (d, c.wr rd (immVal 14 64 v), c.pc + 8) := by
  unfold coreAluOp
  dsimp only
  rw [if_neg (by omega)]

theorem coreAluOp_undefined {o : Option AluOp} {rd rs : Nat} {src : CSrc} (hd : 32 ≤ rd) : coreAluOp o rd rs src d c = .error 2 := by
  unfold coreAluOp
  exact if_pos (.inl hd)

/-- The operands that a load or a store may have. -/
theorem ldSt_operands {bytes r base : Nat} (hr : r < 32) (hbase : base < 32) (hb : bytes = 1 ∨ bytes = 2 ∨ bytes = 4 ∨ bytes = 8) :
    ¬ (r ≥ 32 ∨ base ≥ 32 ∨ (!([1, 2, 4, 8] : List Nat).contains bytes) = true) := by
  have hmem : ([1, 2, 4, 8] : List Nat).contains bytes = true := by obtain rfl | rfl | rfl | rfl := hb <;> rfl
  rw [hmem]
  simp [hr, hbase]

theorem coreLdStOp_store {bytes r base a : Nat} {off : BitVec 16} (hr : r < 32) (hbase : base < 32)
    (hb : bytes = 1 ∨ bytes = 2 ∨ bytes = 4 ∨ bytes = 8) (ha : a = (c.rd base + immVal 13 64 off).toNat) (hfits : a + bytes ≤ lsTop) :
    coreLdStOp n true bytes r base off d c = .ok (d.lsWrite n a (leBytes bytes (c.rd r).toNat), c, c.pc + 8) := by
  subst ha
  unfold coreLdStOp
  dsimp only
  rw [if_neg (ldSt_operands hr hbase hb), if_pos rfl, lsPut_of_fits (by rwa [length_leBytes])]

theorem coreLdStOp_load {bytes r base a : Nat} {off : BitVec 16} (hr : r < 32) (hbase : base < 32)
    (hb : bytes = 1 ∨ bytes = 2 ∨ bytes = 4 ∨ bytes = 8) (ha : a = (c.rd base + immVal 13 64 off).toNat) (hfits : a + bytes ≤ lsTop)
    (hbad : d.lsBad n a bytes = false) :
    coreLdStOp n false bytes r base off d c = .ok (d, c.wr r (loadVal 1 (d.lsRead n a bytes) 64), c.pc + 8) := by
  subst ha
  unfold coreLdStOp
  dsimp only
  rw [if_neg (ldSt_operands hr hbase hb), if_neg (by decide), lsGet_of_good hfits hbad]

theorem coreLdStOp_poisoned {bytes r base a : Nat} {off : BitVec 16} (hr : r < 32) (hbase : base < 32)
    (hb : bytes = 1 ∨ bytes = 2 ∨ bytes = 4 ∨ bytes = 8) (ha : a = (c.rd base + immVal 13 64 off).toNat) (hfits : a + bytes ≤ lsTop)
    (hbad : d.lsBad n a bytes = true) : coreLdStOp n false bytes r base off d c = .error 5 := by
  subst ha
  unfold coreLdStOp
  dsimp only
  rw [if_neg (ldSt_operands hr hbase hb), if_neg (by decide), lsGet_of_bad hfits hbad]

theorem cIf_of_true {ok : Bool} (h : ok = true) (r : CRes) : cIf ok r = r := if_pos h

theorem coreBranchOp_bcc {t rs rt : Nat} {k : Cond} (ht : codeAt t = true) (hs : rs < 32) (hrt : rt < 32) :
    coreBranchOp (.bcc k rs rt t) d c = .ok (d, c, if condVal k (c.rd rs) (c.rd rt) then t else c.pc + 8) := by
  unfold coreBranchOp
  dsimp only
  rw [if_neg (by omega), cIf_of_true ht]
  split <;> rfl

theorem coreBranchOp_ret {a : Nat} {l : List Nat} (h : c.calls = a :: l) : coreBranchOp .ret d c = .ok (d, { c with calls := l }, a) := by
  unfold coreBranchOp
  dsimp only
  rw [h]

theorem coreLoopOp_none {r len : Nat} (hr : r < 32) (hk : (c.rd r).toNat = 0) : coreLoopOp r len d c = .ok (d, c, c.pc + 8 + 8 * len) := by
  unfold coreLoopOp
  dsimp only
  rw [if_neg (by omega), if_pos (.inl hk)]

theorem coreLoopOp_some {r len : Nat} (hr : r < 32) (hlen : 1 ≤ len) (hk : 1 ≤ (c.rd r).toNat) :
    coreLoopOp r len d c = .ok (d, { c with loops := (c.pc + 8, c.pc + 8 + 8 * len, (c.rd r).toNat) :: c.loops }, c.pc + 8) := by
  unfold coreLoopOp
  dsimp only
  rw [if_neg (by omega), if_neg (by omega)]

end

/-- Settles O22: s0 reads as zero, and each scalar operation of a ready core. -/
theorem coreScalarOperationsTakeEffect : Obligations.CoreScalarOperationsTakeEffect := by
  unfold Obligations.CoreScalarOperationsTakeEffect
  refine ⟨fun c v => ⟨Core.wr_zero c v, Core.rd_zero c⟩, fun s n c hc => ⟨?reg, ?imm, ?li, ?undefined, ?ldst, ?branch, ?ret, ?loop⟩⟩
  case reg =>
    intro o rd rs rt hd hs ht
    exact ⟨onDev_coreOp_ok hc (coreAluOp_reg hd hs ht), onDev_coreOp_ok hc (coreAluOp_reg hd hs ht)⟩
  case imm =>
    intro rd rs v hd hs
    exact ⟨onDev_coreOp_ok hc (coreAluOp_imm hd hs), onDev_coreOp_ok hc (coreAluOp_imm hd hs)⟩
  case li =>
    intro rd rs v o hd hs
    exact onDev_coreOp_ok hc (coreAluOp_li hd hs)
  case undefined =>
    intro rd rs rt o hd
    exact onDev_coreOp_error hc (coreAluOp_undefined hd)
  case ldst =>
    intro bytes r base a off hr hbase hb ha hfits
    exact ⟨onDev_coreOp_ok hc (coreLdStOp_store hr hbase hb ha hfits), fun hbad => onDev_coreOp_ok hc (coreLdStOp_load hr hbase hb ha hfits hbad),
      fun hbad => onDev_coreOp_error hc (coreLdStOp_poisoned hr hbase hb ha hfits hbad)⟩
  case branch =>
    intro t ht
    exact ⟨onDev_coreOp_ok hc (cIf_of_true ht _), onDev_coreOp_ok hc (cIf_of_true ht _), onDev_coreOp_ok hc (cIf_of_true ht _),
      fun k rs rt hs hrt => onDev_coreOp_ok hc (coreBranchOp_bcc ht hs hrt)⟩
  case ret =>
    intro a l h
    exact onDev_coreOp_ok hc (coreBranchOp_ret h)
  case loop =>
    intro r len hr hlen
    exact ⟨fun hk => onDev_coreOp_ok hc (coreLoopOp_none hr hk), fun hk => onDev_coreOp_ok hc (coreLoopOp_some hr hlen hk)⟩

end Sys2Proof.Machine
end

section
/-! The matrix and vector operations of a core (R189-R206). -/

namespace Sys2Proof.Machine

theorem mapIdx_of_forall {α : Type} {f : Nat → α → α} {l : List α} (h : ∀ i a, f i a = a) : l.mapIdx f = l :=
  List.ext_getElem List.length_mapIdx fun i _ _ => by rw [List.getElem_mapIdx, h]

section
variable {n : Nat} {c : Core} {d : Dev}

/-! ### The matrix unit -/

/-- The tile that WLOAD reads: its header, codes and scales. -/
def loadedTile (f layer k : Nat) (out : Bool) (bs : List Byte) : Tile :=
  { Tile.empty with
    fmt := f
    layer := layer
    outlier := out
    codes := tileCodes f k (bs.take (64 * (k * fmtBits f / 8)))
    scales := tileScales f k (bs.drop (64 * (k * fmtBits f / 8))) }

/-- A core at WLOAD: the layer of the tile, and the error of a sampled run that ends. -/
def Core.atLoad (c : Core) (w layer : Nat) : Core :=
  { c with
    layer := layer
    errs := if (c.tile w).sampled = true then c.errs ++ [((c.tile w).error, (c.tile w).layer)] else c.errs }

theorem Core.ends_sample (c : Core) (w layer : Nat) :
    (if (c.tile w).sampled = true then { c with errs := c.errs ++ [((c.tile w).error, (c.tile w).layer)] } else c) =
      { c with errs := (c.atLoad w layer).errs } := by
  unfold Core.atLoad
  split <;> rfl

/-- Where no sample is due, or the tile carries no reference, WLOAD counts the run and what it skips. -/
theorem wloadOp_of_unsampled {w base f layer k : Nat} {rf out due : Bool} {m : Mdl} (hw : w ≤ 1) (hbase : base % 64 = 0)
    (hhdr : base + 64 ≤ lsTop) (hhdrBad : d.lsBad n base 64 = false) (ht : tileHdr (d.lsRead n base 64) = some (f, rf, out, layer))
    (hk : depthOf f = some k) (hbody : base + 64 + tileLen f k ≤ lsTop) (hbodyBad : d.lsBad n (base + 64) (tileLen f k) = false)
    (hm : d.mdl c.model = some m)
    (hdue : due = ((d.numCfg m.part).1 && narrowFmt f && decide (2 ^ (d.numCfg m.part).2.1 ≤ c.samples))) (hno : due = false ∨ rf = false) :
    wloadOp n w base d c = .ok (d, ({ c.atLoad w layer with
      skips := if due = true then c.skips + 1 else c.skips
      samples := if narrowFmt f = true then c.samples + 1 else c.samples } : Core).setTile w
        (loadedTile f layer k out (d.lsRead n (base + 64) (tileLen f k))), c.pc + 8) := by
  have hsample : ¬ ((d.numCfg m.part).1 && narrowFmt f && decide (2 ^ (d.numCfg m.part).2.1 ≤ c.samples) && rf) = true := by
    rw [← hdue]
    obtain h | h := hno <;> simp [h]
  unfold wloadOp
  rw [if_neg (by omega), lsGet_of_good hhdr hhdrBad]
  dsimp only
  rw [ht]
  dsimp only
  rw [hk, Option.getD_some, lsGet_of_good hbody hbodyBad]
  simp only [c.ends_sample w layer, hm, Option.elim_some]
  rw [if_neg hsample, ← hdue]
  cases due <;> rfl

/-- Where a sample is due and the tile carries its reference, WLOAD takes the reference and the count starts again. -/
theorem wloadOp_of_sampled {w base f layer k : Nat} {rf out due : Bool} {m : Mdl} (hw : w ≤ 1) (hbase : base % 64 = 0)
    (hhdr : base + 64 ≤ lsTop) (hhdrBad : d.lsBad n base 64 = false) (ht : tileHdr (d.lsRead n base 64) = some (f, rf, out, layer))
    (hk : depthOf f = some k) (hbody : base + 64 + tileLen f k ≤ lsTop) (hbodyBad : d.lsBad n (base + 64) (tileLen f k) = false)
    (hm : d.mdl c.model = some m)
    (hdue : due = ((d.numCfg m.part).1 && narrowFmt f && decide (2 ^ (d.numCfg m.part).2.1 ≤ c.samples))) (hyes : due = true) (hrf : rf = true)
    (href : base + 64 + tileLen f k + tileLen 1 k ≤ lsTop) (hrefBad : d.lsBad n (base + 64 + tileLen f k) (tileLen 1 k) = false) :
    wloadOp n w base d c = .ok (d, ({ c.atLoad w layer with samples := 0 } : Core).setTile w
      { loadedTile f layer k out (d.lsRead n (base + 64) (tileLen f k)) with
        sampled := true
        refCodes := tileCodes 1 k ((d.lsRead n (base + 64 + tileLen f k) (tileLen 1 k)).take (64 * k))
        refScales := tileScales 1 k ((d.lsRead n (base + 64 + tileLen f k) (tileLen 1 k)).drop (64 * k)) }, c.pc + 8) := by
  have hsample : ((d.numCfg m.part).1 && narrowFmt f && decide (2 ^ (d.numCfg m.part).2.1 ≤ c.samples) && rf) = true := by
    rw [← hdue, hyes, hrf]
    rfl
  unfold wloadOp
  rw [if_neg (by omega), lsGet_of_good hhdr hhdrBad]
  dsimp only
  rw [ht]
  dsimp only
  rw [hk, Option.getD_some, lsGet_of_good hbody hbodyBad]
  simp only [c.ends_sample w layer, hm, Option.elim_some]
  rw [if_pos hsample, lsGet_of_good href hrefBad]
  rfl

theorem mmulOp_of_rows {w ac af base rows row k len : Nat} (hw : w ≤ 1) (hac : ac ≤ 1) (hrows : 1 ≤ rows) (hend : row + rows ≤ 64)
    (hk : depthOf (c.tile w).fmt = some k) (hact : actOk (c.tile w).fmt af = true)
    (hlen : len = rows * (k * fmtBits af / 8) + rows * (k / 32)) (hfits : base + len ≤ lsTop) (hbad : d.lsBad n base len = false) :
    mmulOp n w ac af base rows row d c = .ok (d, mmulRows af w ac c row (actRows af k rows (d.lsRead n base len)), c.pc + 8) := by
  subst hlen
  unfold mmulOp
  dsimp only
  rw [hk]
  dsimp only
  rw [if_neg (by simp only [hact]; simp; omega), lsGet_of_good hfits hbad]

/-- A residue mismatch or an adder mismatch of an MMUL is fault code 6. -/
theorem mmulRow_of_mismatch {s : State} {w ac af base rows row : Nat} {resOk addOk : Bool} {r : Dev × Core × Nat} (hc : CoreReady n c s)
    (hr : mmulOp n w ac af base rows row s.dev c = .ok r) (hbad : (resOk && addOk) = false) :
    onDev (mmulRow n w ac af base rows row resOk addOk) s =
      .next (s.withDev ((if resOk = true then s.dev else s.dev.bumpDev 0x060500 1).faultRow s.ctx n 6)) := by
  obtain ⟨hp, hat, hfree, -⟩ := hc
  refine onDev_eq hp ?_
  unfold mmulRow
  rw [if_neg (by simp [hbad]), hat]
  dsimp only
  rw [if_neg (by simp [hfree]), hr]

theorem accoutOp_of_rows {ac row rows fmt dst : Nat} (hac : ac ≤ 1) (hrows : 1 ≤ rows) (hend : row + rows ≤ 64)
    (hfmt : fmt = 0x20 ∨ fmt = 0x22)
    (hfits : dst + (((List.range rows).flatMap fun i => c.accRow ac (row + i)).flatMap (storeVal fmt)).length ≤ lsTop) :
    accoutOp n ac row rows fmt dst none d c =
      .ok (d.lsWrite n dst (((List.range rows).flatMap fun i => c.accRow ac (row + i)).flatMap (storeVal fmt)), c.count 0 0 0, c.pc + 8) := by
  have hmem : ([0x20, 0x22] : List Nat).contains fmt = true := by obtain rfl | rfl := hfmt <;> rfl
  have hplain (i : Nat) : ((c.accRow ac (row + i)).mapIdx fun k v => if (none : Option Nat).isSome = true then
      f32Mul v (wd (leAt [] (4 * k) 4)) else v) = c.accRow ac (row + i) := mapIdx_of_forall fun _ _ => rfl
  unfold accoutOp
  rw [if_neg (by rw [hmem]; simp; omega)]
  dsimp only
  simp only [hplain, lsPut_of_fits hfits]
  rfl

/-! ### The vector unit -/

theorem vecFmt_of_or {fmt : Nat} (h : fmt = 0x20 ∨ fmt = 0x21 ∨ fmt = 0x22) : ([0x20, 0x21, 0x22] : List Nat).contains fmt = true := by
  obtain rfl | rfl | rfl := h <;> rfl

theorem coreVldVstOp_load {q fmt a : Nat} (hq : q < 32) (hfmt : fmt = 0x20 ∨ fmt = 0x21 ∨ fmt = 0x22)
    (hfits : a + 128 * fmtBits fmt / 8 ≤ lsTop) (hbad : d.lsBad n a (128 * fmtBits fmt / 8) = false) :
    coreVldVstOp n false q fmt a d c = .ok (d, c.setVec q (cvtVals fmt 128 (d.lsRead n a (128 * fmtBits fmt / 8)) []), c.pc + 8) := by
  unfold coreVldVstOp
  rw [if_neg (by rw [vecFmt_of_or hfmt]; simp [hq]), if_neg (by decide), lsGet_of_good hfits hbad]

theorem coreVldVstOp_store {q fmt a : Nat} (hq : q < 32) (hfmt : fmt = 0x20 ∨ fmt = 0x21 ∨ fmt = 0x22)
    (hfits : a + ((c.vec q).flatMap (storeVal fmt)).length ≤ lsTop) :
    coreVldVstOp n true q fmt a d c = .ok (d.lsWrite n a ((c.vec q).flatMap (storeVal fmt)), c, c.pc + 8) := by
  unfold coreVldVstOp
  rw [if_neg (by rw [vecFmt_of_or hfmt]; simp [hq]), if_pos rfl, lsPut_of_fits hfits]

theorem coreVecOp_reg {o : VecOp} {qd qa r : Nat} (hd : qd < 32) (ha : qa < 32) (hr : r < 32) :
    coreVecOp o qd qa (.reg r) d c = .ok (d, (c.setVec qd (lanes o (c.vec qa) (c.vec r) (c.vec qd))).count
      (satLanes o (c.vec qa) (c.vec r) (c.vec qd)) 0 0, c.pc + 8) :=
  cIf_of_true (by simp [hd, ha, hr]) _

theorem coreVecOp_bcast {o : VecOp} {qd qa r : Nat} (hd : qd < 32) (ha : qa < 32) (hr : r < 32) :
    coreVecOp o qd qa (.bcast r) d c = .ok (d, (c.setVec qd (lanes o (c.vec qa) (List.replicate 128 ((c.rd r).setWidth 32)) (c.vec qd))).count
      (satLanes o (c.vec qa) (List.replicate 128 ((c.rd r).setWidth 32)) (c.vec qd)) 0 0, c.pc + 8) :=
  cIf_of_true (by simp [hd, ha, hr]) _

theorem vredOp_of_reg {mx : Bool} {rd qa : Nat} (hd : rd < 32) (ha : qa < 32) :
    vredOp mx rd qa d c = .ok (d, (c.wr rd ((reduceLanes mx 7 (c.vec qa)).setWidth 64)).count (if mx = true then 0 else satTree 7 (c.vec qa)) 0 0,
      c.pc + 8) :=
  cIf_of_true (by simp [hd, ha]) _

/-! ### Quantization -/

theorem quantOut_of_fits {f dst sc : Nat} {bl : List QBlock}
    (hcodes : dst + (leBytes (bl.length * fmtBlock f * fmtBits f / 8) (packBits (fmtBits f) (bl.flatMap QBlock.codes))).length ≤ lsTop)
    (hscales : sc + (bl.flatMap fun b => scaleStore f b.scale).length ≤ lsTop) :
    quantOut n f dst sc bl d c = .ok ((d.lsWrite n dst (leBytes (bl.length * fmtBlock f * fmtBits f / 8)
      (packBits (fmtBits f) (bl.flatMap QBlock.codes)))).lsWrite n sc (bl.flatMap fun b => scaleStore f b.scale),
      c.count (bl.filter QBlock.ovf).length (bl.filter QBlock.unf).length (bl.filter QBlock.nan).length, c.pc + 8) := by
  unfold quantOut
  dsimp only
  rw [lsPut_of_fits hcodes]
  dsimp only
  rw [lsPut_of_fits hscales]

/-- VQUANT of a register without SPLIT. -/
theorem vquantOp_of_plain {f q dst sc stage group : Nat} (hf : blockFmt f = true) (hq : q < 32) :
    vquantOp n f (some q) dst sc none stage group d c = quantOut n f dst sc (quantLanes f (c.vec q)) d c := by
  have hbody : ((c.vec q).mapIdx fun i v => if group * 128 + i ≠ 0xFFFF ∧ ([] : List Nat).contains (group * 128 + i) = true then (0 : F32) else v) =
      c.vec q := mapIdx_of_forall fun i _ => if_neg (by simp)
  unfold vquantOp
  dsimp only
  rw [if_neg (by simp [hq, hf])]
  dsimp only [Option.isSome_none, Bool.false_eq_true, if_false]
  rw [if_neg (by simp)]
  simp only [Bool.false_eq_true, if_false, List.mapIdx_nil, stageOut, hbody]

/-- VQUANT with SPLIT: what the outlier map names goes to the staging area and is zero in the body. -/
theorem vquantOp_of_split {f q o dst sc stage group : Nat} (hf : blockFmt f = true) (hq : q < 32) (ho : o + 128 ≤ lsTop)
    (hbad : d.lsBad n o 128 = false) (hstage : stage + 256 ≤ lsTop) :
    vquantOp n f (some q) dst sc (some o) stage group d c = quantOut n f dst sc (quantLanes f ((c.vec q).mapIdx fun i v =>
        if group * 128 + i ≠ 0xFFFF ∧ (outMap (d.lsRead n o 128)).contains (group * 128 + i) = true then (0 : F32) else v))
      (stageOut n stage group (c.vec q) d ((outMap (d.lsRead n o 128)).mapIdx fun j i => (j, i))) c := by
  unfold vquantOp
  dsimp only
  rw [if_neg (by simp [hq, hf]), lsGet_of_good ho hbad]
  dsimp only [Option.isSome_some]
  rw [if_neg (fun h => absurd h.2 (by omega))]
  rfl

/-- VQUANT of the staging area. -/
theorem vquantOp_of_side {dst sc stage group : Nat} {split : Option Nat} (hstage : stage + 256 ≤ lsTop) (hbad : d.lsBad n stage 256 = false) :
    vquantOp n 1 none dst sc split stage group d c = quantOut n 1 dst sc (quantLanes 1 (bytesWords 64 (d.lsRead n stage 256))) d c := by
  unfold vquantOp vquantSideOp
  dsimp only
  rw [if_neg (by decide), lsGet_of_good hstage hbad]

theorem coreVcvtOp_of_good {f q src sc : Nat} (hq : q < 32) (hf : blockFmt f = true) (hsrc : src + 128 * fmtBits f / 8 ≤ lsTop)
    (hsc : sc + scaleBytes f 128 ≤ lsTop) (hsrcBad : d.lsBad n src (128 * fmtBits f / 8) = false)
    (hscBad : d.lsBad n sc (scaleBytes f 128) = false) :
    coreVcvtOp n f q src sc d c =
      .ok (d, (c.setVec q (cvtVals f 128 (d.lsRead n src (128 * fmtBits f / 8)) (d.lsRead n sc (scaleBytes f 128)))).count
        (cvtSat f 128 (d.lsRead n src (128 * fmtBits f / 8)) (d.lsRead n sc (scaleBytes f 128))) 0 0, c.pc + 8) := by
  unfold coreVcvtOp
  rw [if_neg (by simp [hq, hf]), lsGet_of_good hsrc hsrcBad, lsGet_of_good hsc hscBad]

end

/-- Settles O23: each matrix and vector operation of a ready core. -/
theorem coreMatrixAndVectorOperationsTakeEffect : Obligations.CoreMatrixAndVectorOperationsTakeEffect := by
  unfold Obligations.CoreMatrixAndVectorOperationsTakeEffect
  intro s n c hc
  refine ⟨?wload, ?mmul, ?accout, ?accz, ?vld, ?arith, ?vred, ?vquant, ?vcvt⟩
  case wload =>
    rintro w base f layer k rf out due bs m t c1 hw hbase hhdr hhdrBad ht hk hbody hbodyBad rfl hm hdue rfl rfl
    refine ⟨fun hno => ?_, ?_⟩
    · exact onDev_coreOp_ok hc (wloadOp_of_unsampled hw hbase hhdr hhdrBad ht hk hbody hbodyBad hm hdue hno)
    · rintro rs hyes hrf href hrefBad rfl
      exact onDev_coreOp_ok hc (wloadOp_of_sampled hw hbase hhdr hhdrBad ht hk hbody hbodyBad hm hdue hyes hrf href hrefBad)
  case mmul =>
    intro w ac af base rows row k len hw hac hrows hend hk hact hlen hfits hbad
    have hop := mmulOp_of_rows (c := c) hw hac hrows hend hk hact hlen hfits hbad
    refine ⟨?_, mmulRow_of_mismatch hc hop rfl, mmulRow_of_mismatch hc hop rfl⟩
    exact onDev_coreOp_ok hc hop
  case accout =>
    intro ac row rows fmt dst hac hrows hend hfmt hfits
    exact onDev_coreOp_ok hc (accoutOp_of_rows hac hrows hend hfmt hfits)
  case accz =>
    intro ac hac
    exact onDev_coreOp_ok hc (cIf_of_true (decide_eq_true hac) _)
  case vld =>
    intro q fmt a hq hfmt
    exact ⟨fun hfits hbad => onDev_coreOp_ok hc (coreVldVstOp_load hq hfmt hfits hbad),
      fun hfits => onDev_coreOp_ok hc (coreVldVstOp_store hq hfmt hfits)⟩
  case arith =>
    intro o qd qa r hd ha hr
    exact ⟨onDev_coreOp_ok hc (coreVecOp_reg hd ha hr), onDev_coreOp_ok hc (coreVecOp_bcast hd ha hr)⟩
  case vred =>
    intro mx rd qa hd ha
    exact onDev_coreOp_ok hc (vredOp_of_reg hd ha)
  case vquant =>
    rintro f q o dst sc stage group src split l d bl cb sb hf hsrc hbl rfl rfl hcodes hscales
    have hop : vquantOp n f src dst sc split stage group s.dev c = quantOut n f dst sc bl d c := by
      rw [hbl]
      obtain ⟨hs, hq, hsp, hl, hd⟩ | ⟨hs, hq, hsp, ho, hbad, hstage, hl, hd⟩ | ⟨hs, hf, hstage, hbad, hl, hd⟩ := hsrc
      · rw [hs, hsp, hl, hd, vquantOp_of_plain hf hq]
      · rw [hs, hsp, hl, hd, vquantOp_of_split hf hq ho hbad hstage]
      · rw [hs, hf, hl, hd, vquantOp_of_side hstage hbad]
    exact onDev_coreOp_ok hc (hop.trans (quantOut_of_fits hcodes hscales))
  case vcvt =>
    rintro f q src sc cb sb hq hf hsrc hsc hsrcBad hscBad rfl rfl
    exact onDev_coreOp_ok hc (coreVcvtOp_of_good hq hf hsrc hsc hsrcBad hscBad)

end Sys2Proof.Machine
end

section
/-! Messages, buffers, steps, transfers and waits of cores (R121, R163-R168). -/

namespace Sys2Proof.Machine

/-! ### The frame of an operation that may block -/

section
variable {n : Nat} {c c' : Core} {s : State} {d : Dev} {g : Dev → Core → Option CRes} {b : Block} {pc code : Nat}

theorem coreBlock_of_ready (hc : CoreReady n c s) (x : Ctx) : coreBlock n b g x s.dev =
    (g s.dev c).elim (s.dev.setCore n { c with blocked := some (b, x.now) }) (s.dev.coreRes x n) := by
  obtain ⟨-, hat, hfree, hpc⟩ := hc
  unfold coreBlock
  rw [hat]
  dsimp only
  rw [if_neg (by simp [hfree]), if_neg hpc.not_gt, hfree]
  cases g s.dev c <;> rfl

theorem onDev_coreBlock_ok (hc : CoreReady n c s) (hg : g s.dev c = some (.ok (d, c', pc))) :
    onDev (coreBlock n b g) s = .next (s.coreWith n d c' pc) :=
  onDev_eq hc.1 (by rw [coreBlock_of_ready hc, hg]; rfl)

/-- The core waits in the operation, from this tick on. -/
theorem onDev_coreBlock_wait (hc : CoreReady n c s) (hg : g s.dev c = none) :
    onDev (coreBlock n b g) s = .next (s.withDev (s.dev.setCore n { c with blocked := some (b, s.clock.now) })) :=
  onDev_eq hc.1 (by rw [coreBlock_of_ready hc, hg]; rfl)

end

/-! ### Messages -/

section
variable {n : Nat} {c : Core} {d : Dev}

theorem sendOp_of_channel {dst t chan off len k : Nat} {h : Chan} (ht : d.peer c dst = some t) (hh : tget (d.core t).chans chan = some h)
    (hk : tget h.credits n = some k) (hlen : len ≤ h.size) (hoff : off + len ≤ lsTop) (hbad : d.lsBad n off len = false) :
    sendOp n dst chan off len d c =
      if k = 0 then none
      else some (.ok ({ d.setCore t ((d.core t).setChan chan { h with credits := tset h.credits n (k - 1) }) with
          grid := { (d.setCore t ((d.core t).setChan chan { h with credits := tset h.credits n (k - 1) })).grid with
            msgs := d.grid.msgs ++ [⟨n, t, chan, d.lsRead n off len⟩] } },
        if t = n then c.setChan chan { h with credits := tset h.credits n (k - 1) } else c, c.pc + 8)) := by
  unfold sendOp
  rw [ht]
  dsimp only
  rw [hh]
  dsimp only
  rw [hk]
  dsimp only
  rw [if_neg hlen.not_gt, lsGet_of_good hoff hbad]
  rfl

theorem recvOp_of_message {chan ra rl slot src len t : Nat} {h : Chan} {q : List (Nat × Nat × Nat × Nat)} (hra : ra < 32) (hrl : rl < 32)
    (h14 : chan ≠ 14) (h15 : chan ≠ 15) (hh : tget c.chans chan = some h) (hq : h.queue = (src, slot, len, t) :: q) :
    recvOp n chan ra rl d c = some (.ok (d, ((c.setChan chan { h with queue := q, taken := h.taken ++ [(src, slot, len)] }).wr ra
      (w64 (h.ring + slot * h.size))).wr rl (w64 len), c.pc + 8)) := by
  unfold recvOp
  rw [if_neg (by omega), if_neg h14, if_neg h15, hh]
  dsimp only
  rw [hq]
  rfl

theorem mfreeOp_of_taken {chan src slot len : Nat} {h : Chan} {l : List (Nat × Nat × Nat)} (h14 : chan ≠ 14) (h15 : chan ≠ 15)
    (hh : tget c.chans chan = some h) (ht : h.taken = (src, slot, len) :: l) :
    mfreeOp chan d c = .ok (d, c.setChan chan { h with taken := l, credits := tset h.credits src (tgetD h.credits src 0 + 1) }, c.pc + 8) := by
  unfold mfreeOp
  rw [if_neg (by simp [h14, h15]), hh]
  dsimp only
  rw [ht]

theorem pollOp_of_channel {rd chan : Nat} {h : Chan} (hrd : rd < 32) (h14 : chan ≠ 14) (h15 : chan ≠ 15) (hh : tget c.chans chan = some h) :
    pollOp rd false chan d c = .ok (d, c.wr rd (if h.queue = [] then 0 else 1), c.pc + 8) := by
  have hyes : (w64 (if (!h.queue.isEmpty) = true then 1 else 0)) = if h.queue = [] then 0 else 1 := by cases h.queue <;> rfl
  unfold pollOp
  dsimp only
  rw [cIf_of_true (decide_eq_true hrd)]
  simp only [Bool.false_eq_true, if_false, h14, h15, hh, Option.elim_some, hyes]

/-- A message is in the slot of its channel that is next. -/
theorem msgDeliver_of_first {src dst chan : Nat} {m : Msg} {l : List Msg} {h : Chan} {x : Ctx}
    (hm : takeFirst (fun (m : Msg) => m.src == src && m.dst == dst && m.chan == chan) d.grid.msgs = some (m, l))
    (hh : tget (d.core dst).chans chan = some h) :
    msgDeliver src dst chan x d =
      (({ d with grid := { d.grid with msgs := l } } : Dev).lsWrite dst (h.ring + h.next % max 1 h.slots * h.size) m.bytes).setCore dst
        ((d.core dst).setChan chan { h with
          next := h.next + 1, queue := h.arrive src (h.next % max 1 h.slots) m.bytes.length x.now }) := by
  unfold msgDeliver
  rw [hm]
  dsimp only
  rw [show tget (({ d with grid := { d.grid with msgs := l } } : Dev).core dst).chans chan = some h from hh]
  rfl

/-- A message behind no later sender of its tick joins the end of the queue. -/
theorem Chan.arrive_last {h : Chan} {src a len now : Nat} (hq : ∀ e ∈ h.queue, e.2.2.2 = now → e.1 ≤ src) :
    h.arrive src a len now = h.queue ++ [(src, a, len, now)] := by
  have hlate (e : Nat × Nat × Nat × Nat) (he : e ∈ h.queue) : (e.2.2.2 == now && decide (src < e.1)) = false := by
    by_cases ht : e.2.2.2 = now
    · simp [(hq e he ht).not_gt]
    · simp [ht]
  unfold Chan.arrive
  dsimp only
  rw [List.filter_eq_self.2 fun e he => by simp [hlate e he], List.filter_eq_nil_iff.2 fun e he => by simp [hlate e he], List.append_nil]

/-! ### Buffers, steps and waits -/

theorem waitfullOp_of_full {b o l : Nat} (hl : l ≠ 0) (hb : c.bufs[b]? = some (o, l, true)) : waitfullOp b d c = some (.ok (d, c, c.pc + 8)) := by
  unfold waitfullOp
  rw [hb]
  dsimp only
  rw [if_neg hl, if_pos rfl]

theorem waitfullOp_of_free {b o l : Nat} (hl : l ≠ 0) (hb : c.bufs[b]? = some (o, l, false)) : waitfullOp b d c = none := by
  unfold waitfullOp
  rw [hb]
  dsimp only
  rw [if_neg hl, if_neg (by decide)]

theorem breleaseOp_of_full {b o l : Nat} (hl : l ≠ 0) (hb : c.bufs[b]? = some (o, l, true)) :
    breleaseOp b d c = .ok (d, { c with bufs := c.bufs.set b (o, l, false) }, c.pc + 8) := by
  unfold breleaseOp
  rw [hb]
  dsimp only
  rw [if_neg (by simp [hl])]

theorem breleaseOp_of_free {b o l : Nat} (hb : c.bufs[b]? = some (o, l, false)) : breleaseOp b d c = .error 7 := by
  unfold breleaseOp
  rw [hb]
  exact if_pos (.inr rfl)

theorem xferOp_of_fits {k : XferKind} {off len : Nat} (h : off + len ≤ lsTop) :
    xferOp k off len d c = .ok (d, { c with xfers := c.xfers ++ [⟨k, off, len, none⟩] }, c.pc + 8) := if_neg h.not_gt

theorem stepDoneOp_of_step {ns : Nat} (hin : c.inStep = true) (hfresh : c.fresh = false) :
    stepDoneOp ns d c = .ok (d, { c with done := true, engineNs := ns }, c.pc + 8) := by
  rw [stepDoneOp, if_pos (by simp [hin, hfresh])]

theorem fenceOp_of_quiet (hx : c.xfers = []) (hm : ∀ m ∈ d.grid.msgs, m.src ≠ n) : fenceOp n d c = some (.ok (d, c, c.pc + 8)) := by
  have hnone : (d.grid.msgs.any fun m => m.src == n) = false := List.any_eq_false.2 fun m h => by simp [hm m h]
  unfold fenceOp
  rw [if_pos (by rw [hx, hnone]; rfl)]

theorem fenceOp_of_transfer (hx : c.xfers ≠ []) : fenceOp n d c = none := by
  unfold fenceOp
  rw [if_neg (by simp [hx])]

theorem haltCore_of_ready {s : State} {x : Ctx} (hc : CoreReady n c s) : haltCore n x s.dev = s.dev.setCore n { c with run := false } := by
  obtain ⟨-, hat, hfree, -⟩ := hc
  unfold haltCore
  rw [hat]
  dsimp only
  rw [if_neg (by simp [hfree])]

theorem Dev.core_setCore_same (d : Dev) (n : Nat) (c : Core) : (d.setCore n c).core n = c := tgetD_tset_same ..

theorem Core.goto_xfers (c : Core) (pc : Nat) : (c.goto pc).xfers = c.xfers := rfl

/-- A fan-out behind other transfers of its core joins the line. -/
theorem onDev_fanOutOp {s : State} {off : Nat} (hc : CoreReady n c s) (hoff : off + 64 ≤ lsTop) (hbad : s.dev.lsBad n off 64 = false)
    (hx : c.xfers ≠ []) :
    onDev (fanOutOp n off) s = .next (s.coreAfter n
      { c with xfers := c.xfers ++ [⟨.inp 0, off, 64, some (s.dev.lsRead n off 64, List.replicate 8 0)⟩] } (c.pc + 8)) := by
  have hlen : (c.xfers ++ [(⟨.inp 0, off, 64, some (s.dev.lsRead n off 64, List.replicate 8 0)⟩ : CoreXfer)]).length ≠ 1 := by
    rw [List.length_append, List.length_singleton]
    exact fun h => hx (List.eq_nil_of_length_eq_zero (by omega))
  refine onDev_eq hc.1 ?_
  unfold fanOutOp
  rw [coreOp_of_ready hc, lsGet_of_good hoff hbad]
  dsimp only [Dev.coreRes]
  rw [Dev.core_setCore_same, Core.goto_xfers, if_neg hlen]

theorem stepWait_of_started {rd : Nat} {x : Ctx} (hrd : rd < 32) (hfree : c.blocked = none)
    (hat : ({ d with grid := { d.grid with cores := tset d.grid.cores n { d.core n with waiting := false } } } : Dev).coreAt n = some c) :
    stepWait n rd x d =
      if c.fresh = true then
        d.setCore n ((({ c with fresh := false, waiting := false } : Core).wr rd (w64 ((c.bufs[15]?).getD (0, 0, false)).1)).goto (c.pc + 8))
      else d.setCore n { c with waiting := true } := by
  unfold stepWait
  dsimp only
  rw [hat]
  dsimp only
  rw [if_neg (by simp [hfree]), if_neg (by omega)]

theorem hangOut_of_late {b : Block} {t : Nat} {x : Ctx} (hat : d.coreAt n = some c) (hb : c.blocked = some (b, t))
    (hlate : t + fld (d.devReg 0x060200) 9 0 * ticksMs ≤ x.now) (hstill : d.stillBlocked n c b = true) : hangOut n x d = d.faultRow x n 4 := by
  unfold hangOut
  rw [hat]
  dsimp only
  rw [hb]
  exact if_pos ⟨hlate, hstill⟩

end

end Sys2Proof.Machine
end

section
/-! Transfers, fan-outs, the prefetch schedule and the end of a load (R120-R122, R163, R177, R222, R229). -/

namespace Sys2Proof.Machine

section
variable {x : Ctx} {d : Dev} {n p a len : Nat} {t : CoreXfer}

/-! ### Transfers -/

theorem Dev.doXfer_refused (hk : t.kind = .out a) (hpeer : d.peerStore p a t.len = none) (hok : d.xferOk p a t.len true = false) :
    d.doXfer x n p t = (.badParam, d) := by
  unfold Dev.doXfer
  rw [hk]
  dsimp only
  rw [hpeer]
  exact if_neg (by simp [hok])

theorem Dev.doXfer_out (hk : t.kind = .out a) (hpeer : d.peerStore p a t.len = none) (hok : d.xferOk p a t.len true = true) :
    d.doXfer x n p t = (.ok, (d.hbmPut x a (d.lsRead n t.off t.len) (d.lsBad n t.off t.len)).chargePart p 0 t.len) := by
  unfold Dev.doXfer
  rw [hk]
  dsimp only
  rw [hpeer]
  exact if_pos hok

theorem Dev.doXfer_in (hk : t.kind = .inp a) (halias : addrKind a ≠ .glAlias) (hpeer : d.peerStore p a t.len = none)
    (hok : d.xferOk p a t.len false = true) : d.doXfer x n p t = (.ok, (d.lsFill n t.off a t.len).chargePart p 0 t.len) := by
  unfold Dev.doXfer
  rw [hk]
  dsimp only
  rw [if_neg halias, hpeer]
  exact if_pos hok

theorem Dev.doXfer_toPeer {c o : Nat} (hk : t.kind = .out a) (hpeer : d.peerStore p a t.len = some (c, o)) :
    d.doXfer x n p t = (.ok, d.lsCopy n t.off c o t.len) := by
  unfold Dev.doXfer
  rw [hk]
  dsimp only
  rw [hpeer]

theorem Dev.doXfer_fromPeer {c o : Nat} (hk : t.kind = .inp a) (halias : addrKind a ≠ .glAlias) (hpeer : d.peerStore p a t.len = some (c, o)) :
    d.doXfer x n p t = (.ok, d.lsCopy c o n t.off t.len) := by
  unfold Dev.doXfer
  rw [hk]
  dsimp only
  rw [if_neg halias, hpeer]

theorem xferDone_of_go {ts : List CoreXfer} {m : Mdl} {d₀ : Dev} (hx : (d.core n).xfers = t :: ts) (hfan : t.fan = none)
    (hm : d.mdl (d.core n).model = some m) (hgo : d.reach x .culm (2, n) t.reads = (.go, d₀)) :
    xferDone n x d = (((d₀.doXfer x n m.part t).2.popXfer n).notice n 16 (d₀.doXfer x n m.part t).1).fanHead x n
      ((((d₀.doXfer x n m.part t).2.popXfer n).notice n 16 (d₀.doXfer x n m.part t).1).core n).xfers.length := by
  obtain ⟨kd, o, l, fan⟩ := t
  subst hfan
  unfold xferDone
  dsimp only
  rw [hx, hm]
  dsimp only
  rw [Dev.once_of_go _ hgo]

/-! ### Fan-outs: the cores while a partial is copied -/

/-- The cores are the same. -/
def SameCores (d e : Dev) : Prop := e.grid.cores = d.grid.cores

theorem SameCores.refl (d : Dev) : SameCores d d := rfl

theorem SameCores.of_grid {d : Dev} {g : GridState} (h : g.cores = d.grid.cores) : SameCores d { d with grid := g } := h

theorem SameCores.trans {d e f : Dev} (h : SameCores d e) (h' : SameCores e f) : SameCores d f := Eq.trans h' h

theorem sameCores_lsMark (d : Dev) (n off len : Nat) : SameCores d (d.lsMark n off len) := by
  unfold Dev.lsMark
  by_cases hlen : len = 0
  · rw [if_pos hlen]
    exact .refl d
  · rw [if_neg hlen]
    exact .of_grid (g := { d.grid with lsPoison := _ }) rfl

theorem sameCores_foldl {α : Type} {f : Dev → α → Dev} (hf : ∀ d a, SameCores d (f d a)) (l : List α) (d : Dev) : SameCores d (l.foldl f d) := by
  induction l generalizing d with
  | nil => rfl
  | cons a l ih => exact (hf d a).trans (ih _)

theorem sameCores_lsWrite (d : Dev) (n off : Nat) (bs : List Byte) : SameCores d (d.lsWrite n off bs) :=
  .of_grid (g := { d.grid with ls := _, lsFrom := _, lsPoison := _ }) rfl

theorem sameCores_lsSource (d : Dev) (n off len g : Nat) : SameCores d (d.lsSource n off len g) :=
  .of_grid (g := { d.grid with lsFrom := _ }) rfl

theorem sameCores_lsFill (d : Dev) (n off a len : Nat) : SameCores d (d.lsFill n off a len) := by
  unfold Dev.lsFill
  exact (sameCores_lsWrite ..).trans (sameCores_foldl (fun d _ => (sameCores_lsMark d ..).trans (sameCores_lsSource ..)) _ _)

theorem sameCores_dropKey (d : Dev) (key : Nat × Nat) (l : List Nat) : SameCores d (d.dropKey key l) := by
  unfold Dev.dropKey
  refine sameCores_foldl (fun _ _ => ?_) l d
  rfl

/-- An access that goes on takes its waiting entries away and is counted. -/
theorem Dev.reach_go {ag : Agent} {key : Nat × Nat} {l : List (Nat × Nat)} :
    (d.reach x ag key l).1 = .go → ∃ as, (d.reach x ag key l).2 = l.foldl (fun d e => d.acted e.1 e.2) (d.dropKey key as) := by
  unfold Dev.reach
  extract_lets as shut
  split_ifs
  · nofun
  · exact fun _ => ⟨as, rfl⟩
  · nofun

theorem sameCores_reach {ag : Agent} {key : Nat × Nat} {l : List (Nat × Nat)} (h : (d.reach x ag key l).1 = .go) :
    SameCores d (d.reach x ag key l).2 := by
  obtain ⟨as, has⟩ := Dev.reach_go h
  rw [has]
  refine (sameCores_dropKey ..).trans (sameCores_foldl (fun _ _ => ?_) l _)
  rfl

/-! ### The last member of a fan-out -/

/-- The states of a fan-out of which member 7 alone still runs, in slot v. -/
def lastMember (v : Nat) : List Nat := [1, 1, 1, 1, 1, 1, 1, v]

/-- The members of a fan-out that are all copied. -/
def allCopied : List Nat := List.replicate 8 1

section
variable {xk : XferKind} {o l v : Nat} {b : List Byte} {ts : List CoreXfer} {k : Kv}

theorem Dev.setFan_xfers {ms : List Nat} {i : Nat} (hx : (d.core n).xfers = ⟨xk, o, l, some (b, ms)⟩ :: ts) :
    ((d.setFan n i v).core n).xfers = ⟨xk, o, l, some (b, ms.set i v)⟩ :: ts := by
  unfold Dev.setFan
  dsimp only
  rw [hx]
  dsimp only
  rw [Dev.core_setCore_same]

theorem SameCores.core {e : Dev} (h : SameCores d e) (n : Nat) : e.core n = d.core n := congrArg (fun t => tgetD t n Core.reset) h

/-- Once its partial is copied, the last member is done. -/
theorem Dev.fanCopy_xfers {slot : Nat} (hx : (d.core n).xfers = ⟨xk, o, l, some (b, lastMember v)⟩ :: ts)
    (hgo : (d.reach x .culm (8, n * 8 + 7) [((k.xchg[7]?).getD 0 + 0x2000, (fanDesc b).bytes k)]).1 = .go) :
    ((d.fanCopy x n (fanDesc b) k 7 slot).core n).xfers = ⟨xk, o, l, some (b, allCopied)⟩ :: ts := by
  obtain ⟨d₀, hd₀⟩ : ∃ d₀, d.reach x .culm (8, n * 8 + 7) [((k.xchg[7]?).getD 0 + 0x2000, (fanDesc b).bytes k)] = (.go, d₀) := ⟨_, Prod.ext hgo rfl⟩
  have hsame : SameCores d d₀ := by simpa [hd₀] using sameCores_reach hgo
  have hcopied (e : Dev) (he : SameCores d e) : ((e.setFan n 7 1).core n).xfers = ⟨xk, o, l, some (b, allCopied)⟩ :: ts :=
    Dev.setFan_xfers (ms := lastMember v) ((congrArg Core.xfers (he.core n)).trans hx)
  unfold Dev.fanCopy
  dsimp only
  rw [Dev.once_of_go _ hd₀]
  refine hcopied _ ?_
  split
  · exact hsame.trans (sameCores_lsFill ..)
  · exact (hsame.trans (sameCores_lsFill ..)).trans (sameCores_lsMark ..)

/-- A fan-out whose members are all copied has none to start. -/
theorem Dev.fanGo_of_copied (hx : (d.core n).xfers = ⟨xk, o, l, some (b, allCopied)⟩ :: ts) : d.fanGo x n = d := by
  have hstart (f : FanDesc) (p : Nat) (k : Kv) :
      (List.range 8).foldl (fun d i => if allCopied[i]? = some 0 then d.fanMember x n p f k i else d) d = d := by
    rw [show List.range 8 = [0, 1, 2, 3, 4, 5, 6, 7] from rfl]
    rfl
  unfold Dev.fanGo
  dsimp only
  rw [hx, List.head?_cons]
  dsimp only
  split
  · exact if_neg (by decide)
  · exact hstart ..

/-- Where member 7 alone has ended, what follows an end is done for it alone. -/
theorem foldl_only_last {ended : Nat → Option Nat} {f : Dev → Nat → Nat → Dev} (hrun : ∀ i < 7, ended i = none) (hend : ended 7 = some v) :
    (List.range 8).foldl (fun e i => (ended i).elim e fun s => f e i s) d = f d 7 v := by
  rw [show List.range 8 = [0, 1, 2, 3, 4, 5, 6, 7] from rfl]
  simp [hrun, hend]

theorem lastMember_of_lt {i : Nat} (hi : i < 7) : (lastMember v)[i]? = some 1 := by
  match i, hi with
  | 0, _ | 1, _ | 2, _ | 3, _ | 4, _ | 5, _ | 6, _ => rfl

theorem fanMemberDone_of_last {e : Ses} (hx : (d.core n).xfers = ⟨xk, o, l, some (b, lastMember v)⟩ :: ts)
    (he : d.sesOf (fanDesc b).ses = some e) (hk : e.kv = some k) (hv : 12 ≤ v ∧ v ≤ 15) (hst : ((d.gunit (k.unit 7)).slot v).st ≠ 1)
    (hst' : ((d.gunit (k.unit 7)).slot v).st ≠ 2)
    (hgo : (d.reach x .culm (8, n * 8 + 7) [((k.xchg[7]?).getD 0 + 0x2000, (fanDesc b).bytes k)]).1 = .go) :
    fanMemberDone n x d =
      (((d.fanCopy x n (fanDesc b) k 7 v).bufFull n (fanDesc b).buf true .ok).popXfer n).fanHead x n
        ((((d.fanCopy x n (fanDesc b) k 7 v).bufFull n (fanDesc b).buf true .ok).popXfer n).core n).xfers.length := by
  have hcopied := Dev.fanCopy_xfers (slot := v) hx hgo
  unfold fanMemberDone
  rw [hx, List.head?_cons]
  dsimp only
  rw [he, Option.elim_some, hk]
  dsimp only
  rw [foldl_only_last (v := v) (f := fun d i s => d.fanCopy x n (fanDesc b) k i s)]
  · rw [Dev.fanGo_of_copied hcopied, hcopied, List.head?_cons]
    exact if_pos (by decide)
  · intro i hi
    rw [lastMember_of_lt hi]
    exact if_neg fun h => absurd h.1 (by decide)
  · exact if_pos ⟨hv.1, hv.2, by simp [hst, hst']⟩

end

/-! ### The prefetch schedule and the end of a load -/

section
variable {m i : Nat} {k : Mdl} {e : PreEntry}

theorem prefetchStart_of_free (hk : d.mdl m = some k) (he : k.img.entries[k.preNext]? = some e) (hopen : k.preOpen = []) (hstop : k.preStop = false)
    (hpins : k.wpins = true) (hrun : (d.core ((k.cores[e.core]?).getD 0)).run = true)
    (hbuf : ∃ o l, (d.core ((k.cores[e.core]?).getD 0)).bufs[e.buf]? = some (o, l, false)) (hend : e.stepEnd = false)
    (hlast : k.preNext + 1 ≠ k.img.entries.length) :
    prefetchStart m x d = d.setMdl m { k with preOpen := [k.preNext], preStop := false, preNext := k.preNext + 1 } := by
  obtain ⟨o, l, hbuf⟩ := hbuf
  unfold prefetchStart
  rw [hk]
  dsimp only
  rw [he]
  dsimp only
  rw [hopen, hbuf, if_neg (by simp [hstop, hpins, hrun]), hend, beq_eq_false_iff_ne.2 hlast]
  rfl

theorem prefetchDone_of_go {o : Share} {d₀ : Dev} (hk : d.mdl m = some k) (he : k.img.entries[i]? = some e) (hopen : k.preOpen.contains i = true)
    (ho : d.share ((k.shares[e.share]?).getD 0) = some o)
    (hgo : d.reach x .culm (5, m * 2 ^ 32 + i) (o.ranges (e.len / 32768 + 2) e.src e.len) = (.go, d₀)) :
    prefetchDone m i x d = ((d₀.setMdl m { k with preOpen := k.preOpen.filter (· != i), preBytes := k.preBytes + e.len }).preCopy o
      ((k.cores[e.core]?).getD 0) (e.len / 32768 + 2) e.src e.dst e.len).bufFull ((k.cores[e.core]?).getD 0) e.buf e.notify .ok := by
  unfold prefetchDone
  rw [hk]
  dsimp only
  rw [he, hopen]
  dsimp only
  rw [ho, Option.elim_some, Dev.once_of_go _ hgo]
  rfl

/-- Every core of the placement waits for a step. -/
theorem cores_all_waiting (hcores : ∀ n ∈ k.cores, (d.core n).run = true ∧ (d.core n).waiting = true ∧ (d.core n).model = m) :
    (k.cores.all fun n => (d.core n).run && (d.core n).waiting && (d.core n).model == m) = true :=
  List.all_eq_true.2 fun n hn => by
    obtain ⟨hrun, hwait, hmodel⟩ := hcores n hn
    simp [hrun, hwait, hmodel]

theorem loadComplete_of_outside (hk : d.mdl m = some k)
    (hcores : ∀ n ∈ k.cores, (d.core n).run = true ∧ (d.core n).waiting = true ∧ (d.core n).model = m) (hst : k.st = .loading) (hops : k.moveOps = 0)
    (harea : d.inArea k = false) : loadComplete m x d = ((d.loadFails x m k .doesNotFit).mdlRelease x m).schedule x := by
  unfold loadComplete
  rw [hk]
  dsimp only
  rw [if_neg (by rw [cores_all_waiting hcores]; decide), if_neg (fun h => h.2 hst), if_pos ⟨hst, hops⟩, if_pos (by simp [harea])]

theorem loadComplete_of_inside {d₁ d₂ : Dev} (hk : d.mdl m = some k)
    (hcores : ∀ n ∈ k.cores, (d.core n).run = true ∧ (d.core n).waiting = true ∧ (d.core n).model = m) (hst : k.st = .loading) (hops : k.moveOps = 0)
    (harea : d.inArea k = true)
    (hd₁ : d₁ = (d.setMdl m { k with
      st := .resident, since := x.now, loadOp := 0, reloading := false, repeated := false }).bumpPart k.part 0x060008 1)
    (hd₂ : d₂ = (if k.loadOp = 0 then d₁ else d₁.endOp x k.loadOp .ok [wd k.origin, wd (x.now - k.accepted)]).openWaiting x m) :
    loadComplete m x d = ((k.evictAfter.elim d₂ fun nand => d₂.startEvict x m nand).retryLoads x k.part).schedule x := by
  unfold loadComplete
  rw [hk]
  dsimp only
  rw [if_neg (by rw [cores_all_waiting hcores]; decide), if_neg (fun h => h.2 hst), if_pos ⟨hst, hops⟩, if_neg (by simp [harea]), ← hd₁, ← hd₂]
  cases k.evictAfter <;> rfl

end

end

/-- Settles O24: the operations of a ready core that send, wait and transfer, and the events that answer them. -/
theorem coreGridRowsTakeEffect : Obligations.CoreGridRowsTakeEffect := by
  unfold Obligations.CoreGridRowsTakeEffect
  refine ⟨fun s n c hc => ⟨?send, ?recv, ?mfree, ?poll, ?buffers, ?xfer, ?stepdone, ?fence, ?fenceWaits, ?halt, ?fanOut⟩, ?stepwait, ?hang,
    ?deliver, ?doXfer, ?xferDone, ?prefetch, ?load, ?fanDone⟩
  case send =>
    rintro dst t chan off len k h h' d ht hh hk hlen hoff hbad rfl rfl
    have hop := sendOp_of_channel (n := n) ht hh hk hlen hoff hbad
    exact ⟨fun h1 => onDev_coreBlock_ok hc (hop.trans (if_neg (by omega))), fun h0 => onDev_coreBlock_wait hc (hop.trans (if_pos h0))⟩
  case recv =>
    intro chan ra rl slot src len t h q hra hrl h14 h15 hh hq
    exact onDev_coreBlock_ok hc (recvOp_of_message hra hrl h14 h15 hh hq)
  case mfree =>
    intro chan src slot len h l h14 h15 hh ht
    exact onDev_coreOp_ok hc (mfreeOp_of_taken h14 h15 hh ht)
  case poll =>
    intro rd chan h hrd h14 h15 hh
    exact onDev_coreOp_ok hc (pollOp_of_channel hrd h14 h15 hh)
  case buffers =>
    intro b o l hl
    exact ⟨fun hb => ⟨onDev_coreBlock_ok hc (waitfullOp_of_full hl hb), onDev_coreOp_ok hc (breleaseOp_of_full hl hb)⟩,
      fun hb => ⟨onDev_coreBlock_wait hc (waitfullOp_of_free hl hb), onDev_coreOp_error hc (breleaseOp_of_free hb)⟩⟩
  case xfer =>
    intro k off len h
    exact onDev_coreOp_ok hc (xferOp_of_fits h)
  case stepdone =>
    intro ns hin hfresh
    exact onDev_coreOp_ok hc (stepDoneOp_of_step hin hfresh)
  case fence =>
    intro hx hm
    exact onDev_coreBlock_ok hc (fenceOp_of_quiet hx hm)
  case fenceWaits =>
    intro hx
    exact onDev_coreBlock_wait hc (fenceOp_of_transfer hx)
  case halt => exact onDev_eq hc.1 (haltCore_of_ready hc)
  case fanOut =>
    intro off hoff hbad hx _
    exact onDev_fanOutOp hc hoff hbad hx
  case stepwait =>
    intro s n rd c hp hrd hfree hat
    have hop := stepWait_of_started (x := s.ctx) hrd hfree hat
    exact ⟨fun h => onDev_eq hp (hop.trans (if_pos h)), fun h => onDev_eq hp (hop.trans (if_neg (by simp [h])))⟩
  case hang =>
    rintro s n c b t hp hat hb hlate hstill s₀ rfl
    exact onDev_eq hp (hangOut_of_late hat hb hlate hstill)
  case deliver =>
    intro s src dst chan m l h hp hm hh
    exact ⟨onDev_eq hp (msgDeliver_of_first hm hh), fun a l0 hq => Chan.arrive_last hq⟩
  case doXfer =>
    rintro s n p a len t hp rfl
    exact ⟨Dev.doXfer_refused, Dev.doXfer_out, Dev.doXfer_in,
      fun c o hpeer => ⟨fun hk => Dev.doXfer_toPeer hk hpeer, fun hk halias => Dev.doXfer_fromPeer hk halias hpeer⟩⟩
  case xferDone =>
    rintro s n t ts m d d1 hp hx hfan hm hgo rfl s₀ rfl
    exact onDev_eq hp (xferDone_of_go hx hfan hm hgo)
  case prefetch =>
    intro s m i k e hp hk he
    refine ⟨?_, ?_⟩
    · rintro rfl hopen hstop hpins hrun hbuf hend hlast s₀ rfl
      exact onDev_eq hp (prefetchStart_of_free hk he hopen hstop hpins hrun hbuf hend hlast)
    · rintro o d hopen ho hgo s₀ rfl
      exact onDev_eq hp (prefetchDone_of_go hk he hopen ho hgo)
  case load =>
    intro s m k d d1 hp hk hcores hst hops
    refine ⟨?_, ?_⟩
    · rintro harea s₀ rfl
      exact onDev_eq hp (loadComplete_of_outside hk hcores hst hops harea)
    · rintro harea hd hd1 s₀ rfl
      exact onDev_eq hp (loadComplete_of_inside hk hcores hst hops harea hd hd1)
  case fanDone =>
    rintro s n o l v xk ts b e k d hp hx he hk hlo hhi hst hst' hgo rfl s₀ rfl
    exact onDev_eq hp (fanMemberDone_of_last hx he hk ⟨hlo, hhi⟩ hst hst' hgo)

end Sys2Proof.Machine
end

section
/-! The operations of a Glume program (R151-R157). -/

namespace Sys2Proof.Machine

section
variable {u k : Nat} {l : GSlot} {s : State} {f : GUnit → Nat → GRes} {g' : GUnit} {pc c : Nat}

/-- What an operation on the unit alone leads to, for a program that is ready. -/
def Dev.glmRes (d : Dev) (x : Ctx) (u k : Nat) : GRes → Dev
  | .next g pc => (d.setGunit u g).glmPc u k pc
  | .fault c => d.glmEnd x u c

theorem glmOp_of_ready (hg : GlumeReady u k l s) (x : Ctx) : glmOp u f x s.dev = s.dev.glmRes x u k (f (s.dev.gunit u) l.pc) := by
  unfold glmOp
  rw [hg.2]
  dsimp only
  cases f (s.dev.gunit u) l.pc <;> rfl

/-- An operation of a ready program that completes. -/
theorem onDev_glmOp_next (hg : GlumeReady u k l s) (hf : f (s.dev.gunit u) l.pc = .next g' pc) :
    onDev (glmOp u f) s = .next (s.glumeAfter u k g' pc) := by
  rw [onDev_eq hg.1 (glmOp_of_ready hg _), hf]
  rfl

/-- An operation of a ready program that faults. -/
theorem onDev_glmOp_fault (hg : GlumeReady u k l s) (hf : f (s.dev.gunit u) l.pc = .fault c) :
    onDev (glmOp u f) s = .next (s.withDev (s.dev.glmEnd s.ctx u c)) := by
  rw [onDev_eq hg.1 (glmOp_of_ready hg _), hf]
  rfl

theorem onDev_glmYield (hg : GlumeReady u k l s) :
    onDev (glmYield u) s = .next (s.withDev ((s.dev.glmPc u k (l.pc + 1)).yieldPoint s.ctx u)) :=
  onDev_eq hg.1 (by rw [glmYield, hg.2])

theorem onDev_glmFinish (hg : GlumeReady u k l s) : onDev (glmFinish u) s = .next (s.withDev (s.dev.glmEnd s.ctx u 0)) :=
  onDev_eq hg.1 (by rw [glmFinish, hg.2])

end

theorem gIf_of_true {ok : Bool} (h : ok = true) (r : GRes) : gIf ok r = r := by
  rw [gIf, if_pos h]

/-! ### Scalar operations -/

section
variable {g : GUnit} {pc : Nat} {o : AluOp} {rd rs rt : Nat}

theorem glmAluOp_reg (hd : rd < 32) (hs : rs < 32) (ht : rt < 32) :
    glmAluOp o rd rs (.reg rt) g pc = .next (g.wr rd (aluVal 32 o (g.rd rs).1 (g.rd rt).1) ((g.rd rs).2 || (g.rd rt).2)) (pc + 1) :=
  gIf_of_true (by simp [xs, gsrcOk, hd, hs, ht]) _

theorem glmAluOp_imm (hd : rd < 32) (hs : rs < 32) (v : BitVec 12) :
    glmAluOp o rd rs (.imm v) g pc = .next (g.wr rd (aluVal 32 o (g.rd rs).1 (immVal (aluNo o) 32 v)) (g.rd rs).2) (pc + 1) := by
  unfold glmAluOp GUnit.src
  dsimp only
  rw [gIf_of_true (by simp [xs, gsrcOk, hd, hs]), Bool.or_false]

theorem glmMulOp_of_regs (high : Bool) (hd : rd < 32) (hs : rs < 32) (ht : rt < 32) :
    glmMulOp high rd rs rt g pc = .next (g.wr rd (if high then Config.mulHigh (g.rd rs).1 (g.rd rt).1 else (g.rd rs).1 * (g.rd rt).1)
      ((g.rd rs).2 || (g.rd rt).2)) (pc + 1) :=
  gIf_of_true (by simp [xs, hd, hs, ht]) _

theorem glmLiOp_of_reg (hd : rd < 32) (v : Word) : glmLiOp rd v g pc = .next (g.wr rd v false) (pc + 2) :=
  gIf_of_true (by simp [xs, hd]) _

theorem glmLiOp_undefined (hd : 32 ≤ rd) (v : Word) : glmLiOp rd v g pc = .fault 4 := by
  rw [glmLiOp, gIf, if_neg (by simp [xs, hd])]

theorem glmBranchOp_of_regs {t : Nat} (c : Cond) (hs : rs < 32) (ht : rt < 32) (htop : t < 4096) :
    glmBranchOp c rs rt t g pc = .next g (if condVal c (g.rd rs).1 (g.rd rt).1 then t else pc + 1) :=
  gIf_of_true (by simp [xs, hs, ht, htop]) _

end

section
variable {g : GUnit} {pc bytes r base a : Nat} {off : BitVec 12}

theorem inScratch_of_le {n : Nat} (h : a + n ≤ 0x8400) : inScratch a n = true := by
  rw [inScratch, scratchTop, decide_eq_true h]

theorem inScratch_of_lt {n : Nat} (h : 0x8400 < a + n) : inScratch a n = false := by
  rw [inScratch, scratchTop, decide_eq_false h.not_ge]

theorem glmLdSt_operands (hr : r < 32) (hbase : base < 32) (hb : bytes = 1 ∨ bytes = 2 ∨ bytes = 4) :
    ¬ (!(xs [r, base] && ([1, 2, 4] : List Nat).contains bytes)) = true := by
  obtain rfl | rfl | rfl := hb <;> simp [xs, hr, hbase]

theorem glmLdStOp_store (hr : r < 32) (hbase : base < 32) (hb : bytes = 1 ∨ bytes = 2 ∨ bytes = 4) (ha : a = g.ea 11 base off)
    (hfits : a + bytes ≤ 0x8400) :
    glmLdStOp true bytes r base off g pc = .next (g.swrite a (leBytes bytes (g.rd r).1.toNat) ((g.rd r).2 || (g.rd base).2)) (pc + 1) := by
  subst ha
  rw [glmLdStOp, if_neg (glmLdSt_operands hr hbase hb), if_neg (by simp [inScratch_of_le hfits]), if_pos rfl]

theorem glmLdStOp_load (hr : r < 32) (hbase : base < 32) (hb : bytes = 1 ∨ bytes = 2 ∨ bytes = 4) (ha : a = g.ea 11 base off)
    (hfits : a + bytes ≤ 0x8400) :
    glmLdStOp false bytes r base off g pc = .next (g.wr r (loadVal 0 (g.sread a bytes) 32) (g.smark a bytes || (g.rd base).2)) (pc + 1) := by
  subst ha
  rw [glmLdStOp, if_neg (glmLdSt_operands hr hbase hb), if_neg (by simp [inScratch_of_le hfits]), if_neg Bool.false_ne_true]

theorem glmLdStOp_outside (st : Bool) (hr : r < 32) (hbase : base < 32) (hb : bytes = 1 ∨ bytes = 2 ∨ bytes = 4) (ha : a = g.ea 11 base off)
    (hout : 0x8400 < a + bytes) : glmLdStOp st bytes r base off g pc = .fault 5 := by
  subst ha
  rw [glmLdStOp, if_neg (glmLdSt_operands hr hbase hb), if_pos (by simp [inScratch_of_lt hout])]

end

/-! ### Helper operations -/

section
variable {g : GUnit} {pc v va vb vd base a : Nat} {off : BitVec 12}

theorem glmVldVstOp_store (hv : v < 16) (hbase : base < 32) (ha : a = g.ea 12 base off) (hfits : a + 64 ≤ 0x8400) :
    glmVldVstOp true v base off g pc =
      .next (g.swrite a (wordBytes ((g.vrd v).1.map fun w => f32OfFv (f32Val w))) ((g.vrd v).2 || (g.rd base).2)) (pc + 1) := by
  subst ha
  rw [glmVldVstOp, if_neg (by simp [xs, vs, hv, hbase]), if_neg (by simp [inScratch_of_le hfits]), if_pos rfl]

theorem glmVldVstOp_load (hv : v < 16) (hbase : base < 32) (ha : a = g.ea 12 base off) (hfits : a + 64 ≤ 0x8400) :
    glmVldVstOp false v base off g pc = .next (g.vwr v (bytesWords 16 (g.sread a 64)) (g.smark a 64 || (g.rd base).2)) (pc + 1) := by
  subst ha
  rw [glmVldVstOp, if_neg (by simp [xs, vs, hv, hbase]), if_neg (by simp [inScratch_of_le hfits]), if_neg Bool.false_ne_true]

/-- VCVT of a format that has block scales. -/
theorem glmVcvtOp_scaled {f src sc a b : Nat} (hf : vcvtFmts.contains f = true) (hsrc : src < 32) (hsc : sc < 32)
    (hv : v + vcvtCount f / 16 ≤ 16) (ha : a = (g.rd src).1.toNat) (hb : b = (g.rd sc).1.toNat) (hafits : a + 64 ≤ 0x8400)
    (hbfits : b + scaleBytes f (vcvtCount f) ≤ 0x8400) (hscaled : scaleBytes f (vcvtCount f) ≠ 0) :
    glmVcvtOp f v src sc g pc = .next (g.vfill
      (g.smark a 64 || g.smark b (scaleBytes f (vcvtCount f)) || (g.rd src).2 || (g.rd sc).2) v
      (chunks 16 (vcvtCount f / 16) (cvtVals f (vcvtCount f) (g.sread a 64) (g.sread b (scaleBytes f (vcvtCount f)))))) (pc + 1) := by
  subst ha hb
  have hsb : (scaleBytes f (vcvtCount f) != 0) = true := by simpa using hscaled
  have hxs : xs [src, sc] = true := by simp [xs, hsrc, hsc]
  rw [glmVcvtOp, if_neg (by rw [hf, hxs, decide_eq_true hv]; decide),
    if_neg (by rw [inScratch_of_le hafits, inScratch_of_le hbfits]; simp), hsb, Bool.true_and, Bool.true_and]

theorem glmVecOp_two {o : VecOp} (hd : vd < 16) (ha : va < 16) (hb : vb < 16) (ho : o = .add ∨ o = .mul ∨ o = .max) :
    glmVecOp o vd va (.reg vb) g pc =
      .next (g.vwr vd (lanes o (g.vrd va).1 (g.vrd vb).1 (g.vrd vd).1) ((g.vrd va).2 || (g.vrd vb).2)) (pc + 1) := by
  have hop : ([.add, .mul, .fma, .max] : List VecOp).contains o = true := by obtain rfl | rfl | rfl := ho <;> rfl
  have hfma : (o == .fma) = false := by obtain rfl | rfl | rfl := ho <;> rfl
  rw [glmVecOp, gIf_of_true (by rw [hop]; simp [vs, gvsrcOk, hd, ha, hb]), hfma, Bool.false_and, Bool.or_false]
  rfl

theorem glmVecOp_fma (hd : vd < 16) (ha : va < 16) (hb : vb < 16) :
    glmVecOp .fma vd va (.reg vb) g pc =
      .next (g.vwr vd (lanes .fma (g.vrd va).1 (g.vrd vb).1 (g.vrd vd).1) ((g.vrd va).2 || (g.vrd vb).2 || (g.vrd vd).2)) (pc + 1) :=
  gIf_of_true (by simp [vs, gvsrcOk, hd, ha, hb]) _

theorem glmExpOp_of_regs (hd : vd < 16) (ha : va < 16) :
    glmExpOp vd va g pc = .next (g.vwr vd ((g.vrd va).1.map f32Exp2) (g.vrd va).2) (pc + 1) :=
  gIf_of_true (by simp [vs, hd, ha]) _

theorem glmRedOp_of_regs {rd : Nat} (mx : Bool) (hd : rd < 32) (ha : va < 16) :
    glmRedOp mx rd va g pc = .next (g.wr rd (reduceLanes mx 4 (g.vrd va).1) (g.vrd va).2) (pc + 1) :=
  gIf_of_true (by simp [xs, vs, hd, ha]) _

end

/-! ### Pages and results -/

theorem glmPgnextOp_cons {g : GUnit} {pc a b c pos addr : Nat} {ps : List (Nat × Nat)} (ha : a < 32) (hb : b < 32) (hc : c < 32)
    (hp : g.pages = (addr, pos) :: ps) :
    glmPgnextOp a b c g pc = .next
      { (((g.wr a (loW addr) false).wr b (hiW addr) false).wr c (wd pos) false) with pages := ps } (pc + 1) := by
  unfold glmPgnextOp
  rw [hp, gIf_of_true (by simp [xs, ha, hb, hc])]
  rfl

theorem glmResOp_of_fits {g : GUnit} {pc k src len a n : Nat} (hsrc : src < 32) (hlen : len < 32) (ha : a = (g.rd src).1.toNat)
    (hn : n = (g.rd len).1.toNat) (hroom : (g.slot k).resBytes + n ≤ 1984) (hfits : a + n ≤ 0x8400) :
    glmResOp k src len g pc = .next (g.setSlot k { g.slot k with
      result := (g.slot k).result ++ g.sread a n
      resBytes := (g.slot k).resBytes + n
      marked := (g.slot k).marked || g.smark a n || (g.rd src).2 || (g.rd len).2 }) (pc + 1) := by
  subst ha hn
  rw [glmResOp, if_neg (by simp [xs, hsrc, hlen]), if_neg hroom.not_gt, if_neg (by simp [inScratch_of_le hfits])]

/-! ### Bank accesses -/

section
variable {u k sc lo hi len a t : Nat} {m : Bool} {l : GSlot} {s : State} {e : List (Nat × Ecc)} {d : Dev} {old : List Nat}

theorem brdOp_error {c : Nat} (hg : GlumeReady u k l s) (hb : (s.dev.gunit u).bank sc lo hi len = .error c) (x : Ctx) :
    brdOp u sc lo hi len e x s.dev = s.dev.glmEnd x u c := by
  simp only [brdOp, hg.2, hb]

theorem bwrOp_error {c : Nat} (hg : GlumeReady u k l s) (hb : (s.dev.gunit u).bank sc lo hi len = .error c) (x : Ctx) :
    bwrOp u sc lo hi len e x s.dev = s.dev.glmEnd x u c := by
  simp only [bwrOp, hg.2, hb]

theorem brdOp_throttled (hg : GlumeReady u k l s) (hb : (s.dev.gunit u).bank sc lo hi len = .ok (a, t, m))
    (ht : (s.dev.gunit u).throttled s.clock.now (Config.rowsOf a len).length = true) :
    brdOp u sc lo hi len e s.ctx s.dev = s.dev.throttle s.ctx u := by
  simp only [brdOp, hg.2, hb]
  exact if_pos ht

theorem bwrOp_throttled (hg : GlumeReady u k l s) (hb : (s.dev.gunit u).bank sc lo hi len = .ok (a, t, m))
    (ht : (s.dev.gunit u).throttled s.clock.now (Config.rowsOf a len).length = true) :
    bwrOp u sc lo hi len e s.ctx s.dev = s.dev.throttle s.ctx u := by
  simp only [bwrOp, hg.2, hb]
  exact if_pos ht

theorem brdOp_issued (hg : GlumeReady u k l s) (hb : (s.dev.gunit u).bank sc lo hi len = .ok (a, t, m))
    (hd : d = (s.dev.bankEccs s.ctx a len e).issue s.ctx u a len) (hold : old = (codewords a len).filter d.mem.poison.contains)
    (ht : (s.dev.gunit u).throttled s.clock.now (Config.rowsOf a len).length = false) :
    brdOp u sc lo hi len e s.ctx s.dev = (d.setGunit u { (d.gunit u).swrite t (d.hbmRead a len) m with
      smarks := addNums (old.flatMap fun c => codewords (t + max (c * 32) a - a) (min (c * 32 + 32) (a + len) - max (c * 32) a))
        ((d.gunit u).swrite t (d.hbmRead a len) m).smarks }).glmPc u k (l.pc + 1) := by
  subst hd hold
  simp only [brdOp, hg.2, hb]
  exact if_neg (ne_true_of_eq_false ht)

section
variable (hg : GlumeReady u k l s) (hb : (s.dev.gunit u).bank sc lo hi len = .ok (a, t, m))
  (ht : (s.dev.gunit u).throttled s.clock.now (Config.rowsOf a len).length = false)
include hg hb ht

theorem bwrOp_unreached {b : Nat} (hu : s.dev.unreachedAt a len = some b) :
    bwrOp u sc lo hi len e s.ctx s.dev = (s.dev.bumpPart (b / 524288) 0x0C0008 1).yieldPoint s.ctx u := by
  simp only [bwrOp, hg.2, hb, hu]
  exact if_neg (ne_true_of_eq_false ht)

theorem bwrOp_frozen (hd : d = (s.dev.bankEccs s.ctx a len e).issue s.ctx u a len) (hu : s.dev.unreachedAt a len = none)
    (hf : (gransOf a len).any d.granFrozen = true) : bwrOp u sc lo hi len e s.ctx s.dev = d.glmPc u k (l.pc + 1) := by
  subst hd
  simp only [bwrOp, hg.2, hb, hu]
  exact (if_neg (ne_true_of_eq_false ht)).trans (if_pos hf)

theorem bwrOp_written (hd : d = (s.dev.bankEccs s.ctx a len e).issue s.ctx u a len)
    (hold : old = (codewords a len).filter d.mem.poison.contains) (hu : s.dev.unreachedAt a len = none)
    (hf : (gransOf a len).any d.granFrozen = false) {d1 : Dev}
    (hd1 : d1 = { d with mem := { d.mem with cells := memWrite d.mem.cells a ((d.gunit u).sread t len) } }) :
    bwrOp u sc lo hi len e s.ctx s.dev = ((if old.isEmpty then d1 else d1.bumpDev 0x050014 old.length).hbmPoison
      (addNums old ((codewords a len).filter fun c =>
        m || (d.gunit u).smark (t + max (c * 32) a - a) (min (c * 32 + 32) (a + len) - max (c * 32) a)))).glmPc u k (l.pc + 1) := by
  subst hd hold hd1
  simp only [bwrOp, hg.2, hb, hu]
  exact (if_neg (ne_true_of_eq_false ht)).trans (if_neg (ne_true_of_eq_false hf))

end
end

/-- Settles O25: each operation is given by its own rule, for a program that is ready. -/
theorem glumeOperationsTakeEffect : Obligations.GlumeOperationsTakeEffect := by
  unfold Obligations.GlumeOperationsTakeEffect
  refine ⟨fun g v m => ⟨if_pos rfl, if_pos rfl⟩, ?_⟩
  rintro s u k l g hg rfl
  refine ⟨?alu, ?imm, ?li, ?undefined, ?branch, ?ldst, ?vldvst, ?vcvt, ?vec, ?fma, ?exp, ?red, ?pgnext, ?res, onDev_glmYield hg,
    onDev_glmYield hg, onDev_glmFinish hg, ?bank, ?bankError⟩
  case alu =>
    intro o rd rs rt hd hs ht
    exact ⟨onDev_glmOp_next hg (glmAluOp_reg hd hs ht), onDev_glmOp_next hg (glmMulOp_of_regs false hd hs ht), _,
      onDev_glmOp_next hg (glmMulOp_of_regs true hd hs ht)⟩
  case imm => exact fun o rd rs v hd hs => onDev_glmOp_next hg (glmAluOp_imm hd hs v)
  case li => exact fun rd v hd => onDev_glmOp_next hg (glmLiOp_of_reg hd v)
  case undefined => exact fun rd v hd => onDev_glmOp_fault hg (glmLiOp_undefined hd v)
  case branch => exact fun c rs rt t hs ht htop => onDev_glmOp_next hg (glmBranchOp_of_regs c hs ht htop)
  case ldst =>
    intro bytes r base a off hr hbase hb ha
    exact ⟨fun hfits => ⟨onDev_glmOp_next hg (glmLdStOp_store hr hbase hb ha hfits), onDev_glmOp_next hg (glmLdStOp_load hr hbase hb ha hfits)⟩,
      fun hout => onDev_glmOp_fault hg (glmLdStOp_outside true hr hbase hb ha hout)⟩
  case vldvst =>
    intro v base a off hv hbase ha hfits
    exact ⟨onDev_glmOp_next hg (glmVldVstOp_store hv hbase ha hfits), onDev_glmOp_next hg (glmVldVstOp_load hv hbase ha hfits)⟩
  case vcvt =>
    intro f v src sc a b hf hsrc hsc hv ha hb hafits hbfits hscaled
    exact onDev_glmOp_next hg (glmVcvtOp_scaled hf hsrc hsc hv ha hb hafits hbfits hscaled)
  case vec => exact fun o vd va vb hd ha hb ho => onDev_glmOp_next hg (glmVecOp_two hd ha hb ho)
  case fma => exact fun vd va vb hd ha hb => onDev_glmOp_next hg (glmVecOp_fma hd ha hb)
  case exp => exact fun vd va hd ha => onDev_glmOp_next hg (glmExpOp_of_regs hd ha)
  case red => exact fun mx rd va hd ha => onDev_glmOp_next hg (glmRedOp_of_regs mx hd ha)
  case pgnext => exact fun a b c pos addr ps ha hb hc hp => onDev_glmOp_next hg (glmPgnextOp_cons ha hb hc hp)
  case res =>
    intro src len a n hsrc hlen hrun ha hn hroom hfits
    refine onDev_glmOp_next hg ?_
    rw [hrun]
    exact glmResOp_of_fits hsrc hlen ha hn hroom hfits
  case bank =>
    intro sc lo hi len a t m e d old hb hd hold
    refine ⟨fun ht => ⟨onDev_eq hg.1 (brdOp_throttled hg hb ht), onDev_eq hg.1 (bwrOp_throttled hg hb ht)⟩,
      fun ht => onDev_eq hg.1 (brdOp_issued hg hb hd hold ht), fun d1 ht hu hd1 => ⟨fun hf => ?_, fun hf => ?_⟩, fun b ht hu => ?_⟩
    · exact onDev_eq hg.1 (bwrOp_written hg hb ht hd hold hu hf hd1)
    · exact onDev_eq hg.1 (bwrOp_frozen hg hb ht hd hu hf)
    · exact onDev_eq hg.1 (bwrOp_unreached hg hb ht hu)
  case bankError =>
    intro sc lo hi len c e hb
    exact ⟨onDev_eq hg.1 (brdOp_error hg hb _), onDev_eq hg.1 (bwrOp_error hg hb _)⟩

end Sys2Proof.Machine
end

section
/-! The commands of the near-bank family (R140, R141, R154, R158-R160). -/

namespace Sys2Proof.Machine

section
variable {x : Ctx} {q : Req} {d : Dev}

/-! ### Modes of regions -/

/-- GLM_REGION_MODE by a function that may set the mode: at once where nothing waits and the mode is that asked for, else a switch that
waits. -/
theorem regionModeCmd_of_allowed {f : Fn} {st rg : Nat} {cm : Bool} (hfn : q.fn = some f) (hc : q.clean [(2, 0x13F0F)] = true)
    (hst : st = q.f 2 3 0) (hrg : rg = q.f 2 13 8) (htop : rg ≤ 47) (hcm : cm = bitAt (q.w 2).toNat 16)
    (hown : d.regionOwner st rg = q.part ∧ q.part < 16 ∨ d.regionOwner st rg = 16 ∧ d.isCtrl f = true) (hseal : d.regionSealed st rg = false) :
    regionModeCmd x q d = if ((d.modeOpsOf st rg).isEmpty && cm == d.isCompute st rg) = true then .both [] .ok [loW q.arrival, hiW q.arrival] d
      else .accept [] .regionMode { d with glm := { d.glm with modeOps := d.glm.modeOps ++ [⟨q.seq, st, rg, cm, q.arrival⟩] } } := by
  subst hst hrg hcm
  have hmay : ¬ (d.regionOwner (q.f 2 3 0) (q.f 2 13 8) = 30 ∨ d.regionOwner (q.f 2 3 0) (q.f 2 13 8) = 31 ∨
      (d.regionOwner (q.f 2 3 0) (q.f 2 13 8) < 16 ∧ d.regionOwner (q.f 2 3 0) (q.f 2 13 8) ≠ q.part) ∨
      (d.regionOwner (q.f 2 3 0) (q.f 2 13 8) = 16 ∧ (!(q.fn.elim false d.isCtrl)) = true)) := by
    obtain ⟨ho, hp⟩ | ⟨ho, hctrl⟩ := hown
    · omega
    · simp [ho, hfn, hctrl]
  unfold regionModeCmd
  dsimp only
  rw [if_neg (by simp only [hc, Bool.not_true, Bool.false_eq_true, false_or]; omega), if_neg hmay, hseal, Bool.and_false,
    if_neg Bool.false_ne_true]

/-- The switch of a region whose oldest switch is ready: nothing holds it any longer. -/
theorem regionSwitch_of_ready {st rg : Nat} {o : ModeOp} {l : List ModeOp} {d' : Dev} (hops : d.modeOpsOf st rg = o :: l)
    (hd' : d' = { d with glm := { d.glm with
      compute := if o.compute = true then addNum (st * 64 + rg) d.glm.compute else d.glm.compute.filter (· != st * 64 + rg)
      lastSwitch := tset d.glm.lastSwitch (st * 64 + rg) x.now
      modeOps := d.glm.modeOps.filter fun m => m.op != o.op } })
    (hready : o.compute = true ∧ d.mem.stalled.any (fun w => inRegion st rg (gran w.addr)) = false ∨
      o.compute = false ∧ d.regionPins st rg = 0 ∧ d.regionQueued st rg = false) :
    regionSwitch st rg x d = (d'.endOp x o.op .ok [loW x.now, hiW x.now]).modeSettle x st rg d'.glm.modeOps.length := by
  subst hd'
  have hbusy : ¬ (if o.compute then d.mem.stalled.any fun w => inRegion st rg (gran w.addr)
      else d.regionPins st rg != 0 || d.regionQueued st rg) = true := by
    obtain ⟨hc, hstalled⟩ | ⟨hc, hpins, hqueued⟩ := hready
    · simp [hc, hstalled]
    · simp [hc, hpins, hqueued]
  unfold regionSwitch
  rw [hops]
  dsimp only
  rw [if_neg hbusy]

theorem regionQueryCmd_of_region (hc : q.clean [(2, 0x3F0F)] = true) (htop : q.f 2 13 8 ≤ 47) :
    regionQueryCmd x q d = .done .ok [wd (d.regionOwner (q.f 2 3 0) (q.f 2 13 8) + if d.isCompute (q.f 2 3 0) (q.f 2 13 8) then 256 else 0),
      wd (d.regionPins (q.f 2 3 0) (q.f 2 13 8))] d := by
  unfold regionQueryCmd
  rw [if_neg (by simp only [hc, Bool.not_true, Bool.false_eq_true, false_or]; omega)]

/-! ### Programs and curves -/

theorem progLoadCmd_of_fits (hc : q.clean [(2, top32), (3, top32), (4, top32), (5, top32)] = true) (hlen : (q.w 4).toNat ≤ 64 + 512 + 16384)
    (hfree : d.sliceBusy 16 5 = false) : progLoadCmd x q d = .accept [] (.progLoad (q.w 4).toNat (q.w 5)) d := by
  unfold progLoadCmd
  dsimp only
  rw [if_neg (by simp only [hc, Bool.not_true, Bool.false_eq_true, false_or]; omega), if_neg (by simp [hfree])]

theorem curveLoadCmd_of_free (hc : q.clean [(2, top32), (3, top32), (4, 1), (5, top32)] = true) (hfree : d.sliceBusy 16 5 = false) :
    curveLoadCmd x q d = .accept [] (.curveLoad (q.f 4 0 0) (q.w 5)) d := by
  rw [curveLoadCmd, if_neg (by simp [hc]), if_neg (by simp [hfree])]

/-- `Dev.aliasAt` as a variable: a proof on it does not make the kernel evaluate the arithmetic of an aliased address. -/
theorem Dev.exists_eq_aliasAt : ∃ f, f = Dev.aliasAt := ⟨_, rfl⟩

theorem submitCmd_of_anchor {a p u k grp an : Nat} {dv : Bool} {d' : Dev}
    (hc : q.clean ([(2, top32), (3, top32), (4, 0xF)] ++ (List.range 16).map fun i => (16 + i, top32)) = true) (ha : d.anchor q = .ok (a, dv))
    (hp : p = (if dv then 16 else q.part)) (hd' : d' = d.aliasWrite x .ctl p (aliasOf a (q.f 4 3 0) 0) ((q.words.drop 16).take 16))
    (hat : d'.aliasAt .ctl p (aliasOf a (q.f 4 3 0) 0) 64 = some (u, k, grp, an)) :
    submitCmd x q d = .done .ok ((((d'.gunit u).slot k).seen p).words_.take 2) d' := by
  subst hp hd'
  obtain ⟨f, hf⟩ := Dev.exists_eq_aliasAt
  have hc' : ¬ (!q.clean ([(2, top32), (3, top32), (4, 0xF)] ++ (List.range 16).map fun i => (16 + i, top32))) = true := by rw [hc]; decide
  unfold submitCmd
  rw [← hf] at hat ⊢
  simp only [if_neg hc', ha, hat]

theorem statusCmd_of_anchor {fn : Fn} {a p u k grp an : Nat} {dv : Bool} {l : GSlot} (hfn : q.fn = some fn)
    (hc : q.clean [(2, top32), (3, top32), (4, 0xF), (5, top32), (6, top32)] = true) (ha : d.anchor q = .ok (a, dv))
    (hp : p = (if dv then 16 else q.part)) (hat : d.aliasAt .ctl p (aliasOf a (q.f 4 3 0) 0) 64 = some (u, k, grp, an))
    (hl : l = ((d.gunit u).slot k).seen p) :
    statusCmd x q d = .done .ok [(l.words_[0]?).getD 0, (l.words_[1]?).getD 0, (l.words_[4]?).getD 0, (l.words_[6]?).getD 0]
      (if q.d2 5 = 0 then d else d.out (.hostWrite fn.port (q.d2 5) ((l.result ++ List.replicate 1984 0).take 1984))) := by
  subst hp hl
  obtain ⟨f, hf⟩ := Dev.exists_eq_aliasAt
  have hc' : ¬ (!q.clean [(2, top32), (3, top32), (4, 0xF), (5, top32), (6, top32)]) = true := by rw [hc]; decide
  unfold statusCmd
  rw [← hf] at hat ⊢
  simp only [if_neg hc', ha, hat, hfn]

end

/-- Settles O26: each command by its own lemma; the switch of a region goes through the oldest switch that waits. -/
theorem glumeCommandsComplete : Obligations.GlumeCommandsComplete := by
  unfold Obligations.GlumeCommandsComplete
  refine ⟨?commands, ?switch⟩
  case commands =>
    rintro s₀ s c r q rfl rfl
    refine ⟨?mode, fun hs hc hlen hfree => hostCmd_accept hs (progLoadCmd_of_fits hc hlen hfree),
      fun hs hc hfree => hostCmd_accept hs (curveLoadCmd_of_free hc hfree), ?submit, ?status,
      fun hs hc htop => hostCmd_done hs (regionQueryCmd_of_region hc htop)⟩
    case mode =>
      intro st rg cm hs hc hst hrg htop hcm hown hseal
      have hb := regionModeCmd_of_allowed (x := (s₀.reach (cmdKey c)).ctx) rfl hc hst hrg htop hcm hown hseal
      refine ⟨fun hops hsame => hostCmd_both hs (hb.trans (if_pos ?_)), fun hother => hostCmd_accept hs (hb.trans (if_neg ?_))⟩
      · simp [hops, hsame]
      · simp [hother]
    case submit =>
      intro a p u k grp an dv d hs hc ha hp hd hat
      exact hostCmd_done hs (submitCmd_of_anchor hc ha hp hd hat)
    case status =>
      intro a p u k grp an dv l hs hc ha hp hat hl
      exact hostCmd_done hs (statusCmd_of_anchor rfl hc ha hp hat hl)
  case switch =>
    rintro s st rg o l d hp hops hd hready s₀ rfl
    exact onDev_eq hp (regionSwitch_of_ready hops hd hready)

end Sys2Proof.Machine
end

section
/-! The events of the near-bank block that follow a start or come with time (R143, R150-R153, R158, R159). -/

namespace Sys2Proof.Machine

/-! ### A start (R150) -/

/-- Pins change nothing but the counts of pins. -/
theorem Dev.pinAll_frame (gs : List Nat) : ∀ d : Dev, ∃ p w, d.pinAll gs = { d with mem := { d.mem with pins := p, pinWait := w } } := by
  induction gs with
  | nil => exact fun d => ⟨_, _, rfl⟩
  | cons g gs ih =>
    intro d
    obtain ⟨p, w, h⟩ := ih (d.pin g)
    refine ⟨p, w, h.trans ?_⟩
    unfold Dev.pin
    split <;> rfl

/-- What a started run leaves in its unit and in the memory. -/
def StartedRun (d : Dev) (u k : Nat) (l : GSlot) (now : Nat) (d' : Dev) : Prop :=
  (d'.gunit u).running = some k ∧ ((d'.gunit u).slot k).st = 2 ∧ (d'.gunit u).range = (d.runRange u l.anchor l.words).1 ∧
    (d'.gunit u).startAt = now ∧ (d'.gunit u).regs[1]? = some (wd l.anchor) ∧ d'.mem.cells = d.mem.cells ∧ d'.ses = d.ses

theorem programStart_of_checked {u k : Nat} {l : GSlot} {d : Dev} (x : Ctx) (hu : u < 512) (hidle : (d.gunit u).running = none)
    (hnext : (d.gunit u).nextSlot = some k) (hl : l = (d.gunit u).slot k) (hcheck : d.startCheck u l.part l.device l.anchor l.words = none)
    (hfree : ∀ g ∈ (d.runRange u l.anchor l.words).1, thas d.mem.copying g = false) :
    StartedRun d u k l x.now (programStart u x d) := by
  subst hl
  have hcopy : ¬ ((d.runRange u ((d.gunit u).slot k).anchor ((d.gunit u).slot k).words).1.any fun q => thas d.mem.copying q) = true := by
    simpa using hfree
  unfold programStart
  rw [if_neg (by simp [hidle, hu]), hnext]
  dsimp only
  rw [hcheck]
  dsimp only
  rw [if_neg hcopy]
  generalize hrr : d.runRange u ((d.gunit u).slot k).anchor ((d.gunit u).slot k).words = rr
  generalize hg : GUnit.mk .. = g
  obtain ⟨p, w, h⟩ := Dev.pinAll_frame rr.1 (({ d with free := d.free + 1 } : Dev).setGunit u g)
  rw [h]
  have hunit : Dev.gunit { ({ d with free := d.free + 1 } : Dev).setGunit u g with
      mem := { (({ d with free := d.free + 1 } : Dev).setGunit u g).mem with pins := p, pinWait := w } } u = g := tgetD_tset_same ..
  unfold StartedRun
  rw [hunit, hrr, ← hg]
  exact ⟨rfl, congrArg GSlot.st (tgetD_tset_same ..), rfl, rfl, by simp, rfl, rfl⟩

/-! ### Ends of windows and limits of a run (R152, R153) -/

section
variable {u : Nat} {x : Ctx} {d : Dev}

theorem windowEnd_of_due {t0 : Nat} (hw : (d.gunit u).windowAt = some t0) (ht : t0 + 63 ≤ x.now) :
    windowEnd u x d = d.setGunit u { d.gunit u with windowAt := none, lastYield := x.now } := by
  simp only [windowEnd, hw]
  exact if_pos ht

theorem yieldOverrun_of_due {k : Nat} (hr : (d.gunit u).running = some k) (hw : (d.gunit u).windowAt = none)
    (ht : (d.gunit u).lastYield + 250 ≤ x.now) : yieldOverrun u x d = d.glmEnd x u 2 := by
  unfold yieldOverrun
  rw [if_pos (by simp [hr, hw, ht])]

theorem budgetExpiry_of_due {k : Nat} (hr : (d.gunit u).running = some k) (ht : (d.gunit u).startAt + 125 * d.budget u k < x.now) :
    budgetExpiry u x d = d.glmEnd x u 3 := by
  simp only [budgetExpiry, hr]
  exact if_pos ht

/-! ### A read held too long (R143) -/

theorem heldTimeout_of_due {h : HeldAcc} (hh : (d.gunit u).held = [h]) (ht : h.since + 500 ≤ x.now) :
    heldTimeout u x d = (d.setGunit u { d.gunit u with held := [] }).heldOut [h] := by
  unfold heldTimeout
  simp [hh, ht]

theorem Dev.heldOut_ctl {h : HeldAcc} (hkey : h.key = (0, 0)) (hag : h.ag = .ctl) :
    d.heldOut [h] = d.out (.agentData .ctl .regionBusy (List.replicate h.len 0) true) := by
  simp [Dev.heldOut, hkey, hag, Dev.readAnswer]

theorem Dev.heldOut_host {h : HeldAcc} {f : Fn} (hkey : h.key = (0, 0)) (hag : h.ag = .host f) :
    d.heldOut [h] = (d.glmCount h.part 0x050004).out (.readData f (List.replicate h.len 0) true) := by
  simp [Dev.heldOut, hkey, hag, Dev.readAnswer]

/-! ### Temperatures and refresh (R158, R159) -/

/-- A reading of an emergency condition changes the power controller and what goes out, and nothing else. -/
theorem condRead_frame (c : Nat) (b : Bool) : ∃ p o, condRead c b x d = { d with power := p, outs := o } := by
  unfold condRead emergency condOver
  split <;> split <;> exact ⟨_, _, rfl⟩

/-- Steps that change units of the near-bank block alone, one after another. -/
theorem foldl_units_frame {f : Dev → Nat → Dev} (hf : ∀ e k, ∃ us, f e k = { e with glm := { e.glm with units := us } }) (l : List Nat) :
    ∀ e : Dev, ∃ us, l.foldl f e = { e with glm := { e.glm with units := us } } := by
  induction l with
  | nil => exact fun e => ⟨_, rfl⟩
  | cons k l ih =>
    intro e
    obtain ⟨us, h⟩ := ih (f e k)
    obtain ⟨us', h'⟩ := hf e k
    exact ⟨us, by rw [List.foldl_cons, h, h']⟩

/-- What a sample of a stack's temperature leaves. -/
def Sampled (d : Dev) (st t0 : Nat) (d' : Dev) : Prop :=
  (tget d'.glm.therm st).map Prod.fst = some t0 ∧ (tget d'.glm.therm st).map (fun e => e.2.1) = some (band d.glm.curvesAct.temps t0) ∧
    tget d'.glm.thresh st = some ((d.glm.curvesAct.refresh[d.glm.curvesAct.row t0]?).getD (0, 1, 16384)).2.2 ∧ d'.mem = d.mem ∧ d'.ses = d.ses

theorem Sampled.condRead {st t0 : Nat} {e : Dev} (h : Sampled d st t0 e) (c : Nat) (b : Bool) : Sampled d st t0 (condRead c b x e) := by
  obtain ⟨p, o, hc⟩ := condRead_frame (x := x) (d := e) c b
  rw [hc]
  exact h

theorem stackTemp_sampled {st t0 : Nat} (h : st < 16) : Sampled d st t0 (stackTemp st t0 x d) := by
  unfold stackTemp
  rw [if_neg (Nat.not_le.2 h)]
  refine Sampled.condRead ?_ _ _
  generalize hfold : List.foldl _ (Dev.mk ..) _ = e
  obtain ⟨us, rfl⟩ : ∃ us, e = { d with glm := { d.glm with
      units := us, therm := tset d.glm.therm st (t0, band d.glm.curvesAct.temps t0, _, d.glm.curvesAct.row t0) } } :=
    hfold ▸ foldl_units_frame (fun e k => ⟨_, rfl⟩) _ _
  exact ⟨congrArg (Option.map _) (tget_tset_same ..), congrArg (Option.map _) (tget_tset_same ..), tget_tset_same .., rfl, rfl⟩

end

/-- Settles O27: the start of a run pins its range and touches nothing else of the memory; what comes with time follows each event's rule. -/
theorem glumeEventsTakeEffect : Obligations.GlumeEventsTakeEffect := by
  unfold Obligations.GlumeEventsTakeEffect
  intro s hp
  refine ⟨?start, ?unit, ?sample, ?target, ?refresh⟩
  case start =>
    rintro u k l hu hidle hnext hl hcheck hfree s₀ rfl
    exact ⟨_, onDev_eq hp rfl, programStart_of_checked _ hu hidle hnext hl hcheck hfree⟩
  case unit =>
    rintro u g rfl
    refine ⟨?window, ?overrun, ?budget, fun h hh ht hkey => ⟨?ctl, ?host⟩⟩
    case window => exact fun t0 hw ht => onDev_eq hp (windowEnd_of_due hw ht)
    case overrun =>
      rintro k hr hw ht s₀ rfl
      exact onDev_eq hp (yieldOverrun_of_due hr hw ht)
    case budget =>
      rintro k hr ht s₀ rfl
      exact onDev_eq hp (budgetExpiry_of_due hr ht)
    case ctl =>
      rintro hag s₀ rfl
      exact onDev_eq hp ((heldTimeout_of_due hh ht).trans (Dev.heldOut_ctl hkey hag))
    case host =>
      rintro f hag s₀ rfl
      exact onDev_eq hp ((heldTimeout_of_due hh ht).trans (Dev.heldOut_host hkey hag))
  case sample =>
    rintro die k st t0 tb hdie hk rfl rfl - - s₀ rfl
    exact ⟨_, onDev_eq hp rfl, stackTemp_sampled (by omega)⟩
  case target => exact fun u b row h => onDev_eq hp (if_pos h)
  case refresh =>
    rintro st s₀ rfl
    exact onDev_eq hp rfl

end Sys2Proof.Machine
end

section
/-! Accesses to HBM beside running programs, through BAR2 and through the aliased window (R42, R111, R142-R150). -/

namespace Sys2Proof.Machine

/-! ### The aliased window (R147-R150) -/

section
variable {x : Ctx} {d : Dev} {ag : Agent} {p a u k an op : Nat} {ws : List Word}

/-- A command written to the control group of a slot. -/
theorem glumeWrite_of_alias (hat : d.aliasAt ag p a (4 * ws.length) = some (u, k, 0, an)) (hop : op = wfld (cw ws 0) 31 24) :
    glumeWrite op ag p a ws x d = d.glumeCmd x ag p u k an ws := by
  obtain ⟨f, hf⟩ := Dev.exists_eq_aliasAt
  rw [glumeWrite, if_pos hop.symm]
  unfold Dev.aliasWrite
  rw [← hf] at hat ⊢
  simp only [hat, ne_eq, not_true_eq_false, if_false]

section
variable (hc : Machine.cmdOk ws = true) (hop : op = wfld (cw ws 0) 31 24)
include hc hop

/-- START of a slot that neither waits nor runs: the checks decide between a queued slot and one that is refused. -/
theorem Dev.glumeCmd_start {pp n f : Nat} {dv : Bool} {t : GSlot} (hone : op = 1) (hst : ((d.gunit u).slot k).st ≠ 1)
    (hst' : ((d.gunit u).slot k).st ≠ 2) (hdv : dv = (d.regionOwner (stackOf an) (regionOf an) == 16))
    (hcore : ∀ c, ag = .core c → pp = p) (hpp : (∀ c, ag ≠ .core c) → pp = if dv then 16 else p) (hn : n = wfld (cw ws 1) 20 16)
    (hf : f = ((d.glm.bankAct.progs[n]?).getD (0, 0, 0, false)).1)
    (ht : t = { GSlot.reset with
      st := 1, seq := wfld (cw ws 0) 15 0, prog := n, part := pp, words := ws, anchor := an, order := (d.gunit u).order, first := f, pc := f
      device := dv }) :
    (d.startCheck u pp dv an ws = none → d.glumeCmd x ag p u k an ws =
      d.setGunit u (({ d.gunit u with order := (d.gunit u).order + 1 } : GUnit).setSlot k t)) ∧
    ∀ st code, d.startCheck u pp dv an ws = some (st, code) → d.glumeCmd x ag p u k an ws =
      (d.stuRun pp ws st).slotFault x u k { t with pc := 0 } st code := by
  subst hdv hn hf
  have hslot : ¬ (((d.gunit u).slot k).st = 1 ∨ ((d.gunit u).slot k).st = 2) := by simp [hst, hst']
  unfold Dev.glumeCmd
  rw [if_neg (by simp [hc]), if_pos (hop.symm.trans hone), if_neg hslot]
  cases ag
  case core c =>
    obtain rfl := hcore c rfl
    subst ht
    exact ⟨fun h => by simp only [h], fun st code h => by simp only [h]⟩
  all_goals
    obtain rfl := hpp (by simp)
    subst ht
    exact ⟨fun h => by simp only [h], fun st code h => by simp only [h]⟩

theorem Dev.glumeCmd_start_busy (hone : op = 1) (hst : ((d.gunit u).slot k).st = 1 ∨ ((d.gunit u).slot k).st = 2) :
    d.glumeCmd x ag p u k an ws = d.glmCount p 0x050000 := by
  unfold Dev.glumeCmd
  rw [if_neg (by simp [hc]), if_pos (hop.symm.trans hone), if_pos hst]

theorem Dev.glumeCmd_stop_running (htwo : op = 2) (hst : ((d.gunit u).slot k).st = 2) :
    d.glumeCmd x ag p u k an ws = d.setGunit u ((d.gunit u).setSlot k { (d.gunit u).slot k with seq := wfld (cw ws 0) 15 0, stop := true }) := by
  have hw : wfld (cw ws 0) 31 24 = 2 := hop.symm.trans htwo
  unfold Dev.glumeCmd
  rw [if_neg (by simp [hc]), if_neg (by simp [hw]), if_pos hw, if_neg (by simp [hst]), if_pos hst]

theorem Dev.glumeCmd_stop_queued (htwo : op = 2) (hst : ((d.gunit u).slot k).st = 1) :
    d.glumeCmd x ag p u k an ws = d.slotFault x u k { (d.gunit u).slot k with seq := wfld (cw ws 0) 15 0, pc := 0 } .aborted 6 := by
  have hw : wfld (cw ws 0) 31 24 = 2 := hop.symm.trans htwo
  unfold Dev.glumeCmd
  rw [if_neg (by simp [hc]), if_neg (by simp [hw]), if_pos hw, if_pos hst]

theorem Dev.glumeCmd_clear (hthree : op = 3) (hst : ((d.gunit u).slot k).st = 3 ∨ ((d.gunit u).slot k).st = 4) :
    d.glumeCmd x ag p u k an ws = d.setGunit u ((d.gunit u).setSlot k { GSlot.reset with seq := wfld (cw ws 0) 15 0 }) := by
  have hw : wfld (cw ws 0) 31 24 = 3 := hop.symm.trans hthree
  unfold Dev.glumeCmd
  rw [if_neg (by simp [hc]), if_neg (by simp [hw]), if_neg (by simp [hw]), if_pos hw, if_pos hst]

end

/-- A read by an aliased address of the kind of its group. -/
theorem aliasRead_of_group {st : Bool} {grp : Nat} (hat : d.aliasAt ag p a 64 = some (u, k, grp, an)) (hkind : (grp == 0) = st) :
    aliasRead st ag p a 64 x d = d.out (.agentData ag .ok ((((d.gunit u).slot k).seen p).group grp).1 ((((d.gunit u).slot k).seen p).group grp).2) := by
  obtain ⟨f, hf⟩ := Dev.exists_eq_aliasAt
  unfold aliasRead Dev.aliasData
  rw [← hf] at hat ⊢
  simp only [hat, Option.elim_some, hkind, bne_self_eq_false, Bool.false_eq_true, if_false]

theorem aliasRead_of_none {len : Nat} (st : Bool) (hat : d.aliasAt ag p a len = none) :
    aliasRead st ag p a len x d = (d.glmCount p 0x050000).out (.agentData ag .ok (List.replicate 64 0) false) := by
  obtain ⟨f, hf⟩ := Dev.exists_eq_aliasAt
  unfold aliasRead Dev.aliasData
  rw [← hf] at hat ⊢
  simp only [hat, Option.elim_none, Bool.false_eq_true, if_false]

theorem GSlot.group_result {l : GSlot} {grp : Nat} (h : grp ≠ 0) :
    l.group grp = ((((l.result ++ List.replicate 1984 0).drop ((grp - 1) * 64))).take 64, l.marked) := if_neg h

end

/-! ### Accesses beside running programs (R142, R143) -/

section
variable {x : Ctx} {d : Dev} {ag : Agent} {p a len : Nat} {e : List (Nat × Ecc)} {bs : List Byte}

/-- A read that no program holds up is served at once. -/
theorem Dev.ordRead_served (h : d.computeAt a = false ∨ (d.gunit (unitOf a)).running = none) {d' : Dev}
    (hd' : d' = (d.acted a len).hbmEccs x a len e) : d.ordRead x ag p a len e = d'.readAnswer ag .ok (d'.hbmRead a len) (d'.poisoned a len) := by
  subst hd'
  have hfree : ¬ (d.computeAt a && (d.gunit (unitOf a)).running.isSome) = true := by
    obtain h | h := h <;> simp [h]
  unfold Dev.ordRead
  rw [if_neg hfree]
  unfold Dev.serveAcc
  rw [if_neg (by simp), if_neg Bool.false_ne_true]

theorem Dev.ordRead_held (hc : d.computeAt a = true) (hr : (d.gunit (unitOf a)).running ≠ none) :
    d.ordRead x ag p a len e = d.setGunit (unitOf a) { d.gunit (unitOf a) with
      held := (d.gunit (unitOf a)).held ++ [⟨ag, p, a, len, false, [], e, x.now, (0, 0), false⟩] } := by
  unfold Dev.ordRead
  rw [if_pos (by simp [hc, Option.isSome_iff_ne_none, hr])]

theorem Dev.ordWrite_memory (hc : d.computeAt a = false) : d.ordWrite x ag p a bs = d.putGran x a bs false := by
  rw [Dev.ordWrite, if_neg (ne_true_of_eq_false hc)]

theorem Dev.ordWrite_compute (hc : d.computeAt a = true) (hag : ∀ f : Fn, ag ≠ .host f) :
    d.ordWrite x ag p a bs = (d.glmCount p 0x050008).out (.agentData ag .regionBusy [] false) := by
  rw [Dev.ordWrite, if_pos hc]
  cases ag
  case host f => exact absurd rfl (hag f)
  all_goals rfl

theorem ordRead_of_gran (hag : onAliasPath ag = false) (hg : oneGran a len = true) : ordRead ag p a len e x d = d.ordRead x ag p a len e := by
  rw [ordRead, if_pos (by simp [hag, hg])]

theorem ordWrite_of_gran (hag : onAliasPath ag = false) (hg : oneGran a bs.length = true) : ordWrite ag p a bs x d = d.ordWrite x ag p a bs := by
  rw [ordWrite, if_pos (by simp [hag, hg])]

section
variable {w : Bool} (hag : onAliasPath ag = true) (hg : oneGran a (if w = true then bs.length else len) = true) (hc : d.computeAt a = true)
include hag hg hc

theorem pathAccess_served (hr : (d.gunit (unitOf a)).running = none) :
    pathAccess ag p a w len bs e x d = d.serveAcc x ⟨ag, p, a, len, w, bs, e, x.now, (0, 0), false⟩ := by
  unfold pathAccess
  rw [if_pos (by rw [hag, hg, hc]; rfl)]
  exact if_neg (by simp [hr])

theorem pathAccess_queued (hr : (d.gunit (unitOf a)).running ≠ none) :
    pathAccess ag p a w len bs e x d = d.setGunit (unitOf a) { d.gunit (unitOf a) with
      queue := (d.gunit (unitOf a)).queue ++ [⟨ag, p, a, len, w, bs, e, x.now, (0, 0), false⟩] } := by
  unfold pathAccess
  rw [if_pos (by rw [hag, hg, hc]; rfl)]
  exact if_pos (Option.isSome_iff_ne_none.2 hr)

end
end

/-! ### BAR2 (R42, R111) -/

/-- `Dev.bufHome` as a variable: a proof on it does not make the kernel evaluate the arithmetic of a buffer offset. -/
theorem Dev.exists_eq_bufHome : ∃ f, f = Dev.bufHome := ⟨_, rfl⟩

section
variable {x : Ctx} {d : Dev} {f : Fn} {off p a : Nat}

section
variable {len : Nat} {e : List (Nat × Ecc)} (hok : bar2Ok d f off len = true) (hview : d.viewPart f = some p) (hbound : d.boundTo p f.port = true)
  (hopen : d.extSealed p (off / 2097152) = false)
include hok hview hbound hopen

theorem bar2Read_unmapped (hh : d.bufHome p off = none) :
    bar2Read f off len e x d = (d.out (.readData f (List.replicate len 0) false)).bumpPart p 0x040010 1 := by
  obtain ⟨g, hg⟩ := Dev.exists_eq_bufHome
  unfold bar2Read
  rw [← hg] at hh ⊢
  simp only [hok, hview, hbound, hopen, hh, Bool.not_true, Bool.false_eq_true, if_false]

theorem bar2Read_hbm {k : Bool} (hh : d.bufHome p off = some (.hbm a, k)) :
    bar2Read f off len e x d = d.ordRead x (.host f) p (a + off % 32768) len e := by
  obtain ⟨g, hg⟩ := Dev.exists_eq_bufHome
  unfold bar2Read
  rw [← hg] at hh ⊢
  simp only [hok, hview, hbound, hopen, hh, Bool.not_true, Bool.false_eq_true, if_false]

end

section
variable {bs : List Byte} (hok : bar2Ok d f off bs.length = true) (hview : d.viewPart f = some p) (hbound : d.boundTo p f.port = true)
  (hopen : d.mem.sealed.contains (bufKey p (off / 2097152)) = false) (hidx : d.extIndexed p (off / 2097152) = false)
include hok hview hbound hopen hidx

theorem bar2Write_hbm (hh : d.bufHome p off = some (.hbm a, false)) :
    bar2Write f off bs x d = d.ordWrite x (.host f) p (a + off % 32768) bs := by
  obtain ⟨g, hg⟩ := Dev.exists_eq_bufHome
  unfold bar2Write
  rw [← hg] at hh ⊢
  simp only [hok, hview, hbound, hopen, hidx, hh, Bool.not_true, Bool.false_eq_true, if_false]

theorem bar2Write_frozen (hh : d.bufHome p off = some (.hbm a, true)) : bar2Write f off bs x d = d.bumpPart p 0x040010 1 := by
  obtain ⟨g, hg⟩ := Dev.exists_eq_bufHome
  unfold bar2Write
  rw [← hg] at hh ⊢
  simp only [hok, hview, hbound, hopen, hidx, hh, Bool.not_true, Bool.false_eq_true, if_false]

end
end

/-- Settles O28: each access by its own lemma. -/
theorem hbmAccessRowsTakeEffect : Obligations.HbmAccessRowsTakeEffect := by
  unfold Obligations.HbmAccessRowsTakeEffect
  intro s hp
  refine ⟨?window, ?aliasRead, ?aliasNone, ?read, ?write, ?path, ?bar2Read, ?bar2Write⟩
  case window =>
    rintro ag p a u k an op ws l hat hc hop rfl
    refine ⟨?start, fun hone hst => ?busy, fun htwo hst => ?stop, fun htwo hst => ?stopQueued, fun hthree hst => ?clear⟩
    case start =>
      intro pp n f dv t hone hst hst' hdv hpp hn hf ht
      obtain ⟨hgo, hfail⟩ := Dev.glumeCmd_start (x := s.ctx) (ag := ag) (p := p) hc hop hone hst hst' hdv (by rintro c rfl; exact hpp)
        (fun hcore => by
          cases ag
          case core c => exact absurd rfl (hcore c)
          all_goals exact hpp) hn hf ht
      subst hone
      exact ⟨fun h => onDev_eq hp ((glumeWrite_of_alias hat hop).trans (hgo h)),
        fun st code h => onDev_eq hp ((glumeWrite_of_alias hat hop).trans (hfail st code h))⟩
    case busy =>
      subst hone
      exact onDev_eq hp ((glumeWrite_of_alias hat hop).trans (Dev.glumeCmd_start_busy hc hop rfl hst))
    case stop =>
      subst htwo
      exact onDev_eq hp ((glumeWrite_of_alias hat hop).trans (Dev.glumeCmd_stop_running hc hop rfl hst))
    case stopQueued =>
      subst htwo
      exact onDev_eq hp ((glumeWrite_of_alias hat hop).trans (Dev.glumeCmd_stop_queued hc hop rfl hst))
    case clear =>
      subst hthree
      exact onDev_eq hp ((glumeWrite_of_alias hat hop).trans (Dev.glumeCmd_clear hc hop rfl hst))
  case aliasRead =>
    rintro ag p a u k grp an l hat rfl
    refine ⟨fun h => ?_, fun h => onDev_eq hp ?_⟩
    · subst h
      exact onDev_eq hp (aliasRead_of_group hat rfl)
    · rw [aliasRead_of_group hat (by simp [h]), GSlot.group_result h]
  case aliasNone => exact fun ag p a len hat => ⟨onDev_eq hp (aliasRead_of_none true hat), onDev_eq hp (aliasRead_of_none false hat)⟩
  case read =>
    intro ag p a len e d hag hg
    exact ⟨fun hc hr => onDev_eq hp ((ordRead_of_gran hag hg).trans (Dev.ordRead_held hc hr)),
      fun h hd => onDev_eq hp ((ordRead_of_gran hag hg).trans (Dev.ordRead_served h hd))⟩
  case write =>
    intro ag p a bs hag hg
    exact ⟨fun hc => onDev_eq hp ((ordWrite_of_gran hag hg).trans (Dev.ordWrite_memory hc)),
      fun hc h => onDev_eq hp ((ordWrite_of_gran hag hg).trans (Dev.ordWrite_compute hc h))⟩
  case path =>
    rintro ag p a len w bs e h hag hg hc rfl
    exact ⟨fun hr => onDev_eq hp (pathAccess_served hag hg hc hr), fun hr => onDev_eq hp (pathAccess_queued hag hg hc hr)⟩
  case bar2Read =>
    intro f off len p e hok hview hbound hopen
    refine ⟨fun hh => ?_, fun a k hh => ?_⟩ <;> rintro s₀ rfl
    · exact onDev_eq hp (bar2Read_unmapped hok hview hbound hopen hh)
    · exact onDev_eq hp (bar2Read_hbm hok hview hbound hopen hh)
  case bar2Write =>
    intro f off p bs hok hview hbound hopen hidx
    refine ⟨fun a hh hc => ?_, fun a hh => ?_⟩ <;> rintro s₀ rfl
    · exact onDev_eq hp ((bar2Write_hbm hok hview hbound hopen hidx hh).trans (Dev.ordWrite_memory hc))
    · exact onDev_eq hp (bar2Write_frozen hok hview hbound hopen hidx hh)

end Sys2Proof.Machine
end

section
/-! The model commands (R173-R182). -/

namespace Sys2Proof.Machine

/-! ### What the end of a reference changes -/

/-- What differs is HBM, the parking tier, the adapters, or the packs of keys. -/
def OnlyStored (d d' : Dev) : Prop := ∃ m n a e, d' = { d with mem := m, nand := n, sch := { d.sch with adapters := a }, sec := e }

namespace OnlyStored
variable {d d' d'' : Dev}

theorem refl (d : Dev) : OnlyStored d d := ⟨_, _, _, _, rfl⟩

theorem trans (h : OnlyStored d d') (h' : OnlyStored d' d'') : OnlyStored d d'' := by
  obtain ⟨_, _, _, _, rfl⟩ := h
  obtain ⟨_, _, _, _, rfl⟩ := h'
  exact ⟨_, _, _, _, rfl⟩

theorem foldl {α : Type} {f : Dev → α → Dev} (hf : ∀ e a, OnlyStored e (f e a)) (l : List α) : ∀ d, OnlyStored d (l.foldl f d) := by
  induction l with
  | nil => exact refl
  | cons a l ih => exact fun d => (hf d a).trans (ih _)

end OnlyStored

theorem Dev.releaseHome_stored (d : Dev) (h : Home) : OnlyStored d (d.releaseHome h) := by
  cases h with
  | nand u => exact ⟨_, _, _, _, rfl⟩
  | hbm a =>
    unfold Dev.releaseHome
    dsimp only
    split <;> exact ⟨_, _, _, _, rfl⟩

theorem Dev.freeBlks_stored (l : List Nat) : ∀ d : Dev, OnlyStored d (d.freeBlks l) := by
  induction l with
  | nil => exact OnlyStored.refl
  | cons a l ih =>
    intro d
    unfold Dev.freeBlks
    split
    · dsimp only
      split
      · exact OnlyStored.trans ⟨_, _, _, _, rfl⟩ (ih _)
      · exact OnlyStored.trans ⟨_, _, _, _, rfl⟩ (ih _)
    · exact ih d

theorem Dev.shareFree_stored (d : Dev) (id : Nat) : OnlyStored d (d.shareFree id) := by
  unfold Dev.shareFree
  split
  · exact .refl d
  · split
    · exact ((OnlyStored.foldl Dev.releaseHome_stored _ d).trans (Dev.freeBlks_stored _ _)).trans ⟨_, _, _, _, rfl⟩
    · exact .refl d

theorem Dev.adpCheck_stored (d : Dev) (p v : Nat) : OnlyStored d (d.adpCheck p v) := by
  unfold Dev.adpCheck
  split
  · split
    · dsimp only
      split
      · exact OnlyStored.trans ⟨_, _, _, _, rfl⟩ (Dev.shareFree_stored _ _)
      · exact ⟨_, _, _, _, rfl⟩
    · exact .refl d
  · exact .refl d

theorem Dev.shareCheck_stored (d : Dev) (id : Nat) : OnlyStored d (d.shareCheck id) := by
  unfold Dev.shareCheck
  split
  · split
    · exact (Dev.shareFree_stored d id).trans (Dev.adpCheck_stored _ _ _)
    · exact Dev.shareFree_stored d id
  · exact .refl d

theorem Dev.shareUnref_stored (d : Dev) (id : Nat) : OnlyStored d (d.shareUnref id) := by
  unfold Dev.shareUnref
  split
  · exact .refl d
  · exact OnlyStored.trans ⟨_, _, _, _, rfl⟩ (Dev.shareCheck_stored _ _)

/-- A model unregistered: its number, the references of its weights and its batches go. -/
def Dev.forgetMdl (d : Dev) (m : Nat) (k : Mdl) : Dev :=
  let d := k.shares.foldl Dev.shareUnref { d with grid := { d.grid with mdls := tdel d.grid.mdls m } }
  { d with sch := { d.sch with batches := tdel d.sch.batches m, mcfg := tdel d.sch.mcfg m } }

theorem Dev.forgetMdl_frame (d : Dev) (m : Nat) (k : Mdl) :
    (d.forgetMdl m k).grid.mdls = tdel d.grid.mdls m ∧ (d.forgetMdl m k).ses = d.ses := by
  obtain ⟨_, _, _, _, h⟩ := OnlyStored.foldl Dev.shareUnref_stored k.shares { d with grid := { d.grid with mdls := tdel d.grid.mdls m } }
  unfold Dev.forgetMdl
  rw [h]
  exact ⟨rfl, rfl⟩

/-! ### The commands -/

section
variable {x : Ctx} {q : Req} {d : Dev} {m : Nat} {k : Mdl}

theorem mdlReg_of_fits (hc : q.clean ((List.range 7).map fun i => (i + 2, top32)) = true) (hlo : 128 ≤ (q.w 4).toNat)
    (hhi : (q.w 4).toNat ≤ 67108864) :
    mdlReg x q d = .accept [] (.register (q.w 4).toNat ((List.range 4).map fun i => (q.w (5 + i)).toNat)) d := by
  unfold mdlReg
  dsimp only
  rw [if_neg (by simp only [hc, Bool.not_true, Bool.false_eq_true, false_or]; omega)]

section
variable (hown : d.ownMdl q = some (m, k))
include hown

section
variable (hheld : d.mdlHeld q.seq m = false) (hc : q.clean [(2, 0xFFFF), (3, 0x1FF)] = true)
  (hbind : (k.shares.any fun h => !d.bindOkSealed q.part h none) = false)
include hheld hc hbind

theorem mdlLoadCmd_resident (hst : k.st = .resident) : mdlLoadCmd x q d = .both [] .ok [wd k.origin, 0] d := by
  unfold mdlLoadCmd mdlLoadGo
  rw [if_neg (by simp [hc]), hown]
  dsimp only
  rw [hbind, if_neg Bool.false_ne_true, if_neg (by simp [Mdl.unloading, hst, hheld]), if_pos hst]

theorem mdlLoadCmd_fits {o : Nat} (hst : k.st = .registered ∨ k.st = .faulted) (hmoves : k.moveOps = 0)
    (hfit : d.fit k (if bitAt (q.w 3).toNat 8 then some (q.f 3 7 0) else none) = .ok o) :
    mdlLoadCmd x q d = .accept [] (.mdlLoad m) (d.startLoad x.now m k o q.seq) := by
  have hidle : ¬ (k.unloading || d.mdlHeld q.seq m) = true := by simp [Mdl.unloading, hmoves, hheld]
  unfold mdlLoadCmd mdlLoadGo
  rw [if_neg (by simp [hc]), hown]
  dsimp only
  rw [hbind, if_neg Bool.false_ne_true, if_neg hidle, if_neg (by obtain h | h := hst <;> simp [h]), if_neg (by obtain h | h := hst <;> simp [h]), hfit]

end

theorem mdlEvictCmd_of_placed {nand : Bool} (hheld : d.mdlHeld q.seq m = false) (hc : q.clean [(2, 0xFFFF), (3, 1)] = true)
    (hpin : k.pinned = false) (hnand : nand = bitAt (q.w 3).toNat 0) (hst : k.st ≠ .registered) (hst' : k.st ≠ .faulted) :
    mdlEvictCmd x q d = .accept [] (.mdlEvict m nand)
      (if k.st = .resident then (d.setMdl m { k with evictOps := k.evictOps ++ [q.seq], evictAfter := some nand }).startEvict x m nand
        else d.setMdl m { k with evictOps := k.evictOps ++ [q.seq], evictAfter := some nand }) := by
  subst hnand
  unfold mdlEvictCmd
  rw [if_neg (by simp [hc]), hown]
  dsimp only
  rw [if_neg (by simp [hpin]), if_neg (by simp [hheld]), if_neg (by simp [hst, hst'])]

theorem mdlPinCmd_of_own (hc : q.clean [(2, 0xFFFF), (3, 1)] = true) :
    mdlPinCmd x q d = .done .ok [] ((d.setMdl m { k with pinned := bitAt (q.w 3).toNat 0 }).retryLoads x k.part) := by
  rw [mdlPinCmd, if_neg (by simp [hc]), hown]

section
variable (hc : q.clean [(2, 0xFFFF)] = true)
include hc

theorem mdlCheckCmd_resident (hst : k.st = .resident) : mdlCheckCmd x q d = .done .ok [wd Status.ok.code, wd k.origin] d := by
  rw [mdlCheckCmd, if_neg (by simp [hc]), hown]
  exact if_pos hst

theorem mdlCheckCmd_fits {o : Nat} (hst : k.st = .registered ∨ k.st = .faulted) (hfit : d.fit k none = .ok o) :
    mdlCheckCmd x q d = .done .ok [wd Status.ok.code, wd o] d := by
  rw [mdlCheckCmd, if_neg (by simp [hc]), hown]
  dsimp only
  rw [if_neg (by obtain h | h := hst <;> simp [h]), if_neg (by obtain h | h := hst <;> simp [h]), hfit]

theorem mdlCheckCmd_unfit {e : Nat × Status} (hst : k.st = .registered ∨ k.st = .faulted) (hfit : d.fit k none = .error e) :
    mdlCheckCmd x q d = .done .ok [wd e.2.code, 0] d := by
  rw [mdlCheckCmd, if_neg (by simp [hc]), hown]
  dsimp only
  rw [if_neg (by obtain h | h := hst <;> simp [h]), if_neg (by obtain h | h := hst <;> simp [h]), hfit]

theorem mdlQueryCmd_of_own : mdlQueryCmd x q d = .done .ok
    [wd (k.st.code + (if k.pinned then 256 else 0) + (if k.st.holds then k.origin * 4096 else 0)), wd (if k.st.holds then k.cores.length else 0),
      wd (d.hbmBytes k / 4096), wd k.faultCode] d := by
  rw [mdlQueryCmd, if_neg (by simp [hc]), hown]

/-- MDL_UNREGISTER of a model that nothing binds: its number is free, and no session changes. -/
theorem mdlUnregCmd_of_unbound (hheld : d.mdlHeld q.seq m = false) (hst : k.st = .registered ∨ k.st = .faulted) (hmoves : k.moveOps = 0)
    (hfree : ∀ e ∈ d.ses.tbl, e.2.state = .free ∨ (e.2.model ≠ m ∧ e.2.compressor ≠ m)) :
    ∃ d' : Dev, mdlUnregCmd x q d = .both [] .ok [] d' ∧ d'.grid.mdls = tdel d.grid.mdls m ∧ d'.ses = d.ses := by
  have hidle : ¬ (k.unloading || d.mdlHeld q.seq m) = true := by simp [Mdl.unloading, hmoves, hheld]
  have hbound : (d.ses.tbl.any fun s => s.2.state != .free && (s.2.model == m || s.2.compressor == m)) = false := by
    rw [List.any_eq_false]
    intro e he
    obtain h | ⟨h, h'⟩ := hfree e he <;> simp [h]
    exact fun _ => h'
  have hst' : ¬ ((k.st ≠ .registered ∧ k.st ≠ .faulted) ∨
      (d.ses.tbl.any fun s => s.2.state != .free && (s.2.model == m || s.2.compressor == m)) = true) := by
    rw [hbound]
    obtain h | h := hst <;> simp [h]
  refine ⟨d.forgetMdl m k, ?_, d.forgetMdl_frame m k⟩
  unfold mdlUnregCmd
  rw [if_neg (by simp [hc]), hown]
  dsimp only
  rw [if_neg hidle, if_neg hst']
  rfl

end
end
end

/-- MDL_EVICT accepted; what has ended by then is answered, and blocked loads are tried again. -/
theorem effMdlEvict_accept {s : State} {c : Cmd} {r : CmdRec} {k : OpKind} {d : Dev} (hs : Started 0x0302 c r s)
    (hb : mdlEvictCmd s.ctx (reqOf c r) s.dev = .accept [] k d) :
    effMdlEvict c s = .next ((s.acceptedAs c r [] k d).andThen fun x d => (d.evictReplies x).retryLoads x c.part) := by
  refine onDev_eq hs.1 ?_
  unfold evictDone
  rw [runCmd_accept hs hb]
  rfl

/-- Settles O29: each command on a model of its partition; an unregistered model leaves its number and its references alone. -/
theorem modelCommandsComplete : Obligations.ModelCommandsComplete := by
  unfold Obligations.ModelCommandsComplete
  rintro s₀ s c r q rfl rfl
  refine ⟨fun hs hc hlo hhi => hostCmd_accept hs (mdlReg_of_fits hc hlo hhi), fun m k hown hheld => ⟨fun hs hc hbind => ⟨?loaded, ?load⟩, ?evict, ?pin,
    fun hs hc => ⟨?resident, ?fits, ?unfit⟩, ?query, ?unregister⟩⟩
  case loaded => exact fun hst => hostCmd_both hs (mdlLoadCmd_resident hown hheld hc hbind hst)
  case load => exact fun o hst hmoves hfit => hostCmd_accept hs (mdlLoadCmd_fits hown hheld hc hbind hst hmoves hfit)
  case evict =>
    intro nand hs hc hpin hnand
    refine ⟨fun hst => effMdlEvict_accept hs ?_, fun hst => effMdlEvict_accept hs ?_⟩
    · rw [mdlEvictCmd_of_placed hown hheld hc hpin hnand (by simp [hst]) (by simp [hst]), if_neg (by simp [hst])]
    · rw [mdlEvictCmd_of_placed hown hheld hc hpin hnand (by simp [hst]) (by simp [hst]), if_pos hst]
  case pin => exact fun hs hc => hostCmd_done hs (mdlPinCmd_of_own hown hc)
  case resident => exact fun hst => hostCmd_done hs (mdlCheckCmd_resident hown hc hst)
  case fits => exact fun o hst hfit => hostCmd_done hs (mdlCheckCmd_fits hown hc hst hfit)
  case unfit => exact fun e hst hfit => hostCmd_done hs (mdlCheckCmd_unfit hown hc hst hfit)
  case query => exact fun hs hc => hostCmd_done hs (mdlQueryCmd_of_own hown hc)
  case unregister =>
    intro hs hc hst hmoves hfree
    obtain ⟨d, hb, hmdls, hses⟩ := mdlUnregCmd_of_unbound (x := (s₀.reach (cmdKey c)).ctx) hown hc hheld hst hmoves hfree
    exact ⟨d, hostCmd_both hs hb, hmdls, hses⟩

end Sys2Proof.Machine
end

section
/-! Prefixes, adapter lines and training jobs (R234-R242, R249). -/

namespace Sys2Proof.Machine

section
variable {x : Ctx} {q : Req} {d : Dev}

/-! ### Prefixes -/

/-- PFX_FROM_SESSION of a WARM session that no other one works on: it waits for a checkpoint that holds the session. -/
theorem pfxFromCmd_of_idle {e : Ses} (hlook : d.lookup q.part (q.w 2) = .ok e) (hc : q.clean [(2, top32)] = true) (hst : e.state = .warm)
    (hidle : ∀ o ∈ d.ops, ∀ (n : Nat) (m : MoveProg), o.2.kind ≠ .pfxSession (q.w 2) n m) (hpfx : e.pfx = 0) (hlo : 1 ≤ e.ctx)
    (hhi : e.ctx ≤ 1048576) :
    (d.ckpHolds (q.w 2) = true → pfxFromCmd x q d = .accept [] (.pfxSession (q.w 2) 0 ⟨0, 0, false, false, 0⟩) d) ∧
    ∀ id d', d.ckpHolds (q.w 2) = false → (d.dropSpills x (q.w 2)).pfxOfSes q.part e = some (id, d') →
      pfxFromCmd x q d = .accept [] (.pfxSession (q.w 2) id ⟨0, 0, false, false, 0⟩) (d'.takeDesc q.seq) := by
  unfold pfxFromCmd
  dsimp only
  rw [hlook]
  dsimp only
  rw [if_neg (by simp [hc]), if_neg, if_neg (by omega)]
  · refine ⟨fun hk => if_pos hk, fun id d' hk hp => ?_⟩
    rw [if_neg (by simp [hk]), hp]
    rfl
  · rintro (h | h)
    · exact h hst
    · obtain ⟨o, ho, h⟩ := List.any_eq_true.1 h
      split at h
      case h_1 g n m hkind => exact hidle o ho n m (by rw [hkind, beq_iff_eq.1 h])
      case h_2 => exact Bool.false_ne_true h

/-- PFX_CREATE of tokens in whole unfrozen extents that hold its units. -/
theorem pfxCreateCmd_fits {k : Mdl} {v first count n t per id : Nat} {set : List (Nat × Nat)} {d' : Dev}
    (hc : q.clean [(2, top32), (3, 0x7FFFF), (4, top32), (5, top32)] = true) (hmdl : d.mdl (q.f 2 15 0) = some k) (hpart : k.part = q.part)
    (hv : d.bindAdapter q.part (q.f 2 15 0) (q.f 2 31 16) = some v) (hfirst : first = q.f 3 18 0) (hcount : count = (q.w 4).toNat)
    (hn : n = (q.w 5).toNat) (hlo : 1 ≤ n) (hhi : n ≤ 1048576) (ht : t = pageT k.img.kvHeads k.img.headDim k.img.kvFmt)
    (hper : per = (n + t - 1) / t) (hrun : runOk first count = true) (hfits : k.img.layers * per ≤ 64 * count)
    (hwhole : d.allWhole q.part (runExts first count) = true) (hfrozen : d.anyFrozen q.part (runExts first count) = false)
    (hset : d.newSet q.part = some set)
    (hnew : d.newPfx q.part ⟨q.part, [], 0, false, 0, false, q.f 2 15 0, v, n, t, k.img.kvFmt, k.img.layers, per, set,
      List.replicate k.img.layers ((List.range per).map fun j => min t (n - j * t)), false, []⟩ = some (id, d')) :
    pfxCreateCmd x q d = .accept [] (.pfxCreate id first count ⟨0, 0, false, false, 0⟩) (d'.takeDesc q.seq) := by
  subst hfirst hcount hn ht hper
  have hok : ¬ ((!q.clean [(2, top32), (3, 0x7FFFF), (4, top32), (5, top32)]) = true ∨ k.part ≠ q.part ∨ (q.w 5).toNat = 0 ∨
      (q.w 5).toNat > 1048576 ∨ (!runOk (q.f 3 18 0) (q.w 4).toNat) = true ∨
      64 * (q.w 4).toNat < k.img.layers * (((q.w 5).toNat + pageT k.img.kvHeads k.img.headDim k.img.kvFmt - 1) /
        pageT k.img.kvHeads k.img.headDim k.img.kvFmt) ∨
      (!d.allWhole q.part (runExts (q.f 3 18 0) (q.w 4).toNat)) = true ∨ d.anyFrozen q.part (runExts (q.f 3 18 0) (q.w 4).toNat) = true) := by
    simp only [hc, hpart, hrun, hwhole, hfrozen, Bool.not_true, Bool.false_eq_true, ne_eq, not_true_eq_false, false_or, or_false]
    clear hnew
    omega
  unfold pfxCreateCmd
  dsimp only
  rw [hmdl]
  dsimp only
  rw [hv]
  dsimp only
  rw [if_neg hok, hset, Option.bind_some, hnew]
  rfl

theorem pfxQueryCmd_of_own {o : Share} (hc : q.clean [(2, top32)] = true) (ho : d.share (q.w 2).toNat = some o) (hpart : o.part = q.part)
    (hpfx : o.pfx = true) :
    pfxQueryCmd x q d = .done .ok
      [wd (o.model + o.adapter * 65536), wd o.positions, wd (o.refs + if o.own then 1 else 0), wd (o.layers * o.pages)] d := by
  unfold pfxQueryCmd
  rw [ho]
  exact if_neg (by simp [hc, hpart, hpfx])

/-! ### Adapter lines -/

/-- What ADP_CREATE leaves: the line with its current version; no session changes. -/
def AdpCreated (d : Dev) (q : Req) (n : Nat) (o : Share) (d' : Dev) : Prop :=
  tget d'.sch.adapters (q.part * 65536 + d.nextVer q.part) = some ⟨q.part, q.f 2 15 0, n, (q.w 3).toNat, true⟩ ∧
    (∃ l ∈ d'.sch.lines, l.model = q.f 2 15 0 ∧ l.line = n ∧ l.bytes = o.bytes ∧ l.retired = false) ∧ d'.ses = d.ses

/-- A version added: its entry, and nothing else but its weights' reference and the last number given. -/
theorem Dev.addVer_effect (d : Dev) (p m line sh : Nat) :
    (d.addVer p m line sh).1 = d.nextVer p ∧ tget (d.addVer p m line sh).2.sch.adapters (p * 65536 + d.nextVer p) = some ⟨p, m, line, sh, true⟩ ∧
      (d.addVer p m line sh).2.sch.lines = d.sch.lines ∧ (d.addVer p m line sh).2.ses = d.ses := by
  have href : (d.shareRef sh).sch = d.sch ∧ (d.shareRef sh).ses = d.ses := by
    unfold Dev.shareRef
    split <;> exact ⟨rfl, rfl⟩
  exact ⟨rfl, tget_tset_same .., congrArg (fun c => c.lines) href.1, href.2⟩

theorem adpCreateCmd_of_free {m n : Nat} {k : Mdl} {o : Share} (hown : d.ownMdl q = some (m, k))
    (hshare : d.adpShare q.part (q.w 3).toNat = .ok o) (hroom : d.liveVers q.part < 4096) (hc : q.clean [(2, 0x1FFFF), (3, top32)] = true)
    (hn : (List.range 256).find? (fun n => !((d.linesOf q.part (q.f 2 15 0)).any fun l => l.line == n)) = some n) :
    ∃ d', adpCreateCmd x q d = .done .ok [wd (n + d.nextVer q.part * 65536)] d' ∧ AdpCreated d q n o d' := by
  unfold adpCreateCmd
  dsimp only
  rw [hown]
  dsimp only
  rw [if_neg (by simp [hc]), hshare]
  dsimp only
  rw [hn]
  dsimp only
  rw [if_neg (Nat.not_le.2 hroom)]
  generalize List.map _ _ = lines
  generalize hline : AdpLine.mk .. = line
  obtain ⟨hver, hadp, hlines, hses⟩ := Dev.addVer_effect { d with sch := { d.sch with lines := lines ++ [line] } } q.part (q.f 2 15 0) n (q.w 3).toNat
  refine ⟨_, congrArg (fun v => Ans.done .ok [wd (n + v * 65536)] _) hver, hadp, ⟨line, ?_, ?_⟩, hses⟩
  · rw [hlines]
    simp
  · subst hline
    exact ⟨rfl, rfl, rfl, rfl⟩

theorem adpReplaceCmd_of_line {m : Nat} {k : Mdl} {o : Share} {l : AdpLine} (hown : d.ownMdl q = some (m, k))
    (hshare : d.adpShare q.part (q.w 3).toNat = .ok o) (hroom : d.liveVers q.part < 4096) (hc : q.clean [(2, 0xFFFFFF), (3, top32)] = true)
    (hl : d.sch.lines.find? (fun l => l.model == q.f 2 15 0 && l.line == q.f 2 23 16 && !l.retired) = some l) (hbytes : o.bytes = l.bytes) :
    adpReplaceCmd x q d = .done .ok
      [wd (d.addVer q.part (q.f 2 15 0) (q.f 2 23 16) (q.w 3).toNat).1, wd ((d.curVer q.part (q.f 2 15 0) (q.f 2 23 16)).getD 0)]
      ((d.addVer q.part (q.f 2 15 0) (q.f 2 23 16) (q.w 3).toNat).2.uncur q.part ((d.curVer q.part (q.f 2 15 0) (q.f 2 23 16)).getD 0)) := by
  unfold adpReplaceCmd
  dsimp only
  rw [hown, hl]
  dsimp only
  rw [if_neg (by simp [hc]), hshare]
  dsimp only
  rw [if_neg (by simp [hbytes]), if_neg (Nat.not_le.2 hroom)]

theorem adpQueryCmd_of_version {a : Adapter} (hc : q.clean [(2, 0xFFFF)] = true)
    (ha : tget d.sch.adapters (q.part * 65536 + q.f 2 15 0) = some a) :
    adpQueryCmd x q d = .done .ok
      [wd (a.model + a.line * 65536 + if a.current then 2 ^ 24 else 0), wd (d.adpCount q.part (q.f 2 15 0)), wd a.share] d := by
  unfold adpQueryCmd
  dsimp only
  rw [ha]
  exact if_neg (by simp [hc])

/-- A version no longer current: adapters may go and objects be released; lines and sessions stay. -/
theorem Dev.uncur_frame (d : Dev) (p v : Nat) : (d.uncur p v).sch.lines = d.sch.lines ∧ (d.uncur p v).ses = d.ses := by
  unfold Dev.uncur
  obtain ⟨_, _, _, _, h⟩ := Dev.adpCheck_stored { d with sch := { d.sch with
    adapters := tmod d.sch.adapters (p * 65536 + v) fun a => { a with current := false } } } p v
  rw [h]
  exact ⟨rfl, rfl⟩

/-- What ADP_RETIRE leaves: no line of that number is in use; no session changes. -/
def AdpRetired (d : Dev) (q : Req) (d' : Dev) : Prop :=
  (∀ a ∈ d'.sch.lines, a.model = q.f 2 15 0 → a.line = q.f 2 23 16 → a.retired = true) ∧ d'.ses = d.ses

theorem adpRetireCmd_of_line {m : Nat} {k : Mdl} {l : AdpLine} (hown : d.ownMdl q = some (m, k)) (hc : q.clean [(2, 0xFFFFFF)] = true)
    (hl : d.sch.lines.find? (fun l => l.model == q.f 2 15 0 && l.line == q.f 2 23 16 && !l.retired) = some l) :
    ∃ n d', adpRetireCmd x q d = .done .ok [n] d' ∧ AdpRetired d q d' := by
  unfold adpRetireCmd
  dsimp only
  rw [hown, hl]
  dsimp only
  rw [if_neg (by simp [hc])]
  refine ⟨_, _, rfl, ?_⟩
  generalize hd1 : Dev.mk .. = d1
  have hlines : (∀ a ∈ d1.sch.lines, a.model = q.f 2 15 0 → a.line = q.f 2 23 16 → a.retired = true) ∧ d1.ses = d.ses := by
    subst hd1
    refine ⟨fun a ha hm hn => ?_, rfl⟩
    obtain ⟨b, -, hb⟩ := List.mem_map.1 ha
    subst hb
    split at hm <;> rename_i h
    · simp [h]
    · split at hn <;> simp_all
  cases d1.curVer q.part (q.f 2 15 0) (q.f 2 23 16) with
  | none => exact hlines
  | some v =>
    obtain ⟨h, h'⟩ := Dev.uncur_frame d1 q.part v
    exact ⟨fun a ha => hlines.1 a (h ▸ ha), h'.trans hlines.2⟩

/-! ### Training jobs -/

theorem trnStartCmd_of_room {k : Mdl} {id : Nat} (hmdl : d.mdl (q.f 2 15 0) = some k) (hpart : k.part = q.part)
    (hc : q.clean [(2, 0x1FFFF), (3, top32), (4, top32), (5, top32), (6, top32), (7, top32), (8, top32), (9, top32)] = true)
    (hsteps : 1 ≤ (q.w 9).toNat) (hmut : d.mutableRun q.part (q.w 3).toNat (q.w 4).toNat = true)
    (hrun : runOk (q.w 5).toNat (q.w 6).toNat = true) (hmapped : d.allMapped q.part (runExts (q.w 5).toNat (q.w 6).toNat) = true)
    (hmut' : d.mutableRun q.part (q.w 7).toNat (q.w 8).toNat = true) (hroom : d.liveJobs q.part < 4)
    (hid : id = nextId (fun n => thas d.sch.jobs n) top32 d.sch.jobs.length d.sch.lastJob) :
    trnStartCmd x q d = .accept [wd id] (.train id) { d with sch := { d.sch with
      jobs := tset d.sch.jobs id ⟨q.part, q.seq, q.f 2 15 0, bitAt (q.w 2).toNat 16, ((q.w 3).toNat, (q.w 4).toNat),
        ((q.w 5).toNat, (q.w 6).toNat), ((q.w 7).toNat, (q.w 8).toNat), (q.w 9).toNat, 0, 0, false, false⟩
      lastJob := id } } := by
  subst hid
  unfold trnStartCmd
  dsimp only
  rw [hmdl]
  dsimp only
  rw [if_neg (by simp [hc, hpart, hmut, hrun, hmapped, hmut', Nat.one_le_iff_ne_zero.1 hsteps]), if_neg (Nat.not_le.2 hroom)]

section
variable {j : TrainJob} (hc : q.clean [(2, top32)] = true) (hown : d.ownJob q = some j)
include hc hown

theorem trnQueryCmd_of_own : trnQueryCmd x q d = .done .ok [wd j.donesteps, wd j.st] d := by
  rw [trnQueryCmd, hown]
  exact if_neg (by simp [hc])

theorem trnStopCmd_of_own : trnStopCmd x q d =
    .done .ok [] { d with sch := { d.sch with jobs := tset d.sch.jobs (q.w 2).toNat { j with stop := true } } } := by
  rw [trnStopCmd, hown]
  exact if_neg (by simp [hc])

end
end

/-- TRN_STOP of a job in a step: the job ends with the step. -/
theorem effTrnStop_inStep {s : State} {c : Cmd} {r : CmdRec} {j : TrainJob} (hs : Started 0x0321 c r s) (hc : (reqOf c r).clean [(2, top32)] = true)
    (hown : s.dev.ownJob (reqOf c r) = some j) (hin : j.inStep = true) :
    effTrnStop c s = .next (s.answered r .ok [] { s.dev with sch := { s.dev.sch with
      jobs := tset s.dev.sch.jobs ((reqOf c r).w 2).toNat { j with stop := true } } }) := by
  refine onDev_eq hs.1 ?_
  unfold trnStopRow
  rw [runCmd_done hs (trnStopCmd_of_own hc hown)]
  have hj : ∀ d : Dev, tget (d.endCmd s.ctx r .ok []).sch.jobs (c.w 2).toNat = tget d.sch.jobs (c.w 2).toNat := fun d =>
    congrArg (fun c : SchState => tget c.jobs _) (congrArg Dev.sch (Dev.rest_endCmd d s.ctx r .ok []) :)
  dsimp only
  rw [hj]
  simp only [show ((reqOf c r).w 2) = c.w 2 from rfl, tget_tset_same, hin, Bool.not_true, Bool.false_eq_true, false_and, and_false, if_false]

/-- Settles O30: each command by its own lemma; a stop of a job in a step only marks it. -/
theorem prefixAdapterAndTrainingCommandsComplete : Obligations.PrefixAdapterAndTrainingCommandsComplete := by
  unfold Obligations.PrefixAdapterAndTrainingCommandsComplete
  rintro s₀ s c r q rfl rfl
  refine ⟨?pfxFrom, ?pfxCreate, fun o hs hc ho hpart hpfx => hostCmd_done hs (pfxQueryCmd_of_own hc ho hpart hpfx),
    fun m k o hown hshare hroom => ⟨?create, ?replace⟩, fun a hs hc ha => hostCmd_done hs (adpQueryCmd_of_version hc ha), ?retire, ?start,
    fun j hs hc hown => hostCmd_done hs (trnQueryCmd_of_own hc hown), fun j hs hc hown hin => effTrnStop_inStep hs hc hown hin⟩
  case pfxFrom =>
    intro e id d hs hlook hc hst hidle hpfx hlo hhi
    obtain ⟨hheld, hplaced⟩ := pfxFromCmd_of_idle (x := (s₀.reach (cmdKey c)).ctx) hlook hc hst hidle hpfx hlo hhi
    exact ⟨fun hk => hostCmd_accept hs (hheld hk), fun hk hp => hostCmd_accept hs (hplaced id d hk hp)⟩
  case pfxCreate =>
    intro k v first count n t per id set d hs hc hmdl hpart hv hfirst hcount hn hlo hhi ht hper hrun hfits hwhole hfrozen hset hnew
    exact hostCmd_accept hs (pfxCreateCmd_fits hc hmdl hpart hv hfirst hcount hn hlo hhi ht hper hrun hfits hwhole hfrozen hset hnew)
  case create =>
    intro n hs hc hn
    obtain ⟨d, hb, hadp, hline, hses⟩ := adpCreateCmd_of_free (x := (s₀.reach (cmdKey c)).ctx) hown hshare hroom hc hn
    exact ⟨d, hostCmd_done hs hb, hadp, hline, hses⟩
  case replace => exact fun l hs hc hl hbytes => hostCmd_done hs (adpReplaceCmd_of_line hown hshare hroom hc hl hbytes)
  case retire =>
    intro m k l hs hc hown hl
    obtain ⟨n, d, hb, hlines, hses⟩ := adpRetireCmd_of_line (x := (s₀.reach (cmdKey c)).ctx) hown hc hl
    exact ⟨n, d, hostCmd_done hs hb, hlines, hses⟩
  case start =>
    intro k id hs hmdl hpart hc hsteps hmut hrun hmapped hmut' hroom hid
    exact hostCmd_accept hs (trnStartCmd_of_room hmdl hpart hc hsteps hmut hrun hmapped hmut' hroom hid)

end Sys2Proof.Machine
end

section
/-! Spill, fetch-back, training steps and the split of energy (R223-R225, R249, R258, R259). -/

namespace Sys2Proof.Machine

section
variable {x : Ctx} {d : Dev} {p : Nat}

/-! ### Spill and fetch-back (R223-R225) -/

theorem spillStart_of_enough (h : d.poolBelow p (d.spillHigh p) = false) :
    spillStart p x d = { d with mem := { d.mem with spilling := d.mem.spilling.filter (· != p) } } := by
  unfold spillStart
  rw [h]
  rfl

theorem spillStart_of_short (h : d.poolBelow p (d.spillHigh p) = true)
    (hlow : d.poolBelow p (d.spillLow p) = true ∨ d.mem.spilling.contains p = true) :
    spillStart p x d = ({ d with mem := { d.mem with spilling := addNum p d.mem.spilling } } : Dev).spillMany x p 64 := by
  unfold spillStart
  dsimp only
  rw [if_neg (by simp [h]), if_pos (by rw [Bool.or_eq_true]; exact hlow)]

section
variable {id l j u a g : Nat} {h : Word} {src : CmdSrc} {woken : Bool} {d' d1 : Dev}

theorem spillSwitch_of_page (hop : tget d.ops id = some ⟨src, p, .spill h l j u true, woken⟩) (hdesc : d.hasDesc id = true)
    (hhome : d.pageHome h l j = some (.hbm a))
    (hd : d' = ((((d.setPage h l j fun pg => { pg with spilled := true, home := .nand u }).release x (.hbm a) (.nand u)).bumpPart p
      0x04030C 1).charge h 3 32768)) (hd1 : d1 = { d'.freeDesc id with ops := tdel d'.ops id }) :
    spillSwitch id x d = (if (woken || !(d.fetchesOf h).isEmpty || (d.sesOf h).elim false fun e => e.state == .waiting) then d1.fetchBack x h
      else d1).schedule x := by
  subst hd hd1
  unfold spillSwitch
  rw [hop]
  dsimp only
  rw [if_pos hdesc, hhome]

theorem fetchSwitch_of_page (hop : tget d.ops id = some ⟨src, p, .fetchBack h l j (some g), woken⟩)
    (hgo : d.reach x .culm (1, id) [(granAddr g, 32768)] = (.go, d')) (hhome : d'.pageHome h l j = some (.nand u))
    (hd1 : d1 = ((({ d' with ops := tdel d'.ops id } : Dev).copyTo x (.nand u) (granAddr g)).setPage h l j
      fun pg => { pg with spilled := false, home := .hbm (granAddr g) })) :
    fetchSwitch id x d = (((d1.freeUnits [u]).charge h 2 32768).fetchDone x h).schedule x := by
  subst hd1
  have hhome' : ({ d' with ops := tdel d'.ops id } : Dev).pageHome h l j = some (.nand u) := hhome
  unfold fetchSwitch
  rw [hop]
  refine (Dev.once_of_go _ hgo).trans ?_
  dsimp only
  rw [hhome']

/-- FETCH_BACK_PAGE_PLACE: the oldest fetch-back of the partition that has no granule takes one. -/
theorem fetchPlace_of_oldest {e : Ses} {k : Kv} {l1 l2 : List (Nat × Op)}
    (hops : d.ops = l1 ++ (id, ⟨src, p, .fetchBack h l j none, woken⟩) :: l2)
    (hfirst : ∀ o ∈ l1, o.2.part = p → ∀ (h : Word) (l j : Nat), o.2.kind ≠ .fetchBack h l j none) (he : d.sesOf h = some e) (hk : e.kv = some k)
    (hhome : (d.pageHome h l j).elim false Home.isNand = true)
    (htake : d.takeMember p k.set .kv 8 ((l + k.pfxPages + j) % 8) = some (g, d')) :
    fetchPlace p x d = d'.setOp id (.fetchBack h l j (some g)) := by
  obtain ⟨u, hu⟩ : ∃ u, d.pageHome h l j = some (.nand u) := by
    cases hp : d.pageHome h l j with
    | none => simp [hp] at hhome
    | some r =>
      cases r with
      | nand u => exact ⟨u, rfl⟩
      | hbm a => simp [hp, Home.isNand] at hhome
  have hkv : (d.sesOf h).bind Ses.kv = some k := by rw [he, Option.bind_some, hk]
  unfold fetchPlace
  dsimp only
  rw [hops, List.find?_append, List.find?_eq_none.2, Option.none_or, List.find?_cons_of_pos]
  · dsimp only
    rw [hkv, hu]
    dsimp only
    rw [htake]
  · simp
  · intro o ho hcond
    rw [Bool.and_eq_true, beq_iff_eq] at hcond
    obtain ⟨hpart, hkind⟩ := hcond
    split at hkind
    case h_1 h' l' j' hk' => exact hfirst o ho hpart h' l' j' hk'
    case h_2 => exact Bool.false_ne_true hkind

end

/-! ### Training steps (R249) -/

/-- What differs is the core grid or the paths of event records. -/
def OnlyGrid (d d' : Dev) : Prop := ∃ g p, d' = { d with grid := g, paths := p }

namespace OnlyGrid
variable {d d' d'' : Dev}

theorem refl (d : Dev) : OnlyGrid d d := ⟨_, _, rfl⟩

theorem trans (h : OnlyGrid d d') (h' : OnlyGrid d' d'') : OnlyGrid d d'' := by
  obtain ⟨_, _, rfl⟩ := h
  obtain ⟨_, _, rfl⟩ := h'
  exact ⟨_, _, rfl⟩

theorem of_paths (h : OnlyPaths d d') : OnlyGrid d d' := by
  obtain ⟨_, rfl⟩ := h
  exact ⟨_, _, rfl⟩

theorem foldl {α : Type} {f : Dev → α → Dev} (hf : ∀ e a, OnlyGrid e (f e a)) (l : List α) : ∀ d, OnlyGrid d (l.foldl f d) := by
  induction l with
  | nil => exact refl
  | cons a l ih => exact fun d => (hf d a).trans (ih _)

end OnlyGrid

theorem Dev.setMdl_grid (d : Dev) (m : Nat) (k : Mdl) : OnlyGrid d (d.setMdl m k) := ⟨_, _, rfl⟩

theorem Dev.setCore_grid (d : Dev) (n : Nat) (c : Core) : OnlyGrid d (d.setCore n c) := ⟨_, _, rfl⟩

theorem Dev.compare_grid (d : Dev) (n m : Nat) (r : Nat × Nat) : OnlyGrid d (d.compare x n m r) := by
  unfold Dev.compare
  split
  · exact .refl d
  · dsimp only
    split
    · exact ⟨_, _, rfl⟩
    · split
      · exact (Dev.setMdl_grid ..).trans (.of_paths (onlyPaths_recPart ..))
      · exact ⟨_, _, rfl⟩

theorem Dev.mergeSamples_grid (d : Dev) (m n : Nat) : OnlyGrid d (d.mergeSamples x m n) := by
  unfold Dev.mergeSamples
  refine (OnlyGrid.foldl (fun e r => Dev.compare_grid (x := x) e n m r) (d.core n).errs d).trans (OnlyGrid.trans ?_ (Dev.setCore_grid ..))
  generalize List.foldl _ _ _ = e
  cases e.mdl m with
  | none => exact .refl e
  | some k => exact Dev.setMdl_grid ..

/-- Counts and samples that reach a model change the grid, and may send a record. -/
theorem Dev.mergeCounts_grid (d : Dev) (m : Nat) : OnlyGrid d (d.mergeCounts x m) := by
  unfold Dev.mergeCounts
  refine (OnlyGrid.foldl (fun e n => Dev.mergeSamples_grid (x := x) e m n) ((d.mdl m).elim [] Mdl.cores) d).trans ?_
  generalize List.foldl _ _ _ = e
  dsimp only
  split
  · exact .refl e
  case h_2 k _ =>
    refine (OnlyGrid.foldl (fun e n => Dev.setCore_grid e n { e.core n with ovf := [], unf := [], nanc := [] }) k.cores e).trans ?_
    generalize List.foldl _ e k.cores = e'
    split
    · exact Dev.setMdl_grid ..
    · split
      · exact (Dev.setMdl_grid ..).trans (.of_paths (onlyPaths_recPart ..))
      · exact Dev.setMdl_grid ..

/-- Cores changed one after another, each by the same rule, to what does not depend on the core's former state. -/
theorem Dev.core_foldl_setCore {P : Core → Prop} {f : Core → Core} (hf : ∀ c, P (f c)) (l : List Nat) (n : Nat) :
    ∀ d : Dev, n ∈ l ∨ P (d.core n) → P ((l.foldl (fun d n => d.setCore n (f (d.core n))) d).core n) := by
  induction l with
  | nil =>
    rintro d (h | h)
    · cases h
    · exact h
  | cons i l ih =>
    intro d h
    refine ih _ ?_
    by_cases hi : n = i
    · subst hi
      right
      rw [Dev.core_setCore_same]
      exact hf _
    · obtain h | h := h
      · exact .inl ((List.mem_cons.1 h).resolve_left hi)
      · right
        have hsame : (d.setCore i (f (d.core i))).core n = d.core n := tgetD_tset_other _ _ _ hi
        rwa [hsame]

section
variable {id : Nat} {j : TrainJob} {k : Mdl} (hj : tget d.sch.jobs id = some j) (hk : d.mdl j.model = some k)
include hj hk

/-- A training step that starts: its job and the cores of its placement are in it. -/
theorem trnStepStart_effect (hst : j.st ≠ 2) (hin : j.inStep = false) (hres : d.resident j.model = true) (hidle : d.idleFor j.part = true) :
    tget (trnStepStart id x d).sch.jobs id = some { j with st := 1, inStep := true } ∧
      (∀ n ∈ k.cores, ((trnStepStart id x d).core n).inStep = true ∧ ((trnStepStart id x d).core n).fresh = true ∧
        ((trnStepStart id x d).core n).done = false) ∧ (trnStepStart id x d).mem = d.mem ∧ (trnStepStart id x d).ses = d.ses := by
  have hmdl : ({ d with sch := { d.sch with jobs := tset d.sch.jobs id { j with st := 1, inStep := true } } } : Dev).mdl j.model = some k := hk
  unfold trnStepStart
  rw [hj]
  dsimp only
  rw [if_neg (by simp [hst, hin, hres, hidle]), hmdl]
  dsimp only
  obtain ⟨g, q, hfold⟩ := OnlyGrid.foldl (fun e n => Dev.setCore_grid e n { e.core n with inStep := true, fresh := true, done := false, engineNs := 0 })
    k.cores { d with sch := { d.sch with jobs := tset d.sch.jobs id { j with st := 1, inStep := true } } }
  refine ⟨?_, fun n hn => ?_, ?_⟩
  · rw [hfold]
    exact tget_tset_same ..
  · exact Dev.core_foldl_setCore (P := fun c => c.inStep = true ∧ c.fresh = true ∧ c.done = false)
      (f := fun c => { c with inStep := true, fresh := true, done := false, engineNs := 0 }) (fun c => ⟨rfl, rfl, rfl⟩) k.cores n _ (.inl hn)
  · rw [hfold]
    exact ⟨rfl, rfl⟩

/-- A training step that ends before the last: the job counts it. -/
theorem trainBoundary_effect (hin : j.inStep = true) (hdone : ∀ n ∈ k.cores, (d.core n).done = true)
    (hgone : (tget d.ops j.op).elim false Op.aborted = false) (hstop : j.stop = false) (hmore : j.donesteps + 1 < j.steps) :
    tget (trainBoundary id x d).sch.jobs id = some { j with donesteps := j.donesteps + 1, inStep := false, st := 0 } ∧
      (trainBoundary id x d).mem = d.mem ∧ (trainBoundary id x d).ses = d.ses := by
  have hend : ¬ ((!j.inStep) = true ∨ (!(((d.mdl j.model).elim [] Mdl.cores).all fun n => (d.core n).done)) = true) := by
    rw [hk, Option.elim_some, hin, List.all_eq_true.2 hdone]
    decide
  unfold trainBoundary
  rw [hj]
  dsimp only
  rw [if_neg hend, hk]
  obtain ⟨g, q, hgrid⟩ := ((Dev.setMdl_grid d j.model { k with preBytes := 0 }).trans (Dev.mergeCounts_grid (x := x) _ j.model)).trans
    (OnlyGrid.foldl (fun e n => Dev.setCore_grid e n { e.core n with inStep := false, fresh := false, done := false }) k.cores _)
  simp only [Option.elim_some, hgrid]
  rw [if_neg, if_neg]
  · exact ⟨tget_tset_same .., rfl, rfl⟩
  · simp only [hstop, Bool.false_eq_true, or_false]
    omega
  · exact ne_true_of_eq_false hgone

end

/-! ### The split of energy (R259) -/

theorem energySplit_of_no_time {e : Nat} (hp : p < 16) (hnew : tgetD d.sch.split p 0 < x.meter.made) (he : e = (x.meter.energy[p]?).getD 0)
    (hzero : nsum ((d.sch.nsThisSec.filter fun n => n.1 / 2 ^ 24 == p).map Prod.snd) = 0) :
    energySplit p x d = { d with sch := { d.sch with
      energy := addTo d.sch.energy p e
      unattr := addTo d.sch.unattr p e
      nsThisSec := d.sch.nsThisSec.filter fun n => n.1 / 2 ^ 24 != p
      split := tset d.sch.split p x.meter.made } } := by
  subst he
  unfold energySplit
  rw [if_neg (by omega)]
  simp only [hzero, if_true, Nat.sub_zero]

end

/-- Settles O31: moves of pages by the operation that carries them; a training step through the frame of what a model's counts change. -/
theorem attentionEventsTakeEffect : Obligations.AttentionEventsTakeEffect := by
  unfold Obligations.AttentionEventsTakeEffect
  intro s hp
  refine ⟨fun p => ⟨?enough, ?short⟩, ?spill, ?fetch, ?place, fun id j k hj hk => ⟨?start, ?boundary⟩, ?energy⟩
  case enough =>
    rintro h s₀ rfl
    exact onDev_eq hp (spillStart_of_enough h)
  case short =>
    rintro h hlow s₀ rfl
    exact onDev_eq hp (spillStart_of_short h hlow)
  case spill =>
    rintro id p l j u a h src woken d d1 hop hdesc hhome hd hd1 s₀ rfl
    exact onDev_eq hp (spillSwitch_of_page hop hdesc hhome hd hd1)
  case fetch =>
    rintro id p l j g u h src ab d d1 hop hgo hhome hd1 s₀ rfl
    exact onDev_eq hp (fetchSwitch_of_page hop hgo hhome hd1)
  case place =>
    rintro id p l j g h src ab e k d l1 l2 hops hfirst he hk hhome htake s₀ rfl
    exact onDev_eq hp (fetchPlace_of_oldest hops hfirst he hk hhome htake)
  case start =>
    rintro hst hin hres hidle s₀ rfl
    exact ⟨_, onDev_eq hp rfl, trnStepStart_effect hj hk hst hin hres hidle⟩
  case boundary =>
    rintro hin hdone hgone hstop hmore s₀ rfl
    exact ⟨_, onDev_eq hp rfl, trainBoundary_effect hj hk hin hdone hgone hstop hmore⟩
  case energy =>
    rintro p e hlt hnew he hzero s₀ rfl
    exact onDev_eq hp (energySplit_of_no_time hlt hnew he hzero)

end Sys2Proof.Machine
end

section
/-! The text commands and Spelt's lanes (R261-R276, R284, R290, R291). -/

namespace Sys2Proof.Machine

section
variable {x : Ctx} {q : Req} {d : Dev}

/-! ### Text of a request (R260) -/

/-- REQ_SUBMIT of a text that can be read: a request is started where none runs, joined in any case, and the text goes to Spelt. -/
theorem reqSubmitCmd_of_text {e : Ses} {text : List Byte} {bad : Bool} {tr : TxtReq} {d1 d2 d3 : Dev} {off num : Nat}
    (hlook : d.lookup q.part (q.w 2) = .ok e)
    (hc : q.clean [(2, top32), (3, top32), (4, 0xFF), (5, top32), (6, top32), (7, top32)] = true) (hlo : 1 ≤ (q.w 5).toNat)
    (hhi : (q.w 5).toNat ≤ 16777216) (hfree : e.state ≠ .free) (hmoving : e.state ≠ .moving) (hclosing : e.state ≠ .closing)
    (hoff : off = bufOff (q.w 3).toNat (q.f 4 7 0)) (hopen : d.bufSealed q.part off (q.w 5).toNat = false)
    (hread : d.bufRead q.part off (q.w 5).toNat = some (text, bad)) (htr : d.sesText (q.w 2) e (.submit q.seq) off text bad false = some tr)
    (hd1 : d1 = (if e.request = 0 then d.startReq x (q.w 2) (q.d2 6) true else d)) (hnum : num = (d1.sesOf (q.w 2)).elim 0 Ses.request)
    (hjoin : ∀ t, d1.req num = some t → d2 = d1.setReq num { t with ops := t.ops ++ [q.seq] }) (hnone : d1.req num = none → d2 = d1)
    (hd3 : d3 = d2.addText tr) :
    reqSubmitCmd x q d = .accept [wd num] (.submit (q.w 2) num none) (d3.submitRevive x (q.w 2)) := by
  subst hoff hd3
  unfold reqSubmitCmd
  dsimp only
  rw [hlook]
  dsimp only
  rw [if_neg (by simp only [hc, Bool.not_true, Bool.false_eq_true, false_or]; omega), if_neg (by simp [hfree, hmoving, hclosing]),
    if_neg (ne_true_of_eq_false hopen), hread]
  dsimp only
  rw [htr]
  dsimp only
  rw [← hd1, ← hnum]
  cases h : d1.req num with
  | none => rw [hnone h]
  | some t => rw [hjoin t h]

/-! ### Tables, tokenizers and grammars -/

theorem tableLoadCmd_of_free (hc : q.clean [(2, top32), (3, top32), (4, top32), (5, 0x703), (6, top32)] = true)
    (hfree : d.sliceBusy q.part 8 = false) :
    tableLoadCmd x q d = .accept [] (.tableLoad (q.f 5 1 0) (q.f 5 10 8) (q.w 4).toNat (q.w 6)) d := by
  rw [tableLoadCmd, if_neg (by simp [hc]), if_neg (by simp [hfree])]

theorem modelTokCmd_of_model (hc : q.clean [(2, 0xFFFF), (3, 0x107)] = true) (hm : q.f 2 15 0 ≤ 4095) (hfree : d.sliceBusy q.part 8 = false) :
    ∃ w : List Word, modelTokCmd x q d = .done .ok w (d.setShd q.part { d.txtShd q.part with
      mmap := if bitAt (q.w 3).toNat 8 then tdel (d.txtShd q.part).mmap (q.f 2 15 0)
        else tset (d.txtShd q.part).mmap (q.f 2 15 0) (q.f 3 2 0) }) := by
  unfold modelTokCmd
  dsimp only
  rw [if_neg (by simp only [hc, Bool.not_true, Bool.false_eq_true, false_or]; omega), if_neg (by simp [hfree])]
  exact ⟨_, rfl⟩

section
variable (hc : q.clean [(2, 0x1070F), (3, top32)] = true) (hfree : d.sliceBusy q.part 8 = false)
  (hnew : tget (d.txtShd q.part).grams (q.f 2 3 0) = none)
include hc hfree hnew

theorem grammarSetCmd_drop (hdrop : bitAt (q.w 2).toNat 16 = true) :
    grammarSetCmd x q d = .done .ok [] (d.setShd q.part { d.txtShd q.part with grams := tdel (d.txtShd q.part).grams (q.f 2 3 0) }) := by
  unfold grammarSetCmd
  dsimp only
  rw [if_neg (by simp [hc]), if_neg (by simp [hfree]), if_pos hdrop, hnew]
  rfl

theorem grammarSetCmd_set {o : Share} (hset : bitAt (q.w 2).toNat 16 = false) (ho : d.share (q.w 3).toNat = some o) (hpart : o.part = q.part)
    (hown : o.own = true) (hseal : o.sealed = false) (hok : d.grammarOk o = true) :
    grammarSetCmd x q d = .done .ok [wd (leAt (d.shareRead o 0 64) 4 4), wd (leAt (d.shareRead o 0 64) 8 4)]
      ((d.shareRef (q.w 3).toNat).setShd q.part { d.txtShd q.part with
        grams := tset (d.txtShd q.part).grams (q.f 2 3 0) ((q.w 3).toNat, q.f 2 10 8) }) := by
  unfold grammarSetCmd
  dsimp only
  rw [if_neg (by simp [hc]), if_neg (by simp [hfree]), if_neg (by simp [hset]), ho]
  dsimp only
  rw [if_neg (by simp [hpart, hown, hseal]), if_neg (by simp [hok]), hnew]
  rfl

end

section
variable {e : Ses} (hlook : d.lookup q.part (q.w 2) = .ok e) (hc : q.clean [(2, top32)] = true)
include hlook hc

theorem txtQueryCmd_idle (hreq : d.req e.request = none) : txtQueryCmd x q d = .done .ok [0, 0, 0] d := by
  rw [txtQueryCmd, hlook]
  dsimp only
  rw [if_neg (by simp [hc]), hreq]

theorem txtQueryCmd_grammar {t : Request} {g : GramSt} (hreq : d.req e.request = some t) (hg : t.gram = some g) :
    txtQueryCmd x q d = .done .ok [wd g.state, wd (g.stack.length + t.hold.length * 65536), wd t.generated] d := by
  rw [txtQueryCmd, hlook]
  dsimp only
  rw [if_neg (by simp [hc]), hreq]
  simp only [hg, Option.elim_some]

end

/-! ### Text to tokens and back (R276, R291) -/

section
variable {k off : Nat} {sl : TokSlot} {text : List Byte} {bad : Bool} (hslot : d.tokSlot q.part (q.f 2 15 0) = some (k, sl))
  (hoff : off = bufOff (q.w 3).toNat (q.f 4 7 0)) (hlen : (q.w 5).toNat ≠ 0)
include hslot hoff hlen

theorem tokenizeCmd_of_text (hc : q.clean [(2, 0x1FFFF), (3, top32), (4, 0xFF), (5, top32), (6, top32), (7, 0xFF), (8, top32)] = true)
    (hopen : d.bufSealed q.part off (q.w 5).toNat = false) (hread : d.bufRead q.part off (q.w 5).toNat = some (text, bad)) :
    tokenizeCmd x q d = .accept [] (.tokenize (bufOff (q.w 6).toNat (q.f 7 7 0)) (q.w 8).toNat)
      (d.addText ⟨0, 2, q.part, 0, .tokenize q.seq, text, bad, bitAt (q.w 2).toNat 16, some k, sl, d.vocabSize q.part k, none, none,
        false, (q.w 8).toNat, q.f 2 15 0, off, false⟩) := by
  subst hoff
  unfold tokenizeCmd
  dsimp only
  rw [hslot]
  dsimp only
  rw [if_neg (by simp [hc, hlen]), if_neg (ne_true_of_eq_false hopen), hread]

theorem detokenizeCmd_of_tokens (hc : q.clean [(2, 0xFFFF), (3, top32), (4, 0xFF), (5, top32), (6, top32), (7, 0xFF), (8, top32)] = true)
    (hcap : (q.w 5).toNat ≤ tokCap) (hopen : d.bufSealed q.part off (4 * (q.w 5).toNat) = false)
    (hread : d.bufRead q.part off (4 * (q.w 5).toNat) = some (text, bad)) :
    detokenizeCmd x q d = .accept [] (.detok (bufOff (q.w 6).toNat (q.f 7 7 0)) (q.w 8).toNat)
      (d.addText ⟨0, 2, q.part, 0, .detok q.seq, text, bad, false, some k, sl, d.vocabSize q.part k, none, none, false,
        (q.w 8).toNat, q.f 2 15 0, off, false⟩) := by
  subst hoff
  unfold detokenizeCmd
  dsimp only
  rw [hslot]
  dsimp only
  rw [if_neg (by simp [hc, hlen, hcap]), if_neg (ne_true_of_eq_false hopen), hread]

end
end

/-! ### Spelt's lanes (R272, R276) -/

section
variable {x : Ctx} {d : Dev} {die l : Nat} {tr : TxtReq}

section
variable {d' : Dev} (hdie : die < 2) (hlane : d.freeLane die = some l) (hnext : d.nextText die = some tr)
include hdie hlane hnext

theorem speltIntake_go (h : d.reach x .spelt (9, tr.id) (d.runAddrs tr.part tr.off tr.text.length) = (.go, d')) :
    speltIntake die x d = d'.setText { d'.bindText tr with die := die, lane := some l } := by
  rw [speltIntake, hlane, hnext]
  dsimp only
  rw [if_neg (Nat.not_le.2 hdie), h]

theorem speltIntake_busy (h : d.reach x .spelt (9, tr.id) (d.runAddrs tr.part tr.off tr.text.length) = (.busy, d')) :
    speltIntake die x d = d'.setText { d'.bindText tr with die := die, lane := some l, poisoned := true, busy := true } := by
  rw [speltIntake, hlane, hnext]
  dsimp only
  rw [if_neg (Nat.not_le.2 hdie), h]

end

/-- A lane's request is taken out, its drain ends, and the meter's tap counts its bytes. -/
def Dev.textOut (d : Dev) (tr : TxtReq) : Dev :=
  (({ d with txt := { d.txt with reqs := d.txt.reqs.filter fun t => t.id != tr.id } } : Dev).drainEnd (drainId 24 tr.id)).tapAdd
    tr.part 7 tr.text.length

section
variable (hfind : d.txt.reqs.find? (fun t => t.die == die && t.lane == some l) = some tr)
include hfind

theorem speltEnd_slot {n : Nat} (h : tr.src = .slot n) : speltEnd die l x d = (d.textOut tr).sesTextEnd x tr := by
  rw [speltEnd, hfind]
  simp only [h]
  rfl

theorem speltEnd_submit {op : Nat} (h : tr.src = .submit op) : speltEnd die l x d = (d.textOut tr).sesTextEnd x tr := by
  rw [speltEnd, hfind]
  simp only [h]
  rfl

theorem speltEnd_tokenize {op : Nat} (h : tr.src = .tokenize op) : speltEnd die l x d = (d.textOut tr).tokenizeEnd x tr op := by
  rw [speltEnd, hfind]
  simp only [h]
  rfl

theorem speltEnd_detok {op : Nat} (h : tr.src = .detok op) : speltEnd die l x d = (d.textOut tr).detokEnd x tr op := by
  rw [speltEnd, hfind]
  simp only [h]
  rfl

end
end

/-- Settles O33: each command by its own lemma; the end of a lane's request by what the text came from. -/
theorem textRowsTakeEffect : Obligations.TextRowsTakeEffect := by
  unfold Obligations.TextRowsTakeEffect
  refine ⟨?commands, ?intake, ?lane⟩
  case commands =>
    rintro s₀ s c r q rfl rfl
    refine ⟨?submit, fun hs hc hfree => hostCmd_accept hs (tableLoadCmd_of_free hc hfree), ?model, fun hs hc hfree => ⟨?drop, ?set⟩,
      fun e hs hlook hc hreq => hostCmd_done hs (txtQueryCmd_idle hlook hc hreq),
      fun e t g hs hlook hc hreq hg => hostCmd_done hs (txtQueryCmd_grammar hlook hc hreq hg), fun k off sl text bad hslot hoff => ⟨?tokenize, ?detok⟩⟩
    case submit =>
      intro e text bad tr d1 d2 d3 off num hs hlook hc hlo hhi hfree hmoving hclosing hoff hopen hread htr hd1 hnum hd2 hd3
      exact hostCmd_accept hs (reqSubmitCmd_of_text hlook hc hlo hhi hfree hmoving hclosing hoff hopen hread htr hd1 hnum
        (fun t h => by rw [hd2, h]) (fun h => by rw [hd2, h]) hd3)
    case model =>
      intro hs hc hm hfree
      obtain ⟨w, hb⟩ := modelTokCmd_of_model (x := (s₀.reach (cmdKey c)).ctx) hc hm hfree
      exact ⟨w, hostCmd_done hs hb⟩
    case drop => exact fun hdrop hnew => hostCmd_done hs (grammarSetCmd_drop hc hfree hnew hdrop)
    case set =>
      exact fun o hset hnew ho hpart hown hseal hok => hostCmd_done hs (grammarSetCmd_set hc hfree hnew hset ho hpart hown hseal hok)
    case tokenize => exact fun hs hc hlen hopen hread => hostCmd_accept hs (tokenizeCmd_of_text hslot hoff hlen hc hopen hread)
    case detok => exact fun hs hc hlen hcap hopen hread => hostCmd_accept hs (detokenizeCmd_of_tokens hslot hoff hlen hc hcap hopen hread)
  case intake =>
    intro s die l tr d hp hdie hlane hnext
    refine ⟨fun h => ?_, fun h => ?_⟩ <;> rintro s₀ rfl
    · exact onDev_eq hp (speltIntake_go hdie hlane hnext h)
    · exact onDev_eq hp (speltIntake_busy hdie hlane hnext h)
  case lane =>
    rintro s die l tr d hp hfind rfl
    refine ⟨fun n h => ?_, fun op h => ?_, fun op h => ?_, fun op h => ?_⟩ <;> rintro s₀ rfl
    · exact onDev_eq hp (speltEnd_slot hfind h)
    · exact onDev_eq hp (speltEnd_submit hfind h)
    · exact onDev_eq hp (speltEnd_tokenize hfind h)
    · exact onDev_eq hp (speltEnd_detok hfind h)

end Sys2Proof.Machine
end

section
/-! The events of Ethernet ports and of queue pairs (R293-R322). -/

namespace Sys2Proof.Machine

section
variable {x : Ctx} {d : Dev}

/-! ### Ports (R293-R295) -/

theorem frameIn_good {f : Frame} (h : frameOk f = true) : frameIn f x d = d := if_pos (.inr h)

theorem frameIn_bad {f : Frame} (hsub : f.sub < 16) (h : frameOk f = false) : frameIn f x d = d.dropFrame f.sub :=
  if_neg (by simp [h, hsub])

theorem pfcIn_of_enabled {sub prio : Nat} (xoff : Bool) (hsub : sub < 16) (hprio : prio < 8)
    (hen : bitAt (fld (d.devReg (0x090100 + sub / 4 * 4)) 23 16) prio = true) :
    pfcIn sub prio xoff x d = { d with net := { d.net with
      paused := tset d.net.paused sub (if xoff then setBit (tgetD d.net.paused sub 0) prio else clrBit (tgetD d.net.paused sub 0) prio) } } :=
  if_pos ⟨hsub, hprio, hen⟩

theorem arpIn_of_own {sub t : Nat} (h : ∃ g ∈ d.net.gids, g.1 / 16 = sub ∧ g.2.valid = true ∧ g.2.addr = t) :
    arpIn sub t x d = d.out (.arp sub t) := by
  refine if_pos (List.any_eq_true.2 ?_)
  obtain ⟨g, hg, hsub, hvalid, haddr⟩ := h
  exact ⟨g, hg, by simp [hsub, hvalid, haddr]⟩

theorem linkChange_down {sub : Nat} (hsub : sub < 16) (h : bitAt d.net.links sub = true) :
    linkChange sub false x d =
      ({ d with net := { d.net with links := clrBit d.net.links sub } } : Dev).recDev x .alarm 5 (netSource sub) 0 0 0 :=
  if_neg (by simp [h, hsub])

theorem linkChange_up {sub : Nat} (hsub : sub < 16) (h : bitAt d.net.links sub = false) :
    linkChange sub true x d =
      (({ d with net := { d.net with links := setBit d.net.links sub } } : Dev).startRecover x sub).recDev x .alarm 5 (netSource sub) 1 0 0 :=
  if_neg (by simp [h, hsub])

/-! ### Packets (R296) -/

/-- A packet that is whole and is addressed to a connected queue pair on chip reaches the queue pair. -/
theorem Dev.packetIn_of_own {p : Packet} {q : Qp} {g : Gid} (hq : d.qp p.qpn = some q) (hg : d.gidOf q = some g) (hsub : q.sub = p.sub)
    (hvalid : g.valid = true) (haddr : g.addr = p.dst) (hvlan : g.vlan = p.vlan) (howner : g.owner = q.part) (hicrc : p.icrcOk = true)
    (hpkey : p.pkey = 0xFFFF) (hdport : p.dport = (if p.mp.isSome = true then d.mpPort else rocePort)) (hst : q.st = 1) (hplace : q.place = .chip) :
    d.packetIn x p = d.rxQp x p.qpn p := by
  unfold Dev.packetIn
  rw [hq]
  dsimp only
  rw [hg, Option.elim_some, if_neg (by simp [hicrc, hpkey, hdport]), if_neg (by simp [hsub, hvalid, haddr, hvlan, howner]), if_neg (by simp [hst]),
    hplace]

theorem extIn_of_send {p : Packet} (hmp : p.mp.isSome = true) (hbth : p.bth = .sendOnly) : extIn p x d = d.packetIn x p :=
  if_pos (by simp [hmp, hbth])

theorem rcIn_of_send {p : Packet} (hmp : p.mp = none) (hbth : p.bth = .sendOnly) : rcIn p x d = d.packetIn x p :=
  if_pos (by simp [hmp, hbth])

/-! ### Queue pairs (R302-R304, R310, R314, R319, R322) -/

section
variable {n msn : Nat} {q : Qp} (hq : d.qp n = some q)
include hq

/-- MESSAGE_COMPLETE of a message of an extended queue pair that claims no event write: answered, counted and completed. -/
theorem msgComplete_of_whole {m : Reasm} {d' : Dev} (hm : tget q.reasm msn = some m) (hw : m.whole = true) (hext : q.ext = true)
    (hewr : m.ewr = none) (hd : d' = ((d.setQp n { q with reasm := tdel q.reasm msn }).unpinMsg q m).answer n msn .ok) :
    msgComplete n msn x d = ((if m.write = true then d'.countPlaced n m.base m.len else d').complete x n q m .ok).reedSettle x := by
  subst hd
  unfold msgComplete
  rw [hq]
  dsimp only
  rw [hm]
  dsimp only
  rw [if_neg (by simp [hw]), if_pos hext, hewr]

section
variable {w : Send} (hfind : q.sends.find? (fun w => w.started && w.msn == msn) = some w) (hext : q.ext = true)
include hfind hext

theorem ackTimeout_of_due (hwire : w.onWire = true) (hrnr : w.rnrUntil = none) (ht : w.sentAt + q.rto ≤ x.now) (hst : q.st = 1) :
    ackTimeout n msn x d = (d.retry x n w.op 0).afterSends x n := by
  have hdue : ¬ ((!w.onWire) = true ∨ w.rnrUntil.isSome = true ∨ w.sentAt + q.rto > x.now ∨ q.st ≠ 1) := by
    simp [hwire, hrnr, hst, ht]
  unfold ackTimeout
  rw [hq]
  dsimp only
  rw [hfind]
  dsimp only
  rw [if_neg hdue, if_pos hext]
  rfl

theorem rnrExpiry_of_due {t0 : Nat} (hrnr : w.rnrUntil = some t0) (ht : t0 ≤ x.now) : rnrExpiry n msn x d = d.resend x n w.op 0 := by
  unfold rnrExpiry
  rw [hq]
  dsimp only
  rw [hfind]
  dsimp only
  rw [if_neg (by simp [hrnr, ht]), if_pos hext]
  rfl

end

theorem cnpIn_of_connected {pr : ShProf} {fl : ShFlow} (hpr : pr = d.flowProf q.part (shDomain q.sub) (q.dscp / 8))
    (hfl : fl = d.shFlow q.sub q.part n (q.dscp / 8)) (hst : q.st = 1) :
    cnpIn n x d = d.setShFlow (flowBKey q.sub q.part n) { fl with
      cc := some (min (max (fl.cc.getD pr.rate * 7 / 8) (fld (d.partReg q.part 0x090024) 9 0 * 125)) pr.rate), quiet := 0 } := by
  subst hpr hfl
  unfold cnpIn
  rw [hq]
  exact if_neg (by simp [hst])

theorem reasmTimeout_of_due {m : Reasm} (hm : tget q.reasm msn = some m) (hw : m.whole = false) (ht : m.last + 4 * q.rto ≤ x.now)
    (hsrq : m.srq = none) (hewr : m.ewr = none) : reasmTimeout n msn x d = d.closeMsg n msn := by
  unfold reasmTimeout
  rw [hq]
  dsimp only
  rw [hm]
  dsimp only
  rw [if_neg (by simp [hw, ht]), if_neg (by simp [hsrq]), hewr]

/-- CONTEXT_FETCH_COMPLETE where the die has a place: the held packets go in, in arrival order. -/
theorem ctxFetched_of_place {d' e : Dev} (hf : q.fetching = true) (hd : (d.modQp n fun q => { q with fetching := false }).makePlace q.die = some d')
    (he : e = ((q.held.mapIdx fun i p => (i, p)).foldl (fun d e => d.underOld 9 (drainId 9 (n * 16 + e.1)) fun d => d.rxQp x n e.2)
      (d'.setQp n { q with place := .chip, fetching := false, fetchAt := none, held := [], used := x.now })).heldDrain n) :
    ctxFetched n x d = (e.modQp n fun q =>
      { q with reasm := q.reasm.map fun m => (m.1, { m.2 with waited := m.2.waited || m.2.last == x.now }) }).afterSends x n := by
  subst he
  unfold ctxFetched
  rw [hq]
  dsimp only
  rw [if_neg (by simp [hf]), hd]

theorem ctxExpired_of_due {t0 : Nat} (hplace : q.place ≠ .chip) (hheld : q.held ≠ []) (hat : q.fetchAt = some t0) (ht : t0 + 2500 ≤ x.now) :
    ctxExpired n x d = (rnrHeads q.ext q.held).foldl (fun d p => d.sendRnr n (p.mp.elim 0 MpHdr.msn) p.psn)
      (((d.heldDrain n).setQp n { q with held := [], fetchAt := none, fetching := false }).bumpPart q.part 0x090010 q.held.length) := by
  unfold ctxExpired
  rw [hq]
  dsimp only
  rw [if_neg (by simp [hplace, hheld, hat, ht])]

end
end

/-- Settles O35: frames and packets by the checks at the port; events of a queue pair by its state. -/
theorem networkEventsTakeEffect : Obligations.NetworkEventsTakeEffect := by
  unfold Obligations.NetworkEventsTakeEffect
  refine ⟨fun s hp => ⟨?frame, ?pfc, ?arp, ?link⟩, ?packet, fun s n q hp hq => ⟨?complete, ?timers, ?cnp, ?reassembly, ?fetched, ?expired, ?release⟩⟩
  case frame =>
    intro f hsub
    refine ⟨fun h => ?_, fun h => ?_⟩ <;> rintro s₀ rfl
    · exact onDev_eq hp (frameIn_good h)
    · exact onDev_eq hp (frameIn_bad hsub h)
  case pfc =>
    intro sub prio hsub hprio hen
    constructor <;> rintro s₀ rfl
    · exact onDev_eq hp (pfcIn_of_enabled true hsub hprio hen)
    · exact onDev_eq hp (pfcIn_of_enabled false hsub hprio hen)
  case arp =>
    rintro sub t h s₀ rfl
    exact onDev_eq hp (arpIn_of_own h)
  case link =>
    intro sub hsub
    refine ⟨fun h => ?_, fun h => ?_⟩ <;> rintro s₀ rfl
    · exact onDev_eq hp (linkChange_down hsub h)
    · exact onDev_eq hp (linkChange_up hsub h)
  case packet =>
    intro s p q g hp hq hg hsub hvalid haddr hvlan howner hicrc hpkey hdport hst hplace
    have hin := Dev.packetIn_of_own (x := s.ctx) hq hg hsub hvalid haddr hvlan howner hicrc hpkey hdport hst hplace
    refine ⟨fun hmp hbth => ?_, fun hmp hbth => ?_, fun hbth => ?_, fun hbth => ?_⟩ <;> rintro s₀ rfl
    · exact onDev_eq hp ((extIn_of_send hmp hbth).trans hin)
    · exact onDev_eq hp ((rcIn_of_send hmp hbth).trans hin)
    · exact onDev_eq hp ((if_pos hbth).trans hin)
    · exact onDev_eq hp ((if_pos hbth).trans hin)
  case complete =>
    rintro msn m d hm hw hext hewr hd s₀ rfl
    exact onDev_eq hp (msgComplete_of_whole hq hm hw hext hewr hd)
  case timers =>
    intro msn w hfind hext
    refine ⟨fun hwire hrnr ht hst => ?_, fun t0 hrnr ht => ?_⟩ <;> rintro s₀ rfl
    · exact onDev_eq hp (ackTimeout_of_due hq hfind hext hwire hrnr ht hst)
    · exact onDev_eq hp (rnrExpiry_of_due hq hfind hext hrnr ht)
  case cnp =>
    rintro pr fl hpr hfl hst s₀ rfl
    exact onDev_eq hp (cnpIn_of_connected hq hpr hfl hst)
  case reassembly =>
    rintro msn m hm hw ht hsrq hewr s₀ rfl
    exact onDev_eq hp (reasmTimeout_of_due hq hm hw ht hsrq hewr)
  case fetched =>
    rintro hf d e hd he s₀ rfl
    exact onDev_eq hp (ctxFetched_of_place hq hf hd he)
  case expired =>
    rintro t0 hplace hheld hat ht s₀ rfl
    exact onDev_eq hp (ctxExpired_of_due hq hplace hheld hat ht)
  case release =>
    rintro s₀ rfl
    exact onDev_eq hp rfl

end Sys2Proof.Machine
end

section
/-! The rows of the shaper (R326-R335). -/

namespace Sys2Proof.Machine

/-- A unit of 64 bytes of partition 0 that waits at node 16. -/
def waitingFlow : ShFlow := ⟨0, ⟨1000000000, 1000, 1000, 64, 0⟩, [⟨64, .nand 9 1⟩], none, 0⟩

/-- A module at whose node 16 one unit waits, and where an operation of the network that no move and no checkpoint waits for has failed. -/
def shaping : State :=
  { State.reset with dev := { Dev.reset with
    net := { Dev.reset.net with failed := [1] }
    shp := ⟨[(16, ⟨⟨1000000000, 1000, 1000, 64, 0⟩, false, none, 0⟩)], [(partBKey 16 0, ⟨⟨1000000000, 1000, 1000, 64, 0⟩, 64, 0⟩)],
      [(flowBKey 16 0 7, waitingFlow)], true, none⟩ } }

/-- The deficits of the partitions when the unit is chosen. -/
def shapingDeficits : Tbl Nat := (List.range 16).map fun p => (p, if p = 0 then 64 else 0)

theorem shNext_shaping : shaping.dev.shNext 16 = some (0, flowBKey 16 0 7, ⟨64, .nand 9 1⟩, shapingDeficits) := by decide +kernel

/-- After the start of the unit Reed goes on, and forgets the failed operation. -/
theorem exec_shapedUnitStart_shaping :
    exec (.shapedUnitStart 16 0 7 64) shaping = .next (shaping.withDev (shapedRow 16 0 7 64 shaping.ctx shaping.dev)) ∧
      (shapedRow 16 0 7 64 shaping.ctx shaping.dev).net.failed = [] :=
  ⟨rfl, by decide +kernel⟩

/-- Refutes O36: the row of a unit's start also lets Reed go on, which drops the failed operations that nothing waits for; the statement says
that nothing follows the start of the unit. -/
theorem not_shaperRowsTakeEffect : ¬ Obligations.ShaperRowsTakeEffect := by
  unfold Obligations.ShaperRowsTakeEffect
  intro h
  obtain ⟨-, -, hstart⟩ := h shaping rfl
  obtain ⟨e, left, rfl, rfl, hexec⟩ := hstart 16 0 7 ⟨64, .nand 9 1⟩ shapingDeficits waitingFlow _ (by decide) shNext_shaping rfl (by decide +kernel)
  obtain ⟨hnext, hfailed⟩ := exec_shapedUnitStart_shaping
  have hsame := congrArg (fun u : State => u.dev.net.failed) (Host.Outcome.next.inj (hnext.symm.trans (hexec shaping rfl)))
  exact absurd (hfailed.symm.trans hsame) (by decide +kernel)

end Sys2Proof.Machine
end

section
/-! The Panicle commands (R337-R339, R341, R342, R346, R351, R352, R354). -/

namespace Sys2Proof.Machine

section
variable {x : Ctx} {q : Req} {d : Dev}

/-! ### Creation (R337-R339) -/

/-- What an index's place must be: every extent mapped to the partition, whole, on the index's die, outside COMPUTE regions, and in no other
index. -/
def IndexPlace (d : Dev) (p : Nat) (es : List Nat) (die : Nat) : Prop :=
  ∀ e ∈ es, d.allMapped p [e] = true ∧ d.extIndexed p e = false ∧ (d.extGrans p e).length = 64 ∧
    ∀ g ∈ d.extGrans p e, stackDie (stackOf (granAddr g)) = die ∧ d.computeAt (granAddr g) = false

theorem IndexPlace.not_indexed {p die : Nat} {es : List Nat} (h : IndexPlace d p es die) : es.any (d.extIndexed p) = false := by
  rw [List.any_eq_false]
  intro e he
  obtain ⟨-, hidx, -⟩ := h e he
  simp [hidx]

theorem IndexPlace.whole {p die : Nat} {es : List Nat} (h : IndexPlace d p es die) :
    (es.any fun e => (d.extGrans p e).length != 64 ||
      !(d.extGrans p e).all fun g => stackDie (stackOf (granAddr g)) == die && !d.computeAt (granAddr g)) = false := by
  rw [List.any_eq_false]
  intro e he
  obtain ⟨-, -, hlen, hgrans⟩ := h e he
  have hall : ((d.extGrans p e).all fun g => stackDie (stackOf (granAddr g)) == die && !d.computeAt (granAddr g)) = true := by
    rw [List.all_eq_true]
    intro g hg
    obtain ⟨hdie, hmem⟩ := hgrans g hg
    simp [hdie, hmem]
  rw [hall, hlen]
  decide

theorem idxCreate_of_place {i : PanIndex} {h : Nat}
    (hc : q.clean [(2, 0x7FFFF), (3, top32), (4, 0x3FF1FFF), (5, 0x7FF007F), (6, top32), (7, 0x7FF)] = true)
    (hi : i = ⟨q.part, (d.buf q.part q.first).elim 0 fun b => stackDie (stackOf b.base), q.first, (q.w 3).toNat, q.f 4 12 0, q.f 4 23 16,
      q.f 4 25 24, q.f 5 6 0, if q.f 5 26 16 = 0 then 128 else q.f 5 26 16, (q.w 6).toNat, if q.f 7 10 0 = 0 then 64 else q.f 7 10 0,
      0xFFFFFFFF, 1, 0, 0, 0, none, [], none⟩)
    (hrun : runOk q.first i.count = true) (hdims : 1 ≤ i.dims) (hdims' : i.dims ≤ 4096)
    (hfmt : i.fmt ∈ ([0x21, 0x20, 0x01, 0x02, 0x06, 0x05] : List Nat)) (hblock : i.fmt < 0x10 → i.dims % 32 = 0) (hmetric : i.metric < 3)
    (hdeg : 4 ≤ i.degree) (hdeg' : i.degree ≤ 64) (hefb : 16 ≤ i.efBuild) (hefb' : i.efBuild ≤ 1024) (hef : i.ef ≤ 1024) (hcap : 0 < i.cap)
    (hcap' : i.cap ≤ 1073741824) (hbytes : i.bytes ≤ i.count * 2097152) (hplace : IndexPlace d q.part (runExts q.first i.count) i.die)
    (hmapped : d.allMapped q.part (runExts q.first i.count) = true) (hfrozen : d.anyFrozen q.part (runExts q.first i.count) = false)
    (hmine : (d.pan.idx.filter fun j => j.2.part == q.part).length < 64) (hall : d.pan.idx.length < 256)
    (hsum : nsum ((d.pan.idx.filter fun j => j.2.part == q.part).map fun j => j.2.cap) + i.cap ≤ fld (d.devReg (0x0B0100 + q.part * 4)) 30 0)
    (hfree : (List.range 65535).find? (fun h => !thas d.pan.idx (h + 1)) = some h) :
    idxCreate x q d = .done .ok [wd (h + 1), wd i.rb] (((runExts q.first i.count).foldl (fun d e =>
      (d.extGrans q.part e).foldl (fun d g => d.hbmZero (granAddr g) 32768) d) d).setIdx x (h + 1) i) := by
  subst hi
  dsimp only at *
  unfold idxCreate
  dsimp only
  rw [if_neg, if_neg, if_neg, hfree]
  · omega
  · rw [hmapped, hfrozen, hplace.not_indexed, hplace.whole]
    simpa using hbytes
  · rw [hc, hrun, List.contains_iff_mem.2 hfmt]
    simp only [Bool.not_true, Bool.false_eq_true, false_or]
    omega

/-! ### Commands on an index -/

section
variable {h : Nat} {i : PanIndex} (hown : d.ownIdx q = some (h, i))
include hown

theorem idxDestroy_of_own (hc : q.clean [(2, 0xFFFF)] = true) :
    idxDestroy x q d = .accept [] (.other 0x0701 h 0 0) (d.modIdx h fun i => { i with destroy := some q.seq, listen := none }) := by
  rw [idxDestroy, if_neg (by simp [hc]), hown]

section
variable {n len : Nat} (hn : n = q.f 5 16 0) (hlo : 0 < n) (hhi : n ≤ 65536)
include hn hlo hhi

theorem panInsertCmd_of_records (hlen : len = n * (16 + 4 * i.dims))
    (hc : q.clean [(2, 0xFFFF), (3, top32), (4, 0xFF), (5, 0x1FFFF), (6, top32), (7, 0xFF)] = true)
    (hopen : d.bufSealed q.part (q.boff 3) len = false) (hread : (d.bufRead q.part (q.boff 3) len).isSome = true)
    (hout : (d.bufRun q.part true (runFuel (4 * n)) (q.boff 6) (4 * n)).isSome = true) :
    panInsertCmd x q d = .accept [] (.other 0x0702 h 0 0) (d.addUpdate h ⟨q.seq, 0, q.boff 3, n, q.boff 6, none⟩) := by
  subst hn hlen
  unfold panInsertCmd
  dsimp only
  rw [if_neg (by simp only [hc, Bool.not_true, Bool.false_eq_true, false_or]; omega), hown]
  dsimp only
  rw [if_neg (ne_true_of_eq_false hopen), if_neg]
  rintro (h | h)
  · simp [Option.isNone_iff_eq_none.1 h] at hread
  · simp [Option.isNone_iff_eq_none.1 h] at hout

theorem panDeleteCmd_of_ids (hc : q.clean [(2, 0xFFFF), (3, top32), (4, 0xFF), (5, 0x1FFFF)] = true)
    (hopen : d.bufSealed q.part (q.boff 3) (4 * n) = false) (hread : (d.bufRead q.part (q.boff 3) (4 * n)).isSome = true) :
    panDeleteCmd x q d = .accept [] (.other 0x0703 h 0 0) (d.addUpdate h ⟨q.seq, 1, q.boff 3, n, 0, none⟩) := by
  subst hn
  unfold panDeleteCmd
  dsimp only
  rw [if_neg (by simp only [hc, Bool.not_true, Bool.false_eq_true, false_or]; omega), hown]
  dsimp only
  rw [if_neg (ne_true_of_eq_false hopen), if_neg]
  intro h
  simp [Option.isNone_iff_eq_none.1 h] at hread

end

theorem panQueryCmd_of_vector {e : PanQuery} (hc : q.clean ((2, 0xFFFF) :: queryBits top32) = true)
    (hopen : d.bufSealed q.part (q.boff 5) (4 * i.dims) = false) (hsnap : q.d2 9 = 0 ∨ i.floor ≤ q.d2 9 ∧ q.d2 9 ≤ i.epoch)
    (hout : (d.bufRun q.part true (runFuel (16 * q.f 3 10 0)) (q.boff 7) (16 * q.f 3 10 0)).isSome = true)
    (he : d.queryOf q h i (q.boff 7) (q.d2 9) (.cmd q.seq) = .ok e) :
    panQueryCmd x q d = .accept [] (.other 0x0704 h 0 0) (d.addQuery e) := by
  unfold panQueryCmd
  rw [if_neg (by simp [hc]), hown]
  dsimp only
  rw [if_neg (ne_true_of_eq_false hopen), if_neg (by omega), if_neg, he]
  intro h
  simp [Option.isNone_iff_eq_none.1 h] at hout

theorem panCompactCmd_of_own (hc : q.clean [(2, 0xFFFF)] = true) :
    panCompactCmd x q d = .accept [] (.other 0x0705 h 0 0) (d.addUpdate h ⟨q.seq, 2, 0, 0, 0, none⟩) := by
  rw [panCompactCmd, if_neg (by simp [hc]), hown]

theorem idxQueryCmd_of_own (hc : q.clean [(2, 0xFFFF)] = true) :
    idxQueryCmd x q d = .done .ok [wd i.live, wd i.tombs, loW i.epoch, hiW i.epoch] d := by
  rw [idxQueryCmd, if_neg (by simp [hc]), hown]

section
variable (hc : q.clean [(2, 0xFFFF), (3, 0x100FF)] = true)
include hc

theorem listenCmd_off (hoff : bitAt (q.w 3).toNat 16 = true) : listenCmd x q d = .done .ok [] (d.modIdx h fun i => { i with listen := none }) := by
  unfold listenCmd
  rw [if_neg (by simp [hc]), hown]
  exact if_pos hoff

theorem listenCmd_on (hon : bitAt (q.w 3).toNat 16 = false) (hsrq : thas d.net.srqs (q.part * 256 + q.f 3 7 0) = true)
    (hfree : ∀ j ∈ d.pan.idx, j.1 = h ∨ j.2.part ≠ q.part ∨ j.2.listen ≠ some (q.f 3 7 0)) :
    listenCmd x q d = .done .ok [] (d.modIdx h fun i => { i with listen := some (q.f 3 7 0) }) := by
  have hany : (d.pan.idx.any fun j => j.1 != h && j.2.part == q.part && j.2.listen == some (q.f 3 7 0)) = false := by
    rw [List.any_eq_false]
    intro j hj
    obtain h | h | h := hfree j hj <;> simp [h]
  unfold listenCmd
  rw [if_neg (by simp [hc]), hown]
  dsimp only
  rw [if_neg (ne_true_of_eq_false hon), if_neg (by rw [hsrq, hany]; decide)]

end
end

/-! ### Groups and sharded queries (R351, R352) -/

section
variable (hc : q.clean [(2, 0x1000F), (3, top32), (4, 0xFF), (5, 0x3FFF)] = true)
include hc

theorem groupSetCmd_drop (hdrop : bitAt (q.w 2).toNat 16 = true) :
    groupSetCmd x q d = .done .ok [] { d with pan := { d.pan with groups := tdel d.pan.groups (q.part * 16 + q.f 2 3 0) } } := by
  unfold groupSetCmd
  dsimp only
  rw [if_neg (by simp [hc]), if_pos hdrop]

theorem groupSetCmd_set {n : Nat} {b : List Byte} {t : List (Nat × Nat)} (hset : bitAt (q.w 2).toNat 16 = false) (hn : n = q.f 5 13 0)
    (hlo : 0 < n) (hhi : n ≤ 8192) (hopen : d.bufSealed q.part (q.boff 3) (8 * n) = false) (hshut : d.bufShut q.part (q.boff 3) (8 * n) = false)
    (hread : d.panRead q.part (q.boff 3) (8 * n) = .ok b)
    (ht : t = (List.range n).map (fun k => (fld (leAt b (8 * k) 8) 19 0, fld (leAt b (8 * k) 8) 47 32)))
    (hqps : ∀ e ∈ t, e.1 = 0 ∨ ∃ p : Qp, d.ownQp q.part e.1 = some p ∧ p.ext = true ∧ p.event = true) :
    groupSetCmd x q d = .done .ok [] { d with pan := { d.pan with groups := tset d.pan.groups (q.part * 16 + q.f 2 3 0) t } } := by
  subst hn
  have hgood : ¬ (t.any fun e => e.1 != 0 && (d.ownQp q.part e.1).elim true fun r => !(r.ext && r.event)) = true := by
    rw [Bool.not_eq_true, List.any_eq_false]
    intro e he
    obtain h | ⟨p, hp, hext, hevent⟩ := hqps e he
    · simp [h]
    · simp [hp, hext, hevent]
  subst ht
  unfold groupSetCmd
  dsimp only
  rw [if_neg (by simp [hc]), if_neg (ne_true_of_eq_false hset), if_neg (by omega), if_neg (ne_true_of_eq_false hopen),
    if_neg (ne_true_of_eq_false hshut), hread]
  exact if_neg hgood

end

theorem shardQueryCmd_of_group {t : List (Nat × Nat)} {h tag k : Nat} {i : PanIndex} {e : PanQuery} {p : PanShard} {d' : Dev}
    (ht : tget d.pan.groups (q.part * 16 + q.f 2 3 0) = some t) (hlocal : t.filter (fun e => e.1 == 0) = [(0, h)])
    (hi : tget d.pan.idx h = some i) (hk : k = q.f 3 10 0) (hc : q.clean ((2, 0xF) :: queryBits 0) = true) (hpart : i.part = q.part)
    (hlive : i.destroy = none) (hopen : d.bufSealed q.part (q.boff 5) (4 * i.dims) = false)
    (hout : (d.bufRun q.part true (runFuel (16 * k)) (q.boff 7) (16 * k)).isSome = true)
    (htag : tag = nextId (fun n => thas d.pan.shards n) 0xFFFEFFFF d.pan.shards.length d.pan.lastTag)
    (he : d.queryOf q h i 0 0 (.shard tag) = .ok e)
    (hp : p = ⟨q.seq, q.part, t, k, q.boff 7, i.dims, i.fmt, i.metric, List.range t.length, [], 0, 0, 0, 0, 0,
      x.now + fld (d.partReg q.part 0x0B0000) 31 16 * ticksMs⟩)
    (hd : d' = ({ d with pan := { d.pan with shards := tset d.pan.shards tag p, lastTag := tag } } : Dev).addQuery e) :
    shardQueryCmd x q d = .accept [] (.other 0x0709 tag 0 0) (d'.shardPost x q.part tag e p.open_) := by
  subst hk hp hd
  have hfind : (t.find? fun e => e.1 == 0) = some (0, h) := by rw [← List.head?_filter, hlocal]; rfl
  unfold shardQueryCmd
  dsimp only
  rw [ht]
  dsimp only
  rw [hfind, Option.elim_some, hi, Option.map_some]
  dsimp only
  rw [if_neg (by simp [hc, hpart, hlive, hlocal]), if_neg (ne_true_of_eq_false hopen), if_neg, ← htag, he]
  intro h
  simp [Option.isNone_iff_eq_none.1 h] at hout

end

/-! ### Rows with more than the command -/

theorem effPanIndexDestroy_accept {s : State} {c : Cmd} {r : CmdRec} {k : OpKind} {d : Dev} (hs : Started 0x0701 c r s)
    (hb : idxDestroy s.ctx (reqOf c r) s.dev = .accept [] k d) :
    effPanIndexDestroy c s = .next ((s.acceptedAs c r [] k d).andThen fun x d => d.destroySettle x) := by
  refine onDev_eq hs.1 ?_
  unfold idxDestroyRow
  rw [runCmd_accept hs hb]
  rfl

theorem effPanCompact_accept {s : State} {c : Cmd} {r : CmdRec} {k : OpKind} {d : Dev} (hs : Started 0x0705 c r s)
    (hb : panCompactCmd s.ctx (reqOf c r) s.dev = .accept [] k d) :
    effPanCompact c s = .next ((s.acceptedAs c r [] k d).andThen fun x d => d.startCompacts x) := by
  refine onDev_eq hs.1 ?_
  unfold panCompactRow
  rw [runCmd_accept hs hb]
  rfl

/-- Settles O37: each command by its own lemma. -/
theorem indexCommandsComplete : Obligations.IndexCommandsComplete := by
  unfold Obligations.IndexCommandsComplete
  rintro s₀ s c r q rfl rfl
  refine ⟨?create, fun h i hown => ⟨fun hs hc => effPanIndexDestroy_accept hs (idxDestroy_of_own hown hc), fun n len hn hlo hhi hlen => ⟨?insert, ?delete⟩,
    ?query, fun hs hc => effPanCompact_accept hs (panCompactCmd_of_own hown hc), fun hs hc => hostCmd_done hs (idxQueryCmd_of_own hown hc),
    fun hs hc => ⟨?listenOff, ?listenOn⟩⟩, fun hs hc => ⟨?groupDrop, ?groupSet⟩, ?shard⟩
  case create =>
    intro i h hs hc hi hrun hdims hdims' hfmt hblock hmetric hdeg hdeg' hefb hefb' hef hcap hcap' hbytes hplace hmapped hfrozen hmine hall hsum hfree
    exact hostCmd_done hs (idxCreate_of_place hc hi hrun hdims hdims' hfmt hblock hmetric hdeg hdeg' hefb hefb' hef hcap hcap' hbytes hplace hmapped
      hfrozen hmine hall hsum hfree)
  case insert => exact fun hs hc hopen hread hout => hostCmd_accept hs (panInsertCmd_of_records hown hn hlo hhi hlen hc hopen hread hout)
  case delete => exact fun hs hc hopen hread => hostCmd_accept hs (panDeleteCmd_of_ids hown hn hlo hhi hc hopen hread)
  case query => exact fun e hs hc hopen hsnap hout he => hostCmd_accept hs (panQueryCmd_of_vector hown hc hopen hsnap hout he)
  case listenOff => exact fun hoff => hostCmd_done hs (listenCmd_off hown hc hoff)
  case listenOn => exact fun hon hsrq hfree => hostCmd_done hs (listenCmd_on hown hc hon hsrq hfree)
  case groupDrop => exact fun hdrop => hostCmd_done hs (groupSetCmd_drop hc hdrop)
  case groupSet =>
    exact fun n b t hset hn hlo hhi hopen hshut hread ht hqps => hostCmd_done hs (groupSetCmd_set hc hset hn hlo hhi hopen hshut hread ht hqps)
  case shard =>
    intro t h tag k i e p d hs ht hlocal hi hk hc hpart hlive hopen hout htag he hp hd
    exact hostCmd_accept hs (shardQueryCmd_of_group ht hlocal hi hk hc hpart hlive hopen hout htag he hp hd)

end Sys2Proof.Machine
end

section
/-! The events of Panicle (R341-R353). -/

namespace Sys2Proof.Machine

section
variable {x : Ctx} {d : Dev}

/-! ### Queries -/

theorem queryAdmit_of_room {die : Nat} {q : PanQuery} {i : PanIndex} (hroom : d.panRunning die < 256)
    (hq : d.pan.queries.find? (fun q => q.die == die && !q.running) = some q) (hi : tget d.pan.idx q.index = some i)
    (hnow : q.snap = 0 → i.floor ≤ i.epoch) (hsnap : q.snap ≠ 0 → i.floor ≤ q.snap ∧ q.snap ≤ i.epoch) :
    queryAdmit die x d = { d with pan := { d.pan with queries := d.pan.queries.map fun e =>
      if e.id = q.id then { q with snap := if q.snap = 0 then i.epoch else q.snap, live := i.live, running := true } else e } } := by
  have hseen : ¬((if q.snap = 0 then i.epoch else q.snap) < i.floor ∨ (if q.snap = 0 then i.epoch else q.snap) > i.epoch) := by
    by_cases h : q.snap = 0
    · have := hnow h
      rw [if_pos h]
      omega
    · have := hsnap h
      rw [if_neg h]
      omega
  unfold queryAdmit
  rw [if_neg (Nat.not_le.2 hroom), hq]
  dsimp only
  rw [hi]
  dsimp only
  rw [if_neg hseen]

theorem queryMsg_of_form {qpn srq h k ef w : Nat} {q : Qp} {i : PanIndex} {msg : List Byte} (hq : d.qp qpn = some q)
    (hi : d.pan.idx.find? (fun i => i.2.part == q.part && i.2.listen == some srq && i.2.destroy.isNone) = some (h, i))
    (hsrq : q.srq = some srq) (hmagic : leAt msg 0 4 = 0x31514E50) (hlen : msg.length = 64 + 4 * i.dims) (hk : k = leAt msg 8 2)
    (hef : ef = leAt msg 10 2) (hw : w = leAt msg 12 2) (hlo : 0 < k) (hhi : k ≤ 1024) (hef' : ef ≤ 1024) (hw' : w ≤ 1024) :
    queryMsg qpn srq msg x d = d.addQuery ⟨0, i.die, i.part, h, k, if ef = 0 then i.ef else ef, if w = 0 then min (4 * k) 1024 else w,
      f32List i.dims (msg.drop 64), 0, 0, leAt msg 16 8, leAt msg 24 8, leAt msg 32 8, 0, .remote qpn (leAt msg 4 4), false, none⟩ := by
  unfold queryMsg
  rw [hq]
  dsimp only
  rw [hi]
  dsimp only
  rw [← hk, ← hef, ← hw, if_neg]
  simp only [hsrq, hmagic, hlen, ne_eq, not_true_eq_false, false_or]
  omega

section
variable {die id : Nat} {q : PanQuery} {i : PanIndex} {t : PanSearch} {d0 : Dev}
  (hq : d.pan.queries.find? (fun q => q.id == id && q.die == die && q.running) = some q) (hi : tget d.pan.idx q.index = some i)
  (ht : t = d.search i q.vec q.k (max q.ef q.k) q.w (fun t => t.seen q.snap && t.passes q.all_ q.none_ q.any_))
include hq hi ht

theorem queryDone_go (hgo : d.reach x .panicle (12, q.id) (d.queryRanges q i t) = (.go, d0)) :
    queryDone die id x d = (((((d0.bumpPart q.part 0x0B0014 t.poison).bumpPart q.part 0x0B000C (if t.visited.length ≥ 32768 then 1 else 0)).chargePart
      q.part 0 (t.scored * i.rb)).tapAdd q.part 7 (t.scored * i.rb)).queryOut x q i (if t.hits.length = q.k then .ok else .shortResult)
      t.hits t.scored) := by
  unfold queryDone
  rw [hq]
  dsimp only
  rw [hi]
  dsimp only
  rw [← ht, hgo]

theorem queryDone_busy (hbusy : d.reach x .panicle (12, q.id) (d.queryRanges q i t) = (.busy, d0)) :
    queryDone die id x d = d0.queryOut x q i .regionBusy [] 0 := by
  unfold queryDone
  rw [hq]
  dsimp only
  rw [hi]
  dsimp only
  rw [← ht, hbusy]

end

/-! ### Queries over shards -/

theorem partialIn_of_form {tag entry n h : Nat} {p : PanShard} {msg : List Byte} (hp : tget d.pan.shards tag = some p)
    (hentry : p.table[entry]? = some (n, h)) (hn : n ≠ 0) (hewr : (d.ewr n tag).isSome = true) (hwait : entry ∈ p.waiting)
    (hmagic : leAt msg 0 4 = 0x31524E50) (htag : leAt msg 4 4 = tag) (hdims : leAt msg 20 2 = p.dims) (hfmt : leAt msg 22 1 = p.fmt)
    (hmetric : leAt msg 23 1 = p.metric) :
    partialIn tag entry msg x d = (d.dropEwr n tag).shardTake x tag entry (some ((List.range (min (leAt msg 8 2) p.k)).map (fun k =>
      (⟨wd (leAt ((msg.drop (64 + 16 * k)).take 16) 12 4), 0, leAt ((msg.drop (64 + 16 * k)).take 16) 8 4,
        leAt ((msg.drop (64 + 16 * k)).take 16) 0 8⟩ : PanHit)), leAt msg 12 4, leAt msg 16 4, leAt msg 10 2 == Status.shortResult.code)) := by
  have hname : (p.table[entry]?).elim 0 Prod.fst = n := by rw [hentry, Option.elim_some]
  have hopen : ¬((p.table[entry]?).elim 0 Prod.fst = 0 ∨ (d.ewr ((p.table[entry]?).elim 0 Prod.fst) tag).isNone = true ∨
      (!p.waiting.contains entry) = true) := by
    simp [hname, hn, hwait, Option.isSome_iff_ne_none.1 hewr]
  unfold partialIn
  rw [hp]
  dsimp only
  rw [if_neg hopen, if_neg (by simp [hmagic, htag, hdims, hfmt, hmetric]), hname]

theorem shardTimeout_of_due {tag : Nat} {p : PanShard} (hp : tget d.pan.shards tag = some p) (hdue : p.until_ ≤ x.now) :
    shardTimeout tag x d = d.shardGiveUp x tag p.open_ := by
  unfold shardTimeout
  rw [hp]
  exact if_neg (Nat.not_lt.2 hdue)

/-! ### Updates of an index (R341, R344, R345) -/

section
variable {h : Nat} {i : PanIndex} {u : PanUpdate} {us : List PanUpdate} (hi : tget d.pan.idx h = some i) (hu : i.updates = u :: us)
include hi hu

theorem compactResume_of_seen {ec : Nat} (hkind : u.kind = 2) (hec : u.ec = some ec)
    (hseen : ∀ q ∈ d.pan.queries, q.index = h → q.running = true → ec ≤ q.snap) :
    compactResume h x d = d.modIdx h fun i => { i with updates := { u with kind := 3 } :: us } := by
  have hnone : (d.pan.queries.any fun q => q.index == h && q.running && q.snap < ec) = false := by
    rw [List.any_eq_false]
    intro q hq hlate
    simp only [Bool.and_eq_true, beq_iff_eq, decide_eq_true_eq] at hlate
    obtain ⟨⟨hidx, hrun⟩, hlt⟩ := hlate
    exact absurd (hseen q hq hidx hrun) (Nat.not_le.2 hlt)
  obtain ⟨op, kind, off, count, out, e⟩ := u
  dsimp only at hkind hec
  subst hkind hec
  unfold compactResume
  rw [hi]
  dsimp only
  rw [hu]
  exact if_neg (ne_true_of_eq_false hnone)

section
variable {d0 : Dev} (hheld : d.idxHeld i = false) (hbusy : d.idxBusy i = false)
  (hgo : d.reach x .panicle (13, h) (d.updateRanges i u) = (.go, d0))
include hheld hbusy hgo

theorem updateDone_insert {inp : List Byte} {ns : List Nat} {e : Dev} (hkind : u.kind = 0)
    (hread : d0.panRead i.part u.off (u.count * (16 + 4 * i.dims)) = .ok inp) (hns : ns = d0.freeItems i i.cap 0 u.count)
    (hlen : u.count ≤ ns.length) (hout : d0.bufWrite x i.part u.out (ns.flatMap (leBytes 4)) = some e) :
    updateDone h x d = (((e.insertAll x i ns inp).2.tapAdd i.part 7 inp.length).setIdx x h
      { (e.insertAll x i ns inp).1 with epoch := i.epoch + 1, live := i.live + u.count }).updateEnd x h .ok
        [wd u.count, loW (i.epoch + 1), hiW (i.epoch + 1)] := by
  unfold updateDone
  rw [hi]
  dsimp only
  rw [hu]
  dsimp only
  rw [if_neg (ne_true_of_eq_false hheld), if_neg (ne_true_of_eq_false hbusy), hgo]
  simp only [hkind]
  rw [hread]
  dsimp only
  rw [← hns, if_neg (Nat.not_lt.2 hlen), hout]

theorem updateDone_delete {b : List Byte} {n : Nat} {e : Dev} (hkind : u.kind = 1) (hread : d0.panRead i.part u.off (4 * u.count) = .ok b)
    (hdel : d0.deleteAll x i ((List.range u.count).map fun k => leAt b (4 * k) 4) = (n, e)) :
    updateDone h x d = ((e.tapAdd i.part 7 b.length).setIdx x h
      { i with epoch := i.epoch + 1, live := i.live - n, tombs := i.tombs + n }).updateEnd x h .ok
        [wd n, wd (u.count - n), loW (i.epoch + 1), hiW (i.epoch + 1)] := by
  unfold updateDone
  rw [hi]
  dsimp only
  rw [hu]
  dsimp only
  rw [if_neg (ne_true_of_eq_false hheld), if_neg (ne_true_of_eq_false hbusy), hgo]
  simp only [hkind]
  rw [hread]
  dsimp only
  rw [hdel]

theorem updateDone_compact {n ec : Nat} {j : PanIndex} {e : Dev} (hkind : u.kind = 3) (hec : u.ec = some ec)
    (hcompact : d0.compactAll x i ec = (n, j, e)) :
    updateDone h x d = (e.setIdx x h { j with epoch := i.epoch + 1, tombs := i.tombs - n }).updateEnd x h .ok
      [wd n, loW j.floor, hiW j.floor] := by
  unfold updateDone
  rw [hi]
  dsimp only
  rw [hu]
  dsimp only
  rw [if_neg (ne_true_of_eq_false hheld), if_neg (ne_true_of_eq_false hbusy), hgo]
  simp only [hkind]
  rw [hec, Option.getD_some, hcompact]

end
end
end

/-- Settles O38: each event by its own lemma. -/
theorem indexEventsTakeEffect : Obligations.IndexEventsTakeEffect := by
  unfold Obligations.IndexEventsTakeEffect
  refine fun s hp => ⟨?start, ?message, ?partialList, ?timeout, fun die id q i t d0 d hq hi ht => ⟨?queryGo, ?queryBusy⟩, fun h i u us hi hu =>
    ⟨?resume, fun d0 hheld hbusy hgo => ⟨?insert, ?delete, ?compact⟩⟩⟩
  case start =>
    rintro die q i hroom hq hi hnow hsnap s₀ rfl
    exact onDev_eq hp (queryAdmit_of_room hroom hq hi hnow hsnap)
  case message =>
    rintro qpn srq h k ef w q i msg hq hi hsrq hmagic hlen hk hef hw hlo hhi hef' hw' s₀ rfl
    exact onDev_eq hp (queryMsg_of_form hq hi hsrq hmagic hlen hk hef hw hlo hhi hef' hw')
  case partialList =>
    rintro tag entry n h p msg htable hentry hn hewr hwait hmagic htag hdims hfmt hmetric s₀ rfl
    exact onDev_eq hp (partialIn_of_form htable hentry hn hewr hwait hmagic htag hdims hfmt hmetric)
  case timeout =>
    rintro tag p hshard hdue s₀ rfl
    exact onDev_eq hp (shardTimeout_of_due hshard hdue)
  case queryGo =>
    rintro hgo rfl s₀ rfl
    exact onDev_eq hp (queryDone_go hq hi ht hgo)
  case queryBusy =>
    rintro hbusy s₀ rfl
    exact onDev_eq hp (queryDone_busy hq hi ht hbusy)
  case resume =>
    rintro ec hkind hec hseen s₀ rfl
    exact onDev_eq hp (compactResume_of_seen hi hu hkind hec hseen)
  case insert =>
    rintro inp ns d hkind hread hns hlen hout s₀ rfl
    exact onDev_eq hp (updateDone_insert hi hu hheld hbusy hgo hkind hread hns hlen hout)
  case delete =>
    rintro b n d hkind hread hdel s₀ rfl
    exact onDev_eq hp (updateDone_delete hi hu hheld hbusy hgo hkind hread hdel)
  case compact =>
    rintro n ec j d hkind hec hcompact s₀ rfl
    exact onDev_eq hp (updateDone_compact hi hu hheld hbusy hgo hkind hec hcompact)

end Sys2Proof.Machine
end

section
/-! The Sheaf commands (R355-R358, R366-R369). -/

namespace Sys2Proof.Machine

section
variable {x : Ctx} {q : Req} {d : Dev}

/-! ### Definition of a job (R355) -/

theorem jobDefine_of_free {j rank n stage m : Nat} {remote : Bool} {its : List CkpItem} {ms es : List Nat} {f d' e : Dev}
    {loc : Tbl (List Nat) × Nat} {k : CkpJob}
    (hc : q.clean [(2, 0xFFFF), (3, 0x3FFF), (4, 0x3FFF), (5, 0x7F01), (6, top32), (7, 0xFF), (8, 0x1FFF), (9, top32),
      (10, 0xFF), (11, 0xFFFFF), (12, top32), (13, top32), (14, top32), (15, top32)] = true)
    (hj : j = q.f 2 15 0) (hrank : rank = q.f 3 13 0) (hn : n = q.f 4 13 0) (hstage : stage = q.f 5 14 8) (hm : m = q.f 8 12 0)
    (hremote : remote = bitAt (q.w 5).toNat 0) (hj0 : 0 < j) (hn0 : 0 < n) (hn' : n ≤ 8192) (hrank' : rank < n) (hstage2 : 2 ≤ stage)
    (hstage' : stage ≤ 64) (hm' : m ≤ 4096) (hlocal : remote = false → n = 1)
    (hstore : remote = true → 2 ≤ (q.w 15).toNat ∧ (d.ownQp q.part (q.f 11 19 0)).isSome = true) (hnew : d.job j = none)
    (hits : d.readItems q.part (bufOff (q.w 6).toNat (q.f 7 7 0)) m = .ok its)
    (hms : d.readMembers q.part (bufOff (q.w 9).toNat (q.f 10 7 0)) n rank = .ok ms)
    (hmine : (d.ckp.jobs.filter fun k => k.2.part == q.part).length < 8) (hall : d.ckp.jobs.length < 64) (hf : d.postNotices q.part j ms = .ok f)
    (hallot : d.allotExts q.part (List.range 16) (32 * stage) = some (es, d')) (hpost : d'.postNotices q.part j ms = .ok e)
    (hloc : loc = (if remote then ([], 0) else e.localSlots q.part j))
    (hk : k = ⟨q.part, rank, n, ms, remote, stage, its, if remote then q.f 11 19 0 else 0, q.d2 12, q.w 14, (q.w 15).toNat, [], es, loc.2, none,
      none, loc.1⟩) :
    jobDefine x q d = .done .ok [wd (e.ckpProjection k)] (e.setJob j k) := by
  have hone : ¬((!remote) = true ∧ n > 1) := by
    rintro ⟨hr, hlt⟩
    have := hlocal (by simpa using hr)
    omega
  have hslot : ¬(remote = true ∧ (q.w 15).toNat < 2) := fun ⟨hr, hlt⟩ => absurd (hstore hr).1 (Nat.not_le.2 hlt)
  have hqp : ¬(remote && (d.ownQp q.part (q.f 11 19 0)).isNone) = true := by
    intro h
    rw [Bool.and_eq_true] at h
    exact absurd (hstore h.1).2 (by simp [Option.isNone_iff_eq_none.1 h.2])
  unfold jobDefine
  dsimp only
  rw [← hj, ← hrank, ← hn, ← hstage, ← hm, ← hremote, if_neg, hnew, if_neg (by decide), hits, hms]
  · dsimp only
    rw [if_neg hqp, if_neg (by omega), hf, hallot]
    dsimp only
    rw [hpost]
    dsimp only
    rw [← hloc, ← hk]
  · simp only [hone, hslot, hc, Bool.not_true, Bool.false_eq_true, false_or, or_false]
    omega

/-! ### Commands on a job -/

section
variable {j : Nat} {k : CkpJob} (hown : d.ckpOwn q = some (j, k))
include hown

theorem jobDrop_of_idle (hc : q.clean [(2, 0xFFFF)] = true) (hrun : k.run = none) (hrestore : k.restore = none) {d' : Dev}
    (hd : d' = (k.members.filter (· != 0)).foldl (fun d n => d.withdrawEwr x n (noticeId j)) (d.freeExts k.bufs)) :
    jobDrop x q d = .both [] .ok [] { d' with ckp := { d'.ckp with jobs := tdel d'.ckp.jobs j } } := by
  subst hd
  unfold jobDrop
  rw [hown]
  dsimp only
  rw [if_neg (by simp [hc]), if_neg (by simp [hrun, hrestore])]

theorem noticeCmd_start {d' : Dev} (hc : q.clean [(2, 0xFFFF)] = true) (hrestore : k.restore = none) (hrun : k.run = none)
    (hstart : d.ckpStart x j k [q.seq] = some d') : noticeCmd x q d = .accept [loW x.now] (.other 0x0802 j 0 0) d' := by
  unfold noticeCmd
  rw [hown]
  dsimp only
  rw [if_neg (by simp [hc]), if_neg (by simp [hrestore]), hrun]
  dsimp only
  rw [hstart]

theorem noticeCmd_join {t : CkpRun} (hc : q.clean [(2, 0xFFFF)] = true) (hrestore : k.restore = none) (hrun : k.run = some t) :
    noticeCmd x q d = .accept [loW t.tick] (.other 0x0802 j 0 0) (d.setJob j { k with run := some { t with ops := t.ops ++ [q.seq] } }) := by
  unfold noticeCmd
  rw [hown]
  dsimp only
  rw [if_neg (by simp [hc]), if_neg (by simp [hrestore]), hrun]

theorem ckpQueryCmd_of_own (hc : q.clean [(2, 0xFFFF)] = true) :
    ckpQueryCmd x q d = .done .ok [loW k.committed, hiW k.committed,
      if k.run.isSome then 1 else if k.restore.isSome then 2 else 0, wd k.keeper] d := by
  unfold ckpQueryCmd
  rw [hown]
  exact if_neg (by simp [hc])

theorem ckpRestoreCmd_of_place {its : List CkpItem}
    (hc : q.clean [(2, 0x3FFFFFFF), (3, top32), (4, top32), (5, top32), (6, 0xFF), (7, top32), (8, top32)] = true) (hrank : q.f 2 29 16 < k.n)
    (hrun : k.run = none) (hrestore : k.restore = none)
    (hits : d.readItems q.part (bufOff (q.w 5).toNat (q.f 6 7 0)) k.items.length = .ok its)
    (hmapped : d.allMapped q.part ((its.filter fun i => i.kind == 0).flatMap fun i => runExts i.first i.count) = true)
    (hfrozen : d.anyFrozen q.part ((its.filter fun i => i.kind == 0).flatMap fun i => runExts i.first i.count) = false)
    (hshape : q.f 2 29 16 = k.rank → its.map (fun i => (i.kind, i.count)) = k.items.map fun i => (i.kind, i.count)) :
    ckpRestoreCmd x q d = .accept [] (.other 0x0804 j 0 0) (d.setJob j { k with
      restore := some ⟨q.seq, q.f 2 29 16, q.d2 3, its, q.d2 7, 0, [], [], 0, [], [], []⟩ }) := by
  unfold ckpRestoreCmd
  rw [hown]
  dsimp only
  rw [if_neg (by simp [hc, hrank]), if_neg (by simp [hrun, hrestore]), hits]
  dsimp only
  rw [if_neg]
  rintro (h | h | ⟨hr, hne⟩)
  · simp [hmapped] at h
  · simp [hfrozen] at h
  · exact hne (hshape hr)

theorem ckpShrinkCmd_of_bitmap {b : List Byte} {off : Nat} (hc : q.clean [(2, 0xFFFF), (3, top32), (4, 0xFF)] = true)
    (hoff : off = bufOff (q.w 3).toNat (q.f 4 7 0)) (hopen : d.bufSealed q.part off 1024 = false)
    (hread : d.bufRead q.part off 1024 = some (b, false)) :
    ckpShrinkCmd x q d = .done .ok [wd (((d.shrink x j k (lostRanks b k.n)).job j).getD k).liveRanks.length,
      wd (((d.shrink x j k (lostRanks b k.n)).job j).getD k).keeper] (d.shrink x j k (lostRanks b k.n)) := by
  unfold ckpShrinkCmd
  rw [hown]
  dsimp only
  rw [if_neg (by simp [hc]), ← hoff, if_neg (ne_true_of_eq_false hopen), hread]

end
end

/-! ### Rows after which Sheaf goes on -/

section
variable {s : State} {c : Cmd} {r : CmdRec} {op : Nat} {body : Ctx → Req → Dev → Ans} {d : Dev} (hs : Started op c r s)
include hs

theorem sheafRow_accept {res : List Word} {k : OpKind} (hb : body s.ctx (reqOf c r) s.dev = .accept res k d) :
    sheafRow (runCmd op c body) s = .next ((s.acceptedAs c r res k d).andThen fun x d => d.reedSettle x) := by
  refine onDev_eq hs.1 ?_
  rw [runCmd_accept hs hb]
  rfl

theorem sheafRow_done {st : Status} {res : List Word} (hb : body s.ctx (reqOf c r) s.dev = .done st res d) :
    sheafRow (runCmd op c body) s = .next ((s.answered r st res d).andThen fun x d => d.reedSettle x) := by
  refine onDev_eq hs.1 ?_
  rw [runCmd_done hs hb]
  rfl

end

/-- Settles O39: each command by its own lemma; a notice, a restore and a shrink let Sheaf go on. -/
theorem checkpointCommandsComplete : Obligations.CheckpointCommandsComplete := by
  unfold Obligations.CheckpointCommandsComplete
  rintro s₀ s c r q rfl rfl
  refine ⟨?define, fun j k hown => ⟨?drop, fun hs hc hrestore => ⟨?start, ?join⟩, fun hs hc => hostCmd_done hs (ckpQueryCmd_of_own hown hc), ?restore,
    ?shrink⟩⟩
  case define =>
    rintro j rank n stage m remote its ms es d e loc k hs hc hj hrank hn hstage hm hremote hj0 hn0 hn' hrank' hstage2 hstage' hm' hlocal hstore hnew
      hits hms hmine hall ⟨f, hf⟩ hallot hpost hloc hk
    exact hostCmd_done hs (jobDefine_of_free hc hj hrank hn hstage hm hremote hj0 hn0 hn' hrank' hstage2 hstage' hm' hlocal hstore hnew hits hms
      hmine hall hf hallot hpost hloc hk)
  case drop => exact fun d hs hc hrun hrestore hd => hostCmd_both hs (jobDrop_of_idle hown hc hrun hrestore hd)
  case start => exact fun d hrun hstart => sheafRow_accept hs (noticeCmd_start hown hc hrestore hrun hstart)
  case join => exact fun t hrun => sheafRow_accept hs (noticeCmd_join hown hc hrestore hrun)
  case restore =>
    intro its hs hc hrank hrun hrestore hits hmapped hfrozen hshape
    exact sheafRow_accept hs (ckpRestoreCmd_of_place hown hc hrank hrun hrestore hits hmapped hfrozen hshape)
  case shrink =>
    intro b off hs hc hoff hopen hread
    exact ⟨_, _, rfl, rfl, sheafRow_done hs (ckpShrinkCmd_of_bitmap hown hc hoff hopen hread)⟩

end Sys2Proof.Machine
end

section
/-! The events of Sheaf (R357-R365). -/

namespace Sys2Proof.Machine

section
variable {x : Ctx} {d : Dev} {j : Nat} {k : CkpJob} (hk : d.job j = some k)
include hk

theorem netNotice_of_start {msg : List Byte} {d' : Dev} (hlen : 16 ≤ msg.length) (hmagic : leAt msg 0 4 = 0x31454E43) (hj : leAt msg 4 2 = j)
    (hrestore : k.restore = none) (hrun : k.run = none) (hstart : d.ckpStart x j k [] = some d') : netNotice j msg x d = d' := by
  unfold netNotice
  rw [hk]
  dsimp only
  rw [if_neg (by simp [hmagic, hj]; omega), if_neg (by simp [hrestore]), if_neg (by simp [hrun]), hstart, Option.getD_some]

section
variable {r : CkpRun} (hr : k.run = some r)
include hr

/-- The job with its run, as the events read it. -/
theorem Dev.job_run : ((d.job j).elim none fun k => k.run.map fun r => (k, r)) = some (k, r) := by
  rw [hk, Option.elim_some, hr, Option.map_some]

/-! ### Regions and shards of a run -/

theorem copyDone_go {n reg off len : Nat} {i : CkpItem} {b : List Byte} {d0 d1 d' : Dev} (hi : k.items[n]? = some i)
    (hreg : (itemRegions ((r.sizes[n]?).getD 0) (r.head n))[reg]? = some (off, len)) (hmay : r.mayCopy k.items k.stage n reg = true)
    (hgo : d.reach x .sheaf (11, j * 2 ^ 48 + n * 2 ^ 24 + reg)
      (if i.kind = 0 then d.runAddrs k.part (i.first * 2097152 + off) len else []) = (.go, d0))
    (hread : d0.regionBytes k r i n off len = some b) (hd1 : d1 = d0.regionUse x k i off len)
    (hd : d' = (((if i.kind = 1 then d1 else d1.chargePart k.part 0 len).tapAdd k.part 7 len).putJob x j { k with run := some { r with
      unreached := r.unreached.filter (· != (n, reg)), data := tset r.data (n * 2 ^ 24 + reg) b } })) :
    copyDone j n reg x d = if i.kind = 1 ∧ d'.ckpHolds (wd i.first) = false then d'.pfxAwake x (wd i.first) else d' := by
  subst hd1 hd
  unfold copyDone
  rw [Dev.job_run hk hr]
  dsimp only
  rw [hi, hreg]
  dsimp only
  rw [if_neg (by simp [hmay]), Dev.once_of_go _ hgo, hread]
  exact if_congr (by rw [Bool.not_eq_true']) rfl rfl

section
variable {n : Nat} {t : CkpShard} (ht : r.shards[n]? = some t)
include ht

theorem Dev.runShard_of_shard : d.runShard j n = some (k, r, t) := by
  unfold Dev.runShard
  rw [Dev.job_run hk hr]
  dsimp only
  rw [ht, Option.map_some]

section
variable {b : List Byte} {d' : Dev} (hst : t.st = 0) (hb : r.shardBytes t = some b) (hd : d' = d.tapAdd k.part 7 b.length)
include hst hb hd

theorem shardDone_ungrouped (hg : t.group = 0) : shardDone j n x d = d'.putShard j k r n { t with st := 5, digest := Config.sha512 b } := by
  subst hd
  unfold shardDone
  rw [Dev.runShard_of_shard hk hr ht]
  dsimp only
  rw [if_pos hst, hb]
  exact if_pos hg

theorem shardDone_keeper (hg : t.group ≠ 0) (hkeeps : k.keeps = true) :
    shardDone j n x d = d'.putShard j k { r with anns := r.anns ++ [⟨k.rank, t.group, t.index, Config.sha512 b, false⟩] } n
      { t with st := 1, digest := Config.sha512 b, annAt := x.now } := by
  subst hd
  unfold shardDone
  rw [Dev.runShard_of_shard hk hr ht]
  dsimp only
  rw [if_pos hst, hb]
  dsimp only
  rw [if_neg hg, if_pos hkeeps]

theorem shardDone_member (hg : t.group ≠ 0) (hkeeps : k.keeps = false) :
    shardDone j n x d = (d'.putShard j k r n { t with st := 1, digest := Config.sha512 b, annAt := x.now }).out
      (.member j k.keeper 0 [k.rank, t.group, t.index, (Config.sha512 b).toNat]) := by
  subst hd
  unfold shardDone
  rw [Dev.runShard_of_shard hk hr ht]
  dsimp only
  rw [if_pos hst, hb]
  dsimp only
  rw [if_neg hg, if_neg (ne_true_of_eq_false hkeeps)]

end

theorem shardConfirmed_of_over (ok : Bool) (hst : t.st = 2) (hover : d.opsOver t.ops = true) :
    shardConfirmed j n ok x d = if ok = true then d.putShard j k r n { t with st := 3 } else d.ckpAbandon x j := by
  unfold shardConfirmed
  rw [Dev.runShard_of_shard hk hr ht]
  exact if_neg (by simp [hst, hover])

theorem verdictLate_of_due (hst : t.st = 1) (hdue : t.annAt + 2 * r.dedupMs * ticksMs ≤ x.now) :
    verdictLate j n x d = d.putShard j k r n { t with st := 5 } := by
  unfold verdictLate
  rw [Dev.runShard_of_shard hk hr ht]
  exact if_pos ⟨hst, hdue⟩

end

/-! ### Announcements and verdicts (R361) -/

section
variable {g i : Nat} {t : CkpShard} (ht : r.shards.find? (fun s => s.group == g && s.index == i) = some t)
include ht

theorem Dev.ckpVerdict_write (hphase : r.phase = 0) (hst : t.st = 1 ∨ t.st = 4) :
    d.ckpVerdict j g i none = d.setJob j { k with run := some (r.modShard g i fun t => { t with st := 5, writer := k.rank }) } := by
  unfold Dev.ckpVerdict
  rw [hk]
  dsimp only
  rw [hr]
  dsimp only
  rw [ht]
  exact if_pos ⟨hphase, hst⟩

theorem Dev.ckpVerdict_skip {w : Nat} (hst : t.st = 1) :
    d.ckpVerdict j g i (some w) = (d.setJob j { k with
      run := some (r.modShard g i fun u => { u with st := 4, writer := w, loc := 0x4000000 * (1 + r.shards.findIdx fun v => v == t) })
      }).bumpPart k.part 0x0C0014 1 := by
  unfold Dev.ckpVerdict
  rw [hk]
  dsimp only
  rw [hr]
  dsimp only
  rw [ht]
  exact if_pos hst

end

theorem Dev.keeperTake_of_member {rank : Nat} (f : CkpRun → CkpRun) (hkeeps : k.keeps = true) (halive : k.alive rank = true)
    (hother : rank ≠ k.rank) : d.keeperTake j rank f = d.setJob j { k with run := some (f r) } := by
  unfold Dev.keeperTake
  rw [Dev.job_run hk hr]
  exact if_pos (by simp [hkeeps, halive, hother])

theorem announced_new {rank g i : Nat} {dg : BitVec 512} (hkeeps : k.keeps = true) (halive : k.alive rank = true) (hother : rank ≠ k.rank)
    (hnew : ∀ a ∈ r.anns, a.rank = rank → a.group = g → a.index ≠ i) :
    announced j rank g i dg x d = d.setJob j { k with run := some { r with anns := r.anns ++ [⟨rank, g, i, dg, false⟩] } } := by
  have hnone : (r.anns.any fun a => a.rank == rank && a.group == g && a.index == i) = false := by
    rw [List.any_eq_false]
    intro a ha h
    simp only [Bool.and_eq_true, beq_iff_eq] at h
    obtain ⟨⟨hrank, hgroup⟩, hindex⟩ := h
    exact hnew a ha hrank hgroup hindex
  unfold announced
  rw [Dev.keeperTake_of_member hk hr _ hkeeps halive hother, if_neg (ne_true_of_eq_false hnone)]

/-- With nothing to write and its end marker sent, a keeper's step answers the next announcement that it may answer. -/
theorem Dev.ckpStep_answer {a : CkpAnn} (hkeeps : k.keeps = true) (hok : r.allOps.any d.net.failed.contains = false)
    (hidle : r.shards.all (fun t => t.st != 5) = true) (hend : k.n = 1 ∨ r.endSent = true) (ha : r.anns.find? (r.mayAnswer k x.now) = some a) :
    d.ckpStep x j = d.ckpAnswer j k r a := by
  have hnext : (r.shards.findIdx fun s => s.st == 5) = r.shards.length := by
    rw [List.findIdx_eq_length]
    intro t ht
    simpa using List.all_eq_true.1 hidle t ht
  have hwrite : (if (k.remote && (r.shards.filter fun s => s.st == 2).length ≥ r.inflight) = true then none
      else r.shards[r.shards.findIdx fun s => s.st == 5]?) = none := by
    rw [hnext, List.getElem?_eq_none (Nat.le_refl _), ite_self]
  unfold Dev.ckpStep
  rw [hk]
  dsimp only
  rw [hr]
  dsimp only
  rw [if_neg (ne_true_of_eq_false hok), hwrite]
  dsimp only
  rw [if_neg, if_pos hkeeps, ha]
  rintro ⟨hn, hsent, -⟩
  rcases hend with h | h
  · exact hn h
  · simp [h] at hsent

theorem Dev.ckpSteps_answer {a : CkpAnn} (hkeeps : k.keeps = true) (hok : r.allOps.any d.net.failed.contains = false)
    (hidle : r.shards.all (fun t => t.st != 5) = true) (hend : k.n = 1 ∨ r.endSent = true) (ha : r.anns.find? (r.mayAnswer k x.now) = some a) :
    d.ckpSteps x j ((d.job j).elim 0 fun k => k.run.elim 0 fun r => r.anns.length + 1) = (d.ckpAnswer j k r a).ckpSteps x j r.anns.length := by
  rw [hk, Option.elim_some, hr, Option.elim_some, Dev.ckpSteps, Dev.ckpStep_answer hk hr hkeeps hok hidle hend ha]

/-! ### Commitment (R363-R365) -/

theorem recordConfirmed_of_over (hphase : r.phase = 4) (hover : d.opsOver r.manOps = true) :
    recordConfirmed j x d = (d.sendCommits j r.seq (k.liveRanks.filter (· != k.rank))).ckpFinish x j := by
  unfold recordConfirmed
  rw [Dev.job_run hk hr]
  exact if_pos ⟨hphase, hover⟩

theorem commitMsg_of_reported (hphase : r.phase = 2) (hkeeps : k.keeps = false) : commitMsg j x d = d.ckpFinish x j := by
  unfold commitMsg
  rw [Dev.job_run hk hr]
  exact if_pos ⟨hphase, by rw [hkeeps]; rfl⟩

theorem commitLate_of_due (hdue : r.tick + r.commitMs * ticksMs ≤ x.now) : commitLate j x d = d.ckpAbandon x j := by
  unfold commitLate
  rw [hk, Option.elim_some, hr]
  exact if_pos hdue

end
end

/-- A row of Sheaf: what the event does, and then Sheaf goes on. -/
theorem sheafRow_eq {f : Ctx → Dev → Dev} {s : State} {d : Dev} (hp : s.clock.power = true) (h : f s.ctx s.dev = d) :
    sheafRow f s = .next (s.withDev (d.reedSettle s.ctx)) := onDev_eq hp (congrArg (fun d : Dev => d.reedSettle s.ctx) h)

/-- Settles O40: a stalled write, and each event of a job by its own lemma. -/
theorem checkpointEventsTakeEffect : Obligations.CheckpointEventsTakeEffect := by
  unfold Obligations.CheckpointEventsTakeEffect
  refine fun s hp => ⟨fun a bs h => onDev_eq hp (if_pos h), fun j k hk => ⟨?notice, fun r hr => ⟨?copy, fun n t ht => ⟨?done, ?confirmed, ?late⟩,
    fun g i t ht => ⟨?write, ?skip⟩, fun rank hkeeps halive hother => ⟨?announced, ?ended, ?reported⟩, ?answer, ?record, ?commit, ?timeout⟩⟩⟩
  case notice =>
    rintro msg d hlen hmagic hj hrestore hrun hstart s₀ rfl
    exact sheafRow_eq hp (netNotice_of_start hk hlen hmagic hj hrestore hrun hstart)
  case copy =>
    rintro n reg off len i b d0 d1 d hi hreg hmay hgo hread hd1 hd s₀ rfl
    exact sheafRow_eq hp (copyDone_go hk hr hi hreg hmay hgo hread hd1 hd)
  case done =>
    intro b d hst hb hd
    refine ⟨fun hg => ?_, fun hg hkeeps => ?_, fun hg hkeeps => ?_⟩ <;> rintro s₀ rfl
    · exact sheafRow_eq hp (shardDone_ungrouped hk hr ht hst hb hd hg)
    · exact sheafRow_eq hp (shardDone_keeper hk hr ht hst hb hd hg hkeeps)
    · exact sheafRow_eq hp (shardDone_member hk hr ht hst hb hd hg hkeeps)
  case confirmed =>
    intro hst hover
    constructor <;> rintro s₀ rfl
    · exact sheafRow_eq hp ((shardConfirmed_of_over hk hr ht true hst hover).trans (if_pos rfl))
    · exact sheafRow_eq hp ((shardConfirmed_of_over hk hr ht false hst hover).trans (if_neg Bool.false_ne_true))
  case late =>
    rintro hst hdue s₀ rfl
    exact sheafRow_eq hp (verdictLate_of_due hk hr ht hst hdue)
  case write =>
    rintro hphase hst s₀ rfl
    exact sheafRow_eq (f := fun _ d => d.ckpVerdict j g i none) hp (Dev.ckpVerdict_write hk hr ht hphase hst)
  case skip =>
    rintro w hst s₀ rfl
    exact sheafRow_eq (f := fun _ d => d.ckpVerdict j g i (some w)) hp (Dev.ckpVerdict_skip hk hr ht hst)
  case announced =>
    rintro g i dg hnew s₀ rfl
    exact sheafRow_eq hp (announced_new hk hr hkeeps halive hother hnew)
  case ended =>
    rintro s₀ rfl
    exact sheafRow_eq hp (Dev.keeperTake_of_member hk hr _ hkeeps halive hother)
  case reported =>
    rintro loc len g s₀ rfl
    exact sheafRow_eq hp (Dev.keeperTake_of_member hk hr _ hkeeps halive hother)
  case answer =>
    rintro a hkeeps hok hidle hend ha s₀ rfl
    exact sheafRow_eq (f := fun x d => d.ckpSteps x j ((d.job j).elim 0 fun k => k.run.elim 0 fun r => r.anns.length + 1)) hp
      (Dev.ckpSteps_answer hk hr hkeeps hok hidle hend ha)
  case record =>
    rintro hphase hover s₀ rfl
    exact sheafRow_eq hp (recordConfirmed_of_over hk hr hphase hover)
  case commit =>
    rintro hphase hkeeps s₀ rfl
    exact sheafRow_eq hp (commitMsg_of_reported hk hr hphase hkeeps)
  case timeout =>
    rintro hdue s₀ rfl
    exact sheafRow_eq hp (commitLate_of_due hk hr hdue)

end Sys2Proof.Machine
end

section
/-! The security commands (R376, R379-R383, R387-R389, R396, R397). -/

namespace Sys2Proof.Machine

section
variable {x : Ctx} {q : Req} {d : Dev}

/-! ### Set keys and packages (R379-R383) -/

theorem setJoin_of_blob {off : Nat} (hc : q.clean [(2, top32), (3, 0xFF)] = true) (hoff : off = bufOff (q.w 2).toNat (q.f 3 7 0))
    (hopen : d.bufSealed q.part off 512 = false) (hread : (d.bufRead q.part off 512).isSome = true) :
    setJoin x q d = .accept [] (.other 0x0900 off 0 0) d := by
  unfold setJoin
  dsimp only
  rw [← hoff, if_neg (by simp [hc]), if_neg (ne_true_of_eq_false hopen), if_neg (by simp [Option.isSome_iff_ne_none.1 hread])]

theorem setLeave_of_held (hc : q.clean [(2, top32), (3, top32)] = true) (hheld : d.holdsSet q.part (q.d2 2) = true) :
    setLeave x q d = .done .ok [wd (d.mem.shares.filter fun e =>
        e.2.part == q.part && e.2.sealed && (tget d.sec.packs e.1).elim false fun k => k.1 == q.d2 2).length]
      { d with sec := { d.sec with sets := d.sec.sets.filter fun e => !(e.part == q.part && e.id == q.d2 2) } } := by
  unfold setLeave
  exact if_neg (by simp [hc, hheld])

theorem weightsOpen_of_package {es : List Nat} {h : List Byte} {d' : Dev} (hc : q.clean [(2, 0x7FFFF), (3, top32)] = true)
    (hrun : runOk q.first (q.w 3).toNat = true) (hes : es = runExts q.first q.count) (hmapped : d.allMapped q.part es = true)
    (hfrozen : d.anyFrozen q.part es = false) (hopen : es.any (d.extSealed q.part) = false) (hidx : es.any (d.extIndexed q.part) = false)
    (hread : d.bufRead q.part (q.first * 2097152) 4096 = some (h, false))
    (hmem : es.any (fun e => (d.extGrans q.part e).any fun g => d.computeAt (granAddr g)) = false) (hok : pkgOk h q.count = true)
    (hset : d.holdsSet q.part (leAt h 8 8) = true) (hd : d' = d.sealRun q.part q.first q.count) :
    weightsOpen x q d = .accept [] (.weights q.first q.count)
      { d' with sec := { d'.sec with opens := tset d'.sec.opens q.seq ⟨q.part, q.first, q.count, h, 0⟩ } } := by
  subst hd
  unfold weightsOpen
  dsimp only
  rw [← hes, if_neg (by simp [hc, hrun, hmapped, hfrozen]), if_neg (ne_true_of_eq_false hopen), if_neg (ne_true_of_eq_false hidx), hread]
  dsimp only
  rw [if_neg (by simp [hmem, hok]), if_neg Bool.false_ne_true, if_neg (by simp [hset])]

/-! ### Connection keys (R387, R388) -/

section
variable (hc : q.clean [(2, 1), (3, top32), (4, top32), (5, top32), (6, top32)] = true) (hdebug : d.sec.debug = false)
  (hroom : d.connRoom q.part = true)
include hc hdebug hroom

theorem connLoad_plain (hplain : bitAt (q.w 2).toNat 0 = false) (hallowed : bitAt (d.secPcfg q.part) 1 = true) :
    connLoad x q d = .accept [] (.other 0x0903 0 (q.d2 3) 0) d := by
  unfold connLoad
  dsimp only
  rw [if_neg (by simp [hc]), if_neg (ne_true_of_eq_false hdebug), if_pos (by rw [hplain]; rfl), if_neg (by simp [hallowed]), if_neg (by simp [hroom])]

theorem connLoad_wrapped (hwrapped : bitAt (q.w 2).toNat 0 = true) (hopen : d.bufSealed q.part (q.d2 3) 104 = false)
    (hread : (d.bufRead q.part (q.d2 3) 104).isSome = true) (hset : d.holdsSet q.part (q.d2 5) = true) :
    connLoad x q d = .accept [] (.other 0x0903 1 (q.d2 3) (q.d2 5)) d := by
  unfold connLoad
  dsimp only
  rw [if_neg (by simp [hc]), if_neg (ne_true_of_eq_false hdebug), if_neg (by simp [hwrapped]), if_neg (ne_true_of_eq_false hopen),
    if_neg (by simp [Option.isSome_iff_ne_none.1 hread]), if_neg (by simp [hset]), if_neg (by simp [hroom])]

end

theorem connDestroy_of_unused (hc : q.clean [(2, 0x1FFF)] = true) (hkey : thas d.sec.conn (q.part * 65536 + q.f 2 12 0) = true)
    (hunused : d.net.qps.any (fun e => e.2.part == q.part && e.2.enc && e.2.st != 0 && e.2.key == q.f 2 12 0) = false) :
    connDestroy x q d = .done .ok [] { d with sec := { d.sec with conn := tdel d.sec.conn (q.part * 65536 + q.f 2 12 0) } } := by
  unfold connDestroy
  dsimp only
  rw [if_neg (by simp [hc, hkey]), if_neg (ne_true_of_eq_false hunused)]

/-! ### Identity, debug unlock and RMA (R376, R396, R397) -/

theorem identRead_of_aligned (hc : q.clean [(2, top32), (3, top32)] = true) (hat : q.d2 2 % 4096 = 0) :
    identRead x q d = .accept [] (.other 0x0905 (q.d2 2) 0 0) d := by
  unfold identRead
  exact if_neg (by simp [hc, hat])

theorem secQuery_of_clean (hc : q.clean [] = true) :
    secQuery x q d = .done .ok [wd (secState x d), wd (d.setsOf q.part).length, wd (d.connOf q.part).length] d := if_neg (by simp [hc])

theorem debugChallenge_of_clean {n : List Byte} (hc : q.clean [] = true) (hn : n = (List.range 16).map (fun i => Config.randomByte (d.free + i))) :
    debugChallenge x q d = .done .ok (bytesWords 4 n) { d with free := d.free + 16, sec := { d.sec with nonce := some n } } := by
  subst hn
  exact if_neg (by simp [hc])

theorem tokenCmd_of_clean (op : Nat) (hc : q.clean [(2, top32), (3, top32)] = true) :
    tokenCmd op x q d = .accept [] (.other op (q.d2 2) 0 0) d := if_neg (by simp [hc])

/-! ### Partition erase (R389) -/

section
variable {p : Nat} (hc : q.clean [(2, 0xF)] = true) (hpart : p = q.f 2 3 0) (hses : ∀ e ∈ d.ses.tbl, e.1 / 2 ^ 24 = p → e.2.state = .free)
  (hmdl : ∀ m ∈ d.grid.mdls, m.2.part = p → m.2.st = .registered) (hleft : (x.fuses.erases[p]?).getD 0 < 64)
include hc hpart hses hmdl hleft

theorem eraseCheck_of_idle : eraseCheck x q d = none := by
  have hfree : (d.ses.tbl.any fun s => s.1 / 2 ^ 24 == p && s.2.state != .free) = false := by
    rw [List.any_eq_false]
    intro e he h
    rw [Bool.and_eq_true, beq_iff_eq] at h
    simp [hses e he h.1] at h
  have hregistered : (d.grid.mdls.any fun m => m.2.part == p && m.2.st != .registered) = false := by
    rw [List.any_eq_false]
    intro m hm h
    rw [Bool.and_eq_true, beq_iff_eq] at h
    simp [hmdl m hm h.1] at h
  unfold eraseCheck
  dsimp only
  rw [← hpart, if_neg (by simp [hc]), if_neg (by rw [hfree, hregistered]; decide), if_neg (Nat.not_le.2 hleft)]

theorem partErase_of_idle :
    partErase x q d = .both [] .ok [wd (d.nandUsed p)] (({ d with
      nand := { d.nand with
        units := d.nand.units.filter fun u => u.2.part != p
        objs := d.nand.objs.filter fun o => o.2.part != p }
      sec := { d.sec with
        sets := d.sec.sets.filter fun e => e.part != p
        conn := d.sec.conn.filter fun e => e.1 / 65536 != p } } : Dev).setKeys p [1] 1) := by
  unfold partErase
  rw [eraseCheck_of_idle hc hpart hses hmdl hleft, hpart]

end
end

section
variable {s : State} {c : Cmd} {r : CmdRec}

/-- A started SEC_PART_ERASE that passes its checks burns a bit of its partition's ERASE_COUNT. -/
theorem eraseFuses_of_passed (hs : Started 0x0913 c r s) (hpass : eraseCheck s.ctx (reqOf c r) s.dev = none) :
    eraseFuses c s.ctx s.dev = s.fuses.erase ((reqOf c r).f 2 3 0) := by
  obtain ⟨-, -, hrec, -, hahead⟩ := hs
  unfold eraseFuses
  rw [hrec, Option.filter_some, if_pos (by rw [hahead]; rfl)]
  exact if_pos (Option.isNone_iff_eq_none.2 hpass)

theorem effSecPartErase_of_passed {res fin : List Word} {d : Dev} (hs : Started 0x0913 c r s)
    (hpass : eraseCheck s.ctx (reqOf c r) s.dev = none) (hb : partErase s.ctx (reqOf c r) s.dev = .both res .ok fin d) :
    effSecPartErase c s = .next { s.acceptedDone r res .ok fin d with fuses := s.fuses.erase ((reqOf c r).f 2 3 0) } := by
  unfold effSecPartErase
  rw [if_pos hs.1, eraseFuses_of_passed hs hpass, runCmd_both hs hb]
  rfl

theorem effSecIdentityRead_of_aligned (hs : Started 0x0905 c r s) (hc : (reqOf c r).clean [(2, top32), (3, top32)] = true)
    (hat : (reqOf c r).d2 2 % 4096 = 0) :
    effSecIdentityRead c s = .next ((s.acceptedAs c r [] (.other 0x0905 ((reqOf c r).d2 2) 0 0) s.dev).andThen fun _ d =>
      d.shapeHost r.fn r.sq (reqOf c r).part r.seq ((reqOf c r).d2 2) identBytes .ok []) := by
  have hrec : s.dev.startedRec c 0x0905 = some r := by
    obtain ⟨-, -, hrec, -⟩ := hs
    exact hrec
  refine onDev_eq hs.1 ?_
  unfold identRow
  rw [runCmd_accept hs (identRead_of_aligned hc hat)]
  dsimp only
  rw [hrec]
  dsimp only
  rw [show tget (s.acceptedAs c r [] (.other 0x0905 ((reqOf c r).d2 2) 0 0) s.dev).dev.ops r.seq
    = some ⟨c.src, r.part.getD 0, .other 0x0905 ((reqOf c r).d2 2) 0 0, false⟩ from tget_tset_same ..]
  rfl

end

/-- Settles O41: each command by its own lemma; the identity's writes and the burnt bit follow from the started record. -/
theorem securityCommandsComplete : Obligations.SecurityCommandsComplete := by
  unfold Obligations.SecurityCommandsComplete
  rintro s c r q rfl
  refine ⟨?join, ?leave, ?package, fun hs hc hdebug hroom => ⟨?plain, ?wrapped⟩, ?destroy, ?identity, ?query, ?challenge, fun hc => ⟨?unlock, ?rma⟩, ?erase⟩
  case join =>
    rintro off hs hc hoff hopen hread s₀ rfl
    exact hostCmd_accept hs (setJoin_of_blob hc hoff hopen hread)
  case leave =>
    rintro hs hc hheld s₁ rfl
    exact hostCmd_done hs (setLeave_of_held hc hheld)
  case package =>
    rintro es h d hs hc hrun hes hmapped hfrozen hopen hidx hread hmem hok hset hd s₀ rfl
    exact hostCmd_accept hs (weightsOpen_of_package hc hrun hes hmapped hfrozen hopen hidx hread hmem hok hset hd)
  case plain =>
    rintro hplain hallowed s₀ rfl
    exact hostCmd_accept hs (connLoad_plain hc hdebug hroom hplain hallowed)
  case wrapped =>
    rintro hwrapped hopen hread hset s₀ rfl
    exact hostCmd_accept hs (connLoad_wrapped hc hdebug hroom hwrapped hopen hread hset)
  case destroy =>
    rintro hs hc hkey hunused s₁ rfl
    exact hostCmd_done hs (connDestroy_of_unused hc hkey hunused)
  case identity =>
    rintro hs hc hat s₀ rfl
    exact effSecIdentityRead_of_aligned hs hc hat
  case query =>
    rintro hs hc s₀ rfl
    exact hostCmd_done hs (secQuery_of_clean hc)
  case challenge =>
    rintro n hs hc hn s₀ rfl
    exact hostCmd_done hs (debugChallenge_of_clean hc hn)
  case unlock =>
    rintro hs s₀ rfl
    exact hostCmd_accept hs (tokenCmd_of_clean 0x0911 hc)
  case rma =>
    rintro hs s₀ rfl
    exact hostCmd_accept hs (tokenCmd_of_clean 0x0912 hc)
  case erase =>
    rintro p hs hc rfl hses hmdl hleft s₁ rfl
    exact effSecPartErase_of_passed hs (eraseCheck_of_idle hc rfl hses hmdl hleft) (partErase_of_idle hc rfl hses hmdl hleft)

end Sys2Proof.Machine
end

section
/-! The events of the security block (R371, R373-R375, R379, R383, R387, R393). -/

namespace Sys2Proof.Machine

section
variable {x : Ctx} {d : Dev}

/-! ### SPDM (R373-R375) -/

section
variable {f : Fn} (hlive : d.fnLive f = true) (hstage : 4 < d.boot.stage) (hvf : f.num = 0 ∨ bitAt d.secCfg 1 = true)
include hlive hstage hvf

/-- The responder of a live function's mailbox answers from the end of stage 4, a VF's while SPDM_VF is set. -/
theorem Dev.spdmHere_doe : d.spdmHere (.doe f) = true := by
  unfold Dev.spdmHere
  rcases hvf with h | h <;> simp [hlive, hstage, h]

theorem spdmReq_getVersion : spdmReq (.doe f) .getVersion x d = d.out (.spdm (.doe f) 0x04 [0x13]) := by
  simp [spdmReq, Dev.spdmHere_doe hlive hstage hvf]

theorem spdmReq_getCertificate : spdmReq (.doe f) .getCertificate x d = d.out (.spdm (.doe f) 0x02 certChain) := by
  simp [spdmReq, Dev.spdmHere_doe hlive hstage hvf]

theorem spdmReq_getMeasurements : spdmReq (.doe f) (.getMeasurements false) x d =
    d.out (.spdm (.doe f) 0x60 (measureBlocks x d (if f.num = 0 then none else some (f.num - 1)))) := by
  simp [spdmReq, spdmView, Dev.spdmHere_doe hlive hstage hvf]

theorem spdmReq_challenge (hrma : x.fuses.rma = false) (hroom : d.sec.waiting.length < 64) :
    spdmReq (.doe f) .challenge x d = { d with
      sec := { d.sec with
        sigs := d.sec.sigs ++ [⟨.doe f, 0, x.now, d.sec.lastToken % 255 + 1, false, none⟩]
        lastToken := d.sec.lastToken % 255 + 1 } } := by
  simp [spdmReq, Dev.signQueue, hrma, Nat.not_le.2 hroom, Dev.spdmHere_doe hlive hstage hvf]

end

section
variable {d' : Dev} {t : SigReq} {ts : List SigReq} {body : List Byte} (hd : d' = d.drainEnd (drainId 13 (2 ^ 40)))
  (hhead : d'.sec.waiting = t :: ts) (hrma : x.fuses.rma = false)
  (hbody : body = (if t.kind = 0 then digestBytes (Config.sha512 certChain) ++ digestBytes (measureDigest x d')
    else measureBlocks x d' (spdmView t.at_)))
include hd hhead hrma hbody

theorem signDone_deferred (ht : t.deferred = true) :
    signDone x d = { d' with sec := { d'.sec with
      sigs := d'.sec.sigs.map fun u => if u = t then { u with ready := some (body ++ Config.rsaSign 0 body) } else u } } := by
  unfold signDone
  dsimp only
  rw [← hd, hhead]
  dsimp only
  rw [← hbody, if_neg (ne_true_of_eq_false hrma), if_pos ht]

theorem signDone_waiting (ht : t.deferred = false) :
    signDone x d = ({ d' with sec := { d'.sec with sigs := d'.sec.sigs.filter (· != t) } } : Dev).out
      (.spdm t.at_ (if t.kind = 0 then 0x03 else 0x60) (body ++ Config.rsaSign 0 body)) := by
  unfold signDone
  dsimp only
  rw [← hd, hhead]
  dsimp only
  rw [← hbody, if_neg (ne_true_of_eq_false hrma), if_neg (ne_true_of_eq_false ht)]
  rfl

end

theorem spdmLate_of_due {n : Nat} {t : SigReq}
    (ht : d.sec.sigs.find? (fun u => u.token == n && u.ready.isNone && !u.deferred && decide (u.since + 12500 ≤ x.now)) = some t) :
    spdmLate n x d = ({ d with sec := { d.sec with
      sigs := d.sec.sigs.map fun u => if u = t then { u with deferred := true } else u } } : Dev).spdmErr t.at_ 0x42
        [14, BitVec.ofNat 8 t.token] := by
  unfold spdmLate
  rw [ht]
  rfl

theorem throttle_of_new {n : Nat} (hn : n = min 15 ((d.power.d + 3) / 4)) (hnew : n ≠ d.sec.level) (hdue : d.sec.levelAt ≤ x.now) :
    throttle x d = ({ d with sec := { d.sec with level := n, levelAt := x.now + 1250000 } } : Dev).levelLogs x (List.range 16) := by
  unfold throttle
  dsimp only
  rw [← hn]
  exact if_neg (by omega)

/-! ### The key engine (R379, R383, R387) -/

section
variable {op p off y z : Nat} {src : CmdSrc} {ab : Bool} {b : List Byte}

section
variable (hop : tget d.ops op = some ⟨src, p, .other 0x0900 off y z, ab⟩) (hread : d.bufRead p off 512 = some (b, false))
  (hrma : x.fuses.rma = false)
include hop hread hrma

theorem keyDone_join {k : List Byte} (hcheck : d.joinCheck x p k = none) (hnew : d.holdsSet p (leAt k 8 8) = false) :
    keyDone op (.ok k) x d = ({ d with sec := { d.sec with
      sets := d.sec.sets ++ [⟨p, leAt k 8 8, (k.drop 0x10).take 32⟩] } } : Dev).endOp x op .ok [loW (leAt k 8 8), hiW (leAt k 8 8)] := by
  simp only [keyDone, hop, Dev.joinEnd, hread, Option.elim_some, hrma, Bool.or_self, Bool.false_eq_true, if_false, hcheck, hnew]

end

theorem keyDone_join_fail (hop : tget d.ops op = some ⟨src, p, .other 0x0900 off y z, ab⟩) :
    keyDone op .fail x d = (d.secErr p).endOp x op .integrity [] := by
  simp only [keyDone, hop, Dev.joinEnd, ite_self]

theorem keyDone_conn {i : Nat} {k : List Byte} (hop : tget d.ops op = some ⟨src, p, .other 0x0903 1 off y, ab⟩)
    (hread : d.bufRead p off 104 = some (b, false)) (hroom : d.connRoom p = true)
    (hi : (List.range 4096).find? (fun i => !thas d.sec.conn (p * 65536 + i + 1)) = some i) :
    keyDone op (.ok k) x d = ({ d with sec := { d.sec with
      conn := tset d.sec.conn (p * 65536 + i + 1) (k.take 96) } } : Dev).endOp x op .ok [wd (i + 1)] := by
  simp only [keyDone, hop, hread, Option.elim_some, Bool.false_eq_true, if_false, Dev.connEnd, hroom, Bool.not_true, hi]

section
variable {first count : Nat} {o : Opening} {k : List Byte} (hop : tget d.ops op = some ⟨src, p, .weights first count, ab⟩)
  (ho : tget d.sec.opens op = some o) (hfree : d.runHeld op p first count = false)
include hop ho hfree

theorem keyDone_open : keyDone op (.ok k) x d = d.openStep x op o (.ok k) := by
  simp only [keyDone, hop, ho, hfree, Bool.false_eq_true, if_false]

theorem keyDone_unwrapped (hstage : o.stage = 0) :
    keyDone op (.ok k) x d = { d with sec := { d.sec with opens := tset d.sec.opens op { o with stage := 1 } } } :=
  (keyDone_open hop ho hfree).trans (if_pos hstage)

section
variable {d' : Dev} (hstage : 0 < o.stage)
  (hwrite : d.bufWrite x o.part ((o.first + o.stage) * 2097152)
    ((k ++ List.replicate (chunkLen o.hdr (o.stage - 1)) 0).take (chunkLen o.hdr (o.stage - 1))) = some d')
include hstage hwrite

theorem keyDone_chunk (hmore : o.stage < pkgChunks o.hdr) :
    keyDone op (.ok k) x d = { d' with sec := { d'.sec with opens := tset d'.sec.opens op { o with stage := o.stage + 1 } } } := by
  rw [keyDone_open hop ho hfree, Dev.openStep]
  dsimp only
  rw [if_neg (Nat.ne_of_gt hstage), hwrite, Option.getD_some, if_neg (Nat.not_lt.2 hmore)]

theorem keyDone_last (hlast : o.stage = pkgChunks o.hdr) :
    keyDone op (.ok k) x d = d'.openDone x op { o with stage := o.stage + 1 } := by
  rw [keyDone_open hop ho hfree, Dev.openStep]
  dsimp only
  rw [if_neg (Nat.ne_of_gt hstage), hwrite, Option.getD_some, if_pos (by omega)]

end
end
end
end

/-- Settles O42: requests by the responder's state, signatures by the head of the queue, the key engine by the operation it works for. -/
theorem securityEventsTakeEffect : Obligations.SecurityEventsTakeEffect := by
  unfold Obligations.SecurityEventsTakeEffect
  refine fun s hp => ⟨fun f hlive hstage hvf => ⟨?version, ?certificate, ?measurements, ?challenge⟩,
    fun d t ts body hd hhead hrma hbody => ⟨?deferred, ?signed⟩, ?late, ?level, fun op p src ab b => ⟨fun off y z hop hread hrma => ⟨?join, ?joinFail⟩,
    ?conn, fun first count o k hop ho hfree => ⟨?unwrapped, fun d hstage hwrite => ⟨?chunk, ?last⟩⟩⟩⟩
  case version =>
    rintro s₀ rfl
    exact onDev_eq hp (spdmReq_getVersion hlive hstage hvf)
  case certificate =>
    rintro s₀ rfl
    exact onDev_eq hp (spdmReq_getCertificate hlive hstage hvf)
  case measurements =>
    rintro s₀ rfl
    exact onDev_eq hp (spdmReq_getMeasurements hlive hstage hvf)
  case challenge =>
    rintro hrma hroom s₀ rfl
    exact onDev_eq hp (spdmReq_challenge hlive hstage hvf hrma hroom)
  case deferred =>
    rintro ht s₀ rfl
    exact onDev_eq hp (signDone_deferred hd hhead hrma hbody ht)
  case signed =>
    rintro ht s₀ rfl
    exact onDev_eq hp (signDone_waiting hd hhead hrma hbody ht)
  case late =>
    rintro n t ht s₀ rfl
    exact onDev_eq hp (spdmLate_of_due ht)
  case level => exact fun n hn hnew hdue => onDev_eq hp (throttle_of_new hn hnew hdue)
  case join =>
    rintro k hcheck hnew s₀ rfl
    exact onDev_eq hp (keyDone_join hop hread hrma hcheck hnew)
  case joinFail =>
    rintro s₀ rfl
    exact onDev_eq hp (keyDone_join_fail hop)
  case conn =>
    rintro off y i k hop hread hroom hi s₀ rfl
    exact onDev_eq hp (keyDone_conn hop hread hroom hi)
  case unwrapped =>
    rintro hstage s₀ rfl
    exact onDev_eq hp (keyDone_unwrapped hop ho hfree hstage)
  case chunk =>
    rintro hmore s₀ rfl
    exact onDev_eq hp (keyDone_chunk hop ho hfree hstage hwrite hmore)
  case last =>
    rintro hlast s₀ rfl
    exact onDev_eq hp (keyDone_last hop ho hfree hstage hwrite hlast)

end Sys2Proof.Machine
end

section
/-! The meter's rows, the commands that read it, and the sideband (R401-R414, R475-R478). -/

namespace Sys2Proof.Machine

theorem onMeter_eq {f : State → State} {s t : State} (hp : s.clock.power = true) (h : f s = t) : onMeter f s = .next t := by
  unfold onMeter
  rw [if_pos hp, h]

section
variable {s : State}

/-! ### The start (R408-R410) -/

theorem meterBoot_of_signed {dg : BitVec 512} {w : Word} {n : Nat} {fl : MeterFlash} (hst : s.meter.st = 0) (hn : n = s.fuses.sealCount)
    (hseal : dg = s.meter.flash.digest ∨ n < 1024)
    (hfl : fl = { s.meter.flash with
      starts := (s.meter.flash.starts + 1) % 2 ^ 32, digest := dg, sealCount := n + if dg = s.meter.flash.digest then 0 else 1 }) :
    meterBoot true dg w n s = { s with
      fuses := { s.fuses with sealCount := fl.sealCount }
      meter := { s.meter with
        st := 1, readyAt := s.clock.now, checkAt := s.clock.now + ticksHour, swId := w, gap := true, coeff := coeffOf fl.pkg, pkg := fl.pkg,
        flash := fl } } := by
  have hburn : (if (dg != s.meter.flash.digest) = true then 1 else 0) = if dg = s.meter.flash.digest then 0 else 1 := by
    by_cases h : dg = s.meter.flash.digest <;> simp [h]
  have hleft : ¬(dg != s.meter.flash.digest && decide (s.fuses.sealCount ≥ 1024)) = true := by
    rcases hseal with h | h
    · simp [h]
    · simp [← hn, h]
  subst hfl
  unfold meterBoot
  dsimp only
  rw [if_neg (by simp [hst]), if_neg (by decide), if_neg (by simp [hn]), if_neg hleft, hburn, ← hn]

theorem meterBoot_of_unsigned (hst : s.meter.st = 0) (dg : BitVec 512) (w : Word) (n : Nat) : meterBoot false dg w n s = meterFail 1 s := by
  unfold meterBoot
  dsimp only
  rw [if_neg (by simp [hst]), if_pos (by decide)]

/-! ### Record boundaries (R405, R413) -/

theorem recordClose_of_within (h : s.clock.now % ticksRecord ≠ 0) : recordClose s = s := by
  unfold recordClose
  exact if_pos (.inr (.inr (.inl h)))

theorem recordClose_of_closed (h : s.meter.endAt = s.clock.now) : recordClose s = s := by
  unfold recordClose
  exact if_pos (.inr (.inr (.inr h)))

/-- A staged set whose time has come swaps in. -/
theorem Meter.coeffDue_of_staged {m : Meter} {now : Nat} {co : Coeff} {b : List Byte} {t0 : Nat} (ht0 : t0 ≤ now)
    (hm : m.staged = some (co, b, t0)) : m.coeffDue now = { m with coeff := co, pkg := b, staged := none, newCoeff := true } := by
  unfold Meter.coeffDue
  rw [hm]
  exact if_pos ht0

section
variable (hst : s.meter.st = 1)
include hst

/-! ### The hourly check (R408) -/

theorem swRecheck_of_due (w : Word) (hdue : s.meter.checkAt ≤ s.clock.now) :
    swRecheck w s = if w = s.meter.swId then { s with meter := { s.meter with checkAt := s.clock.now + ticksHour } }
      else meterFail 5 { s with meter := { s.meter with checkAt := s.clock.now + ticksHour } } := by
  unfold swRecheck
  exact if_neg (by simp [hst, hdue])

/-! ### Samples and records (R403-R407) -/

/-- Within a millisecond, and short of its last sample, a sample adds to the record and to the millisecond. -/
theorem adcSample_of_within {mv ua : Nat} {cl : Bool} (hkilo : s.clock.now % 1000 = 0) (hms : s.clock.now % 125000 ≠ 0) (hua : 50000 ≤ ua)
    (hlast : s.meter.ms.2.1 < 124) :
    adcSample mv ua cl s = { s with meter := { s.meter with
      acc := s.meter.acc + mv * ua * 8 / 1000000
      ms := (s.meter.ms.1 + mv * ua * 8 / 1000000, s.meter.ms.2.1 + 1, s.meter.ms.2.2 + mv)
      vMin := min s.meter.vMin mv
      vMax := max s.meter.vMax mv
      over_ := s.meter.over_ || cl
      dbg := s.meter.dbg || s.dev.sec.debug } } := by
  have hopen : s.clock.now % ticksRecord ≠ 0 := by
    unfold ticksRecord
    omega
  unfold adcSample
  rw [if_neg (by simp [hst, hkilo]), recordClose_of_within hopen]
  dsimp only
  rw [if_neg (Nat.not_lt.2 hua)]
  simp only [if_neg hms]
  rw [if_neg (by omega)]

section
variable (hbegun : 0 < s.clock.now) (hend : s.clock.now % ticksRecord = 0) (hopen : s.meter.endAt ≠ s.clock.now)
include hbegun hend hopen

/-- At the end of a record that is still open, the record is closed with the coefficients that are due then. -/
theorem recordClose_of_boundary : ∃ m : Meter, recordClose s = { s with meter := m.coeffDue s.clock.now } ∧ m.endAt = s.clock.now ∧
    m.staged = s.meter.staged := by
  unfold recordClose
  dsimp only
  rw [if_neg (by simp [hst, hend, hopen]; omega)]
  split
  · exact ⟨_, rfl, rfl, rfl⟩
  · exact ⟨_, rfl, rfl, rfl⟩

theorem recordClose_of_running {e : Nat} {es : List Nat} {m : Meter} (hready : s.meter.readyAt < s.clock.now - 125000000)
    (he : e = s.meter.acc / 1000) (hes : es = apportion e s.meter.coeff s.meter.tap s.dev.edge)
    (hm : m = { s.meter with
      vMin := 0xFFFFFFFF, vMax := 0, pMax := 0, over_ := false, dbg := false, tap := s.dev.edge, endAt := s.clock.now
      acc := s.meter.acc % 1000
      seq := s.meter.seq + 1
      made := s.meter.made + 1
      cum := (s.meter.cum + e) % 2 ^ 64
      lastOver := s.meter.over_
      lastGap := s.meter.gap
      gap := false
      newCoeff := false
      due := s.meter.due ++ (16 :: s.dev.metered).map fun kind => (kind, s.meter.seq + 1,
        recordBody s s.meter kind (s.meter.seq + 1) (s.clock.now / 125000000 - 1) e es ((s.meter.cum + e) % 2 ^ 64))
      energy := es }) :
    recordClose s = { s with meter := m.coeffDue s.clock.now } := by
  subst hm hes he
  unfold recordClose
  dsimp only
  rw [if_neg (by simp [hst, hend, hopen]; omega), if_neg (by unfold ticksRecord; omega)]
  rfl

end

theorem recordPublish_of_due {kind n : Nat} {body : List Byte} {l : List (Nat × Nat × List Byte)} (hdue : s.meter.due = (kind, n, body) :: l) :
    recordPublish s = { s with meter := { s.meter with
      due := l, window := tset s.meter.window (kind * 64 + n % 64) (n, body ++ Config.rsaSign 2 body) } } := by
  unfold recordPublish
  dsimp only
  rw [hdue]
  exact if_neg (by simp [hst])

/-! ### Coefficient packages (R413) -/

section
variable {b : List Byte} (hb : b = s.store.bytes 0x3F00000 576)
include hb

theorem coeffStaged_of_good (hok : packageOk s b = true) (hleft : s.fuses.sealCount < 1024) :
    coeffStaged s = { s with
      fuses := { s.fuses with sealCount := s.fuses.sealCount + 1 }
      meter := { s.meter with
        staged := some (coeffOf b, b, (s.clock.now + 2 * ticksRecord - 1) / ticksRecord * ticksRecord)
        flash := { s.meter.flash with pkg := b, sealCount := s.fuses.sealCount + 1 } } } := by
  unfold coeffStaged
  dsimp only
  rw [← hb, if_neg (by simp [hst]), if_neg (by simp [hok, hleft])]

theorem coeffStaged_of_bad (hbad : packageOk s b = false) :
    coeffStaged s = { s with meter := { s.meter with refused := satAdd 255 s.meter.refused 1 } } := by
  unfold coeffStaged
  dsimp only
  rw [← hb, if_neg (by simp [hst]), if_pos (.inl (by rw [hbad]; rfl))]

end

section
variable {co : Coeff} {b : List Byte} {t0 : Nat} (ht0 : t0 ≤ s.clock.now)
  (hstaged : s.meter.staged = some (co, b, t0)) (hend : s.clock.now % ticksRecord = 0)
include ht0 hstaged hend

theorem coeffSwap_of_closed (hclosed : s.meter.endAt = s.clock.now) :
    coeffSwap s = { s with meter := { s.meter with coeff := co, pkg := b, staged := none, newCoeff := true } } := by
  unfold coeffSwap
  rw [if_neg (by simp [hst, hend]), recordClose_of_closed hclosed]
  dsimp only
  rw [Meter.coeffDue_of_staged ht0 hstaged]

theorem coeffSwap_of_open (hopen : s.meter.endAt ≠ s.clock.now) (hbegun : 0 < s.clock.now) :
    ∃ m : Meter, coeffSwap s = { s with meter := m } ∧ m.endAt = s.clock.now ∧ m.coeff = co ∧ m.pkg = b ∧ m.staged = none ∧
      m.newCoeff = true := by
  obtain ⟨m, hclose, hat, hkept⟩ := recordClose_of_boundary hst hbegun hend hopen
  rw [Meter.coeffDue_of_staged ht0 (hkept.trans hstaged)] at hclose
  unfold coeffSwap
  rw [if_neg (by simp [hst, hend]), hclose]
  exact ⟨_, rfl, hat, rfl, rfl, rfl, rfl⟩

end
end
end

/-! ### Commands that read the meter (R407, R414) -/

section
variable {x : Ctx} {q : Req} {d : Dev}

theorem recordRead_of_record {n k : Nat} {b : List Byte} (hc : q.clean [(2, top32), (3, top32), (4, top32), (5, top32)] = true)
    (hat : q.d2 4 % 64 = 0) (hst : x.meter.st ≠ 2) (hk : k = kindOf q.fnOr) (hrec : x.meter.record k (q.d2 2) = some (n, b)) :
    recordRead x q d = .done .ok [loW n, hiW n, wd (if k = 16 then 255 else k)] (d.out (.hostWrite q.fnOr.port (q.d2 4) b)) := by
  unfold recordRead
  dsimp only
  rw [← hk, if_neg (by simp [hc, hat]), if_neg hst, hrec]

theorem mtrIdent_of_clean (hc : q.clean [] = true) :
    mtrIdent x q d = .done .ok [x.meter.swId, wd x.fuses.sealCount, wd x.meter.flash.starts, wd x.meter.coeff.id] d := if_pos hc

section
variable (hc : q.clean [(2, top32), (3, top32)] = true)
include hc

theorem mtrCert_of_aligned (hat : q.d2 2 % 4096 = 0) :
    mtrCert x q d = .done .ok [] (d.out (.hostWrite q.fnOr.port (q.d2 2) mtrCertBlock)) := by
  unfold mtrCert
  exact if_neg (by simp [hc, hat])

theorem mtrCoeff_of_aligned (hat : q.d2 2 % 64 = 0) (hst : x.meter.st ≠ 2) :
    mtrCoeff x q d = .done .ok [wd x.meter.coeff.id] (d.out (.hostWrite q.fnOr.port (q.d2 2) x.meter.pkg)) := by
  unfold mtrCoeff
  rw [if_neg (by simp [hc, hat]), if_neg hst]

end

/-! ### The sideband (R475-R478) -/

section
variable {b : Nat} (hb : b < 2) (hup : d.sidebandUp = true)
include hb hup

theorem sideband_open : ¬(b > 1 ∨ (!d.sidebandUp) = true) := by
  simp only [hup, Bool.not_true, Bool.false_eq_true, or_false]
  omega

theorem busRecord_of_record {n m : Nat} {t : List Byte} (hst : x.meter.st ≠ 2) (hrec : x.meter.record 16 n = some (m, t)) :
    busRecord b n x d = d.out (.answer b 7 (0 :: t)) := by
  unfold busRecord
  rw [if_neg (sideband_open hb hup), if_neg hst, hrec]

theorem busCert_of_up : busCert b x d = d.out (.answer b 7 (0 :: (Config.meterCert ++ Config.mrkPub))) := if_neg (sideband_open hb hup)

theorem pldmReq_sensor {n : Nat} (hn : n ≤ 10) :
    pldmReq b (.getSensorReading n) x d = d.out (.answer b 2 (0 :: leBytes 4 (tgetD d.power.sensors n 0))) := by
  unfold pldmReq
  rw [if_neg (sideband_open hb hup)]
  exact if_pos hn

theorem mctpCtl_setEid (e : Nat) :
    mctpCtl b (.setEid e) x d = ({ d with buses := tset d.buses b { d.bus b with eid := e } } : Dev).out (.answer b 0 [0, BitVec.ofNat 8 e]) :=
  if_neg (sideband_open hb hup)

end
end

/-- Settles O43: the meter's rows by its state and the clock, the commands and the sideband by their checks. -/
theorem meterRowsTakeEffect : Obligations.MeterRowsTakeEffect := by
  unfold Obligations.MeterRowsTakeEffect
  refine fun s hp => ⟨?start, ?unsigned, fun hst => ⟨?recheck, ?sample, ?recordEnd, ?publish, fun b hb => ⟨?staged, ?refused⟩,
    fun co b t0 hstaged ht0 hend => ⟨?swap, ?swapAndClose⟩⟩, ?commands, fun b hb hup => ⟨?busRecord, ?busCert, ?sensor, ?eid⟩⟩
  case start => exact fun dg w n fl hst hn hseal hfl => onMeter_eq hp (meterBoot_of_signed hst hn hseal hfl)
  case unsigned => exact fun hst dg w n => onMeter_eq hp (meterBoot_of_unsigned hst dg w n)
  case recheck =>
    rintro w t hdue rfl
    exact ⟨fun hw => onMeter_eq hp ((swRecheck_of_due hst w hdue).trans (if_pos hw)),
      fun hw => onMeter_eq hp ((swRecheck_of_due hst w hdue).trans (if_neg hw))⟩
  case sample =>
    rintro mv ua cl hkilo hms hua hlast s₀ rfl
    exact onMeter_eq hp (adcSample_of_within hst hkilo hms hua hlast)
  case recordEnd =>
    rintro e es m hbegun hend hopen hready he hes hm s₀ rfl
    exact onMeter_eq hp (recordClose_of_running hst hbegun hend hopen hready he hes hm)
  case publish => exact fun kind n body l hdue => onMeter_eq hp (recordPublish_of_due hst hdue)
  case staged =>
    rintro hok hleft s₀ rfl
    exact onMeter_eq hp (coeffStaged_of_good hst hb hok hleft)
  case refused =>
    rintro hbad s₀ rfl
    exact onMeter_eq hp (coeffStaged_of_bad hst hb hbad)
  case swap =>
    rintro hclosed s₀ rfl
    exact onMeter_eq hp (coeffSwap_of_closed hst ht0 hstaged hend hclosed)
  case swapAndClose =>
    rintro hopen hbegun s₀ rfl
    obtain ⟨m, hswap, hm⟩ := coeffSwap_of_open hst ht0 hstaged hend hopen hbegun
    exact ⟨m, onMeter_eq hp hswap, hm⟩
  case commands =>
    rintro s₀ c r q rfl rfl
    refine ⟨?record, fun hs hc => hostCmd_done hs (mtrIdent_of_clean hc), fun hc => ⟨?cert, ?coeff⟩⟩
    case record => exact fun n b k hs hc hat hst hk hrec => hostCmd_done hs (recordRead_of_record hc hat hst hk hrec)
    case cert => exact fun hs hat => hostCmd_done hs (mtrCert_of_aligned hc hat)
    case coeff => exact fun hs hat hst => hostCmd_done hs (mtrCoeff_of_aligned hc hat hst)
  case busRecord =>
    rintro n m t hst hrec s₀ rfl
    exact onDev_eq hp (busRecord_of_record hb hup hst hrec)
  case busCert =>
    rintro s₀ rfl
    exact onDev_eq hp (busCert_of_up hb hup)
  case sensor =>
    rintro n hn s₀ rfl
    exact onDev_eq hp (pldmReq_sensor hb hup hn)
  case eid =>
    rintro e s₀ rfl
    exact onDev_eq hp (mctpCtl_setEid hb hup e)

end Sys2Proof.Machine
end

section
/-! The firmware commands (R443-R446, R451, R457) and the data of host memory reads (R29, R396, R397, R451). -/

namespace Sys2Proof.Machine

/-! ### The firmware commands -/

section
variable {x : Ctx} {q : Req} {d : Dev}

theorem fwWriteCmd_of_inside (hc : q.clean [(2, top32), (3, top32), (4, top32), (5, top32), (6, 3)] = true) (hlo : 4 ≤ (q.w 4).toNat)
    (hhi : (q.w 4).toNat ≤ 1048576) (hmod : (q.w 4).toNat % 4 = 0) (ht : q.f 6 1 0 ≤ 2)
    (hend : (q.w 5).toNat + (q.w 4).toNat ≤ (fwTarget d.boot.bank (q.f 6 1 0)).2) :
    fwWriteCmd x q d = .accept [] (.other 0x0F31 (q.f 6 1 0) (q.w 5).toNat (q.w 4).toNat) d := by
  unfold fwWriteCmd
  dsimp only
  rw [if_neg, if_neg (Nat.not_lt.2 hend)]
  simp only [hc, hmod, Bool.not_true, Bool.false_eq_true, false_or, ne_eq, not_true_eq_false]
  omega

theorem fwActivateCmd_of_good {n : Nat} (hc : q.clean [] = true) (hcheck : fwCheck x d = .ok n) :
    fwActivateCmd x q d = .both [] .ok [wd n] { d with boot := { d.boot with erased := false } } := by
  unfold fwActivateCmd
  rw [if_neg (by simp [hc]), hcheck]

theorem fwQueryCmd_of_image {b n off len : Nat} (hc : q.clean [(2, 1)] = true) (hb : b = q.f 2 0 0) (hseq : x.store.seq b = some n)
    (hdir : x.store.dirOk b = true) (himage : x.store.imageAt b 1 = some (off, len)) :
    fwQueryCmd x q d = .done .ok [wd n, if x.store.valid x.fuses b then 1 else 0, wd (leAt (x.store.header b off) 8 4),
      wd (leAt (x.store.header b off) 0x10 4)] d := by
  unfold fwQueryCmd
  dsimp only
  rw [← hb, if_neg (by simp [hc]), hseq, if_pos hdir, himage]

theorem svnCommitCmd_of_preferred (hc : q.clean [] = true) (hbank : d.boot.fallback = false) :
    ∃ up rev : Word, svnCommitCmd x q d = .done .ok [up, rev] d := by
  unfold svnCommitCmd
  rw [if_neg (by simp [hc]), if_neg (ne_true_of_eq_false hbank)]
  exact ⟨_, _, rfl⟩

end

section
variable {op : Nat} {c : Cmd} {r : CmdRec} {s : State}

theorem Dev.startedReq_of_started (hs : Started op c r s) : s.dev.startedReq c op = some (reqOf c r) := by
  obtain ⟨-, -, hrec, -, hahead⟩ := hs
  unfold Dev.startedReq
  rw [hrec, Option.filter_some, if_pos (by rw [hahead]; rfl)]
  rfl

theorem effDevFwActivate_of_good {n : Nat} (hs : Started 0x0F32 c r s) (hc : (reqOf c r).clean [] = true) (hcheck : fwCheck s.ctx s.dev = .ok n) :
    effDevFwActivate c s = .next { (s.acceptedDone r [] .ok [wd n] { s.dev with boot := { s.dev.boot with erased := false } }) with
      store := s.store.write (bankBase (1 - s.dev.boot.bank) + 0x1000) (commitRecord n (s.store.dir (1 - s.dev.boot.bank))) } := by
  have hstore : fwActivated c s.ctx s.dev =
      s.store.write (bankBase (1 - s.dev.boot.bank) + 0x1000) (commitRecord n (s.store.dir (1 - s.dev.boot.bank))) := by
    unfold fwActivated
    rw [Dev.startedReq_of_started hs]
    dsimp only
    rw [if_pos hc, hcheck]
    rfl
  unfold effDevFwActivate
  rw [if_pos hs.1, hstore, runCmd_both hs (fwActivateCmd_of_good hc hcheck)]
  rfl

theorem effDevSvnCommit_of_preferred (hs : Started 0x0F34 c r s) (hc : (reqOf c r).clean [] = true) (hbank : s.dev.boot.fallback = false) :
    ∃ up rev : Word, effDevSvnCommit c s = .next { (s.answered r .ok [up, rev] s.dev) with fuses := s.fuses.svn s.dev } := by
  obtain ⟨up, rev, hdone⟩ := svnCommitCmd_of_preferred (x := s.ctx) hc hbank
  have hfuses : svnFuses c s.ctx s.dev = s.fuses.svn s.dev := by
    unfold svnFuses
    rw [Dev.startedReq_of_started hs]
    exact if_pos (by rw [hc, hbank]; rfl)
  refine ⟨up, rev, ?_⟩
  unfold effDevSvnCommit
  rw [if_pos hs.1, hfuses, runCmd_done hs hdone]
  rfl

end

/-! ### The data of host memory reads -/

section
variable {s : State} {op p : Nat} {src : CmdSrc} {ab : Bool} {b : List Byte} {k : OpKind}
  (hop : tget s.dev.ops op = some ⟨src, p, k, ab⟩)
include hop

theorem hostRead_of_data (hlen : readLen k = some b.length) :
    hostRead op .ok b s = { s with
      fuses := readFuses s.ctx s.dev b k
      store := readStore s.ctx s.dev b k
      dev := ((s.dev.readDone s.ctx op p b k).schedule s.ctx).reedSettle s.ctx } := by
  unfold hostRead
  rw [hop]
  dsimp only
  rw [hlen]
  dsimp only
  rw [if_neg (fun h => h rfl), if_neg (fun h => h rfl)]

theorem hostRead_of_failure {n : Nat} {st : Completion} (hlen : readLen k = some n) (hst : st ≠ .ok) :
    hostRead op st b s = s.withDev ((s.dev.readFailed s.ctx op p k).schedule s.ctx) := by
  unfold hostRead
  rw [hop]
  dsimp only
  rw [hlen]
  exact if_pos hst

end

theorem effHostMemoryReadCompletion_eq {s t : State} {op : Nat} {st : Completion} {b : List Byte} (hp : s.clock.power = true)
    (h : hostRead op st b s = t) : effHostMemoryReadCompletion op st b s = .next t := by
  unfold effHostMemoryReadCompletion
  rw [if_pos hp, h]

section
variable {s : State} {op p off len y z : Nat} {src : CmdSrc} {ab : Bool} {b : List Byte}

/-- The data of a DEV_FW_WRITE to the second target, whose area begins at 0x3E00000. -/
theorem hostRead_fwWrite (hop : tget s.dev.ops op = some ⟨src, p, .other 0x0F31 1 off len, ab⟩) (hlen : b.length = len) :
    hostRead op .ok b s = { s with
      store := s.store.write (0x3E00000 + off) b
      dev := ((s.dev.endOp s.ctx op .ok [wd b.length]).schedule s.ctx).reedSettle s.ctx } := by
  subst hlen
  exact hostRead_of_data hop rfl

/-- The signature of a SEC_RMA that is the debug key's. -/
theorem hostRead_rma (hop : tget s.dev.ops op = some ⟨src, p, .other 0x0912 y z 0, ab⟩) (hlen : b.length = 512)
    (hok : tokenOk s.ctx s.dev 0x31414D52 b = true) :
    hostRead op .ok b s = { s with
      fuses := s.fuses.toRma
      dev := ((s.dev.rmaEnd s.ctx op).schedule s.ctx).reedSettle s.ctx } := by
  have hfuses : readFuses s.ctx s.dev b (.other 0x0912 y z 0) = s.fuses.toRma := if_pos hok
  have hdone : s.dev.readDone s.ctx op p b (.other 0x0912 y z 0) = s.dev.rmaEnd s.ctx op := if_pos hok
  rw [hostRead_of_data hop (congrArg some hlen.symm), hfuses, hdone]
  rfl

end

/-- Settles O44: the commands by their checks, the data by the operation that has read it. -/
theorem firmwareAndHostReadRowsTakeEffect : Obligations.FirmwareAndHostReadRowsTakeEffect := by
  unfold Obligations.FirmwareAndHostReadRowsTakeEffect
  refine ⟨?commands, fun s op p src ab b hp => ⟨?fwWrite, ?rma, ?failed⟩⟩
  case commands =>
    rintro s₀ s c r q rfl rfl
    refine ⟨fun hs hc hlo hhi hmod ht hend => hostCmd_accept hs (fwWriteCmd_of_inside hc hlo hhi hmod ht hend),
      fun n hs hc hcheck => effDevFwActivate_of_good hs hc hcheck, fun b n off len hs hc hb hseq hdir himage => ?query,
      fun hs hc hbank => effDevSvnCommit_of_preferred hs hc hbank⟩
    case query => exact hostCmd_done hs (fwQueryCmd_of_image hc hb hseq hdir himage)
  case fwWrite =>
    rintro off len hop hlen s₀ rfl
    exact effHostMemoryReadCompletion_eq hp (hostRead_fwWrite hop hlen)
  case rma =>
    rintro y z hop hlen hok s₀ rfl
    exact effHostMemoryReadCompletion_eq hp (hostRead_rma hop hlen hok)
  case failed =>
    rintro k n hop hlen st hst s₀ rfl
    exact effHostMemoryReadCompletion_eq hp (hostRead_of_failure hop hlen hst)

end Sys2Proof.Machine
end

section
namespace Sys2Proof.Machine

/-! ## What leaves the network alone

An operation of another block leaves `Dev.net` as it was: one equation per operation, from the operations that
change one field up to those that settle a whole block. The operations that do change `Dev.net` follow after these,
with what they keep of the table of queue pairs. -/

theorem Dev.foldl_net {α : Type} {f : Dev → α → Dev} (h : ∀ (d : Dev) (a : α), (f d a).net = d.net) (l : List α) (d : Dev) :
    (l.foldl f d).net = d.net := by
  induction l generalizing d with
  | nil => rfl
  | cons a l ih => exact (ih (f d a)).trans (h d a)

theorem Dev.foldl_snd_net {α β : Type} {f : α × Dev → β → α × Dev} (h : ∀ (r : α × Dev) (b : β), (f r b).2.net = r.2.net) (l : List β)
    (r : α × Dev) : (l.foldl f r).2.net = r.2.net := by
  induction l generalizing r with
  | nil => rfl
  | cons b l ih => exact (ih (f r b)).trans (h r b)

theorem Dev.elim_net {α : Type} {d : Dev} {f : α → Dev} (h : ∀ a, (f a).net = d.net) {o : Option α} : (o.elim d f).net = d.net := by
  cases o with
  | none => rfl
  | some a => exact h a

@[simp] theorem Dev.recPart_net (d : Dev) (x : Ctx) (p : Nat) (cls : RecClass) (code src : Nat) (a b c : Word) :
    (d.recPart x p cls code src a b c).net = d.net := (congrArg Dev.net (Dev.rest_recPart d x p cls code src a b c) :)

@[simp] theorem Dev.recDevTo_net (d : Dev) (x : Ctx) (port : Nat) (cls : RecClass) (code src : Nat) (a b c : Word) :
    (d.recDevTo x port cls code src a b c).net = d.net := (congrArg Dev.net (Dev.rest_recDevTo d x port cls code src a b c) :)

@[simp] theorem Dev.recDev_net (d : Dev) (x : Ctx) (cls : RecClass) (code src : Nat) (a b c : Word) :
    (d.recDev x cls code src a b c).net = d.net := (congrArg Dev.net (Dev.rest_recDev d x cls code src a b c) :)

@[simp] theorem Dev.reply_net (d : Dev) (x : Ctx) (c : CmdRec) (st : Status) (res : List Word) :
    (d.reply x c st res).net = d.net :=
  (congrArg Dev.net (Dev.rest_reply d x c st res) :)

@[simp] theorem Dev.endCmd_net (d : Dev) (x : Ctx) (c : CmdRec) (st : Status) (res : List Word) :
    (d.endCmd x c st res).net = d.net :=
  (congrArg Dev.net (Dev.rest_endCmd d x c st res) :)

@[simp] theorem Dev.drainEnd_net (d : Dev) (id : Nat) : (d.drainEnd id).net = d.net := rfl

@[simp] theorem Dev.heldDrain_net (d : Dev) (n : Nat) : (d.heldDrain n).net = d.net := by
  unfold Dev.heldDrain
  grind [Dev.drainEnd_net, Dev.foldl_net]

@[simp] theorem Dev.endOp_net (d : Dev) (x : Ctx) (id : Nat) (st : Status) (res : List Word) :
    (d.endOp x id st res).net = d.net := by
  unfold Dev.endOp
  grind [Dev.drainEnd_net, Dev.endCmd_net, Dev.out_net]

@[simp] theorem Dev.unshape_net (d : Dev) (gone : ShUnit → Bool) : (d.unshape gone).net = d.net := rfl

@[simp] theorem Dev.dropSend_net (d : Dev) (n op : Nat) : (d.dropSend n op).net = d.net := rfl

@[simp] theorem Dev.unpin_net (d : Dev) (g : Nat) : (d.unpin g).net = d.net := by
  unfold Dev.unpin
  split <;> simp

@[simp] theorem Dev.unpinAll_net (d : Dev) (gs : List Nat) : (d.unpinAll gs).net = d.net := by
  unfold Dev.unpinAll
  grind [Dev.unpin_net, Dev.foldl_net]

@[simp] theorem Dev.unpinMsg_net (d : Dev) (q : Qp) (r : Reasm) : (d.unpinMsg q r).net = d.net := by
  unfold Dev.unpinMsg
  split <;> simp

@[simp] theorem Dev.sealedRead_net (d : Dev) (p : Nat) : (d.sealedRead p).net = d.net := rfl

@[simp] theorem Dev.setShFlow_net (d : Dev) (k : Nat) (f : ShFlow) : (d.setShFlow k f).net = d.net := rfl

@[simp] theorem Dev.shape_net (d : Dev) (j p flow prof : Nat) (us : List ShUnit) : (d.shape j p flow prof us).net = d.net := rfl

@[simp] theorem Dev.freeGran_net (d : Dev) (g : Nat) : (d.freeGran g).net = d.net := rfl

@[simp] theorem Dev.freeXchg_net (d : Dev) (k : Kv) : (d.freeXchg k).2.net = d.net := by
  unfold Dev.freeXchg
  grind [Dev.freeGran_net, Dev.foldl_net]

@[simp] theorem Dev.freeBlks_net (d : Dev) (l : List Nat) : (d.freeBlks l).net = d.net := by
  fun_induction Dev.freeBlks <;> simp_all

@[simp] theorem Dev.freeUnits_net (d : Dev) (us : List Nat) : (d.freeUnits us).net = d.net := rfl

@[simp] theorem Dev.freeExts_net (d : Dev) (es : List Nat) : (d.freeExts es).net = d.net := rfl

@[simp] theorem Dev.releaseHome_net (d : Dev) (h : Home) : (d.releaseHome h).net = d.net := by
  unfold Dev.releaseHome
  grind [Dev.freeUnits_net, Dev.freeGran_net, Dev.freeExts_net]

@[simp] theorem Dev.freeKv_net (d : Dev) (k : Kv) : (d.freeKv k).net = d.net := by
  unfold Dev.freeKv
  grind [Dev.freeBlks_net, Dev.freeXchg_net, Dev.releaseHome_net, Dev.foldl_net]

@[simp] theorem Dev.dropXchg_net (d : Dev) (h : Word) : (d.dropXchg h).net = d.net := by
  unfold Dev.dropXchg
  grind [Dev.freeKv_net, Dev.freeXchg_net, Dev.setSes_net]

@[simp] theorem Dev.acted_net (d : Dev) (a len : Nat) : (d.acted a len).net = d.net := rfl

@[simp] theorem Dev.hbmPoison_net (d : Dev) (cws : List Nat) : (d.hbmPoison cws).net = d.net := rfl

@[simp] theorem Dev.putGran_net (d : Dev) (x : Ctx) (a : Nat) (bs : List Byte) (bad : Bool) :
    (d.putGran x a bs bad).net = d.net := by
  unfold Dev.putGran
  grind [Dev.acted_net, Dev.bumpPart_net, Dev.hbmPoison_net, Dev.hbmWrite_net]

@[simp] theorem Dev.pathPut_net (d : Dev) (x : Ctx) (a : Nat) (bs : List Byte) (bad : Bool) :
    (d.pathPut x a bs bad).net = d.net := by
  unfold Dev.pathPut
  split <;> simp

@[simp] theorem Dev.hbmPut_net (d : Dev) (x : Ctx) (a : Nat) (bs : List Byte) (bad : Bool) :
    (d.hbmPut x a bs bad).net = d.net := by
  unfold Dev.hbmPut
  grind [Dev.pathPut_net, Dev.foldl_net]

@[simp] theorem Dev.freshBlock_net (d : Dev) (die : Nat) : (d.freshBlock die).2.net = d.net := by
  unfold Dev.freshBlock
  grind [Dev.foldl_net]

@[simp] theorem Dev.takeRoom_net (d : Dev) (region die : Nat) : (d.takeRoom region die).2.net = d.net := by
  unfold Dev.takeRoom
  grind [Dev.freshBlock_net]

@[simp] theorem Dev.nextUnitPlace_net (d : Dev) (region : Nat) : (d.nextUnitPlace region).2.net = d.net := by
  unfold Dev.nextUnitPlace
  dsimp only
  rw [apply_ite Dev.net, Dev.elim_net (fun k => Dev.takeRoom_net _ region k), ite_self, Dev.takeRoom_net]

@[simp] theorem Dev.relocate_net (d : Dev) (u : Nat) : (d.relocate u).net = d.net := by
  unfold Dev.relocate
  split <;> simp

@[simp] theorem Dev.nandPut_net (d : Dev) (u o : Nat) (bs : List Byte) : (d.nandPut u o bs).net = d.net := by
  simp [Dev.nandPut]

@[simp] theorem Dev.homePut_net (d : Dev) (x : Ctx) (h : Home) (o : Nat) (bs : List Byte) (bad : Bool) :
    (d.homePut x h o bs bad).net = d.net := by
  unfold Dev.homePut
  grind [Dev.hbmPut_net, Dev.nandPut_net]

@[simp] theorem Dev.applyStalled_net (d : Dev) (x : Ctx) (g : Nat) (dst : Option Home) (l : List Stalled) :
    (d.applyStalled x g dst l).net = d.net := by
  induction l generalizing d with
  | nil => rfl
  | cons w ws ih =>
    unfold Dev.applyStalled
    rw [ih]
    cases dst <;> simp
    split <;> simp

@[simp] theorem Dev.movePins_net (d : Dev) (g : Nat) (dst : Option Home) : (d.movePins g dst).net = d.net := by
  unfold Dev.movePins
  grind [Dev.foldl_net]

@[simp] theorem Dev.endCopy_net (d : Dev) (x : Ctx) (g : Nat) (dst : Option Home) : (d.endCopy x g dst).net = d.net := by
  simp [Dev.endCopy]

@[simp] theorem Dev.dropCopies_net (d : Dev) (x : Ctx) (id : Nat) : (d.dropCopies x id).net = d.net := by
  unfold Dev.dropCopies
  grind [Dev.endCopy_net, Dev.foldl_net]

@[simp] theorem Dev.freeDesc_net (d : Dev) (id : Nat) : (d.freeDesc id).net = d.net := rfl

@[simp] theorem Dev.releaseHomes_net (d : Dev) (hs : List Home) : (d.releaseHomes hs).net = d.net := by
  unfold Dev.releaseHomes
  grind [Dev.releaseHome_net, Dev.foldl_net]

@[simp] theorem Dev.shareFree_net (d : Dev) (id : Nat) : (d.shareFree id).net = d.net := by
  unfold Dev.shareFree
  grind [Dev.freeBlks_net, Dev.releaseHomes_net]

@[simp] theorem Dev.setShare_net (d : Dev) (id : Nat) (s : Share) : (d.setShare id s).net = d.net := rfl

@[simp] theorem Dev.adpCheck_net (d : Dev) (p v : Nat) : (d.adpCheck p v).net = d.net := by
  unfold Dev.adpCheck
  grind [Dev.setShare_net, Dev.shareFree_net]

@[simp] theorem Dev.pfxStop_net (d : Dev) (x : Ctx) (id sh n : Nat) (u : GranUse) (st : Status) :
    (d.pfxStop x id sh n u st).net = d.net := by
  unfold Dev.pfxStop
  grind [Dev.adpCheck_net, Dev.dropCopies_net, Dev.endOp_net, Dev.freeBlks_net, Dev.freeDesc_net, Dev.freeGran_net, Dev.foldl_net]

@[simp] theorem Dev.pfxLeave_net (d : Dev) (x : Ctx) (h : Word) : (d.pfxLeave x h).net = d.net := by
  unfold Dev.pfxLeave
  grind [Dev.pfxStop_net, Dev.foldl_net]

@[simp] theorem Dev.goto_net (d : Dev) (x : Ctx) (h : Word) (s : Ses) (t : SesStateName) : (d.goto x h s t).net = d.net := by
  unfold Dev.goto
  grind [Dev.drainEnd_net, Dev.pfxLeave_net, Dev.recPart_net, Dev.setSes_net]

@[simp] theorem Dev.sesLog_net (d : Dev) (x : Ctx) (h : Word) (code a1 a2 : Nat) : (d.sesLog x h code a1 a2).net = d.net := by
  unfold Dev.sesLog
  split <;> simp

@[simp] theorem Dev.enterWarm_net (d : Dev) (x : Ctx) (h : Word) : (d.enterWarm x h).net = d.net := by
  unfold Dev.enterWarm
  grind [Dev.dropXchg_net, Dev.goto_net, Dev.sesLog_net]

@[simp] theorem Dev.hbmZero_net (d : Dev) (a len : Nat) : (d.hbmZero a len).net = d.net := rfl

@[simp] theorem Dev.takeGran_net (d : Dev) (p g : Nat) (u : GranUse) : (d.takeGran p g u).net = d.net := rfl

theorem Dev.takePage_net {e : Dev} {a : Nat} (d : Dev) (p : Nat) (u : GranUse) (h : d.takePage p u = some (a, e)) :
    e.net = d.net := by
  unfold Dev.takePage at h
  grind [Dev.takeGran_net]

theorem Dev.takeRun_net {e : Dev} {a : List Nat} (d : Dev) (p n : Nat) (h : d.takeRun p n = some (a, e)) : e.net = d.net := by
  unfold Dev.takeRun at h
  grind [Dev.takePage_net]

theorem Dev.newKv_net {e : Dev} {a : Kv} (d : Dev) (p layers heads dim fmt pfx : Nat) (h : d.newKv p layers heads dim fmt pfx = some (a, e)) :
    e.net = d.net := by
  unfold Dev.newKv at h
  grind [Dev.takeRun_net]

theorem Dev.takeKv_net {e : Dev} {a : Nat} (d : Dev) (p s c : Nat) (u : GranUse) (h : d.takeKv p s c u = some (a, e)) :
    e.net = d.net := by
  unfold Dev.takeKv at h
  grind [Dev.takeGran_net]

theorem Dev.takeMember_net {e : Dev} {a : Nat} (d : Dev) (p : Nat) (set : List (Nat × Nat)) (u : GranUse) (n m : Nat)
    (h : d.takeMember p set u n m = some (a, e)) : e.net = d.net := by
  fun_induction Dev.takeMember <;> grind [Dev.takeKv_net]

theorem Dev.takeBlk_net {e : Dev} {a : Nat} (d : Dev) (p : Nat) (h : d.takeBlk p = some (a, e)) : e.net = d.net := by
  unfold Dev.takeBlk at h
  grind [Dev.takePage_net]

theorem Dev.takeBlks_net {e : Dev} {l : List Nat} (d : Dev) (p n : Nat) (h : d.takeBlks p n = some (l, e)) : e.net = d.net := by
  induction n generalizing d e l with
  | zero => grind [Dev.takeBlks]
  | succ n ih =>
    unfold Dev.takeBlks at h
    grind [Dev.takeBlk_net]

theorem Dev.growTable_net {e : Dev} {a : Kv} (d : Dev) (p : Nat) (k : Kv) (h : d.growTable p k = some (a, e)) :
    e.net = d.net := by
  unfold Dev.growTable at h
  grind [Dev.takeBlks_net]

theorem Dev.addPage_net {e : Dev} {a : Kv} (d : Dev) (p l : Nat) (k : Kv) (h : d.addPage p l k = some (a, e)) :
    e.net = d.net := by
  unfold Dev.addPage at h
  dsimp only at h
  split at h
  · cases h
  · next g d' hpage => exact (Dev.growTable_net d' p _ h).trans (Dev.takeMember_net d p _ _ _ _ hpage)

theorem Dev.growLayers_add_net {e : Dev} {a : Kv} (p l : Nat) (d : Dev) (k : Kv) (n : Nat)
    (h : Dev.growLayers.add p l d k n = some (a, e)) : e.net = d.net := by
  induction n generalizing d k with
  | zero => grind [Dev.growLayers.add]
  | succ n ih =>
    unfold Dev.growLayers.add at h
    grind [Dev.addPage_net]

theorem Dev.growLayers_net {e : Dev} {a : Kv} (d : Dev) (p n : Nat) (l : List Nat) (k : Kv) (h : d.growLayers p n l k = some (a, e)) :
    e.net = d.net := by
  induction l generalizing d k with
  | nil => grind [Dev.growLayers]
  | cons i l ih =>
    unfold Dev.growLayers at h
    grind [Dev.growLayers_add_net]

theorem Dev.growKv_net {e : Dev} {a : Kv} (d : Dev) (p pos : Nat) (k : Kv) (h : d.growKv p pos k = some (a, e)) :
    e.net = d.net := by
  unfold Dev.growKv at h
  grind [Dev.growLayers_net]

@[simp] theorem Dev.kvShort_net (d : Dev) (x : Ctx) (p : Nat) : (d.kvShort x p).net = d.net := by
  unfold Dev.kvShort
  grind [Dev.recPart_net]

@[simp] theorem Dev.reviveAlloc_net (d : Dev) (x : Ctx) (h : Word) : (d.reviveAlloc x h).net = d.net := by
  unfold Dev.reviveAlloc
  split
  · rfl
  split
  · rfl
  dsimp only
  split
  · next k e hgrow =>
    obtain ⟨m, -, hgrow⟩ := Option.bind_eq_some_iff.1 hgrow
    obtain ⟨r, hnew, hgrow⟩ := Option.bind_eq_some_iff.1 hgrow
    exact (Dev.growKv_net r.2 _ _ _ hgrow).trans (Dev.newKv_net d _ _ _ _ _ _ hnew)
  · simp

@[simp] theorem Dev.startRevive_net (d : Dev) (x : Ctx) (h : Word) (m : Movement) : (d.startRevive x h m).net = d.net := by
  unfold Dev.startRevive
  grind [Dev.goto_net, Dev.reviveAlloc_net, Dev.setSes_net]

@[simp] theorem Dev.unlatch_net (d : Dev) (x : Ctx) (die : Nat) : (d.unlatch x die).net = d.net := by
  unfold Dev.unlatch
  grind [Dev.startRevive_net, Dev.foldl_net]

@[simp] theorem Dev.setOutQ_net (d : Dev) (num : Nat) (q : OutQ) : (d.setOutQ num q).net = d.net := rfl

@[simp] theorem Dev.putRunOrd_net (d : Dev) (x : Ctx) (p : Nat) (l : List Piece) (bs : List Byte) :
    (d.putRunOrd x p l bs).net = d.net := by
  fun_induction Dev.putRunOrd <;> grind [Dev.bumpPart_net, Dev.homePut_net]

theorem Dev.bufWriteOrd_net {e : Dev} (d : Dev) (x : Ctx) (p off : Nat) (bs : List Byte) (h : d.bufWriteOrd x p off bs = some e) :
    e.net = d.net := by
  obtain ⟨l, -, rfl⟩ := Option.map_eq_some_iff.1 h
  exact Dev.putRunOrd_net d x p l bs

theorem Dev.bufWriteOrd_getD_net (d : Dev) (x : Ctx) (p off : Nat) (bs : List Byte) :
    ((d.bufWriteOrd x p off bs).getD d).net = d.net := by
  cases h : d.bufWriteOrd x p off bs with
  | none => rfl
  | some e => exact Dev.bufWriteOrd_net d x p off bs h

theorem Dev.ringPut_net {e : Dev} (d : Dev) (x : Ctx) (p : Nat) (f : Profile) (r : List Byte) (h : d.ringPut x p f r = some e) :
    e.net = d.net := by
  unfold Dev.ringPut at h
  grind [Dev.bufWriteOrd_net, Dev.bufWriteOrd_getD_net]

@[simp] theorem Dev.flushRing_net (d : Dev) (x : Ctx) (num : Nat) (u : Nat) : (d.flushRing x num u).net = d.net := by
  fun_induction Dev.flushRing <;> grind [Dev.ringPut_net, Dev.setOutQ_net]

@[simp] theorem Dev.setReq_net (d : Dev) (num : Nat) (r : Request) : (d.setReq num r).net = d.net := rfl

@[simp] theorem Dev.endSubmits_net (d : Dev) (x : Ctx) (st : Status) (res : List Word) (l : List Nat) :
    (d.endSubmits x st res l).net = d.net := by
  fun_induction Dev.endSubmits <;> simp_all

@[simp] theorem Dev.dequeue_net (d : Dev) (h : Word) : (d.dequeue h).net = d.net := rfl

@[simp] theorem Dev.dropCopy_net (d : Dev) (x : Ctx) (h0 : Home) : (d.dropCopy x h0).net = d.net := by
  cases h0 <;> simp [Dev.dropCopy]

@[simp] theorem Dev.dropUnits_net (d : Dev) (id : Nat) : (d.dropUnits id).net = d.net := rfl

@[simp] theorem Dev.dropSpills_net (d : Dev) (x : Ctx) (h : Word) : (d.dropSpills x h).net = d.net := by
  refine Dev.foldl_net (fun d o => ?_) _ _
  dsimp only
  split
  · split
    · rfl
    · simp only [Dev.dropUnits_net, Dev.freeDesc_net, Dev.freeUnits_net]
      exact Dev.elim_net fun a => Dev.dropCopy_net d x a
  · rfl

@[simp] theorem Dev.endRevives_net (d : Dev) (x : Ctx) (h : Word) (st : Status) (res : List Word) :
    (d.endRevives x h st res).net = d.net := by
  unfold Dev.endRevives
  grind [Dev.endOp_net, Dev.foldl_net]

@[simp] theorem Dev.takePages_net (d : Dev) (p : Nat) (u : GranUse) (n : Nat) : (d.takePages p u n).2.net = d.net := by
  fun_induction Dev.takePages <;> grind [Dev.takePage_net]

@[simp] theorem Dev.setPend_net (d : Dev) (h : Word) (s : Ses) (toks : List Nat) : (d.setPend h s toks).net = d.net := by
  unfold Dev.setPend
  grind [Dev.freeGran_net, Dev.setSes_net, Dev.takePages_net, Dev.foldl_net]

@[simp] theorem Dev.startReq_net (d : Dev) (x : Ctx) (h : Word) (abs : Nat) (bySubmit : Bool) :
    (d.startReq x h abs bySubmit).net = d.net := by
  unfold Dev.startReq
  split <;> simp

@[simp] theorem Dev.enqueue_net (d : Dev) (h : Word) : (d.enqueue h).net = d.net := by
  unfold Dev.enqueue
  grind [Dev.foldl_net]

@[simp] theorem Dev.openWork_net (d : Dev) (x : Ctx) (h : Word) : (d.openWork x h).net = d.net := by
  unfold Dev.openWork
  grind [Dev.enqueue_net, Dev.startReq_net]

@[simp] theorem Dev.startFetch_net (d : Dev) (x : Ctx) (h : Word) (k : Kv) (l j : Nat) :
    (d.startFetch x h k l j).net = d.net := by
  unfold Dev.startFetch
  dsimp only
  split
  · next g e hpage => exact (Dev.takeMember_net _ _ _ _ _ _ hpage :)
  · simp

@[simp] theorem Dev.fetchBack_net (d : Dev) (x : Ctx) (h : Word) : (d.fetchBack x h).net = d.net := by
  unfold Dev.fetchBack
  grind [Dev.startFetch_net, Dev.foldl_net]

@[simp] theorem Dev.takeXchg_net (d : Dev) (p : Nat) (k : Kv) : (d.takeXchg p k).2.net = d.net := by
  unfold Dev.takeXchg
  rw [Dev.foldl_snd_net]
  intro kd m
  split
  · rfl
  split
  · rfl
  split
  · rfl
  · next g e hpage => exact Dev.takeKv_net kd.2 _ _ _ _ hpage

@[simp] theorem Dev.sesXchg_net (d : Dev) (x : Ctx) (h : Word) : (d.sesXchg x h).net = d.net := by
  unfold Dev.sesXchg
  split
  · rfl
  dsimp only
  split
  · simp
  · next s _ _ k e hkv =>
    have he : e.net = d.net := by
      split at hkv
      · cases hkv
        rfl
      · split at hkv
        · exact Dev.newKv_net d _ _ _ _ _ _ hkv
        · cases hkv
    split <;> simp [he]

@[simp] theorem Dev.wakeSpills_net (d : Dev) (h : Word) : (d.wakeSpills h).net = d.net := rfl

@[simp] theorem Dev.enterOpen_net (d : Dev) (x : Ctx) (h : Word) : (d.enterOpen x h).net = d.net := by
  unfold Dev.enterOpen
  split <;> simp

@[simp] theorem Dev.wake_net (d : Dev) (x : Ctx) (h : Word) : (d.wake x h).net = d.net := by
  unfold Dev.wake
  grind [Dev.enterOpen_net, Dev.setSes_net, Dev.startRevive_net]

@[simp] theorem Dev.unitRead_net (d : Dev) (x : Ctx) (u : Nat) (res : NandRead) : (d.unitRead x u res).net = d.net := by
  unfold Dev.unitRead
  grind [Dev.recDev_net]

@[simp] theorem Dev.nandUse_net (d : Dev) (x : Ctx) (u : Nat) : (d.nandUse x u).net = d.net := by
  unfold Dev.nandUse
  split <;> simp

@[simp] theorem Dev.kvUse_net (d : Dev) (x : Ctx) (h : Word) : (d.kvUse x h).net = d.net := by
  unfold Dev.kvUse
  grind [Dev.nandUse_net, Dev.foldl_net]

@[simp] theorem Dev.writeUnit_net (d : Dev) (p region : Nat) (data : List Byte) (bad : Bool) :
    (d.writeUnit p region data bad).2.net = d.net := by
  simp [Dev.writeUnit]

theorem Dev.placeUnits_net {e : Dev} {a : List Nat} (d : Dev) (p : Nat) (bulkOnly : Bool) (l : List (List Byte))
    (h : d.placeUnits p bulkOnly l = some (a, e)) : e.net = d.net := by
  induction l generalizing d e a with
  | nil =>
    cases h
    rfl
  | cons b l ih =>
    unfold Dev.placeUnits at h
    dsimp only at h
    split at h
    · cases h
    split at h
    · cases h
    · next us e' hrest =>
      cases h
      exact (ih _ hrest).trans (Dev.writeUnit_net d p _ b false)

@[simp] theorem Dev.newObj_net (d : Dev) (p : Nat) (k : NandKind) (us : List Nat) (len : Nat) (sl : Bool) :
    (d.newObj p k us len sl).2.net = d.net := rfl

@[simp] theorem Dev.shapeNand_net (d : Dev) (p flow prof op : Nat) (us : List Nat) :
    (d.shapeNand p flow prof op us).net = d.net := rfl

@[simp] theorem Dev.chargePart_net (d : Dev) (p i n : Nat) : (d.chargePart p i n).net = d.net := by
  unfold Dev.chargePart
  dsimp only
  exact Dev.elim_net fun k => Dev.tapAdd_net d p k n

@[simp] theorem Dev.charge_net (d : Dev) (h : Word) (i n : Nat) : (d.charge h i n).net = d.net := by
  unfold Dev.charge
  split <;> simp

theorem Dev.parkWrite_net {e : Dev} (d : Dev) (h : Word) (hw : d.parkWrite h = some e) : e.net = d.net := by
  simp only [Dev.parkWrite] at hw
  split at hw
  · cases hw
  split at hw
  · cases hw
  split at hw
  · cases hw
  split at hw
  · cases hw
  next us e' hplace =>
  have he : e'.net = d.net := (Dev.placeUnits_net _ _ _ _ hplace :)
  cases hw
  simp only [Dev.charge_net, Dev.setSes_net, Dev.shapeNand_net, Dev.newObj_net]
  split <;> exact he

@[simp] theorem Dev.parkBegin_net (d : Dev) (x : Ctx) (h : Word) (op : Nat) (bulk noCompress : Bool) :
    (d.parkBegin x h op bulk noCompress).2.net = d.net := by
  unfold Dev.parkBegin
  grind [Dev.dropSpills_net, Dev.goto_net, Dev.kvUse_net, Dev.parkWrite_net]

@[simp] theorem Dev.setBatch_net (d : Dev) (m : Nat) (b : Batch) : (d.setBatch m b).net = d.net := rfl

theorem Dev.takeExts_net {e : Dev} {a : List Nat} (d : Dev) (p : Nat) (sts : List Nat) (n : Nat) (h : d.takeExts p sts n = some (a, e)) :
    e.net = d.net := by
  induction n generalizing d e a with
  | zero => grind [Dev.takeExts]
  | succ n ih =>
    unfold Dev.takeExts at h
    grind [Dev.hbmZero_net]

@[simp] theorem Dev.takeDesc_net (d : Dev) (id : Nat) : (d.takeDesc id).net = d.net := by
  unfold Dev.takeDesc
  split <;> simp

@[simp] theorem Dev.startShareUp_net (d : Dev) (m : Nat) (k : Mdl) (sh : Nat) : (d.startShareUp m k sh).net = d.net := by
  unfold Dev.startShareUp
  grind [Dev.setMdl_net, Dev.takeDesc_net, Dev.takeExts_net]

@[simp] theorem Dev.pin_net (d : Dev) (g : Nat) : (d.pin g).net = d.net := by
  unfold Dev.pin
  split <;> simp

@[simp] theorem Dev.pinAll_net (d : Dev) (gs : List Nat) : (d.pinAll gs).net = d.net := by
  unfold Dev.pinAll
  grind [Dev.pin_net, Dev.foldl_net]

@[simp] theorem Dev.pinWeights_net (d : Dev) (m : Nat) (k : Mdl) : (d.pinWeights m k).net = d.net := by
  simp [Dev.pinWeights]

@[simp] theorem Dev.lsClear_net (d : Dev) (n : Nat) : (d.lsClear n).net = d.net := rfl

@[simp] theorem Dev.lsWrite_net (d : Dev) (n off : Nat) (bs : List Byte) : (d.lsWrite n off bs).net = d.net := rfl

@[simp] theorem Dev.loadCore_net (d : Dev) (m : Nat) (k : Mdl) (i n : Nat) : (d.loadCore m k i n).net = d.net := by
  unfold Dev.loadCore
  grind [Dev.lsClear_net, Dev.lsWrite_net, Dev.setCore_net]

@[simp] theorem Dev.placeCode_net (d : Dev) (m : Nat) : (d.placeCode m).net = d.net := by
  unfold Dev.placeCode
  grind [Dev.loadCore_net, Dev.pinWeights_net, Dev.foldl_net]

@[simp] theorem Dev.startLoad_net (d : Dev) (at_ : Nat) (m : Nat) (k : Mdl) (org op : Nat) :
    (d.startLoad at_ m k org op).net = d.net := by
  unfold Dev.startLoad
  grind [Dev.placeCode_net, Dev.setCore_net, Dev.setMdl_net, Dev.startShareUp_net, Dev.foldl_net]

@[simp] theorem Dev.freeCores_net (d : Dev) (k : Mdl) : (d.freeCores k).net = d.net := by
  unfold Dev.freeCores
  grind [Dev.setCore_net, Dev.foldl_net]

@[simp] theorem Dev.unpinWeights_net (d : Dev) (m : Nat) (k : Mdl) : (d.unpinWeights m k).net = d.net := by
  unfold Dev.unpinWeights
  split <;> simp

@[simp] theorem Dev.startShareDown_net (d : Dev) (m : Nat) (k : Mdl) (sh : Nat) : (d.startShareDown m k sh).net = d.net := by
  unfold Dev.startShareDown
  grind [Dev.setMdl_net, Dev.takeDesc_net]

@[simp] theorem Dev.endEvicts_net (d : Dev) (x : Ctx) (m : Nat) : (d.endEvicts x m).net = d.net := by
  unfold Dev.endEvicts
  grind [Dev.endOp_net, Dev.setMdl_net, Dev.foldl_net]

@[simp] theorem Dev.finishEvict_net (d : Dev) (x : Ctx) (m : Nat) (toNand : Bool) : (d.finishEvict x m toNand).net = d.net := by
  unfold Dev.finishEvict
  grind [Dev.bumpPart_net, Dev.endEvicts_net, Dev.freeCores_net, Dev.setMdl_net, Dev.startShareDown_net, Dev.unpinWeights_net, Dev.foldl_net]

@[simp] theorem Dev.startEvict_net (d : Dev) (x : Ctx) (m : Nat) (toNand : Bool) : (d.startEvict x m toNand).net = d.net := by
  unfold Dev.startEvict
  grind [Dev.finishEvict_net, Dev.setMdl_net]

@[simp] theorem Dev.autoLoad_net (d : Dev) (x : Ctx) (m : Nat) (u : Nat) : (d.autoLoad x m u).net = d.net := by
  fun_induction Dev.autoLoad <;> grind [Dev.recPart_net, Dev.setMdl_net, Dev.startEvict_net, Dev.startLoad_net]

@[simp] theorem Dev.letIn_net (d : Dev) (x : Ctx) (h : Word) : (d.letIn x h).net = d.net := by
  unfold Dev.letIn
  grind [Dev.autoLoad_net, Dev.fetchBack_net, Dev.goto_net]

@[simp] theorem Dev.retryXchg_net (d : Dev) (x : Ctx) (h : Word) : (d.retryXchg x h).net = d.net := by
  unfold Dev.retryXchg
  grind [Dev.sesXchg_net]

@[simp] theorem Dev.afterReq_net (d : Dev) (x : Ctx) (h : Word) : (d.afterReq x h).net = d.net := by
  unfold Dev.afterReq
  grind [Dev.dequeue_net, Dev.enterOpen_net, Dev.enterWarm_net, Dev.openWork_net, Dev.setSes_net]

theorem Dev.rowPages_net {e : Dev} (d : Dev) (x : Ctx) (h : Word) (count : Nat) (h : d.rowPages x h count = some e) :
    e.net = d.net := by
  unfold Dev.rowPages at h
  grind [Dev.growKv_net, Dev.setSes_net]

@[simp] theorem Dev.nandUses_net (d : Dev) (x : Ctx) (us : List Nat) : (d.nandUses x us).net = d.net := by
  unfold Dev.nandUses
  grind [Dev.nandUse_net, Dev.foldl_net]

@[simp] theorem Dev.objUse_net (d : Dev) (x : Ctx) (tok : Nat) : (d.objUse x tok).net = d.net := by
  simp [Dev.objUse]

@[simp] theorem Dev.setJob_net (d : Dev) (j : Nat) (k : CkpJob) : (d.setJob j k).net = d.net := rfl

@[simp] theorem Dev.shapeHost_net (d : Dev) (f : Fn) (sq p op addr : Nat) (bs : List Byte) (st : Status) (res : List Word) :
    (d.shapeHost f sq p op addr bs st res).net = d.net := rfl

@[simp] theorem Dev.restoreEnd_net (d : Dev) (x : Ctx) (j : Nat) (k : CkpJob) (r : CkpRestore) :
    (d.restoreEnd x j k r).net = d.net := by
  unfold Dev.restoreEnd
  grind [Dev.drainEnd_net, Dev.endOp_net, Dev.setJob_net, Dev.shapeHost_net]

@[simp] theorem Dev.putRun_net (d : Dev) (x : Ctx) (l : List Piece) (bs : List Byte) : (d.putRun x l bs).net = d.net := by
  fun_induction Dev.putRun <;> simp_all

theorem Dev.bufWrite_net {e : Dev} (d : Dev) (x : Ctx) (p off : Nat) (bs : List Byte) (h : d.bufWrite x p off bs = some e) :
    e.net = d.net := by
  obtain ⟨l, -, rfl⟩ := Option.map_eq_some_iff.1 h
  exact Dev.putRun_net d x l bs

theorem Dev.takeIndex_net {e : Dev} {a : Nat} (d : Dev) (p die : Nat) (h : d.takeIndex p die = some (a, e)) : e.net = d.net := by
  unfold Dev.takeIndex at h
  dsimp only at h
  split at h
  · cases h
    split <;> rfl
  · obtain ⟨i, -, hi⟩ := Option.map_eq_some_iff.1 h
    cases hi
    rfl

@[simp] theorem Dev.shareRef_net (d : Dev) (id : Nat) : (d.shareRef id).net = d.net := by
  unfold Dev.shareRef
  split <;> simp

theorem Dev.newSes_net {e : Dev} {a : Word} (d : Dev) (x : Ctx) (p die m v pf comp win : Nat) (st : SesStateName) (mv : Option Movement)
    (h : d.newSes x p die m v pf comp win st mv = some (a, e)) : e.net = d.net := by
  unfold Dev.newSes at h
  split at h
  · cases h
  split at h
  · cases h
  next i d1 hidx =>
  split at h
  · cases h
  next blk d2 hblk =>
  have hd : d2.net = d.net := (Dev.takeBlk_net d1 p hblk).trans (Dev.takeIndex_net d p die hidx)
  cases h
  split <;> simp [hd]

@[simp] theorem Dev.putVecs_net (d : Dev) (k : Kv) (ctx : Nat) (vs : List (List Byte)) : (d.putVecs k ctx vs).net = d.net := by
  unfold Dev.putVecs
  grind [Dev.hbmWrite_net, Dev.foldl_net]

theorem Dev.decodeImage_net {e : Dev} {a : Kv} (d : Dev) (p : Nat) (s : Ses) (img : List Byte) (g : ParkGeo)
    (h : d.decodeImage p s img g = some (a, e)) : e.net = d.net := by
  unfold Dev.decodeImage at h
  split at h
  · cases h
  next k d1 hkv =>
  have hd1 : d1.net = d.net := by
    split at hkv
    · cases hkv
      rfl
    · exact Dev.newKv_net d _ _ _ _ _ _ hkv
  split at h
  · cases h
  next k2 d2 hgrow =>
  cases h
  rw [Dev.putVecs_net, Dev.growKv_net d1 _ _ _ hgrow, hd1]

theorem Dev.restoreSes_net {e : Dev} {h : Word} (d : Dev) (x : Ctx) (p : Nat) (b : List Byte) (hb : d.restoreSes x p b = .ok (h, e)) :
    e.net = d.net := by
  unfold Dev.restoreSes at hb
  dsimp only at hb
  split at hb
  · split at hb
    · cases hb
    split at hb
    · cases hb
    split at hb
    · cases hb
    next a d1 hnew =>
    split at hb
    · cases hb
    next kv d2 himage =>
    cases hb
    rw [Dev.sesLog_net, Dev.setPend_net, Dev.decodeImage_net d1 _ _ _ _ himage, Dev.newSes_net d _ _ _ _ _ _ _ _ _ _ hnew]
  · cases hb

theorem Dev.allotExts_net {e : Dev} {a : List Nat} (d : Dev) (p : Nat) (sts : List Nat) (count : Nat) (h : d.allotExts p sts count = some (a, e)) :
    e.net = d.net := by
  unfold Dev.allotExts at h
  grind [Dev.takeExts_net]

@[simp] theorem Dev.setBuf_net (d : Dev) (p e : Nat) (b : Extent) : (d.setBuf p e b).net = d.net := rfl

@[simp] theorem Dev.mapRun_net (d : Dev) (p : Nat) (gone : List Nat) (u : Nat) (l : List Nat) :
    (d.mapRun p gone u l).net = d.net := by
  fun_induction Dev.mapRun <;> simp_all

@[simp] theorem Dev.freeze_net (d : Dev) (p first count : Nat) (sl : Bool) : (d.freeze p first count sl).2.net = d.net := by
  unfold Dev.freeze
  dsimp only
  exact Dev.foldl_net (fun d e => Dev.elim_net fun b => Dev.setBuf_net d p e _) _ _

theorem Dev.restoreObj_net {e : Dev} {a : Nat} (d : Dev) (x : Ctx) (p : Nat) (bs : List Byte) (h : d.restoreObj x p bs = some (a, e)) :
    e.net = d.net := by
  -- The calls with large numbers among their arguments become variables: the kernel would count the numbers down.
  obtain ⟨free, hfree⟩ : ∃ f, f = Dev.freeRun := ⟨_, rfl⟩
  obtain ⟨write, hwrite⟩ : ∃ f, f = Dev.bufWrite := ⟨_, rfl⟩
  obtain ⟨allot, hallot⟩ : ∃ f, f = Dev.allotExts := ⟨_, rfl⟩
  obtain ⟨n, hn⟩ : ∃ n, n = (bs.length + 2097151) / 2097152 := ⟨_, rfl⟩
  have hdef := Eq.refl @Dev.restoreObj
  conv at hdef =>
    rhs
    delta Dev.restoreObj
  rw [← hfree, ← hwrite, ← hallot] at hdef
  rw [hdef] at h
  dsimp only at h
  rw [← hn] at h
  split at h
  · next first es d1 _ hes =>
    split at h
    · cases h
    next d2 hput =>
    rw [hallot] at hes
    rw [hwrite] at hput
    have hd : d2.net = d.net :=
  (Dev.bufWrite_net _ x p _ bs hput).trans ((Dev.mapRun_net d1 p _ _ _).trans (Dev.allotExts_net d p _ _ hes))
    cases h
    split <;> simp [hd]
  · cases h

theorem Dev.restoreItem_net {e : Dev} {n old new : Nat} (d : Dev) (x : Ctx) (p : Nat) (it : CkpItem) (rest : List CkpItem) (b : List Byte)
    (rem : Nat) (h : d.restoreItem x p it rest b rem = .done n old new e) : e.net = d.net := by
  unfold Dev.restoreItem at h
  grind [Dev.bufWrite_net, Dev.restoreSes_net, Dev.restoreObj_net]

@[simp] theorem Dev.freeObj_net (d : Dev) (t : Nat) : (d.freeObj t).net = d.net := by
  unfold Dev.freeObj
  split <;> simp

@[simp] theorem Dev.ckpMarks_net (d : Dev) : (d.ckpMarks).net = d.net := rfl

@[simp] theorem Dev.ckpFlush_net (d old : Dev) (x : Ctx) (l : List Stalled) : (d.ckpFlush old x l).net = d.net := by
  fun_induction Dev.ckpFlush <;> grind [Dev.bumpPart_net, Dev.pathPut_net]

@[simp] theorem Dev.putJob_net (d : Dev) (x : Ctx) (j : Nat) (k : CkpJob) : (d.putJob x j k).net = d.net := by
  simp [Dev.putJob]

@[simp] theorem Dev.endOps_net (d : Dev) (x : Ctx) (st : Status) (res : List Word) (l : List Nat) :
    (d.endOps x st res l).net = d.net := by
  fun_induction Dev.endOps <;> simp_all

theorem Dev.ckpObj_net {e : Dev} {a b : Nat} (d : Dev) (p : Nat) (kind : NandKind) (bs : List Byte) (h : d.ckpObj p kind bs = some (a, b, e)) :
    e.net = d.net := by
  unfold Dev.ckpObj at h
  split at h
  · cases h
  split at h
  · cases h
  next us d1 hplace =>
  cases h
  rw [Dev.newObj_net, Dev.shapeNand_net]
  exact (Dev.placeUnits_net d _ _ _ hplace :)

@[simp] theorem Dev.ckpVerdict_net (d : Dev) (j group index : Nat) (skip : Option Nat) :
    (d.ckpVerdict j group index skip).net = d.net := by
  unfold Dev.ckpVerdict
  (repeat' split) <;> simp

@[simp] theorem Dev.ckpAnswer_net (d : Dev) (j : Nat) (k : CkpJob) (r : CkpRun) (a : CkpAnn) :
    (d.ckpAnswer j k r a).net = d.net := by
  unfold Dev.ckpAnswer
  split <;> simp

@[simp] theorem Dev.ckpReport_net (d : Dev) (j : Nat) (k : CkpJob) (r : CkpRun) : (d.ckpReport j k r).net = d.net := by
  unfold Dev.ckpReport
  split <;> simp

end Sys2Proof.Machine
end

section
/-! ## Which queue pairs there are

The operations of the network keep the numbers of the queue pairs: what they write is a queue pair that is there. -/

namespace Sys2Proof.Machine

/-- The numbers under which a table holds something. -/
def tnums {α : Type} (t : Tbl α) : Set Nat := {k | (tget t k).isSome = true}

theorem mem_tnums {α : Type} {t : Tbl α} {k : Nat} {v : α} (h : tget t k = some v) : k ∈ tnums t :=
  (congrArg Option.isSome h :)

theorem tnums_tset {α : Type} (t : Tbl α) (k : Nat) (v : α) : tnums (tset t k v) = insert k (tnums t) := by
  ext l
  by_cases hl : l = k
  · simp [tnums, hl]
  · simp [tnums, hl, tget_tset_other t v hl]

theorem isSome_tget_tmod {α : Type} (t : Tbl α) (k l : Nat) (f : α → α) : (tget (tmod t k f) l).isSome = (tget t l).isSome := by
  induction t with
  | nil => rfl
  | cons e t ih =>
    obtain ⟨j, u⟩ := e
    by_cases hj : j = k
    · simp only [tmod, if_pos hj, tget, apply_ite Option.isSome, Option.isSome_some]
    · simp only [tmod, if_neg hj, tget, apply_ite Option.isSome, ih]

@[simp] theorem tnums_tmod {α : Type} (t : Tbl α) (k : Nat) (f : α → α) : tnums (tmod t k f) = tnums t :=
  Set.ext fun l => iff_of_eq (congrArg (· = true) (isSome_tget_tmod t k l f))

theorem Dev.mem_qps {d : Dev} {n : Nat} {q : Qp} (h : d.qp n = some q) : n ∈ tnums d.net.qps := mem_tnums h

theorem Dev.foldl_qps {α : Type} {f : Dev → α → Dev} (h : ∀ (d : Dev) (a : α), tnums (f d a).net.qps = tnums d.net.qps) (l : List α)
    (d : Dev) : tnums (l.foldl f d).net.qps = tnums d.net.qps := by
  induction l generalizing d with
  | nil => rfl
  | cons a l ih => exact (ih (f d a)).trans (h d a)

theorem Dev.setQp_qps {d : Dev} {n : Nat} (q : Qp) (h : n ∈ tnums d.net.qps) : tnums (d.setQp n q).net.qps = tnums d.net.qps :=
  (tnums_tset d.net.qps n q).trans (Set.insert_eq_of_mem h)

@[simp] theorem Dev.modQp_qps (d : Dev) (n : Nat) (f : Qp → Qp) : tnums (d.modQp n f).net.qps = tnums d.net.qps := tnums_tmod _ n f

/-! ### The ends of messages and of queue pairs -/

@[simp] theorem Dev.endSend_qps (d : Dev) (x : Ctx) (n op : Nat) (st : Status) : tnums (d.endSend x n op st).net.qps = tnums d.net.qps := by
  unfold Dev.endSend
  split
  · simp
  · next q hq =>
    have hmem : n ∈ tnums (d.dropSend n op).net.qps := Dev.mem_qps hq
    split
    · rfl
    · dsimp only
      (repeat' split) <;> simp [Dev.setQp_qps _ hmem]

@[simp] theorem Dev.endSends_qps (d : Dev) (x : Ctx) (n : Nat) (st : Status) (l : List Nat) :
    tnums (d.endSends x n st l).net.qps = tnums d.net.qps := by
  induction l generalizing d with
  | nil => rfl
  | cons o os ih => exact (ih _).trans (Dev.endSend_qps d x n o st)

@[simp] theorem Dev.endDeferred_qps (d : Dev) (x : Ctx) (op : Nat) (st : Status) :
    tnums (d.endDeferred x op st).net.qps = tnums d.net.qps := by
  unfold Dev.endDeferred
  split <;> simp

@[simp] theorem Dev.abortDeferred_qps (d : Dev) (x : Ctx) (l : List Nat) : tnums (d.abortDeferred x l).net.qps = tnums d.net.qps := by
  induction l generalizing d with
  | nil => rfl
  | cons o os ih => exact (ih _).trans (Dev.endDeferred_qps d x o .aborted)

@[simp] theorem Dev.closeMsg_qps (d : Dev) (n msn : Nat) : tnums (d.closeMsg n msn).net.qps = tnums d.net.qps := by
  unfold Dev.closeMsg
  split
  · rfl
  · next q hq =>
    split
    · rfl
    · simp [Dev.setQp_qps _ (Dev.mem_qps hq)]

@[simp] theorem Dev.dropEwr_qps (d : Dev) (qpn id : Nat) : (d.dropEwr qpn id).net.qps = d.net.qps := rfl

@[simp] theorem Dev.sendAck_qps (d : Dev) (n msn status psn : Nat) (nak rnr : Option Nat) :
    tnums (d.sendAck n msn status psn nak rnr).net.qps = tnums d.net.qps := by
  unfold Dev.sendAck
  split
  · rfl
  · next q hq => exact Dev.setQp_qps _ (Dev.mem_qps hq)

@[simp] theorem Dev.answer_qps (d : Dev) (n msn : Nat) (st : Status) : tnums (d.answer n msn st).net.qps = tnums d.net.qps := by
  simp [Dev.answer]

@[simp] theorem Dev.refuseMsg_qps (d : Dev) (x : Ctx) (n msn psn id : Nat) :
    tnums (d.refuseMsg x n msn psn id).net.qps = tnums d.net.qps := by
  unfold Dev.refuseMsg
  split
  · rfl
  · dsimp only
    split <;> simp

@[simp] theorem Dev.withdrawEwr_qps (d : Dev) (x : Ctx) (qpn id : Nat) : tnums (d.withdrawEwr x qpn id).net.qps = tnums d.net.qps := by
  unfold Dev.withdrawEwr
  split
  · rfl
  · dsimp only
    split
    · simp
    · split <;> simp

@[simp] theorem Dev.withdrawAll_qps (d : Dev) (x : Ctx) (l : List Nat) : tnums (d.withdrawAll x l).net.qps = tnums d.net.qps := by
  induction l generalizing d with
  | nil => rfl
  | cons k ks ih => exact (ih _).trans (Dev.withdrawEwr_qps d x _ _)

@[simp] theorem Dev.qpError_qps (d : Dev) (x : Ctx) (n : Nat) : tnums (d.qpError x n).net.qps = tnums d.net.qps := by
  unfold Dev.qpError
  split
  · rfl
  · next q hq =>
    have hmem : n ∈ tnums (d.heldDrain n).net.qps := by simpa using Dev.mem_qps hq
    simp only [Dev.withdrawAll_qps]
    rw [Dev.foldl_qps fun d m => Dev.closeMsg_qps d n m]
    simp [Dev.setQp_qps _ hmem]

/-! ### What a queue pair sends -/

theorem Dev.makePlace_qps {d e : Dev} {die : Nat} (h : d.makePlace die = some e) : tnums e.net.qps = tnums d.net.qps := by
  unfold Dev.makePlace at h
  split at h
  · cases h
    rfl
  · split at h
    · cases h
    · split at h
      · cases h
      · next q hq =>
        obtain ⟨port, -, rfl⟩ := Option.map_eq_some_iff.1 h
        exact Dev.setQp_qps _ (Dev.mem_qps hq)

@[simp] theorem Dev.needCtx_qps (d : Dev) (x : Ctx) (n : Nat) : tnums (d.needCtx x n).net.qps = tnums d.net.qps := by
  unfold Dev.needCtx
  split
  · rfl
  · split
    · rfl
    · exact Dev.qpError_qps d x n
    · split
      · rfl
      · split
        · rfl
        · next e he => exact (Dev.modQp_qps e n _).trans (Dev.makePlace_qps he)

@[simp] theorem Dev.transmit_qps (d : Dev) (n : Nat) (s : Send) (data : List Byte) (k : Nat) :
    tnums (d.transmit n s data k).net.qps = tnums d.net.qps := by
  unfold Dev.transmit
  split
  · rfl
  · next q hq => simp [Dev.setQp_qps _ (Dev.mem_qps hq)]

@[simp] theorem Dev.pumpFuel_qps (d : Dev) (x : Ctx) (n f : Nat) : tnums (d.pumpFuel x n f).net.qps = tnums d.net.qps := by
  induction f generalizing d with
  | zero => rfl
  | succ f ih =>
    unfold Dev.pumpFuel
    split
    · rfl
    · next q hq =>
      dsimp only
      (repeat' split) <;> simp [ih, Dev.setQp_qps _ (Dev.mem_qps hq)]

@[simp] theorem Dev.pump_qps (d : Dev) (x : Ctx) (n : Nat) : tnums (d.pump x n).net.qps = tnums d.net.qps := Dev.pumpFuel_qps d x n _

@[simp] theorem Dev.pumpPart_qps (d : Dev) (x : Ctx) (p : Nat) : tnums (d.pumpPart x p).net.qps = tnums d.net.qps :=
  Dev.foldl_qps (fun d n => Dev.pump_qps d x n) _ d

@[simp] theorem Dev.unsend_qps (d : Dev) (n op : Nat) : tnums (d.unsend n op).net.qps = tnums d.net.qps := by
  unfold Dev.unsend
  split
  · rfl
  · dsimp only
    split
    · rfl
    · rw [Dev.modQp_qps]
      exact Dev.foldl_qps (fun d t => by simp) _ d

@[simp] theorem Dev.dropUnsent_qps (d : Dev) (m : Movement) : tnums (d.dropUnsent m).net.qps = tnums d.net.qps :=
  (Dev.modQp_qps _ _ _).trans (Dev.foldl_qps (fun d o => Dev.unsend_qps d m.qpn o) _ d)

theorem Dev.qp_of_ownQp {d : Dev} {p n : Nat} {q : Qp} (h : d.ownQp p n = some q) : d.qp n = some q := by
  unfold Dev.ownQp at h
  split at h
  · next t hq =>
    split at h
    · exact hq.trans h
    · cases h
  · cases h

theorem Dev.netPost_qps {d e : Dev} {x : Ctx} {g : Engine} {p n kind va : Nat} {bs : List Byte} {key imm : Word}
    (h : d.netPost x g p n kind bs va key imm = some e) : tnums e.net.qps = tnums d.net.qps := by
  unfold Dev.netPost at h
  split at h
  · cases h
  · next q hq =>
    split at h
    · cases h
    · cases h
      rw [Dev.pump_qps]
      exact Dev.setQp_qps _ (Dev.mem_qps (Dev.qp_of_ownQp hq))

/-! ### The ends of requests and of moves -/

@[simp] theorem Dev.deliverOut_qps (d : Dev) (x : Ctx) (num p : Nat) (f : Profile) (r : List Byte) :
    tnums (d.deliverOut x num p f r).net.qps = tnums d.net.qps := by
  unfold Dev.deliverOut
  dsimp only
  split
  · split
    · next e he => simp [Dev.netPost_qps he]
    · rfl
  · split <;> simp

@[simp] theorem Dev.sendRecord_qps (d : Dev) (x : Ctx) (num status flags stop : Nat) (text : List Byte) :
    tnums (d.sendRecord x num status flags stop text).net.qps = tnums d.net.qps := by
  unfold Dev.sendRecord
  split
  · rfl
  · split
    · rfl
    · simp

end Sys2Proof.Machine
end

section
/-! ### The ends of requests, moves and checkpoints keep the queue pairs -/

namespace Sys2Proof.Machine

theorem Dev.elim_qps {α : Type} {d : Dev} {f : α → Dev} (h : ∀ a, tnums (f a).net.qps = tnums d.net.qps) {o : Option α} :
    tnums (o.elim d f).net.qps = tnums d.net.qps := by
  cases o with
  | none => rfl
  | some a => exact h a

theorem Dev.getD_qps {d : Dev} {o : Option Dev} (h : ∀ e, o = some e → tnums e.net.qps = tnums d.net.qps) :
    tnums (o.getD d).net.qps = tnums d.net.qps := by
  cases o with
  | none => rfl
  | some e => exact h e rfl

/-! #### Requests and sessions -/

@[simp] theorem Dev.finishReq_qps (d : Dev) (x : Ctx) (h : Word) (aborted : Bool) (text : List Byte) :
    tnums (d.finishReq x h aborted text).net.qps = tnums d.net.qps := by
  unfold Dev.finishReq
  split
  · rfl
  · split
    · rfl
    · dsimp only
      (repeat' split) <;> simp

@[simp] theorem Dev.enterClosing_qps (d : Dev) (x : Ctx) (h : Word) : tnums (d.enterClosing x h).net.qps = tnums d.net.qps := by
  unfold Dev.enterClosing
  split
  · rfl
  · dsimp only
    (repeat' split) <;> simp

@[simp] theorem Dev.settle_qps (d : Dev) (x : Ctx) (h : Word) : tnums (d.settle x h).net.qps = tnums d.net.qps := by
  unfold Dev.settle
  split
  · rfl
  · (repeat' split) <;> simp

@[simp] theorem Dev.parkBack_qps (d : Dev) (x : Ctx) (h : Word) : tnums (d.parkBack x h).net.qps = tnums d.net.qps := by
  unfold Dev.parkBack
  split <;> simp

/-! #### Moves -/

@[simp] theorem Dev.moveBack_qps (d : Dev) (x : Ctx) (h : Word) (st : Status) : tnums (d.moveBack x h st).net.qps = tnums d.net.qps := by
  unfold Dev.moveBack
  split
  · rfl
  · split
    · rfl
    · dsimp only
      split <;> simp

@[simp] theorem Dev.moveAbandon_qps (d : Dev) (x : Ctx) (h : Word) (m : Movement) :
    tnums (d.moveAbandon x h m).net.qps = tnums d.net.qps := by
  unfold Dev.moveAbandon
  rw [Dev.moveBack_qps]
  split
  · rfl
  · exact (Dev.getD_qps fun e he => Dev.netPost_qps he).trans (Dev.dropUnsent_qps d m)

@[simp] theorem Dev.postRecord_qps (d : Dev) (x : Ctx) (h : Word) (s : Ses) (m : Movement) :
    tnums (d.postRecord x h s m).net.qps = tnums d.net.qps := by
  unfold Dev.postRecord
  dsimp only
  split
  · next e he => simp [Dev.netPost_qps he]
  · exact Dev.moveBack_qps d x h .aborted

@[simp] theorem Dev.moveCheck_qps (d : Dev) (x : Ctx) (h : Word) : tnums (d.moveCheck x h).net.qps = tnums d.net.qps := by
  unfold Dev.moveCheck
  split
  · rfl
  · split
    · rfl
    · (repeat' split) <;> simp

/-! #### The batches of the scheduler -/

@[simp] theorem Dev.allocRows_qps (d : Dev) (x : Ctx) (l : List Row) : tnums (d.allocRows x l).2.net.qps = tnums d.net.qps := by
  induction l generalizing d with
  | nil => rfl
  | cons r rs ih =>
    unfold Dev.allocRows
    split
    · exact ih d
    · split
      · simp [ih]
      · split
        · next e he =>
          dsimp only
          rw [ih, Dev.rowPages_net d x _ _ he]
        · simp [ih]

@[simp] theorem Dev.decide_qps (d : Dev) (x : Ctx) (m : Nat) : tnums (d.decide_ x m).net.qps = tnums d.net.qps := by
  unfold Dev.decide_
  split
  · rfl
  · dsimp only
    split
    · rw [Dev.foldl_net fun d (h : Word) => Dev.letIn_net d x h]
      rfl
    · simp only [Dev.setBatch_net, Dev.allocRows_qps]
      rw [Dev.foldl_net fun d (r : Row) => Dev.dropSpills_net d x r.h,
        Dev.foldl_net fun d (e : Word × Ses × Request) => Dev.retryXchg_net d x e.1,
        Dev.foldl_net fun d (h : Word) => Dev.letIn_net d x h]
      rfl

@[simp] theorem Dev.schedule_qps (d : Dev) (x : Ctx) : tnums (d.schedule x).net.qps = tnums d.net.qps := by
  refine Dev.foldl_qps (fun d m => ?_) _ d
  dsimp only
  split <;> simp

/-! #### Commands held by a checkpoint -/

/-- The state that an answer leaves, from the state `d` that the command found. -/
def Ans.dev (d : Dev) : Ans → Dev
  | .refuse _ => d
  | .done _ _ e => e
  | .accept _ _ e => e
  | .both _ _ _ e => e

theorem sesParkCmd_qps (x : Ctx) (q : Req) (d : Dev) : tnums ((sesParkCmd x q d).dev d).net.qps = tnums d.net.qps := by
  unfold sesParkCmd
  dsimp only
  split
  · rfl
  · next s hs =>
    split
    · rfl
    · split
      · rfl
      · split
        · rfl
        · have hnet := Dev.parkBegin_net d x (q.w 2) q.seq (bitAt (q.w 3).toNat 1) (bitAt (q.w 3).toNat 0)
          split
          · next e he =>
            rw [he] at hnet
            exact congrArg (fun n => tnums n.qps) hnet
          · next e he =>
            rw [he] at hnet
            exact (Dev.parkBack_qps e x _).trans (congrArg (fun n => tnums n.qps) hnet)

theorem sesCloseCmd_qps (x : Ctx) (q : Req) (d : Dev) : tnums ((sesCloseCmd x q d).dev d).net.qps = tnums d.net.qps := by
  unfold sesCloseCmd
  dsimp only
  (repeat' split) <;> simp [Ans.dev]

theorem Dev.ewrPost_qps {d e : Dev} {p n id off len : Nat} {reserve : Bool} {slot : Option (Word × Nat)}
    (h : d.ewrPost p n id off len reserve slot = .ok e) : e.net.qps = d.net.qps := by
  unfold Dev.ewrPost at h
  dsimp only at h
  rcases ite_eq_iff.1 h with ⟨-, h⟩ | ⟨-, h⟩
  · cases h
  · rcases ite_eq_iff.1 h with ⟨-, h⟩ | ⟨-, h⟩ <;> cases h
    rfl

theorem Dev.postAll_qps (d : Dev) (x : Ctx) (p n kind key imm : Nat) (l : List (Nat × List Byte)) :
    tnums (d.postAll x p n kind key imm l).2.net.qps = tnums d.net.qps := by
  induction l generalizing d with
  | nil => rfl
  | cons a l ih =>
    obtain ⟨va, bs⟩ := a
    unfold Dev.postAll
    dsimp only
    split
    · rfl
    · next e he => exact (ih e).trans (Dev.netPost_qps he)

theorem sesMoveCmd_qps (x : Ctx) (q : Req) (d : Dev) : tnums ((sesMoveCmd x q d).dev d).net.qps = tnums d.net.qps := by
  unfold sesMoveCmd
  dsimp only
  split
  · rfl
  · next s hs =>
    split
    · rfl
    · split
      · rfl
      · split
        · rfl
        · split
          · rfl
          · split
            · rfl
            · next e he =>
              have hqps := Dev.ewrPost_qps he
              split
              · exact congrArg tnums hqps
              · simp only [Ans.dev, Dev.goto_net, Dev.postAll_qps, Dev.dropSpills_net, Dev.endRevives_net]
                split <;> simp [hqps]

theorem of_choice_eq_some {α : Type} {P : α → Prop} {p q r : Prop} [Decidable p] [Decidable q] [Decidable r] {a b c v : α} (ha : P a)
    (hb : P b) (hc : P c) (h : (if p then some a else if q then some b else if r then some c else none) = some v) : P v := by
  split at h
  · exact Option.some.inj h ▸ ha
  · split at h
    · exact Option.some.inj h ▸ hb
    · split at h
      · exact Option.some.inj h ▸ hc
      · cases h

@[simp] theorem Dev.heldGo_qps (d : Dev) (x : Ctx) (id : Nat) (o : Op) : tnums (d.heldGo x id o).net.qps = tnums d.net.qps := by
  unfold Dev.heldGo
  split
  · split
    · rfl
    · dsimp only
      have hcmds := @of_choice_eq_some Ans (fun a => tnums (a.dev d).net.qps = tnums d.net.qps)
      split
      · rfl
      · simp
      · next ha => simpa [Ans.dev] using hcmds (sesParkCmd_qps x _ d) (sesCloseCmd_qps x _ d) (sesMoveCmd_qps x _ d) ha
      · next ha => exact hcmds (sesParkCmd_qps x _ d) (sesCloseCmd_qps x _ d) (sesMoveCmd_qps x _ d) ha
      · next ha => simpa [Ans.dev] using hcmds (sesParkCmd_qps x _ d) (sesCloseCmd_qps x _ d) (sesMoveCmd_qps x _ d) ha
  · rfl

@[simp] theorem Dev.heldAll_qps (d : Dev) (x : Ctx) : tnums (d.heldAll x).net.qps = tnums d.net.qps :=
  Dev.foldl_qps (fun d (o : Nat × Op) => Dev.heldGo_qps d x o.1 o.2) _ d

end Sys2Proof.Machine
end

section
/-! ### The steps of Sheaf keep the queue pairs -/

namespace Sys2Proof.Machine

/-! #### Restores -/

@[simp] theorem Dev.sheafDrop_qps (d : Dev) (n : Nat) (ops : List Nat) : tnums (d.sheafDrop n ops).net.qps = tnums d.net.qps := by
  unfold Dev.sheafDrop
  dsimp only [Dev.unshape]
  split
  · rfl
  · next q hq => exact Dev.setQp_qps _ (Dev.mem_qps hq)

@[simp] theorem Dev.restoreStop_qps (d : Dev) (x : Ctx) (j : Nat) (st : Status) :
    tnums (d.restoreStop x j st).net.qps = tnums d.net.qps := by
  unfold Dev.restoreStop
  split
  · rfl
  · split <;> simp

@[simp] theorem Dev.restoreItems_qps (d : Dev) (x : Ctx) (j : Nat) (k : CkpJob) (r : CkpRestore) (l : List CkpItem) :
    tnums (d.restoreItems x j k r l).net.qps = tnums d.net.qps := by
  induction l generalizing d r with
  | nil => rfl
  | cons it its ih =>
    unfold Dev.restoreItems
    dsimp only
    split
    · rfl
    · simp
    · next e he => rw [ih, Dev.restoreItem_net d x _ _ _ _ _ he]

@[simp] theorem Dev.localShards_qps (d : Dev) (x : Ctx) (j f : Nat) : tnums (d.localShards x j f).net.qps = tnums d.net.qps := by
  induction f generalizing d with
  | zero => rfl
  | succ f ih =>
    unfold Dev.localShards
    split
    · rfl
    · dsimp only
      (repeat' split) <;> simp [ih]

@[simp] theorem Dev.localRestore_qps (d : Dev) (x : Ctx) (j : Nat) (k : CkpJob) (r : CkpRestore) :
    tnums (d.localRestore x j k r).net.qps = tnums d.net.qps := by
  unfold Dev.localRestore
  dsimp only
  (repeat' split) <;> simp

/-! #### Reads and writes of the store -/

theorem Dev.sheafPost_qps {d e : Dev} {x : Ctx} {p n kind : Nat} {key : Word} {l : List (Nat × List Byte)} {ids : List Nat}
    (h : d.sheafPost x p n kind key l = some (ids, e)) : tnums e.net.qps = tnums d.net.qps := by
  induction l generalizing d ids with
  | nil =>
    cases h
    rfl
  | cons a l ih =>
    obtain ⟨va, bs⟩ := a
    unfold Dev.sheafPost at h
    dsimp only at h
    split at h
    · cases h
    · next d' hpost =>
      obtain ⟨r, hr, hre⟩ := Option.map_eq_some_iff.1 h
      cases hre
      exact (ih hr).trans (Dev.netPost_qps hpost)

theorem Dev.storeRead_qps {d e : Dev} {x : Ctx} {k : CkpJob} {a len : Nat} {ids : List Nat}
    (h : d.storeRead x k a len = some (ids, e)) : tnums e.net.qps = tnums d.net.qps := Dev.sheafPost_qps h

theorem Dev.storeWrite_qps {d e : Dev} {x : Ctx} {k : CkpJob} {a : Nat} {bs : List Byte} {ids : List Nat}
    (h : d.storeWrite x k a bs = some (ids, e)) : tnums e.net.qps = tnums d.net.qps := Dev.sheafPost_qps h

@[simp] theorem Dev.remoteNext_qps (d : Dev) (x : Ctx) (j : Nat) : tnums (d.remoteNext x j).net.qps = tnums d.net.qps := by
  unfold Dev.remoteNext
  split
  · rfl
  · dsimp only
    split
    · split
      · simp
      · split
        · simp
        · next he => exact (Dev.storeRead_qps he :)
    · split
      · split <;> simp
      · split
        · simp
        · next he => exact (Dev.storeRead_qps he :)

@[simp] theorem Dev.restoreStep_qps (d : Dev) (x : Ctx) (j : Nat) : tnums (d.restoreStep x j).net.qps = tnums d.net.qps := by
  unfold Dev.restoreStep
  split
  · rfl
  · split
    · simp
    · split
      · simp
      · split
        · rfl
        · split
          · split
            · simp
            · next ha =>
              split
              · simp [Dev.storeRead_qps ha]
              · next hb => exact (Dev.storeRead_qps hb).trans (Dev.storeRead_qps ha)
          · dsimp only
            split
            · simp
            · split
              · simp
              · split
                · simp
                · split
                  · simp
                  · split
                    · simp
                    · next he => exact (Dev.storeRead_qps he :)
            · split <;> simp
            · split
              · rfl
              · split <;> simp

/-! #### Checkpoints -/

@[simp] theorem Dev.ckpStop_qps (d : Dev) (x : Ctx) (j : Nat) (st : Status) : tnums (d.ckpStop x j st).net.qps = tnums d.net.qps := by
  unfold Dev.ckpStop
  split
  · rfl
  · split
    · rfl
    · dsimp only
      rw [Dev.drainEnd_net, Dev.endOps_net, Dev.putJob_net, Dev.sheafDrop_qps, Dev.foldl_net fun d t => Dev.freeObj_net d t]

@[simp] theorem Dev.ckpAbandon_qps (d : Dev) (x : Ctx) (j : Nat) : tnums (d.ckpAbandon x j).net.qps = tnums d.net.qps := by
  unfold Dev.ckpAbandon
  split <;> simp

theorem Dev.ckpWrite_qps {d e : Dev} {x : Ctx} {j i : Nat} {k : CkpJob} {r : CkpRun} {s : CkpShard}
    (h : d.ckpWrite x j k r i s = some e) : tnums e.net.qps = tnums d.net.qps := by
  unfold Dev.ckpWrite at h
  dsimp only at h
  split at h
  · obtain ⟨w, hw, rfl⟩ := Option.map_eq_some_iff.1 h
    rw [Dev.setJob_net, Dev.storeWrite_qps hw]
  · obtain ⟨w, hw, rfl⟩ := Option.map_eq_some_iff.1 h
    rw [Dev.setJob_net, Dev.ckpObj_net _ _ _ _ hw, Dev.foldl_net fun d t => Dev.freeObj_net d t]

/-- What the three records of a checkpoint share: written to the remote store, or kept as an object. -/
theorem Dev.store_or_obj_qps {d e : Dev} {x : Ctx} {k : CkpJob} {a : Nat} {kind : NandKind} {bs : List Byte} {j : Nat}
    {f : List Nat × Dev → CkpJob} {g : Nat × Nat × Dev → CkpJob}
    (h : (if k.remote = true then (d.storeWrite x k a bs).map fun w => w.2.setJob j (f w)
      else (d.ckpObj k.part kind bs).map fun w => w.2.2.setJob j (g w)) = some e) : tnums e.net.qps = tnums d.net.qps := by
  split at h
  · obtain ⟨w, hw, rfl⟩ := Option.map_eq_some_iff.1 h
    rw [Dev.setJob_net, Dev.storeWrite_qps hw]
  · obtain ⟨w, hw, rfl⟩ := Option.map_eq_some_iff.1 h
    rw [Dev.setJob_net, Dev.ckpObj_net _ _ _ _ hw]

theorem Dev.ckpManifest_qps {d e : Dev} {x : Ctx} {j : Nat} {k : CkpJob} {r : CkpRun}
    (h : d.ckpManifest x j k r = some e) : tnums e.net.qps = tnums d.net.qps := Dev.store_or_obj_qps h

theorem Dev.ckpJobManifest_qps {d e : Dev} {x : Ctx} {j : Nat} {k : CkpJob} {r : CkpRun}
    (h : d.ckpJobManifest x j k r = some e) : tnums e.net.qps = tnums d.net.qps := Dev.store_or_obj_qps h

theorem Dev.ckpCommit_qps {d e : Dev} {x : Ctx} {j : Nat} {k : CkpJob} {r : CkpRun}
    (h : d.ckpCommit x j k r = some e) : tnums e.net.qps = tnums d.net.qps := Dev.store_or_obj_qps h

/-- A record that has no room abandons the checkpoint. -/
theorem Dev.getD_ckpAbandon_qps {d : Dev} {x : Ctx} {j : Nat} {o : Option Dev}
    (h : ∀ e, o = some e → tnums e.net.qps = tnums d.net.qps) : tnums (o.getD (d.ckpAbandon x j)).net.qps = tnums d.net.qps :=
  (Dev.getD_qps fun e he => (h e he).trans (Dev.ckpAbandon_qps d x j).symm).trans (Dev.ckpAbandon_qps d x j)

@[simp] theorem Dev.ckpStep_qps (d : Dev) (x : Ctx) (j : Nat) : tnums (d.ckpStep x j).net.qps = tnums d.net.qps := by
  unfold Dev.ckpStep
  split
  · rfl
  · split
    · rfl
    · dsimp only
      split
      · exact Dev.ckpAbandon_qps d x j
      · split
        · exact Dev.getD_ckpAbandon_qps fun e he => Dev.ckpWrite_qps he
        · split
          · split <;> simp
          · split
            · simp
            · split
              · exact Dev.getD_ckpAbandon_qps fun e he => Dev.ckpManifest_qps he
              · split
                · simp
                · split
                  · exact Dev.getD_ckpAbandon_qps fun e he => Dev.ckpJobManifest_qps he
                  · split
                    · exact Dev.getD_ckpAbandon_qps fun e he => Dev.ckpCommit_qps he
                    · rfl

@[simp] theorem Dev.ckpSteps_qps (d : Dev) (x : Ctx) (j f : Nat) : tnums (d.ckpSteps x j f).net.qps = tnums d.net.qps := by
  induction f generalizing d with
  | zero => rfl
  | succ f ih => exact (ih _).trans (Dev.ckpStep_qps d x j)

@[simp] theorem Dev.sheafSettle_qps (d : Dev) (x : Ctx) : tnums (d.sheafSettle x).net.qps = tnums d.net.qps :=
  Dev.foldl_qps (fun d (j : Nat × CkpJob) => (Dev.restoreStep_qps _ x j.1).trans (Dev.ckpSteps_qps d x j.1 _)) _ d

/-- Reed's settling keeps the numbers of the queue pairs. -/
@[simp] theorem Dev.reedSettle_qps (d : Dev) (x : Ctx) : tnums (d.reedSettle x).net.qps = tnums d.net.qps := by
  unfold Dev.reedSettle
  dsimp only
  rw [Dev.schedule_qps]
  simp only [Dev.heldAll_qps, Dev.sheafSettle_qps]
  exact Dev.foldl_qps (fun d h => Dev.moveCheck_qps d x h) _ d

end Sys2Proof.Machine
end

section
/-! The network commands (R297, R306-R316, R324): a queue pair that is destroyed where the table lists its number twice. -/

namespace Sys2Proof.Machine

/-- An idle queue pair of partition 0. -/
def idleQp : Qp :=
  ⟨0, 0, 0, false, false, false, false, false, 1024, none, none, 1, 0, 0, 0, 0, 0, 0, 0, 0, 0, 0, 0, 0, 0, .chip, 0, [], none, false, [], [], 0, [],
    [], 0, 0, [], none⟩

/-- NET_QP_DESTROY of queue pair 3. -/
def destroyQp3 : Cmd := ⟨.ring ⟨0, 0⟩ 0 0, [0x0602, 0, 3]⟩

/-- The record of that command, started. -/
def destroyRec : CmdRec := ⟨1, destroyQp3, ⟨0, 0⟩, 0, 0, 0, 0x0602, 0, some 0, .started, false, false, false, .live, 0, 0⟩

/-- A module whose table of queue pairs lists number 3 twice, with that command started. -/
def twiceListed : State :=
  { State.reset with dev := { Dev.reset with
    boot := { Dev.reset.boot with state := 6, stage := 8 }
    ports := [(0, { PciePort.reset with linkUp := true, vfEnable := true, numVfs := 16 })]
    parts := [(0, .bound 0)]
    cmds := [destroyRec]
    net := { Dev.reset.net with qps := [(3, idleQp), (3, idleQp)] } } }

theorem started_destroyRec : Started 0x0602 destroyQp3 destroyRec twiceListed := by
  unfold Started
  decide +kernel

/-- What is left of the dies when the first entry of the number has been taken out, before the sends that waited go on. -/
def onceListed : Dev :=
  let d := twiceListed.dev.qpError twiceListed.ctx 3
  { d with net := { d.net with qps := tdel d.net.qps 3 } }.unshape fun u => match u.what with
    | .net m _ _ => m == 3
    | _ => false

/-- The other entry of the number is still there. -/
theorem mem_onceListed : 3 ∈ tnums onceListed.net.qps := by
  have h : (tget onceListed.net.qps 3).isSome = true := by decide +kernel
  exact h

theorem qpDestroyCmd_twiceListed : qpDestroyCmd twiceListed.ctx (reqOf destroyQp3 destroyRec) twiceListed.dev =
    .both [] .ok [wd 0] ((onceListed.pumpPart twiceListed.ctx 0).reedSettle twiceListed.ctx) := rfl

theorem exec_netQpDestroy_twiceListed : exec (.netQpDestroy destroyQp3) twiceListed = .next (twiceListed.acceptedDone destroyRec [] .ok [wd 0]
    ((onceListed.pumpPart twiceListed.ctx 0).reedSettle twiceListed.ctx)) :=
  hostCmd_both started_destroyRec qpDestroyCmd_twiceListed

/-- The replies of a command, and what Reed does after it, leave the numbers of the queue pairs. -/
theorem State.acceptedDone_qps (s : State) (r : CmdRec) (res fin : List Word) (st : Status) (d : Dev) (p : Nat) :
    tnums (s.acceptedDone r res st fin ((d.pumpPart s.ctx p).reedSettle s.ctx)).dev.net.qps = tnums d.net.qps := by
  have hframe : (s.acceptedDone r res st fin ((d.pumpPart s.ctx p).reedSettle s.ctx)).dev.net = ((d.pumpPart s.ctx p).reedSettle s.ctx).net :=
    (Dev.endCmd_net _ _ _ _ _).trans (Dev.reply_net _ _ _ _ _)
  rw [hframe, Dev.reedSettle_qps, Dev.pumpPart_qps]

/-- Refutes O34: NET_QP_DESTROY takes one entry out of the table of queue pairs; in a state whose table lists the number twice the queue pair is
still there, and nothing that follows takes it away, so that no state of the dies without it leads to the state that the command leaves. -/
theorem not_networkCommandsComplete : ¬ Obligations.NetworkCommandsComplete := by
  unfold Obligations.NetworkCommandsComplete
  intro h
  obtain ⟨-, hqp, -⟩ := h twiceListed twiceListed destroyQp3 destroyRec _ rfl rfl
  obtain ⟨-, hdestroy, -⟩ := hqp idleQp (by decide +kernel)
  obtain ⟨d, hexec, hgone⟩ := hdestroy started_destroyRec (by decide +kernel)
  have hsame := Host.Outcome.next.inj (exec_netQpDestroy_twiceListed.symm.trans hexec)
  have hnums := congrArg (fun u : State => tnums u.dev.net.qps) hsame
  simp only [State.acceptedDone_qps] at hnums
  have hmem : 3 ∈ tnums d.net.qps := hnums ▸ mem_onceListed
  have hsome : (d.qp 3).isSome = true := hmem
  have hnone : d.qp 3 = none := hgone
  rw [hnone] at hsome
  cases hsome

end Sys2Proof.Machine
end
